-- ==== Sys2Proof/Word.lean ====
section
/-! DEFINITION. The plain types of words: bytes, 32-, 64-, 128- and 512-bit words, and sparse finite maps.
Bit 0 is the least significant bit of any field (R3); a 512-bit value has lanes 0 to 15 of 32 bits (R6). -/

namespace Sys2Proof

/-- One byte of any memory. -/
abbrev Byte := BitVec 8

/-- One lane, one instruction word (R6, R46). -/
abbrev W32 := BitVec 32

/-- A scalar, an address, a cycle count (R6, R23). -/
abbrev Word := BitVec 64

/-- The bits of a capability (R37). -/
abbrev Cap := BitVec 128

/-- The data bits of a register or of a value (R32, R55). -/
abbrev V512 := BitVec 512

/-- A sparse map from numbers to `α`: keys strictly rising, no entry equal to `default`,
so that equal maps are equal lists. A byte memory is `Map Byte`, a list of `Host.Cell`. -/
abbrev Map (α : Type) := List (Nat × α)

/-- What a Tarham flit of a memory or message plane carries for this device (R413, R414). -/
inductive FlitBody where
  /-- A request of a peer for 64 bytes at a space and virtual address of this device (R415). -/
  | read (tag : Nat) (space : Nat) (va : Word)
  /-- A write of a peer: the bytes whose mask bit is 1 (R415). -/
  | write (tag : Nat) (space : Nat) (va : Word) (mask : BitVec 64) (data : V512)
  /-- An atomic of a peer: operation, width code, value and comparand (R292, R415). -/
  | amo (tag : Nat) (space : Nat) (va : Word) (op w : Nat) (v e : Word)
  /-- A message for a queue: whether it is a SENDW, whether it is a capability, logical core, header offset, the collective that it goes
  through plus one (0 for none) with its block index, message (R416, R418). -/
  | message (tag : Nat) (waits cap : Bool) (core off coll index : Nat) (data : V512)
  /-- A question of a peer about an object homed here (R267, R416): 0 a queue's rank, 1 a claim's rank, 2 a queue place, 3 an invocation place;
  4 and 5 give such a place back, 7 tells that the invocation of a claim has been forwarded (R242). A queue is named by its address. -/
  | ask (tag kind : Nat) (object : Word)
  /-- A fulfilment or a break of a claim homed here (R416). -/
  | settle (tag : Nat) (claim : Word) (code : Byte) (data : V512)
  /-- A WAIT of a peer on a claim homed here (R416). -/
  | wait (tag : Nat) (st : Bool) (claim : Word)
  /-- An invocation that a peer addresses to a claim homed here: argument, invocation word, new claim,
  its rank, and the entries it carries: whether a COUNT, object, rank, multiplicity (R416). -/
  | invoke (tag : Nat) (claim : Word) (data : V512) (word new : Word) (rank : Nat) (obs : List (Bool × Word × Nat × Nat))
  /-- Oxkan tells the peer's of a collective (R417, R418, R447): 0 asks which numbers it uses and whether the lodging holds the relay cores named
  there, 1 records the collective, 2 arms it, 3 frees it; its number, contributors, block count, and relays by device, logical core and offset. -/
  | coll (tag op num n blocks : Nat) (relays : List (Nat × Nat × Nat))
  /-- The peer's answer to request `tag` of this device: a fault code (0 for none), the rank of the object that it comes from, and the value
  (R246, R415, R416). -/
  | answer (tag : Nat) (code : Byte) (rank : Nat) (data : V512)
  /-- Link control: every flit of a plane below `seq` has come, or those from `seq` on are to be sent again (R414, log 67). -/
  | ack (plane seq : Nat)
  | replay (plane seq : Nat)
deriving DecidableEq, Repr

/-- An 80-byte slot of a flit (R413): lodging and sender core of its header, and what it carries. -/
structure FlitSlot where
  lodging : Nat
  core : Nat
  body : FlitBody
deriving DecidableEq, Repr

/-- A flit as a link carries it (R413): the link, its CRC, its header fields, and up to three slots. -/
structure Flit where
  link : Nat
  crc : Word
  source : BitVec 20
  dest : BitVec 20
  plane : BitVec 2
  credits : BitVec 6
  seq : BitVec 16
  slots : List FlitSlot
deriving DecidableEq, Repr

end Sys2Proof
end

