-- ==== Sys2Proof/Machine/Bits.lean ====
section
/-! DEFINITION. Bit fields, sign extension, byte order and the fields of the instruction formats (R3, R4, R52). -/

namespace Sys2Proof

/-- Bits `[lo + n - 1 : lo]` of a word (R3). -/
def bitsAt {m : Nat} (w : BitVec m) (lo n : Nat) : BitVec n := w.extractLsb' lo n

/-- Bits `[lo + n - 1 : lo]` as a number. -/
def numAt {m : Nat} (w : BitVec m) (lo n : Nat) : Nat := (w.toNat / 2 ^ lo) % 2 ^ n

/-- Bit `i` of a word. -/
def bitAt {m : Nat} (w : BitVec m) (i : Nat) : Bool := w.getLsbD i

/-- Replaces bits `[lo + n - 1 : lo]` by the low `n` bits of `v`. -/
def setBits {m : Nat} (w : BitVec m) (lo n : Nat) (v : Nat) : BitVec m :=
  let mask : BitVec m := BitVec.ofNat m ((2 ^ n - 1) * 2 ^ lo)
  (w &&& ~~~ mask) ||| BitVec.ofNat m ((v % 2 ^ n) * 2 ^ lo)

/-- The bytes of a word in memory order: little-endian (R4). -/
def bytesOf {m : Nat} (n : Nat) (w : BitVec m) : List Byte :=
  (List.range n).map fun i => BitVec.ofNat 8 (w.toNat / 2 ^ (8 * i))

/-- The number that bytes in memory order spell (R4). -/
def natOfBytes : List Byte → Nat
  | [] => 0
  | b :: bs => b.toNat + 256 * natOfBytes bs

/-- The word that bytes in memory order spell (R4). -/
def wordOfBytes (m : Nat) (bs : List Byte) : BitVec m := BitVec.ofNat m (natOfBytes bs)

/-- Sign extension to 64 bits (R64). -/
def sext64 {n : Nat} (w : BitVec n) : Word := w.signExtend 64

/-- Zero extension to 64 bits (R64). -/
def zext64 {n : Nat} (w : BitVec n) : Word := w.zeroExtend 64

/-- A Bool as a bit. -/
def bit1 (b : Bool) : Nat := if b then 1 else 0

/-! The fields of R52. -/

def major (w : W32) : BitVec 7 := bitsAt w 25 7
def prOf (w : W32) : BitVec 2 := bitsAt w 23 2
def xopT (w : W32) : BitVec 5 := bitsAt w 18 5
def t1Of (w : W32) : BitVec 9 := bitsAt w 9 9
def t0Of (w : W32) : BitVec 9 := bitsAt w 0 9
def imm14Of (w : W32) : BitVec 14 := bitsAt w 9 14
def rE (w : W32) : BitVec 1 := bitsAt w 24 1
def rReg (w : W32) : BitVec 6 := bitsAt w 18 6
def wReg (w : W32) : BitVec 6 := bitsAt w 17 6
def wXop (w : W32) : BitVec 5 := bitsAt w 12 5
def auxOf (w : W32) : BitVec 12 := bitsAt w 0 12
def lsidOf (w : W32) : BitVec 5 := bitsAt w 18 5
def imm18Of (w : W32) : BitVec 18 := bitsAt w 0 18
def off23Of (w : W32) : BitVec 23 := bitsAt w 0 23
def off17Of (w : W32) : BitVec 17 := bitsAt w 0 17
def xKind (w : W32) : BitVec 2 := bitsAt w 23 2
def xPay (w : W32) : BitVec 23 := bitsAt w 0 23

/-! The formats of R52, from the high field to the low one. -/

def mkT (op : BitVec 7) (pr : BitVec 2) (xop : BitVec 5) (t1 t0 : BitVec 9) : W32 := op ++ pr ++ xop ++ t1 ++ t0
def mkI (op : BitVec 7) (pr : BitVec 2) (imm : BitVec 14) (t0 : BitVec 9) : W32 := op ++ pr ++ imm ++ t0
def mkR (op : BitVec 7) (e : BitVec 1) (reg : BitVec 6) (t1 t0 : BitVec 9) : W32 := op ++ e ++ reg ++ t1 ++ t0
def mkW (op : BitVec 7) (pr : BitVec 2) (reg : BitVec 6) (xop : BitVec 5) (aux : BitVec 12) : W32 :=
  op ++ pr ++ reg ++ xop ++ aux
def mkL (op : BitVec 7) (pr : BitVec 2) (lsid : BitVec 5) (imm t0 : BitVec 9) : W32 := op ++ pr ++ lsid ++ imm ++ t0
def mkS (op : BitVec 7) (pr : BitVec 2) (lsid : BitVec 5) (imm : BitVec 18) : W32 := op ++ pr ++ lsid ++ imm
def mkB (op : BitVec 7) (pr : BitVec 2) (off : BitVec 23) : W32 := op ++ pr ++ off
def mkBL (op : BitVec 7) (pr : BitVec 2) (reg : BitVec 6) (off : BitVec 17) : W32 := op ++ pr ++ reg ++ off
def mkX (kind : BitVec 2) (payload : BitVec 23) : W32 := (1 : BitVec 7) ++ kind ++ payload

/-- The target field that names no target (R53). -/
def noTarget : BitVec 9 := 0x1FF

end Sys2Proof
end

