-- ==== Sys2Proof/Machine/Map.lean ====
section
/-! DEFINITION. Sparse maps from numbers: keys strictly rising, no entry equal to the default value, so that equal
maps are equal lists. A key that is not listed holds the default. -/

namespace Sys2Proof
variable {α : Type}

/-- The value at key `k`; the default where none is listed. -/
def mapGet [Inhabited α] : Map α → Nat → α
  | [], _ => default
  | (j, v) :: m, k => if j = k then v else mapGet m k

/-- Takes the entry at key `k` away. -/
def mapDel : Map α → Nat → Map α
  | [], _ => []
  | (j, v) :: m, k => if j = k then mapDel m k else (j, v) :: mapDel m k

/-- Puts an entry at key `k`, in place. -/
def mapIns : Map α → Nat → α → Map α
  | [], k, x => [(k, x)]
  | (j, v) :: m, k, x =>
    if j = k then (k, x) :: m else if k < j then (k, x) :: (j, v) :: m else (j, v) :: mapIns m k x

/-- Sets key `k` to `x`; setting the default takes the entry away. -/
def mapSet [Inhabited α] [DecidableEq α] (m : Map α) (k : Nat) (x : α) : Map α :=
  if x = default then mapDel m k else mapIns m k x

/-- Sets key `k` to `f` of what it held. -/
def mapUpd [Inhabited α] [DecidableEq α] (m : Map α) (k : Nat) (f : α → α) : Map α := mapSet m k (f (mapGet m k))

/-- Every key is above `lo` (when there is one), keys rise, and no value is the default: the canonical form. -/
def mapOkFrom [Inhabited α] [DecidableEq α] : Option Nat → Map α → Bool
  | _, [] => true
  | lo, (j, v) :: m => (match lo with | none => true | some l => decide (l < j)) && decide (v ≠ default) && mapOkFrom (some j) m

/-- The canonical form of a sparse map. -/
def mapOk [Inhabited α] [DecidableEq α] (m : Map α) : Bool := mapOkFrom none m

/-- A byte memory: a list of cells (Host.Cell). A byte that is not listed reads as zero (log 4). -/
abbrev Memory := Map Byte

/-- The canonical form of a memory: addresses strictly rising, no byte listed that an unlisted one reads as. -/
def Memory.wf (m : Memory) : Bool := mapOk m

/-- The keys listed. -/
def mapKeys (m : Map α) : List Nat := m.map Prod.fst

/-- Drops every entry whose key lies in `[lo, hi)`. -/
def mapClear (m : Map α) (lo hi : Nat) : Map α := m.filter fun e => e.1 < lo || hi ≤ e.1

/-- The bytes at `[a, a + n)`. -/
def bytesAt (m : Map Byte) (a n : Nat) : List Byte := (List.range n).map fun i => mapGet m (a + i)

/-- Writes bytes from address `a` upward. -/
def writeBytes (m : Map Byte) : Nat → List Byte → Map Byte
  | _, [] => m
  | a, b :: bs => writeBytes (mapSet m a b) (a + 1) bs

/-- Writes the bytes whose entry is present, from address `a` upward. -/
def writeMasked (m : Map Byte) : Nat → List (Option Byte) → Map Byte
  | _, [] => m
  | a, none :: bs => writeMasked m (a + 1) bs
  | a, some b :: bs => writeMasked (mapSet m a b) (a + 1) bs

/-- The little-endian number of `n` bytes at `a` (R4). -/
def numBytes (m : Map Byte) (a n : Nat) : Nat := natOfBytes (bytesAt m a n)

/-- Writes the low `n` bytes of a number at `a` (R4). -/
def putNum (m : Map Byte) (a n v : Nat) : Map Byte :=
  writeBytes m a ((List.range n).map fun i => BitVec.ofNat 8 (v / 2 ^ (8 * i)))

end Sys2Proof
end

