-- ==== Sys2Proof/Syntax.lean ====
section
/-! DEFINITION. The instructions: one constructor per row of spec/opcode_table.json. The first 81 are the part's
own steps (spec/95_what_each_step_holds.md), which no word encodes; what such a constructor carries names the step:
the core (its physical router number, R13), the slot, the request, or what the
outside world delivers. The other 301 are instruction words (R52, R97 to R116), whose fields stand in the order of
their bits from the high end. -/

namespace Sys2Proof


/-- One constructor per row of the opcode table. -/
inductive Instr where
  /-- `BLOCK_FETCH` (R49). Fetches a block through the code capability. -/
  | blockFetch (core slot : Nat)
  /-- `BLOCK_ADMISSION` (R68). Admits a parked block once its READ and write-mask registers are full, rechecking ranks. -/
  | blockAdmission (core slot : Nat)
  /-- `BLOCK_COMMIT` (R66). Commits a completed block's checks and effects as one step. -/
  | blockCommit (core slot : Nat)
  /-- `COMMIT_WAIT` (R66). Resumes a commit held at step 2 once every WPORT destination has room. -/
  | commitWait (core slot : Nat)
  /-- `BLOCK_STUCK` (R67). Faults a block not completed within 2^20 cycles of admission. -/
  | blockStuck (core slot : Nat)
  /-- `YIELD_TIMEOUT` (R129). Lets a yielded activity's next block be admitted after 64 cycles. -/
  | yieldTimeout (core slot : Nat)
  /-- `SLEEP_EXPIRY` (R132). Lets a sleeping activity be admitted once s.cycle reaches t. -/
  | sleepExpiry (core slot : Nat)
  /-- `INSTRUCTION_AGED` (R329). Promotes an instruction ready for 512 cycles to the front of the keeper's order. -/
  | instructionAged (core slot idx : Nat)
  /-- `FAVOURED_SLOT_MOVE` (R329). Moves each class's favoured slot every 64 cycles. -/
  | favouredSlotMove (core cls : Nat)
  /-- `PORT_WORD_ARRIVAL` (R35). A word from a neighbour enters the port queue. -/
  | portWordArrival (core port : Nat)
  /-- `OUTBOUND_DEPART` (R363). An off-core effect leaves the outbound queue once no rule holds it. -/
  | outboundDepart (req : Nat)
  /-- `HOME_PERFORM` (R360). A home performs a request it takes from its arbiter. -/
  | homePerform (req : Nat)
  /-- `RESPONSE_ARRIVAL` (R362). An acknowledgement or response reaches the issuing core. -/
  | responseArrival (req : Nat)
  /-- `REMOTE_ANSWER` (R267). A home's answer to a rank, place or reservation request returns. -/
  | remoteAnswer (core slot idx : Nat)
  /-- `ENGINE_UNITS` (R210). An engine reports acknowledged units to its receipt. -/
  | engineUnits (core cmd : Nat)
  /-- `ENGINE_END` (R210). An engine command ends and updates its receipt. -/
  | engineEnd (core cmd : Nat)
  /-- `ENGINE_CHUNK_STOP` (R336). An engine stops at its chunk boundary for a switch or migration. -/
  | engineChunkStop (core cmd : Nat)
  /-- `LEAVE_GRANT` (R470). The die's leave desk grants leave to the oldest request the budget covers. -/
  | leaveGrant (die : Nat)
  /-- `MATRIX_COMMAND_ACCEPT` (R226). The matrix unit accepts a held-back command when it has room. -/
  | matrixCommandAccept (req : Nat)
  /-- `BLOCK_STEP` (R226). The matrix unit completes one 31-cycle block-step on a tile. -/
  | blockStep (core : Nat)
  /-- `MZERO_COMPLETE` (R226). The matrix unit finishes zeroing a tile. -/
  | mzeroComplete (core : Nat)
  /-- `ENGINE_STARVED` (R227). Ends an MMA whose next block-step has starved for 2^20 cycles. -/
  | engineStarved (core : Nat)
  /-- `FEED_FBLOCK_ENTER` (R221). An fblock read by the porter enters a feed. -/
  | feedFblockEnter (core : Nat) (feedB : Bool)
  /-- `COUNTER_DISCHARGE` (R261). A discharge is applied at a counter's home. -/
  | counterDischarge (req : Nat)
  /-- `HANDLER_RETRY` (R327). A fired-pending handler or held queue entry is placed when a ring place frees. -/
  | handlerRetry (core : Nat)
  /-- `BIND_ARRIVAL` (R275). A CTR.BIND is applied at the counter's home. -/
  | bindArrival (req : Nat)
  /-- `INVOCATION_ARRIVAL` (R258). An invocation reaches its target claim's home and is held, forwarded or broken. -/
  | invocationArrival (req : Nat)
  /-- `CLAIM_FULFILMENT` (R256). A fulfilment reaches a claim's home and resolves it. -/
  | claimFulfilment (req : Nat)
  /-- `CLAIM_BREAK` (R256). A break reaches a claim's home and breaks it and its invocations. -/
  | claimBreak (req : Nat)
  /-- `QUEUE_MESSAGE_ARRIVAL` (R283). A message is written into its reserved queue entry. -/
  | queueMessageArrival (req : Nat)
  /-- `SENDW_RESEND` (R284). A core resends a SENDW refused by a full wait list every 1,024 cycles. -/
  | sendwResend (req : Nat)
  /-- `CLAIM_WAITER_POLL` (R255). A waiter answered pending polls the claim's home every 1,024 cycles. -/
  | claimWaiterPoll (req : Nat)
  /-- `OBJECT_WAITER_POLL` (R263). A waiter without a record asks the object's core again every 1,024 cycles. -/
  | objectWaiterPoll (req : Nat)
  /-- `DESK_DECISION` (R320). The launch desk makes one placement decision per cycle. -/
  | deskDecision
  /-- `LAUNCH_AGED` (R320). A desk queue head that has waited 65,536 cycles becomes aged. -/
  | launchAged (lodging queue : Nat)
  /-- `START_ARRIVAL` (R324). A start reaches its core and takes a run-ring place or waits. -/
  | startArrival (req : Nat)
  /-- `ARRIVAL_RESEND` (R325). A refused start is sent again every 1,024 cycles. -/
  | arrivalResend (req : Nat)
  /-- `RING_START` (R326). A run-ring head starts once a slot and its lots are free. -/
  | ringStart (core : Nat)
  /-- `STATION_REQUEST` (R389). A translation station takes a request and hits or starts a walk. -/
  | stationRequest (req : Nat)
  /-- `WALK_COMPLETE` (R391). A page walk ends in a leaf, or parks requests at an invalid entry. -/
  | walkComplete (req : Nat)
  /-- `FAULT_MESSAGE_SEND` (R422). The station sends the fault message once the fault queue has room. -/
  | faultMessageSend (station entry : Nat)
  /-- `ATS_TRANSLATION_COMPLETION` (R394). An ATS translation answer reaches a station. -/
  | atsTranslationCompletion (req : Nat) (pa size : Nat) (rd wr : Bool)
  /-- `PAGE_REQUEST_SEND` (R395). A PRI page request is sent once a credit is free. -/
  | pageRequestSend (station pasid page : Nat)
  /-- `PRI_RESPONSE` (R395). A page-request response replays or fails the parked requests. -/
  | priResponse (pasid page code : Nat)
  /-- `ATS_INVALIDATION_REQUEST` (R396). An ATS invalidation reaches all 64 stations. -/
  | atsInvalidationRequest (pasid va len tag : Nat)
  /-- `STATION_INVALIDATION_ANSWER` (R396). A station answers an invalidation once every request using it is performed. -/
  | stationInvalidationAnswer (station tag : Nat)
  /-- `ATOMICOP_COMPLETION` (R398). A host AtomicOp completion or refusal reaches the device. -/
  | atomicopCompletion (req : Nat) (ok : Bool)
  /-- `COMPLETION_TIMEOUT` (R410). A host completion times out and lands UNCORRECTABLE. -/
  | completionTimeout (req : Nat)
  /-- `INLET_LAUNCH` (R404). An inlet LAUNCH request submits a launch. -/
  | inletLaunch (session seq : Nat) (payload : BitVec 320)
  /-- `INLET_WINDOW` (R409). An inlet WINDOW request makes a host capability for an inbox. -/
  | inletWindow (session seq : Nat) (payload : BitVec 320)
  /-- `INLET_POST` (R404). An inlet POST request writes an inbox entry. -/
  | inletPost (session seq : Nat) (payload : BitVec 320)
  /-- `INLET_CREDIT` (R407). An inlet CREDIT request returns reply-queue credits. -/
  | inletCredit (session seq : Nat) (payload : BitVec 320)
  /-- `INLET_AGENT` (R412). An inlet AGENT request answers a host agent request. -/
  | inletAgent (session seq : Nat) (payload : BitVec 320)
  /-- `INLET_CALL` (R446). An inlet CALL request invokes an Oxkan function. -/
  | inletCall (session seq : Nat) (payload : BitVec 320)
  /-- `INLET_UNKNOWN_KIND` (R404). An inlet request of an unlisted kind is answered with outcome 6. -/
  | inletUnknownKind (session seq : Nat) (kind : BitVec 8) (payload : BitVec 320)
  /-- `INLET_READ` (R401). A host read of the inlet completes with zeros. -/
  | inletRead (offset : Nat)
  /-- `REPLY_ENTRY_WRITE` (R408). A reply entry is written to host memory once a credit is free. -/
  | replyEntryWrite (lodging queue : Nat)
  /-- `FLIT_RECEIVE` (R414). A link flit is received, checked and delivered in pair order. -/
  | flitReceive (flit : Flit)
  /-- `LINK_FAILURE` (R414). A failed link's unacknowledged flits are resent on the new route. -/
  | linkFailure (link : Nat)
  /-- `COLLECTIVE_ENTRY_PASS` (R419). A relay passes staged collective entries into its queue in index order. -/
  | collectiveEntryPass (core coll : Nat)
  /-- `DRAIN_REDUCTION` (R339). A sum reduction of a lodging's in-flight counts completes. -/
  | drainReduction (lodging : Nat)
  /-- `REQUEST_HELD` (R340). A request unanswered 32,768 cycles after gating is marked held. -/
  | requestHeld (req : Nat)
  /-- `IMAGE_SWAP` (R343). A core's outgoing and incoming context images finish exchanging. -/
  | imageSwap (lodging logical : Nat)
  /-- `LOT_READBACK` (R346). A saved lot unit is read back on first touch. -/
  | lotReadback (core store unit : Nat)
  /-- `FLUSH_MARKER` (R349). A sender's flush marker reaches a migrated core. -/
  | flushMarker (lodging logical sender : Nat)
  /-- `LODGING_WATCHDOG` (R356). A save not complete 102,400 cycles after gating writes a service record. -/
  | lodgingWatchdog (lodging : Nat)
  /-- `DEVICE_WATCHDOG` (R357). A save stalled 1 ms after watchdog expiry ends the lodging with WATCHDOG. -/
  | deviceWatchdog (lodging : Nat)
  /-- `LODGE_END_COMPLETE` (R355). Once its last engine command ends, a lodging's lots, lists and mappings are released. -/
  | lodgeEndComplete (lodging : Nat)
  /-- `TRAP_RECORD_WRITE` (R297). A held trap or service record is written once the trap queue frees. -/
  | trapRecordWrite (core slot : Nat)
  /-- `SCRUB_VISIT` (R451). The scrubber visits and corrects a local-store word. -/
  | scrubVisit (core store word : Nat)
  /-- `UNIT_FAILURE` (R463). A unit exceeding its uncorrectable-error count fails and its core is disabled. -/
  | unitFailure (core unit : Nat)
  /-- `STAT_SUM_ROUND` (R442). A complete STAT.SUM round is summed and written to every contributor. -/
  | statSumRound (lodging launch round : Nat)
  /-- `FIRMWARE_SWITCH` (R449). A verified Oxkan image begins the switch at each steward's quiescent point. -/
  | firmwareSwitch (core : Nat)
  /-- `FIRMWARE_HANDOVER` (R449). At 1 ms, old-image activities are halted and handed over or broken. -/
  | firmwareHandover (core slot : Nat)
  /-- `RESET` (R466). The boot ROM reads fuses, verifies Oxkan, measures and starts the stewards. -/
  | reset
  /-- `SPDM_REQUEST` (R467). An SPDM request over DOE is answered, including attestation. -/
  | spdmRequest (index : Nat)
  /-- `SESSION_BIND_REQUEST` (R468). A vendor-defined request binds an inlet session and returns its salts. -/
  | sessionBindRequest (lodging session : Nat) (inletSalt replySalt : W32)
  /-- `INLET_WRITE_DISCARDED` (R402). An inlet write that fails the acceptance conditions is discarded, and a known session's dropped count rises. -/
  | inletWriteDiscarded (session : Nat)
  /-- `TEST_PATTERN_END` (R441). A TEST.RUN pattern run in idle cycles passes, reporting a unit, or fails, ending the command with DIVERGENCE and failing the unit. -/
  | testPatternEnd (core : Nat) (pass : Bool)
  /-- `MIGRATION_RESUME` (R348). Once a migrated core's image and lot units have streamed to the target, the target core resumes and the MIGRATE receipt receives its unit. -/
  | migrationResume (lodging logical : Nat)
  /-- `LEAVE_WAIT_COUNT` (R178). Event 15 counts one for each 1,024 cycles that engine commands of the core wait for leave. -/
  | leaveWaitCount (core : Nat)
  /-- `EXT.wide` (R63). Wide EXT prefix whose payload supplies the high bits of the next instruction's immediate or offset. -/
  | extWide (payload : BitVec 23)
  /-- `EXT.hint` (R62). Hint EXT that sets the keeper's priority class and long-latency bit for the next instruction. -/
  | extHint (long : BitVec 1) (cls : BitVec 3)
  /-- `EXT.mod` (R62). Modifier EXT that sets rounding, saturation and scope for the next instruction. -/
  | extModifier (scope : BitVec 2) (sat : BitVec 1) (round : BitVec 3)
  /-- `READ` (R120). Delivers a register's contents as they stood at admission, parking or trapping on EMPTY according to e. -/
  | read (e : BitVec 1) (reg : BitVec 6) (t1 : BitVec 9) (t0 : BitVec 9)
  /-- `PORT` (R121). Peeks the head word of a neighbour port or the inbox; the word is popped at commit. -/
  | port (e : BitVec 1) (reg : BitVec 6) (t1 : BitVec 9) (t0 : BitVec 9)
  /-- `WRITE` (R122). Completes a register with the arriving value at commit. -/
  | write (pr : BitVec 2) (reg : BitVec 6)
  /-- `WPORT` (R123). Pushes one 64-byte word to a neighbour's port queue at commit. -/
  | wport (pr : BitVec 2) (reg : BitVec 6)
  /-- `NULL` (R59). Sends a null token to its targets. -/
  | null (pr : BitVec 2) (t1 : BitVec 9) (t0 : BitVec 9)
  /-- `MOV` (R124). Passes its value unchanged to two targets. -/
  | mov (pr : BitVec 2) (t1 : BitVec 9) (t0 : BitVec 9)
  /-- `BRO` (R125). Exit to the block at a relative offset. -/
  | bro (pr : BitVec 2) (off : BitVec 23)
  /-- `CALL` (R127). Exit to a relative block, writing the return address into a register. -/
  | call (pr : BitVec 2) (reg : BitVec 6) (off : BitVec 17)
  /-- `BRC` (R126). Exit to a computed target, which is a code address or a kind-11 capability. -/
  | brc (pr : BitVec 2)
  /-- `RET` (R128). Exit to a computed target as BRC does, with a return prediction hint. -/
  | ret (pr : BitVec 2)
  /-- `CALLC` (R127). Exit to a computed target whose link lands in a register once the target block is decoded. -/
  | callc (pr : BitVec 2) (reg : BitVec 6)
  /-- `EXIT` (R130). Ends the activity and frees its slot, or faults OBLIG_AT_EXIT when obligations are held. -/
  | exit (pr : BitVec 2)
  /-- `YIELD` (R129). Exits like BRO and delays the next admission until other ready slots have fired. -/
  | yield (pr : BitVec 2) (off : BitVec 23)
  /-- `HANDOFF` (R233). Ends the activity and starts a successor in the same slot with kept registers and lots. -/
  | handoff (pr : BitVec 2)
  /-- `SLEEP` (R132). Delays the next block's admission until s.cycle reaches t. -/
  | sleep (pr : BitVec 2)
  /-- `ADD` (R134). Integer add, 64-bit or 32-bit. -/
  | add (w : BitVec 1) (pr : BitVec 2) (t1 : BitVec 9) (t0 : BitVec 9)
  /-- `SUB` (R134). Integer subtract. -/
  | sub (w : BitVec 1) (pr : BitVec 2) (t1 : BitVec 9) (t0 : BitVec 9)
  /-- `AND` (R134). Bitwise AND. -/
  | and (w : BitVec 1) (pr : BitVec 2) (t1 : BitVec 9) (t0 : BitVec 9)
  /-- `OR` (R134). Bitwise OR. -/
  | or (w : BitVec 1) (pr : BitVec 2) (t1 : BitVec 9) (t0 : BitVec 9)
  /-- `XOR` (R134). Bitwise XOR. -/
  | xor (w : BitVec 1) (pr : BitVec 2) (t1 : BitVec 9) (t0 : BitVec 9)
  /-- `ANDN` (R134). AND with the complement of the right operand. -/
  | andn (w : BitVec 1) (pr : BitVec 2) (t1 : BitVec 9) (t0 : BitVec 9)
  /-- `SHL` (R134). Shift left. -/
  | shl (w : BitVec 1) (pr : BitVec 2) (t1 : BitVec 9) (t0 : BitVec 9)
  /-- `SHR` (R134). Logical shift right. -/
  | shr (w : BitVec 1) (pr : BitVec 2) (t1 : BitVec 9) (t0 : BitVec 9)
  /-- `SRA` (R134). Arithmetic shift right. -/
  | sra (w : BitVec 1) (pr : BitVec 2) (t1 : BitVec 9) (t0 : BitVec 9)
  /-- `ROL` (R134). Rotate left. -/
  | rol (w : BitVec 1) (pr : BitVec 2) (t1 : BitVec 9) (t0 : BitVec 9)
  /-- `MIN` (R134). Signed minimum. -/
  | min (w : BitVec 1) (pr : BitVec 2) (t1 : BitVec 9) (t0 : BitVec 9)
  /-- `MAX` (R134). Signed maximum. -/
  | max (w : BitVec 1) (pr : BitVec 2) (t1 : BitVec 9) (t0 : BitVec 9)
  /-- `MINN` (R134). Natural minimum. -/
  | minn (w : BitVec 1) (pr : BitVec 2) (t1 : BitVec 9) (t0 : BitVec 9)
  /-- `MAXN` (R134). Natural maximum. -/
  | maxn (w : BitVec 1) (pr : BitVec 2) (t1 : BitVec 9) (t0 : BitVec 9)
  /-- `SEL` (R134). Selects a or b according to c. -/
  | sel (w : BitVec 1) (pr : BitVec 2) (t1 : BitVec 9) (t0 : BitVec 9)
  /-- `MUL` (R136). Low half of a product. -/
  | mul (pr : BitVec 2) (w : BitVec 1) (t1 : BitVec 9) (t0 : BitVec 9)
  /-- `MULH` (R136). High half of the signed product. -/
  | mulh (pr : BitVec 2) (w : BitVec 1) (t1 : BitVec 9) (t0 : BitVec 9)
  /-- `MULHN` (R136). High half of the natural product. -/
  | mulhn (pr : BitVec 2) (w : BitVec 1) (t1 : BitVec 9) (t0 : BitVec 9)
  /-- `DIV` (R136). Signed quotient with fixed edge cases. -/
  | div (pr : BitVec 2) (w : BitVec 1) (t1 : BitVec 9) (t0 : BitVec 9)
  /-- `DIVN` (R136). Natural quotient. -/
  | divn (pr : BitVec 2) (w : BitVec 1) (t1 : BitVec 9) (t0 : BitVec 9)
  /-- `REM` (R136). Signed remainder. -/
  | rem (pr : BitVec 2) (w : BitVec 1) (t1 : BitVec 9) (t0 : BitVec 9)
  /-- `REMN` (R136). Natural remainder. -/
  | remn (pr : BitVec 2) (w : BitVec 1) (t1 : BitVec 9) (t0 : BitVec 9)
  /-- `CLZ` (R137). Count leading zeros. -/
  | clz (pr : BitVec 2) (t1 : BitVec 9) (t0 : BitVec 9)
  /-- `CTZ` (R137). Count trailing zeros. -/
  | ctz (pr : BitVec 2) (t1 : BitVec 9) (t0 : BitVec 9)
  /-- `POP` (R137). Population count. -/
  | pop (pr : BitVec 2) (t1 : BitVec 9) (t0 : BitVec 9)
  /-- `SEXT.8` (R137). Sign-extends the low byte. -/
  | sext8 (pr : BitVec 2) (t1 : BitVec 9) (t0 : BitVec 9)
  /-- `SEXT.16` (R137). Sign-extends the low 16 bits. -/
  | sext16 (pr : BitVec 2) (t1 : BitVec 9) (t0 : BitVec 9)
  /-- `SEXT.32` (R137). Sign-extends the low 32 bits. -/
  | sext32 (pr : BitVec 2) (t1 : BitVec 9) (t0 : BitVec 9)
  /-- `ZEXT.8` (R137). Zero-extends the low byte. -/
  | zext8 (pr : BitVec 2) (t1 : BitVec 9) (t0 : BitVec 9)
  /-- `ZEXT.16` (R137). Zero-extends the low 16 bits. -/
  | zext16 (pr : BitVec 2) (t1 : BitVec 9) (t0 : BitVec 9)
  /-- `ZEXT.32` (R137). Zero-extends the low 32 bits. -/
  | zext32 (pr : BitVec 2) (t1 : BitVec 9) (t0 : BitVec 9)
  /-- `BREV` (R137). Reverses the bits. -/
  | brev (pr : BitVec 2) (t1 : BitVec 9) (t0 : BitVec 9)
  /-- `BSWAP` (R137). Reverses the bytes. -/
  | bswap (pr : BitVec 2) (t1 : BitVec 9) (t0 : BitVec 9)
  /-- `TEQ` (R138). Compares for equality. -/
  | teq (pr : BitVec 2) (w : BitVec 1) (t1 : BitVec 9) (t0 : BitVec 9)
  /-- `TNE` (R138). Compares for inequality. -/
  | tne (pr : BitVec 2) (w : BitVec 1) (t1 : BitVec 9) (t0 : BitVec 9)
  /-- `TLT` (R138). Signed less-than. -/
  | tlt (pr : BitVec 2) (w : BitVec 1) (t1 : BitVec 9) (t0 : BitVec 9)
  /-- `TLE` (R138). Signed less-or-equal. -/
  | tle (pr : BitVec 2) (w : BitVec 1) (t1 : BitVec 9) (t0 : BitVec 9)
  /-- `TLTN` (R138). Natural less-than. -/
  | tltn (pr : BitVec 2) (w : BitVec 1) (t1 : BitVec 9) (t0 : BitVec 9)
  /-- `TLEN` (R138). Natural less-or-equal. -/
  | tlen (pr : BitVec 2) (w : BitVec 1) (t1 : BitVec 9) (t0 : BitVec 9)
  /-- `TBIT` (R138). Tests one bit of a. -/
  | tbit (pr : BitVec 2) (t1 : BitVec 9) (t0 : BitVec 9)
  /-- `PAND` (R139). AND of predicate masks. -/
  | pand (pr : BitVec 2) (t1 : BitVec 9) (t0 : BitVec 9)
  /-- `POR` (R139). OR of predicate masks. -/
  | por (pr : BitVec 2) (t1 : BitVec 9) (t0 : BitVec 9)
  /-- `PXOR` (R139). XOR of predicate masks. -/
  | pxor (pr : BitVec 2) (t1 : BitVec 9) (t0 : BitVec 9)
  /-- `PNOT` (R139). Complement of a 16-bit mask. -/
  | pnot (pr : BitVec 2) (t1 : BitVec 9) (t0 : BitVec 9)
  /-- `PANY` (R139). Yields 1 if any mask bit is set. -/
  | pany (pr : BitVec 2) (t1 : BitVec 9) (t0 : BitVec 9)
  /-- `PALL` (R139). Yields 1 if all 16 mask bits are set. -/
  | pall (pr : BitVec 2) (t1 : BitVec 9) (t0 : BitVec 9)
  /-- `PCNT` (R139). Counts the mask bits. -/
  | pcnt (pr : BitVec 2) (t1 : BitVec 9) (t0 : BitVec 9)
  /-- `PFIRST` (R139). Index of the lowest set mask bit. -/
  | pfirst (pr : BitVec 2) (t1 : BitVec 9) (t0 : BitVec 9)
  /-- `ADDI` (R140). Adds an immediate. -/
  | addi (pr : BitVec 2) (imm : BitVec 14) (t0 : BitVec 9)
  /-- `ADDIW` (R140). 32-bit add of an immediate, sign-extended. -/
  | addiw (pr : BitVec 2) (imm : BitVec 14) (t0 : BitVec 9)
  /-- `ANDI` (R140). AND with an immediate. -/
  | andi (pr : BitVec 2) (imm : BitVec 14) (t0 : BitVec 9)
  /-- `ORI` (R140). OR with an immediate. -/
  | ori (pr : BitVec 2) (imm : BitVec 14) (t0 : BitVec 9)
  /-- `XORI` (R140). XOR with an immediate. -/
  | xori (pr : BitVec 2) (imm : BitVec 14) (t0 : BitVec 9)
  /-- `SHLI` (R140). Shift left by an immediate. -/
  | shli (pr : BitVec 2) (imm : BitVec 14) (t0 : BitVec 9)
  /-- `SHRI` (R140). Logical shift right by an immediate. -/
  | shri (pr : BitVec 2) (imm : BitVec 14) (t0 : BitVec 9)
  /-- `SRAI` (R140). Arithmetic shift right by an immediate. -/
  | srai (pr : BitVec 2) (imm : BitVec 14) (t0 : BitVec 9)
  /-- `MULI` (R140). Multiplies by an immediate. -/
  | muli (pr : BitVec 2) (imm : BitVec 14) (t0 : BitVec 9)
  /-- `TEQI` (R140). Equality with an immediate. -/
  | teqi (pr : BitVec 2) (imm : BitVec 14) (t0 : BitVec 9)
  /-- `TNEI` (R140). Inequality with an immediate. -/
  | tnei (pr : BitVec 2) (imm : BitVec 14) (t0 : BitVec 9)
  /-- `TLTI` (R140). Signed less-than an immediate. -/
  | tlti (pr : BitVec 2) (imm : BitVec 14) (t0 : BitVec 9)
  /-- `TLEI` (R140). Signed less-or-equal an immediate. -/
  | tlei (pr : BitVec 2) (imm : BitVec 14) (t0 : BitVec 9)
  /-- `TLTNI` (R140). Natural less-than an immediate. -/
  | tltni (pr : BitVec 2) (imm : BitVec 14) (t0 : BitVec 9)
  /-- `MOVI` (R140). Yields an immediate. -/
  | movi (pr : BitVec 2) (imm : BitVec 14) (t0 : BitVec 9)
  /-- `MOVIF` (R141). Yields an FP32 constant from a BF16-style or wide immediate. -/
  | movif (pr : BitVec 2) (imm : BitVec 14) (t0 : BitVec 9)
  /-- `CADD` (R143). Adds to a capability's address, clearing the tag if it leaves the region. -/
  | cadd (pr : BitVec 2) (t1 : BitVec 9) (t0 : BitVec 9)
  /-- `CSETA` (R143). Sets a capability's address. -/
  | cseta (pr : BitVec 2) (t1 : BitVec 9) (t0 : BitVec 9)
  /-- `CSETB` (R144). Narrows bounds to a representable enclosure of the requested range. -/
  | csetb (pr : BitVec 2) (t1 : BitVec 9) (t0 : BitVec 9)
  /-- `CSETBX` (R144). Narrows bounds exactly, faulting BOUNDS otherwise. -/
  | csetbx (pr : BitVec 2) (t1 : BitVec 9) (t0 : BitVec 9)
  /-- `CPERM` (R143). Masks a capability's permissions, widening in steward mode. -/
  | cperm (pr : BitVec 2) (t1 : BitVec 9) (t0 : BitVec 9)
  /-- `CSEAL` (R145). Seals a code capability into a sealed entry. -/
  | cseal (pr : BitVec 2) (t1 : BitVec 9) (t0 : BitVec 9)
  /-- `CUNSEAL` (R145). Yields a load-only capability to a sealed entry's descriptor. -/
  | cunseal (pr : BitVec 2) (t1 : BitVec 9) (t0 : BitVec 9)
  /-- `CGETA` (R143). Reads a capability's address. -/
  | cgeta (pr : BitVec 2) (t1 : BitVec 9) (t0 : BitVec 9)
  /-- `CGETB` (R143). Reads a capability's base. -/
  | cgetb (pr : BitVec 2) (t1 : BitVec 9) (t0 : BitVec 9)
  /-- `CGETL` (R143). Reads a capability's length. -/
  | cgetl (pr : BitVec 2) (t1 : BitVec 9) (t0 : BitVec 9)
  /-- `CGETP` (R143). Reads a capability's permissions. -/
  | cgetp (pr : BitVec 2) (t1 : BitVec 9) (t0 : BitVec 9)
  /-- `CGETK` (R143). Reads a capability's kind. -/
  | cgetk (pr : BitVec 2) (t1 : BitVec 9) (t0 : BitVec 9)
  /-- `CTAGT` (R143). Yields 1 for a CAP operand and 0 for DATA. -/
  | ctagt (pr : BitVec 2) (t1 : BitVec 9) (t0 : BitVec 9)
  /-- `CSUB` (R143). Difference of two addresses or scalars. -/
  | csub (pr : BitVec 2) (t1 : BitVec 9) (t0 : BitVec 9)
  /-- `CEQ` (R143). Compares tags and bits [127:0]. -/
  | ceq (pr : BitVec 2) (t1 : BitVec 9) (t0 : BitVec 9)
  /-- `CCLR` (R143). Retags a value as DATA. -/
  | cclr (pr : BitVec 2) (t1 : BitVec 9) (t0 : BitVec 9)
  /-- `CADDI` (R143). Adds an immediate to a capability's address. -/
  | caddi (pr : BitVec 2) (imm : BitVec 14) (t0 : BitVec 9)
  /-- `LD.i8` (R146). Local load of a sign-extended byte. -/
  | ldI8 (pr : BitVec 2) (lsid : BitVec 5) (imm : BitVec 9) (t0 : BitVec 9)
  /-- `LD.n8` (R146). Local load of a zero-extended byte. -/
  | ldN8 (pr : BitVec 2) (lsid : BitVec 5) (imm : BitVec 9) (t0 : BitVec 9)
  /-- `LD.i16` (R146). Local load of a sign-extended 16-bit value. -/
  | ldI16 (pr : BitVec 2) (lsid : BitVec 5) (imm : BitVec 9) (t0 : BitVec 9)
  /-- `LD.n16` (R146). Local load of a zero-extended 16-bit value. -/
  | ldN16 (pr : BitVec 2) (lsid : BitVec 5) (imm : BitVec 9) (t0 : BitVec 9)
  /-- `LD.i32` (R146). Local load of a sign-extended 32-bit value. -/
  | ldI32 (pr : BitVec 2) (lsid : BitVec 5) (imm : BitVec 9) (t0 : BitVec 9)
  /-- `LD.n32` (R146). Local load of a zero-extended 32-bit value. -/
  | ldN32 (pr : BitVec 2) (lsid : BitVec 5) (imm : BitVec 9) (t0 : BitVec 9)
  /-- `LD.64` (R146). Local load of 64 bits. -/
  | ld64 (pr : BitVec 2) (lsid : BitVec 5) (imm : BitVec 9) (t0 : BitVec 9)
  /-- `LDV` (R146). Local load of a 64-byte vector. -/
  | ldv (pr : BitVec 2) (lsid : BitVec 5) (imm : BitVec 9) (t0 : BitVec 9)
  /-- `LDC` (R148). Local load of a 16-byte granule, CAP when its tag bit is set. -/
  | ldc (pr : BitVec 2) (lsid : BitVec 5) (imm : BitVec 9) (t0 : BitVec 9)
  /-- `VGATHER` (R149). Gathers 16 words by index from a local store. -/
  | vgather (pr : BitVec 2) (lsid : BitVec 5) (imm : BitVec 9) (t0 : BitVec 9)
  /-- `ST.8` (R151). Local store of a byte at commit. -/
  | st8 (pr : BitVec 2) (lsid : BitVec 5) (imm : BitVec 18)
  /-- `ST.16` (R151). Local store of 16 bits at commit. -/
  | st16 (pr : BitVec 2) (lsid : BitVec 5) (imm : BitVec 18)
  /-- `ST.32` (R151). Local store of 32 bits at commit. -/
  | st32 (pr : BitVec 2) (lsid : BitVec 5) (imm : BitVec 18)
  /-- `ST.64` (R151). Local store of 64 bits at commit. -/
  | st64 (pr : BitVec 2) (lsid : BitVec 5) (imm : BitVec 18)
  /-- `STV` (R151). Local store of a 64-byte vector at commit. -/
  | stv (pr : BitVec 2) (lsid : BitVec 5) (imm : BitVec 18)
  /-- `STC` (R152). Stores a capability or data granule with its tag bit. -/
  | stc (pr : BitVec 2) (lsid : BitVec 5) (imm : BitVec 18)
  /-- `VSCATTER` (R153). Scatters 16 words by index into a local store. -/
  | vscatter (pr : BitVec 2) (lsid : BitVec 5) (imm : BitVec 18)
  /-- `QLD` (R290). Queued load whose value lands in a register later. -/
  | qld (pr : BitVec 2) (reg : BitVec 6) (width : BitVec 5) (off : BitVec 12)
  /-- `QST` (R291). Queued store issued at commit. -/
  | qst (pr : BitVec 2) (width : BitVec 5) (imm : BitVec 18)
  /-- `AAD` (R292). Atomic add, integer or floating, landing the old value. -/
  | aad (pr : BitVec 2) (reg : BitVec 6) (w : BitVec 2) (scope : BitVec 2) (order : BitVec 2)
  /-- `ASWP` (R292). Atomic swap. -/
  | aswp (pr : BitVec 2) (reg : BitVec 6) (w : BitVec 1) (scope : BitVec 2) (order : BitVec 2)
  /-- `ACAS` (R292). Atomic compare-and-swap. -/
  | acas (pr : BitVec 2) (reg : BitVec 6) (w : BitVec 1) (scope : BitVec 2) (order : BitVec 2)
  /-- `AMIN` (R292). Atomic signed minimum. -/
  | amin (pr : BitVec 2) (reg : BitVec 6) (w : BitVec 1) (scope : BitVec 2) (order : BitVec 2)
  /-- `AMAX` (R292). Atomic signed maximum. -/
  | amax (pr : BitVec 2) (reg : BitVec 6) (w : BitVec 1) (scope : BitVec 2) (order : BitVec 2)
  /-- `AMINN` (R292). Atomic natural minimum. -/
  | aminn (pr : BitVec 2) (reg : BitVec 6) (w : BitVec 1) (scope : BitVec 2) (order : BitVec 2)
  /-- `AMAXN` (R292). Atomic natural maximum. -/
  | amaxn (pr : BitVec 2) (reg : BitVec 6) (w : BitVec 1) (scope : BitVec 2) (order : BitVec 2)
  /-- `AAND` (R292). Atomic AND. -/
  | aand (pr : BitVec 2) (reg : BitVec 6) (w : BitVec 1) (scope : BitVec 2) (order : BitVec 2)
  /-- `AOR` (R292). Atomic OR. -/
  | aor (pr : BitVec 2) (reg : BitVec 6) (w : BitVec 1) (scope : BitVec 2) (order : BitVec 2)
  /-- `AXOR` (R292). Atomic XOR. -/
  | axor (pr : BitVec 2) (reg : BitVec 6) (w : BitVec 1) (scope : BitVec 2) (order : BitVec 2)
  /-- `FENCE.acq` (R293). Holds later effects and admission until earlier landings within scope. -/
  | fenceAcq (pr : BitVec 2) (scope : BitVec 2)
  /-- `FENCE.rel` (R293). Holds later effects until earlier requests within scope are acknowledged. -/
  | fenceRel (pr : BitVec 2) (scope : BitVec 2)
  /-- `FENCE.full` (R293). Acts as both acquire and release fences. -/
  | fenceFull (pr : BitVec 2) (scope : BitVec 2)
  /-- `VADD.f32` (R185). Elementwise floating add, f32 or f64. -/
  | vadd (w : BitVec 1) (pr : BitVec 2) (t1 : BitVec 9) (t0 : BitVec 9)
  /-- `VSUB.f32` (R185). Elementwise floating subtract. -/
  | vsub (w : BitVec 1) (pr : BitVec 2) (t1 : BitVec 9) (t0 : BitVec 9)
  /-- `VMUL.f32` (R185). Elementwise floating multiply. -/
  | vmul (w : BitVec 1) (pr : BitVec 2) (t1 : BitVec 9) (t0 : BitVec 9)
  /-- `VDIV.f32` (R185). Elementwise floating divide. -/
  | vdiv (w : BitVec 1) (pr : BitVec 2) (t1 : BitVec 9) (t0 : BitVec 9)
  /-- `VMIN.f32` (R185). Elementwise minimumNumber. -/
  | vmin (w : BitVec 1) (pr : BitVec 2) (t1 : BitVec 9) (t0 : BitVec 9)
  /-- `VMAX.f32` (R185). Elementwise maximumNumber. -/
  | vmax (w : BitVec 1) (pr : BitVec 2) (t1 : BitVec 9) (t0 : BitVec 9)
  /-- `VABS.f32` (R185). Clears each element's sign bit. -/
  | vabs (w : BitVec 1) (pr : BitVec 2) (t1 : BitVec 9) (t0 : BitVec 9)
  /-- `VNEG.f32` (R185). Inverts each element's sign bit. -/
  | vneg (w : BitVec 1) (pr : BitVec 2) (t1 : BitVec 9) (t0 : BitVec 9)
  /-- `VSQRT.f32` (R185). Elementwise square root. -/
  | vsqrt (w : BitVec 1) (pr : BitVec 2) (t1 : BitVec 9) (t0 : BitVec 9)
  /-- `VRCP.f32` (R185). Elementwise reciprocal. -/
  | vrcp (w : BitVec 1) (pr : BitVec 2) (t1 : BitVec 9) (t0 : BitVec 9)
  /-- `VRSQ.f32` (R185). Elementwise reciprocal square root. -/
  | vrsq (w : BitVec 1) (pr : BitVec 2) (t1 : BitVec 9) (t0 : BitVec 9)
  /-- `VEXP2.f32` (R185). Elementwise power of two. -/
  | vexp2 (w : BitVec 1) (pr : BitVec 2) (t1 : BitVec 9) (t0 : BitVec 9)
  /-- `VLOG2.f32` (R185). Elementwise base-2 logarithm. -/
  | vlog2 (w : BitVec 1) (pr : BitVec 2) (t1 : BitVec 9) (t0 : BitVec 9)
  /-- `VTANH.f32` (R185). Elementwise hyperbolic tangent. -/
  | vtanh (w : BitVec 1) (pr : BitVec 2) (t1 : BitVec 9) (t0 : BitVec 9)
  /-- `VSIN.f32` (R185). Elementwise sine. -/
  | vsin (w : BitVec 1) (pr : BitVec 2) (t1 : BitVec 9) (t0 : BitVec 9)
  /-- `VCOS.f32` (R185). Elementwise cosine. -/
  | vcos (w : BitVec 1) (pr : BitVec 2) (t1 : BitVec 9) (t0 : BitVec 9)
  /-- `VFLOOR.f32` (R185). Elementwise floor. -/
  | vfloor (w : BitVec 1) (pr : BitVec 2) (t1 : BitVec 9) (t0 : BitVec 9)
  /-- `VCEIL.f32` (R185). Elementwise ceiling. -/
  | vceil (w : BitVec 1) (pr : BitVec 2) (t1 : BitVec 9) (t0 : BitVec 9)
  /-- `VRINT.f32` (R185). Rounds each element to an integral value in the effective mode. -/
  | vrint (w : BitVec 1) (pr : BitVec 2) (t1 : BitVec 9) (t0 : BitVec 9)
  /-- `VCLASS.f32` (R186). Writes a one-hot class mask per element. -/
  | vclass (w : BitVec 1) (pr : BitVec 2) (t1 : BitVec 9) (t0 : BitVec 9)
  /-- `VADD.f16` (R185). Elementwise add on f16 or bf16. -/
  | vaddF16 (pr : BitVec 2) (w : BitVec 1) (t1 : BitVec 9) (t0 : BitVec 9)
  /-- `VSUB.f16` (R185). Elementwise subtract on f16 or bf16. -/
  | vsubF16 (pr : BitVec 2) (w : BitVec 1) (t1 : BitVec 9) (t0 : BitVec 9)
  /-- `VMUL.f16` (R185). Elementwise multiply on f16 or bf16. -/
  | vmulF16 (pr : BitVec 2) (w : BitVec 1) (t1 : BitVec 9) (t0 : BitVec 9)
  /-- `VDIV.f16` (R185). Elementwise divide on f16 or bf16. -/
  | vdivF16 (pr : BitVec 2) (w : BitVec 1) (t1 : BitVec 9) (t0 : BitVec 9)
  /-- `VMIN.f16` (R185). Elementwise minimumNumber on f16 or bf16. -/
  | vminF16 (pr : BitVec 2) (w : BitVec 1) (t1 : BitVec 9) (t0 : BitVec 9)
  /-- `VMAX.f16` (R185). Elementwise maximumNumber on f16 or bf16. -/
  | vmaxF16 (pr : BitVec 2) (w : BitVec 1) (t1 : BitVec 9) (t0 : BitVec 9)
  /-- `VABS.f16` (R185). Clears sign bits of f16 or bf16 elements. -/
  | vabsF16 (pr : BitVec 2) (w : BitVec 1) (t1 : BitVec 9) (t0 : BitVec 9)
  /-- `VNEG.f16` (R185). Inverts sign bits of f16 or bf16 elements. -/
  | vnegF16 (pr : BitVec 2) (w : BitVec 1) (t1 : BitVec 9) (t0 : BitVec 9)
  /-- `VSQRT.f16` (R185). Elementwise square root on f16 or bf16. -/
  | vsqrtF16 (pr : BitVec 2) (w : BitVec 1) (t1 : BitVec 9) (t0 : BitVec 9)
  /-- `VRCP.f16` (R185). Elementwise reciprocal on f16 or bf16. -/
  | vrcpF16 (pr : BitVec 2) (w : BitVec 1) (t1 : BitVec 9) (t0 : BitVec 9)
  /-- `VRSQ.f16` (R185). Elementwise reciprocal square root on f16 or bf16. -/
  | vrsqF16 (pr : BitVec 2) (w : BitVec 1) (t1 : BitVec 9) (t0 : BitVec 9)
  /-- `VEXP2.f16` (R185). Elementwise power of two on f16 or bf16. -/
  | vexp2F16 (pr : BitVec 2) (w : BitVec 1) (t1 : BitVec 9) (t0 : BitVec 9)
  /-- `VLOG2.f16` (R185). Elementwise base-2 logarithm on f16 or bf16. -/
  | vlog2F16 (pr : BitVec 2) (w : BitVec 1) (t1 : BitVec 9) (t0 : BitVec 9)
  /-- `VTANH.f16` (R185). Elementwise tanh on f16 or bf16. -/
  | vtanhF16 (pr : BitVec 2) (w : BitVec 1) (t1 : BitVec 9) (t0 : BitVec 9)
  /-- `VSIN.f16` (R185). Elementwise sine on f16 or bf16. -/
  | vsinF16 (pr : BitVec 2) (w : BitVec 1) (t1 : BitVec 9) (t0 : BitVec 9)
  /-- `VCOS.f16` (R185). Elementwise cosine on f16 or bf16. -/
  | vcosF16 (pr : BitVec 2) (w : BitVec 1) (t1 : BitVec 9) (t0 : BitVec 9)
  /-- `VADD.i32` (R187). 32-bit integer vector add. -/
  | vaddI32 (pr : BitVec 2) (n : BitVec 1) (t1 : BitVec 9) (t0 : BitVec 9)
  /-- `VSUB.i32` (R187). 32-bit integer vector subtract. -/
  | vsubI32 (pr : BitVec 2) (n : BitVec 1) (t1 : BitVec 9) (t0 : BitVec 9)
  /-- `VMUL.i32` (R187). 32-bit integer vector multiply, low half. -/
  | vmulI32 (pr : BitVec 2) (n : BitVec 1) (t1 : BitVec 9) (t0 : BitVec 9)
  /-- `VMULH.i32` (R187). 32-bit integer vector multiply, high half. -/
  | vmulhI32 (pr : BitVec 2) (n : BitVec 1) (t1 : BitVec 9) (t0 : BitVec 9)
  /-- `VMIN.i32` (R187). 32-bit integer vector minimum. -/
  | vminI32 (pr : BitVec 2) (n : BitVec 1) (t1 : BitVec 9) (t0 : BitVec 9)
  /-- `VMAX.i32` (R187). 32-bit integer vector maximum. -/
  | vmaxI32 (pr : BitVec 2) (n : BitVec 1) (t1 : BitVec 9) (t0 : BitVec 9)
  /-- `VABS.i32` (R187). 32-bit integer vector absolute value. -/
  | vabsI32 (pr : BitVec 2) (t1 : BitVec 9) (t0 : BitVec 9)
  /-- `VNEG.i32` (R187). 32-bit integer vector negate. -/
  | vnegI32 (pr : BitVec 2) (t1 : BitVec 9) (t0 : BitVec 9)
  /-- `VAND.i32` (R187). 32-bit vector AND. -/
  | vandI32 (pr : BitVec 2) (t1 : BitVec 9) (t0 : BitVec 9)
  /-- `VOR.i32` (R187). 32-bit vector OR. -/
  | vorI32 (pr : BitVec 2) (t1 : BitVec 9) (t0 : BitVec 9)
  /-- `VXOR.i32` (R187). 32-bit vector XOR. -/
  | vxorI32 (pr : BitVec 2) (t1 : BitVec 9) (t0 : BitVec 9)
  /-- `VSHL.i32` (R187). 32-bit vector shift left. -/
  | vshlI32 (pr : BitVec 2) (n : BitVec 1) (t1 : BitVec 9) (t0 : BitVec 9)
  /-- `VSHR.i32` (R187). 32-bit vector logical shift right. -/
  | vshrI32 (pr : BitVec 2) (t1 : BitVec 9) (t0 : BitVec 9)
  /-- `VSRA.i32` (R187). 32-bit vector arithmetic shift right. -/
  | vsraI32 (pr : BitVec 2) (t1 : BitVec 9) (t0 : BitVec 9)
  /-- `VADD.i16` (R187). 16- or 8-bit integer vector add. -/
  | vaddI16 (w : BitVec 1) (pr : BitVec 2) (n : BitVec 1) (t1 : BitVec 9) (t0 : BitVec 9)
  /-- `VSUB.i16` (R187). 16- or 8-bit integer vector subtract. -/
  | vsubI16 (w : BitVec 1) (pr : BitVec 2) (n : BitVec 1) (t1 : BitVec 9) (t0 : BitVec 9)
  /-- `VMUL.i16` (R187). 16- or 8-bit integer vector multiply, low half. -/
  | vmulI16 (w : BitVec 1) (pr : BitVec 2) (n : BitVec 1) (t1 : BitVec 9) (t0 : BitVec 9)
  /-- `VMULH.i16` (R187). 16- or 8-bit integer vector multiply, high half. -/
  | vmulhI16 (w : BitVec 1) (pr : BitVec 2) (n : BitVec 1) (t1 : BitVec 9) (t0 : BitVec 9)
  /-- `VMIN.i16` (R187). 16- or 8-bit integer vector minimum. -/
  | vminI16 (w : BitVec 1) (pr : BitVec 2) (n : BitVec 1) (t1 : BitVec 9) (t0 : BitVec 9)
  /-- `VMAX.i16` (R187). 16- or 8-bit integer vector maximum. -/
  | vmaxI16 (w : BitVec 1) (pr : BitVec 2) (n : BitVec 1) (t1 : BitVec 9) (t0 : BitVec 9)
  /-- `VABS.i16` (R187). 16- or 8-bit integer vector absolute value. -/
  | vabsI16 (w : BitVec 1) (pr : BitVec 2) (t1 : BitVec 9) (t0 : BitVec 9)
  /-- `VNEG.i16` (R187). 16- or 8-bit integer vector negate. -/
  | vnegI16 (w : BitVec 1) (pr : BitVec 2) (t1 : BitVec 9) (t0 : BitVec 9)
  /-- `VAND.i16` (R187). 16- or 8-bit vector AND. -/
  | vandI16 (w : BitVec 1) (pr : BitVec 2) (t1 : BitVec 9) (t0 : BitVec 9)
  /-- `VOR.i16` (R187). 16- or 8-bit vector OR. -/
  | vorI16 (w : BitVec 1) (pr : BitVec 2) (t1 : BitVec 9) (t0 : BitVec 9)
  /-- `VXOR.i16` (R187). 16- or 8-bit vector XOR. -/
  | vxorI16 (w : BitVec 1) (pr : BitVec 2) (t1 : BitVec 9) (t0 : BitVec 9)
  /-- `VSHL.i16` (R187). 16- or 8-bit vector shift left. -/
  | vshlI16 (w : BitVec 1) (pr : BitVec 2) (n : BitVec 1) (t1 : BitVec 9) (t0 : BitVec 9)
  /-- `VSHR.i16` (R187). 16- or 8-bit vector logical shift right. -/
  | vshrI16 (w : BitVec 1) (pr : BitVec 2) (t1 : BitVec 9) (t0 : BitVec 9)
  /-- `VSRA.i16` (R187). 16- or 8-bit vector arithmetic shift right. -/
  | vsraI16 (w : BitVec 1) (pr : BitVec 2) (t1 : BitVec 9) (t0 : BitVec 9)
  /-- `VFMA` (R188). Fused a×b+c, rounded once. -/
  | vfma (pr : BitVec 2) (w : BitVec 2) (t1 : BitVec 9) (t0 : BitVec 9)
  /-- `VFMS` (R188). Fused a×b−c, rounded once. -/
  | vfms (pr : BitVec 2) (w : BitVec 2) (t1 : BitVec 9) (t0 : BitVec 9)
  /-- `VNFMA` (R188). Fused −(a×b)+c, rounded once. -/
  | vnfma (pr : BitVec 2) (w : BitVec 2) (t1 : BitVec 9) (t0 : BitVec 9)
  /-- `VNFMS` (R188). Fused −(a×b)−c, rounded once. -/
  | vnfms (pr : BitVec 2) (w : BitVec 2) (t1 : BitVec 9) (t0 : BitVec 9)
  /-- `VCMP.eq` (R189). Elementwise equality into a bit mask. -/
  | vcmpEq (pr : BitVec 2) (w : BitVec 3) (t1 : BitVec 9) (t0 : BitVec 9)
  /-- `VCMP.ne` (R189). Elementwise inequality into a bit mask. -/
  | vcmpNe (pr : BitVec 2) (w : BitVec 3) (t1 : BitVec 9) (t0 : BitVec 9)
  /-- `VCMP.lt` (R189). Elementwise less-than into a bit mask. -/
  | vcmpLt (pr : BitVec 2) (w : BitVec 3) (t1 : BitVec 9) (t0 : BitVec 9)
  /-- `VCMP.le` (R189). Elementwise less-or-equal into a bit mask. -/
  | vcmpLe (pr : BitVec 2) (w : BitVec 3) (t1 : BitVec 9) (t0 : BitVec 9)
  /-- `VCVT.f32.f64` (R191). Converts f64 elements to f32. -/
  | vcvtF32F64 (pr : BitVec 2) (t1 : BitVec 9) (t0 : BitVec 9)
  /-- `VCVT.f64.f32` (R191). Converts f32 elements to f64. -/
  | vcvtF64F32 (pr : BitVec 2) (t1 : BitVec 9) (t0 : BitVec 9)
  /-- `VCVT.f16.f32` (R191). Converts f32 elements to f16. -/
  | vcvtF16F32 (pr : BitVec 2) (t1 : BitVec 9) (t0 : BitVec 9)
  /-- `VCVT.f32.f16` (R191). Converts f16 elements to f32. -/
  | vcvtF32F16 (pr : BitVec 2) (t1 : BitVec 9) (t0 : BitVec 9)
  /-- `VCVT.bf16.f32` (R191). Converts f32 elements to bf16. -/
  | vcvtBf16F32 (pr : BitVec 2) (t1 : BitVec 9) (t0 : BitVec 9)
  /-- `VCVT.f32.bf16` (R191). Converts bf16 elements to f32. -/
  | vcvtF32Bf16 (pr : BitVec 2) (t1 : BitVec 9) (t0 : BitVec 9)
  /-- `VCVT.e4m3.f32` (R191). Converts f32 elements to E4M3, saturating. -/
  | vcvtE4m3F32 (pr : BitVec 2) (t1 : BitVec 9) (t0 : BitVec 9)
  /-- `VCVT.e5m2.f32` (R191). Converts f32 elements to E5M2, saturating. -/
  | vcvtE5m2F32 (pr : BitVec 2) (t1 : BitVec 9) (t0 : BitVec 9)
  /-- `VCVT.e4m3.f32.nosat` (R191). Converts f32 elements to E4M3 without saturation. -/
  | vcvtE4m3F32Nosat (pr : BitVec 2) (t1 : BitVec 9) (t0 : BitVec 9)
  /-- `VCVT.e5m2.f32.nosat` (R191). Converts f32 elements to E5M2 without saturation. -/
  | vcvtE5m2F32Nosat (pr : BitVec 2) (t1 : BitVec 9) (t0 : BitVec 9)
  /-- `VCVT.f32.e4m3` (R191). Converts E4M3 elements to f32. -/
  | vcvtF32E4m3 (pr : BitVec 2) (t1 : BitVec 9) (t0 : BitVec 9)
  /-- `VCVT.f32.e5m2` (R191). Converts E5M2 elements to f32. -/
  | vcvtF32E5m2 (pr : BitVec 2) (t1 : BitVec 9) (t0 : BitVec 9)
  /-- `VCVT.i32.f32` (R191). Converts f32 elements to signed 32-bit integers. -/
  | vcvtI32F32 (pr : BitVec 2) (t1 : BitVec 9) (t0 : BitVec 9)
  /-- `VCVT.n32.f32` (R191). Converts f32 elements to natural 32-bit integers. -/
  | vcvtN32F32 (pr : BitVec 2) (t1 : BitVec 9) (t0 : BitVec 9)
  /-- `VCVT.f32.i32` (R191). Converts signed 32-bit integers to f32. -/
  | vcvtF32I32 (pr : BitVec 2) (t1 : BitVec 9) (t0 : BitVec 9)
  /-- `VCVT.f32.n32` (R191). Converts natural 32-bit integers to f32. -/
  | vcvtF32N32 (pr : BitVec 2) (t1 : BitVec 9) (t0 : BitVec 9)
  /-- `VCVT.i64.f64` (R191). Converts f64 elements to signed 64-bit integers. -/
  | vcvtI64F64 (pr : BitVec 2) (t1 : BitVec 9) (t0 : BitVec 9)
  /-- `VCVT.n64.f64` (R191). Converts f64 elements to natural 64-bit integers. -/
  | vcvtN64F64 (pr : BitVec 2) (t1 : BitVec 9) (t0 : BitVec 9)
  /-- `VCVT.f64.i64` (R191). Converts signed 64-bit integers to f64. -/
  | vcvtF64I64 (pr : BitVec 2) (t1 : BitVec 9) (t0 : BitVec 9)
  /-- `VCVT.f64.n64` (R191). Converts natural 64-bit integers to f64. -/
  | vcvtF64N64 (pr : BitVec 2) (t1 : BitVec 9) (t0 : BitVec 9)
  /-- `VCVT.i16.i32` (R191). Narrows 32-bit integers to 16 bits. -/
  | vcvtI16I32 (pr : BitVec 2) (t1 : BitVec 9) (t0 : BitVec 9)
  /-- `VCVT.i8.i32` (R191). Narrows 32-bit integers to 8 bits. -/
  | vcvtI8I32 (pr : BitVec 2) (t1 : BitVec 9) (t0 : BitVec 9)
  /-- `VCVT.i32.i16` (R191). Widens 16-bit integers to 32 bits. -/
  | vcvtI32I16 (pr : BitVec 2) (t1 : BitVec 9) (t0 : BitVec 9)
  /-- `VCVT.i32.i8` (R191). Widens 8-bit integers to 32 bits. -/
  | vcvtI32I8 (pr : BitVec 2) (t1 : BitVec 9) (t0 : BitVec 9)
  /-- `VSHUF` (R192). Permutes elements by an index vector. -/
  | vshuf (pr : BitVec 2) (w : BitVec 1) (t1 : BitVec 9) (t0 : BitVec 9)
  /-- `VBCAST` (R192). Broadcasts element 0. -/
  | vbcast (pr : BitVec 2) (w : BitVec 1) (t1 : BitVec 9) (t0 : BitVec 9)
  /-- `VROT` (R192). Rotates the elements. -/
  | vrot (pr : BitVec 2) (w : BitVec 1) (t1 : BitVec 9) (t0 : BitVec 9)
  /-- `VIOTA` (R192). Yields s+e in each element e. -/
  | viota (pr : BitVec 2) (w : BitVec 1) (t1 : BitVec 9) (t0 : BitVec 9)
  /-- `VCOMP` (R192). Compresses the mask-selected elements. -/
  | vcomp (pr : BitVec 2) (w : BitVec 1) (t1 : BitVec 9) (t0 : BitVec 9)
  /-- `VEXPAND` (R192). Expands elements into the mask-selected positions. -/
  | vexpand (pr : BitVec 2) (w : BitVec 1) (t1 : BitVec 9) (t0 : BitVec 9)
  /-- `VZIP` (R192). Interleaves two vectors. -/
  | vzip (pr : BitVec 2) (w : BitVec 1) (t1 : BitVec 9) (t0 : BitVec 9)
  /-- `VUNZIP` (R192). De-interleaves a vector. -/
  | vunzip (pr : BitVec 2) (w : BitVec 1) (t1 : BitVec 9) (t0 : BitVec 9)
  /-- `VNZ` (R192). Compresses the non-zero elements. -/
  | vnz (pr : BitVec 2) (w : BitVec 1) (t1 : BitVec 9) (t0 : BitVec 9)
  /-- `VNZI` (R192). Yields the indices of the non-zero elements. -/
  | vnzi (pr : BitVec 2) (w : BitVec 1) (t1 : BitVec 9) (t0 : BitVec 9)
  /-- `VINS` (R192). Inserts a scalar at element k. -/
  | vins (pr : BitVec 2) (w : BitVec 1) (t1 : BitVec 9) (t0 : BitVec 9)
  /-- `VEXT` (R193). Extracts element k as a scalar. -/
  | vext (pr : BitVec 2) (w : BitVec 1) (t1 : BitVec 9) (t0 : BitVec 9)
  /-- `VRED.add` (R195). Sums the elements, floats in a fixed pairwise tree. -/
  | vredAdd (pr : BitVec 2) (w : BitVec 2) (t1 : BitVec 9) (t0 : BitVec 9)
  /-- `VRED.max` (R194). Maximum of the elements. -/
  | vredMax (pr : BitVec 2) (w : BitVec 2) (t1 : BitVec 9) (t0 : BitVec 9)
  /-- `VRED.min` (R194). Minimum of the elements. -/
  | vredMin (pr : BitVec 2) (w : BitVec 2) (t1 : BitVec 9) (t0 : BitVec 9)
  /-- `VRED.maxn` (R194). Natural maximum of the elements. -/
  | vredMaxn (pr : BitVec 2) (w : BitVec 2) (t1 : BitVec 9) (t0 : BitVec 9)
  /-- `VRED.minn` (R194). Natural minimum of the elements. -/
  | vredMinn (pr : BitVec 2) (w : BitVec 2) (t1 : BitVec 9) (t0 : BitVec 9)
  /-- `VRED.and` (R194). AND of the elements. -/
  | vredAnd (pr : BitVec 2) (w : BitVec 2) (t1 : BitVec 9) (t0 : BitVec 9)
  /-- `VRED.or` (R194). OR of the elements. -/
  | vredOr (pr : BitVec 2) (w : BitVec 2) (t1 : BitVec 9) (t0 : BitVec 9)
  /-- `VRED.xor` (R194). XOR of the elements. -/
  | vredXor (pr : BitVec 2) (w : BitVec 2) (t1 : BitVec 9) (t0 : BitVec 9)
  /-- `VSEL` (R190). Selects lanes of two vectors by a mask. -/
  | vsel (pr : BitVec 2) (t1 : BitVec 9) (t0 : BitVec 9)
  /-- `VQHDR` (R198). Builds an fblock header with the smallest scale that fits a max-abs value. -/
  | vqhdr (pr : BitVec 2) (t1 : BitVec 9) (t0 : BitVec 9)
  /-- `VQPK` (R199). Quantises 16 FP32 values into one group of an fblock. -/
  | vqpk (pr : BitVec 2) (t1 : BitVec 9) (t0 : BitVec 9)
  /-- `VDQ` (R200). Dequantises one group of an fblock to FP32. -/
  | vdq (pr : BitVec 2) (t1 : BitVec 9) (t0 : BitVec 9)
  /-- `VBAQ` (R201). Adds two fblocks exactly and requantises the sum. -/
  | vbaq (pr : BitVec 2) (t1 : BitVec 9) (t0 : BitVec 9)
  /-- `VBMAX` (R202). Updates a running max-abs with an fblock's largest element. -/
  | vbmax (pr : BitVec 2) (t1 : BitVec 9) (t0 : BitVec 9)
  /-- `VBFMT` (R203). Requantises an fblock into another format. -/
  | vbfmt (pr : BitVec 2) (t1 : BitVec 9) (t0 : BitVec 9)
  /-- `OSM.STEP` (R205). Updates one row's online-softmax state with 16 values. -/
  | osmStep (pr : BitVec 2) (t1 : BitVec 9) (t0 : BitVec 9)
  /-- `OSM.NORM` (R206). Normalises 16 values against one row's softmax state. -/
  | osmNorm (pr : BitVec 2) (t1 : BitVec 9) (t0 : BitVec 9)
  /-- `CTR.NEW` (R272). Creates a counter in S and gives the creator a COUNT obligation. -/
  | ctrNew (pr : BitVec 2) (t1 : BitVec 9) (t0 : BitVec 9)
  /-- `CTR.DEC` (R273). Discharges units of a held COUNT obligation as a release. -/
  | ctrDec (pr : BitVec 2)
  /-- `CTR.BIND` (R275). Binds a handler and an escrow of obligations to a counter. -/
  | ctrBind (pr : BitVec 2)
  /-- `CTR.SPLIT` (R274). Moves units of one held COUNT entry into a chosen free entry. -/
  | ctrSplit (pr : BitVec 2)
  /-- `CTR.STAT` (R276). Returns a counter's word 0 from its home. -/
  | ctrStat (pr : BitVec 2) (t1 : BitVec 9) (t0 : BitVec 9)
  /-- `RARM` (R211). Arms a receipt with an expected unit count. -/
  | rarm (pr : BitVec 2)
  /-- `INVOKE` (R277). Starts an activity and makes a claim on its answer. -/
  | invoke (pr : BitVec 2) (t1 : BitVec 9) (t0 : BitVec 9)
  /-- `INVOKEC` (R278). Addresses an invocation to the future value of a claim. -/
  | invokec (pr : BitVec 2) (t1 : BitVec 9) (t0 : BitVec 9)
  /-- `FULFIL` (R279). Resolves a held claim with a value as a release. -/
  | fulfil (pr : BitVec 2)
  /-- `BREAK` (R280). Breaks a held claim with a code. -/
  | brk (pr : BitVec 2)
  /-- `WAIT` (R229). Waits on a receipt, counter, claim or queue; the value lands later. -/
  | wait (pr : BitVec 2) (reg : BitVec 6)
  /-- `WAIT.st` (R229). Waits on an object and lands its status word. -/
  | waitSt (pr : BitVec 2) (reg : BitVec 6)
  /-- `SEND` (R283). Puts a message in a queue if a place is free, yielding a predicate. -/
  | send (pr : BitVec 2) (t1 : BitVec 9) (t0 : BitVec 9)
  /-- `SENDW` (R284). Sends a message, waiting for a place, and lands the entry index. -/
  | sendw (pr : BitVec 2) (reg : BitVec 6)
  /-- `QNEW` (R281). Creates a queue in S or names a core's inbox. -/
  | qnew (pr : BitVec 2) (t1 : BitVec 9) (t0 : BitVec 9)
  /-- `QBIND` (R285). Binds a handler to a queue. -/
  | qbind (pr : BitVec 2)
  /-- `QUNBIND` (R285). Unbinds a queue's handler. -/
  | qunbind (pr : BitVec 2)
  /-- `SPAWN` (R287). Starts one activity of the same launch on a chosen core. -/
  | spawn (pr : BitVec 2)
  /-- `LAUNCH` (R288). Submits a launch record for placement on a rectangle. -/
  | launch (pr : BitVec 2) (t1 : BitVec 9) (t0 : BitVec 9)
  /-- `CPY` (R216). Porter copy between memories, reporting to a receipt. -/
  | cpy (pr : BitVec 2)
  /-- `TILE` (R219). Porter strided copy or zero-fill from a tile record. -/
  | tile (pr : BitVec 2)
  /-- `FEED.a` (R222). Queues an A-store window to fill the A feed. -/
  | feedA (pr : BitVec 2)
  /-- `FEED.b` (R222). Queues a W-store window to fill the B feed. -/
  | feedB (pr : BitVec 2)
  /-- `MMA` (R224). Queues K block-steps of the matrix unit into a C tile. -/
  | mma (pr : BitVec 2)
  /-- `MZERO` (R224). Queues the zeroing of a C tile. -/
  | mzero (pr : BitVec 2)
  /-- `MSTAT` (R228). Returns the matrix unit's status word. -/
  | mstat (pr : BitVec 2) (t1 : BitVec 9) (t0 : BitVec 9)
  /-- `TRAP` (R301). Always fails its commit check with code TRAP. -/
  | trap (pr : BitVec 2)
  /-- `ISYNC` (R302). Discards the core's block cache before the exit fetches. -/
  | isync (pr : BitVec 2)
  /-- `SYS.RD` (R304). Reads a state word. -/
  | sysRd (pr : BitVec 2) (t1 : BitVec 9) (t0 : BitVec 9)
  /-- `SYS.WR` (R305). Writes a writable state word at commit. -/
  | sysWr (pr : BitVec 2)
  /-- `CUS.TAKE` (R307). Marks a custody record taken and returns one held entry. -/
  | cusTake (pr : BitVec 2) (t1 : BitVec 9) (t0 : BitVec 9)
  /-- `CUS.RESUME` (R308). Returns a trapped activity to running at a given block. -/
  | cusResume (pr : BitVec 2)
  /-- `CUS.GIVE` (R309). Moves custodial entries to another custody set or a new activity. -/
  | cusGive (pr : BitVec 2)
  /-- `CUS.BREAK` (R310). Breaks every custodial entry and optionally ends the activity. -/
  | cusBreak (pr : BitVec 2)
  /-- `STN.MAP` (R433). Writes a page-table entry of a device space. -/
  | stnMap (pr : BitVec 2)
  /-- `STN.INV` (R434). Drops cached translations of a range at all stations. -/
  | stnInv (pr : BitVec 2)
  /-- `STN.REPLAY` (R435). Retires a fault entry and re-walks or fails its parked requests. -/
  | stnReplay (pr : BitVec 2)
  /-- `LODGE.NEW` (R436). Creates a lodging from a lodging record. -/
  | lodgeNew (pr : BitVec 2)
  /-- `LODGE.END` (R437). Ends a lodging, breaking its obligations and cancelling its engines. -/
  | lodgeEnd (pr : BitVec 2)
  /-- `MIGRATE` (R440). Moves one logical core of a lodging to another router. -/
  | migrate (pr : BitVec 2)
  /-- `SHADOW.SAVE` (R438). Halts, drains and saves a lodging into a save record. -/
  | shadowSave (pr : BitVec 2)
  /-- `SHADOW.LOAD` (R439). Restores a saved lodging onto a rectangle. -/
  | shadowLoad (pr : BitVec 2)
  /-- `TEST.RUN` (R441). Runs a built-in pattern set on one unit in idle cycles. -/
  | testRun (pr : BitVec 2)
  /-- `STAT.SUM` (R442). Contributes the core's event counters to a launch-wide sum. -/
  | statSum (pr : BitVec 2)
  /-- `ENGINE.CANCEL` (R443). Stops every engine command reporting to a receipt, ending it with a code. -/
  | engineCancel (pr : BitVec 2)
deriving DecidableEq, Repr

end Sys2Proof
end

