-- ==== Sys2Proof/Machine/State.lean ====
section
/-! DEFINITION. The state of one X9 module: every piece of state the spec gives it (INVENTORY.md, heading State), as
plain data. Physical router numbers (R13) name cores; logical numbers are mapped by each lodging (R43). -/

namespace Sys2Proof.Machine

/-- Why the machine stops. -/
inductive Fault where
  /-- An access names a frame beyond the memory the part has (R2): the spec gives no such address. No meaning raises it:
  a leaf with such a frame is malformed (log 22); safe. -/
  | noFrame (pa : Nat)
deriving DecidableEq, Repr

/-- Why an instruction has no meaning. -/
inductive Refusal where
  /-- The model gives the instruction no meaning yet. Raised by the dispatcher only; safe. -/
  | notModelled (mnemonic : String)
deriving DecidableEq, Repr

/-- A register's tag (R32). -/
inductive Tag where | data | cap | empty | broken
deriving DecidableEq, Repr, Inhabited

/-- A value passed between instructions (R55): data bits, one validity bit per lane, tag, null mark. -/
structure Value where
  bits : V512
  valid : BitVec 16
  tag : Tag
  null : Bool
deriving DecidableEq, Repr, Inhabited

/-- The four local stores (R23). -/
inductive Sto where | w | a | c | s
deriving DecidableEq, Repr, Inhabited

/-- An activity's name: core (router), slot, generation (R71). -/
structure ActId where
  core : Nat
  slot : Nat
  gen : Nat
deriving DecidableEq, Repr, Inhabited

/-- The rectangle on which a launch was placed (R19, R288): its columns and rows within the lodging's rectangle, and the logical cores that
stood in it. The cores keep their numbers when a core or the lodging moves (R348, R351), and stay the launch's (log 68). -/
structure Area where
  x : Nat
  y : Nat
  w : Nat
  h : Nat
  cores : List Nat
deriving DecidableEq, Repr, Inhabited

/-- One register of an activity (R32), with what an EMPTY one carries (R230, R246, R271, R342). -/
structure Reg where
  bits : V512
  tag : Tag
  /-- Request whose landing is pending; 0 for none. -/
  req : Nat
  /-- Rank recorded for the landing (R246); `ranked` when the landing comes from an object (R69). -/
  rank : Nat
  ranked : Bool
  /-- Carried code, 0 for none; from a receipt or not; its address and detail words (R230, R271). -/
  code : Byte
  receipt : Bool
  addr : Word
  detail : Word
  /-- Words with an uncorrectable, and with a correctable, error (R450, R452). -/
  poison : BitVec 16
  corr : BitVec 16
deriving DecidableEq, Repr, Inhabited

/-- One entry of the held set (R238, R239). -/
structure Ob where
  held : Bool
  isCount : Bool
  object : Word
  rank : Nat
  mult : Nat
deriving DecidableEq, Repr, Inhabited

/-- A held set: the custodial bit of the whole set and its sixteen entries (R239). -/
structure ObSet where
  custodial : Bool
  ents : Map Ob
deriving DecidableEq, Repr, Inhabited

/-- A contiguous run of lot units (R29). -/
structure Run where
  start : Nat
  count : Nat
deriving DecidableEq, Repr, Inhabited

/-- The trap record of R295, before its bytes are laid out. -/
structure TrapRec where
  code : Byte
  flags : Nat
  index : W32
  block : Word
  cycle : Word
  core : Nat
  slot : Nat
  lodging : Nat
  launch : W32
  lo : Word
  hi : Word
  ended : Bool
deriving DecidableEq, Repr, Inhabited

/-- A custody record (R300): state 0 free, 1 custodial, 2 taken; `s.held` at the trap; the taker; the record; whether
the trap queue still owes it a place (R297); the CUS instruction that reserves it (R306), as core and slot plus one. -/
structure Custody where
  state : Nat
  held : BitVec 16
  taker : ActId
  record : TrapRec
  unwritten : Bool
  reserved : Nat
deriving DecidableEq, Repr, Inhabited

/-- What completed a register in a block (R65): a WRITE value, a null token, a landing mark, or a CALLC link. -/
inductive RegDone where
  | no | null | value (v : Value) | landing (idx : Nat) (rank : Nat) (ranked : Bool) | link
deriving DecidableEq, Repr, Inhabited

/-- One local store access of a fired store-class instruction (R152): where, which bytes, and the tag it sets. -/
structure LsWrite where
  done : Bool
  /-- Cycle at which the LSID completed (R329). -/
  since : Word
  sto : Sto
  bytes : List (Nat × Byte)
  /-- Granule whose tag is decided by STC: its number and the bit; other granules written are cleared. -/
  tag : Option (Nat × Bool)
deriving DecidableEq, Repr, Inhabited

/-- A message: 64 bytes, whether the first granule is tagged, its sender (R283). -/
structure Msg where
  data : V512
  cap : Bool
  core : Nat
  lodging : Nat
  /-- The logical core it is sent to (R298). -/
  toCore : Nat := 0
deriving DecidableEq, Repr, Inhabited

/-- A start on its way, on a ring or in an arrival list (R14, R324, R325). -/
structure Start where
  kind : Nat
  lodging : Nat
  /-- Sealed entry: space and bounds bits [127:64] kept, and the descriptor's address (R17). -/
  entry : Cap
  desc : BitVec 128
  g0 : V512
  g0cap : Bool
  g2 : Cap
  copies : Map Reg
  launch : W32
  rect : Area
  sender : Nat
  senderLodging : Nat
  /-- The logical core that it is sent to (R298). -/
  toCore : Nat := 0
  counter : Word
  broken : Bool
  obs : List Ob
  serve : Nat
  image : W32
  /-- Requests of the creator that must be acknowledged before the first admission (R269, R379). -/
  gates : List Nat
  /-- The S run a codelet inherits (R312). -/
  run : Option Run
  /-- The claim that an invocation settles; 0 for none. -/
  claim : Word
  /-- A call of Oxkan (R444, R446): 0 none, 1 an activity's, and for a host's the number of its request plus 2. -/
  call : Nat := 0
  seq : Nat
  /-- Its ring place, and the first 64-byte unit of its start record, once it is on a ring (R324, R325). -/
  place : Nat
  unit : Nat
deriving DecidableEq, Repr, Inhabited

/-- A place in memory after translation. -/
inductive Place where
  | hbm (pa : Nat)
  | far (pa : Nat)
  /-- Host memory at a translated address, with the host-atomic mode of its space (R394, R411). -/
  | host (pa : Nat) (mode : Nat)
  | peer (device : Nat)
  | loc (core : Nat) (sto : Sto) (off : Nat)
deriving DecidableEq, Repr, Inhabited

/-- An address as a capability gives it: kind 1, 10 or 11 with space and virtual address, or a local store. -/
structure MemAddr where
  kind : Nat
  space : Nat
  va : Word
deriving DecidableEq, Repr, Inhabited

/-- What a queued request does (R289 to R292). -/
inductive MemOp where
  | load (width : Nat) (loadCap : Bool)
  | store (bytes : List (Option Byte)) (isCap : Option Bool)
  | amo (op w order scope : Nat) (v e : Word)
deriving DecidableEq, Repr, Inhabited

/-- Who waits for a translation that no request for memory carries: a block fetch of a slot (R49), a descriptor read for an instruction's
question (R472), a porter command (R220), or another request (R258, R404, R442). -/
inductive Seeker where
  | fetch (slot : Nat)
  | desc (slot idx : Nat)
  | porter (cmd : Nat)
  | req (id : Nat)
deriving DecidableEq, Repr, Inhabited

/-- A porter command (R216, R219): TILE is a CPY of rows; `zero` fills with zeros. `done` is the lowest byte offset not acknowledged. -/
structure PorterCmd where
  id : Nat
  act : ActId
  lodging : Nat
  src : MemAddr
  dst : MemAddr
  srcStride : Int
  dstStride : Int
  rowBytes : Nat
  rows : Nat
  zero : Bool
  tags : Bool
  receipt : Nat
  done : Nat
  /-- Offsets of units above `done` that are acknowledged, and of units whose read or write is at a peer (R374, R376, R377). -/
  ahead : List Nat
  flying : List Nat
  /-- Offsets of units that were reported before their chunk was cut off; their writes are issued again (R337). -/
  told : List Nat
  chunkStart : Word
  /-- Bytes done when the chunk began (R336). -/
  chunkDone : Nat
  stopped : Bool
  /-- 0 needs none, 1 asks, 2 granted (R470). -/
  leave : Nat
  /-- The code of a fault that the porter met (R220); and the code with which it is asked to end at its next chunk boundary (R355, R443). -/
  code : Byte
  asked : Byte
deriving DecidableEq, Repr, Inhabited

/-- A matrix command (R224, R226). -/
structure MxCmd where
  id : Nat
  core : Nat
  isMma : Bool
  tile : Nat
  off : Nat
  zero : Bool
  steps : Nat
  done : Nat
  /-- Core and S offset of its receipt. -/
  rcore : Nat
  receipt : Nat
  leave : Nat
  starveFrom : Word
  code : Byte
deriving DecidableEq, Repr, Inhabited

/-- A destination of a message (R281 to R283, R416, R417); `owner` is the lodging that the queue's core belongs to, and `k` the number that the
message has in its core's count once it has entered the network interface (R418). -/
inductive QDest where
  | queue (core off owner : Nat)
  | reply (lodging queue : Nat)
  | peer (device core off : Nat)
  | coll (num k : Nat)
deriving DecidableEq, Repr, Inhabited

/-- An invocation held at, or on its way to, a target claim (R255, R258). -/
structure Invocation where
  arg : V512
  argCap : Bool
  word : Word
  claim : Word
  rank : Nat
  lodging : Nat
  launch : W32
  rect : Area
  obs : List Ob
  gates : List Nat
deriving DecidableEq, Repr, Inhabited

/-- A launch: the record's fields, its number and the units it holds (R288, R314, R318). -/
structure Launch where
  lodging : Nat
  die : Nat
  queue : Nat
  entry : Cap
  desc : BitVec 128
  arg : BitVec 256
  w : Nat
  h : Nat
  x : Nat
  y : Nat
  num : W32
  units : Nat
  counter : Word
  rank : Nat
  copies : Map Reg
  gates : List Nat
  since : Word
  aged : Bool
deriving DecidableEq, Repr, Inhabited

/-- What a core keeps beside a bound counter or queue: the entry, descriptor bytes 0 to 15, the escrow, the binder, its
launch, its S run when the counter lies in it, whether it has ended, and the order in which a fired counter asked for a
place (R254, R312, R327, R472). -/
structure Binding where
  bound : Bool
  entry : Cap
  desc : BitVec 128
  escrow : List Ob
  binder : ActId
  run : Option Run
  ended : Bool
  launch : W32
  rect : Area
  order : Nat
  lodging : Nat
deriving DecidableEq, Repr, Inhabited

/-- An off-core effect (R66 step 5). -/
inductive Eff where
  | mem (reg : Option Nat) (a : MemAddr) (op : MemOp)
  | fence (acq rel : Bool) (scope : Nat)
  | porter (c : PorterCmd)
  /-- A translation asked of a station (R388 to R395). -/
  | xlate (who : Seeker) (a : MemAddr) (access : Nat)
  /-- A unit of a porter command whose source or destination is at a peer (R377, R415). -/
  | unit (cmd off n : Nat) (reads : Bool) (a : MemAddr)
  | feed (core : Nat) (isB : Bool) (lo hi : Nat)
  | matrix (m : MxCmd)
  | message (d : QDest) (m : Msg) (reg : Option Nat)
  | discharge (counter : Word) (n : Nat) (scope : Nat) (broken : Bool)
  | bind (counter : Word) (b : Binding)
  | settle (claim : Word) (v : Value) (code : Byte) (scope : Nat)
  | qbind (off : Nat) (b : Binding)
  | qunbind (off : Nat)
  | invoke (core : Nat) (st : Start)
  | invokec (target : Word) (i : Invocation)
  | spawn (core : Nat) (st : Start)
  | launch (l : Launch)
  | waitObj (reg : Nat) (st : Bool) (kind : Nat) (object : Word)
  /-- A line of code, a descriptor or a table that a seeker reads from a page of a peer (R415). -/
  | line (who : Seeker) (device : Nat) (a : MemAddr)
  /-- Oxkan serves the call that activity `slot` of generation `gen` of a steward core was started for (R444 to R446); `call` as in its start. -/
  | serve (slot gen call : Nat)
  | statSum (dst : MemAddr) (receipt : Nat) (counts : Map W32) (rect : Area)
  | stnMap (space level : Nat) (va e : Word)
  | stnInv (space : Nat) (va n : Nat)
  | stnReplay (station space page : Nat) (fail : Bool)
  | lodgeNew (rec : List Byte) (caps : Nat) (receipt : Nat)
  | lodgeEnd (n : Nat) (code : Byte)
  | migrate (lodging logical target receipt : Nat)
  | shadowSave (n : Nat) (record : MemAddr) (limit : Nat) (receipt : Nat)
  | shadowLoad (rect : Nat × Nat × Nat × Nat) (record : MemAddr) (receipt : Nat)
  | testRun (core unit set receipt : Nat)
  | cancel (core off : Nat) (code : Byte)
  /-- A request of a peer that reaches a home of this device (R415, R416): the peer, and the sender core there. -/
  | peer (source core : Nat) (b : FlitBody)
  /-- An accepted request of an inlet session: kind and payload (R404, R405). -/
  | inlet (session seq kind : Nat) (payload : BitVec 320)
  /-- A question of instruction `idx` of a slot to a home on a peer, with the kinds of `FlitBody.ask`; slot 99: nobody waits for the answer,
  and a place that it grants is given back (R267, R416). -/
  | query (device slot idx kind : Nat) (object : Word)
  /-- What Oxkan tells a peer on behalf of request `call`, for a lodging (R447). -/
  | tell (call device lodging : Nat) (b : FlitBody)
  | cusTake (core slot : Nat)
  | cusResume (core slot : Nat) (addr : Word)
  | cusGive (core slot mask toCore toSlot : Nat) (st : Option Start)
  | cusBreak (core slot : Nat) (code : Byte) (endIt : Bool)
deriving DecidableEq, Repr

/-- The answer a request brings back (R362, R271). -/
inductive Resp where
  | ack
  | val (v : Value) (rank : Nat)
  | fail (code : Byte) (addr : Word) (detail : Word)
deriving DecidableEq, Repr, Inhabited

/-- Where a request stands (R359, R363, R388, R395, R398). -/
inductive Stage where
  | queued
  | station
  | walking
  | buffered
  | parked
  | page
  | ready (p : Place)
  | waiting
  | host (p : Place)
  | agent (p : Place)
  | done (r : Resp)
deriving DecidableEq, Repr, Inhabited

/-- A request on its way: its number, its activity, the lodging it is made for, its place in the order of commits
(the order of the list), when it was last sent, and whether it is held across a switch (R340). -/
structure Req where
  id : Nat
  act : ActId
  lodging : Nat
  launch : W32
  block : Word
  idx : Nat
  eff : Eff
  stage : Stage
  since : Word
  held : Bool
  /-- The code with which a translation that it waits for has failed; 0 for none (R258, R404, R442, R472). -/
  failed : Byte
  /-- The vacated router plus one by whose forwarding address it was redirected; 0 for none (R348, R350). -/
  via : Nat
  /-- The die whose stations it uses: that of its core when it left (R389). -/
  die : Nat
  /-- Its place in the order in which homes and stations received requests: a number that rises with every departure (R393, R435). -/
  order : Nat
deriving DecidableEq, Repr

/-- A question asked of a home when an instruction fires (R267), and its answer. -/
inductive Ask where
  | none
  | rank (kind : Nat) (object : Word)
  | stat (object : Word)
  | place (d : QDest)
  | place2 (target : Word)
  | bindInfo (object : Word)
  | pending
  | entry (e : Cap)
  | desc (d : BitVec 256)
  | failed (code : Byte) (addr : Word) (space : Nat)
  | answered (ok : Bool) (n m : Nat)
deriving DecidableEq, Repr, Inhabited

/-- A fired exit (R125). -/
inductive Exit where
  | none
  | jump (addr : Word)
  | yield (addr : Word)
  | computed (v : Value) (call : Option Nat)
  | exit
  | handoff (entry : Cap) (mask : Word) (keep : Word)
deriving DecidableEq, Repr, Inhabited

/-- What a fired instruction leaves for the commit (R66 steps 1, 4 and 5), beside register and store effects. -/
inductive Act where
  | effect (e : Eff)
  | trap (v : Word)
  | rarm (off : Nat) (n : Word)
  | ctrNew (off : Nat) (n : Word) (rank : Word) (scope : Nat)
  | ctrDec (counter : Word) (n : Word) (scope : Nat)
  | ctrBind (counter : Word) (entry : Cap) (mask : Word)
  | ctrSplit (i j n : Word)
  | invoke (entry : Cap) (arg : Value) (word : Word) (slotIdx : Option Nat)
  | invokec (target : Word) (arg : Value) (word : Word) (slotIdx : Option Nat)
  | spawn (entry : Cap) (arg : Value) (word : Word)
  | launch (a : Nat) (ok : Bool)
  | fulfil (claim : Word) (v : Value) (scope : Nat)
  | brk (claim : Word) (code : Word) (scope : Nat)
  | qnew (off : Nat) (cfg : Word)
  | qbind (addr : Word) (entry : Cap)
  | qunbind (addr : Word)
  | wait (st : Bool) (kind : Nat) (object : Word)
  | send (d : QDest) (m : Msg) (ok : Bool)
  | sendw (d : QDest) (m : Msg)
  | engine (e : Eff) (receipt : Nat)
  | tile (s d : Cap) (receipt : Nat)
  | sysWr (n : Nat) (v : Word)
  | sleep (t : Word)
  | isync
  | cusTake (core slot : Nat)
  | cusResume (core slot : Nat) (addr : Word)
  | cusGive (core slot : Nat) (mask : Word) (dest : Value) (toCore toSlot : Nat)
  | cusBreak (core slot : Nat) (code fl : Word)
  | shape
  | lodgeNew (off receipt : Nat)
  | push (port : Nat) (v : V512)
deriving DecidableEq, Repr

/-- A block being run (R65, R66, R68). -/
structure Blk where
  /-- 0 no block, 1 fetched and decoded, 2 admitted. -/
  phase : Nat
  words : List W32
  lsids : Nat
  storeMask : W32
  writeMask : Word
  region : Bool
  liveIn : Word
  regs : Map Reg
  obs : ObSet
  round : Word
  seed : W32
  admitted : Word
  /-- Values that reached operand slots: key 4 × index + slot (R53, R54). -/
  slots : Map (Option Value)
  /-- Per index: the cycle at which its last operand arrived (R329). -/
  arrived : Map Word
  /-- `s.service` and the firmware-switch word as at the admission (R304). -/
  service : Cap
  switch : Word
  /-- Per index: 0 not fired, 1 fired, 2 predicated off. -/
  fired : Map Nat
  regDone : Map RegDone
  lsids' : Map LsWrite
  exits : List (Nat × Exit)
  acts : Map (Option Act)
  asks : Map Ask
  /-- LAUNCH records as the commit read them, while their descriptors are read (R288, R472): bytes, and the tag of the first granule. -/
  recs : Map (V512 × Bool)
  pops : List Nat
  evs : Map Nat
  aged : Map Bool
  waiting : Bool
  /-- The cycle plus one since which an access waits for a saved lot unit, and cycles that its accesses have waited so: they count toward no
  timer (R346). -/
  awayAt : Nat
  away : Nat
deriving DecidableEq, Repr, Inhabited

/-- An idempotent region (R453). -/
structure Region where
  isOpen : Bool
  first : Word
  saved : Map Reg
  restarted : Bool
  /-- The next admission is that of a restart (R454). -/
  again : Bool
deriving DecidableEq, Repr, Inhabited

/-- One activity slot and the activity in it (R12, R342). -/
structure Slot where
  live : Bool
  gen : Nat
  regs : Map Reg
  obs : ObSet
  round : Word
  seed : W32
  launch : W32
  rect : Area
  serve : Byte
  image : W32
  code : Cap
  pc : Word
  cls : Nat
  kind : Nat
  redundant : Bool
  linkUsing : Bool
  sleep : Word
  yielded : Bool
  yieldAt : Word
  yieldFor : List Nat
  wRun : Run
  aRun : Run
  cRun : Run
  sRun : Run
  custody : Custody
  gates : List Nat
  fenceOn : List Nat
  deferred : Option (Byte × Word × Nat)
  link : Option (Nat × Value)
  region : Region
  retried : Bool
  diverged : Bool
  skew : Bool
  poisoned : Bool
  /-- Redundant mode (R459): where a primary's twin is, and that this slot holds a twin; and, while a twin runs a step, the router and the slot that
  its `s.phys` and `s.slot` read (R460). -/
  twin : Option (Nat × Nat)
  isTwin : Bool
  seenAs : Option (Nat × Nat)
  /-- The activity serves a call of Oxkan (R444 to R446, log 19). -/
  native : Bool
  blk : Blk
deriving DecidableEq, Repr, Inhabited

/-- A local store (R23): bytes, tag bits (A and S, R34), poisoned and correctable 64-bit words (R450, R452), and its
lots: 0 free, 1 to 8 held by slot n - 1, 16 waiting for engine commands to end (R30), 32 kept for a counter (R312);
`saved`: lodging whose saved unit is still to be read back (R346); `guest`: units of a switched-out lodging that still lie here, by lodging and
logical core (R345). -/
structure LStore where
  bytes : Memory
  tags : Map Bool
  poison : Map Bool
  corr : Map Bool
  lots : Map Nat
  saved : Map Nat
  guest : Map (Nat × Nat)
deriving DecidableEq, Repr, Inhabited

/-- A claim-table entry (R255). `state`: 0 FREE, 1 PENDING, 2 RESOLVED, 3 BROKEN. -/
structure Claim where
  state : Nat
  heldAt : Word
  rank : Nat
  chain : Nat
  gen : Nat
  value : Value
  code : Byte
  invs : List Invocation
  waiters : List Nat
  reserved : Nat
  settled : Nat
  lodging : Nat
  launch : W32
deriving DecidableEq, Repr, Inhabited

/-- A neighbour port (R35): its queue of words, each with the cycle at which it entered, and words pushed by a commit that have not
entered it yet. -/
structure Port where
  words : List (V512 × Word)
  coming : List V512
deriving DecidableEq, Repr, Inhabited

/-- A core: compute, steward or relay (R11, R13, R44, R425). -/
structure Core where
  lodging : Nat
  /-- Logical number plus one; 0 when the core has none (R43). -/
  logical : Nat
  off : Bool
  gated : Bool
  /-- When the core was gated: its timers stand still from then on (R338). -/
  gatedAt : Word
  slots : Map Slot
  w : LStore
  a : LStore
  c : LStore
  s : LStore
  /-- Sender core and lodging of each queue entry, by S offset of the entry (R283). -/
  senders : Map (Nat × Nat)
  /-- When each queue entry was written, by S offset of the entry: a number that rises with every entry and every counter that
  fires, and the cycle (R327, R329). -/
  stamps : Map (Nat × Word)
  /-- Reserved places of each queue, by header offset (R267). -/
  places : Map Nat
  /-- SENDW requests waiting at each queue, by header offset (R284). -/
  sendws : Map (List Nat)
  /-- Object waiters: request numbers by object offset, in order (R263). -/
  waiters : Map (List Nat)
  claims : Map Claim
  /-- Bindings of counters and queues, by S offset (R254, R285). -/
  binds : Map Binding
  ring : List Start
  arrivals : List Start
  nextSeq : Nat
  /-- Activities whose slot the core does not offer, with their slot numbers (R353). -/
  resume : List (Nat × Slot)
  porter : List PorterCmd
  mx : List MxCmd
  /-- Fblocks of the feeds, each with whether it was read with an uncorrectable error (R221, R227). -/
  aFeed : List (V512 × Bool)
  bFeed : List (V512 × Bool)
  aQueue : List (Nat × Nat)
  bQueue : List (Nat × Nat)
  /-- The cycle plus one since which a feed waits for a saved lot unit (R346). -/
  feedAway : Nat
  ev : Map W32
  ports : Map Port
  /-- Block-cache lines: by code address / 64 within each space; key space × 2^58 + line (R302, R382). -/
  cache : Map (Option V512)
  rounds : Map Nat
  favoured : Map Nat
  /-- Cycle at which each class's favoured slot last moved (R329). -/
  favSince : Map Word
  failed : Map Bool
  /-- The cycle at which each failed unit failed, with the unit code of its report, and the cycle of the latest commit of a failed core: its
  suspect windows reach to it (R458, R463). -/
  failedAt : Map (Word × Nat)
  suspectTo : Word
  /-- Cycles of the last 65 uncorrectable events of a unit: 3 W, 4 A, 5 C, 6 S, 7 register file (R463). -/
  errors : Map (List Word)
  /-- Cycle of each unit's last passed test (R464). -/
  lastPass : Map Word
  /-- Service log (R464): 0 start or 1 FULFIL, lodging, number, cycle; and for each unit the launches of
  the activities that ran at its last passed test: lodging, number. -/
  log : List (Nat × Nat × Word × Word)
  atPass : Map (List (Nat × W32))
  /-- Staged collective entries: collective, block index plus the round's first (R419), request, message (R418). -/
  staged : List (Nat × Nat × Nat × Msg)
  leaveWait : Word
  switching : Nat
  switchAt : Word
deriving DecidableEq, Repr, Inhabited

/-- A cached translation of a station (R390): space, virtual page base, size, leaf. -/
structure Leaf where
  space : Nat
  base : Nat
  size : Nat
  kind : Nat
  rd : Bool
  wr : Bool
  ex : Bool
  place : Place
deriving DecidableEq, Repr, Inhabited

/-- An outstanding fault entry of a station (R388, R422). -/
structure FaultEntry where
  space : Nat
  page : Nat
  slot : Option Nat
  merge : Nat
  access : Nat
  malformed : Bool
  cycle : Word
  block : Word
  engine : Bool
  core : Nat
  slotNo : Nat
deriving DecidableEq, Repr, Inhabited

/-- A translation station (R389 to R396). `pages`: outstanding page requests (PASID, page), sent or not, on a promised credit or not; `msgs`: its
messages of written fault records, with the router and the S offset of the fault queue (R422). -/
structure Station where
  cache : List Leaf
  walks : List Nat
  buffer : List Nat
  faults : List FaultEntry
  pages : List (Nat × Nat × Bool × Bool)
  msgs : List (Nat × Nat × Msg)
  invals : List (Nat × List Nat)
deriving DecidableEq, Repr, Inhabited

/-- A reply queue (R407): ring address, k, whether it is the agent queue, credits, next sequence, entries waiting: kind,
sender, the request that each answers when it is written (0 for none), body; and whether the first of an entry's two writes has been sent (R408). -/
structure ReplyQ where
  isSet : Bool
  agent : Bool
  va : Word
  k : Nat
  credits : Nat
  reserved : Nat
  seq : Nat
  waiting : List (Nat × Nat × Nat × V512)
  begun : Bool
deriving DecidableEq, Repr, Inhabited

/-- An inlet session (R402, R406, R468). -/
structure Session where
  known : Bool
  lodging : Nat
  last : Nat
  dropped : Nat
  unanswered : Nat
  inletSalt : W32
  replySalt : W32
  /-- The last sequence that it had accepted when a firmware switch began (R449). -/
  before : Nat := 0
  /-- The keys exported from the SPDM session in which it was established (R468). -/
  inletKey : BitVec 256
  replyKey : BitVec 256
deriving DecidableEq, Repr, Inhabited

/-- A forwarding address of a vacated router (R348, R350): the router, the core's new one, the logical core, and how many reductions in succession
have read no traffic redirected through it. -/
structure Forward where
  old : Nat
  target : Nat
  logical : Nat
  zeros : Nat
deriving DecidableEq, Repr, Inhabited

/-- A lodging (R42, R436). `phase`: of a save, 0 to 5 (R344), and 8 while a load places its images (R439); `ending`: the break code of a LODGE.END under way;
`out`: saved and switched out. `done`: images that the SHADOW.SAVE under way has written or confirmed (R356); `changedAt`: when the progress word
last changed (R357); `markers`: logical core and sender of flush markers on their way (R349). -/
structure Lodging where
  live : Bool
  system : Bool
  x : Nat
  y : Nat
  w : Nat
  h : Nat
  map : List Nat
  relays : BitVec 16
  pasid : Nat
  session : Nat
  keySlot : Nat
  trapQueue : Cap
  faultQueue : Cap
  faultRing : Cap
  ringSize : Nat
  nextFault : Nat
  busySlots : Map Bool
  entries : Map Cap
  replies : Map ReplyQ
  nextLaunch : W32
  record : List Byte
  /-- Its digest in the lodging table (R467). -/
  digest : BitVec 256
  ending : Byte
  out : Bool
  gated : Bool
  gateCycle : Word
  phase : Nat
  phaseAt : Word
  written : Nat
  done : List Nat
  changedAt : Word
  saveAddr : Option Nat
  savePages : List Nat
  saveReceipt : Option (Nat × Nat)
  watch : Nat
  drainZero : Nat
  drainTotal : Nat
  sent : Nat
  linkUsing : Bool
  pool : Map Nat
  forwards : List Forward
  markers : List (Nat × Nat)
  migrating : Option (Nat × Nat × Nat × Nat)
  fuse : List (Nat × Nat)
deriving DecidableEq, Repr, Inhabited

/-- A collective (R417 to R419): relay cores (device, router or peer's logical core, queue offset), contributors, block count, messages counted per
contributing core, entries passed per relay, this device's entries that have left: request, relay; and, per relay and contributor, entries that
have come to a relay of this device. -/
structure Coll where
  live : Bool
  lodging : Nat
  relays : List (Nat × Nat × Nat)
  n : Nat
  blocks : Nat
  sent : Map Nat
  passed : Map Nat
  out : List (Nat × Nat)
  came : Map Nat
deriving DecidableEq, Repr, Inhabited

/-- A context image of one core (R342): the slots, claims, bindings, engines, queues and counters it carries, its reserved S area, the lot
units scanned out of each store, and the router on which the others still lie (R345). -/
structure Image where
  logical : Nat
  core : Core
  router : Nat
deriving DecidableEq, Repr, Inhabited

/-- A save record (R344): where its header lies, the lodging, flags, its images, and its residency map: the units that have been saved, by
logical core, store (R441) and unit. -/
structure SaveRec where
  addr : Nat
  lodging : Nat
  linkUsing : Bool
  gateCycle : Word
  images : List Image
  scanned : List (Nat × Nat × Nat)
  saved : Lodging
  complete : Bool
deriving DecidableEq, Repr, Inhabited

/-- The pair state of a Tarham link pair (R414): next sequence to deliver and to send, flits out of order with their
lodgings, flits sent and not acknowledged. -/
structure Pair where
  key : Nat × Nat
  next : Nat
  send : Nat
  early : List (Nat × List FlitSlot)
  unacked : List (Nat × FlitSlot)
deriving DecidableEq, Repr, Inhabited

/-- The fuses (R465, R470): what a degraded part lacks. -/
structure Fuses where
  disabled : List Nat
  slots : Map Nat
  pseudo : Nat
  hbmStacks : Nat
  far : Nat × Nat
  links : Nat
  leave : Nat
  device : Nat
  /-- Physical address of the space table, which the implementation fixes (R383). -/
  spaceTable : Nat
deriving DecidableEq, Repr, Inhabited

/-- What a part offers, as measurement 3 reports it (R465, R467): enabled cores, pseudo-channels, links and stacks, cores with 6 and with 4
slots, and the map of the enabled cores. -/
structure Counts where
  cores : Nat
  pseudo : Nat
  links : Nat
  stackCount : Nat
  six : Nat
  four : Nat
  map : BitVec 4096
deriving DecidableEq, Repr, Inhabited

/-- A measurement (R467): a digest, the version that goes with an image's, the counts of the configuration. -/
structure Measurement where
  digest : BitVec 256
  version : W32
  counts : Option Counts
deriving DecidableEq, Repr, Inhabited

/-- A capability that the configuration space of the host port carries (R401). -/
inductive PciCap where
  | pcie | ats | pri | pasid | doe | ide
deriving DecidableEq, Repr, Inhabited

/-- An SPDM session (R467, R468): 0 none, 1 after KEY_EXCHANGE, 2 secured after FINISH; and its secret. -/
structure Spdm where
  phase : Nat
  secret : BitVec 256
deriving DecidableEq, Repr, Inhabited

/-- An IDE stream (R468): its programmed key, and whether it is on. -/
structure IdeStream where
  key : BitVec 256
  on : Bool
deriving DecidableEq, Repr, Inhabited

/-- What the host asks over DOE beside measurements and the binding of a session (R467, R468): the certificate chain of a slot, the two steps that
make a secured session, its end, the lodging table, and the keys of an IDE stream, which is switched on and off (log 10). -/
inductive DoeMsg where
  | certificate (slot : Nat)
  | keyExchange
  | finish
  | close
  | table
  | ideKey (selective : Bool) (key : BitVec 256)
  | ideSet (selective on : Bool)
deriving DecidableEq, Repr, Inhabited

/-- What the host port has sent to the host beside memory requests: the configuration space (R401): its capabilities and BAR0 as it reads;
ATS Translation Requests and Page Requests (R394, R395), Invalidation Completions (R396), completions of reads of the inlet (R401), certificates,
sessions made, signed measurements and the lodging table (R467), and the report of a failed verification (R466). -/
inductive HostMsg where
  | config (caps : List PciCap) (bar0 : Word)
  | translation (pasid page : Nat) (store : Bool)
  | pageRequest (pasid page : Nat)
  | invalidated (tag : Nat)
  | completion (offset : Nat) (data : V512)
  | certificate (slot : Nat) (chain : List Byte)
  | spdm (session phase : Nat)
  | measured (index : Nat) (m : Measurement) (signature : BitVec 512)
  | table (digests : List (BitVec 256))
  | bound (session : Nat) (inletSalt replySalt : W32)
  | failed
deriving DecidableEq, Repr, Inhabited

/-- What the world outside may do between steps that no row of the table stands for (log 12): soft errors, writes of
the host to its own memory and to the inlet (R402, R403), effects that differ on a twin, the host's allocation of page requests (R395), its agent's work (R412), attestation (R467), its accesses to the
configuration space (R401), and a route that a steward writes (R414). -/
inductive Env where
  | regError (core slot reg : Nat) (words : BitVec 16) (fatal : Bool)
  | storeError (core : Nat) (sto : Sto) (word : Nat) (fatal : Bool)
  | memError (isFar : Bool) (unit : Nat)
  /-- An error of a far-memory port (R421): for a request that stands there, and for a porter command that reaches it. -/
  | portError (port req : Nat)
  | portUnitError (port core cmd : Nat)
  /-- A correction of HBM by its own ECC, in a 64-byte unit (R451); and an error in a saved register of a checkpoint (R454). -/
  | memCorrected (unit : Nat)
  | savedError (core slot reg : Nat)
  | slotError (core slot : Nat)
  | hostWrite (pa : Nat) (data : List Byte)
  | hostPoison (unit : Nat)
  | tlp (offset : Nat) (posted : Bool) (data : List Byte)
  | residue (core : Nat) (times : Nat)
  | skew (core slot : Nat)
  | tokens (credits : Nat)
  /-- The host agent performs the operation of a request (R397, R398, R412). -/
  | agentActs (id : Nat)
  /-- A message over DOE in an SPDM session, 0 for none (R467, R468). -/
  | doe (session : Nat) (m : DoeMsg)
  /-- A read of the configuration space, and a write of BAR0 (R401). -/
  | configRead
  | configBar (base : Word)
  | route (device plane link : Nat)
deriving DecidableEq, Repr, Inhabited

/-- What a step does (log 1): fire one instruction of an admitted block, let the keeper choose for a pipe of a core
(0 scalar, 1 vector, 2 local memory; R328), perform one of the part's own steps, or an outside act. -/
inductive Turn where
  | fire (core slot idx : Nat)
  | keep (core pipe : Nat)
  | event (i : Instr)
  | env (e : Env)
deriving DecidableEq, Repr, Inhabited

/-- The machine. `sums` lists contributions to rounds of STAT.SUM: lodging, launch, round, core, request (R442);
`tests`, pattern sets under way: core, unit, set, patterns passed, request (R441); `svcQueue`, service records not yet written
(R298). The last six fields are the model's own (logs 1 and 2). -/
structure State where
  cycle : Word
  cores : Map Core
  hbm : Memory
  hbmTags : Map Bool
  hbmPoison : Map Bool
  /-- Corrections of HBM by stack (R451). -/
  hbmCorrected : Map Nat
  /-- Number of the key under which each 64-byte unit of HBM and of far memory was last written (R469); a slot's key is drawn afresh by LODGE.NEW. -/
  hbmKeys : Map Nat
  far : Memory
  farPoison : Map Bool
  farKeys : Map Nat
  /-- Host memory by translated address (R394, R410). -/
  host : Memory
  hostPoison : Map Bool
  hostOut : List HostMsg
  reqs : List Req
  stations : Map Station
  credits : Nat
  promised : Map Nat
  pageWait : List (Nat × Nat × Nat)
  desk : List Launch
  deskNext : Nat
  pending : Map Nat
  leave : Map Nat
  leaveWait : List (Nat × Nat × Nat × Nat)
  lodgings : Map Lodging
  guests : Map (BitVec 256)
  saves : List SaveRec
  sessions : Map Session
  /-- Host spaces that WINDOW made (R409, R447). -/
  windows : List Nat
  /-- SPDM sessions, the one whose message the host port has last opened (0 for none), and the IDE streams: 0 link, 1 selective (R467, R468). -/
  spdm : Map Spdm
  speaking : Nat
  ide : Map IdeStream
  /-- The base that BAR0 holds (R401). -/
  bar0 : Word
  /-- Agent requests: their number, their request, and the old value once the agent has performed the operation (R397, R412). -/
  agentReqs : List (Nat × Nat × Option Nat)
  nextAgent : Nat
  colls : Map Coll
  routes : Map Nat
  failedLinks : Map Bool
  pairs : List Pair
  /-- The flits that the links have sent (R413, R414). -/
  linkOut : List Flit
  /-- Open offers: owner, user, logical core of the user, queue; and acceptances: user, owner (R448). -/
  offers : List (Nat × Nat × Nat × Cap)
  accepts : List (Nat × Nat)
  /-- Accepted offers: user, owner, queue address (R448, log 21). -/
  grants : List (Nat × Nat × Word)
  keys : Map Nat
  fuses : Fuses
  /-- 0 not booted, 1 running, 2 recovery (R466). -/
  boot : Nat
  imageVersion : W32
  newImage : W32
  accepted : List (W32 × Cap)
  service : Cap
  measures : Map Measurement
  svcQueue : List (Nat × V512)
  tests : List (Nat × Nat × Nat × Nat × Nat)
  sums : List (Nat × Nat × Nat × Nat × Nat)
  residue : Map Nat
  nextReq : Nat
  schedule : List (Nat × Turn)
  tick : Nat
  here : Nat × Nat × Nat
deriving DecidableEq, Repr

/-- The machine right after reset (R466, logs 2 to 5 and 15): a full part that has not booted; every store, register
and memory reads zero; the boot ROM's step is the one turn scheduled. -/
def State.reset : State :=
  { cycle := 0, cores := [], hbm := [], hbmTags := [], hbmPoison := [], hbmCorrected := [], hbmKeys := [], far := [], farPoison := [],
    farKeys := [], host := [], hostPoison := [], hostOut := [], reqs := [], stations := [], credits := 0, promised := [],
    pageWait := [], desk := [], deskNext := 0, pending := [], leave := [], leaveWait := [], lodgings := [],
    guests := [], saves := [], sessions := [], windows := [], spdm := [], speaking := 0, ide := [], bar0 := 0, agentReqs := [], nextAgent := 1, colls := [], routes := [],
    failedLinks := [], pairs := [], linkOut := [], offers := [], accepts := [], grants := [], keys := [],
    fuses := { disabled := [], slots := [], pseudo := 1152, hbmStacks := 12, far := (2 ^ 42, 2 ^ 42), links := 24, leave := 800, device := 0, spaceTable := 824632672256 },
    boot := 0, imageVersion := 0, newImage := 0, accepted := [], service := 0, measures := [], svcQueue := [],
    tests := [], sums := [], residue := [], nextReq := 1, schedule := [(0, .event .reset)], tick := 0,
    here := (0, 0, 0) }

end Sys2Proof.Machine
end

