-- ==== Sys2Proof/Config.lean ====
section
/-! DEFINITION. What an implementation fixes and what the spec leaves open: constants with no body, so that nothing can
be proved about their values. A statement holds for every value of them. -/

namespace Sys2Proof.Machine.Config

/-- The next turn when the schedule is empty: elapsed cycles and act (log 1). The order of arbiters, mesh and keepers
(R359) and what arrives from outside are read from it. -/
opaque freeTurn : Nat → Nat × Turn

/-- A 64-byte unit read under another key than it was written with (R469, log 11). -/
opaque freeUnit : Nat → V512

/-- The bits of the BROKEN result of a capability operation, which R142 and R143 do not state (log 23); by turn. -/
opaque freeBits : Nat → V512

/-- The stack that holds an HBM frame of 512 KiB, modulo 12 (R360); the spec gives no address map (log 20). -/
opaque stackOfFrame : Nat → Nat

/-- How many patterns a built-in set of TEST.RUN holds for a unit; none when the ROM lacks the set (R441). -/
opaque patterns : Nat → Nat → Option Nat

/-- SHA-256 (R467, log 10), and the bytes of the boot ROM. -/
opaque sha256 : List Byte → BitVec 256
opaque rom : List Byte

/-- AES-256-GCM over a reply entry (R408, log 10): the 64 encrypted bytes of the body and then the 16 of the tag, under a key, for a nonce,
additional authenticated data and a body. -/
opaque cipher (key : BitVec 256) (nonce : BitVec 96) (aad : BitVec 128) (body : V512) : List Byte

/-- The authentication and decryption of an inlet write (R403, log 10): under a key, for a nonce, the additional authenticated data, the 40
encrypted bytes and the tag; none where the tag does not hold. -/
opaque opened (key : BitVec 256) (nonce : BitVec 96) (aad : Word) (payload : BitVec 320) (tag : BitVec 128) : Option (BitVec 320)

/-- The identity key (R467, log 10): its certificate chain in slot 0, and its signature of a measurement; the signing engine alone has its
private half. -/
opaque certificates : List Byte
opaque signed : Nat → Measurement → BitVec 512

/-- The secret that a KEY_EXCHANGE makes, by turn, and HKDF-Expand of a secret under a label (R468, log 10). -/
opaque exchanged : Nat → BitVec 256
opaque hkdfExpand : BitVec 256 → List Byte → BitVec 256

/-- The 80 bytes of a flit's slot, of whose header the spec names the fields and gives no places, and the check over the first 248 bytes of a
flit (R413, log 67). -/
opaque slotBytes : FlitSlot → BitVec 640
opaque crc64 : List Byte → Word

/-- The format version of the call records that an image of Oxkan keeps (R445, log 19). -/
opaque recordVersion : W32 → BitVec 16

/-- The pattern set that Oxkan runs on a unit that has failed (R458, log 19). -/
opaque failSet : Nat → Nat

/-- Where on its die's part of the mesh a relay core's router joins the message plane: the spec says that it is the link edge and gives no place
(R44, log 56); taken modulo the 512 routers of the die. -/
opaque linkEdge : Nat → Nat

/-- Where the host maps a 4 KiB page of a PASID's I/O virtual addresses, for what the host port writes of itself (R407, log 12). -/
opaque hostPage : Nat → Nat → Nat

/-- Which of the units that a porter command may write next it writes, by turn (R374, R376, log 39). -/
opaque pick : Nat → Nat

/-- The ordering kind of a peer's page (R365): of a device, a space and a 512 KiB page of it; taken modulo 3 (log 13). -/
opaque peerKind : Nat → Nat → Nat → Nat

/-- What the boot ROM, or a firmware switch, finds in an Oxkan image that verifies; none for one that does not (R449, R466, log 2): its bytes, its
version, the root of space 0xFFFF, the entry of its call service, the entry and descriptor with which stewards start, the trap and
fault queues and the fault ring of lodging 0 with its size, and the versions of call records that it takes over, each with an entry. -/
structure Image where
  bytes : List Byte
  version : W32
  root : Nat
  service : Cap
  entry : Cap
  desc : BitVec 128
  trapQueue : Cap
  faultQueue : Cap
  faultRing : Cap
  ringSize : Nat
  accepts : List (W32 × Cap)

/-- The image found at a turn. -/
opaque image : Nat → Option Image

/-- The entry of a new image, with its descriptor, that takes the place of an old image's entry (R449, log 2). -/
opaque movedEntry : W32 → Cap → Cap × BitVec 128

end Sys2Proof.Machine.Config
end

