-- ==== Sys2Proof/Decode.lean ====
section
/-! DEFINITION. The decoder of instruction words, total on any word and on any bytes, and the encoder written from the
same tables (R52, R97 to R116). A word is exactly one instruction or it is rejected (R97); the rejections are named. -/

namespace Sys2Proof

/-- The rows of the opcode table that have a word, one name each. -/
inductive Row where
  | extWide | extHint | extModifier | read | port | write | wport | null | mov | bro | call | brc | ret | callc 
  | exit | yield | handoff | sleep | add | sub | and | or | xor | andn | shl | shr | sra | rol | min | max | minn 
  | maxn | sel | mul | mulh | mulhn | div | divn | rem | remn | clz | ctz | pop | sext8 | sext16 | sext32 | zext8 
  | zext16 | zext32 | brev | bswap | teq | tne | tlt | tle | tltn | tlen | tbit | pand | por | pxor | pnot | pany 
  | pall | pcnt | pfirst | addi | addiw | andi | ori | xori | shli | shri | srai | muli | teqi | tnei | tlti | tlei 
  | tltni | movi | movif | cadd | cseta | csetb | csetbx | cperm | cseal | cunseal | cgeta | cgetb | cgetl | cgetp 
  | cgetk | ctagt | csub | ceq | cclr | caddi | ldI8 | ldN8 | ldI16 | ldN16 | ldI32 | ldN32 | ld64 | ldv | ldc 
  | vgather | st8 | st16 | st32 | st64 | stv | stc | vscatter | qld | qst | aad | aswp | acas | amin | amax | aminn 
  | amaxn | aand | aor | axor | fenceAcq | fenceRel | fenceFull | vadd | vsub | vmul | vdiv | vmin | vmax | vabs 
  | vneg | vsqrt | vrcp | vrsq | vexp2 | vlog2 | vtanh | vsin | vcos | vfloor | vceil | vrint | vclass | vaddF16 
  | vsubF16 | vmulF16 | vdivF16 | vminF16 | vmaxF16 | vabsF16 | vnegF16 | vsqrtF16 | vrcpF16 | vrsqF16 | vexp2F16 
  | vlog2F16 | vtanhF16 | vsinF16 | vcosF16 | vaddI32 | vsubI32 | vmulI32 | vmulhI32 | vminI32 | vmaxI32 | vabsI32 
  | vnegI32 | vandI32 | vorI32 | vxorI32 | vshlI32 | vshrI32 | vsraI32 | vaddI16 | vsubI16 | vmulI16 | vmulhI16 
  | vminI16 | vmaxI16 | vabsI16 | vnegI16 | vandI16 | vorI16 | vxorI16 | vshlI16 | vshrI16 | vsraI16 | vfma | vfms 
  | vnfma | vnfms | vcmpEq | vcmpNe | vcmpLt | vcmpLe | vcvtF32F64 | vcvtF64F32 | vcvtF16F32 | vcvtF32F16 
  | vcvtBf16F32 | vcvtF32Bf16 | vcvtE4m3F32 | vcvtE5m2F32 | vcvtE4m3F32Nosat | vcvtE5m2F32Nosat | vcvtF32E4m3 
  | vcvtF32E5m2 | vcvtI32F32 | vcvtN32F32 | vcvtF32I32 | vcvtF32N32 | vcvtI64F64 | vcvtN64F64 | vcvtF64I64 
  | vcvtF64N64 | vcvtI16I32 | vcvtI8I32 | vcvtI32I16 | vcvtI32I8 | vshuf | vbcast | vrot | viota | vcomp | vexpand 
  | vzip | vunzip | vnz | vnzi | vins | vext | vredAdd | vredMax | vredMin | vredMaxn | vredMinn | vredAnd | vredOr 
  | vredXor | vsel | vqhdr | vqpk | vdq | vbaq | vbmax | vbfmt | osmStep | osmNorm | ctrNew | ctrDec | ctrBind 
  | ctrSplit | ctrStat | rarm | invoke | invokec | fulfil | brk | wait | waitSt | send | sendw | qnew | qbind 
  | qunbind | spawn | launch | cpy | tile | feedA | feedB | mma | mzero | mstat | trap | isync | sysRd | sysWr 
  | cusTake | cusResume | cusGive | cusBreak | stnMap | stnInv | stnReplay | lodgeNew | lodgeEnd | migrate 
  | shadowSave | shadowLoad | testRun | statSum | engineCancel 
deriving DecidableEq, Repr, Inhabited

/-- Why a word is no instruction: each is the ILLEGAL of R51 step 2. -/
inductive Reject where
  /-- An all-zero word (R51). -/
  | zeroWord
  /-- A reserved or ILLEGAL major opcode (R98). -/
  | reservedMajor
  /-- An xop, width, kind or auxiliary code the tables do not assign (R97). -/
  | reservedCode
  /-- A register or port number out of range (R99). -/
  | registerRange
  /-- `pr` = 01 on an instruction that acts as a whole (R99). -/
  | maskedWhole
  /-- A target on an instruction without a result (R99). -/
  | targetOnNone
  /-- An immediate or EXT payload that is ILLEGAL (R62, R64). -/
  | immediate
  /-- Fewer than four bytes: no word. -/
  | shortWord
deriving DecidableEq, Repr

/-- `pr` = 01 is ILLEGAL (R99). -/
def wholePr (w : W32) (x : Except Reject Row) : Except Reject Row :=
  if prOf w = 1 then .error .maskedWhole else x

/-- `pr` = 01 is ILLEGAL and both targets must be 0x1FF (R99). -/
def wholeNone (w : W32) (x : Except Reject Row) : Except Reject Row :=
  if prOf w = 1 then .error .maskedWhole
  else if t0Of w = noTarget ∧ t1Of w = noTarget then x else .error .targetOnNone

/-- EXT: kind and payload (R62). -/
def decodeExt (w : W32) : Except Reject Row :=
  match (xKind w).toNat with
  | 0 => .ok .extWide
  | 1 => if (xPay w).extractLsb' 4 19 = 0 ∧ (bitsAt w 0 3).toNat < 4 then .ok .extHint
         else .error .immediate
  | 2 => if (xPay w).extractLsb' 6 17 = 0 ∧ (bitsAt w 0 3).toNat < 6 then
           .ok .extModifier
         else .error .immediate
  | _ => .error .reservedCode

/-- Majors 0x10 and 0x11 (R101). -/
def decodeAlu (w : W32) : Except Reject Row :=
  match (xopT w).toNat with
  | 0 => .ok .add
  | 1 => .ok .sub
  | 2 => .ok .and
  | 3 => .ok .or
  | 4 => .ok .xor
  | 5 => .ok .andn
  | 6 => .ok .shl
  | 7 => .ok .shr
  | 8 => .ok .sra
  | 9 => .ok .rol
  | 10 => .ok .min
  | 11 => .ok .max
  | 12 => .ok .minn
  | 13 => .ok .maxn
  | 14 => .ok .sel
  | _ => .error .reservedCode

/-- Major 0x12 (R101). -/
def decodeMulDiv (w : W32) : Except Reject Row :=
  if bitsAt w 22 1 = 1 then .error .reservedCode else
  match (bitsAt w 18 3).toNat with
  | 0 => .ok .mul
  | 1 => .ok .mulh
  | 2 => .ok .mulhn
  | 3 => .ok .div
  | 4 => .ok .divn
  | 5 => .ok .rem
  | 6 => .ok .remn
  | _ => .error .reservedCode

/-- Major 0x13 (R101). -/
def decodeBits (w : W32) : Except Reject Row :=
  match (xopT w).toNat with
  | 0 => .ok .clz
  | 1 => .ok .ctz
  | 2 => .ok .pop
  | 3 => .ok .sext8
  | 4 => .ok .sext16
  | 5 => .ok .sext32
  | 6 => .ok .zext8
  | 7 => .ok .zext16
  | 8 => .ok .zext32
  | 9 => .ok .brev
  | 10 => .ok .bswap
  | _ => .error .reservedCode

/-- Major 0x14 (R101). -/
def decodeCompare (w : W32) : Except Reject Row :=
  if bitsAt w 22 1 = 1 then .error .reservedCode else
  match (bitsAt w 18 3).toNat with
  | 0 => .ok .teq
  | 1 => .ok .tne
  | 2 => .ok .tlt
  | 3 => .ok .tle
  | 4 => .ok .tltn
  | 5 => .ok .tlen
  | 6 => if bitsAt w 21 1 = 0 then .ok .tbit else .error .reservedCode
  | _ => .error .reservedCode

/-- Major 0x15 (R101). -/
def decodeMask (w : W32) : Except Reject Row :=
  match (xopT w).toNat with
  | 0 => .ok .pand
  | 1 => .ok .por
  | 2 => .ok .pxor
  | 3 => .ok .pnot
  | 4 => .ok .pany
  | 5 => .ok .pall
  | 6 => .ok .pcnt
  | 7 => .ok .pfirst
  | _ => .error .reservedCode

/-- Majors 0x18 to 0x27 (R98, R140); a shift of 64 or more is ILLEGAL (R64). -/
def decodeImm (w : W32) : Except Reject Row :=
  match (major w).toNat with
  | 0x18 => .ok .addi
  | 0x19 => .ok .addiw
  | 0x1A => .ok .andi
  | 0x1B => .ok .ori
  | 0x1C => .ok .xori
  | 0x1D => if (imm14Of w).toNat < 64 then .ok .shli else .error .immediate
  | 0x1E => if (imm14Of w).toNat < 64 then .ok .shri else .error .immediate
  | 0x1F => if (imm14Of w).toNat < 64 then .ok .srai else .error .immediate
  | 0x20 => .ok .muli
  | 0x21 => .ok .teqi
  | 0x22 => .ok .tnei
  | 0x23 => .ok .tlti
  | 0x24 => .ok .tlei
  | 0x25 => .ok .tltni
  | 0x26 => .ok .movi
  | 0x27 => .ok .movif
  | _ => .error .reservedCode

/-- Major 0x28 (R102). -/
def decodeCap (w : W32) : Except Reject Row :=
  match (xopT w).toNat with
  | 0 => .ok .cadd
  | 1 => .ok .cseta
  | 2 => .ok .csetb
  | 3 => .ok .csetbx
  | 4 => .ok .cperm
  | 5 => .ok .cseal
  | 6 => .ok .cunseal
  | 7 => .ok .cgeta
  | 8 => .ok .cgetb
  | 9 => .ok .cgetl
  | 10 => .ok .cgetp
  | 11 => .ok .cgetk
  | 12 => .ok .ctagt
  | 13 => .ok .csub
  | 14 => .ok .ceq
  | 15 => .ok .cclr
  | _ => .error .reservedCode

/-- Majors 0x30 to 0x40 (R103). -/
def decodeLocal (w : W32) : Except Reject Row :=
  match (major w).toNat with
  | 0x30 => .ok .ldI8
  | 0x31 => .ok .ldN8
  | 0x32 => .ok .ldI16
  | 0x33 => .ok .ldN16
  | 0x34 => .ok .ldI32
  | 0x35 => .ok .ldN32
  | 0x36 => .ok .ld64
  | 0x37 => .ok .ldv
  | 0x38 => .ok .ldc
  | 0x39 => .ok .vgather
  | 0x3A => .ok .st8
  | 0x3B => .ok .st16
  | 0x3C => .ok .st32
  | 0x3D => .ok .st64
  | 0x3E => .ok .stv
  | 0x3F => .ok .stc
  | 0x40 => .ok .vscatter
  | _ => .error .reservedCode

/-- Majors 0x41 to 0x43: the width code of QLD and QST (R104), the fields of AMO (R106). -/
def decodeQueued (w : W32) : Except Reject Row :=
  match (major w).toNat with
  | 0x41 => if (wXop w).toNat < 9 then .ok .qld else .error .reservedCode
  | 0x42 => if (lsidOf w).toNat ∈ [0, 2, 4, 6, 7, 8] then .ok .qst
            else .error .reservedCode
  | _ =>
    if bitsAt w 0 6 ≠ 0 then .error .reservedCode else
    match (wXop w).toNat with
    | 0 => .ok .aad
    | 1 => if bitsAt w 11 1 = 0 then .ok .aswp else .error .reservedCode
    | 2 => if bitsAt w 11 1 = 0 then .ok .acas else .error .reservedCode
    | 3 => if bitsAt w 11 1 = 0 then .ok .amin else .error .reservedCode
    | 4 => if bitsAt w 11 1 = 0 then .ok .amax else .error .reservedCode
    | 5 => if bitsAt w 11 1 = 0 then .ok .aminn else .error .reservedCode
    | 6 => if bitsAt w 11 1 = 0 then .ok .amaxn else .error .reservedCode
    | 7 => if bitsAt w 11 1 = 0 then .ok .aand else .error .reservedCode
    | 8 => if bitsAt w 11 1 = 0 then .ok .aor else .error .reservedCode
    | 9 => if bitsAt w 11 1 = 0 then .ok .axor else .error .reservedCode
    | _ => .error .reservedCode

/-- Major 0x44: kind in xop[4:3], scope in xop[1:0] (R107). -/
def decodeFence (w : W32) : Except Reject Row :=
  if bitsAt w 20 1 = 1 then .error .reservedCode else
  match (bitsAt w 21 2).toNat with
  | 1 => wholeNone w (.ok .fenceAcq)
  | 2 => wholeNone w (.ok .fenceRel)
  | 3 => wholeNone w (.ok .fenceFull)
  | _ => .error .reservedCode

/-- Majors 0x50 and 0x51: VF32 and VF64 (R108). -/
def decodeFloat (w : W32) : Except Reject Row :=
  match (xopT w).toNat with
  | 0 => .ok .vadd
  | 1 => .ok .vsub
  | 2 => .ok .vmul
  | 3 => .ok .vdiv
  | 4 => .ok .vmin
  | 5 => .ok .vmax
  | 6 => .ok .vabs
  | 7 => .ok .vneg
  | 8 => .ok .vsqrt
  | 9 => .ok .vrcp
  | 10 => .ok .vrsq
  | 11 => .ok .vexp2
  | 12 => .ok .vlog2
  | 13 => .ok .vtanh
  | 14 => .ok .vsin
  | 15 => .ok .vcos
  | 16 => .ok .vfloor
  | 17 => .ok .vceil
  | 18 => .ok .vrint
  | 19 => .ok .vclass
  | _ => .error .reservedCode

/-- Major 0x52: VF16, xop[4] selects bf16 (R108). -/
def decodeHalf (w : W32) : Except Reject Row :=
  match (bitsAt w 18 4).toNat with
  | 0 => .ok .vaddF16
  | 1 => .ok .vsubF16
  | 2 => .ok .vmulF16
  | 3 => .ok .vdivF16
  | 4 => .ok .vminF16
  | 5 => .ok .vmaxF16
  | 6 => .ok .vabsF16
  | 7 => .ok .vnegF16
  | 8 => .ok .vsqrtF16
  | 9 => .ok .vrcpF16
  | 10 => .ok .vrsqF16
  | 11 => .ok .vexp2F16
  | 12 => .ok .vlog2F16
  | 13 => .ok .vtanhF16
  | 14 => .ok .vsinF16
  | 15 => .ok .vcosF16
  | _ => .error .reservedCode

/-- Major 0x53: VI32, xop[4] selects natural (R108). -/
def decodeInt32 (w : W32) : Except Reject Row :=
  match (bitsAt w 18 4).toNat with
  | 0 => .ok .vaddI32
  | 1 => .ok .vsubI32
  | 2 => .ok .vmulI32
  | 3 => .ok .vmulhI32
  | 4 => .ok .vminI32
  | 5 => .ok .vmaxI32
  | 6 => if bitsAt w 22 1 = 0 then .ok .vabsI32 else .error .reservedCode
  | 7 => if bitsAt w 22 1 = 0 then .ok .vnegI32 else .error .reservedCode
  | 8 => if bitsAt w 22 1 = 0 then .ok .vandI32 else .error .reservedCode
  | 9 => if bitsAt w 22 1 = 0 then .ok .vorI32 else .error .reservedCode
  | 10 => if bitsAt w 22 1 = 0 then .ok .vxorI32 else .error .reservedCode
  | 11 => .ok .vshlI32
  | 12 => if bitsAt w 22 1 = 0 then .ok .vshrI32 else .error .reservedCode
  | 13 => if bitsAt w 22 1 = 0 then .ok .vsraI32 else .error .reservedCode
  | _ => .error .reservedCode

/-- Majors 0x54 and 0x55: VI16 and VI8 (R108). -/
def decodeInt16 (w : W32) : Except Reject Row :=
  match (bitsAt w 18 4).toNat with
  | 0 => .ok .vaddI16
  | 1 => .ok .vsubI16
  | 2 => .ok .vmulI16
  | 3 => .ok .vmulhI16
  | 4 => .ok .vminI16
  | 5 => .ok .vmaxI16
  | 6 => if bitsAt w 22 1 = 0 then .ok .vabsI16 else .error .reservedCode
  | 7 => if bitsAt w 22 1 = 0 then .ok .vnegI16 else .error .reservedCode
  | 8 => if bitsAt w 22 1 = 0 then .ok .vandI16 else .error .reservedCode
  | 9 => if bitsAt w 22 1 = 0 then .ok .vorI16 else .error .reservedCode
  | 10 => if bitsAt w 22 1 = 0 then .ok .vxorI16 else .error .reservedCode
  | 11 => .ok .vshlI16
  | 12 => if bitsAt w 22 1 = 0 then .ok .vshrI16 else .error .reservedCode
  | 13 => if bitsAt w 22 1 = 0 then .ok .vsraI16 else .error .reservedCode
  | _ => .error .reservedCode

/-- Major 0x56: the VFMA family (R109). -/
def decodeFma (w : W32) : Except Reject Row :=
  if bitsAt w 22 1 = 1 then .error .reservedCode else
  match (bitsAt w 18 2).toNat with
  | 0 => .ok .vfma
  | 1 => .ok .vfms
  | 2 => .ok .vnfma
  | _ => .ok .vnfms

/-- Major 0x57: VCMP (R110). -/
def decodeVcmp (w : W32) : Except Reject Row :=
  match (bitsAt w 18 2).toNat with
  | 0 => .ok .vcmpEq
  | 1 => .ok .vcmpNe
  | 2 => .ok .vcmpLt
  | _ => .ok .vcmpLe

/-- Major 0x58: VCVT (R111). -/
def decodeVcvt (w : W32) : Except Reject Row :=
  match (xopT w).toNat with
  | 0 => .ok .vcvtF32F64
  | 1 => .ok .vcvtF64F32
  | 2 => .ok .vcvtF16F32
  | 3 => .ok .vcvtF32F16
  | 4 => .ok .vcvtBf16F32
  | 5 => .ok .vcvtF32Bf16
  | 6 => .ok .vcvtE4m3F32
  | 7 => .ok .vcvtE5m2F32
  | 8 => .ok .vcvtE4m3F32Nosat
  | 9 => .ok .vcvtE5m2F32Nosat
  | 10 => .ok .vcvtF32E4m3
  | 11 => .ok .vcvtF32E5m2
  | 12 => .ok .vcvtI32F32
  | 13 => .ok .vcvtN32F32
  | 14 => .ok .vcvtF32I32
  | 15 => .ok .vcvtF32N32
  | 16 => .ok .vcvtI64F64
  | 17 => .ok .vcvtN64F64
  | 18 => .ok .vcvtF64I64
  | 19 => .ok .vcvtF64N64
  | 20 => .ok .vcvtI16I32
  | 21 => .ok .vcvtI8I32
  | 22 => .ok .vcvtI32I16
  | 23 => .ok .vcvtI32I8
  | _ => .error .reservedCode

/-- Major 0x59: permutes, xop[4] selects 64-bit elements (R112). -/
def decodePermute (w : W32) : Except Reject Row :=
  match (bitsAt w 18 4).toNat with
  | 0 => .ok .vshuf
  | 1 => .ok .vbcast
  | 2 => .ok .vrot
  | 3 => .ok .viota
  | 4 => .ok .vcomp
  | 5 => .ok .vexpand
  | 6 => .ok .vzip
  | 7 => .ok .vunzip
  | 8 => .ok .vnz
  | 9 => .ok .vnzi
  | 10 => .ok .vins
  | 11 => .ok .vext
  | _ => .error .reservedCode

/-- Major 0x5A: VRED; the float types have operations 0 to 2 only (R113). -/
def decodeVred (w : W32) : Except Reject Row :=
  match (bitsAt w 18 3).toNat with
  | 0 => .ok .vredAdd
  | 1 => .ok .vredMax
  | 2 => .ok .vredMin
  | 3 => if bitsAt w 22 1 = 1 then .ok .vredMaxn else .error .reservedCode
  | 4 => if bitsAt w 22 1 = 1 then .ok .vredMinn else .error .reservedCode
  | 5 => if bitsAt w 22 1 = 1 then .ok .vredAnd else .error .reservedCode
  | 6 => if bitsAt w 22 1 = 1 then .ok .vredOr else .error .reservedCode
  | _ => if bitsAt w 22 1 = 1 then .ok .vredXor else .error .reservedCode

/-- Major 0x5C: the format-block group (R114). -/
def decodeFblock (w : W32) : Except Reject Row :=
  match (xopT w).toNat with
  | 0 => .ok .vqhdr
  | 1 => .ok .vqpk
  | 2 => .ok .vdq
  | 3 => .ok .vbaq
  | 4 => .ok .vbmax
  | 5 => .ok .vbfmt
  | _ => .error .reservedCode

/-- Major 0x5D (R114). -/
def decodeOsm (w : W32) : Except Reject Row :=
  match (xopT w).toNat with
  | 0 => .ok .osmStep
  | 1 => .ok .osmNorm
  | _ => .error .reservedCode

/-- Major 0x70 (R115). -/
def decodeCounter (w : W32) : Except Reject Row :=
  match (xopT w).toNat with
  | 0 => wholePr w (.ok .ctrNew)
  | 1 => wholeNone w (.ok .ctrDec)
  | 2 => wholeNone w (.ok .ctrBind)
  | 3 => wholeNone w (.ok .ctrSplit)
  | 4 => wholePr w (.ok .ctrStat)
  | 5 => wholeNone w (.ok .rarm)
  | _ => .error .reservedCode

/-- Major 0x71 (R115). -/
def decodeInvoke (w : W32) : Except Reject Row :=
  match (xopT w).toNat with
  | 0 => wholePr w (.ok .invoke)
  | 1 => wholePr w (.ok .invokec)
  | _ => .error .reservedCode

/-- Major 0x72 (R115). -/
def decodeSettle (w : W32) : Except Reject Row :=
  match (xopT w).toNat with
  | 0 => wholeNone w (.ok .fulfil)
  | 1 => wholeNone w (.ok .brk)
  | _ => .error .reservedCode

/-- Major 0x74 (R115). -/
def decodeSend (w : W32) : Except Reject Row :=
  match (xopT w).toNat with
  | 0 => wholePr w (.ok .send)
  | _ => .error .reservedCode

/-- Major 0x76 (R115). -/
def decodeQueue (w : W32) : Except Reject Row :=
  match (xopT w).toNat with
  | 0 => wholePr w (.ok .qnew)
  | 1 => wholeNone w (.ok .qbind)
  | 2 => wholeNone w (.ok .qunbind)
  | _ => .error .reservedCode

/-- Major 0x77 (R115). -/
def decodeSpawn (w : W32) : Except Reject Row :=
  match (xopT w).toNat with
  | 0 => wholeNone w (.ok .spawn)
  | _ => .error .reservedCode

/-- Major 0x78 (R115). -/
def decodeLaunch (w : W32) : Except Reject Row :=
  match (xopT w).toNat with
  | 0 => wholePr w (.ok .launch)
  | _ => .error .reservedCode

/-- Major 0x79 (R115). -/
def decodeCpy (w : W32) : Except Reject Row :=
  match (xopT w).toNat with
  | 0 => wholeNone w (.ok .cpy)
  | _ => .error .reservedCode

/-- Major 0x7A (R115). -/
def decodeTile (w : W32) : Except Reject Row :=
  match (xopT w).toNat with
  | 0 => wholeNone w (.ok .tile)
  | _ => .error .reservedCode

/-- Major 0x7B (R115). -/
def decodeFeed (w : W32) : Except Reject Row :=
  match (xopT w).toNat with
  | 0 => wholeNone w (.ok .feedA)
  | 1 => wholeNone w (.ok .feedB)
  | _ => .error .reservedCode

/-- Major 0x7C (R115). -/
def decodeMatrix (w : W32) : Except Reject Row :=
  match (xopT w).toNat with
  | 0 => wholeNone w (.ok .mma)
  | 1 => wholeNone w (.ok .mzero)
  | 2 => wholePr w (.ok .mstat)
  | _ => .error .reservedCode

/-- Major 0x7D: the system group (R116). -/
def decodeSystem (w : W32) : Except Reject Row :=
  match (xopT w).toNat with
  | 0 => wholeNone w (.ok .trap)
  | 1 => wholeNone w (.ok .isync)
  | 2 => wholePr w (.ok .sysRd)
  | 3 => wholeNone w (.ok .sysWr)
  | 4 => wholePr w (.ok .cusTake)
  | 5 => wholeNone w (.ok .cusResume)
  | 6 => wholeNone w (.ok .cusGive)
  | 7 => wholeNone w (.ok .cusBreak)
  | 8 => wholeNone w (.ok .stnMap)
  | 9 => wholeNone w (.ok .stnInv)
  | 10 => wholeNone w (.ok .stnReplay)
  | 11 => wholeNone w (.ok .lodgeNew)
  | 12 => wholeNone w (.ok .lodgeEnd)
  | 13 => wholeNone w (.ok .migrate)
  | 14 => wholeNone w (.ok .shadowSave)
  | 15 => wholeNone w (.ok .shadowLoad)
  | 16 => wholeNone w (.ok .testRun)
  | 17 => wholeNone w (.ok .statSum)
  | 18 => wholeNone w (.ok .engineCancel)
  | _ => .error .reservedCode

/-- Major 0x73: WAIT and WAIT.st (R115); aux is 0 (R99). -/
def decodeWait (w : W32) : Except Reject Row :=
  if auxOf w ≠ 0 then .error .reservedCode else
  match (wXop w).toNat with
  | 0 => wholePr w (.ok .wait)
  | 1 => wholePr w (.ok .waitSt)
  | _ => .error .reservedCode

/-- A T-format major whose only xop is 0 (R100). -/
def onlyXop0 (w : W32) (x : Except Reject Row) : Except Reject Row :=
  if xopT w = 0 then x else .error .reservedCode

/-- A W-format major whose xop and aux are 0 (R99). -/
def onlyReg (w : W32) (x : Except Reject Row) : Except Reject Row :=
  if wXop w = 0 ∧ auxOf w = 0 then x else .error .reservedCode

/-- The table row of a 32-bit word, or why it is none (R97, R98). -/
def rowOf (w : W32) : Except Reject Row :=
  if w = 0 then .error .zeroWord else
  match (major w).toNat with
  | 0x01 => decodeExt w
  | 0x02 => .ok .read
  | 0x03 => if (rReg w).toNat < 5 then .ok .port else .error .registerRange
  | 0x04 => onlyReg w (.ok .write)
  | 0x05 => onlyReg w (if (wReg w).toNat < 4 then .ok .wport else .error .registerRange)
  | 0x06 => onlyXop0 w (wholePr w (.ok .null))
  | 0x07 => onlyXop0 w (.ok .mov)
  | 0x08 => wholePr w (.ok .bro)
  | 0x09 => wholePr w (.ok .call)
  | 0x0A =>
    match (xopT w).toNat with
    | 0 => wholeNone w (.ok .brc)
    | 1 => wholeNone w (.ok .ret)
    | _ => .error .reservedCode
  | 0x0B => onlyReg w (wholePr w (.ok .callc))
  | 0x0C => onlyXop0 w (wholeNone w (.ok .exit))
  | 0x0D => wholePr w (.ok .yield)
  | 0x0E => onlyXop0 w (wholeNone w (.ok .handoff))
  | 0x0F => onlyXop0 w (wholeNone w (.ok .sleep))
  | 0x10 => decodeAlu w
  | 0x11 => decodeAlu w
  | 0x12 => decodeMulDiv w
  | 0x13 => decodeBits w
  | 0x14 => decodeCompare w
  | 0x15 => decodeMask w
  | 0x18 => decodeImm w
  | 0x19 => decodeImm w
  | 0x1A => decodeImm w
  | 0x1B => decodeImm w
  | 0x1C => decodeImm w
  | 0x1D => decodeImm w
  | 0x1E => decodeImm w
  | 0x1F => decodeImm w
  | 0x20 => decodeImm w
  | 0x21 => decodeImm w
  | 0x22 => decodeImm w
  | 0x23 => decodeImm w
  | 0x24 => decodeImm w
  | 0x25 => decodeImm w
  | 0x26 => decodeImm w
  | 0x27 => decodeImm w
  | 0x28 => decodeCap w
  | 0x29 => .ok .caddi
  | 0x30 => decodeLocal w
  | 0x31 => decodeLocal w
  | 0x32 => decodeLocal w
  | 0x33 => decodeLocal w
  | 0x34 => decodeLocal w
  | 0x35 => decodeLocal w
  | 0x36 => decodeLocal w
  | 0x37 => decodeLocal w
  | 0x38 => decodeLocal w
  | 0x39 => decodeLocal w
  | 0x3A => decodeLocal w
  | 0x3B => decodeLocal w
  | 0x3C => decodeLocal w
  | 0x3D => decodeLocal w
  | 0x3E => decodeLocal w
  | 0x3F => decodeLocal w
  | 0x40 => decodeLocal w
  | 0x41 => wholePr w (decodeQueued w)
  | 0x42 => wholePr w (decodeQueued w)
  | 0x43 => wholePr w (decodeQueued w)
  | 0x44 => decodeFence w
  | 0x50 => decodeFloat w
  | 0x51 => decodeFloat w
  | 0x52 => decodeHalf w
  | 0x53 => decodeInt32 w
  | 0x54 => decodeInt16 w
  | 0x55 => decodeInt16 w
  | 0x56 => decodeFma w
  | 0x57 => decodeVcmp w
  | 0x58 => decodeVcvt w
  | 0x59 => decodePermute w
  | 0x5A => decodeVred w
  | 0x5B => onlyXop0 w (.ok .vsel)
  | 0x5C => decodeFblock w
  | 0x5D => decodeOsm w
  | 0x70 => decodeCounter w
  | 0x71 => decodeInvoke w
  | 0x72 => decodeSettle w
  | 0x73 => decodeWait w
  | 0x74 => decodeSend w
  | 0x75 => onlyReg w (wholePr w (.ok .sendw))
  | 0x76 => decodeQueue w
  | 0x77 => decodeSpawn w
  | 0x78 => decodeLaunch w
  | 0x79 => decodeCpy w
  | 0x7A => decodeTile w
  | 0x7B => decodeFeed w
  | 0x7C => decodeMatrix w
  | 0x7D => decodeSystem w
  | _ => .error .reservedMajor

/-- The instruction of a row and a word: its fields (R52). Lean cannot compile the making of a value of a type with so
many constructors, so this and what calls it are evaluated by the kernel only. -/
noncomputable def build (r : Row) (w : W32) : Instr :=
  match r with
  | .extWide => .extWide (xPay w)
  | .extHint => .extHint (bitsAt w 3 1) (bitsAt w 0 3)
  | .extModifier => .extModifier (bitsAt w 4 2) (bitsAt w 3 1) (bitsAt w 0 3)
  | .read => .read (rE w) (rReg w) (t1Of w) (t0Of w)
  | .port => .port (rE w) (rReg w) (t1Of w) (t0Of w)
  | .write => .write (prOf w) (wReg w)
  | .wport => .wport (prOf w) (wReg w)
  | .null => .null (prOf w) (t1Of w) (t0Of w)
  | .mov => .mov (prOf w) (t1Of w) (t0Of w)
  | .bro => .bro (prOf w) (off23Of w)
  | .call => .call (prOf w) (wReg w) (off17Of w)
  | .brc => .brc (prOf w)
  | .ret => .ret (prOf w)
  | .callc => .callc (prOf w) (wReg w)
  | .exit => .exit (prOf w)
  | .yield => .yield (prOf w) (off23Of w)
  | .handoff => .handoff (prOf w)
  | .sleep => .sleep (prOf w)
  | .add => .add (bitsAt w 25 1) (prOf w) (t1Of w) (t0Of w)
  | .sub => .sub (bitsAt w 25 1) (prOf w) (t1Of w) (t0Of w)
  | .and => .and (bitsAt w 25 1) (prOf w) (t1Of w) (t0Of w)
  | .or => .or (bitsAt w 25 1) (prOf w) (t1Of w) (t0Of w)
  | .xor => .xor (bitsAt w 25 1) (prOf w) (t1Of w) (t0Of w)
  | .andn => .andn (bitsAt w 25 1) (prOf w) (t1Of w) (t0Of w)
  | .shl => .shl (bitsAt w 25 1) (prOf w) (t1Of w) (t0Of w)
  | .shr => .shr (bitsAt w 25 1) (prOf w) (t1Of w) (t0Of w)
  | .sra => .sra (bitsAt w 25 1) (prOf w) (t1Of w) (t0Of w)
  | .rol => .rol (bitsAt w 25 1) (prOf w) (t1Of w) (t0Of w)
  | .min => .min (bitsAt w 25 1) (prOf w) (t1Of w) (t0Of w)
  | .max => .max (bitsAt w 25 1) (prOf w) (t1Of w) (t0Of w)
  | .minn => .minn (bitsAt w 25 1) (prOf w) (t1Of w) (t0Of w)
  | .maxn => .maxn (bitsAt w 25 1) (prOf w) (t1Of w) (t0Of w)
  | .sel => .sel (bitsAt w 25 1) (prOf w) (t1Of w) (t0Of w)
  | .mul => .mul (prOf w) (bitsAt w 21 1) (t1Of w) (t0Of w)
  | .mulh => .mulh (prOf w) (bitsAt w 21 1) (t1Of w) (t0Of w)
  | .mulhn => .mulhn (prOf w) (bitsAt w 21 1) (t1Of w) (t0Of w)
  | .div => .div (prOf w) (bitsAt w 21 1) (t1Of w) (t0Of w)
  | .divn => .divn (prOf w) (bitsAt w 21 1) (t1Of w) (t0Of w)
  | .rem => .rem (prOf w) (bitsAt w 21 1) (t1Of w) (t0Of w)
  | .remn => .remn (prOf w) (bitsAt w 21 1) (t1Of w) (t0Of w)
  | .clz => .clz (prOf w) (t1Of w) (t0Of w)
  | .ctz => .ctz (prOf w) (t1Of w) (t0Of w)
  | .pop => .pop (prOf w) (t1Of w) (t0Of w)
  | .sext8 => .sext8 (prOf w) (t1Of w) (t0Of w)
  | .sext16 => .sext16 (prOf w) (t1Of w) (t0Of w)
  | .sext32 => .sext32 (prOf w) (t1Of w) (t0Of w)
  | .zext8 => .zext8 (prOf w) (t1Of w) (t0Of w)
  | .zext16 => .zext16 (prOf w) (t1Of w) (t0Of w)
  | .zext32 => .zext32 (prOf w) (t1Of w) (t0Of w)
  | .brev => .brev (prOf w) (t1Of w) (t0Of w)
  | .bswap => .bswap (prOf w) (t1Of w) (t0Of w)
  | .teq => .teq (prOf w) (bitsAt w 21 1) (t1Of w) (t0Of w)
  | .tne => .tne (prOf w) (bitsAt w 21 1) (t1Of w) (t0Of w)
  | .tlt => .tlt (prOf w) (bitsAt w 21 1) (t1Of w) (t0Of w)
  | .tle => .tle (prOf w) (bitsAt w 21 1) (t1Of w) (t0Of w)
  | .tltn => .tltn (prOf w) (bitsAt w 21 1) (t1Of w) (t0Of w)
  | .tlen => .tlen (prOf w) (bitsAt w 21 1) (t1Of w) (t0Of w)
  | .tbit => .tbit (prOf w) (t1Of w) (t0Of w)
  | .pand => .pand (prOf w) (t1Of w) (t0Of w)
  | .por => .por (prOf w) (t1Of w) (t0Of w)
  | .pxor => .pxor (prOf w) (t1Of w) (t0Of w)
  | .pnot => .pnot (prOf w) (t1Of w) (t0Of w)
  | .pany => .pany (prOf w) (t1Of w) (t0Of w)
  | .pall => .pall (prOf w) (t1Of w) (t0Of w)
  | .pcnt => .pcnt (prOf w) (t1Of w) (t0Of w)
  | .pfirst => .pfirst (prOf w) (t1Of w) (t0Of w)
  | .addi => .addi (prOf w) (imm14Of w) (t0Of w)
  | .addiw => .addiw (prOf w) (imm14Of w) (t0Of w)
  | .andi => .andi (prOf w) (imm14Of w) (t0Of w)
  | .ori => .ori (prOf w) (imm14Of w) (t0Of w)
  | .xori => .xori (prOf w) (imm14Of w) (t0Of w)
  | .shli => .shli (prOf w) (imm14Of w) (t0Of w)
  | .shri => .shri (prOf w) (imm14Of w) (t0Of w)
  | .srai => .srai (prOf w) (imm14Of w) (t0Of w)
  | .muli => .muli (prOf w) (imm14Of w) (t0Of w)
  | .teqi => .teqi (prOf w) (imm14Of w) (t0Of w)
  | .tnei => .tnei (prOf w) (imm14Of w) (t0Of w)
  | .tlti => .tlti (prOf w) (imm14Of w) (t0Of w)
  | .tlei => .tlei (prOf w) (imm14Of w) (t0Of w)
  | .tltni => .tltni (prOf w) (imm14Of w) (t0Of w)
  | .movi => .movi (prOf w) (imm14Of w) (t0Of w)
  | .movif => .movif (prOf w) (imm14Of w) (t0Of w)
  | .cadd => .cadd (prOf w) (t1Of w) (t0Of w)
  | .cseta => .cseta (prOf w) (t1Of w) (t0Of w)
  | .csetb => .csetb (prOf w) (t1Of w) (t0Of w)
  | .csetbx => .csetbx (prOf w) (t1Of w) (t0Of w)
  | .cperm => .cperm (prOf w) (t1Of w) (t0Of w)
  | .cseal => .cseal (prOf w) (t1Of w) (t0Of w)
  | .cunseal => .cunseal (prOf w) (t1Of w) (t0Of w)
  | .cgeta => .cgeta (prOf w) (t1Of w) (t0Of w)
  | .cgetb => .cgetb (prOf w) (t1Of w) (t0Of w)
  | .cgetl => .cgetl (prOf w) (t1Of w) (t0Of w)
  | .cgetp => .cgetp (prOf w) (t1Of w) (t0Of w)
  | .cgetk => .cgetk (prOf w) (t1Of w) (t0Of w)
  | .ctagt => .ctagt (prOf w) (t1Of w) (t0Of w)
  | .csub => .csub (prOf w) (t1Of w) (t0Of w)
  | .ceq => .ceq (prOf w) (t1Of w) (t0Of w)
  | .cclr => .cclr (prOf w) (t1Of w) (t0Of w)
  | .caddi => .caddi (prOf w) (imm14Of w) (t0Of w)
  | .ldI8 => .ldI8 (prOf w) (lsidOf w) (t1Of w) (t0Of w)
  | .ldN8 => .ldN8 (prOf w) (lsidOf w) (t1Of w) (t0Of w)
  | .ldI16 => .ldI16 (prOf w) (lsidOf w) (t1Of w) (t0Of w)
  | .ldN16 => .ldN16 (prOf w) (lsidOf w) (t1Of w) (t0Of w)
  | .ldI32 => .ldI32 (prOf w) (lsidOf w) (t1Of w) (t0Of w)
  | .ldN32 => .ldN32 (prOf w) (lsidOf w) (t1Of w) (t0Of w)
  | .ld64 => .ld64 (prOf w) (lsidOf w) (t1Of w) (t0Of w)
  | .ldv => .ldv (prOf w) (lsidOf w) (t1Of w) (t0Of w)
  | .ldc => .ldc (prOf w) (lsidOf w) (t1Of w) (t0Of w)
  | .vgather => .vgather (prOf w) (lsidOf w) (t1Of w) (t0Of w)
  | .st8 => .st8 (prOf w) (lsidOf w) (imm18Of w)
  | .st16 => .st16 (prOf w) (lsidOf w) (imm18Of w)
  | .st32 => .st32 (prOf w) (lsidOf w) (imm18Of w)
  | .st64 => .st64 (prOf w) (lsidOf w) (imm18Of w)
  | .stv => .stv (prOf w) (lsidOf w) (imm18Of w)
  | .stc => .stc (prOf w) (lsidOf w) (imm18Of w)
  | .vscatter => .vscatter (prOf w) (lsidOf w) (imm18Of w)
  | .qld => .qld (prOf w) (wReg w) (wXop w) (auxOf w)
  | .qst => .qst (prOf w) (lsidOf w) (imm18Of w)
  | .aad => .aad (prOf w) (wReg w) (bitsAt w 10 2) (bitsAt w 8 2) (bitsAt w 6 2)
  | .aswp => .aswp (prOf w) (wReg w) (bitsAt w 10 1) (bitsAt w 8 2) (bitsAt w 6 2)
  | .acas => .acas (prOf w) (wReg w) (bitsAt w 10 1) (bitsAt w 8 2) (bitsAt w 6 2)
  | .amin => .amin (prOf w) (wReg w) (bitsAt w 10 1) (bitsAt w 8 2) (bitsAt w 6 2)
  | .amax => .amax (prOf w) (wReg w) (bitsAt w 10 1) (bitsAt w 8 2) (bitsAt w 6 2)
  | .aminn => .aminn (prOf w) (wReg w) (bitsAt w 10 1) (bitsAt w 8 2) (bitsAt w 6 2)
  | .amaxn => .amaxn (prOf w) (wReg w) (bitsAt w 10 1) (bitsAt w 8 2) (bitsAt w 6 2)
  | .aand => .aand (prOf w) (wReg w) (bitsAt w 10 1) (bitsAt w 8 2) (bitsAt w 6 2)
  | .aor => .aor (prOf w) (wReg w) (bitsAt w 10 1) (bitsAt w 8 2) (bitsAt w 6 2)
  | .axor => .axor (prOf w) (wReg w) (bitsAt w 10 1) (bitsAt w 8 2) (bitsAt w 6 2)
  | .fenceAcq => .fenceAcq (prOf w) (bitsAt w 18 2)
  | .fenceRel => .fenceRel (prOf w) (bitsAt w 18 2)
  | .fenceFull => .fenceFull (prOf w) (bitsAt w 18 2)
  | .vadd => .vadd (bitsAt w 25 1) (prOf w) (t1Of w) (t0Of w)
  | .vsub => .vsub (bitsAt w 25 1) (prOf w) (t1Of w) (t0Of w)
  | .vmul => .vmul (bitsAt w 25 1) (prOf w) (t1Of w) (t0Of w)
  | .vdiv => .vdiv (bitsAt w 25 1) (prOf w) (t1Of w) (t0Of w)
  | .vmin => .vmin (bitsAt w 25 1) (prOf w) (t1Of w) (t0Of w)
  | .vmax => .vmax (bitsAt w 25 1) (prOf w) (t1Of w) (t0Of w)
  | .vabs => .vabs (bitsAt w 25 1) (prOf w) (t1Of w) (t0Of w)
  | .vneg => .vneg (bitsAt w 25 1) (prOf w) (t1Of w) (t0Of w)
  | .vsqrt => .vsqrt (bitsAt w 25 1) (prOf w) (t1Of w) (t0Of w)
  | .vrcp => .vrcp (bitsAt w 25 1) (prOf w) (t1Of w) (t0Of w)
  | .vrsq => .vrsq (bitsAt w 25 1) (prOf w) (t1Of w) (t0Of w)
  | .vexp2 => .vexp2 (bitsAt w 25 1) (prOf w) (t1Of w) (t0Of w)
  | .vlog2 => .vlog2 (bitsAt w 25 1) (prOf w) (t1Of w) (t0Of w)
  | .vtanh => .vtanh (bitsAt w 25 1) (prOf w) (t1Of w) (t0Of w)
  | .vsin => .vsin (bitsAt w 25 1) (prOf w) (t1Of w) (t0Of w)
  | .vcos => .vcos (bitsAt w 25 1) (prOf w) (t1Of w) (t0Of w)
  | .vfloor => .vfloor (bitsAt w 25 1) (prOf w) (t1Of w) (t0Of w)
  | .vceil => .vceil (bitsAt w 25 1) (prOf w) (t1Of w) (t0Of w)
  | .vrint => .vrint (bitsAt w 25 1) (prOf w) (t1Of w) (t0Of w)
  | .vclass => .vclass (bitsAt w 25 1) (prOf w) (t1Of w) (t0Of w)
  | .vaddF16 => .vaddF16 (prOf w) (bitsAt w 22 1) (t1Of w) (t0Of w)
  | .vsubF16 => .vsubF16 (prOf w) (bitsAt w 22 1) (t1Of w) (t0Of w)
  | .vmulF16 => .vmulF16 (prOf w) (bitsAt w 22 1) (t1Of w) (t0Of w)
  | .vdivF16 => .vdivF16 (prOf w) (bitsAt w 22 1) (t1Of w) (t0Of w)
  | .vminF16 => .vminF16 (prOf w) (bitsAt w 22 1) (t1Of w) (t0Of w)
  | .vmaxF16 => .vmaxF16 (prOf w) (bitsAt w 22 1) (t1Of w) (t0Of w)
  | .vabsF16 => .vabsF16 (prOf w) (bitsAt w 22 1) (t1Of w) (t0Of w)
  | .vnegF16 => .vnegF16 (prOf w) (bitsAt w 22 1) (t1Of w) (t0Of w)
  | .vsqrtF16 => .vsqrtF16 (prOf w) (bitsAt w 22 1) (t1Of w) (t0Of w)
  | .vrcpF16 => .vrcpF16 (prOf w) (bitsAt w 22 1) (t1Of w) (t0Of w)
  | .vrsqF16 => .vrsqF16 (prOf w) (bitsAt w 22 1) (t1Of w) (t0Of w)
  | .vexp2F16 => .vexp2F16 (prOf w) (bitsAt w 22 1) (t1Of w) (t0Of w)
  | .vlog2F16 => .vlog2F16 (prOf w) (bitsAt w 22 1) (t1Of w) (t0Of w)
  | .vtanhF16 => .vtanhF16 (prOf w) (bitsAt w 22 1) (t1Of w) (t0Of w)
  | .vsinF16 => .vsinF16 (prOf w) (bitsAt w 22 1) (t1Of w) (t0Of w)
  | .vcosF16 => .vcosF16 (prOf w) (bitsAt w 22 1) (t1Of w) (t0Of w)
  | .vaddI32 => .vaddI32 (prOf w) (bitsAt w 22 1) (t1Of w) (t0Of w)
  | .vsubI32 => .vsubI32 (prOf w) (bitsAt w 22 1) (t1Of w) (t0Of w)
  | .vmulI32 => .vmulI32 (prOf w) (bitsAt w 22 1) (t1Of w) (t0Of w)
  | .vmulhI32 => .vmulhI32 (prOf w) (bitsAt w 22 1) (t1Of w) (t0Of w)
  | .vminI32 => .vminI32 (prOf w) (bitsAt w 22 1) (t1Of w) (t0Of w)
  | .vmaxI32 => .vmaxI32 (prOf w) (bitsAt w 22 1) (t1Of w) (t0Of w)
  | .vabsI32 => .vabsI32 (prOf w) (t1Of w) (t0Of w)
  | .vnegI32 => .vnegI32 (prOf w) (t1Of w) (t0Of w)
  | .vandI32 => .vandI32 (prOf w) (t1Of w) (t0Of w)
  | .vorI32 => .vorI32 (prOf w) (t1Of w) (t0Of w)
  | .vxorI32 => .vxorI32 (prOf w) (t1Of w) (t0Of w)
  | .vshlI32 => .vshlI32 (prOf w) (bitsAt w 22 1) (t1Of w) (t0Of w)
  | .vshrI32 => .vshrI32 (prOf w) (t1Of w) (t0Of w)
  | .vsraI32 => .vsraI32 (prOf w) (t1Of w) (t0Of w)
  | .vaddI16 => .vaddI16 (bitsAt w 25 1) (prOf w) (bitsAt w 22 1) (t1Of w) (t0Of w)
  | .vsubI16 => .vsubI16 (bitsAt w 25 1) (prOf w) (bitsAt w 22 1) (t1Of w) (t0Of w)
  | .vmulI16 => .vmulI16 (bitsAt w 25 1) (prOf w) (bitsAt w 22 1) (t1Of w) (t0Of w)
  | .vmulhI16 => .vmulhI16 (bitsAt w 25 1) (prOf w) (bitsAt w 22 1) (t1Of w) (t0Of w)
  | .vminI16 => .vminI16 (bitsAt w 25 1) (prOf w) (bitsAt w 22 1) (t1Of w) (t0Of w)
  | .vmaxI16 => .vmaxI16 (bitsAt w 25 1) (prOf w) (bitsAt w 22 1) (t1Of w) (t0Of w)
  | .vabsI16 => .vabsI16 (bitsAt w 25 1) (prOf w) (t1Of w) (t0Of w)
  | .vnegI16 => .vnegI16 (bitsAt w 25 1) (prOf w) (t1Of w) (t0Of w)
  | .vandI16 => .vandI16 (bitsAt w 25 1) (prOf w) (t1Of w) (t0Of w)
  | .vorI16 => .vorI16 (bitsAt w 25 1) (prOf w) (t1Of w) (t0Of w)
  | .vxorI16 => .vxorI16 (bitsAt w 25 1) (prOf w) (t1Of w) (t0Of w)
  | .vshlI16 => .vshlI16 (bitsAt w 25 1) (prOf w) (bitsAt w 22 1) (t1Of w) (t0Of w)
  | .vshrI16 => .vshrI16 (bitsAt w 25 1) (prOf w) (t1Of w) (t0Of w)
  | .vsraI16 => .vsraI16 (bitsAt w 25 1) (prOf w) (t1Of w) (t0Of w)
  | .vfma => .vfma (prOf w) (bitsAt w 20 2) (t1Of w) (t0Of w)
  | .vfms => .vfms (prOf w) (bitsAt w 20 2) (t1Of w) (t0Of w)
  | .vnfma => .vnfma (prOf w) (bitsAt w 20 2) (t1Of w) (t0Of w)
  | .vnfms => .vnfms (prOf w) (bitsAt w 20 2) (t1Of w) (t0Of w)
  | .vcmpEq => .vcmpEq (prOf w) (bitsAt w 20 3) (t1Of w) (t0Of w)
  | .vcmpNe => .vcmpNe (prOf w) (bitsAt w 20 3) (t1Of w) (t0Of w)
  | .vcmpLt => .vcmpLt (prOf w) (bitsAt w 20 3) (t1Of w) (t0Of w)
  | .vcmpLe => .vcmpLe (prOf w) (bitsAt w 20 3) (t1Of w) (t0Of w)
  | .vcvtF32F64 => .vcvtF32F64 (prOf w) (t1Of w) (t0Of w)
  | .vcvtF64F32 => .vcvtF64F32 (prOf w) (t1Of w) (t0Of w)
  | .vcvtF16F32 => .vcvtF16F32 (prOf w) (t1Of w) (t0Of w)
  | .vcvtF32F16 => .vcvtF32F16 (prOf w) (t1Of w) (t0Of w)
  | .vcvtBf16F32 => .vcvtBf16F32 (prOf w) (t1Of w) (t0Of w)
  | .vcvtF32Bf16 => .vcvtF32Bf16 (prOf w) (t1Of w) (t0Of w)
  | .vcvtE4m3F32 => .vcvtE4m3F32 (prOf w) (t1Of w) (t0Of w)
  | .vcvtE5m2F32 => .vcvtE5m2F32 (prOf w) (t1Of w) (t0Of w)
  | .vcvtE4m3F32Nosat => .vcvtE4m3F32Nosat (prOf w) (t1Of w) (t0Of w)
  | .vcvtE5m2F32Nosat => .vcvtE5m2F32Nosat (prOf w) (t1Of w) (t0Of w)
  | .vcvtF32E4m3 => .vcvtF32E4m3 (prOf w) (t1Of w) (t0Of w)
  | .vcvtF32E5m2 => .vcvtF32E5m2 (prOf w) (t1Of w) (t0Of w)
  | .vcvtI32F32 => .vcvtI32F32 (prOf w) (t1Of w) (t0Of w)
  | .vcvtN32F32 => .vcvtN32F32 (prOf w) (t1Of w) (t0Of w)
  | .vcvtF32I32 => .vcvtF32I32 (prOf w) (t1Of w) (t0Of w)
  | .vcvtF32N32 => .vcvtF32N32 (prOf w) (t1Of w) (t0Of w)
  | .vcvtI64F64 => .vcvtI64F64 (prOf w) (t1Of w) (t0Of w)
  | .vcvtN64F64 => .vcvtN64F64 (prOf w) (t1Of w) (t0Of w)
  | .vcvtF64I64 => .vcvtF64I64 (prOf w) (t1Of w) (t0Of w)
  | .vcvtF64N64 => .vcvtF64N64 (prOf w) (t1Of w) (t0Of w)
  | .vcvtI16I32 => .vcvtI16I32 (prOf w) (t1Of w) (t0Of w)
  | .vcvtI8I32 => .vcvtI8I32 (prOf w) (t1Of w) (t0Of w)
  | .vcvtI32I16 => .vcvtI32I16 (prOf w) (t1Of w) (t0Of w)
  | .vcvtI32I8 => .vcvtI32I8 (prOf w) (t1Of w) (t0Of w)
  | .vshuf => .vshuf (prOf w) (bitsAt w 22 1) (t1Of w) (t0Of w)
  | .vbcast => .vbcast (prOf w) (bitsAt w 22 1) (t1Of w) (t0Of w)
  | .vrot => .vrot (prOf w) (bitsAt w 22 1) (t1Of w) (t0Of w)
  | .viota => .viota (prOf w) (bitsAt w 22 1) (t1Of w) (t0Of w)
  | .vcomp => .vcomp (prOf w) (bitsAt w 22 1) (t1Of w) (t0Of w)
  | .vexpand => .vexpand (prOf w) (bitsAt w 22 1) (t1Of w) (t0Of w)
  | .vzip => .vzip (prOf w) (bitsAt w 22 1) (t1Of w) (t0Of w)
  | .vunzip => .vunzip (prOf w) (bitsAt w 22 1) (t1Of w) (t0Of w)
  | .vnz => .vnz (prOf w) (bitsAt w 22 1) (t1Of w) (t0Of w)
  | .vnzi => .vnzi (prOf w) (bitsAt w 22 1) (t1Of w) (t0Of w)
  | .vins => .vins (prOf w) (bitsAt w 22 1) (t1Of w) (t0Of w)
  | .vext => .vext (prOf w) (bitsAt w 22 1) (t1Of w) (t0Of w)
  | .vredAdd => .vredAdd (prOf w) (bitsAt w 21 2) (t1Of w) (t0Of w)
  | .vredMax => .vredMax (prOf w) (bitsAt w 21 2) (t1Of w) (t0Of w)
  | .vredMin => .vredMin (prOf w) (bitsAt w 21 2) (t1Of w) (t0Of w)
  | .vredMaxn => .vredMaxn (prOf w) (bitsAt w 21 2) (t1Of w) (t0Of w)
  | .vredMinn => .vredMinn (prOf w) (bitsAt w 21 2) (t1Of w) (t0Of w)
  | .vredAnd => .vredAnd (prOf w) (bitsAt w 21 2) (t1Of w) (t0Of w)
  | .vredOr => .vredOr (prOf w) (bitsAt w 21 2) (t1Of w) (t0Of w)
  | .vredXor => .vredXor (prOf w) (bitsAt w 21 2) (t1Of w) (t0Of w)
  | .vsel => .vsel (prOf w) (t1Of w) (t0Of w)
  | .vqhdr => .vqhdr (prOf w) (t1Of w) (t0Of w)
  | .vqpk => .vqpk (prOf w) (t1Of w) (t0Of w)
  | .vdq => .vdq (prOf w) (t1Of w) (t0Of w)
  | .vbaq => .vbaq (prOf w) (t1Of w) (t0Of w)
  | .vbmax => .vbmax (prOf w) (t1Of w) (t0Of w)
  | .vbfmt => .vbfmt (prOf w) (t1Of w) (t0Of w)
  | .osmStep => .osmStep (prOf w) (t1Of w) (t0Of w)
  | .osmNorm => .osmNorm (prOf w) (t1Of w) (t0Of w)
  | .ctrNew => .ctrNew (prOf w) (t1Of w) (t0Of w)
  | .ctrDec => .ctrDec (prOf w)
  | .ctrBind => .ctrBind (prOf w)
  | .ctrSplit => .ctrSplit (prOf w)
  | .ctrStat => .ctrStat (prOf w) (t1Of w) (t0Of w)
  | .rarm => .rarm (prOf w)
  | .invoke => .invoke (prOf w) (t1Of w) (t0Of w)
  | .invokec => .invokec (prOf w) (t1Of w) (t0Of w)
  | .fulfil => .fulfil (prOf w)
  | .brk => .brk (prOf w)
  | .wait => .wait (prOf w) (wReg w)
  | .waitSt => .waitSt (prOf w) (wReg w)
  | .send => .send (prOf w) (t1Of w) (t0Of w)
  | .sendw => .sendw (prOf w) (wReg w)
  | .qnew => .qnew (prOf w) (t1Of w) (t0Of w)
  | .qbind => .qbind (prOf w)
  | .qunbind => .qunbind (prOf w)
  | .spawn => .spawn (prOf w)
  | .launch => .launch (prOf w) (t1Of w) (t0Of w)
  | .cpy => .cpy (prOf w)
  | .tile => .tile (prOf w)
  | .feedA => .feedA (prOf w)
  | .feedB => .feedB (prOf w)
  | .mma => .mma (prOf w)
  | .mzero => .mzero (prOf w)
  | .mstat => .mstat (prOf w) (t1Of w) (t0Of w)
  | .trap => .trap (prOf w)
  | .isync => .isync (prOf w)
  | .sysRd => .sysRd (prOf w) (t1Of w) (t0Of w)
  | .sysWr => .sysWr (prOf w)
  | .cusTake => .cusTake (prOf w) (t1Of w) (t0Of w)
  | .cusResume => .cusResume (prOf w)
  | .cusGive => .cusGive (prOf w)
  | .cusBreak => .cusBreak (prOf w)
  | .stnMap => .stnMap (prOf w)
  | .stnInv => .stnInv (prOf w)
  | .stnReplay => .stnReplay (prOf w)
  | .lodgeNew => .lodgeNew (prOf w)
  | .lodgeEnd => .lodgeEnd (prOf w)
  | .migrate => .migrate (prOf w)
  | .shadowSave => .shadowSave (prOf w)
  | .shadowLoad => .shadowLoad (prOf w)
  | .testRun => .testRun (prOf w)
  | .statSum => .statSum (prOf w)
  | .engineCancel => .engineCancel (prOf w)

/-- The instruction of a 32-bit word, or why it is none (R97, R98). -/
noncomputable def decodeWord (w : W32) : Except Reject Instr :=
  match rowOf w with
  | .ok r => .ok (build r w)
  | .error e => .error e

/-- An instruction from bytes in memory order: the instruction and the bytes after it (R4, R46). -/
noncomputable def decodeBytes : List Byte → Except Reject (Instr × List Byte)
  | b0 :: b1 :: b2 :: b3 :: rest =>
    match decodeWord (wordOfBytes 32 [b0, b1, b2, b3]) with
    | .ok i => .ok (i, rest)
    | .error e => .error e
  | _ => .error .shortWord

/-- The instruction the decoder reads from the bits `w`, laid out as the hardware stores the word. Every instruction is
one 32-bit word, so bits of `w` from `nbits` upward are zero by the caller's rule. -/
noncomputable def decodeTableWord (nbits w : Nat) : Option Instr :=
  match decodeBytes (bytesOf 4 (BitVec.ofNat 32 (w % 2 ^ nbits))) with
  | .ok (i, _) => some i
  | .error _ => none

/-- The word of an instruction, from the same tables. A row that no word encodes gives the all-zero word, which is
ILLEGAL (R51). -/
def encode : Instr → W32
  | .extWide payload => mkX 0 payload
  | .extHint long cls => mkX 1 ((0 : BitVec 19) ++ long ++ cls)
  | .extModifier scope sat round => mkX 2 ((0 : BitVec 17) ++ scope ++ sat ++ round)
  | .read e reg t1 t0 => mkR 0x02 e reg t1 t0
  | .port e reg t1 t0 => mkR 0x03 e reg t1 t0
  | .write pr reg => mkW 0x04 pr reg 0 0
  | .wport pr reg => mkW 0x05 pr reg 0 0
  | .null pr t1 t0 => mkT 0x06 pr 0 t1 t0
  | .mov pr t1 t0 => mkT 0x07 pr 0 t1 t0
  | .bro pr off => mkB 0x08 pr off
  | .call pr reg off => mkBL 0x09 pr reg off
  | .brc pr => mkT 0x0A pr 0 noTarget noTarget
  | .ret pr => mkT 0x0A pr 1 noTarget noTarget
  | .callc pr reg => mkW 0x0B pr reg 0 0
  | .exit pr => mkT 0x0C pr 0 noTarget noTarget
  | .yield pr off => mkB 0x0D pr off
  | .handoff pr => mkT 0x0E pr 0 noTarget noTarget
  | .sleep pr => mkT 0x0F pr 0 noTarget noTarget
  | .add w pr t1 t0 => mkT ((0x08 : BitVec 6) ++ w) pr 0 t1 t0
  | .sub w pr t1 t0 => mkT ((0x08 : BitVec 6) ++ w) pr 1 t1 t0
  | .and w pr t1 t0 => mkT ((0x08 : BitVec 6) ++ w) pr 2 t1 t0
  | .or w pr t1 t0 => mkT ((0x08 : BitVec 6) ++ w) pr 3 t1 t0
  | .xor w pr t1 t0 => mkT ((0x08 : BitVec 6) ++ w) pr 4 t1 t0
  | .andn w pr t1 t0 => mkT ((0x08 : BitVec 6) ++ w) pr 5 t1 t0
  | .shl w pr t1 t0 => mkT ((0x08 : BitVec 6) ++ w) pr 6 t1 t0
  | .shr w pr t1 t0 => mkT ((0x08 : BitVec 6) ++ w) pr 7 t1 t0
  | .sra w pr t1 t0 => mkT ((0x08 : BitVec 6) ++ w) pr 8 t1 t0
  | .rol w pr t1 t0 => mkT ((0x08 : BitVec 6) ++ w) pr 9 t1 t0
  | .min w pr t1 t0 => mkT ((0x08 : BitVec 6) ++ w) pr 10 t1 t0
  | .max w pr t1 t0 => mkT ((0x08 : BitVec 6) ++ w) pr 11 t1 t0
  | .minn w pr t1 t0 => mkT ((0x08 : BitVec 6) ++ w) pr 12 t1 t0
  | .maxn w pr t1 t0 => mkT ((0x08 : BitVec 6) ++ w) pr 13 t1 t0
  | .sel w pr t1 t0 => mkT ((0x08 : BitVec 6) ++ w) pr 14 t1 t0
  | .mul pr w t1 t0 => mkT 0x12 pr ((0 : BitVec 1) ++ w ++ (0 : BitVec 3)) t1 t0
  | .mulh pr w t1 t0 => mkT 0x12 pr ((0 : BitVec 1) ++ w ++ (1 : BitVec 3)) t1 t0
  | .mulhn pr w t1 t0 => mkT 0x12 pr ((0 : BitVec 1) ++ w ++ (2 : BitVec 3)) t1 t0
  | .div pr w t1 t0 => mkT 0x12 pr ((0 : BitVec 1) ++ w ++ (3 : BitVec 3)) t1 t0
  | .divn pr w t1 t0 => mkT 0x12 pr ((0 : BitVec 1) ++ w ++ (4 : BitVec 3)) t1 t0
  | .rem pr w t1 t0 => mkT 0x12 pr ((0 : BitVec 1) ++ w ++ (5 : BitVec 3)) t1 t0
  | .remn pr w t1 t0 => mkT 0x12 pr ((0 : BitVec 1) ++ w ++ (6 : BitVec 3)) t1 t0
  | .clz pr t1 t0 => mkT 0x13 pr 0 t1 t0
  | .ctz pr t1 t0 => mkT 0x13 pr 1 t1 t0
  | .pop pr t1 t0 => mkT 0x13 pr 2 t1 t0
  | .sext8 pr t1 t0 => mkT 0x13 pr 3 t1 t0
  | .sext16 pr t1 t0 => mkT 0x13 pr 4 t1 t0
  | .sext32 pr t1 t0 => mkT 0x13 pr 5 t1 t0
  | .zext8 pr t1 t0 => mkT 0x13 pr 6 t1 t0
  | .zext16 pr t1 t0 => mkT 0x13 pr 7 t1 t0
  | .zext32 pr t1 t0 => mkT 0x13 pr 8 t1 t0
  | .brev pr t1 t0 => mkT 0x13 pr 9 t1 t0
  | .bswap pr t1 t0 => mkT 0x13 pr 10 t1 t0
  | .teq pr w t1 t0 => mkT 0x14 pr ((0 : BitVec 1) ++ w ++ (0 : BitVec 3)) t1 t0
  | .tne pr w t1 t0 => mkT 0x14 pr ((0 : BitVec 1) ++ w ++ (1 : BitVec 3)) t1 t0
  | .tlt pr w t1 t0 => mkT 0x14 pr ((0 : BitVec 1) ++ w ++ (2 : BitVec 3)) t1 t0
  | .tle pr w t1 t0 => mkT 0x14 pr ((0 : BitVec 1) ++ w ++ (3 : BitVec 3)) t1 t0
  | .tltn pr w t1 t0 => mkT 0x14 pr ((0 : BitVec 1) ++ w ++ (4 : BitVec 3)) t1 t0
  | .tlen pr w t1 t0 => mkT 0x14 pr ((0 : BitVec 1) ++ w ++ (5 : BitVec 3)) t1 t0
  | .tbit pr t1 t0 => mkT 0x14 pr 6 t1 t0
  | .pand pr t1 t0 => mkT 0x15 pr 0 t1 t0
  | .por pr t1 t0 => mkT 0x15 pr 1 t1 t0
  | .pxor pr t1 t0 => mkT 0x15 pr 2 t1 t0
  | .pnot pr t1 t0 => mkT 0x15 pr 3 t1 t0
  | .pany pr t1 t0 => mkT 0x15 pr 4 t1 t0
  | .pall pr t1 t0 => mkT 0x15 pr 5 t1 t0
  | .pcnt pr t1 t0 => mkT 0x15 pr 6 t1 t0
  | .pfirst pr t1 t0 => mkT 0x15 pr 7 t1 t0
  | .addi pr imm t0 => mkI 0x18 pr imm t0
  | .addiw pr imm t0 => mkI 0x19 pr imm t0
  | .andi pr imm t0 => mkI 0x1A pr imm t0
  | .ori pr imm t0 => mkI 0x1B pr imm t0
  | .xori pr imm t0 => mkI 0x1C pr imm t0
  | .shli pr imm t0 => mkI 0x1D pr imm t0
  | .shri pr imm t0 => mkI 0x1E pr imm t0
  | .srai pr imm t0 => mkI 0x1F pr imm t0
  | .muli pr imm t0 => mkI 0x20 pr imm t0
  | .teqi pr imm t0 => mkI 0x21 pr imm t0
  | .tnei pr imm t0 => mkI 0x22 pr imm t0
  | .tlti pr imm t0 => mkI 0x23 pr imm t0
  | .tlei pr imm t0 => mkI 0x24 pr imm t0
  | .tltni pr imm t0 => mkI 0x25 pr imm t0
  | .movi pr imm t0 => mkI 0x26 pr imm t0
  | .movif pr imm t0 => mkI 0x27 pr imm t0
  | .cadd pr t1 t0 => mkT 0x28 pr 0 t1 t0
  | .cseta pr t1 t0 => mkT 0x28 pr 1 t1 t0
  | .csetb pr t1 t0 => mkT 0x28 pr 2 t1 t0
  | .csetbx pr t1 t0 => mkT 0x28 pr 3 t1 t0
  | .cperm pr t1 t0 => mkT 0x28 pr 4 t1 t0
  | .cseal pr t1 t0 => mkT 0x28 pr 5 t1 t0
  | .cunseal pr t1 t0 => mkT 0x28 pr 6 t1 t0
  | .cgeta pr t1 t0 => mkT 0x28 pr 7 t1 t0
  | .cgetb pr t1 t0 => mkT 0x28 pr 8 t1 t0
  | .cgetl pr t1 t0 => mkT 0x28 pr 9 t1 t0
  | .cgetp pr t1 t0 => mkT 0x28 pr 10 t1 t0
  | .cgetk pr t1 t0 => mkT 0x28 pr 11 t1 t0
  | .ctagt pr t1 t0 => mkT 0x28 pr 12 t1 t0
  | .csub pr t1 t0 => mkT 0x28 pr 13 t1 t0
  | .ceq pr t1 t0 => mkT 0x28 pr 14 t1 t0
  | .cclr pr t1 t0 => mkT 0x28 pr 15 t1 t0
  | .caddi pr imm t0 => mkI 0x29 pr imm t0
  | .ldI8 pr lsid imm t0 => mkL 0x30 pr lsid imm t0
  | .ldN8 pr lsid imm t0 => mkL 0x31 pr lsid imm t0
  | .ldI16 pr lsid imm t0 => mkL 0x32 pr lsid imm t0
  | .ldN16 pr lsid imm t0 => mkL 0x33 pr lsid imm t0
  | .ldI32 pr lsid imm t0 => mkL 0x34 pr lsid imm t0
  | .ldN32 pr lsid imm t0 => mkL 0x35 pr lsid imm t0
  | .ld64 pr lsid imm t0 => mkL 0x36 pr lsid imm t0
  | .ldv pr lsid imm t0 => mkL 0x37 pr lsid imm t0
  | .ldc pr lsid imm t0 => mkL 0x38 pr lsid imm t0
  | .vgather pr lsid imm t0 => mkL 0x39 pr lsid imm t0
  | .st8 pr lsid imm => mkS 0x3A pr lsid imm
  | .st16 pr lsid imm => mkS 0x3B pr lsid imm
  | .st32 pr lsid imm => mkS 0x3C pr lsid imm
  | .st64 pr lsid imm => mkS 0x3D pr lsid imm
  | .stv pr lsid imm => mkS 0x3E pr lsid imm
  | .stc pr lsid imm => mkS 0x3F pr lsid imm
  | .vscatter pr lsid imm => mkS 0x40 pr lsid imm
  | .qld pr reg width off => mkW 0x41 pr reg width off
  | .qst pr width imm => mkS 0x42 pr width imm
  | .aad pr reg w scope order => mkW 0x43 pr reg 0 (w ++ scope ++ order ++ (0 : BitVec 6))
  | .aswp pr reg w scope order => mkW 0x43 pr reg 1 ((0 : BitVec 1) ++ w ++ scope ++ order ++ (0 : BitVec 6))
  | .acas pr reg w scope order => mkW 0x43 pr reg 2 ((0 : BitVec 1) ++ w ++ scope ++ order ++ (0 : BitVec 6))
  | .amin pr reg w scope order => mkW 0x43 pr reg 3 ((0 : BitVec 1) ++ w ++ scope ++ order ++ (0 : BitVec 6))
  | .amax pr reg w scope order => mkW 0x43 pr reg 4 ((0 : BitVec 1) ++ w ++ scope ++ order ++ (0 : BitVec 6))
  | .aminn pr reg w scope order => mkW 0x43 pr reg 5 ((0 : BitVec 1) ++ w ++ scope ++ order ++ (0 : BitVec 6))
  | .amaxn pr reg w scope order => mkW 0x43 pr reg 6 ((0 : BitVec 1) ++ w ++ scope ++ order ++ (0 : BitVec 6))
  | .aand pr reg w scope order => mkW 0x43 pr reg 7 ((0 : BitVec 1) ++ w ++ scope ++ order ++ (0 : BitVec 6))
  | .aor pr reg w scope order => mkW 0x43 pr reg 8 ((0 : BitVec 1) ++ w ++ scope ++ order ++ (0 : BitVec 6))
  | .axor pr reg w scope order => mkW 0x43 pr reg 9 ((0 : BitVec 1) ++ w ++ scope ++ order ++ (0 : BitVec 6))
  | .fenceAcq pr scope => mkT 0x44 pr ((1 : BitVec 2) ++ (0 : BitVec 1) ++ scope) noTarget noTarget
  | .fenceRel pr scope => mkT 0x44 pr ((2 : BitVec 2) ++ (0 : BitVec 1) ++ scope) noTarget noTarget
  | .fenceFull pr scope => mkT 0x44 pr ((3 : BitVec 2) ++ (0 : BitVec 1) ++ scope) noTarget noTarget
  | .vadd w pr t1 t0 => mkT ((0x28 : BitVec 6) ++ w) pr 0 t1 t0
  | .vsub w pr t1 t0 => mkT ((0x28 : BitVec 6) ++ w) pr 1 t1 t0
  | .vmul w pr t1 t0 => mkT ((0x28 : BitVec 6) ++ w) pr 2 t1 t0
  | .vdiv w pr t1 t0 => mkT ((0x28 : BitVec 6) ++ w) pr 3 t1 t0
  | .vmin w pr t1 t0 => mkT ((0x28 : BitVec 6) ++ w) pr 4 t1 t0
  | .vmax w pr t1 t0 => mkT ((0x28 : BitVec 6) ++ w) pr 5 t1 t0
  | .vabs w pr t1 t0 => mkT ((0x28 : BitVec 6) ++ w) pr 6 t1 t0
  | .vneg w pr t1 t0 => mkT ((0x28 : BitVec 6) ++ w) pr 7 t1 t0
  | .vsqrt w pr t1 t0 => mkT ((0x28 : BitVec 6) ++ w) pr 8 t1 t0
  | .vrcp w pr t1 t0 => mkT ((0x28 : BitVec 6) ++ w) pr 9 t1 t0
  | .vrsq w pr t1 t0 => mkT ((0x28 : BitVec 6) ++ w) pr 10 t1 t0
  | .vexp2 w pr t1 t0 => mkT ((0x28 : BitVec 6) ++ w) pr 11 t1 t0
  | .vlog2 w pr t1 t0 => mkT ((0x28 : BitVec 6) ++ w) pr 12 t1 t0
  | .vtanh w pr t1 t0 => mkT ((0x28 : BitVec 6) ++ w) pr 13 t1 t0
  | .vsin w pr t1 t0 => mkT ((0x28 : BitVec 6) ++ w) pr 14 t1 t0
  | .vcos w pr t1 t0 => mkT ((0x28 : BitVec 6) ++ w) pr 15 t1 t0
  | .vfloor w pr t1 t0 => mkT ((0x28 : BitVec 6) ++ w) pr 16 t1 t0
  | .vceil w pr t1 t0 => mkT ((0x28 : BitVec 6) ++ w) pr 17 t1 t0
  | .vrint w pr t1 t0 => mkT ((0x28 : BitVec 6) ++ w) pr 18 t1 t0
  | .vclass w pr t1 t0 => mkT ((0x28 : BitVec 6) ++ w) pr 19 t1 t0
  | .vaddF16 pr w t1 t0 => mkT 0x52 pr (w ++ (0 : BitVec 4)) t1 t0
  | .vsubF16 pr w t1 t0 => mkT 0x52 pr (w ++ (1 : BitVec 4)) t1 t0
  | .vmulF16 pr w t1 t0 => mkT 0x52 pr (w ++ (2 : BitVec 4)) t1 t0
  | .vdivF16 pr w t1 t0 => mkT 0x52 pr (w ++ (3 : BitVec 4)) t1 t0
  | .vminF16 pr w t1 t0 => mkT 0x52 pr (w ++ (4 : BitVec 4)) t1 t0
  | .vmaxF16 pr w t1 t0 => mkT 0x52 pr (w ++ (5 : BitVec 4)) t1 t0
  | .vabsF16 pr w t1 t0 => mkT 0x52 pr (w ++ (6 : BitVec 4)) t1 t0
  | .vnegF16 pr w t1 t0 => mkT 0x52 pr (w ++ (7 : BitVec 4)) t1 t0
  | .vsqrtF16 pr w t1 t0 => mkT 0x52 pr (w ++ (8 : BitVec 4)) t1 t0
  | .vrcpF16 pr w t1 t0 => mkT 0x52 pr (w ++ (9 : BitVec 4)) t1 t0
  | .vrsqF16 pr w t1 t0 => mkT 0x52 pr (w ++ (10 : BitVec 4)) t1 t0
  | .vexp2F16 pr w t1 t0 => mkT 0x52 pr (w ++ (11 : BitVec 4)) t1 t0
  | .vlog2F16 pr w t1 t0 => mkT 0x52 pr (w ++ (12 : BitVec 4)) t1 t0
  | .vtanhF16 pr w t1 t0 => mkT 0x52 pr (w ++ (13 : BitVec 4)) t1 t0
  | .vsinF16 pr w t1 t0 => mkT 0x52 pr (w ++ (14 : BitVec 4)) t1 t0
  | .vcosF16 pr w t1 t0 => mkT 0x52 pr (w ++ (15 : BitVec 4)) t1 t0
  | .vaddI32 pr n t1 t0 => mkT 0x53 pr (n ++ (0 : BitVec 4)) t1 t0
  | .vsubI32 pr n t1 t0 => mkT 0x53 pr (n ++ (1 : BitVec 4)) t1 t0
  | .vmulI32 pr n t1 t0 => mkT 0x53 pr (n ++ (2 : BitVec 4)) t1 t0
  | .vmulhI32 pr n t1 t0 => mkT 0x53 pr (n ++ (3 : BitVec 4)) t1 t0
  | .vminI32 pr n t1 t0 => mkT 0x53 pr (n ++ (4 : BitVec 4)) t1 t0
  | .vmaxI32 pr n t1 t0 => mkT 0x53 pr (n ++ (5 : BitVec 4)) t1 t0
  | .vabsI32 pr t1 t0 => mkT 0x53 pr 6 t1 t0
  | .vnegI32 pr t1 t0 => mkT 0x53 pr 7 t1 t0
  | .vandI32 pr t1 t0 => mkT 0x53 pr 8 t1 t0
  | .vorI32 pr t1 t0 => mkT 0x53 pr 9 t1 t0
  | .vxorI32 pr t1 t0 => mkT 0x53 pr 10 t1 t0
  | .vshlI32 pr n t1 t0 => mkT 0x53 pr (n ++ (11 : BitVec 4)) t1 t0
  | .vshrI32 pr t1 t0 => mkT 0x53 pr 12 t1 t0
  | .vsraI32 pr t1 t0 => mkT 0x53 pr 13 t1 t0
  | .vaddI16 w pr n t1 t0 => mkT ((0x2A : BitVec 6) ++ w) pr (n ++ (0 : BitVec 4)) t1 t0
  | .vsubI16 w pr n t1 t0 => mkT ((0x2A : BitVec 6) ++ w) pr (n ++ (1 : BitVec 4)) t1 t0
  | .vmulI16 w pr n t1 t0 => mkT ((0x2A : BitVec 6) ++ w) pr (n ++ (2 : BitVec 4)) t1 t0
  | .vmulhI16 w pr n t1 t0 => mkT ((0x2A : BitVec 6) ++ w) pr (n ++ (3 : BitVec 4)) t1 t0
  | .vminI16 w pr n t1 t0 => mkT ((0x2A : BitVec 6) ++ w) pr (n ++ (4 : BitVec 4)) t1 t0
  | .vmaxI16 w pr n t1 t0 => mkT ((0x2A : BitVec 6) ++ w) pr (n ++ (5 : BitVec 4)) t1 t0
  | .vabsI16 w pr t1 t0 => mkT ((0x2A : BitVec 6) ++ w) pr 6 t1 t0
  | .vnegI16 w pr t1 t0 => mkT ((0x2A : BitVec 6) ++ w) pr 7 t1 t0
  | .vandI16 w pr t1 t0 => mkT ((0x2A : BitVec 6) ++ w) pr 8 t1 t0
  | .vorI16 w pr t1 t0 => mkT ((0x2A : BitVec 6) ++ w) pr 9 t1 t0
  | .vxorI16 w pr t1 t0 => mkT ((0x2A : BitVec 6) ++ w) pr 10 t1 t0
  | .vshlI16 w pr n t1 t0 => mkT ((0x2A : BitVec 6) ++ w) pr (n ++ (11 : BitVec 4)) t1 t0
  | .vshrI16 w pr t1 t0 => mkT ((0x2A : BitVec 6) ++ w) pr 12 t1 t0
  | .vsraI16 w pr t1 t0 => mkT ((0x2A : BitVec 6) ++ w) pr 13 t1 t0
  | .vfma pr w t1 t0 => mkT 0x56 pr ((0 : BitVec 1) ++ w ++ (0 : BitVec 2)) t1 t0
  | .vfms pr w t1 t0 => mkT 0x56 pr ((0 : BitVec 1) ++ w ++ (1 : BitVec 2)) t1 t0
  | .vnfma pr w t1 t0 => mkT 0x56 pr ((0 : BitVec 1) ++ w ++ (2 : BitVec 2)) t1 t0
  | .vnfms pr w t1 t0 => mkT 0x56 pr ((0 : BitVec 1) ++ w ++ (3 : BitVec 2)) t1 t0
  | .vcmpEq pr w t1 t0 => mkT 0x57 pr (w ++ (0 : BitVec 2)) t1 t0
  | .vcmpNe pr w t1 t0 => mkT 0x57 pr (w ++ (1 : BitVec 2)) t1 t0
  | .vcmpLt pr w t1 t0 => mkT 0x57 pr (w ++ (2 : BitVec 2)) t1 t0
  | .vcmpLe pr w t1 t0 => mkT 0x57 pr (w ++ (3 : BitVec 2)) t1 t0
  | .vcvtF32F64 pr t1 t0 => mkT 0x58 pr 0 t1 t0
  | .vcvtF64F32 pr t1 t0 => mkT 0x58 pr 1 t1 t0
  | .vcvtF16F32 pr t1 t0 => mkT 0x58 pr 2 t1 t0
  | .vcvtF32F16 pr t1 t0 => mkT 0x58 pr 3 t1 t0
  | .vcvtBf16F32 pr t1 t0 => mkT 0x58 pr 4 t1 t0
  | .vcvtF32Bf16 pr t1 t0 => mkT 0x58 pr 5 t1 t0
  | .vcvtE4m3F32 pr t1 t0 => mkT 0x58 pr 6 t1 t0
  | .vcvtE5m2F32 pr t1 t0 => mkT 0x58 pr 7 t1 t0
  | .vcvtE4m3F32Nosat pr t1 t0 => mkT 0x58 pr 8 t1 t0
  | .vcvtE5m2F32Nosat pr t1 t0 => mkT 0x58 pr 9 t1 t0
  | .vcvtF32E4m3 pr t1 t0 => mkT 0x58 pr 10 t1 t0
  | .vcvtF32E5m2 pr t1 t0 => mkT 0x58 pr 11 t1 t0
  | .vcvtI32F32 pr t1 t0 => mkT 0x58 pr 12 t1 t0
  | .vcvtN32F32 pr t1 t0 => mkT 0x58 pr 13 t1 t0
  | .vcvtF32I32 pr t1 t0 => mkT 0x58 pr 14 t1 t0
  | .vcvtF32N32 pr t1 t0 => mkT 0x58 pr 15 t1 t0
  | .vcvtI64F64 pr t1 t0 => mkT 0x58 pr 16 t1 t0
  | .vcvtN64F64 pr t1 t0 => mkT 0x58 pr 17 t1 t0
  | .vcvtF64I64 pr t1 t0 => mkT 0x58 pr 18 t1 t0
  | .vcvtF64N64 pr t1 t0 => mkT 0x58 pr 19 t1 t0
  | .vcvtI16I32 pr t1 t0 => mkT 0x58 pr 20 t1 t0
  | .vcvtI8I32 pr t1 t0 => mkT 0x58 pr 21 t1 t0
  | .vcvtI32I16 pr t1 t0 => mkT 0x58 pr 22 t1 t0
  | .vcvtI32I8 pr t1 t0 => mkT 0x58 pr 23 t1 t0
  | .vshuf pr w t1 t0 => mkT 0x59 pr (w ++ (0 : BitVec 4)) t1 t0
  | .vbcast pr w t1 t0 => mkT 0x59 pr (w ++ (1 : BitVec 4)) t1 t0
  | .vrot pr w t1 t0 => mkT 0x59 pr (w ++ (2 : BitVec 4)) t1 t0
  | .viota pr w t1 t0 => mkT 0x59 pr (w ++ (3 : BitVec 4)) t1 t0
  | .vcomp pr w t1 t0 => mkT 0x59 pr (w ++ (4 : BitVec 4)) t1 t0
  | .vexpand pr w t1 t0 => mkT 0x59 pr (w ++ (5 : BitVec 4)) t1 t0
  | .vzip pr w t1 t0 => mkT 0x59 pr (w ++ (6 : BitVec 4)) t1 t0
  | .vunzip pr w t1 t0 => mkT 0x59 pr (w ++ (7 : BitVec 4)) t1 t0
  | .vnz pr w t1 t0 => mkT 0x59 pr (w ++ (8 : BitVec 4)) t1 t0
  | .vnzi pr w t1 t0 => mkT 0x59 pr (w ++ (9 : BitVec 4)) t1 t0
  | .vins pr w t1 t0 => mkT 0x59 pr (w ++ (10 : BitVec 4)) t1 t0
  | .vext pr w t1 t0 => mkT 0x59 pr (w ++ (11 : BitVec 4)) t1 t0
  | .vredAdd pr w t1 t0 => mkT 0x5A pr (w ++ (0 : BitVec 3)) t1 t0
  | .vredMax pr w t1 t0 => mkT 0x5A pr (w ++ (1 : BitVec 3)) t1 t0
  | .vredMin pr w t1 t0 => mkT 0x5A pr (w ++ (2 : BitVec 3)) t1 t0
  | .vredMaxn pr w t1 t0 => mkT 0x5A pr (w ++ (3 : BitVec 3)) t1 t0
  | .vredMinn pr w t1 t0 => mkT 0x5A pr (w ++ (4 : BitVec 3)) t1 t0
  | .vredAnd pr w t1 t0 => mkT 0x5A pr (w ++ (5 : BitVec 3)) t1 t0
  | .vredOr pr w t1 t0 => mkT 0x5A pr (w ++ (6 : BitVec 3)) t1 t0
  | .vredXor pr w t1 t0 => mkT 0x5A pr (w ++ (7 : BitVec 3)) t1 t0
  | .vsel pr t1 t0 => mkT 0x5B pr 0 t1 t0
  | .vqhdr pr t1 t0 => mkT 0x5C pr 0 t1 t0
  | .vqpk pr t1 t0 => mkT 0x5C pr 1 t1 t0
  | .vdq pr t1 t0 => mkT 0x5C pr 2 t1 t0
  | .vbaq pr t1 t0 => mkT 0x5C pr 3 t1 t0
  | .vbmax pr t1 t0 => mkT 0x5C pr 4 t1 t0
  | .vbfmt pr t1 t0 => mkT 0x5C pr 5 t1 t0
  | .osmStep pr t1 t0 => mkT 0x5D pr 0 t1 t0
  | .osmNorm pr t1 t0 => mkT 0x5D pr 1 t1 t0
  | .ctrNew pr t1 t0 => mkT 0x70 pr 0 t1 t0
  | .ctrDec pr => mkT 0x70 pr 1 noTarget noTarget
  | .ctrBind pr => mkT 0x70 pr 2 noTarget noTarget
  | .ctrSplit pr => mkT 0x70 pr 3 noTarget noTarget
  | .ctrStat pr t1 t0 => mkT 0x70 pr 4 t1 t0
  | .rarm pr => mkT 0x70 pr 5 noTarget noTarget
  | .invoke pr t1 t0 => mkT 0x71 pr 0 t1 t0
  | .invokec pr t1 t0 => mkT 0x71 pr 1 t1 t0
  | .fulfil pr => mkT 0x72 pr 0 noTarget noTarget
  | .brk pr => mkT 0x72 pr 1 noTarget noTarget
  | .wait pr reg => mkW 0x73 pr reg 0 0
  | .waitSt pr reg => mkW 0x73 pr reg 1 0
  | .send pr t1 t0 => mkT 0x74 pr 0 t1 t0
  | .sendw pr reg => mkW 0x75 pr reg 0 0
  | .qnew pr t1 t0 => mkT 0x76 pr 0 t1 t0
  | .qbind pr => mkT 0x76 pr 1 noTarget noTarget
  | .qunbind pr => mkT 0x76 pr 2 noTarget noTarget
  | .spawn pr => mkT 0x77 pr 0 noTarget noTarget
  | .launch pr t1 t0 => mkT 0x78 pr 0 t1 t0
  | .cpy pr => mkT 0x79 pr 0 noTarget noTarget
  | .tile pr => mkT 0x7A pr 0 noTarget noTarget
  | .feedA pr => mkT 0x7B pr 0 noTarget noTarget
  | .feedB pr => mkT 0x7B pr 1 noTarget noTarget
  | .mma pr => mkT 0x7C pr 0 noTarget noTarget
  | .mzero pr => mkT 0x7C pr 1 noTarget noTarget
  | .mstat pr t1 t0 => mkT 0x7C pr 2 t1 t0
  | .trap pr => mkT 0x7D pr 0 noTarget noTarget
  | .isync pr => mkT 0x7D pr 1 noTarget noTarget
  | .sysRd pr t1 t0 => mkT 0x7D pr 2 t1 t0
  | .sysWr pr => mkT 0x7D pr 3 noTarget noTarget
  | .cusTake pr t1 t0 => mkT 0x7D pr 4 t1 t0
  | .cusResume pr => mkT 0x7D pr 5 noTarget noTarget
  | .cusGive pr => mkT 0x7D pr 6 noTarget noTarget
  | .cusBreak pr => mkT 0x7D pr 7 noTarget noTarget
  | .stnMap pr => mkT 0x7D pr 8 noTarget noTarget
  | .stnInv pr => mkT 0x7D pr 9 noTarget noTarget
  | .stnReplay pr => mkT 0x7D pr 10 noTarget noTarget
  | .lodgeNew pr => mkT 0x7D pr 11 noTarget noTarget
  | .lodgeEnd pr => mkT 0x7D pr 12 noTarget noTarget
  | .migrate pr => mkT 0x7D pr 13 noTarget noTarget
  | .shadowSave pr => mkT 0x7D pr 14 noTarget noTarget
  | .shadowLoad pr => mkT 0x7D pr 15 noTarget noTarget
  | .testRun pr => mkT 0x7D pr 16 noTarget noTarget
  | .statSum pr => mkT 0x7D pr 17 noTarget noTarget
  | .engineCancel pr => mkT 0x7D pr 18 noTarget noTarget
  | .blockFetch _ _ => 0
  | .blockAdmission _ _ => 0
  | .blockCommit _ _ => 0
  | .commitWait _ _ => 0
  | .blockStuck _ _ => 0
  | .yieldTimeout _ _ => 0
  | .sleepExpiry _ _ => 0
  | .instructionAged _ _ _ => 0
  | .favouredSlotMove _ _ => 0
  | .portWordArrival _ _ => 0
  | .outboundDepart _ => 0
  | .homePerform _ => 0
  | .responseArrival _ => 0
  | .remoteAnswer _ _ _ => 0
  | .engineUnits _ _ => 0
  | .engineEnd _ _ => 0
  | .engineChunkStop _ _ => 0
  | .leaveGrant _ => 0
  | .matrixCommandAccept _ => 0
  | .blockStep _ => 0
  | .mzeroComplete _ => 0
  | .engineStarved _ => 0
  | .feedFblockEnter _ _ => 0
  | .counterDischarge _ => 0
  | .handlerRetry _ => 0
  | .bindArrival _ => 0
  | .invocationArrival _ => 0
  | .claimFulfilment _ => 0
  | .claimBreak _ => 0
  | .queueMessageArrival _ => 0
  | .sendwResend _ => 0
  | .claimWaiterPoll _ => 0
  | .objectWaiterPoll _ => 0
  | .deskDecision => 0
  | .launchAged _ _ => 0
  | .startArrival _ => 0
  | .arrivalResend _ => 0
  | .ringStart _ => 0
  | .stationRequest _ => 0
  | .walkComplete _ => 0
  | .faultMessageSend _ _ => 0
  | .atsTranslationCompletion _ _ _ _ _ => 0
  | .pageRequestSend _ _ _ => 0
  | .priResponse _ _ _ => 0
  | .atsInvalidationRequest _ _ _ _ => 0
  | .stationInvalidationAnswer _ _ => 0
  | .atomicopCompletion _ _ => 0
  | .completionTimeout _ => 0
  | .inletLaunch _ _ _ => 0
  | .inletWindow _ _ _ => 0
  | .inletPost _ _ _ => 0
  | .inletCredit _ _ _ => 0
  | .inletAgent _ _ _ => 0
  | .inletCall _ _ _ => 0
  | .inletUnknownKind _ _ _ _ => 0
  | .inletRead _ => 0
  | .replyEntryWrite _ _ => 0
  | .flitReceive _ => 0
  | .linkFailure _ => 0
  | .collectiveEntryPass _ _ => 0
  | .drainReduction _ => 0
  | .requestHeld _ => 0
  | .imageSwap _ _ => 0
  | .lotReadback _ _ _ => 0
  | .flushMarker _ _ _ => 0
  | .lodgingWatchdog _ => 0
  | .deviceWatchdog _ => 0
  | .lodgeEndComplete _ => 0
  | .trapRecordWrite _ _ => 0
  | .scrubVisit _ _ _ => 0
  | .unitFailure _ _ => 0
  | .statSumRound _ _ _ => 0
  | .firmwareSwitch _ => 0
  | .firmwareHandover _ _ => 0
  | .reset => 0
  | .spdmRequest _ => 0
  | .sessionBindRequest _ _ _ _ => 0
  | .inletWriteDiscarded _ => 0
  | .testPatternEnd _ _ => 0
  | .migrationResume _ _ => 0
  | .leaveWaitCount _ => 0

end Sys2Proof
end

