-- ==== Sys2Proof/Machine/Shape.lean ====
section
/-! DEFINITION. What the decode checks of R51 and the completion rule of R65 need to know of each row: format, operand
slots, exits, LSIDs, register completions and the modifier fields it honours (R62, R135, R182, R266). -/

namespace Sys2Proof

/-- The formats of R52. -/
inductive Layout where | t | i | r | w | l | s | b | bl | x
deriving DecidableEq, Repr

/-- The format of a row (R98). -/
def Row.fmt : Row → Layout
  | .addi | .addiw | .andi | .ori | .xori | .shli | .shri | .srai | .muli | .teqi | .tnei | .tlti | .tlei 
  | .tltni | .movi | .movif | .caddi => .i
  | .ldI8 | .ldN8 | .ldI16 | .ldN16 | .ldI32 | .ldN32 | .ld64 | .ldv | .ldc | .vgather => .l
  | .st8 | .st16 | .st32 | .st64 | .stv | .stc | .vscatter | .qst => .s
  | .bro | .yield => .b
  | .call => .bl
  | .read | .port => .r
  | .write | .wport | .callc | .qld | .aad | .aswp | .acas | .amin | .amax | .aminn | .amaxn | .aand | .aor 
  | .axor | .wait | .waitSt | .sendw => .w
  | .extWide | .extHint | .extModifier => .x
  | _ => .t

/-- How many of the data slots L, R, X a row has, in that order (R117). -/
def Row.arity : Row → Nat
  | .handoff | .sel | .vscatter | .acas | .vfma | .vfms | .vnfma | .vnfms | .vins | .vsel | .vqpk | .osmStep 
  | .osmNorm | .ctrNew | .ctrBind | .ctrSplit | .invoke | .invokec | .spawn | .cpy | .tile | .mma | .mzero 
  | .cusGive | .cusBreak | .stnMap | .stnInv | .migrate | .shadowSave | .shadowLoad | .testRun => 3
  | .write | .wport | .mov | .brc | .ret | .callc | .sleep | .clz | .ctz | .pop | .sext8 | .sext16 | .sext32 
  | .zext8 | .zext16 | .zext32 | .brev | .bswap | .pnot | .pany | .pall | .pcnt | .pfirst | .addi | .addiw 
  | .andi | .ori | .xori | .shli | .shri | .srai | .muli | .teqi | .tnei | .tlti | .tlei | .tltni | .cgeta 
  | .cgetb | .cgetl | .cgetp | .cgetk | .ctagt | .cclr | .caddi | .ldI8 | .ldN8 | .ldI16 | .ldN16 | .ldI32 
  | .ldN32 | .ld64 | .ldv | .ldc | .qld | .vabs | .vneg | .vsqrt | .vrcp | .vrsq | .vexp2 | .vlog2 | .vtanh 
  | .vsin | .vcos | .vfloor | .vceil | .vrint | .vclass | .vabsF16 | .vnegF16 | .vsqrtF16 | .vrcpF16 | .vrsqF16 
  | .vexp2F16 | .vlog2F16 | .vtanhF16 | .vsinF16 | .vcosF16 | .vabsI32 | .vnegI32 | .vabsI16 | .vnegI16 
  | .vcvtF32F64 | .vcvtF64F32 | .vcvtF16F32 | .vcvtF32F16 | .vcvtBf16F32 | .vcvtF32Bf16 | .vcvtE4m3F32 
  | .vcvtE5m2F32 | .vcvtE4m3F32Nosat | .vcvtE5m2F32Nosat | .vcvtF32E4m3 | .vcvtF32E5m2 | .vcvtI32F32 
  | .vcvtN32F32 | .vcvtF32I32 | .vcvtF32N32 | .vcvtI64F64 | .vcvtN64F64 | .vcvtF64I64 | .vcvtF64N64 | .vcvtI16I32 
  | .vcvtI8I32 | .vcvtI32I16 | .vcvtI32I8 | .vbcast | .viota | .vunzip | .vnz | .vnzi | .vredAdd | .vredMax 
  | .vredMin | .vredMaxn | .vredMinn | .vredAnd | .vredOr | .vredXor | .ctrStat | .wait | .waitSt | .qunbind 
  | .launch | .feedA | .feedB | .mstat | .trap | .sysRd => 1
  | .extWide | .extHint | .extModifier | .read | .port | .null | .bro | .call | .exit | .yield | .movi | .movif 
  | .fenceAcq | .fenceRel | .fenceFull | .isync => 0
  | _ => 2

/-- How many lanes of L, of R and of X a row reads whole; 0 for an operand that it does not (R471). A computed target and CUS.GIVE's
destination are read to lane 3 when they are CAP. -/
def Row.wholes : Row → Nat × Nat × Nat
  | .ctrStat | .fulfil | .wait | .waitSt | .send | .sendw | .qunbind | .launch | .feedA | .feedB | .mstat | .qld | .qst => (4, 0, 0)
  | .ctrDec | .rarm | .brk | .qnew | .aad | .aswp | .amin | .amax | .aminn | .amaxn | .aand | .aor | .axor => (4, 2, 0)
  | .handoff | .ctrNew | .acas => (4, 2, 2)
  | .ctrBind => (4, 4, 2)
  | .invoke | .invokec | .spawn => (4, 0, 2)
  | .qbind | .lodgeNew | .statSum => (4, 4, 0)
  | .cpy | .tile => (4, 4, 4)
  | .mma | .mzero => (4, 2, 4)
  | .brc | .ret | .callc | .sleep | .trap | .sysRd => (2, 0, 0)
  | .sysWr | .cusTake | .cusResume | .stnReplay | .lodgeEnd | .engineCancel => (2, 2, 0)
  | .ctrSplit | .cusGive | .cusBreak | .stnMap | .stnInv => (2, 2, 2)
  | .migrate | .testRun => (2, 2, 4)
  | .shadowSave | .shadowLoad => (2, 4, 4)
  | _ => (0, 0, 0)

/-- The exits of R65. -/
def Row.isExit : Row → Bool
  | .bro | .brc | .ret | .call | .callc | .yield | .exit | .handoff => true
  | _ => false

/-- The rows without a result (R99). -/
def Row.noResult : Row → Bool
  | .brc | .brk | .cpy | .ctrBind | .ctrDec | .ctrSplit | .cusBreak | .cusGive | .cusResume | .engineCancel 
  | .exit | .feedA | .feedB | .fenceAcq | .fenceFull | .fenceRel | .fulfil | .handoff | .isync | .lodgeEnd 
  | .lodgeNew | .migrate | .mma | .mzero | .qbind | .qunbind | .rarm | .ret | .shadowLoad | .shadowSave | .sleep 
  | .spawn | .statSum | .stnInv | .stnMap | .stnReplay | .sysWr | .testRun | .tile | .trap | .write | .wport 
  | .callc | .qld | .aad | .aswp | .acas | .amin | .amax | .aminn | .amaxn | .aand | .aor | .axor | .wait 
  | .waitSt | .sendw | .st8 | .st16 | .st32 | .st64 | .stv | .stc | .vscatter | .qst | .bro | .yield | .call 
  | .extWide | .extHint | .extModifier => true
  | _ => false

/-- Local loads (R146). -/
def Row.isLoad : Row → Bool
  | .ldI8 | .ldN8 | .ldI16 | .ldN16 | .ldI32 | .ldN32 | .ld64 | .ldv | .ldc | .vgather => true
  | _ => false

/-- Store-class instructions (R47). -/
def Row.isStore : Row → Bool
  | .st8 | .st16 | .st32 | .st64 | .stv | .stc | .vscatter => true
  | _ => false

/-- The rows that complete a register of the write mask: WRITE, CALL and the landing effects (R58, R127). -/
def Row.completes : Row → Bool
  | .call | .write | .callc | .qld | .aad | .aswp | .acas | .amin | .amax | .aminn | .amaxn | .aand | .aor 
  | .axor | .wait | .waitSt | .sendw => true
  | _ => false

/-- Landing effects (R58). -/
def Row.isLanding : Row → Bool
  | .callc | .qld | .aad | .aswp | .acas | .amin | .amax | .aminn | .amaxn | .aand | .aor | .axor | .wait 
  | .waitSt | .sendw => true
  | _ => false

/-- Rows that honour the saturate bit (R135, R182). -/
def Row.honoursSat : Row → Bool
  | .add | .sub | .shl | .mul | .div | .addi | .addiw | .muli | .shli | .vaddI32 | .vaddI16 | .vsubI32 | .vsubI16 
  | .vmulI32 | .vmulI16 | .vabsI32 | .vabsI16 | .vnegI32 | .vnegI16 | .vshlI32 | .vshlI16 | .vcvtI16I32 
  | .vcvtI8I32 => true
  | _ => false

/-- Rows that honour the scope field (R266). -/
def Row.honoursScope : Row → Bool
  | .ctrNew | .ctrDec | .fulfil | .brk => true
  | _ => false

/-- Draws a row owns when its effective mode is SR (R169, R183); 0 where it does not honour the rounding field (R182). -/
def Row.draws (r : Row) (w : W32) : Nat :=
  match r with
  | .vadd | .vsub | .vmul | .vdiv | .vsqrt | .vrcp | .vrsq | .vexp2 | .vlog2 | .vtanh | .vsin | .vcos | .vrint => if bitsAt w 25 1 = 0 then 16 else 8
  | .vaddF16 | .vsubF16 | .vmulF16 | .vdivF16 | .vsqrtF16 | .vrcpF16 | .vrsqF16 | .vexp2F16 | .vlog2F16 
  | .vtanhF16 | .vsinF16 | .vcosF16 => 32
  | .vfma | .vfms | .vnfma | .vnfms => if bitsAt w 20 2 = 0 then 16 else if bitsAt w 20 2 = 1 then 8 else 32
  | .vredAdd => if bitsAt w 22 1 = 1 then 0 else if bitsAt w 21 1 = 0 then 16 else 8
  | .vqpk | .vdq => 16
  | .vbaq | .vbfmt => 124
  | .vcvtF64F32 | .vcvtI64F64 | .vcvtN64F64 | .vcvtF64I64 | .vcvtF64N64 => 8
  | .vcvtF32F64 | .vcvtF32F16 | .vcvtF32Bf16 | .vcvtF32E4m3 | .vcvtF32E5m2 | .vcvtI32F32 | .vcvtN32F32 
  | .vcvtF32I32 | .vcvtF32N32 => 16
  | .vcvtF16F32 | .vcvtBf16F32 => 32
  | .vcvtE4m3F32 | .vcvtE5m2F32 | .vcvtE4m3F32Nosat | .vcvtE5m2F32Nosat => 64
  | _ => 0

/-- The class of the keeper's pipe a row uses: 0 scalar, 1 vector, 2 local memory, 3 none (R328). -/
def pipeOf (w : W32) : Nat :=
  let m := (major w).toNat
  if 0x50 ≤ m ∧ m ≤ 0x5D then 1 else if 0x30 ≤ m ∧ m ≤ 0x40 then 2
  else if m ≤ 0x06 ∨ m = 0x26 ∨ m = 0x27 then 3 else 0

/-- The targets a word names, t0 first; none where the format holds none (R53). -/
def targetsOf (r : Row) (w : W32) : List (BitVec 9) :=
  match r.fmt with
  | .t | .r => [t0Of w, t1Of w].filter (· ≠ noTarget)
  | .i | .l => [t0Of w].filter (· ≠ noTarget)
  | _ => []

/-- The predicate mode of a word; the R and X formats have none (R52, R56). -/
def predOf (r : Row) (w : W32) : Nat :=
  match r.fmt with
  | .r | .x => 0
  | _ => (prOf w).toNat

/-- The register a word completes (R51 step 5). -/
def completesReg (r : Row) (w : W32) : Option Nat := if r.completes then some (wReg w).toNat else none

end Sys2Proof
end

