-- ==== Sys2Proof/Machine/Ops.lean ====
section
/-! DEFINITION. The shared operations: reading and writing cores, slots, values and operand slots; queues and starts;
taking a trap into custody and the return from it; firing one instruction. -/

namespace Sys2Proof.Machine

/-- The outcome type of every meaning. -/
abbrev Out := Host.Outcome State Fault Refusal

/-! ## Cores and slots -/

def State.core (s : State) (r : Nat) : Core := mapGet s.cores r
def State.setCore (s : State) (r : Nat) (c : Core) : State := { s with cores := mapSet s.cores r c }
def State.updCore (s : State) (r : Nat) (f : Core → Core) : State := s.setCore r (f (s.core r))
def State.slot (s : State) (r k : Nat) : Slot := mapGet (s.core r).slots k
def State.setSlot (s : State) (r k : Nat) (x : Slot) : State :=
  s.updCore r fun c => { c with slots := mapSet c.slots k x }
def State.updSlot (s : State) (r k : Nat) (f : Slot → Slot) : State := s.setSlot r k (f (s.slot r k))
def State.updBlk (s : State) (r k : Nat) (f : Blk → Blk) : State :=
  s.updSlot r k fun x => { x with blk := f x.blk }
def State.lodging (s : State) (n : Nat) : Lodging := mapGet s.lodgings n
/-- A lodging that is neither gone nor ending (R355, R436). -/
def Lodging.isLive (l : Lodging) : Bool := l.live && l.ending == 0
def State.updLodging (s : State) (n : Nat) (f : Lodging → Lodging) : State :=
  { s with lodgings := mapUpd s.lodgings n f }

/-- Logical core number of a core that has one (R43). -/
def Core.logicalNo (c : Core) : Nat := c.logical - 1

/-- The router of a logical core; none when the number is at or above the count (R43). -/
def State.router (s : State) (lodging logical : Nat) : Option Nat := (s.lodging lodging).map[logical]?

/-- Steward mode (R425). -/
def isSteward (r : Nat) : Bool := 4096 ≤ r && r < 4128
/-- Relay cores (R13, R44). -/
def isRelay (r : Nat) : Bool := 4128 ≤ r && r < 4144
/-- The die of a router (R13, R360). -/
def dieOf (r : Nat) : Nat :=
  if r < 4096 then (r % 128) / 32 + 4 * (r / 128 / 16) else if r < 4128 then (r - 4096) / 4 else (r - 4128) / 2

/-- The number under which a saved logical core stands in requests while it is on no router (R347). -/
def awayRouter (lodging logical : Nat) : Nat := 8192 + 4096 * lodging + logical

/-- Slots a core offers: 8, or the 6 or 4 that the fuses leave it (R11, R465). -/
def State.slotCount (s : State) (r : Nat) : Nat :=
  match mapGet s.fuses.slots r with | 6 => 6 | 4 => 4 | _ => 8

def Core.store (c : Core) : Sto → LStore | .w => c.w | .a => c.a | .c => c.c | .s => c.s
def Core.setStore (c : Core) (k : Sto) (x : LStore) : Core :=
  match k with | .w => { c with w := x } | .a => { c with a := x } | .c => { c with c := x } | .s => { c with s := x }
/-- Sizes of R23. -/
def Sto.size : Sto → Nat | .w => 0x30000 | .a => 0x20000 | .c => 0x20000 | .s => 0x10000
/-- Lot units of R28. -/
def Sto.unit : Sto → Nat | .w => 4096 | .a => 4096 | .c => 8192 | .s => 1024
def Sto.lots : Sto → Nat | .w => 48 | .a => 32 | .c => 16 | .s => 48
/-- Tag bits are kept by A and S (R34). -/
def Sto.tagged : Sto → Bool | .a => true | .s => true | _ => false
/-- The kind of a capability on the store (R37). -/
def Sto.kind : Sto → Nat | .w => 2 | .a => 3 | .c => 4 | .s => 5
def stoOfKind : Nat → Option Sto | 2 => some .w | 3 => some .a | 4 => some .c | 5 => some .s | _ => none

/-- Adds `n` to event counter `e`, which stops at 0xFFFF_FFFF (R178). -/
def bumpEv (m : Map W32) (e n : Nat) : Map W32 :=
  mapUpd m e fun v => BitVec.ofNat 32 (Nat.min (v.toNat + n) 0xFFFFFFFF)
def State.count (s : State) (r e n : Nat) : State := s.updCore r fun c => { c with ev := bumpEv c.ev e n }

/-- An event of a block: it counts on every core that ran the block, the twin's too (R179, R460). -/
def State.countBlock (s : State) (r k e n : Nat) : State :=
  match (s.slot r k).twin with | some (q, _) => (s.count r e n).count q e n | none => s.count r e n

/-- The unit number of a store (R441). -/
def Sto.unitNo : Sto → Nat | .w => 3 | .a => 4 | .c => 5 | .s => 6
def registerFile : Nat := 7
/-- An uncorrectable event of a register file or a local store (R463). -/
def State.noteError (s : State) (r unit : Nat) : State :=
  s.updCore r fun c => { c with errors := mapUpd c.errors unit fun l => (l ++ [s.cycle]).drop (l.length + 1 - 65) }

/-! ## Values (R55) -/

/-- All sixteen lanes. -/
def allLanes : BitVec 16 := 0xFFFF
def Value.lane (v : Value) (i : Nat) : W32 := bitsAt v.bits (32 * i) 32
/-- The scalar of lanes 0 and 1 (R6). -/
def Value.scalar (v : Value) : Word := bitsAt v.bits 0 64
/-- The capability bits of lanes 0 to 3 (R32). -/
def Value.cap (v : Value) : Cap := bitsAt v.bits 0 128
/-- Lanes `0` to `n - 1` are valid. -/
def Value.validTo (v : Value) (n : Nat) : Bool := numAt v.valid 0 n == 2 ^ n - 1
/-- A null token (R55). -/
def nullToken : Value := { bits := 0, valid := 0, tag := .data, null := true }
/-- A scalar result (R55): lanes 2 to 15 zero and valid, lanes 0 and 1 valid or null together. -/
def scalarValue (x : Word) (ok : Bool) (tag : Tag) : Value :=
  { bits := x.zeroExtend 512, valid := if ok then allLanes else 0xFFFC, tag := tag, null := false }
/-- A DATA scalar with every lane valid. -/
def dataScalar (x : Word) : Value := scalarValue x true .data
/-- A capability value (R32). -/
def capValue (c : Cap) : Value := { bits := c.zeroExtend 512, valid := allLanes, tag := .cap, null := false }
/-- 512 bits of DATA. -/
def dataValue (b : V512) : Value := { bits := b, valid := allLanes, tag := .data, null := false }
/-- BROKEN when any operand is BROKEN, DATA otherwise (R33). -/
def brokenOf (vs : List Value) : Tag := if vs.any (·.tag == .broken) then .broken else .data
/-- The 512 bits whose lane `i` is `f i`. -/
def ofLanes (f : Nat → W32) : V512 :=
  BitVec.ofNat 512 ((List.range 16).foldr (fun i n => (f i).toNat + 2 ^ 32 * n) 0)
/-- The 16-bit mask whose bit `i` is `f i`. -/
def maskOf (f : Nat → Bool) : BitVec 16 :=
  BitVec.ofNat 16 ((List.range 16).foldr (fun i n => bit1 (f i) + 2 * n) 0)
/-- Null lanes replaced by zero bytes (R14, R123, R283). -/
def Value.zeroed (v : Value) : V512 := ofLanes fun i => if bitAt v.valid i then v.lane i else 0

/-! ## Capabilities (R37 to R39) -/

def capKind (c : Cap) : Nat := numAt c 124 4
def capAddr (c : Cap) : Word := bitsAt c 0 64
def capSpace (c : Cap) : Nat := numAt c 96 16
def capE (c : Cap) : Nat := numAt c 90 6
def capB (c : Cap) : Nat := numAt c 77 13
def capL (c : Cap) : Nat := numAt c 64 13
/-- Permission bit by its number in the capability (R37). -/
def capHas (c : Cap) (bit : Nat) : Bool := bitAt c bit
def pLoad := 123
def pStore := 122
def pLoadCap := 121
def pStoreCap := 120
def pExec := 119
def pInvoke := 118
def pSend := 117
def pWait := 116
def pSignal := 115
def pEngine := 114
def pGlobal := 113
def pSeal := 112
/-- The region start Rg (R39). -/
def capRegion (c : Cap) : Nat := (capAddr c).toNat / 2 ^ (capE c + 13) * 2 ^ (capE c + 13)
def capBase (c : Cap) : Nat := capRegion c + capB c * 2 ^ capE c
def capLimit (c : Cap) : Nat := capBase c + capL c * 2 ^ capE c
/-- `[a, a + n)` lies within the bounds (R39). -/
def capInBounds (c : Cap) (a n : Nat) : Bool := capBase c ≤ a && a + n ≤ capLimit c
/-- A capability from its fields (R37): kind, permissions [123:112], space, E, B, L, address. -/
def mkCap (kind perms space e b l : Nat) (a : Word) : Cap :=
  BitVec.ofNat 128 ((((((kind % 16 * 2 ^ 12 + perms % 2 ^ 12) * 2 ^ 16 + space % 2 ^ 16) * 64 + e % 64) * 2 ^ 13
    + b % 2 ^ 13) * 2 ^ 13 + l % 2 ^ 13) * 2 ^ 64 + a.toNat)
def capWithAddr (c : Cap) (a : Word) : Cap := setBits c 0 64 a.toNat
/-- The smallest E whose rounded bounds are representable, with the rounded bounds (R40, R144). -/
def findBounds (lo hi : Nat) : Nat → Nat → Option (Nat × Nat × Nat)
  | 0, _ => none
  | fuel + 1, e =>
    let u := 2 ^ e
    let lo' := lo / u * u
    let hi' := (hi + u - 1) / u * u
    let rg := lo' / 2 ^ (e + 13) * 2 ^ (e + 13)
    if (hi' - lo') / u ≤ 0x1FFF ∧ hi' ≤ rg + 2 ^ (e + 13) then some (e, lo', hi') else findBounds lo hi fuel (e + 1)
/-- A capability with bounds exactly `[lo, hi)` where they are representable, address `lo` (R40). -/
def boundedCap (kind perms space lo hi : Nat) : Option Cap :=
  match findBounds lo hi 52 0 with
  | some (e, lo', hi') =>
    if lo' = lo ∧ hi' = hi then
      let rg := lo / 2 ^ (e + 13) * 2 ^ (e + 13)
      some (mkCap kind perms space e ((lo - rg) / 2 ^ e) ((hi - lo) / 2 ^ e) (BitVec.ofNat 64 lo))
    else none
  | none => none
/-- A local-store address (R23). -/
def localAddr (logical off : Nat) : Word := BitVec.ofNat 64 (logical * 2 ^ 52 + off)
def addrCore (a : Word) : Nat := numAt a 52 12
def addrOff (a : Word) : Nat := numAt a 0 52
/-- The lot capability of a run (R29); DATA zero when the run is empty (R16). -/
def lotReg (logical : Nat) (k : Sto) (r : Run) : Reg :=
  if r.count = 0 then default
  else
    let lo := logical * 2 ^ 52 + r.start * k.unit
    let perms := match k with | .w | .c => 0xC04 | .a => 0xF04 | .s => 0xF04
    match boundedCap k.kind perms 0 lo (lo + r.count * k.unit) with
    | some c => { (default : Reg) with bits := c.zeroExtend 512, tag := .cap }
    | none => default

/-! ## Registers -/

/-- The value READ delivers: all lanes valid, with the register's tag (R120). -/
def Reg.value (g : Reg) : Value := { bits := g.bits, valid := allLanes, tag := g.tag, null := false }
/-- A full register holding a value's bits and tag. -/
def regOf (bits : V512) (tag : Tag) : Reg := { (default : Reg) with bits := bits, tag := tag }
/-- WRITE into a register (R122): the lanes that it leaves keep their bits, and their errors (R452). -/
def writeReg (old : Reg) (v : Value) : Reg :=
  if v.null then old
  else if v.tag == .cap then regOf (v.cap.zeroExtend 512) .cap
  else
    let b := ofLanes fun i => if bitAt v.valid i then v.lane i else bitsAt old.bits (32 * i) 32
    let all := v.valid == allLanes
    { regOf b (if v.tag == .broken || (!all && old.tag == .broken) then .broken else .data) with
      poison := old.poison &&& ~~~ v.valid, corr := old.corr &&& ~~~ v.valid }

/-! ## The held set (R238 to R240) -/

def ObSet.heldMask (o : ObSet) : Nat := (List.range 16).foldr (fun i n => bit1 (mapGet o.ents i).held + 2 * n) 0
def ObSet.rankMin (o : ObSet) : Nat :=
  (List.range 16).foldl (fun m i => if (mapGet o.ents i).held then Nat.min m (mapGet o.ents i).rank else m) 0x10000
def ObSet.free (o : ObSet) : Option Nat := (List.range 16).find? fun i => !(mapGet o.ents i).held
def ObSet.size (o : ObSet) : Nat := ((List.range 16).filter fun i => (mapGet o.ents i).held).length
/-- The entry as SYS.RD lays it out (R239). -/
def obWord (custodial : Bool) (e : Ob) : BitVec 128 :=
  if e.held then
    BitVec.ofNat 128 (e.object.toNat * 2 ^ 64 + 2 ^ 63 + bit1 custodial * 2 ^ 62 + (if e.isCount then 2 else 1) * 2 ^ 60
      + e.rank % 2 ^ 16 * 2 ^ 32 + e.mult % 2 ^ 32)
  else 0
/-- Takes a new or received entry: a COUNT merges, another takes the lowest free index (R238). None: OBLIG_FULL. -/
def ObSet.receive (o : ObSet) (e : Ob) (merge : Bool) : Option ObSet :=
  match if merge && e.isCount then
      (List.range 16).find? fun i => (mapGet o.ents i).held && (mapGet o.ents i).isCount && (mapGet o.ents i).object == e.object
    else none with
  | some i =>
    let m := (mapGet o.ents i).mult + e.mult
    if m < 2 ^ 32 then some { o with ents := mapUpd o.ents i fun x => { x with mult := m } } else none
  | none =>
    match o.free with
    | some i => some { o with ents := mapSet o.ents i e }
    | none => none
def ObSet.receiveAll (o : ObSet) : List Ob → Option ObSet
  | [] => some o
  | e :: es => match o.receive e true with | some o' => o'.receiveAll es | none => none
/-- The entries of a give mask, in increasing index; none when one is not held (R250). -/
def ObSet.pick (o : ObSet) (mask : Nat) : Option (List Ob) :=
  let ix := (List.range 16).filter fun i => mask / 2 ^ i % 2 == 1
  if ix.all fun i => (mapGet o.ents i).held then some (ix.map fun i => mapGet o.ents i) else none
def ObSet.drop (o : ObSet) (mask : Nat) : ObSet :=
  { o with ents := o.ents.filter fun e => mask / 2 ^ e.1 % 2 == 0 }
/-- The COUNT entry on a counter, and the CLAIM entry of a claim. -/
def ObSet.find (o : ObSet) (isCount : Bool) (object : Word) : Option Nat :=
  (List.range 16).find? fun i =>
    (mapGet o.ents i).held && (mapGet o.ents i).isCount == isCount && (mapGet o.ents i).object == object
/-- The object of the first of some entries that a set cannot take (R238, R296); none when it takes them all. -/
def ObSet.overflow (o : ObSet) : List Ob → Option Word
  | [] => none
  | e :: es => match o.receive e true with | some o' => o'.overflow es | none => some e.object
/-- The lowest COUNT entry on a counter that owes at least `n` units (R252, R273). -/
def ObSet.findUnits (o : ObSet) (object : Word) (n : Nat) : Option Nat :=
  (List.range 16).find? fun i =>
    (mapGet o.ents i).held && (mapGet o.ents i).isCount && (mapGet o.ents i).object == object && n ≤ (mapGet o.ents i).mult
/-- Takes `n` units off a COUNT entry, which is freed at 0 (R252). -/
def ObSet.spend (o : ObSet) (i n : Nat) : ObSet :=
  { o with ents := mapUpd o.ents i fun e => if e.mult ≤ n then default else { e with mult := e.mult - n } }

/-! ## Requests -/

/-- Puts a new request at the end of the order of commits (R359). -/
def State.issue (s : State) (act : ActId) (lodging : Nat) (launch : W32) (block : Word) (idx : Nat) (e : Eff) (st : Stage) : State :=
  { s with reqs := s.reqs ++ [{ id := s.nextReq, act := act, lodging := lodging, launch := launch, block := block, idx := idx,
                                eff := e, stage := st, since := s.cycle, held := false, failed := 0, via := 0, die := dieOf act.core, order := s.nextReq }],
           nextReq := s.nextReq + 1 }
def State.req (s : State) (id : Nat) : Option Req := s.reqs.find? (·.id == id)
def State.updReq (s : State) (id : Nat) (f : Req → Req) : State :=
  { s with reqs := s.reqs.map fun r => if r.id == id then f r else r }
def State.setStage (s : State) (id : Nat) (st : Stage) : State := s.updReq id fun r => { r with stage := st }
/-- The home answers a request (R359). -/
def State.answer (s : State) (id : Nat) (r : Resp) : State := s.setStage id (.done r)
def State.dropReq (s : State) (id : Nat) : State := { s with reqs := s.reqs.filter (·.id != id) }
def Stage.isDone : Stage → Bool | .done _ => true | _ => false
/-- The device acts on its own behalf. -/
def deviceAct (core : Nat) : ActId := { core := core, slot := 99, gen := 0 }

/-! ## The local stores -/

/-- Writes bytes into a store at a commit, by a request or by an engine; every granule written is untagged, and a word
covered whole is no longer poisoned (R34, R452). -/
def LStore.write (l : LStore) (a : Nat) (bs : List (Option Byte)) : LStore :=
  let ks := (List.range bs.length).filter fun i => (bs[i]?.getD none).isSome
  let whole := fun w => (List.range 8).all fun j => a ≤ 8 * w + j && ks.contains (8 * w + j - a)
  { l with bytes := writeMasked l.bytes a bs,
           tags := l.tags.filter fun g => !(ks.any fun i => (a + i) / 16 == g.1),
           poison := l.poison.filter fun w => !whole w.1,
           corr := l.corr.filter fun w => !whole w.1 }
def LStore.put (l : LStore) (a : Nat) (bs : List Byte) : LStore := l.write a (bs.map some)
def LStore.setTag (l : LStore) (g : Nat) (b : Bool) : LStore := { l with tags := mapSet l.tags g b }
/-- An uncorrectable word lies in `[a, a + n)` (R452). -/
def LStore.bad (l : LStore) (a n : Nat) : Bool := l.poison.any fun w => w.1 * 8 < a + n && a < w.1 * 8 + 8
/-- Scrubs `[lo, hi)` to zero (R30). -/
def LStore.scrub (l : LStore) (lo hi : Nat) : LStore :=
  { l with bytes := mapClear l.bytes lo hi, tags := mapClear l.tags (lo / 16) ((hi + 15) / 16),
           poison := mapClear l.poison (lo / 8) (hi / 8), corr := mapClear l.corr (lo / 8) (hi / 8) }
/-- The part of a store that lies in the units for which `f` holds; what is above the lots counts as further units. -/
def LStore.part (l : LStore) (k : Sto) (f : Nat → Bool) : LStore :=
  { (default : LStore) with
    bytes := l.bytes.filter (fun e => f (e.1 / k.unit)), tags := l.tags.filter (fun e => f (16 * e.1 / k.unit)),
    poison := l.poison.filter (fun e => f (8 * e.1 / k.unit)), corr := l.corr.filter (fun e => f (8 * e.1 / k.unit)) }
/-- The entries of a second map put into a first. -/
def mapJoin {α : Type} [Inhabited α] [DecidableEq α] (m n : Map α) : Map α := n.foldl (fun m e => mapSet m e.1 e.2) m
/-- A store with what a part of another holds. -/
def LStore.join (l p : LStore) : LStore :=
  { l with bytes := mapJoin l.bytes p.bytes, tags := mapJoin l.tags p.tags, poison := mapJoin l.poison p.poison, corr := mapJoin l.corr p.corr }
/-- A unit of a switched-out lodging lies here (R345). -/
def LStore.isGuest (l : LStore) (u : Nat) : Bool := (mapGet l.guest u).1 != 0
/-- What a store keeps when its core changes hands: the units of switched-out lodgings (R345). -/
def LStore.guestPart (l : LStore) (k : Sto) : LStore := { l.part k l.isGuest with guest := l.guest }
/-- Bytes `[a, a + n)` meet a unit that has not been read back since its lodging was loaded (R346). -/
def LStore.isAway (l : LStore) (k : Sto) (a n : Nat) : Bool := l.saved.any fun e => e.1 * k.unit < a + n && a < (e.1 + 1) * k.unit
def State.lotAway (s : State) (r : Nat) (k : Sto) (a n : Nat) : Bool := ((s.core r).store k).isAway k a n
def State.sByte (s : State) (r off n : Nat) : Nat := numBytes (s.core r).s.bytes off n
/-- A slot's run in a store (R29). -/
def Slot.run (x : Slot) : Sto → Run | .w => x.wRun | .a => x.aRun | .c => x.cRun | .s => x.sRun
def Slot.setRun (x : Slot) (k : Sto) (q : Run) : Slot :=
  match k with | .w => { x with wRun := q } | .a => { x with aRun := q } | .c => { x with cRun := q } | .s => { x with sRun := q }
/-- The receipt offset of a command that reports to none (R458). -/
def noReceipt : Nat := 2 ^ 16
/-- Where a twin keeps the bytes of its primary's runs (R460). -/
def twinShift (x y : Slot) (k : Sto) (off : Nat) : Nat :=
  let a := x.run k
  if a.start * k.unit ≤ off ∧ off < (a.start + a.count) * k.unit then off - a.start * k.unit + (y.run k).start * k.unit else off
/-- Where twins keep bytes `[off, off + n)` of their primaries' runs: the store port mirrors what reaches it (R460). -/
def State.twinsOf (s : State) (r : Nat) (k : Sto) (off n : Nat) : List (Nat × Nat) :=
  (s.core r).slots.filterMap fun e => match e.2.twin with
    | some (q, j) =>
      let a := e.2.run k
      if a.start * k.unit ≤ off ∧ off + n ≤ (a.start + a.count) * k.unit then some (q, twinShift e.2 (s.slot q j) k off) else none
    | none => none
/-- Bytes reach the S stores of some cores, each at an offset there; `tag`: the first granule holds a capability. -/
def putAll (cs : Map Core) (ws : List (Nat × Nat)) (bs : List Byte) (tag : Bool) : Map Core :=
  ws.foldl (fun m e => mapUpd m e.1 fun c => { c with s := let l := c.s.put e.2 bs; if tag then l.setTag (e.2 / 16) true else l }) cs
/-- The device writes bytes into an S store: the granules lose their tag, but for that of a capability (R34), the words that are covered their
errors (R452), and the store port mirrors the write to the twins on other cores (R460). -/
def State.storeS (s : State) (r off : Nat) (bs : List Byte) (tag : Bool := false) : State :=
  { s with cores := putAll s.cores ((r, off) :: (s.twinsOf r .s off bs.length).filter fun e => e.1 != r) bs tag }
/-- A number of `n` bytes, as `storeS` writes it (R4). -/
def State.putS (s : State) (r off n v : Nat) : State := s.storeS r off (bytesOf n (BitVec.ofNat (8 * n) v))
/-- Words of a local store read with a corrected error are written back; event 9 counts each (R450). -/
def State.repairStore (s : State) (r : Nat) (k : Sto) (a n : Nat) : State :=
  let ws := ((s.core r).store k).corr.filter fun w => w.1 * 8 < a + n && a < w.1 * 8 + 8
  if ws.isEmpty then s
  else (s.updCore r fun c => let l := c.store k; c.setStore k { l with corr := l.corr.filter fun w => !ws.contains w }).count r 9 ws.length

/-! ## Queues (R262, R283 to R285) -/

def qRank (h : Nat) : Nat := h / 2 ^ 48 % 2 ^ 16
def qLog (h : Nat) : Nat := h / 2 ^ 44 % 16
def qBound (h : Nat) : Bool := h / 2 ^ 39 % 2 == 1
def qHead (h : Nat) : Nat := h / 2 ^ 16 % 256
def qCount (h : Nat) : Nat := h % 512
/-- Zero fields that are not zero make every queue instruction fault SHAPE (R262). -/
def qBad (h : Nat) : Bool :=
  h / 2 ^ 40 % 16 != 0 || h / 2 ^ 24 % 2 ^ 15 != 0 || h / 2 ^ 9 % 2 ^ 7 != 0 || qLog h < 3 || 8 < qLog h || 2 ^ qLog h < qCount h
def qWord (rank log : Nat) (bound : Bool) (head count : Nat) : Nat :=
  rank % 2 ^ 16 * 2 ^ 48 + log * 2 ^ 44 + bit1 bound * 2 ^ 39 + head % 256 * 2 ^ 16 + count
/-- The ring of a queue: after the header, or the inbox ring (R26, R262). -/
def qRing (off : Nat) : Nat := if off = 0xF000 then 0xC000 else off + 64
def inboxOff : Nat := 0xF000
/-- The inbox header: capacity 64, rank 1, never bound (R262). -/
def inboxWord : Nat := qWord 1 6 false 0 0
/-- A place for one more message (R283). -/
def State.qFree (s : State) (r off : Nat) : Bool :=
  let h := s.sByte r off 8
  !qBad h && qCount h + mapGet (s.core r).places off < 2 ^ qLog h
/-- The oldest entry: its bytes and tag (R286). -/
def Core.qEntry (c : Core) (off i : Nat) : V512 × Bool :=
  let a := qRing off + 64 * i
  (wordOfBytes 512 (bytesAt c.s.bytes a 64), mapGet c.s.tags (a / 16))
/-- Appends a message; answers the ring index taken. -/
def State.qPush (s : State) (r off : Nat) (m : Msg) : State × Nat :=
  let h := s.sByte r off 8
  let i := (qHead h + qCount h) % 2 ^ qLog h
  let a := qRing off + 64 * i
  let s := (s.storeS r a (bytesOf 64 m.data) m.cap).updCore r fun c =>
    { c with senders := mapSet c.senders a (m.core, m.lodging), stamps := mapSet c.stamps a (s.nextReq, s.cycle) }
  let s : State := { s with nextReq := s.nextReq + 1 }
  (s.putS r off 8 (qWord (qRank h) (qLog h) (qBound h) (qHead h) (qCount h + 1)), i)
/-- Pops the oldest entry. -/
def State.qPop (s : State) (r off : Nat) : State :=
  let h := s.sByte r off 8
  s.putS r off 8 (qWord (qRank h) (qLog h) (qBound h) ((qHead h + 1) % 2 ^ qLog h) (qCount h - 1))
/-- A queue entry as it lands (R286). -/
def entryValue (e : V512 × Bool) : Value :=
  if e.2 then { bits := (e.1.truncate 128).zeroExtend 512, valid := allLanes, tag := .cap, null := false } else dataValue e.1

/-! ## Starts (R14, R324 to R327) -/

/-- 64-byte units of the start area a start takes (R325): the argument, the start information with the given entries, and every register
that a launch or a spawn copies (R15, R270). -/
def Start.units (st : Start) : Nat := 2 + if st.kind ≤ 1 then numAt st.desc 112 16 else 0
/-- A free place and free units on the ring (R324, R325). -/
def Core.ringFree (c : Core) (units : Nat) : Bool :=
  c.ring.length < 256 && c.ring.foldl (fun n x => n + x.units) 0 + units ≤ 512
/-- The lowest free ring place, and the lowest free run of units, else the lowest free unit (DESIGN CHOICE, log 62). -/
def Core.freePlace (c : Core) : Nat := ((List.range 256).find? fun p => !(c.ring.any fun e => e.place == p)).getD 0
def Core.freeUnits (c : Core) (n : Nat) : Nat :=
  let free := fun (u n : Nat) => !(c.ring.any fun e => e.unit < u + n && u < e.unit + e.units)
  ((List.range (513 - n)).find? fun u => free u n).getD (((List.range 512).find? fun u => free u 1).getD 0)
/-- The 16 bytes of a ring entry (R324). -/
def Start.ringEntry (st : Start) : BitVec 128 :=
  BitVec.ofNat 128 ((capAddr st.entry).toNat * 2 ^ 64 + st.kind % 8 * 2 ^ 61 + numAt st.desc 96 2 * 2 ^ 59 + st.unit % 512 * 2 ^ 47 + st.seq % 2 ^ 32)
def ringOff : Nat := 0xD000
/-- A start takes a place on the ring, in arrival order (R324). -/
def Core.putRing (c : Core) (st : Start) : Core :=
  let st := { st with seq := c.nextSeq, place := c.freePlace, unit := c.freeUnits st.units }
  { c with ring := c.ring ++ [st], nextSeq := (c.nextSeq + 1) % 2 ^ 32, s := c.s.put (ringOff + 16 * st.place) (bytesOf 16 st.ringEntry) }
/-- A start leaves the ring: its place and its units are free (R326). -/
def Core.takeRing (c : Core) (i : Nat) : Core :=
  match c.ring[i]? with
  | some st => { c with ring := c.ring.eraseIdx i, s := c.s.put (ringOff + 16 * st.place) (List.replicate 16 0) }
  | none => c
/-- The ring is emptied (R355). -/
def Core.clearRing (c : Core) : Core := { c with ring := [], s := c.s.scrub ringOff (ringOff + 4096) }
/-- Lots a descriptor asks for (R20). -/
def descLots (d : BitVec 128) : Sto → Nat
  | .w => numAt d 64 8 | .a => numAt d 72 8 | .c => numAt d 80 8 | .s => numAt d 88 8
def descClass (d : BitVec 128) : Nat := numAt d 96 8
def descFlags (d : BitVec 128) : Nat := numAt d 104 8
def descCopies (d : BitVec 128) : Nat := numAt d 112 16
def descBlock (d : BitVec 128) : Word := bitsAt d 0 64
/-- The checks of R21 on the 32 bytes of a descriptor. -/
def descOk (d : BitVec 256) (handler : Bool) : Bool :=
  let lo : BitVec 128 := d.truncate 128
  numAt d 128 128 == 0 && descCopies lo ≤ 57 && descFlags lo < 8 && (descFlags lo / 4 == 1) == handler && descClass lo ≤ 3
    && descLots lo .s ≤ 48 && descLots lo .c ≤ 16 && descLots lo .a ≤ 32 && descLots lo .w ≤ 48
    && (descBlock lo).toNat % 64 == 0
/-- A run of `n` free lot units at the lowest offset (R29); an empty run when `n` is 0. -/
def LStore.findRun (l : LStore) (lots n : Nat) (freed : Nat → Bool) : Option Run :=
  if n = 0 then some { start := 0, count := 0 }
  else ((List.range (lots + 1 - n)).find? fun i =>
      (List.range n).all fun j => mapGet l.lots (i + j) == 0 || freed (i + j)).map fun i => { start := i, count := n }
def Core.freeSlot (c : Core) (s : State) (r : Nat) : Option Nat :=
  (List.range (s.slotCount r)).find? fun k => !(mapGet c.slots k).live
/-- A run's units. -/
def Run.has (q : Run) (u : Nat) : Bool := q.start ≤ u && u < q.start + q.count
/-- The plan of R233 for one store: `inh` is what is kept, `freed` the units the move gives up. -/
def LStore.plan (l : LStore) (lots n : Nat) (inh : Run) (freed : Nat → Bool) : Option Run :=
  if inh.count = 0 then l.findRun lots n freed
  else if n ≤ inh.count then some { start := inh.start, count := n }
  else if inh.start + n ≤ lots ∧ (List.range (n - inh.count)).all (fun i =>
      let u := inh.start + inh.count + i
      mapGet l.lots u == 0 || freed u) then some { start := inh.start, count := n }
  else none
/-- The runs a start receives now, in W, A, C and S (R29, R312): none while some lots are not free. DESIGN CHOICE (log 70): a start whose inherited S run
can never grow to the descriptor's count waits at the ring's head for good. -/
def State.startRuns (s : State) (r : Nat) (st : Start) : Option (List (Sto × Run)) :=
  let one := fun (k : Sto) => ((s.core r).store k).plan k.lots (descLots st.desc k) (if k == .s then st.run.getD default else default) fun _ => false
  match one .w, one .a, one .c, one .s with
  | some w, some a, some c, some q => some [(.w, w), (.a, a), (.c, c), (.s, q)]
  | _, _, _, _ => none
/-- The redundant flag of a descriptor (R20). -/
def descRedundant (d : BitVec 128) : Bool := descFlags d % 2 == 1
/-- The core on which a redundant activity's twin runs (R459). -/
def State.partner (s : State) (r : Nat) : Nat :=
  let c := (s.core r).logicalNo
  let m := (s.lodging (s.core r).lodging).map
  (m[if (c ^^^ 1) < m.length then c ^^^ 1 else 0]?).getD r
/-- Whether a start could begin at once: a slot and all its lots free together, on both cores, of which none has failed, when it is redundant (R12,
R459, R463). -/
def State.canStart (s : State) (r : Nat) (st : Start) : Bool :=
  let on := fun (q : Nat) (st : Start) => ((s.core q).freeSlot s q).isSome && (s.startRuns q st).isSome
  on r st && (!descRedundant st.desc || (!(s.core (s.partner r)).off && on (s.partner r) { st with run := none }))
/-- Puts a start on its core's ring (R324); event 13 counts one that cannot start at once (R12): behind others, for want of a slot or lots,
on a halted core, or behind the resume list (R353). -/
def State.toRing (s : State) (r : Nat) (st : Start) : State :=
  let c := s.core r
  let waits := c.ring.any (fun e => descClass e.desc ≤ descClass st.desc) || !s.canStart r st || c.gated || c.off || !c.resume.isEmpty
  let s := s.updCore r fun c => c.putRing st
  if waits then s.count r 13 1 else s
/-- The lodging whose trap or fault queue this is (R303). DESIGN CHOICE (log 70): the first listed where several lodgings have it. -/
def State.serves (s : State) (r off : Nat) : Nat :=
  if isSteward r then
    let a := localAddr (s.core r).logicalNo off
    match s.lodgings.find? fun e => capAddr e.2.trapQueue == a && capKind e.2.trapQueue == 6 ||
        (capAddr e.2.faultQueue == a && capKind e.2.faultQueue == 6) with
    | some e => e.1
    | none => 0
  else 0
/-- The handler start of a bound queue's entry (R14, R19, R285). -/
def State.handlerStart (s : State) (r off : Nat) (b : Binding) (e : V512 × Bool) (sender : Nat × Nat) : Start :=
  { (default : Start) with
    kind := 3, lodging := b.lodging, entry := b.entry, desc := b.desc, g0 := e.1, g0cap := e.2, launch := b.launch,
    rect := b.rect, sender := sender.1, senderLodging := sender.2, serve := s.serves r off, image := s.imageVersion }
/-- A counter that has fired and whose run is free, by its binding (R312, R327). -/
def Binding.retries (b : Binding) : Bool := b.order != 0 && !(b.run.isSome && !b.ended)
/-- What waits for a ring place on a core, by S offset, with its place in the order in which counters reached zero and entries arrived, and
whether it is a queue (R327). -/
def State.retries (s : State) (r : Nat) : List (Nat × Nat × Bool) :=
  (s.core r).binds.filterMap fun e =>
    if e.2.retries then some (e.2.order, e.1, false)
    else
      let h := s.sByte r e.1 8
      if e.2.bound && qBound h && 0 < qCount h && !qBad h then some ((mapGet (s.core r).stamps (qRing e.1 + 64 * qHead h)).1, e.1, true) else none
/-- The retry that comes first. -/
def State.firstRetry (s : State) (r : Nat) : Option (Nat × Nat × Bool) :=
  (s.retries r).foldl (fun m e => match m with | none => some e | some f => if e.1 < f.1 then some e else some f) none
/-- Something else that waits for a ring place comes before order number `n`. -/
def State.retriedBefore (s : State) (r off n : Nat) : Bool := (s.retries r).any fun e => e.2.1 != off && e.1 < n
/-- Starts handlers for the entries of a bound queue while the ring has room and no older retry waits for it (R285, R327). DESIGN CHOICE (log 70): this pop
admits no waiting SENDW, since R284 names only WAIT's. -/
def State.runHandlers (s : State) (r off : Nat) : Nat → State
  | 0 => s
  | fuel + 1 =>
    let h := s.sByte r off 8
    let b := mapGet (s.core r).binds off
    let a := qRing off + 64 * qHead h
    if qBound h && b.bound && 0 < qCount h && (s.core r).ringFree 2 && !s.retriedBefore r off (mapGet (s.core r).stamps a).1 then
      let st := s.handlerStart r off b ((s.core r).qEntry off (qHead h)) (mapGet (s.core r).senders a)
      ((s.qPop r off).toRing r st).runHandlers r off fuel
    else s
/-- The message of a SENDW, of this device or of a peer (R284, R416). -/
def Req.sendw (q : Req) : Option Msg :=
  match q.eff with
  | .message _ m _ => some m
  | .peer _ core (.message _ _ cap logical _ _ _ d) => some { data := d, cap := cap, core := core, lodging := q.lodging, toCore := logical }
  | _ => none
/-- Admits waiting SENDWs into freed places (R284). -/
def State.admitSendw (s : State) (r off : Nat) : Nat → State
  | 0 => s
  | fuel + 1 =>
    match mapGet (s.core r).sendws off with
    | [] => s
    | q :: qs =>
      if s.qFree r off then
        let s := s.updCore r fun c => { c with sendws := mapSet c.sendws off qs }
        match (s.req q).bind Req.sendw with
        | some m =>
          let p := s.qPush r off m
          (p.1.answer q (.val (dataScalar (BitVec.ofNat 64 p.2)) (qRank (s.sByte r off 8)))).admitSendw r off fuel
        | none => s.admitSendw r off fuel
      else s
/-- Gives entries to the oldest recorded waiters of a queue (R229, R263), then to handlers. -/
def State.serveQueue (s : State) (r off : Nat) : Nat → State
  | 0 => s
  | fuel + 1 =>
    let h := s.sByte r off 8
    match mapGet (s.core r).waiters off with
    | q :: qs =>
      if 0 < qCount h && !qBound h then
        let v := match s.req q with
          | some { eff := .waitObj _ true _ _, .. } => dataScalar (BitVec.ofNat 64 (qCount h))
          | _ => entryValue ((s.core r).qEntry off (qHead h))
        let isSt := match s.req q with | some { eff := .waitObj _ b _ _, .. } => b | _ => false
        let s := s.updCore r fun c => { c with waiters := mapSet c.waiters off qs }
        let s := s.answer q (.val v (qRank h))
        let s := if isSt then s else (s.qPop r off).admitSendw r off 1
        s.serveQueue r off fuel
      else s.runHandlers r off 256
    | [] => s.runHandlers r off 256
/-- Writes a message into a queue and lets it be taken (R283). -/
def State.deliver (s : State) (r off : Nat) (m : Msg) : State := ((s.qPush r off m).1).serveQueue r off 64
/-- Writes a message if the queue has a place; none otherwise. -/
def State.tryDeliver (s : State) (r off : Nat) (m : Msg) : Option State :=
  if s.qFree r off then some (s.deliver r off m) else none

/-! ## Traps and custody (R72, R295 to R300) -/

/-- A fault: its code of R296 and bytes 32 to 47 of the record. -/
structure Trap where
  code : Nat
  lo : Word
  hi : Word
deriving DecidableEq, Repr, Inhabited

def trap (code : Nat) : Trap := { code := code, lo := 0, hi := 0 }
/-- A fault whose bytes 32 to 47 hold a capability operand (R296). -/
def trapCap (code : Nat) (c : Cap) : Trap := { code := code, lo := bitsAt c 0 64, hi := bitsAt c 64 64 }
def tIllegal := 0x01
def tBlockForm := 0x02
def tMultiExit := 0x03
def tBlockStuck := 0x04
def tEmptyRead := 0x05
def tBrokenUse := 0x06
def tTag := 0x07
def tBounds := 0x08
def tPerm := 0x09
def tStoreClass := 0x0A
def tAlign := 0x0B
def tRankOrder := 0x0C
def tObligFull := 0x0D
def tObligAtExit := 0x0E
def tRankReserved := 0x0F
def tTranslation := 0x10
def tProtection := 0x11
def tHostAtomic := 0x12
def tHostAtomicDenied := 0x13
def tReceiptShort := 0x14
def tReceiptOver := 0x15
def tFormat := 0x16
def tFormatPair := 0x17
def tShape := 0x18
def tResidue := 0x19
def tUncorrectable := 0x1A
def tDivergence := 0x1B
def tLodging := 0x1C
def tStarved := 0x1D
def tTrap := 0x1E
def tObligNone := 0x23
/-- No fault: the access waits for a lot unit that is being read back (R346). -/
def tAway := 0x101

/-- The custody record's S offset (R300). -/
def custodyOff (slot : Nat) : Nat := 0xE000 + 0x80 * slot
/-- The 64 bytes of a trap record (R295). -/
def TrapRec.bits (t : TrapRec) : V512 :=
  let cust : Nat := if t.ended then 0 else t.core * 2 ^ 52 + custodyOff t.slot
  BitVec.ofNat 512 (t.code.toNat + t.flags * 2 ^ 8 + t.index.toNat * 2 ^ 32 + t.block.toNat * 2 ^ 64 + t.cycle.toNat * 2 ^ 128
    + t.core * 2 ^ 192 + t.slot * 2 ^ 208 + t.lodging * 2 ^ 216 + t.launch.toNat * 2 ^ 224 + t.lo.toNat * 2 ^ 256
    + t.hi.toNat * 2 ^ 320 + cust * 2 ^ 384)
/-- The state word of a custody record, bytes 64 to 71 (R300). -/
def Custody.stateWord (c : Custody) : Word := BitVec.ofNat 64 (c.state * 2 ^ 62 + c.held.toNat)
/-- Router and S offset of a lodging's trap queue; lodging 0's queue serves lodging 0 (R297). -/
def State.trapQueue (s : State) (lodging : Nat) : Option (Nat × Nat) :=
  let q := (s.lodging lodging).trapQueue
  if capKind q = 6 then (s.router 0 (addrCore (capAddr q))).map fun r => (r, addrOff (capAddr q)) else none
/-- Writes a record to a trap queue, if it has a place (R297). -/
def State.writeTrap (s : State) (lodging : Nat) (rec : V512) (sender : Nat) : Option State :=
  match s.trapQueue lodging with
  | some (r, off) => s.tryDeliver r off { data := rec, cap := false, core := sender, lodging := lodging }
  | none => none
/-- The fields of a claim number (R38). -/
def claimDevice (n : Word) : Nat := numAt n 44 20
def claimCore (n : Word) : Nat := numAt n 32 12
def claimIndex (n : Word) : Nat := numAt n 24 8
def claimGen (n : Word) : Nat := numAt n 0 24
/-- The router and the index of the claim-table entry that a number names, at its home on this device, while its generation matches (R256). -/
def State.claimHome (s : State) (lodging : Nat) (n : Word) : Option (Nat × Nat) :=
  if claimDevice n ≠ s.fuses.device then none
  else match s.router lodging (claimCore n) with
    | some r => if (mapGet (s.core r).claims (claimIndex n)).gen = claimGen n ∧ (mapGet (s.core r).claims (claimIndex n)).state ≠ 0 then some (r, claimIndex n) else none
    | none => none
/-- A place that was reserved at a target claim is free again; the claim that has its entry now, after a reuse, is another (R256, R267). -/
def State.freeClaimPlace (s : State) (lodging : Nat) (n : Word) : State :=
  match s.claimHome lodging n with
  | some (q, i) => s.updCore q fun c => { c with claims := mapUpd c.claims i fun x => { x with reserved := x.reserved - 1 } }
  | none => s
/-- An INVOKEC's question was answered with a place (R258, R267). -/
def Blk.placed (b : Blk) (i : Nat) : Bool := match mapGet b.asks i with | .answered ok _ _ => ok | _ => false
/-- A place at a peer's queue (kind 2) or claim (kind 3) is given back (R267, R416). -/
def State.giveBack (s : State) (r device kind : Nat) (o : Word) : State :=
  s.issue (deviceAct r) (s.core r).lodging 0 0 0 (.query device 99 0 (kind + 2) o) .queued
/-- Nobody waits any more for what a slot has asked of peers. -/
def Eff.orphan (k : Nat) : Eff → Eff
  | .query d k' i kind o => .query d (if k' = k then 99 else k') i kind o
  | e => e
/-- The reservations a block made when its instructions fired are released (R267). -/
def State.release (s : State) (r k : Nat) : State :=
  let b := (s.slot r k).blk
  let s : State := { s with reqs := s.reqs.map fun q => if q.act.core == r then { q with eff := q.eff.orphan k } else q }
  b.acts.foldl (fun s e =>
    match e.2 with
    | some (.send (.queue q off _) _ true) => s.updCore q fun c => { c with places := mapUpd c.places off (· - 1) }
    | some (.send (.peer d c off) _ true) => s.giveBack r d 2 (localAddr c off)
    | some (.send (.reply l q) _ true) => s.updLodging l fun x => { x with replies := mapUpd x.replies q fun y => { y with reserved := y.reserved - 1 } }
    | some (.launch _ true) => { s with pending := mapUpd s.pending (dieOf r) (· - 1),
                                        lodgings := mapUpd s.lodgings (s.core r).lodging fun x => { x with pool := mapUpd x.pool (dieOf r) (· - 1) } }
    | some (.invoke _ _ _ (some i)) => s.updCore r fun c => { c with claims := mapUpd c.claims i fun x => { x with state := 0 } }
    | some (.invokec t _ _ (some i)) =>
      let s := s.updCore r fun c => { c with claims := mapUpd c.claims i fun x => { x with state := 0 } }
      if !b.placed e.1 then s
      else if claimDevice t ≠ s.fuses.device then s.giveBack r (claimDevice t) 3 t
      else s.freeClaimPlace (s.core r).lodging t
    | some (.cusTake q k') => s.updSlot q k' fun x => { x with custody := { x.custody with reserved := 0 } }
    | some (.cusResume q k' _) => s.updSlot q k' fun x => { x with custody := { x.custody with reserved := 0 } }
    | some (.cusBreak q k' _ _) => s.updSlot q k' fun x => { x with custody := { x.custody with reserved := 0 } }
    | some (.cusGive q k' _ _ q2 k2) =>
      (s.updSlot q k' fun x => { x with custody := { x.custody with reserved := 0 } }).updSlot q2 k2 fun x =>
        { x with custody := { x.custody with reserved := 0 } }
    | _ => s) s
/-- TAKING AN EXCEPTION (R72, R295, R297, R299): the block is aborted without effect, the trap record is written to the
lodging's trap queue or kept until it has a place, and the activity enters custody with its registers as before. -/
def State.takeTrap (s : State) (r k : Nat) (t : Trap) (index : W32) (flags : Nat) : State :=
  let c := s.core r
  let x := s.slot r k
  let rec_ : TrapRec :=
    { code := BitVec.ofNat 8 t.code, flags := flags, index := index, block := x.pc, cycle := s.cycle, core := c.logicalNo,
      slot := k, lodging := c.lodging, launch := x.launch, lo := t.lo, hi := t.hi, ended := false }
  let s := s.release r k
  let s := s.countBlock r k 10 1
  let s := s.updSlot r k fun x =>
    { x with blk := default, obs := { x.obs with custodial := true }, retried := false, diverged := false, yielded := false,
             custody := { (default : Custody) with state := 1, held := BitVec.ofNat 16 x.obs.heldMask, record := rec_, unwritten := true } }
  match s.writeTrap c.lodging rec_.bits c.logicalNo with
  | some s' => s'.updSlot r k fun x => { x with custody := { x.custody with unwritten := false } }
  | none => s
/-- THE RETURN FROM CUSTODY (R308): custodial bits clear, the record becomes free, and the block at `addr`, or the
record's block for 0, is fetched afresh. DESIGN CHOICE (log 70): a trap record that still waited for a queue place is dropped with it. -/
def State.resume (s : State) (r k : Nat) (addr : Word) : State :=
  s.updSlot r k fun x =>
    { x with obs := { x.obs with custodial := false }, custody := default, blk := default,
             pc := if addr = 0 then x.custody.record.block else addr,
             region := if addr = 0 then x.region else { x.region with isOpen := false } }

/-! ## Firing one instruction (R54 to R58, R471) -/

/-- What a firing instruction sees. -/
structure Ctx where
  s : State
  core : Nat
  slot : Nat
  idx : Nat
  row : Row
  word : W32
  x : Slot
  l : Value
  r : Value
  t : Value
  /-- The lanes not masked under `pr` = 01 (R57). -/
  mask : BitVec 16

/-- How an instruction takes its operands: predicate mode, data slots, and how many lanes of each are read whole
(R471; 0 for an operand that is not), and its targets. -/
structure Form where
  pr : Nat
  arity : Nat
  wl : Nat := 0
  wr : Nat := 0
  wx : Nat := 0
  t0 : BitVec 9 := noTarget
  t1 : BitVec 9 := noTarget
  row : Row

/-- The EXT word in front of index `i`, if any (R62). -/
def extOf (words : List W32) (i : Nat) : Option W32 :=
  if i = 0 then none
  else match words[i - 1]? with
    | some w => if major w = 1 then some w else none
    | none => none
/-- The immediate of R63: payload:field under a wide EXT. -/
def wideField (words : List W32) (i : Nat) (n : Nat) (f : BitVec n) : Word :=
  match extOf words i with
  | some e => if xKind e = 0 then (xPay e ++ f).signExtend 64 else f.signExtend 64
  | none => f.signExtend 64
def wideFieldZ (words : List W32) (i : Nat) (n : Nat) (f : BitVec n) : Word :=
  match extOf words i with
  | some e => if xKind e = 0 then (xPay e ++ f).zeroExtend 64 else f.zeroExtend 64
  | none => f.zeroExtend 64
/-- The modifier payload in front of index `i`; 0 when there is none (R62). -/
def modOf (words : List W32) (i : Nat) : BitVec 23 :=
  match extOf words i with | some e => if xKind e = 2 then xPay e else 0 | none => 0
def Ctx.sat (c : Ctx) : Bool := bitAt (modOf c.x.blk.words c.idx) 3
/-- The effective rounding mode (R165). -/
def effMode (words : List W32) (i : Nat) (round : Word) : Nat :=
  let m := numAt (modOf words i) 0 3
  if 1 ≤ m ∧ m ≤ 5 then m else numAt round 0 3
def Ctx.mode (c : Ctx) : Nat := effMode c.x.blk.words c.idx c.x.blk.round
/-- The scope of an instruction that honours the scope field, as R105 codes it; dev by default (R62, R266). -/
def Ctx.scope (c : Ctx) : Nat :=
  match numAt (modOf c.x.blk.words c.idx) 4 2 with | 1 => 0 | 2 => 1 | 3 => 3 | _ => 2

def slotKey (i k : Nat) : Nat := 4 * i + k

/-- The state of a predicate (R57). -/
inductive Pred where
  | run (mask : BitVec 16)
  | off
  | null
  | fault (t : Trap)
deriving DecidableEq, Repr

/-- Reads a predicate under R56 and R57. DESIGN CHOICE (log 55): a CAP or BROKEN predicate faults by its tag even where its lane 0 is
null, and a predicate's fault comes before a null token in a data slot. -/
def readPred (pr : Nat) (p : Value) : Pred :=
  if pr = 0 then .run allLanes
  else if p.null then .null
  else if p.tag == .cap then .fault (trapCap tTag p.cap)
  else if p.tag == .broken then .fault (trap tBrokenUse)
  else if pr = 1 then .run (if bitAt p.valid 0 then (bitsAt p.bits 0 16 : BitVec 16) &&& p.valid else 0)
  else if !bitAt p.valid 0 then .null
  else if (p.lane 0 != 0) == (pr == 2) then .run allLanes
  else .off

/-- Slot `k` has fired: the slots that yielded to it wait for it no longer (R129). -/
def Core.firedBy (c : Core) (k : Nat) : Core :=
  { c with slots := c.slots.foldl (fun m e =>
      if e.2.yieldFor.contains k then mapUpd m e.1 fun x => { x with yieldFor := x.yieldFor.filter (· != k) } else m) c.slots }
/-- Marks an instruction fired (1) or predicated off (2). -/
def State.mark (s : State) (r k i n : Nat) : State :=
  (if n = 1 then s.updCore r fun c => c.firedBy k else s).updBlk r k fun b => { b with fired := mapSet b.fired i n }

/-- Aborts the block of a firing instruction with a fault at its index. -/
def Ctx.abort (c : Ctx) (t : Trap) : State := c.s.takeTrap c.core c.slot t (BitVec.ofNat 32 c.idx) 0

/-- Delivers a value to a target; a second arrival at a filled slot faults BLOCK_FORM at the consumer (R54). -/
def State.send (s : State) (r k : Nat) (t : BitVec 9) (v : Value) : State :=
  if t = noTarget then s
  else
    let i := numAt t 0 7
    let key := slotKey i (match numAt t 7 2 with | 0 => 0 | 1 => 1 | 2 => 3 | _ => 2)
    if (s.slot r k).blk.phase != 2 then s
    else if (mapGet (s.slot r k).blk.slots key).isSome then s.takeTrap r k (trap tBlockForm) (BitVec.ofNat 32 i) 0
    else s.updBlk r k fun b => { b with slots := mapSet b.slots key (some v), arrived := mapSet b.arrived i s.cycle }

/-- The result of a firing: the state it leaves, the values for t0 and t1, and the events it raised. -/
structure Fired where
  s : State
  v0 : Value
  v1 : Value
  evs : List Nat := []

/-- Ends a firing: the instruction has fired, its values travel, its events wait for the commit (R179). -/
def Ctx.finish (c : Ctx) (f : Form) (x : Fired) : State :=
  if (x.s.slot c.core c.slot).blk.phase != 2 then x.s else
  let s := x.s.mark c.core c.slot c.idx 1
  let s := s.updBlk c.core c.slot fun b => { b with evs := x.evs.eraseDups.foldl (fun m e => mapUpd m e (· + 1)) b.evs }
  (s.send c.core c.slot f.t0 x.v0).send c.core c.slot f.t1 x.v1

/-- A store behind which a load waits (R60). -/
def storesDone (b : Blk) (lsid : Nat) : Bool :=
  (List.range lsid).all fun j => !bitAt b.storeMask j || (mapGet b.lsids' j).done

/-- An operand that may be a capability or a scalar is read from lanes 0 to 3 when it is CAP, else from lanes 0 and 1 (R126, R309,
R471). -/
def targetNull (v : Value) : Bool := if v.tag == .cap then !v.validTo 4 else !v.validTo 2
/-- A data operand that counts as a null token: one, or one read whole with a null lane (R58, R471). -/
def nullOperand (arity n whole : Nat) (v : Value) : Bool := n < arity && (v.null || (whole != 0 && !v.validTo whole))
/-- The operands L, R and X count as a null token between them: one does, or CUS.GIVE's destination has a null lane (R58, R309, R471). -/
def Form.nullOf (f : Form) (l r t : Value) : Bool :=
  nullOperand f.arity 0 f.wl l || nullOperand f.arity 1 f.wr r || nullOperand f.arity 2 f.wx t || (f.row == .cusGive && targetNull t)
/-- A null token, or an operand that counts as one, in a data slot. -/
def Form.nullData (f : Form) (c : Ctx) : Bool := f.nullOf c.l c.r c.t
/-- A value that has reached data slot `q` counts as a null token. -/
def Form.nullAt (f : Form) (q : Nat) (v : Option Value) : Bool :=
  match v with
  | some v => nullOperand f.arity q (match q with | 0 => f.wl | 1 => f.wr | _ => f.wx) v || (q == 2 && f.row == .cusGive && targetNull v)
  | none => false
/-- An instruction is ready (R54, R57, R58, R60, R61), given what has reached each slot and, for a load, whether the stores below it are done:
every operand has arrived; or a null token has, in any slot. DEDUCED (log 55): one in a data slot waits for the predicate, which may be off,
but where it completes a store's LSID. -/
def Form.ready (f : Form) (get : Nat → Option Value) (below : Bool) : Bool :=
  let told := f.pr == 0 || (get 3).isSome
  (told && (f.arity < 1 || (get 0).isSome) && (f.arity < 2 || (get 1).isSome) && (f.arity < 3 || (get 2).isSome) && (!f.row.isLoad || below))
    || (f.pr != 0 && (get 3).any fun p => readPred f.pr p == .null)
    || ((told || f.row.isStore) && (f.nullAt 0 (get 0) || f.nullAt 1 (get 1) || f.nullAt 2 (get 2)))

/-- The context of the instruction at `here`, when its block is admitted, it has not fired, the activity is not in
custody, and it is ready. -/
def State.ctx (s : State) (f : Form) : Option (Ctx × Value) :=
  let (r, k, i) := s.here
  let x := s.slot r k
  let b := x.blk
  let w := b.words[i]?.getD 0
  let get := fun q => mapGet b.slots (slotKey i q)
  if b.phase = 2 ∧ x.custody.state = 0 ∧ !(s.core r).gated ∧ i < b.words.length ∧ mapGet b.fired i = 0
      ∧ f.ready get (storesDone b (lsidOf w).toNat) then
    some ({ s := s, core := r, slot := k, idx := i, row := f.row, word := w, x := x, l := (get 0).getD default,
            r := (get 1).getD default, t := (get 2).getD default, mask := allLanes }, (get 3).getD default)
  else none
/-- An operand read whole, other than a computed target, is BROKEN: BROKEN_USE comes before any other fault (R33, R119, R126). -/
def Form.brokenWhole (f : Form) (l r t : Value) : Bool :=
  f.row != .brc && f.row != .ret && f.row != .callc
    && ((f.wl != 0 && l.tag == .broken) || (f.wr != 0 && r.tag == .broken) || (f.wx != 0 && t.tag == .broken))

/-- The instruction waits for a saved lot unit; the time counts toward no timer (R346). -/
def State.waitsAway (s : State) (r k : Nat) : State :=
  s.updBlk r k fun b => { b with awayAt := if b.awayAt = 0 then s.cycle.toNat + 1 else b.awayAt }
/-- Fires the instruction at `here`. An instruction that is not ready leaves the state as it stands (log 16). `onNull`
is what a null token does beside passing on (R58). DESIGN CHOICE (log 55): a predicate's own fault, its null token and its being off
come before a null token in a data slot, so that a predicated-off instruction passes none on; a store-class one completes its LSID
all the same, as R61 says. -/
def State.fire (s : State) (f : Form) (onNull : Ctx → State) (act : Ctx → Except Trap Fired) : Out :=
  match s.ctx f with
  | none => .next s
  | some (c, p) =>
    match readPred f.pr p with
    | .fault t => .next (c.abort t)
    | .off => .next ((if f.row.isStore && f.nullData c then onNull c else s).mark c.core c.slot c.idx 2)
    | .null => .next (c.finish f { s := onNull c, v0 := nullToken, v1 := nullToken })
    | .run m =>
      if f.nullData c then .next (c.finish f { s := onNull c, v0 := nullToken, v1 := nullToken })
      else if f.brokenWhole c.l c.r c.t then .next (c.abort (trap tBrokenUse))
      else
        match act { c with mask := m } with
        | .error t => .next (if t.code = tAway then s.waitsAway c.core c.slot else c.abort t)
        | .ok x => .next (c.finish f x)

/-- A null token that does nothing but pass on. -/
def plainNull (c : Ctx) : State := c.s

/-- A value for both targets, and nothing else. -/
def Ctx.value (c : Ctx) (v : Value) (evs : List Nat := []) : Except Trap Fired := .ok { s := c.s, v0 := v, v1 := v, evs := evs }
/-- No value: the block keeps an act for the commit. -/
def Ctx.act (c : Ctx) (a : Act) : State := c.s.updBlk c.core c.slot fun b => { b with acts := mapSet b.acts c.idx (some a) }
def Ctx.silent (_c : Ctx) (s : State) (evs : List Nat := []) : Except Trap Fired := .ok { s := s, v0 := nullToken, v1 := nullToken, evs := evs }
/-- The lodging of the firing core. -/
def Ctx.lodging (c : Ctx) : Nat := (c.s.core c.core).lodging
def Ctx.logical (c : Ctx) : Nat := (c.s.core c.core).logicalNo
def Ctx.steward (c : Ctx) : Bool := isSteward c.core

end Sys2Proof.Machine
end

