-- ==== Sys2Proof/Machine/Flags.lean ====
section
/-! DEFINITION. The flag computations: the event numbers of R178, saturation (R135), and what a commit does to `s.round`
and to the counters (R166, R179). -/

namespace Sys2Proof.Machine

def evInvalid := 0
def evDivZero := 1
def evOverflow := 2
def evUnderflow := 3
def evClamp := 4

/-- An exact integer result of `w` bits: clamped to the signed range under saturation, wrapping otherwise; and whether it
was clamped (R135). -/
def satSigned (sat : Bool) (w : Nat) (x : Int) : Nat × Bool :=
  let hi : Int := 2 ^ (w - 1) - 1
  let lo : Int := -2 ^ (w - 1)
  if sat && (x < lo || hi < x) then (((if x < 0 then lo else hi) % 2 ^ w).toNat, true) else ((x % 2 ^ w).toNat, false)

/-- The same for the natural range (R187). -/
def satNatural (sat : Bool) (w : Nat) (x : Int) : Nat × Bool :=
  let hi : Int := 2 ^ w - 1
  if sat && (x < 0 || hi < x) then (if x < 0 then 0 else hi.toNat, true) else ((x % 2 ^ w).toNat, false)

/-- The clamp event when a result was clamped. -/
def clampEv (b : Bool) : List Nat := if b then [evClamp] else []

/-- `s.round` after a commit whose instructions raised the given events (R166). -/
def roundFlags (round : Word) (evs : Map Nat) : Word :=
  let on := fun (e bit : Nat) (w : Word) => if mapGet evs e = 0 then w else setBits w bit 1 1
  on evInvalid 8 (on evDivZero 9 (on evOverflow 10 (on evUnderflow 11 round)))

/-- `s.round` as a SYS.WR stores it (R166): zero fields zero, modes 0, 6 and 7 stored as 1. -/
def roundWritten (v : Word) : Word :=
  let m := numAt v 0 3
  BitVec.ofNat 64 (numAt v 8 4 * 256 + if m = 0 ∨ 6 ≤ m then 1 else m)

/-- Counters 0 to 4 after a commit (R179). -/
def countEvents (ev : Map W32) (evs : Map Nat) : Map W32 := evs.foldl (fun m e => bumpEv m e.1 e.2) ev

/-- One draw of SR: the next state, which is the value drawn (R169). -/
def nextDraw (x : W32) : W32 :=
  let x := x ^^^ (x <<< 13)
  let x := x ^^^ (x >>> 17)
  x ^^^ (x <<< 5)

/-- The seed after `n` draws. -/
def seedAfter : Nat → W32 → W32
  | 0, x => x
  | n + 1, x => seedAfter n (nextDraw x)

/-- Draws owned by the instructions of a block below index `i` (R169). -/
def drawsBelow (words : List W32) (round : Word) (i : Nat) : Nat :=
  (List.range i).foldl (fun n j =>
    let w := words[j]?.getD 0
    match rowOf w with
    | .ok row => if effMode words j round = 5 then n + row.draws w else n
    | .error _ => n) 0

/-- Draw `k` of the firing instruction (R169). -/
def Ctx.draw (c : Ctx) (k : Nat) : Nat :=
  (seedAfter (drawsBelow c.x.blk.words c.x.blk.round c.idx + k + 1) c.x.blk.seed).toNat

/-- The seed every start but a HANDOFF's sets (R170). -/
def startSeed (logical : Nat) : W32 := 0x6A09E667 ^^^ BitVec.ofNat 32 logical

end Sys2Proof.Machine
end

