-- ==== Sys2Proof/Machine/Operands.lean ====
section
/-! DEFINITION. Operand forms: how each format gives an instruction its operands (R52, R63, R64, R117), scalar results,
and the addresses and checks of local accesses, queued requests and engine commands (R119, R146, R147, R212, R289). -/

namespace Sys2Proof.Machine

/-- T format: predicate, targets, `n` data slots, none read whole. -/
def tForm (row : Row) (pr : BitVec 2) (n : Nat) (t1 t0 : BitVec 9) : Form :=
  { pr := pr.toNat, arity := n, t0 := t0, t1 := t1, row := row }
/-- T format of an instruction that reads operands whole (R471). -/
def wForm (row : Row) (pr : BitVec 2) (n wl wr wx : Nat) (t1 t0 : BitVec 9) : Form :=
  { pr := pr.toNat, arity := n, wl := wl, wr := wr, wx := wx, t0 := t0, t1 := t1, row := row }
/-- I and L formats: one target. -/
def iForm (row : Row) (pr : BitVec 2) (n : Nat) (t0 : BitVec 9) : Form :=
  { pr := pr.toNat, arity := n, t0 := t0, row := row }
/-- A form without targets. -/
def nForm (row : Row) (pr : BitVec 2) (n wl wr wx : Nat) : Form :=
  { pr := pr.toNat, arity := n, wl := wl, wr := wr, wx := wx, row := row }

/-- Masks a result's lanes under `pr` = 01 (R56). -/
def Ctx.masked (c : Ctx) (v : Value) : Value := { v with valid := v.valid &&& c.mask }

/-- A scalar result from scalar operands (R55, R117): BROKEN when any is; null when lane 0 or 1 of any is. A result that
is null raises no event. -/
def Ctx.scalarOut (c : Ctx) (vs : List Value) (x : Word) (evs : List Nat := []) : Except Trap Fired :=
  let ok := vs.all fun v => v.validTo 2
  c.value (c.masked (scalarValue x ok (brokenOf vs))) (if ok && numAt c.mask 0 2 != 0 then evs else [])

/-- Width of a scalar operation: 32 when the bit is set (R101). -/
def aluWidth (w : BitVec 1) : Nat := if w = 1 then 32 else 64
/-- A result of `n` bits as 64: 32-bit results are sign-extended (R134). -/
def aluResult (n : Nat) (x : Nat) : Word := if n = 32 then (BitVec.ofNat 32 x).signExtend 64 else BitVec.ofNat 64 x
/-- An `n`-bit operand as a natural and as a signed number. -/
def natOp (n : Nat) (v : Word) : Nat := v.toNat % 2 ^ n
def intOp (n : Nat) (v : Word) : Int := if n = 32 then (v.truncate 32).toInt else v.toInt

/-- A two-operand scalar operation on naturals of the width (R134). -/
def Ctx.alu (c : Ctx) (w : BitVec 1) (f : Nat → Nat → Nat → Nat) : Except Trap Fired :=
  let n := aluWidth w
  c.scalarOut [c.l, c.r] (aluResult n (f n (natOp n c.l.scalar) (natOp n c.r.scalar) % 2 ^ n))
/-- A two-operand scalar operation with an exact result, saturating under the modifier (R135). -/
def Ctx.aluSat (c : Ctx) (w : BitVec 1) (f : Nat → Int → Int → Int) (evs : List Nat := []) : Except Trap Fired :=
  let n := aluWidth w
  let x := satSigned c.sat n (f n (intOp n c.l.scalar) (intOp n c.r.scalar))
  c.scalarOut [c.l, c.r] (aluResult n x.1) (evs ++ clampEv x.2)
/-- The DATA scalar 1 or 0 of a relation (R138). -/
def Ctx.test (c : Ctx) (vs : List Value) (b : Bool) : Except Trap Fired := c.scalarOut vs (if b then 1 else 0)

/-- The sign-extended immediate of the firing I-format word, wide EXT included (R63, R64). -/
def Ctx.imm (c : Ctx) (i : BitVec 14) : Word := wideField c.x.blk.words c.idx 14 i
def Ctx.immZ (c : Ctx) (i : BitVec 14) : Word := wideFieldZ c.x.blk.words c.idx 14 i

/-! ## Local accesses -/

/-- The address of a local access: address(L) + sext(offset) × scale (R146, R151). -/
def localAt (cap : Cap) (off : Word) (scale : Nat) : Word := capAddr cap + off * BitVec.ofNat 64 scale

/-- Where the part of a store that programs address ends (R23, R26). -/
def storeEnd (k : Sto) : Nat := if k == .s then 0xC000 else k.size
/-- The checks of R147 in the order of R119, on an access of `n` bytes at `a`: the store and the offset within it. DESIGN CHOICE (log
58): an access past the end of its store, through a capability that a steward widened beyond it, faults BOUNDS. -/
def Ctx.checkLocal (c : Ctx) (v : Value) (isStore isC : Bool) (a : Word) (align n : Nat) (capValue : Bool) : Except Trap (Sto × Nat) :=
  if v.tag == .broken then .error (trap tBrokenUse)
  else if v.tag != .cap then .error (trapCap tTag v.cap)
  else
    match stoOfKind (capKind v.cap) with
    | none => .error (trapCap tTag v.cap)
    | some k =>
      let cap := v.cap
      if isStore && (k == .w || (isC && k == .c)) then .error (trapCap tStoreClass cap)
      else if !capHas cap (if isStore then pStore else pLoad) || (isC && capValue && !capHas cap (if isStore then pStoreCap else pLoadCap))
          || addrCore a != c.logical then .error (trapCap tPerm cap)
      else if a.toNat % align ≠ 0 then .error { code := tAlign, lo := a, hi := BitVec.ofNat 64 n }
      else if !capInBounds cap a.toNat n || storeEnd k < addrOff a + n then .error (trapCap tBounds cap)
      else if c.s.lotAway c.core k (addrOff a) n then .error (trap tAway)
      else .ok (k, addrOff a)

/-- The bytes a load sees (R60): the highest store below `lsid` in the block that writes the byte, else the local
store as it stands at the firing (R27). -/
def Ctx.seen (c : Ctx) (k : Sto) (off n lsid : Nat) : List Byte :=
  (List.range n).map fun i =>
    (List.range lsid).foldl (fun b j =>
      let w := mapGet c.x.blk.lsids' j
      if w.sto == k then (match w.bytes.find? (fun e => e.1 == off + i) with | some e => e.2 | none => b) else b)
      (mapGet ((c.s.core c.core).store k).bytes (off + i))
/-- The tag bit a load sees (R34, R60). -/
def Ctx.seenTag (c : Ctx) (k : Sto) (g lsid : Nat) : Bool :=
  (List.range lsid).foldl (fun b j =>
    let w := mapGet c.x.blk.lsids' j
    if w.sto == k then
      match w.tag with
      | some (h, t) => if h = g then t else b
      | none => if w.bytes.any (fun e => e.1 / 16 == g) then false else b
    else b) (k.tagged && mapGet ((c.s.core c.core).store k).tags g)

/-! ## Addresses of requests and engine commands -/

/-- The store and offset, or space and virtual address, that a capability and an address name (R289). -/
def memAddr (cap : Cap) (a : Word) : MemAddr := { kind := capKind cap, space := capSpace cap, va := a }

/-- The logical core of a local-store address at or above the lodging's count (R43). -/
def Ctx.noCore (c : Ctx) (logical : Nat) : Bool := (c.s.router c.lodging logical).isNone
def trapLodging (logical : Nat) : Trap := { code := tLodging, lo := BitVec.ofNat 64 logical, hi := 0 }
/-- The trap of an operand that its home has refused (R296): a logical core for LODGING, nothing for SHAPE, and the capability for any other. -/
def refusal (code logical : Nat) (v : Value) : Trap :=
  if code = tShape then trap tShape else if code = tLodging then trapLodging logical else trapCap code v.cap

/-- A local-store range past the end of its store (log 58). -/
def pastEnd (kind : Nat) (a : Word) (n : Nat) : Bool := match stoOfKind kind with | some k => storeEnd k < addrOff a + n | none => false
/-- The checks of R289 in the order of R119. DESIGN CHOICE (log 58): past the end of a local store, BOUNDS. -/
def Ctx.checkQueued (c : Ctx) (v : Value) (kinds storeClass : List Nat) (perms : List Nat) (a : Word) (n : Nat) : Except Trap Unit :=
  if v.tag == .broken then .error (trap tBrokenUse)
  else if v.tag != .cap || !((kinds ++ storeClass).contains (capKind v.cap)) then .error (trapCap tTag v.cap)
  else if storeClass.contains (capKind v.cap) then .error (trapCap tStoreClass v.cap)
  else if perms.any fun p => !capHas v.cap p then .error (trapCap tPerm v.cap)
  else
    let isLocal := 2 ≤ capKind v.cap && capKind v.cap ≤ 5
    if isLocal && c.noCore (addrCore a) then .error (trapLodging (addrCore a))
    else if a.toNat % n ≠ 0 then .error { code := tAlign, lo := a, hi := BitVec.ofNat 64 n }
    else if !capInBounds v.cap a.toNat n || pastEnd (capKind v.cap) a n then .error (trapCap tBounds v.cap)
    else .ok ()

/-- A capability operand of an object instruction: its kind (TAG) and permissions (PERM). -/
def checkCap (v : Value) (kind : Nat) (perms : List Nat) : Except Trap Cap :=
  if v.tag == .broken then .error (trap tBrokenUse)
  else if v.tag != .cap || capKind v.cap != kind then .error (trapCap tTag v.cap)
  else if perms.any fun p => !capHas v.cap p then .error (trapCap tPerm v.cap)
  else .ok v.cap
/-- A scalar operand read whole: a BROKEN one faults BROKEN_USE (R33). -/
def checkScalar (v : Value) : Except Trap Word := if v.tag == .broken then .error (trap tBrokenUse) else .ok v.scalar

/-- The logical core an object's home is on (R360), as a router. -/
def Ctx.home (c : Ctx) (a : Word) : Option Nat := c.s.router c.lodging (addrCore a)

/-- The activity of the firing instruction. -/
def Ctx.actId (c : Ctx) : ActId := { core := c.core, slot := c.slot, gen := c.x.gen }
/-- Completes the register of a landing effect with the mark the commit applies; a second completion faults BLOCK_FORM at
this instruction (R65, R67). -/
def Ctx.complete (c : Ctx) (s : State) (reg : Nat) (d : RegDone) : State :=
  if mapGet c.x.blk.regDone reg == .no then s.updBlk c.core c.slot fun b => { b with regDone := mapSet b.regDone reg d }
  else s.takeTrap c.core c.slot (trap tBlockForm) (BitVec.ofNat 32 c.idx) 0
/-- A null token completes a landing's register unchanged (R58). -/
def nullLanding (reg : Nat) (c : Ctx) : State := c.complete c.s reg .null
/-- A null token completes an LSID (R58, R61). -/
def nullStore (lsid : Nat) (c : Ctx) : State :=
  c.s.updBlk c.core c.slot fun b => { b with lsids' := mapSet b.lsids' lsid { (default : LsWrite) with done := true, since := c.s.cycle } }
/-- An exit has fired; a second one faults MULTI_EXIT (R67). -/
def Ctx.exitWith (c : Ctx) (e : Exit) : State :=
  if c.x.blk.exits.isEmpty then c.s.updBlk c.core c.slot fun b => { b with exits := [(c.idx, e)] }
  else c.s.takeTrap c.core c.slot (trap tMultiExit) (BitVec.ofNat 32 c.idx) 0
/-- Asks a home a question for the commit (R267). -/
def Ctx.ask (c : Ctx) (s : State) (a : Ask) : State := s.updBlk c.core c.slot fun b => { b with asks := mapSet b.asks c.idx a }

end Sys2Proof.Machine
end

