-- ==== Sys2Proof/Machine/Alu.lean ====
section
/-! DEFINITION. Integer arithmetic, bit, compare, predicate-mask and immediate instructions (R134 to R141). -/

namespace Sys2Proof.Machine

/-- a rotated left by k of n bits (R134). -/
def rotl (n a k : Nat) : Nat := (a * 2 ^ k + a / 2 ^ (n - k)) % 2 ^ n
/-- a >> k filled with the sign (R134). -/
def sra (n a k : Nat) : Nat := (((BitVec.ofNat n a).toInt / 2 ^ k) % 2 ^ n).toNat
/-- The signed value of n bits. -/
def sgn (n a : Nat) : Int := (BitVec.ofNat n a).toInt
/-- Quotients and remainders of R136, division by zero and the one overflow included. -/
def divSigned (a b : Int) : Int := if b = 0 then -1 else Int.tdiv a b
def remSigned (a b : Int) : Int := if b = 0 then a else a - b * Int.tdiv a b
def divNat (n a b : Nat) : Nat := if b = 0 then 2 ^ n - 1 else a / b
def remNat (a b : Nat) : Nat := if b = 0 then a else a % b
/-- Divide-by-zero of an integer division (R136, R178). -/
def zeroDivEv (b : Nat) : List Nat := if b = 0 then [evDivZero] else []
/-- Counts of R137 on 64 bits. -/
def clz64 (a : Nat) : Nat := if a = 0 then 64 else 63 - Nat.log2 a
def ctz64 (a : Nat) : Nat := ((List.range 64).find? fun i => a / 2 ^ i % 2 == 1).getD 64
def popCount (n a : Nat) : Nat := ((List.range n).filter fun i => a / 2 ^ i % 2 == 1).length
def brev64 (a : Nat) : Nat := (List.range 64).foldl (fun x i => 2 * x + a / 2 ^ i % 2) 0
def bswap64 (a : Nat) : Nat := (List.range 8).foldl (fun x i => 256 * x + a / 2 ^ (8 * i) % 256) 0
/-- The 16 mask bits of lane 0 (R139). -/
def mask16 (v : Value) : Nat := numAt v.bits 0 16

/-- ADD (R134). Integer add, 64-bit or 32-bit. -/
def execAdd (w : BitVec 1) (pr : BitVec 2) (t1 : BitVec 9) (t0 : BitVec 9) (s : State) : Out :=
  s.fire (tForm .add pr 2 t1 t0) plainNull fun c => c.aluSat w (fun _ a b => a + b)

/-- SUB (R134). Integer subtract. -/
def execSub (w : BitVec 1) (pr : BitVec 2) (t1 : BitVec 9) (t0 : BitVec 9) (s : State) : Out :=
  s.fire (tForm .sub pr 2 t1 t0) plainNull fun c => c.aluSat w (fun _ a b => a - b)

/-- AND (R134). Bitwise AND. -/
def execAnd (w : BitVec 1) (pr : BitVec 2) (t1 : BitVec 9) (t0 : BitVec 9) (s : State) : Out :=
  s.fire (tForm .and pr 2 t1 t0) plainNull fun c => c.alu w (fun _ a b => a &&& b)

/-- OR (R134). Bitwise OR. -/
def execOr (w : BitVec 1) (pr : BitVec 2) (t1 : BitVec 9) (t0 : BitVec 9) (s : State) : Out :=
  s.fire (tForm .or pr 2 t1 t0) plainNull fun c => c.alu w (fun _ a b => a ||| b)

/-- XOR (R134). Bitwise XOR. -/
def execXor (w : BitVec 1) (pr : BitVec 2) (t1 : BitVec 9) (t0 : BitVec 9) (s : State) : Out :=
  s.fire (tForm .xor pr 2 t1 t0) plainNull fun c => c.alu w (fun _ a b => a ^^^ b)

/-- ANDN (R134). AND with the complement of the right operand. -/
def execAndn (w : BitVec 1) (pr : BitVec 2) (t1 : BitVec 9) (t0 : BitVec 9) (s : State) : Out :=
  s.fire (tForm .andn pr 2 t1 t0) plainNull fun c => c.alu w (fun n a b => a &&& (2 ^ n - 1 - b))

/-- SHL (R134). Shift left. -/
def execShl (w : BitVec 1) (pr : BitVec 2) (t1 : BitVec 9) (t0 : BitVec 9) (s : State) : Out :=
  s.fire (tForm .shl pr 2 t1 t0) plainNull fun c => c.aluSat w (fun n a b => a * 2 ^ (b % (n : Int)).toNat)

/-- SHR (R134). Logical shift right. -/
def execShr (w : BitVec 1) (pr : BitVec 2) (t1 : BitVec 9) (t0 : BitVec 9) (s : State) : Out :=
  s.fire (tForm .shr pr 2 t1 t0) plainNull fun c => c.alu w (fun n a b => a / 2 ^ (b % n))

/-- SRA (R134). Arithmetic shift right. -/
def execSra (w : BitVec 1) (pr : BitVec 2) (t1 : BitVec 9) (t0 : BitVec 9) (s : State) : Out :=
  s.fire (tForm .sra pr 2 t1 t0) plainNull fun c => c.alu w (fun n a b => sra n a (b % n))

/-- ROL (R134). Rotate left. -/
def execRol (w : BitVec 1) (pr : BitVec 2) (t1 : BitVec 9) (t0 : BitVec 9) (s : State) : Out :=
  s.fire (tForm .rol pr 2 t1 t0) plainNull fun c => c.alu w (fun n a b => rotl n a (b % n))

/-- MIN (R134). Signed minimum. -/
def execMin (w : BitVec 1) (pr : BitVec 2) (t1 : BitVec 9) (t0 : BitVec 9) (s : State) : Out :=
  s.fire (tForm .min pr 2 t1 t0) plainNull fun c => c.alu w (fun n a b => if sgn n a ≤ sgn n b then a else b)

/-- MAX (R134). Signed maximum. -/
def execMax (w : BitVec 1) (pr : BitVec 2) (t1 : BitVec 9) (t0 : BitVec 9) (s : State) : Out :=
  s.fire (tForm .max pr 2 t1 t0) plainNull fun c => c.alu w (fun n a b => if sgn n a ≤ sgn n b then b else a)

/-- MINN (R134). Natural minimum. -/
def execMinn (w : BitVec 1) (pr : BitVec 2) (t1 : BitVec 9) (t0 : BitVec 9) (s : State) : Out :=
  s.fire (tForm .minn pr 2 t1 t0) plainNull fun c => c.alu w (fun _ a b => Nat.min a b)

/-- MAXN (R134). Natural maximum. -/
def execMaxn (w : BitVec 1) (pr : BitVec 2) (t1 : BitVec 9) (t0 : BitVec 9) (s : State) : Out :=
  s.fire (tForm .maxn pr 2 t1 t0) plainNull fun c => c.alu w (fun _ a b => Nat.max a b)

/-- SEL (R134). Selects a or b according to c. -/
def execSel (w : BitVec 1) (pr : BitVec 2) (t1 : BitVec 9) (t0 : BitVec 9) (s : State) : Out :=
  s.fire (tForm .sel pr 3 t1 t0) plainNull fun c => let n := aluWidth w
    c.scalarOut [c.l, c.r, c.t] (aluResult n (natOp n (if natOp n c.t.scalar = 0 then c.r.scalar else c.l.scalar)))

/-- MUL (R136). Low half of a product. -/
def execMul (pr : BitVec 2) (w : BitVec 1) (t1 : BitVec 9) (t0 : BitVec 9) (s : State) : Out :=
  s.fire (tForm .mul pr 2 t1 t0) plainNull fun c => c.aluSat w (fun _ a b => a * b)

/-- MULH (R136). High half of the signed product. -/
def execMulh (pr : BitVec 2) (w : BitVec 1) (t1 : BitVec 9) (t0 : BitVec 9) (s : State) : Out :=
  s.fire (tForm .mulh pr 2 t1 t0) plainNull fun c => c.alu w (fun n a b => ((sgn n a * sgn n b / 2 ^ n) % 2 ^ n).toNat)

/-- MULHN (R136). High half of the natural product. -/
def execMulhn (pr : BitVec 2) (w : BitVec 1) (t1 : BitVec 9) (t0 : BitVec 9) (s : State) : Out :=
  s.fire (tForm .mulhn pr 2 t1 t0) plainNull fun c => c.alu w (fun n a b => a * b / 2 ^ n)

/-- DIV (R136). Signed quotient with fixed edge cases. -/
def execDiv (pr : BitVec 2) (w : BitVec 1) (t1 : BitVec 9) (t0 : BitVec 9) (s : State) : Out :=
  s.fire (tForm .div pr 2 t1 t0) plainNull fun c => c.aluSat w (fun _ a b => divSigned a b) (zeroDivEv (natOp (aluWidth w) c.r.scalar))

/-- DIVN (R136). Natural quotient. -/
def execDivn (pr : BitVec 2) (w : BitVec 1) (t1 : BitVec 9) (t0 : BitVec 9) (s : State) : Out :=
  s.fire (tForm .divn pr 2 t1 t0) plainNull fun c => let n := aluWidth w
    let a := natOp n c.l.scalar
    let b := natOp n c.r.scalar
    c.scalarOut [c.l, c.r] (aluResult n (divNat n a b)) (zeroDivEv b)

/-- REM (R136). Signed remainder. -/
def execRem (pr : BitVec 2) (w : BitVec 1) (t1 : BitVec 9) (t0 : BitVec 9) (s : State) : Out :=
  s.fire (tForm .rem pr 2 t1 t0) plainNull fun c => let n := aluWidth w
    let a := natOp n c.l.scalar
    let b := natOp n c.r.scalar
    c.scalarOut [c.l, c.r] (aluResult n ((remSigned (sgn n a) (sgn n b) % 2 ^ n).toNat)) (zeroDivEv b)

/-- REMN (R136). Natural remainder. -/
def execRemn (pr : BitVec 2) (w : BitVec 1) (t1 : BitVec 9) (t0 : BitVec 9) (s : State) : Out :=
  s.fire (tForm .remn pr 2 t1 t0) plainNull fun c => let n := aluWidth w
    let a := natOp n c.l.scalar
    let b := natOp n c.r.scalar
    c.scalarOut [c.l, c.r] (aluResult n (remNat a b)) (zeroDivEv b)

/-- CLZ (R137). Count leading zeros. -/
def execClz (pr : BitVec 2) (t1 : BitVec 9) (t0 : BitVec 9) (s : State) : Out :=
  s.fire (tForm .clz pr 1 t1 t0) plainNull fun c => c.scalarOut [c.l] (BitVec.ofNat 64 (clz64 c.l.scalar.toNat))

/-- CTZ (R137). Count trailing zeros. -/
def execCtz (pr : BitVec 2) (t1 : BitVec 9) (t0 : BitVec 9) (s : State) : Out :=
  s.fire (tForm .ctz pr 1 t1 t0) plainNull fun c => c.scalarOut [c.l] (BitVec.ofNat 64 (ctz64 c.l.scalar.toNat))

/-- POP (R137). Population count. -/
def execPop (pr : BitVec 2) (t1 : BitVec 9) (t0 : BitVec 9) (s : State) : Out :=
  s.fire (tForm .pop pr 1 t1 t0) plainNull fun c => c.scalarOut [c.l] (BitVec.ofNat 64 (popCount 64 c.l.scalar.toNat))

/-- SEXT.8 (R137). Sign-extends the low byte. -/
def execSext8 (pr : BitVec 2) (t1 : BitVec 9) (t0 : BitVec 9) (s : State) : Out :=
  s.fire (tForm .sext8 pr 1 t1 t0) plainNull fun c => c.scalarOut [c.l] (sext64 (c.l.scalar.truncate 8))

/-- SEXT.16 (R137). Sign-extends the low 16 bits. -/
def execSext16 (pr : BitVec 2) (t1 : BitVec 9) (t0 : BitVec 9) (s : State) : Out :=
  s.fire (tForm .sext16 pr 1 t1 t0) plainNull fun c => c.scalarOut [c.l] (sext64 (c.l.scalar.truncate 16))

/-- SEXT.32 (R137). Sign-extends the low 32 bits. -/
def execSext32 (pr : BitVec 2) (t1 : BitVec 9) (t0 : BitVec 9) (s : State) : Out :=
  s.fire (tForm .sext32 pr 1 t1 t0) plainNull fun c => c.scalarOut [c.l] (sext64 (c.l.scalar.truncate 32))

/-- ZEXT.8 (R137). Zero-extends the low byte. -/
def execZext8 (pr : BitVec 2) (t1 : BitVec 9) (t0 : BitVec 9) (s : State) : Out :=
  s.fire (tForm .zext8 pr 1 t1 t0) plainNull fun c => c.scalarOut [c.l] (zext64 (c.l.scalar.truncate 8))

/-- ZEXT.16 (R137). Zero-extends the low 16 bits. -/
def execZext16 (pr : BitVec 2) (t1 : BitVec 9) (t0 : BitVec 9) (s : State) : Out :=
  s.fire (tForm .zext16 pr 1 t1 t0) plainNull fun c => c.scalarOut [c.l] (zext64 (c.l.scalar.truncate 16))

/-- ZEXT.32 (R137). Zero-extends the low 32 bits. -/
def execZext32 (pr : BitVec 2) (t1 : BitVec 9) (t0 : BitVec 9) (s : State) : Out :=
  s.fire (tForm .zext32 pr 1 t1 t0) plainNull fun c => c.scalarOut [c.l] (zext64 (c.l.scalar.truncate 32))

/-- BREV (R137). Reverses the bits. -/
def execBrev (pr : BitVec 2) (t1 : BitVec 9) (t0 : BitVec 9) (s : State) : Out :=
  s.fire (tForm .brev pr 1 t1 t0) plainNull fun c => c.scalarOut [c.l] (BitVec.ofNat 64 (brev64 c.l.scalar.toNat))

/-- BSWAP (R137). Reverses the bytes. -/
def execBswap (pr : BitVec 2) (t1 : BitVec 9) (t0 : BitVec 9) (s : State) : Out :=
  s.fire (tForm .bswap pr 1 t1 t0) plainNull fun c => c.scalarOut [c.l] (BitVec.ofNat 64 (bswap64 c.l.scalar.toNat))

/-- TEQ (R138). Compares for equality. -/
def execTeq (pr : BitVec 2) (w : BitVec 1) (t1 : BitVec 9) (t0 : BitVec 9) (s : State) : Out :=
  s.fire (tForm .teq pr 2 t1 t0) plainNull fun c => let n := aluWidth w
    c.test [c.l, c.r] (natOp n c.l.scalar == natOp n c.r.scalar)

/-- TNE (R138). Compares for inequality. -/
def execTne (pr : BitVec 2) (w : BitVec 1) (t1 : BitVec 9) (t0 : BitVec 9) (s : State) : Out :=
  s.fire (tForm .tne pr 2 t1 t0) plainNull fun c => let n := aluWidth w
    c.test [c.l, c.r] (natOp n c.l.scalar != natOp n c.r.scalar)

/-- TLT (R138). Signed less-than. -/
def execTlt (pr : BitVec 2) (w : BitVec 1) (t1 : BitVec 9) (t0 : BitVec 9) (s : State) : Out :=
  s.fire (tForm .tlt pr 2 t1 t0) plainNull fun c => let n := aluWidth w
    c.test [c.l, c.r] (decide (intOp n c.l.scalar < intOp n c.r.scalar))

/-- TLE (R138). Signed less-or-equal. -/
def execTle (pr : BitVec 2) (w : BitVec 1) (t1 : BitVec 9) (t0 : BitVec 9) (s : State) : Out :=
  s.fire (tForm .tle pr 2 t1 t0) plainNull fun c => let n := aluWidth w
    c.test [c.l, c.r] (decide (intOp n c.l.scalar ≤ intOp n c.r.scalar))

/-- TLTN (R138). Natural less-than. -/
def execTltn (pr : BitVec 2) (w : BitVec 1) (t1 : BitVec 9) (t0 : BitVec 9) (s : State) : Out :=
  s.fire (tForm .tltn pr 2 t1 t0) plainNull fun c => let n := aluWidth w
    c.test [c.l, c.r] (decide (natOp n c.l.scalar < natOp n c.r.scalar))

/-- TLEN (R138). Natural less-or-equal. -/
def execTlen (pr : BitVec 2) (w : BitVec 1) (t1 : BitVec 9) (t0 : BitVec 9) (s : State) : Out :=
  s.fire (tForm .tlen pr 2 t1 t0) plainNull fun c => let n := aluWidth w
    c.test [c.l, c.r] (decide (natOp n c.l.scalar ≤ natOp n c.r.scalar))

/-- TBIT (R138). Tests one bit of a. -/
def execTbit (pr : BitVec 2) (t1 : BitVec 9) (t0 : BitVec 9) (s : State) : Out :=
  s.fire (tForm .tbit pr 2 t1 t0) plainNull fun c => c.test [c.l, c.r] (bitAt c.l.scalar (numAt c.r.scalar 0 6))

/-- PAND (R139). AND of predicate masks. -/
def execPand (pr : BitVec 2) (t1 : BitVec 9) (t0 : BitVec 9) (s : State) : Out :=
  s.fire (tForm .pand pr 2 t1 t0) plainNull fun c => c.scalarOut [c.l, c.r] (BitVec.ofNat 64 (mask16 c.l &&& mask16 c.r))

/-- POR (R139). OR of predicate masks. -/
def execPor (pr : BitVec 2) (t1 : BitVec 9) (t0 : BitVec 9) (s : State) : Out :=
  s.fire (tForm .por pr 2 t1 t0) plainNull fun c => c.scalarOut [c.l, c.r] (BitVec.ofNat 64 (mask16 c.l ||| mask16 c.r))

/-- PXOR (R139). XOR of predicate masks. -/
def execPxor (pr : BitVec 2) (t1 : BitVec 9) (t0 : BitVec 9) (s : State) : Out :=
  s.fire (tForm .pxor pr 2 t1 t0) plainNull fun c => c.scalarOut [c.l, c.r] (BitVec.ofNat 64 (mask16 c.l ^^^ mask16 c.r))

/-- PNOT (R139). Complement of a 16-bit mask. -/
def execPnot (pr : BitVec 2) (t1 : BitVec 9) (t0 : BitVec 9) (s : State) : Out :=
  s.fire (tForm .pnot pr 1 t1 t0) plainNull fun c => c.scalarOut [c.l] (BitVec.ofNat 64 (0xFFFF - mask16 c.l))

/-- PANY (R139). Yields 1 if any mask bit is set. -/
def execPany (pr : BitVec 2) (t1 : BitVec 9) (t0 : BitVec 9) (s : State) : Out :=
  s.fire (tForm .pany pr 1 t1 t0) plainNull fun c => c.scalarOut [c.l] (BitVec.ofNat 64 (bit1 (mask16 c.l != 0)))

/-- PALL (R139). Yields 1 if all 16 mask bits are set. -/
def execPall (pr : BitVec 2) (t1 : BitVec 9) (t0 : BitVec 9) (s : State) : Out :=
  s.fire (tForm .pall pr 1 t1 t0) plainNull fun c => c.scalarOut [c.l] (BitVec.ofNat 64 (bit1 (mask16 c.l == 0xFFFF)))

/-- PCNT (R139). Counts the mask bits. -/
def execPcnt (pr : BitVec 2) (t1 : BitVec 9) (t0 : BitVec 9) (s : State) : Out :=
  s.fire (tForm .pcnt pr 1 t1 t0) plainNull fun c => c.scalarOut [c.l] (BitVec.ofNat 64 (popCount 16 (mask16 c.l)))

/-- PFIRST (R139). Index of the lowest set mask bit. -/
def execPfirst (pr : BitVec 2) (t1 : BitVec 9) (t0 : BitVec 9) (s : State) : Out :=
  s.fire (tForm .pfirst pr 1 t1 t0) plainNull fun c => c.scalarOut [c.l] (BitVec.ofNat 64 (((List.range 16).find? fun i => mask16 c.l / 2 ^ i % 2 == 1).getD 16))

/-- ADDI (R140). Adds an immediate. -/
def execAddi (pr : BitVec 2) (imm : BitVec 14) (t0 : BitVec 9) (s : State) : Out :=
  s.fire (iForm .addi pr 1 t0) plainNull fun c => let x := satSigned c.sat 64 (c.l.scalar.toInt + (c.imm imm).toInt)
    c.scalarOut [c.l] (BitVec.ofNat 64 x.1) (clampEv x.2)

/-- ADDIW (R140). 32-bit add of an immediate, sign-extended. -/
def execAddiw (pr : BitVec 2) (imm : BitVec 14) (t0 : BitVec 9) (s : State) : Out :=
  s.fire (iForm .addiw pr 1 t0) plainNull fun c => let x := satSigned c.sat 32 ((c.l.scalar.truncate 32).toInt + ((c.imm imm).truncate 32).toInt)
    c.scalarOut [c.l] (sext64 (BitVec.ofNat 32 x.1)) (clampEv x.2)

/-- ANDI (R140). AND with an immediate. -/
def execAndi (pr : BitVec 2) (imm : BitVec 14) (t0 : BitVec 9) (s : State) : Out :=
  s.fire (iForm .andi pr 1 t0) plainNull fun c => c.scalarOut [c.l] (c.l.scalar &&& c.immZ imm)

/-- ORI (R140). OR with an immediate. -/
def execOri (pr : BitVec 2) (imm : BitVec 14) (t0 : BitVec 9) (s : State) : Out :=
  s.fire (iForm .ori pr 1 t0) plainNull fun c => c.scalarOut [c.l] (c.l.scalar ||| c.immZ imm)

/-- XORI (R140). XOR with an immediate. -/
def execXori (pr : BitVec 2) (imm : BitVec 14) (t0 : BitVec 9) (s : State) : Out :=
  s.fire (iForm .xori pr 1 t0) plainNull fun c => c.scalarOut [c.l] (c.l.scalar ^^^ c.immZ imm)

/-- SHLI (R140). Shift left by an immediate. -/
def execShli (pr : BitVec 2) (imm : BitVec 14) (t0 : BitVec 9) (s : State) : Out :=
  s.fire (iForm .shli pr 1 t0) plainNull fun c => let x := satSigned c.sat 64 (c.l.scalar.toInt * 2 ^ numAt imm 0 6)
    c.scalarOut [c.l] (BitVec.ofNat 64 x.1) (clampEv x.2)

/-- SHRI (R140). Logical shift right by an immediate. -/
def execShri (pr : BitVec 2) (imm : BitVec 14) (t0 : BitVec 9) (s : State) : Out :=
  s.fire (iForm .shri pr 1 t0) plainNull fun c => c.scalarOut [c.l] (c.l.scalar >>> numAt imm 0 6)

/-- SRAI (R140). Arithmetic shift right by an immediate. -/
def execSrai (pr : BitVec 2) (imm : BitVec 14) (t0 : BitVec 9) (s : State) : Out :=
  s.fire (iForm .srai pr 1 t0) plainNull fun c => c.scalarOut [c.l] (c.l.scalar.sshiftRight (numAt imm 0 6))

/-- MULI (R140). Multiplies by an immediate. -/
def execMuli (pr : BitVec 2) (imm : BitVec 14) (t0 : BitVec 9) (s : State) : Out :=
  s.fire (iForm .muli pr 1 t0) plainNull fun c => let x := satSigned c.sat 64 (c.l.scalar.toInt * (c.imm imm).toInt)
    c.scalarOut [c.l] (BitVec.ofNat 64 x.1) (clampEv x.2)

/-- TEQI (R140). Equality with an immediate. -/
def execTeqi (pr : BitVec 2) (imm : BitVec 14) (t0 : BitVec 9) (s : State) : Out :=
  s.fire (iForm .teqi pr 1 t0) plainNull fun c => c.test [c.l] (c.l.scalar == c.imm imm)

/-- TNEI (R140). Inequality with an immediate. -/
def execTnei (pr : BitVec 2) (imm : BitVec 14) (t0 : BitVec 9) (s : State) : Out :=
  s.fire (iForm .tnei pr 1 t0) plainNull fun c => c.test [c.l] (c.l.scalar != c.imm imm)

/-- TLTI (R140). Signed less-than an immediate. -/
def execTlti (pr : BitVec 2) (imm : BitVec 14) (t0 : BitVec 9) (s : State) : Out :=
  s.fire (iForm .tlti pr 1 t0) plainNull fun c => c.test [c.l] (decide (c.l.scalar.toInt < (c.imm imm).toInt))

/-- TLEI (R140). Signed less-or-equal an immediate. -/
def execTlei (pr : BitVec 2) (imm : BitVec 14) (t0 : BitVec 9) (s : State) : Out :=
  s.fire (iForm .tlei pr 1 t0) plainNull fun c => c.test [c.l] (decide (c.l.scalar.toInt ≤ (c.imm imm).toInt))

/-- TLTNI (R140). Natural less-than an immediate. -/
def execTltni (pr : BitVec 2) (imm : BitVec 14) (t0 : BitVec 9) (s : State) : Out :=
  s.fire (iForm .tltni pr 1 t0) plainNull fun c => c.test [c.l] (decide (c.l.scalar.toNat < (c.imm imm).toNat))

/-- MOVI (R140). Yields an immediate. -/
def execMovi (pr : BitVec 2) (imm : BitVec 14) (t0 : BitVec 9) (s : State) : Out :=
  s.fire (iForm .movi pr 0 t0) plainNull fun c => c.scalarOut [] (c.imm imm)

/-- The FP32 pattern of MOVIF: the upper 14 bits of a BF16 pattern, or the low 32 bits of a wide field (R64). -/
def movifBits (words : List W32) (i : Nat) (imm : BitVec 14) : W32 :=
  match extOf words i with
  | some e => if xKind e = 0 then (xPay e ++ imm).truncate 32 else imm ++ (0 : BitVec 18)
  | none => imm ++ (0 : BitVec 18)

/-- MOVIF (R141). Yields an FP32 constant from a BF16-style or wide immediate. -/
def execMovif (pr : BitVec 2) (imm : BitVec 14) (t0 : BitVec 9) (s : State) : Out :=
  s.fire (iForm .movif pr 0 t0) plainNull fun c => c.scalarOut [] (zext64 (movifBits c.x.blk.words c.idx imm))


end Sys2Proof.Machine
end

