-- ==== Sys2Proof/Machine/Num.lean ====
section
/-! DEFINITION. Number formats and the one rounding of R167, on exact values (R155 to R171). -/

namespace Sys2Proof.Machine

/-- A floating format (R155): width, mantissa bits, exponent bits, bias; `top`: the codes of an all-ones exponent are
finite but the last (E4M3). -/
structure Fmt where
  w : Nat
  p : Nat
  eb : Nat
  bias : Nat
  e4m3 : Bool
deriving DecidableEq, Repr

def f64 : Fmt := { w := 64, p := 52, eb := 11, bias := 1023, e4m3 := false }
def f32 : Fmt := { w := 32, p := 23, eb := 8, bias := 127, e4m3 := false }
def f16 : Fmt := { w := 16, p := 10, eb := 5, bias := 15, e4m3 := false }
def bf16 : Fmt := { w := 16, p := 7, eb := 8, bias := 127, e4m3 := false }
def e4m3 : Fmt := { w := 8, p := 3, eb := 4, bias := 7, e4m3 := true }
def e5m2 : Fmt := { w := 8, p := 2, eb := 5, bias := 15, e4m3 := false }

/-- The code of the largest finite value (R155). -/
def Fmt.maxCode (f : Fmt) : Nat := if f.e4m3 then 0x7E else (2 ^ f.eb - 1) * 2 ^ f.p - 1
/-- The code of +∞; E4M3 has none. -/
def Fmt.infCode (f : Fmt) : Nat := (2 ^ f.eb - 1) * 2 ^ f.p
/-- The canonical quiet NaN (R162). -/
def Fmt.nan (f : Fmt) : Nat := if f.e4m3 then 0x7F else f.infCode + 2 ^ (f.p - 1)
/-- Exponent of the unit of the subnormals. -/
def Fmt.qmin (f : Fmt) : Int := 1 - (f.bias : Int) - f.p
/-- Sign bit placed before a magnitude code. -/
def Fmt.sign (f : Fmt) (neg : Bool) (code : Nat) : Nat := code + bit1 neg * 2 ^ (f.w - 1)

/-- What a code stands for: NaN (signalling or not), an infinity, or ± m × 2^e. -/
inductive FNum where
  | nan (signalling : Bool)
  | inf (neg : Bool)
  | fin (neg : Bool) (m : Nat) (e : Int)
deriving DecidableEq, Repr, Inhabited

/-- The value of a code (R155 to R157). E4M3 and E5M2 have no signalling NaN. -/
def Fmt.decode (f : Fmt) (code : Nat) : FNum :=
  let neg := code / 2 ^ (f.w - 1) % 2 == 1
  let mag := code % 2 ^ (f.w - 1)
  let ex := mag / 2 ^ f.p
  let m := mag % 2 ^ f.p
  if f.e4m3 then
    if mag = 0x7F then .nan false
    else if ex = 0 then .fin neg m f.qmin else .fin neg (m + 2 ^ f.p) (f.qmin + ex - 1)
  else if ex = 2 ^ f.eb - 1 then
    if m = 0 then .inf neg else .nan (f.w != 8 && m < 2 ^ (f.p - 1))
  else if ex = 0 then .fin neg m f.qmin
  else .fin neg (m + 2 ^ f.p) (f.qmin + ex - 1)

def FNum.isNan : FNum → Bool | .nan _ => true | _ => false
def FNum.isSnan : FNum → Bool | .nan b => b | _ => false

/-- An exact value ± (m + ε) × 2^e, with 0 < ε < 1 when `sticky` and ε = 0 otherwise. -/
structure Ex where
  neg : Bool
  m : Nat
  e : Int
  sticky : Bool := false
deriving DecidableEq, Repr

def Ex.isZero (x : Ex) : Bool := x.m == 0 && !x.sticky
def Ex.ofInt (i : Int) (e : Int) : Ex := { neg := i < 0, m := i.natAbs, e := e }

/-- The signed integer of an exact value at unit 2^e, for e at or below its own exponent. -/
def Ex.at (x : Ex) (e : Int) : Int :=
  let v : Int := (x.m * 2 ^ (x.e - e).toNat : Nat)
  if x.neg then -v else v

/-- The sign of an exact zero sum (R167): the common sign of zero addends, else +0, or −0 under RDN. -/
def zeroSign (mode : Nat) (a b : Ex) : Bool :=
  if a.isZero && b.isZero && a.neg == b.neg then a.neg else mode == 4

/-- The exact sum of two exact values. -/
def Ex.add (mode : Nat) (a b : Ex) : Ex :=
  let e := if a.e ≤ b.e then a.e else b.e
  let s := a.at e + b.at e
  if s = 0 then { neg := zeroSign mode a b, m := 0, e := e } else Ex.ofInt s e
/-- The exact product. -/
def Ex.mul (a b : Ex) : Ex := { neg := a.neg != b.neg, m := a.m * b.m, e := a.e + b.e }
/-- The quotient with at least 160 significant bits and a sticky remainder; `b` is not zero. -/
def Ex.div (a b : Ex) : Ex :=
  let k := 160 + Nat.log2 b.m
  let n := a.m * 2 ^ k
  { neg := a.neg != b.neg, m := n / b.m, e := a.e - b.e - k, sticky := n % b.m != 0 }
/-- Integer square root, one bit of the result at a time. -/
def isqrtFrom (n : Nat) : Nat → Nat → Nat
  | 0, r => r
  | b + 1, r => let t := r + 2 ^ b; isqrtFrom n b (if t * t ≤ n then t else r)
def isqrt (n : Nat) : Nat := isqrtFrom n (Nat.log2 n / 2 + 1) 0
/-- The square root of a nonnegative exact value, at least 160 significant bits. -/
def Ex.sqrt (a : Ex) : Ex :=
  let k : Nat := 320 + (if (a.e % 2 : Int) = 0 then 0 else 1)
  let n := a.m * 2 ^ k
  let r := isqrt n
  { neg := a.neg, m := r, e := (a.e - k) / 2, sticky := r * r != n }
/-- 1 ÷ √a for a positive exact value. -/
def Ex.rsqrt (a : Ex) : Ex :=
  let odd := (a.e % 2 : Int) ≠ 0
  let m := if odd then a.m * 2 else a.m
  let e := if odd then a.e - 1 else a.e
  let k := 2 * (200 + Nat.log2 m)
  let n := 2 ^ k / m
  let r := isqrt n
  { neg := false, m := r, e := -(e / 2) - (k / 2 : Nat), sticky := r * r != n || 2 ^ k % m != 0 }

/-- The choice of R167 between lo and hi. `half`: f against 1/2; `f32`: floor(f × 2^32); `even`: lo's last code bit is 0. -/
def roundsUp (mode : Nat) (neg : Bool) (half : Ordering) (frac : Nat) (even : Bool) (draw : Nat) : Bool :=
  match mode with
  | 1 => match half with | .gt => true | .lt => false | .eq => !even
  | 2 => false
  | 3 => !neg
  | 4 => neg
  | _ => draw < frac

/-- A magnitude in units of 2^q: whole units, how the rest compares with a half, floor(rest × 2^32), exact or not. -/
def unitsOf (x : Ex) (q : Int) : Nat × Ordering × Nat × Bool :=
  if q ≤ x.e then (x.m * 2 ^ (x.e - q).toNat, .lt, 0, !x.sticky)
  else
    let d := (q - x.e).toNat
    let k := x.m / 2 ^ d
    let r := x.m % 2 ^ d
    let half := match compare (2 * r) (2 ^ d) with | .eq => if x.sticky then .gt else .eq | o => o
    (k, half, r * 2 ^ 32 / 2 ^ d, r == 0 && !x.sticky)

/-- What a result beyond the largest finite value becomes (R168). -/
inductive Over where
  | plain
  | saturate
deriving DecidableEq, Repr

def Fmt.overflow (f : Fmt) (o : Over) (neg : Bool) : Nat × List Nat :=
  match o with
  | .saturate => (f.sign neg f.maxCode, [evClamp])
  | .plain => if f.e4m3 then (f.nan, [evOverflow]) else (f.sign neg f.infCode, [evOverflow])

/-- Rounds an exact value into a format (R167, R168): the code and the events. -/
def Fmt.round (f : Fmt) (mode draw : Nat) (o : Over) (x : Ex) : Nat × List Nat :=
  if x.isZero then (f.sign x.neg 0, [])
  else
    let top : Int := x.e + Nat.log2 x.m
    let q := if top - f.p ≤ f.qmin then f.qmin else top - f.p
    let (k, half, frac, exact) := unitsOf x q
    let code := (q - f.qmin).toNat * 2 ^ f.p + k
    let tiny := top < f.qmin + f.p
    if f.e4m3 && (0x7F ≤ code || (code == 0x7E && !exact)) then
      -- between 448 and the overflow point 512, or beyond it
      if 0x80 ≤ code then
        if roundsUp mode x.neg .gt (2 ^ 32) true draw then f.overflow o x.neg else (f.sign x.neg 0x7E, [])
      else
        let u := code - 0x7E
        let half' := if u = 1 then (if exact then Ordering.eq else .gt) else .lt
        if roundsUp mode x.neg half' ((u * 2 ^ 32 + frac) / 2) false draw then f.overflow o x.neg else (f.sign x.neg 0x7E, [])
    else if f.maxCode < code then
      if roundsUp mode x.neg .gt (2 ^ 32) true draw then f.overflow o x.neg else (f.sign x.neg f.maxCode, [])
    else if exact then (f.sign x.neg code, [])
    else
      let r := if roundsUp mode x.neg half frac (code % 2 == 0) draw then code + 1 else code
      if f.maxCode < r then f.overflow o x.neg
      else (f.sign x.neg r, if tiny then [evUnderflow] else [])

/-- Rounds to an integer in the range `[lo, hi]` (R171); the limit with the event outside it. -/
def roundInt (mode draw : Nat) (lo hi : Int) (ev : Nat) (x : Ex) : Int × List Nat :=
  let (k, half, frac, exact) := unitsOf x 0
  let n : Nat := if !exact && roundsUp mode x.neg half frac (k % 2 == 0) draw then k + 1 else k
  let v : Int := if x.neg then -(n : Int) else n
  if v < lo then (lo, [ev]) else if hi < v then (hi, [ev]) else (v, [])

/-- Rounds a magnitude on a grid of values in halves (R158): E2M1, POW2 and HYBRID. `cells` are the eight magnitudes
times 2, `above` the overflow point times 2. The code of the magnitude and whether it was clamped. -/
def gridRound (mode draw : Nat) (cells : List Nat) (above : Nat) (x : Ex) : Nat × Bool :=
  let (k, _, _, exact) := unitsOf x (-1)
  let i := ((List.range 8).filter fun j => (cells[j]?.getD 0) ≤ k).length - 1
  let lo := cells[i]?.getD 0
  if exact && lo == k then (i, false)
  else
    let hi := (cells[i + 1]?).getD above
    let g := hi - lo
    let num := x.at (if x.e ≤ -1 then x.e else -1)
    let e := if x.e ≤ -1 then x.e else -1
    let n := (num.natAbs : Int) - (lo * 2 ^ (-1 - e).toNat : Nat)
    let d := g * 2 ^ (-1 - e).toNat
    let half := compare (2 * n.toNat) d
    if roundsUp mode x.neg half (n.toNat * 2 ^ 32 / d) (i % 2 == 0) draw then (if i = 7 then (7, true) else (i + 1, false))
    else (i, false)

/-- The exact value of a finite number. -/
def FNum.ex : FNum → Ex
  | .fin neg m e => { neg := neg, m := m, e := e }
  | _ => { neg := false, m := 0, e := 0 }

/-- Order of two numbers that are not NaN; −0 equals +0. -/
def FNum.cmp (a b : FNum) : Ordering :=
  match a, b with
  | .inf x, .inf y => if x == y then .eq else if x then .lt else .gt
  | .inf x, _ => if x then .lt else .gt
  | _, .inf y => if y then .gt else .lt
  | x, y =>
    let p := x.ex; let q := y.ex
    let e := if p.e ≤ q.e then p.e else q.e
    compare (p.at e) (q.at e)

/-- Invalid for a signalling operand (R163). -/
def snanEv (xs : List FNum) : List Nat := if xs.any FNum.isSnan then [evInvalid] else []

/-- The sum of two numbers (R163, R167), rounded. -/
def Fmt.addNum (f : Fmt) (mode draw : Nat) (a b : FNum) : Nat × List Nat :=
  if a.isNan || b.isNan then (f.nan, snanEv [a, b])
  else match a, b with
    | .inf x, .inf y => if x == y then (f.sign x f.infCode, []) else (f.nan, [evInvalid])
    | .inf x, _ => (f.sign x f.infCode, [])
    | _, .inf y => (f.sign y f.infCode, [])
    | x, y => f.round mode draw .plain (Ex.add mode x.ex y.ex)

def FNum.neg : FNum → FNum
  | .nan s => .nan s
  | .inf b => .inf !b
  | .fin b m e => .fin (!b) m e
def FNum.isNeg : FNum → Bool | .nan _ => false | .inf b => b | .fin b _ _ => b
def FNum.isZero : FNum → Bool | .fin _ 0 _ => true | _ => false
def FNum.isInf : FNum → Bool | .inf _ => true | _ => false

/-- a × b + c with one rounding (R188). -/
def Fmt.fma (f : Fmt) (mode draw : Nat) (a b c : FNum) (negProd negAdd : Bool) : Nat × List Nat :=
  let c := if negAdd then c.neg else c
  let bad := (a.isInf && b.isZero) || (a.isZero && b.isInf)
  if bad then (f.nan, [evInvalid])
  else if a.isNan || b.isNan || c.isNan then (f.nan, snanEv [a, b, c])
  else
    let ps := (a.isNeg != b.isNeg) != negProd
    if a.isInf || b.isInf then
      match c with
      | .inf y => if y == ps then (f.sign ps f.infCode, []) else (f.nan, [evInvalid])
      | _ => (f.sign ps f.infCode, [])
    else match c with
      | .inf y => (f.sign y f.infCode, [])
      | _ => f.round mode draw .plain (Ex.add mode { (Ex.mul a.ex b.ex) with neg := ps } c.ex)

/-- minimumNumber and maximumNumber (R185): −0 < +0; one NaN gives the other operand. -/
def Fmt.minMax (f : Fmt) (isMax : Bool) (x y : Nat) : Nat × List Nat :=
  let a := f.decode x; let b := f.decode y
  let ev := snanEv [a, b]
  if a.isNan && b.isNan then (f.nan, ev)
  else if a.isNan then (y, ev)
  else if b.isNan then (x, ev)
  else
    let aFirst := match a.cmp b with | .lt => true | .gt => false | .eq => a.isNeg || !b.isNeg
    ((if aFirst == isMax then y else x), ev)

end Sys2Proof.Machine
end

