-- ==== Sys2Proof/Machine/Caps.lean ====
section
/-! DEFINITION. The capability operations (R142 to R145), in steward mode too (R428). -/

namespace Sys2Proof.Machine

/-- "Bounded" and "all" kinds of R142; kinds 13 to 15 are reserved (R37). -/
def boundedKind (k : Nat) : Bool := (1 ≤ k && k ≤ 5) || k == 10 || k == 11
def hasBounds (k : Nat) : Bool := boundedKind k || k == 12

/-- Null where lanes 0 to 3 of an operand are (R142). -/
def Ctx.capValid (c : Ctx) (two : Bool) : BitVec 16 := if c.l.validTo 4 && (!two || c.r.validTo 4) then allLanes else 0xFFF0
/-- The frame of every capability operation (R142). BROKEN operands give BROKEN, of bits that the spec does not state (log 23). `need` is
what the operation asks of each operand by itself: of its tag, and of the capability in it where its lanes 0 to 3 are valid (log 26).
Null lanes 0 to 3 of an operand then give null lanes of tag `tag`. Otherwise the result is `f`. -/
def Ctx.capOp (c : Ctx) (two : Bool) (tag : Tag) (need : Except Trap Unit) (f : Except Trap Value) : Except Trap Fired :=
  let valid := c.capValid two
  if brokenOf (if two then [c.l, c.r] else [c.l]) == .broken then
    c.value (c.masked { bits := Config.freeBits c.s.tick, valid := valid, tag := .broken, null := false })
  else match need with
    | .error t => .error t
    | .ok () =>
      if valid != allLanes then c.value (c.masked { bits := 0, valid := valid, tag := tag, null := false })
      else match f with
        | .error t => .error t
        | .ok v => c.value (c.masked v)
/-- Nothing is asked of the tags. -/
def anyTag : Except Trap Unit := .ok ()
/-- A CAP operand of an allowed kind, or TAG. -/
def capOf (v : Value) (allowed : Nat → Bool) : Except Trap Cap :=
  if v.tag == .cap && allowed (capKind v.cap) then .ok v.cap else .error (trapCap tTag v.cap)
/-- A capability of an allowed kind is asked for in L (R142); null lanes 0 to 3 show no kind. -/
def Ctx.needCap (c : Ctx) (allowed : Nat → Bool) : Except Trap Unit :=
  if c.l.tag == .cap && (!c.l.validTo 4 || allowed (capKind c.l.cap)) then .ok () else .error (trapCap tTag c.l.cap)
/-- A capability with a new address; leaving the region clears the tag (R41). -/
def moveCap (keep : Bool) (c : Cap) (a : Word) : Value :=
  let lo := capRegion c
  let v := capValue (capWithAddr c a)
  if keep || (lo ≤ a.toNat && a.toNat < lo + 2 ^ (capE c + 13)) then v else { v with tag := .data }

/-- CADD (R143). -/
def execCadd (pr : BitVec 2) (t1 t0 : BitVec 9) (s : State) : Out :=
  s.fire (tForm .cadd pr 2 t1 t0) plainNull fun c => c.capOp true .cap (c.needCap boundedKind) (do
    let cap ← capOf c.l boundedKind
    return moveCap false cap (capAddr cap + c.r.scalar))
/-- CADDI (R143). -/
def execCaddi (pr : BitVec 2) (imm : BitVec 14) (t0 : BitVec 9) (s : State) : Out :=
  s.fire (iForm .caddi pr 1 t0) plainNull fun c => c.capOp false .cap (c.needCap boundedKind) (do
    let cap ← capOf c.l boundedKind
    return moveCap false cap (capAddr cap + c.imm imm))
/-- The kinds that CSETA takes (R143, R428). -/
def Ctx.setaKind (c : Ctx) (k : Nat) : Bool := if c.steward then 1 ≤ k && k ≤ 12 else boundedKind k
/-- CSETA (R143); in steward mode every kind from 1 to 12, and the tag stays (R428). -/
def execCseta (pr : BitVec 2) (t1 t0 : BitVec 9) (s : State) : Out :=
  s.fire (tForm .cseta pr 2 t1 t0) plainNull fun c => c.capOp true .cap (c.needCap c.setaKind) (do
    let cap ← capOf c.l c.setaKind
    return moveCap c.steward cap c.r.scalar)
/-- The bounds of CSETB and CSETBX (R144). -/
def setBounds (steward exact : Bool) (cap : Cap) (n : Word) : Except Trap Value :=
  let lo := (capAddr cap).toNat
  let hi := lo + n.toNat
  if 2 ^ 64 - 1 < hi then .error (trapCap tBounds cap)
  else match findBounds lo hi 52 0 with
    | none => .error (trapCap tBounds cap)
    | some (e, lo', hi') =>
      if exact && (lo' != lo || hi' != hi) then .error (trapCap tBounds cap)
      else if !steward && (lo' < capBase cap || capLimit cap < hi') then .error (trapCap tBounds cap)
      else
        let rg := lo / 2 ^ (e + 13) * 2 ^ (e + 13)
        .ok (capValue (setBits (setBits (setBits cap 90 6 e) 77 13 ((lo' - rg) / 2 ^ e)) 64 13 ((hi' - lo') / 2 ^ e)))
/-- CSETB (R144). -/
def execCsetb (pr : BitVec 2) (t1 t0 : BitVec 9) (s : State) : Out :=
  s.fire (tForm .csetb pr 2 t1 t0) plainNull fun c => c.capOp true .cap (c.needCap boundedKind) (do
    let cap ← capOf c.l boundedKind
    setBounds c.steward false cap c.r.scalar)
/-- CSETBX (R144): as CSETB, but exact. -/
def execCsetbx (pr : BitVec 2) (t1 t0 : BitVec 9) (s : State) : Out :=
  s.fire (tForm .csetbx pr 2 t1 t0) plainNull fun c => c.capOp true .cap (c.needCap boundedKind) (do
    let cap ← capOf c.l boundedKind
    setBounds c.steward true cap c.r.scalar)
/-- CPERM (R143); in steward mode it sets permissions, space and kind (R428). -/
def execCperm (pr : BitVec 2) (t1 t0 : BitVec 9) (s : State) : Out :=
  s.fire (tForm .cperm pr 2 t1 t0) plainNull fun c => c.capOp true .cap (c.needCap (· ≤ 12)) (do
    let cap ← capOf c.l (· ≤ 12)
    let b := c.r.scalar
    if c.steward then
      let k := numAt b 28 4
      if 13 ≤ k then throw (trapCap tTag cap)
      let w := setBits (setBits cap 112 12 (numAt b 0 12)) 96 16 (numAt b 12 16)
      return capValue (if k = 0 then w else setBits w 124 4 k)
    else return capValue (setBits cap 112 12 ((numAt cap 112 12) &&& (numAt b 0 12))))
/-- The seal permission of R (R145): a DATA value carries none, and null lanes 0 to 3 show none or all. -/
def needSeal (v : Value) : Except Trap Unit :=
  if v.tag == .cap && (!v.validTo 4 || capHas v.cap pSeal) then .ok () else .error (trapCap tPerm v.cap)
/-- What CSEAL asks of its operands, in the order of R119: L's kind, then the permissions of both, then L's alignment and bounds. -/
def Ctx.needToSeal (c : Ctx) : Except Trap Unit := do
  c.needCap (· == 11)
  let own := c.l.validTo 4
  if own && !capHas c.l.cap pExec then throw (trapCap tPerm c.l.cap)
  needSeal c.r
  if own && (capAddr c.l.cap).toNat % 32 != 0 then throw { code := tAlign, lo := capAddr c.l.cap, hi := 32 }
  if own && !capInBounds c.l.cap (capAddr c.l.cap).toNat 32 then throw (trapCap tBounds c.l.cap)
/-- CSEAL (R145). -/
def execCseal (pr : BitVec 2) (t1 t0 : BitVec 9) (s : State) : Out :=
  s.fire (tForm .cseal pr 2 t1 t0) plainNull fun c => c.capOp true .cap c.needToSeal
    (.ok (capValue (setBits (setBits c.l.cap 124 4 12) 112 12 (2 ^ 6 + (if capHas c.l.cap pGlobal then 2 else 0)))))
/-- What CUNSEAL asks of its operands: L's kind, then R's permission. -/
def Ctx.needToUnseal (c : Ctx) : Except Trap Unit := do
  c.needCap (· == 12)
  needSeal c.r
/-- CUNSEAL (R145). -/
def execCunseal (pr : BitVec 2) (t1 t0 : BitVec 9) (s : State) : Out :=
  s.fire (tForm .cunseal pr 2 t1 t0) plainNull fun c => c.capOp true .cap c.needToUnseal (do
    let a := (capAddr c.l.cap).toNat
    match boundedCap 11 0x800 (capSpace c.l.cap) a (a + 32) with
    | some k => return capValue k
    | none => throw (trapCap tBounds c.l.cap))
/-- A scalar result of a capability (R143). -/
def Ctx.capGet (c : Ctx) (f : Cap → Nat) : Except Trap Fired :=
  c.capOp false .data (c.needCap (· ≤ 12)) (do
    let cap ← capOf c.l (· ≤ 12)
    return dataScalar (BitVec.ofNat 64 (f cap)))
/-- CGETA (R143). -/
def execCgeta (pr : BitVec 2) (t1 t0 : BitVec 9) (s : State) : Out :=
  s.fire (tForm .cgeta pr 1 t1 t0) plainNull fun c => c.capGet fun k => (capAddr k).toNat
/-- CGETB (R143): the base; 0 for unbounded kinds. -/
def execCgetb (pr : BitVec 2) (t1 t0 : BitVec 9) (s : State) : Out :=
  s.fire (tForm .cgetb pr 1 t1 t0) plainNull fun c => c.capGet fun k => if hasBounds (capKind k) then capBase k else 0
/-- CGETL (R143): limit − base. -/
def execCgetl (pr : BitVec 2) (t1 t0 : BitVec 9) (s : State) : Out :=
  s.fire (tForm .cgetl pr 1 t1 t0) plainNull fun c => c.capGet fun k => if hasBounds (capKind k) then capLimit k - capBase k else 0
/-- CGETP (R143). -/
def execCgetp (pr : BitVec 2) (t1 t0 : BitVec 9) (s : State) : Out :=
  s.fire (tForm .cgetp pr 1 t1 t0) plainNull fun c => c.capGet fun k => numAt k 112 12
/-- CGETK (R143). -/
def execCgetk (pr : BitVec 2) (t1 t0 : BitVec 9) (s : State) : Out :=
  s.fire (tForm .cgetk pr 1 t1 t0) plainNull fun c => c.capGet capKind
/-- CTAGT (R143): 1 for CAP, 0 for DATA. -/
def execCtagt (pr : BitVec 2) (t1 t0 : BitVec 9) (s : State) : Out :=
  s.fire (tForm .ctagt pr 1 t1 t0) plainNull fun c => c.capOp false .data anyTag (.ok (dataScalar (if c.l.tag == .cap then 1 else 0)))
/-- CSUB (R143): addresses or scalars, modulo 2^64. -/
def execCsub (pr : BitVec 2) (t1 t0 : BitVec 9) (s : State) : Out :=
  s.fire (tForm .csub pr 2 t1 t0) plainNull fun c => c.capOp true .data anyTag (.ok (dataScalar (c.l.scalar - c.r.scalar)))
/-- CEQ (R143). -/
def execCeq (pr : BitVec 2) (t1 t0 : BitVec 9) (s : State) : Out :=
  s.fire (tForm .ceq pr 2 t1 t0) plainNull fun c =>
    c.capOp true .data anyTag (.ok (dataScalar (if c.l.tag == c.r.tag && c.l.cap == c.r.cap then 1 else 0)))
/-- CCLR (R143): the same 512 bits, DATA; lanes 0 to 3 are null together (R142). -/
def execCclr (pr : BitVec 2) (t1 t0 : BitVec 9) (s : State) : Out :=
  s.fire (tForm .cclr pr 1 t1 t0) plainNull fun c =>
    c.value (c.masked { c.l with valid := if c.l.validTo 4 then c.l.valid else c.l.valid &&& 0xFFF0, tag := if c.l.tag == .broken then .broken else .data })

end Sys2Proof.Machine
end

