-- ==== Sys2Proof/Machine/Failed.lean ====
section
/-! DEFINITION. Reply entries that wait (R407), the service log, and what a failed unit reports (R458, R463, R464). -/

namespace Sys2Proof.Machine

/-- The reply entry of a SEND to a reply queue waits for its turn (R407). -/
def State.queueReply (s : State) (lodging queue kind sender req : Nat) (body : V512) : State :=
  s.updLodging lodging fun l => { l with replies := mapUpd l.replies queue fun r => { r with waiting := r.waiting ++ [(kind, sender, req, body)] } }
/-- An entry of the service log: 0 for a start, 1 for a FULFIL, with the lodging, the launch or claim number and the cycle (R464). -/
def Core.logEntry (c : Core) (kind : Nat) (number cycle : Word) : Core := { c with log := (c.log ++ [(kind, c.lodging, number, cycle)]).drop (c.log.length + 1 - 1024) }
/-- A list cut into pieces of `n`. -/
def pieces {α : Type} (n : Nat) (l : List α) : List (List α) := (List.range ((l.length + n - 1) / n)).map fun i => (l.drop (n * i)).take n
/-- Whether the suspect window reaches back past the oldest log entry. -/
def Core.truncated (c : Core) (unit : Nat) : Bool :=
  c.log.length == 1024 && (match c.log.head? with | some e => (mapGet c.lastPass unit).toNat < e.2.2.2.toNat | none => false)
/-- Launches, or claims, of a lodging in a core's suspect window (R464). -/
def Core.suspects (c : Core) (unit lodging kind : Nat) : List Word :=
  let inside := c.log.filter fun e => e.1 == kind && e.2.1 == lodging && (c.truncated unit || (mapGet c.lastPass unit).toNat ≤ e.2.2.2.toNat)
  let before := if kind = 0 then ((mapGet c.atPass unit).filter fun e => e.1 == lodging).map fun e => e.2.zeroExtend 64 else []
  (before ++ inside.map fun e => e.2.2.1).eraseDups
/-- One entry of a report: the fields of R464. -/
def reportBody (lodging unit router entries index section_ : Nat) (trunc : Bool) (pass fail : Word) (size : Nat) (items : List Word) : V512 :=
  BitVec.ofNat 512 (lodging + (1 + 128 * bit1 trunc) * 2 ^ 16 + unit % 256 * 2 ^ 24 + router * 2 ^ 32 + (index % 128 + 128 * section_) * 2 ^ 48 + entries % 256 * 2 ^ 56
    + pass.toNat * 2 ^ 64 + fail.toNat * 2 ^ 128
    + ((List.range items.length).foldl (fun n i => n + ((items[i]?.getD 0).toNat % 2 ^ (8 * size)) * 2 ^ (8 * size * i)) 0) * 2 ^ 192)
/-- The suspect window of a core for one lodging, up to a cycle, as lodging events of its reply queue 0. -/
def State.report (s : State) (r unit code : Nat) (upTo : Word) (lodging : Nat) : State :=
  let c := s.core r
  let ls := (pieces 10 (c.suspects unit lodging 0)).map fun l => (0, l)
  let ks := (pieces 5 (c.suspects unit lodging 1)).map fun l => (1, l)
  let all := ls ++ ks
  (List.range all.length).foldl (fun s i =>
    let e := all[i]?.getD (0, [])
    s.queueReply lodging 0 3 0xFFF 0 (reportBody lodging code r all.length i e.1 (c.truncated unit) (mapGet c.lastPass unit) upTo (if e.1 = 0 then 4 else 8) e.2)) s
/-- Lodgings concerned in a suspect window. -/
def Core.concerned (c : Core) (unit : Nat) : List Nat := ((c.log.map fun e => e.2.1) ++ (mapGet c.atPass unit).map Prod.fst).eraseDups
/-- A unit fails: the cycle is recorded, its core is disabled as a whole, and every lodging concerned is told; `code` names the unit in the
report. -/
def State.failUnit (s : State) (r unit code : Nat) : State :=
  let ls := (s.core r).concerned unit
  let s := s.updCore r fun c => { c with off := true, failed := mapSet c.failed unit true, failedAt := mapSet c.failedAt unit (s.cycle, code) }
  ls.foldl (fun s l => s.report r unit code s.cycle l) s
/-- A failed core is excluded: blocks that it has committed since have lengthened its units' suspect windows, and these are told as they now
stand (R463, log 59). -/
def State.reportExcluded (s : State) (r : Nat) : State :=
  let c := s.core r
  let late := (mapKeys c.failed).filter fun u => (mapGet c.failedAt u).1.toNat < c.suspectTo.toNat
  (late.foldl (fun s u => ((s.core r).concerned u).foldl (fun s l => s.report r u (mapGet c.failedAt u).2 c.suspectTo l) s) s).updCore r fun c => { c with suspectTo := 0 }

end Sys2Proof.Machine
end

