-- ==== Sys2Proof/Machine/Control.lean ====
section
/-! DEFINITION. Moving values, leaving a block, and what an instruction that consumes an uncorrectable error does
(R59, R75, R120 to R132, R450, R454). -/

namespace Sys2Proof.Machine

/-- A block restarts from its first instruction without a trap; event 10 counts it (R36, R75). -/
def State.restart (s : State) (r k : Nat) : State :=
  ((s.release r k).countBlock r k 10 1).updSlot r k fun x => { x with blk := default }
/-- A block of the region has committed: a live-in register that it has written keeps what overwrote it at a restart. DEDUCED (log 69): R454
restores a checkpoint, and by R455 a program that breaks its condition restarts from the overwritten value. -/
def Region.overwritten (g : Region) (ws : Map RegDone) : Region :=
  { g with saved := g.saved.filter fun e => match mapGet ws e.1 with | .value _ => false | _ => true }
/-- The registers of a checkpoint can be restored (R454). -/
def Region.sound (g : Region) : Bool := g.saved.all fun e => e.2.poison == 0
/-- What follows an uncorrectable error that instruction `i` has consumed (R75, R454): the block restarts once, and its open region once; the next error
before the region closes, or one in the checkpoint, faults UNCORRECTABLE. -/
def State.rerun (s : State) (r k i : Nat) : State :=
  let x := s.slot r k
  if x.region.isOpen && x.region.restarted then s.takeTrap r k (trap tUncorrectable) (BitVec.ofNat 32 i) 0
  else if !x.retried then (s.restart r k).updSlot r k fun x => { x with retried := true }
  else if x.region.isOpen && x.region.sound then
    ((s.release r k).countBlock r k 11 1).updSlot r k fun x =>
      { x with blk := default, retried := false, pc := x.region.first, regs := x.region.saved.foldl (fun m e => mapSet m e.1 e.2) x.regs,
               region := { x.region with restarted := true, again := true } }
  else s.takeTrap r k (trap tUncorrectable) (BitVec.ofNat 32 i) 0
/-- An uncorrectable error consumed by instruction `i` (R75, R463). -/
def State.consumeBad (s : State) (r k i unit : Nat) : State := (s.noteError r unit).rerun r k i
/-- SEC-DED repairs a register before READ fires (R450); event 8 counts each word. -/
def State.repairReg (s : State) (r k g : Nat) : State :=
  let n := popCount16 (mapGet (s.slot r k).blk.regs g).corr
  (s.count r 8 n).updSlot r k fun x =>
    { x with regs := mapUpd x.regs g fun y => { y with corr := 0 },
             blk := { x.blk with regs := mapUpd x.blk.regs g fun y => { y with corr := 0 } } }
where popCount16 (m : BitVec 16) : Nat := ((List.range 16).filter fun i => bitAt m i).length

/-- READ (R120). Delivers a register's contents as they stood at admission. -/
def execRead (_e : BitVec 1) (reg : BitVec 6) (t1 t0 : BitVec 9) (s : State) : Out :=
  let f : Form := { pr := 0, arity := 0, t0 := t0, t1 := t1, row := .read }
  match s.ctx f with
  | some (c, _) =>
    let g := mapGet c.x.blk.regs reg.toNat
    if g.poison = 0 ∧ g.corr ≠ 0 then .next (s.repairReg c.core c.slot reg.toNat)
    else s.fire f plainNull fun c =>
      if g.poison = 0 then c.value g.value
      else c.silent (s.consumeBad c.core c.slot c.idx registerFile)
  | none => .next s

/-- The router next to a compute core through a port, if any (R13, R35). -/
def neighbour (r p : Nat) : Option Nat :=
  if 4096 ≤ r then none
  else match p with
    | 0 => if 128 ≤ r then some (r - 128) else none
    | 1 => if r % 128 < 127 then some (r + 1) else none
    | 2 => if r + 128 < 4096 then some (r + 128) else none
    | _ => if 0 < r % 128 then some (r - 1) else none
/-- The port of the neighbour that a word enters (R35). -/
def facing (p : Nat) : Nat := (p + 2) % 4
/-- A neighbour of the same lodging whose core is enabled (R36). -/
def State.portTo (s : State) (r p : Nat) : Option Nat :=
  match neighbour r p with
  | some q => if (s.core q).lodging = (s.core r).lodging ∧ (s.core q).logical ≠ 0 ∧ !(s.core q).off then some q else none
  | none => none

/-- The head word of a port, or of the inbox, with the cycle at which it came (R35, R36, R286); a port whose neighbour lies outside the
lodging, off the mesh, or has its core disabled is always empty. -/
def State.portWord (s : State) (r p : Nat) : Option (Value × Word) :=
  if p = 4 then
    let h := s.sByte r inboxOff 8
    if qCount h = 0 then none
    else some (entryValue ((s.core r).qEntry inboxOff (qHead h)), (mapGet (s.core r).stamps (qRing inboxOff + 64 * qHead h)).2)
  else if (s.portTo r p).isNone then none
  else (mapGet (s.core r).ports p).words.head?.map fun w => (dataValue w.1, w.2)
def State.portHead (s : State) (r p : Nat) : Option Value := (s.portWord r p).map Prod.fst
/-- The inbox's header or oldest entry holds an uncorrectable error (R75, R452). -/
def Core.inboxBad (c : Core) : Bool := c.s.bad inboxOff 8 || c.s.bad (qRing inboxOff + 64 * qHead (numBytes c.s.bytes inboxOff 8)) 64

/-- SEC-DED repairs what a peek reads of the inbox: its header and its oldest entry (R450). -/
def State.repairInbox (s : State) (r : Nat) : State :=
  (s.repairStore r .s inboxOff 8).repairStore r .s (qRing inboxOff + 64 * qHead (s.sByte r inboxOff 8)) 64
/-- PORT (R121). Peeks the head word of a port; the commit pops it. -/
def execPort (e : BitVec 1) (reg : BitVec 6) (t1 t0 : BitVec 9) (s : State) : Out :=
  let f : Form := { pr := 0, arity := 0, t0 := t0, t1 := t1, row := .port }
  match s.portHead s.here.1 reg.toNat with
  | none =>
    if e = 1 then .next s
    else s.fire f plainNull fun _ => .error { code := tEmptyRead, lo := zext64 reg, hi := 0 }
  | some v => s.fire f plainNull fun c =>
      if reg = 4 ∧ (c.s.core c.core).inboxBad then c.silent (c.s.consumeBad c.core c.slot c.idx Sto.s.unitNo)
      else
        let s := if reg = 4 then c.s.repairInbox c.core else c.s
        .ok { s := s.updBlk c.core c.slot fun b => { b with pops := (reg.toNat :: b.pops).eraseDups }, v0 := v, v1 := v }

/-- WRITE (R122). Completes a register with the arriving value at commit. -/
def execWrite (pr : BitVec 2) (reg : BitVec 6) (s : State) : Out :=
  s.fire (nForm .write pr 1 0 0 0) (nullLanding reg.toNat) fun c =>
    let v := c.masked c.l
    if v.tag == .cap && !v.validTo 4 then .error (trapCap tTag v.cap)
    else c.silent (c.complete c.s reg.toNat (.value v))

/-- WPORT (R123). Pushes one 64-byte word to a neighbour's port queue at commit. -/
def execWport (pr : BitVec 2) (reg : BitVec 6) (s : State) : Out :=
  s.fire (nForm .wport pr 1 0 0 0) plainNull fun c =>
    let v := c.masked c.l
    if v.tag == .broken then .error (trap tBrokenUse)
    else if (c.s.portTo c.core reg.toNat).isNone then .error (trap tLodging)
    else c.silent (c.act (.push reg.toNat v.zeroed))

/-- NULL (R59). Sends a null token to its targets. -/
def execNull (pr : BitVec 2) (t1 t0 : BitVec 9) (s : State) : Out :=
  s.fire (tForm .null pr 0 t1 t0) plainNull fun c => c.value nullToken

/-- MOV (R124). Passes its value unchanged. -/
def execMov (pr : BitVec 2) (t1 t0 : BitVec 9) (s : State) : Out :=
  s.fire (tForm .mov pr 1 t1 t0) plainNull fun c => c.value (c.masked c.l)

/-- The block an offset names (R50). -/
def blockAt (pc off : Word) : Word := pc + off * 64
/-- Bytes a block occupies, in whole units (R46). -/
def blockBytes (region : Bool) (count : Nat) : Nat := (16 + 8 * bit1 region + 4 * count + 63) / 64 * 64
/-- The return address of a call (R127). -/
def returnAddr (x : Slot) : Word := x.pc + BitVec.ofNat 64 (blockBytes x.blk.region x.blk.words.length)

/-- BRO (R125). Exit to the block at a relative offset. -/
def execBro (pr : BitVec 2) (off : BitVec 23) (s : State) : Out :=
  s.fire (nForm .bro pr 0 0 0 0) plainNull fun c =>
    c.silent (c.exitWith (.jump (blockAt c.x.pc (wideField c.x.blk.words c.idx 23 off))))

/-- CALL (R127). Exit to a relative block; the register completes with the return address. DESIGN CHOICE (log 55): a CALL that fires
null is no exit and leaves its register incomplete, although R58 lists it among the landing effects: R127 counts the CALL as the
WRITE of gN, and a CALL that has not counted as an exit has written nothing. -/
def execCall (pr : BitVec 2) (reg : BitVec 6) (off : BitVec 17) (s : State) : Out :=
  s.fire (nForm .call pr 0 0 0 0) plainNull fun c =>
    let s1 := c.exitWith (.jump (blockAt c.x.pc (wideField c.x.blk.words c.idx 17 off)))
    if (s1.slot c.core c.slot).blk.phase != 2 then c.silent s1
    else c.silent (c.complete s1 reg.toNat (.value (dataScalar (returnAddr c.x))))

/-- BRC (R126). Exit to a computed target. -/
def execBrc (pr : BitVec 2) (s : State) : Out :=
  s.fire (nForm .brc pr 1 2 0 0) plainNull fun c =>
    if targetNull c.l then c.silent c.s else c.silent (c.exitWith (.computed c.l none))

/-- RET (R128). As BRC; the prediction it gives changes no result. -/
def execRet (pr : BitVec 2) (s : State) : Out :=
  s.fire (nForm .ret pr 1 2 0 0) plainNull fun c =>
    if targetNull c.l then c.silent c.s else c.silent (c.exitWith (.computed c.l none))

/-- CALLC (R127). Exit to a computed target; the link lands once the target block is decoded. -/
def execCallc (pr : BitVec 2) (reg : BitVec 6) (s : State) : Out :=
  s.fire (nForm .callc pr 1 2 0 0) (nullLanding reg.toNat) fun c =>
    if targetNull c.l then c.silent (nullLanding reg.toNat c)
    else
      let s1 := c.exitWith (.computed c.l (some reg.toNat))
      if (s1.slot c.core c.slot).blk.phase != 2 then c.silent s1 else c.silent (c.complete s1 reg.toNat .link)

/-- EXIT (R130). Ends the activity; its check is made at commit. -/
def execExit (pr : BitVec 2) (s : State) : Out :=
  s.fire (nForm .exit pr 0 0 0 0) plainNull fun c => c.silent (c.exitWith .exit)

/-- YIELD (R129). Transfers control as BRO and yields. -/
def execYield (pr : BitVec 2) (off : BitVec 23) (s : State) : Out :=
  s.fire (nForm .yield pr 0 0 0 0) plainNull fun c =>
    c.silent (c.exitWith (.yield (blockAt c.x.pc (wideField c.x.blk.words c.idx 23 off))))

/-- A sealed entry operand with invoke (R232, R277, R287). -/
def checkEntry (v : Value) : Except Trap Cap := checkCap v 12 [pInvoke]

/-- HANDOFF (R232). Its checks at the firing; the descriptor is read as R472 sets out; the rest is the commit's. -/
def execHandoff (pr : BitVec 2) (s : State) : Out :=
  s.fire (nForm .handoff pr 3 4 2 2) plainNull fun c =>
    match checkEntry c.l, checkScalar c.r, checkScalar c.t with
    | .error e, _, _ => .error e
    | _, .error e, _ => .error e
    | _, _, .error e => .error e
    | .ok e, .ok m, .ok k =>
      let s1 := c.exitWith (.handoff e m k)
      if (s1.slot c.core c.slot).blk.phase != 2 then c.silent s1 else c.silent (c.ask s1 (.entry e))

/-- SLEEP (R132). The next block is not admitted before cycle t. -/
def execSleep (pr : BitVec 2) (s : State) : Out :=
  s.fire (nForm .sleep pr 1 2 0 0) plainNull fun c =>
    match checkScalar c.l with
    | .error e => .error e
    | .ok t => c.silent (c.act (.sleep t))

/-- EXT.wide (R62, R63) never fires: its payload changes the next index, where it is read. -/
def execExtWide (_payload : BitVec 23) (s : State) : Out := .next s
/-- EXT.hint (R62) never fires: its class is read by the keeper's choice. -/
def execExtHint (_long : BitVec 1) (_cls : BitVec 3) (s : State) : Out := .next s
/-- EXT.mod (R62) never fires: its fields are read by the next index. -/
def execExtModifier (_scope : BitVec 2) (_sat : BitVec 1) (_round : BitVec 3) (s : State) : Out := .next s

end Sys2Proof.Machine
end

