-- ==== Sys2Proof/Machine/Queued.lean ====
section
/-! DEFINITION. Queued memory instructions: QLD, QST, AMO and FENCE at their firing (R104 to R107, R289 to R293). Their requests enter the outbound queue at the commit. -/

namespace Sys2Proof.Machine

/-- Bytes of a width code (R104). -/
def widthBytes (w : Nat) : Nat := if w < 2 then 1 else if w < 4 then 2 else if w < 6 then 4 else if w = 6 then 8 else if w = 7 then 64 else 16

/-- A landing effect has fired: its register completes with the pending landing, its effect waits for the commit. -/
def Ctx.landing (c : Ctx) (reg : BitVec 6) (e : Eff) : State :=
  let s := c.complete c.s reg.toNat (.landing c.idx 0 false)
  if (s.slot c.core c.slot).blk.phase != 2 then s
  else s.updBlk c.core c.slot fun b => { b with acts := mapSet b.acts c.idx (some (.effect e)) }

/-- The address of a scaled field of `n` bits (R290, R291). -/
def Ctx.scaled (c : Ctx) (off : Word) (w : Nat) : Word := capAddr c.l.cap + off * BitVec.ofNat 64 (widthBytes w)

/-- QLD (R290). Queued load whose value lands in a register later. -/
def execQld (pr : BitVec 2) (reg : BitVec 6) (width : BitVec 5) (off : BitVec 12) (s : State) : Out :=
  s.fire (nForm .qld pr 1 4 0 0) (nullLanding reg.toNat) fun c => 
    let w := width.toNat
    let a := c.scaled (sext64 off) w
    match c.checkQueued c.l [1, 10, 2, 3, 4, 5] [] [pLoad] a (widthBytes w) with
    | .error t => .error t
    | .ok _ => c.silent (c.landing reg (.mem (some reg.toNat) (memAddr c.l.cap a) (.load w (capHas c.l.cap pLoadCap))))

/-- The bytes QST writes, and the tag bit of QST.C; none when it issues nothing (R291). DESIGN CHOICE (log 70): a scalar
QST with one of lanes 0 and 1 null issues nothing. -/
def qstBytes (w : Nat) (v : Value) : Option (List (Option Byte) × Option Bool) :=
  let n := widthBytes w
  let lanes : BitVec 16 := if w = 7 then allLanes else if w = 8 then 15 else 3
  let ok := v.valid &&& lanes
  if ok = 0 ∨ (w < 7 ∧ ok ≠ lanes) then none
  else some ((List.range n).map fun i => if bitAt ok (i / 4) then some (bitsAt v.bits (8 * i) 8) else none,
    if w = 8 then some (v.tag == .cap) else none)

/-- QST (R291). Queued store issued at commit. -/
def execQst (pr : BitVec 2) (width : BitVec 5) (imm : BitVec 18) (s : State) : Out :=
  s.fire (nForm .qst pr 2 4 0 0) plainNull fun c => 
    let w := width.toNat
    let isCap := w == 8 && c.r.tag == .cap
    let a := c.scaled (wideField c.x.blk.words c.idx 18 imm) w
    let part := isCap && c.r.valid &&& 15 != 15 && c.r.valid &&& 15 != 0
    if c.r.tag == .broken then .error (trap tBrokenUse)
    else if part && c.l.tag == .cap && [1, 10, 2, 3, 4, 5].contains (capKind c.l.cap) then .error (trapCap tTag c.r.cap)
    else if w == 8 && c.l.tag == .cap && capKind c.l.cap == 10 then .error (trapCap tPerm c.l.cap)
    else
      match c.checkQueued c.l (if w == 8 then [1, 10, 3, 5] else [1, 10, 3, 4, 5]) (if w == 8 then [2, 4] else [2])
          (if isCap then [pStore, pStoreCap] else [pStore]) a (widthBytes w) with
      | .error t => .error t
      | .ok _ =>
        match qstBytes w c.r with
        | none => c.silent c.s
        | some (bs, tag) => c.silent (c.act (.effect (.mem none (memAddr c.l.cap a) (.store bs tag))))

/-- An AMO at its firing (R292): operation `op`, width code, order and scope of R106, value and comparand. -/
def Ctx.amo (c : Ctx) (reg : BitVec 6) (op w order scope : Nat) (v e : Value) : Except Trap Fired :=
  let a := capAddr c.l.cap
  if v.tag == .broken || e.tag == .broken then .error (trap tBrokenUse)
  else
    match c.checkQueued c.l [1, 10, 5] [2, 3, 4] [pLoad, pStore] a (if w % 2 = 0 then 4 else 8) with
    | .error t => .error t
    | .ok _ => c.silent (c.landing reg (.mem (some reg.toNat) (memAddr c.l.cap a) (.amo op w order scope v.scalar e.scalar)))

/-- AAD (R292). Atomic add, integer or floating, landing the old value. -/
def execAad (pr : BitVec 2) (reg : BitVec 6) (w : BitVec 2) (scope : BitVec 2) (order : BitVec 2) (s : State) : Out :=
  s.fire (nForm .aad pr 2 4 2 0) (nullLanding reg.toNat) fun c => c.amo reg 0 w.toNat order.toNat scope.toNat c.r c.r

/-- ASWP (R292). Atomic swap. -/
def execAswp (pr : BitVec 2) (reg : BitVec 6) (w : BitVec 1) (scope : BitVec 2) (order : BitVec 2) (s : State) : Out :=
  s.fire (nForm .aswp pr 2 4 2 0) (nullLanding reg.toNat) fun c => c.amo reg 1 w.toNat order.toNat scope.toNat c.r c.r

/-- ACAS (R292). Atomic compare-and-swap. -/
def execAcas (pr : BitVec 2) (reg : BitVec 6) (w : BitVec 1) (scope : BitVec 2) (order : BitVec 2) (s : State) : Out :=
  s.fire (nForm .acas pr 3 4 2 2) (nullLanding reg.toNat) fun c => c.amo reg 2 w.toNat order.toNat scope.toNat c.t c.r

/-- AMIN (R292). Atomic signed minimum. -/
def execAmin (pr : BitVec 2) (reg : BitVec 6) (w : BitVec 1) (scope : BitVec 2) (order : BitVec 2) (s : State) : Out :=
  s.fire (nForm .amin pr 2 4 2 0) (nullLanding reg.toNat) fun c => c.amo reg 3 w.toNat order.toNat scope.toNat c.r c.r

/-- AMAX (R292). Atomic signed maximum. -/
def execAmax (pr : BitVec 2) (reg : BitVec 6) (w : BitVec 1) (scope : BitVec 2) (order : BitVec 2) (s : State) : Out :=
  s.fire (nForm .amax pr 2 4 2 0) (nullLanding reg.toNat) fun c => c.amo reg 4 w.toNat order.toNat scope.toNat c.r c.r

/-- AMINN (R292). Atomic natural minimum. -/
def execAminn (pr : BitVec 2) (reg : BitVec 6) (w : BitVec 1) (scope : BitVec 2) (order : BitVec 2) (s : State) : Out :=
  s.fire (nForm .aminn pr 2 4 2 0) (nullLanding reg.toNat) fun c => c.amo reg 5 w.toNat order.toNat scope.toNat c.r c.r

/-- AMAXN (R292). Atomic natural maximum. -/
def execAmaxn (pr : BitVec 2) (reg : BitVec 6) (w : BitVec 1) (scope : BitVec 2) (order : BitVec 2) (s : State) : Out :=
  s.fire (nForm .amaxn pr 2 4 2 0) (nullLanding reg.toNat) fun c => c.amo reg 6 w.toNat order.toNat scope.toNat c.r c.r

/-- AAND (R292). Atomic AND. -/
def execAand (pr : BitVec 2) (reg : BitVec 6) (w : BitVec 1) (scope : BitVec 2) (order : BitVec 2) (s : State) : Out :=
  s.fire (nForm .aand pr 2 4 2 0) (nullLanding reg.toNat) fun c => c.amo reg 7 w.toNat order.toNat scope.toNat c.r c.r

/-- AOR (R292). Atomic OR. -/
def execAor (pr : BitVec 2) (reg : BitVec 6) (w : BitVec 1) (scope : BitVec 2) (order : BitVec 2) (s : State) : Out :=
  s.fire (nForm .aor pr 2 4 2 0) (nullLanding reg.toNat) fun c => c.amo reg 8 w.toNat order.toNat scope.toNat c.r c.r

/-- AXOR (R292). Atomic XOR. -/
def execAxor (pr : BitVec 2) (reg : BitVec 6) (w : BitVec 1) (scope : BitVec 2) (order : BitVec 2) (s : State) : Out :=
  s.fire (nForm .axor pr 2 4 2 0) (nullLanding reg.toNat) fun c => c.amo reg 9 w.toNat order.toNat scope.toNat c.r c.r

/-- FENCE.acq (R293). Holds later effects and admission until earlier landings within scope. -/
def execFenceAcq (pr : BitVec 2) (scope : BitVec 2) (s : State) : Out :=
  s.fire (nForm .fenceAcq pr 0 0 0 0) plainNull fun c => c.silent (c.act (.effect (.fence true false scope.toNat)))

/-- FENCE.rel (R293). Holds later effects until earlier requests within scope are acknowledged. -/
def execFenceRel (pr : BitVec 2) (scope : BitVec 2) (s : State) : Out :=
  s.fire (nForm .fenceRel pr 0 0 0 0) plainNull fun c => c.silent (c.act (.effect (.fence false true scope.toNat)))

/-- FENCE.full (R293). Acts as both acquire and release fences. -/
def execFenceFull (pr : BitVec 2) (scope : BitVec 2) (s : State) : Out :=
  s.fire (nForm .fenceFull pr 0 0 0 0) plainNull fun c => c.silent (c.act (.effect (.fence true true scope.toNat)))


end Sys2Proof.Machine
end

