-- ==== Sys2Proof/Machine/Sync.lean ====
section
/-! DEFINITION. Counters, claims, waits, queues and the creation of activities at their firing (R207, R211, R229, R243 to R288). What they do at the commit is the commit's (Machine/Commit.lean). -/

namespace Sys2Proof.Machine

/-- BROKEN operands of an instruction (R33, R119). -/
def noBroken (vs : List Value) : Except Trap Unit := if vs.any (·.tag == .broken) then .error (trap tBrokenUse) else .ok ()

/-- A kind-5 operand on the issuing core's S with a permission, aligned and in bounds (R211, R272, R281, R288). -/
def Ctx.checkOwnS (c : Ctx) (v : Value) (perm align n : Nat) : Except Trap Nat :=
  if v.tag == .broken then .error (trap tBrokenUse)
  else if v.tag != .cap || capKind v.cap != 5 then .error (trapCap tTag v.cap)
  else
    let a := capAddr v.cap
    if !capHas v.cap perm || addrCore a != c.logical then .error (trapCap tPerm v.cap)
    else if a.toNat % align ≠ 0 then .error { code := tAlign, lo := a, hi := BitVec.ofNat 64 n }
    else if !capInBounds v.cap a.toNat n || 0xC000 < addrOff a + n then .error (trapCap tBounds v.cap)
    else .ok (addrOff a)

/-- A capability on an object of the lodging: kind, one of the permissions, and a core of the lodging (R43). -/
def Ctx.checkObject (c : Ctx) (v : Value) (kind : Nat) (perms : List Nat) : Except Trap Word :=
  if v.tag == .broken then .error (trap tBrokenUse)
  else if v.tag != .cap || capKind v.cap != kind then .error (trapCap tTag v.cap)
  else if !(perms.any fun p => capHas v.cap p) then .error (trapCap tPerm v.cap)
  else if c.noCore (addrCore (capAddr v.cap)) then .error (trapLodging (addrCore (capAddr v.cap)))
  else .ok (capAddr v.cap)

def claimNumber (device core index gen : Nat) : Word := BitVec.ofNat 64 (device * 2 ^ 44 + core * 2 ^ 32 + index * 2 ^ 24 + gen)
/-- A claim operand: a claim of this device names a core of the lodging (R38, R43). -/
def Ctx.checkClaim (c : Ctx) (v : Value) (perm : Nat) : Except Trap Word := do
  let cap ← checkCap v 8 [perm]
  if claimDevice (capAddr cap) = c.s.fuses.device ∧ c.noCore (claimCore (capAddr cap)) then throw (trapLodging (claimCore (capAddr cap)))
  return capAddr cap
/-- Whether a claim is homed on another device (R38, R416). -/
def Ctx.peerClaim (c : Ctx) (n : Word) : Bool := claimDevice n != c.s.fuses.device

/-- Word 0 of a counter (R260). -/
def ctrRank (w : Nat) : Nat := w / 2 ^ 48
def ctrScope (w : Nat) : Nat := w / 2 ^ 36 % 4
def ctrWaitable (w : Nat) : Bool := w / 2 ^ 35 % 2 == 1
def ctrFired (w : Nat) : Bool := w / 2 ^ 34 % 2 == 1
def ctrBroken (w : Nat) : Bool := w / 2 ^ 33 % 2 == 1
def ctrBound (w : Nat) : Bool := w / 2 ^ 32 % 2 == 1
def ctrLeft (w : Nat) : Nat := w % 2 ^ 32
/-- Zero bits [47:38] that are not zero (R260). -/
def ctrBad (w : Nat) : Bool := w / 2 ^ 38 % 2 ^ 10 != 0
def ctrWord (rank scope : Nat) (waitable fired broken bound : Bool) (left : Nat) : Nat :=
  rank % 2 ^ 16 * 2 ^ 48 + scope % 4 * 2 ^ 36 + bit1 waitable * 2 ^ 35 + bit1 fired * 2 ^ 34 + bit1 broken * 2 ^ 33
    + bit1 bound * 2 ^ 32 + left % 2 ^ 32

/-- A rank operand (R241): 0 is BELOW, one under the lowest held rank before the block's commit. -/
def Slot.rankOf (x : Slot) (r : Nat) : Nat := if r = 0 then x.obs.rankMin - 1 else r

/-- CTR.NEW (R272). Creates a counter in S and gives the creator a COUNT obligation. -/
def execCtrNew (pr : BitVec 2) (t1 : BitVec 9) (t0 : BitVec 9) (s : State) : Out :=
  s.fire (wForm .ctrNew pr 3 4 2 2 t1 t0) plainNull fun c => do
    let off ← c.checkOwnS c.l pStore 16 16
    noBroken [c.r, c.t]
    let v := capValue (mkCap 7 0x18 0 0 0 0 (localAddr c.logical off))
    return { s := c.act (.ctrNew off c.r.scalar c.t.scalar c.scope), v0 := v, v1 := v }

/-- CTR.DEC (R273). Discharges units of a held COUNT obligation as a release. -/
def execCtrDec (pr : BitVec 2) (s : State) : Out :=
  s.fire (nForm .ctrDec pr 2 4 2 0) plainNull fun c => do
    let k ← c.checkObject c.l 7 [pSignal]
    let n ← checkScalar c.r
    c.silent (c.act (.ctrDec k n c.scope))

/-- A second question of one instruction, under its own key. -/
def Ctx.ask2 (c : Ctx) (s : State) (a : Ask) : State := s.updBlk c.core c.slot fun b => { b with asks := mapSet b.asks (128 + c.idx) a }

/-- CTR.BIND (R275). Binds a handler and an escrow of obligations to a counter. -/
def execCtrBind (pr : BitVec 2) (s : State) : Out :=
  s.fire (nForm .ctrBind pr 3 4 4 2) plainNull fun c => do
    noBroken [c.l, c.r, c.t]
    let k ← c.checkObject c.l 7 [pSignal]
    let e ← checkCap c.r 12 [pInvoke]
    c.silent (c.ask2 (c.ask (c.act (.ctrBind k e c.t.scalar)) (.bindInfo k)) (.entry e))

/-- CTR.SPLIT (R274). Moves units of one held COUNT entry into a chosen free entry. -/
def execCtrSplit (pr : BitVec 2) (s : State) : Out :=
  s.fire (nForm .ctrSplit pr 3 2 2 2) plainNull fun c => do
    noBroken [c.l, c.r, c.t]
    c.silent (c.act (.ctrSplit c.l.scalar c.r.scalar c.t.scalar))

/-- An instruction whose value comes with a home's answer: it has fired, and REMOTE_ANSWER delivers its value (R267). -/
def Ctx.later (c : Ctx) (s : State) : State := s.mark c.core c.slot c.idx 1
/-- Fires an instruction whose values travel with the answer; a null token passes on at once (R58). -/
def State.fireLater (s : State) (f : Form) (act : Ctx → Except Trap State) : Out :=
  match s.ctx f with
  | none => .next s
  | some (c, p) =>
    match readPred f.pr p with
    | .fault t => .next (c.abort t)
    | .off => .next (s.mark c.core c.slot c.idx 2)
    | .null => .next (c.finish f { s := s, v0 := nullToken, v1 := nullToken })
    | .run m =>
      if f.nullData c then .next (c.finish f { s := s, v0 := nullToken, v1 := nullToken })
      else if f.brokenWhole c.l c.r c.t then .next (c.abort (trap tBrokenUse))
      else
        match act { c with mask := m } with
        | .error t => .next (c.abort t)
        | .ok s' => .next (c.later s')

/-- CTR.STAT (R276). Returns a counter's word 0 from its home. -/
def execCtrStat (pr : BitVec 2) (t1 : BitVec 9) (t0 : BitVec 9) (s : State) : Out :=
  s.fireLater (wForm .ctrStat pr 1 4 0 0 t1 t0) fun c => do
    let k ← c.checkObject c.l 7 [pWait, pSignal]
    return c.ask c.s (.stat k)

/-- RARM (R211). Arms a receipt with an expected unit count. -/
def execRarm (pr : BitVec 2) (s : State) : Out :=
  s.fire (nForm .rarm pr 2 4 2 0) plainNull fun c => do
    let off ← c.checkOwnS c.l pStore 16 16
    let n ← checkScalar c.r
    c.silent (c.act (.rarm off n))

/-- A 64-byte argument with its tag (R14): BROKEN faults BROKEN_USE, a partial capability TAG. -/
def partialCap (v : Value) : Bool := v.tag == .cap && !v.validTo 4 && numAt v.valid 0 4 != 0
/-- A value with its null lanes as zero bytes (R14, R283). -/
def Value.filled (v : Value) : Value := { v with bits := v.zeroed, valid := allLanes }
/-- A core's home still holds an invocation of a claim, while it reads the descriptor (R258, R472). -/
def State.holdsInvocation (s : State) (r i : Nat) (x : Claim) : Bool :=
  s.reqs.any fun q => q.act == deviceAct r && !q.stage.isDone && (match q.eff with
    | .invokec n _ => claimIndex n == i && claimGen n == x.gen
    | _ => false)
/-- The first claim-table entry FREE, or else the one settled earliest with no waiter and no held invocation (R256). -/
def State.pickClaim (s : State) (r : Nat) : Option Nat :=
  let k := fun i => mapGet (s.core r).claims i
  match (List.range 256).find? fun i => (k i).state == 0 with
  | some i => some i
  | none =>
    ((List.range 256).filter fun i => (k i).state ≥ 2 && (k i).invs.isEmpty && (k i).waiters.isEmpty && !s.holdsInvocation r i (k i)).foldl
      (fun m i => match m with
        | none => some i
        | some j => if (k i).settled < (k j).settled then some i else m) none
/-- Reserves a claim-table entry (R256): generation + 1, wrapping to 1. -/
def Core.reserveClaim (c : Core) (i rank lodging : Nat) (heldAt : Word) (launch : W32) : Core :=
  let g := (mapGet c.claims i).gen
  { c with claims := mapSet c.claims i
             { (default : Claim) with state := 1, heldAt := heldAt, rank := rank, chain := rank, gen := if g ≥ 0xFFFFFF then 1 else g + 1,
                                      lodging := lodging, launch := launch } }
/-- The null claim of a refusal (R277). -/
def nullClaim : Value := capValue 0
/-- The claim capability an INVOKE yields (R277): wait and invoke. -/
def claimValue (n : Word) : Value := capValue (mkCap 8 0x50 0 0 0 0 n)
/-- The service entry of Oxkan, used outside lodging 0 (R444). -/
def Ctx.serviceEntry (c : Ctx) (e : Cap) : Bool := c.lodging != 0 && capSpace e == 0xFFFF
/-- The checks INVOKE and INVOKEC share, and INVOKE's entry (R277, R444). -/
def Ctx.checkInvoke (c : Ctx) (kind perm : Nat) : Except Trap Cap := do
  noBroken [c.l, c.r, c.t]
  if c.l.tag != .cap || capKind c.l.cap != kind then throw (trapCap tTag c.l.cap)
  if partialCap c.r then throw (trapCap tTag c.r.cap)
  if !capHas c.l.cap perm then throw (trapCap tPerm c.l.cap)
  let core := numAt c.t.scalar 16 12
  if kind = 12 && c.serviceEntry c.l.cap then
    if !capHas c.l.cap pGlobal then throw (trapCap tPerm c.l.cap)
    if 32 ≤ core then throw (trapLodging core)
  else if c.noCore core then throw (trapLodging core)
  return c.l.cap

/-- INVOKE (R277). Starts an activity and makes a claim on its answer. -/
def execInvoke (pr : BitVec 2) (t1 : BitVec 9) (t0 : BitVec 9) (s : State) : Out :=
  s.fire (wForm .invoke pr 3 4 0 2 t1 t0) plainNull fun c => do
    let e ← c.checkInvoke 12 pInvoke
    let w := c.t.scalar
    match c.s.pickClaim c.core with
    | none => return { s := c.act (.invoke e c.r.filled w none), v0 := nullClaim, v1 := dataScalar 0 }
    | some i =>
      let s := c.s.updCore c.core fun k => k.reserveClaim i (c.x.rankOf (numAt w 0 16)) c.lodging 0 c.x.launch
      let n := claimNumber s.fuses.device c.logical i (mapGet (s.core c.core).claims i).gen
      let c' := { c with s := s }
      let s := c.ask (c'.act (.invoke e c.r.filled w (some i))) (.entry e)
      return { s := s, v0 := claimValue n, v1 := dataScalar 1 }

/-- INVOKEC (R278). Addresses an invocation to the future value of a claim. -/
def execInvokec (pr : BitVec 2) (t1 : BitVec 9) (t0 : BitVec 9) (s : State) : Out :=
  s.fireLater (wForm .invokec pr 3 4 0 2 t1 t0) fun c => do
    let t ← c.checkInvoke 8 pInvoke
    let n := capAddr t
    if c.peerClaim n then
      if c.r.tag == .cap then throw (trapCap tPerm t)
    else if c.noCore (claimCore n) then throw (trapLodging (claimCore n))
    let w := c.t.scalar
    match c.s.pickClaim c.core with
    | none => return c.ask (c.act (.invokec n c.r.filled w none)) (.place2 n)
    | some i =>
      let s := c.s.updCore c.core fun k => k.reserveClaim i (c.x.rankOf (numAt w 0 16)) c.lodging n c.x.launch
      let c' := { c with s := s }
      return c.ask (c'.act (.invokec n c.r.filled w (some i))) (.place2 n)

/-- FULFIL (R279). Resolves a held claim with a value as a release. -/
def execFulfil (pr : BitVec 2) (s : State) : Out :=
  s.fire (nForm .fulfil pr 2 4 0 0) plainNull fun c => do
    let n ← c.checkClaim c.l pSignal
    if partialCap c.r then throw (trapCap tTag c.r.cap)
    if c.peerClaim n && c.r.tag == .cap then throw (trapCap tPerm c.l.cap)
    c.silent (c.act (.fulfil n c.r.filled c.scope))

/-- BREAK (R280). Breaks a held claim with a code. -/
def execBrk (pr : BitVec 2) (s : State) : Out :=
  s.fire (nForm .brk pr 2 4 2 0) plainNull fun c => do
    noBroken [c.l, c.r]
    let n ← c.checkClaim c.l pSignal
    c.silent (c.act (.brk n c.r.scalar c.scope))

/-- The logical core on which a WAIT's object is said to lie; none where its kind names no core of this device (R38, R43, R229). -/
def Ctx.waitCore (c : Ctx) : Option Nat :=
  let a := capAddr c.l.cap
  match capKind c.l.cap with
  | 5 | 6 | 7 => some (addrCore a)
  | 8 => if claimDevice a = c.s.fuses.device then some (claimCore a) else none
  | _ => none
/-- The object of a WAIT (R229): its kind and its address or number. A core that the lodging does not have faults LODGING, whatever permission is missing
(R212). DESIGN CHOICE (log 70): of a receipt it asks load, as the table of R229 says, and not the engine permission that R212 asks of the operands
of engine commands. -/
def Ctx.waitObject (c : Ctx) : Except Trap (Nat × Word) :=
  if c.l.tag == .broken then .error (trap tBrokenUse)
  else if c.l.tag != .cap then .error (trapCap tTag c.l.cap)
  else if c.waitCore.any c.noCore then .error (trapLodging (c.waitCore.getD 0))
  else match capKind c.l.cap with
    | 5 => (c.checkOwnS c.l pLoad 16 16).map fun off => (5, localAddr c.logical off)
    | 7 => (c.checkObject c.l 7 [pWait]).map fun a => (7, a)
    | 8 => (c.checkClaim c.l pWait).map fun a => (8, a)
    | 6 => (c.checkObject c.l 6 [pWait]).map fun a => (6, a)
    | _ => .error (trapCap tTag c.l.cap)
/-- WAIT and WAIT.st at their firing (R229, R245): all but a receipt ask the object's home for its rank. -/
def Ctx.waitOn (c : Ctx) (reg : BitVec 6) (st : Bool) : Except Trap Fired := do
  let o ← c.waitObject
  let s := c.complete c.s reg.toNat (.landing c.idx 0 (o.1 != 5))
  if (s.slot c.core c.slot).blk.phase != 2 then c.silent s
  else
    let c' := { c with s := s }
    let s := c'.act (.wait st o.1 o.2)
    c.silent (if o.1 = 5 then s else c.ask s (.rank o.1 o.2))

/-- WAIT (R229). Waits on a receipt, counter, claim or queue; the value lands later. -/
def execWait (pr : BitVec 2) (reg : BitVec 6) (s : State) : Out :=
  s.fire (nForm .wait pr 1 4 0 0) (nullLanding reg.toNat) fun c => c.waitOn reg false

/-- WAIT.st (R229). Waits on an object and lands its status word. -/
def execWaitSt (pr : BitVec 2) (reg : BitVec 6) (s : State) : Out :=
  s.fire (nForm .waitSt pr 1 4 0 0) (nullLanding reg.toNat) fun c => c.waitOn reg true

/-- The image of a logical core whose lodging is switched out (R347). -/
def State.savedCore (s : State) (lodging logical : Nat) : Option Image :=
  if (s.lodging lodging).out then (s.saves.filter fun v => v.lodging == lodging).findSome? fun v => v.images.find? fun i => i.logical == logical else none
/-- Where a queue capability leads (R282, R416, R417): the lodging's host reply queue, a queue of a peer, a collective, or
a queue of this device, whose core is one of the grant's owner when the capability crosses lodgings (R45, log 21), and may be switched out (R347). -/
def Ctx.queueDest (c : Ctx) (q : Cap) : Option QDest :=
  let a := capAddr q
  match numAt a 48 4 with
  | 0xF => some (.reply c.lodging (numAt a 0 8))
  | 0xE => some (.peer (numAt a 28 20) (numAt a 52 12) (numAt a 0 16))
  | 0xD => some (.coll (numAt a 0 8) 0)
  | _ =>
    let owner := if capHas q pGlobal then
        match c.s.grants.find? fun g => g.1 == c.lodging && g.2.2 == a with | some g => g.2.1 | none => c.lodging
      else c.lodging
    match c.s.router owner (addrCore a) with
    | some r => some (.queue r (addrOff a) owner)
    | none => if (c.s.savedCore owner (addrCore a)).isSome then some (.queue (awayRouter owner (addrCore a)) (addrOff a) owner) else none
/-- The router of the mesh beside a relay core's router (R44, R360). -/
def edgeOf (r : Nat) : Nat :=
  let n := Config.linkEdge r % 512
  (16 * (dieOf r / 4) + n / 32) * 128 + 32 * (dieOf r % 4) + n % 32
/-- Routers that a dimension-order route crosses, first along the row and then along the column (R332); a route to or from a relay core goes by
the link edge of its die (R44). The place of a steward's router on the mesh is not given: such a route is checked at its two ends (log 56). -/
def routeRow (x0 x1 y : Nat) : List Nat := ((List.range 128).filter fun x => Nat.min x0 x1 ≤ x && x ≤ Nat.max x0 x1).map fun x => y * 128 + x
def routeCol (y0 y1 x : Nat) : List Nat := ((List.range 32).filter fun y => Nat.min y0 y1 ≤ y && y ≤ Nat.max y0 y1).map fun y => y * 128 + x
def meshRoute (a b : Nat) : List Nat := routeRow (a % 128) (b % 128) (a / 128) ++ routeCol (a / 128) (b / 128) (b % 128)
def route (a b : Nat) : List Nat :=
  if a = b then [a]
  else if isSteward a || isSteward b then [a, b]
  else
    let at' := fun (r : Nat) => if isRelay r then edgeOf r else r
    (if isRelay a then [a] else []) ++ meshRoute (at' a) (at' b) ++ (if isRelay b then [b] else [])
/-- The routers between the cores of a lodging's rectangle and a core, in both directions (R448). -/
def State.routesTo (s : State) (lodging q : Nat) : List Nat :=
  (((s.lodging lodging).map.filter (· < 4096)).map fun r => route r q ++ route q r).flatten.eraseDups
/-- The guest list of a router: its bit 0 is always set (R331). -/
def State.guestList (s : State) (r : Nat) : BitVec 256 := mapGet s.guests r ||| 1
/-- A router lists a lodging: its own, or one of its guest list (R331). -/
def State.listed (s : State) (r lodging : Nat) : Bool := (s.core r).lodging == lodging || bitAt (s.guestList r) lodging
/-- The first router of the route from one router to another that does not list both lodgings (R45, R332). -/
def State.unlistedOn (s : State) (a b lodging owner : Nat) : Option Nat := (route a b).find? fun q => !(s.listed q lodging && s.listed q owner)
def State.routeListed (s : State) (a b lodging owner : Nat) : Bool := (s.unlistedOn a b lodging owner).isNone
/-- The checks of SEND and SENDW, in the order of R283. -/
def Ctx.checkSend (c : Ctx) : Except Trap (QDest × Msg) := do
  noBroken [c.l, c.r]
  if c.l.tag != .cap || capKind c.l.cap != 6 then throw (trapCap tTag c.l.cap)
  let isCap := c.r.tag == .cap
  let top := numAt (capAddr c.l.cap) 48 4
  if !capHas c.l.cap pSend || (isCap && (!capHas c.l.cap pStoreCap || 0xD ≤ top)) then throw (trapCap tPerm c.l.cap)
  let m : Msg := { data := c.r.zeroed, cap := isCap, core := c.logical, lodging := c.lodging, toCore := addrCore (capAddr c.l.cap) }
  match c.queueDest c.l.cap with
  | none => throw (trapLodging (addrCore (capAddr c.l.cap)))
  | some (.queue r off owner) => if (c.s.lodging owner).out || c.s.routeListed c.core r c.lodging owner then return (.queue r off owner, m) else throw (trapLodging (addrCore (capAddr c.l.cap)))
  | some (.coll n k) => if (mapGet c.s.colls n).live then return (.coll n k, m) else throw (trapCap tPerm c.l.cap)
  | some q => return (q, m)

/-- SEND (R283). Puts a message in a queue if a place is free, yielding a predicate. -/
def execSend (pr : BitVec 2) (t1 : BitVec 9) (t0 : BitVec 9) (s : State) : Out :=
  s.fireLater (wForm .send pr 2 4 0 0 t1 t0) fun c => do
    let q ← c.checkSend
    return c.ask (c.act (.send q.1 q.2 false)) (.place q.1)

/-- SENDW (R284). Sends a message, waiting for a place, and lands the entry index. -/
def execSendw (pr : BitVec 2) (reg : BitVec 6) (s : State) : Out :=
  s.fire (nForm .sendw pr 2 4 0 0) (nullLanding reg.toNat) fun c => do
    let q ← c.checkSend
    let s := c.complete c.s reg.toNat (.landing c.idx 0 true)
    if (s.slot c.core c.slot).blk.phase != 2 then c.silent s
    else
      let c' := { c with s := s }
      c.silent (c.ask (c'.act (.sendw q.1 q.2)) (.rank 6 (capAddr c.l.cap)))

/-- Fields of QNEW's configuration word (R281). -/
def cfgInbox (w : Word) : Bool := bitAt w 20
def cfgLog (w : Word) : Nat := numAt w 16 4
def cfgRank (w : Word) : Nat := numAt w 0 16

/-- QNEW (R281). Creates a queue in S or names a core's inbox. -/
def execQnew (pr : BitVec 2) (t1 : BitVec 9) (t0 : BitVec 9) (s : State) : Out :=
  s.fire (wForm .qnew pr 2 4 2 0 t1 t0) plainNull fun c => do
    noBroken [c.l, c.r]
    let w := c.r.scalar
    if cfgInbox w then
      if c.l.tag != .cap || capKind c.l.cap != 5 then throw (trapCap tTag c.l.cap)
      let k := addrCore (capAddr c.l.cap)
      if c.noCore k then throw (trapLodging k)
      let v := capValue (mkCap 6 0x20 0 0 0 0 (localAddr k inboxOff))
      return { s := c.act (.qnew inboxOff w), v0 := v, v1 := v }
    else
      let off ← c.checkOwnS c.l pStore 64 (64 + 64 * 2 ^ cfgLog w)
      let v := capValue (mkCap 6 0x130 0 0 0 0 (localAddr c.logical off))
      return { s := c.act (.qnew off w), v0 := v, v1 := v }

/-- QBIND (R285). Binds a handler to a queue. -/
def execQbind (pr : BitVec 2) (s : State) : Out :=
  s.fire (nForm .qbind pr 2 4 4 0) plainNull fun c => do
    noBroken [c.l, c.r]
    let a ← (checkCap c.l 6 [pWait]).map capAddr
    let e ← checkCap c.r 12 [pInvoke]
    c.silent (c.ask (c.act (.qbind a e)) (.entry e))

/-- QUNBIND (R285). Unbinds a queue's handler. -/
def execQunbind (pr : BitVec 2) (s : State) : Out :=
  s.fire (nForm .qunbind pr 1 4 0 0) plainNull fun c => do
    let a ← (checkCap c.l 6 [pWait]).map capAddr
    c.silent (c.act (.qunbind a))

/-- Whether a router lies in a rectangle of global columns and rows (R13, R287). -/
def inRect (r : Nat) (q : Nat × Nat × Nat × Nat) : Bool :=
  r < 4096 && q.1 ≤ r % 128 && r % 128 < q.1 + q.2.2.1 && q.2.1 ≤ r / 128 && r / 128 < q.2.1 + q.2.2.2

/-- SPAWN (R287). Starts one activity of the same launch on a chosen core. -/
def execSpawn (pr : BitVec 2) (s : State) : Out :=
  s.fire (nForm .spawn pr 3 4 0 2) plainNull fun c => do
    noBroken [c.l, c.r, c.t]
    if c.l.tag != .cap || capKind c.l.cap != 12 then throw (trapCap tTag c.l.cap)
    if partialCap c.r then throw (trapCap tTag c.r.cap)
    if !capHas c.l.cap pInvoke then throw (trapCap tPerm c.l.cap)
    let k := numAt c.t.scalar 0 12
    match c.s.router c.lodging k with
    | none => throw (trapLodging k)
    | some r =>
      if 4096 ≤ r || !c.x.rect.cores.contains k then throw (trapLodging k)
      c.silent (c.ask (c.act (.spawn c.l.cap c.r.filled c.t.scalar)) (.entry c.l.cap))

/-- LAUNCH (R288). Submits a launch record for placement on a rectangle. -/
def execLaunch (pr : BitVec 2) (t1 : BitVec 9) (t0 : BitVec 9) (s : State) : Out :=
  s.fireLater (wForm .launch pr 1 4 0 0 t1 t0) fun c => do
    let off ← c.checkOwnS c.l pLoad 64 64
    return c.ask (c.act (.launch off false)) .pending


end Sys2Proof.Machine
end

