-- ==== Sys2Proof/Machine/Engine.lean ====
section
/-! DEFINITION. Engine commands at their firing: CPY, TILE, FEED, MMA, MZERO and MSTAT (R212 to R228). -/

namespace Sys2Proof.Machine

/-- A capability operand of an engine command, and what R212 asks of it: kinds, kinds its store table excludes,
permissions; a receipt must lie on the issuing core, STAT.SUM's destination needs no engine permission (`plain`), and a matrix unit or a feed must exist on the named core (R44, R425). -/
structure EngOp where
  v : Value
  kinds : List Nat
  storeClass : List Nat := []
  perms : List Nat
  own : Bool := false
  plain : Bool := false
  matrix : Bool := false

/-- Local stores and engines (R212 step 4). -/
def EngOp.isLocal (o : EngOp) : Bool := (2 ≤ capKind o.v.cap && capKind o.v.cap ≤ 5) || capKind o.v.cap == 9
def Ctx.engPerm (c : Ctx) (o : EngOp) : Bool :=
  (o.perms.all fun p => capHas o.v.cap p) && (o.plain || !o.isLocal || capHas o.v.cap pEngine)
    && (!o.own || addrCore (capAddr o.v.cap) == c.logical)
    && (!o.matrix || match c.s.router c.lodging (addrCore (capAddr o.v.cap)) with | some r => r < 4096 | none => true)
/-- An operand on a logical core that the lodging does not have (R43). -/
def Ctx.engNoCore (c : Ctx) (o : EngOp) : Bool := o.isLocal && c.noCore (addrCore (capAddr o.v.cap))
/-- Steps 1 to 4 of R212 over all operands of a command; a core that the lodging does not have faults LODGING whatever else is missing. -/
def Ctx.checkEngine (c : Ctx) (ops : List EngOp) : Except Trap Unit := do
  noBroken (ops.map EngOp.v)
  match ops.find? fun o => o.v.tag != .cap || !((o.kinds ++ o.storeClass).contains (capKind o.v.cap)) with
  | some o => throw (trapCap tTag o.v.cap)
  | none => pure ()
  match ops.find? fun o => o.storeClass.contains (capKind o.v.cap) with
  | some o => throw (trapCap tStoreClass o.v.cap)
  | none => pure ()
  match ops.find? fun o => !c.engPerm o || c.engNoCore o with
  | some o => throw (if c.engNoCore o then trapLodging (addrCore (capAddr o.v.cap)) else trapCap tPerm o.v.cap)
  | none => pure ()

/-- A receipt operand of `n` bytes: 16, or 64 for TILE (R212). -/
def receiptOp (v : Value) : EngOp := { v := v, kinds := [5], perms := [pStore], own := true }
/-- A range of a bounded capability; the reserved part of S lies outside every range (R26), and so does what lies past the end of a
store (log 58). -/
def rangeOk (cap : Cap) (a n : Nat) : Bool := capInBounds cap a n && !pastEnd (capKind cap) (BitVec.ofNat 64 a) n
def alignTrap (a : Word) (n : Nat) : Trap := { code := tAlign, lo := a, hi := BitVec.ofNat 64 n }
/-- ALIGN and BOUNDS of a receipt. -/
def receiptAligned (v : Value) (n : Nat) : Except Trap Unit :=
  if (capAddr v.cap).toNat % n = 0 then .ok () else .error (alignTrap (capAddr v.cap) n)
def receiptBounds (v : Value) (n : Nat) : Except Trap Nat :=
  if rangeOk v.cap (capAddr v.cap).toNat n then .ok (addrOff (capAddr v.cap)) else .error (trapCap tBounds v.cap)

/-- Source and destination of a porter command (R216, R219). -/
def porterOps (s d r : Value) : List EngOp :=
  [{ v := s, kinds := [1, 10, 2, 3, 4, 5], perms := [pLoad] }, { v := d, kinds := [1, 10, 2, 3, 5], storeClass := [4], perms := [pStore] },
   receiptOp r]
/-- The length a CPY moves, from address(d) to limit(d). -/
def capRest (d : Cap) : Nat := capLimit d - (capAddr d).toNat
/-- Tags travel only with load-cap on the source and store-cap on the destination (R217). -/
def tagsTravel (s d : Cap) : Bool := capHas s pLoadCap && capHas d pStoreCap
/-- A porter command of the firing activity. -/
def Ctx.porterCmd (c : Ctx) (s d : Cap) (ss ds : Int) (w h : Nat) (zero : Bool) (receipt : Nat) : PorterCmd :=
  { (default : PorterCmd) with
    act := c.actId, lodging := c.lodging, src := memAddr s (capAddr s), dst := memAddr d (capAddr d), srcStride := ss, dstStride := ds,
    rowBytes := w, rows := h, zero := zero, tags := tagsTravel s d, receipt := receipt }

/-- CPY (R216). Porter copy between memories, reporting to a receipt. -/
def execCpy (pr : BitVec 2) (s : State) : Out :=
  s.fire (nForm .cpy pr 3 4 4 4) plainNull fun c => do
    c.checkEngine (porterOps c.l c.r c.t)
    let s := c.l.cap
    let e := c.r.cap
    let n := capRest e
    if (capAddr s).toNat % 16 ≠ 0 then throw (alignTrap (capAddr s) 16)
    if (capAddr e).toNat % 16 ≠ 0 || n % 16 ≠ 0 then throw (alignTrap (capAddr e) 16)
    receiptAligned c.t 16
    if !rangeOk s (capAddr s).toNat n then throw (trapCap tBounds s)
    if capLimit e < (capAddr e).toNat || !rangeOk e (capAddr e).toNat n then throw (trapCap tBounds e)
    let r ← receiptBounds c.t 16
    c.silent (c.act (.engine (.porter (c.porterCmd s e n n n 1 false r)) r))

/-- TILE (R219). Porter strided copy or zero-fill from a tile record. -/
def execTile (pr : BitVec 2) (s : State) : Out :=
  s.fire (nForm .tile pr 3 4 4 4) plainNull fun c => do
    c.checkEngine (porterOps c.l c.r c.t)
    receiptAligned c.t 64
    let r ← receiptBounds c.t 64
    c.silent (c.act (.tile c.l.cap c.r.cap r))

/-- FEED.a and FEED.b at their firing (R222). -/
def Ctx.feed (c : Ctx) (isB : Bool) : Except Trap Fired := do
  let k := if isB then 2 else 3
  c.checkEngine [{ v := c.l, kinds := [k], storeClass := [5 - k], perms := [pLoad], matrix := true }]
  let lo := (capAddr c.l.cap).toNat
  let hi := capLimit c.l.cap
  if lo % 64 ≠ 0 || hi % 64 ≠ 0 then throw (alignTrap (if lo % 64 ≠ 0 then capAddr c.l.cap else BitVec.ofNat 64 hi) 64)
  if hi < lo || !rangeOk c.l.cap lo (hi - lo) then throw (trapCap tBounds c.l.cap)
  match c.home (capAddr c.l.cap) with
  | some r => c.silent (c.act (.effect (.feed r isB (addrOff (capAddr c.l.cap)) (addrOff (capAddr c.l.cap) + (hi - lo)))))
  | none => throw (trapLodging (addrCore (capAddr c.l.cap)))

/-- FEED.a (R222). Queues an A-store window to fill the A feed. -/
def execFeedA (pr : BitVec 2) (s : State) : Out :=
  s.fire (nForm .feedA pr 1 4 0 0) plainNull fun c => c.feed false

/-- FEED.b (R222). Queues a W-store window to fill the B feed. -/
def execFeedB (pr : BitVec 2) (s : State) : Out :=
  s.fire (nForm .feedB pr 1 4 0 0) plainNull fun c => c.feed true

/-- MMA and MZERO at their firing (R224, R225). -/
def Ctx.matrix (c : Ctx) (isMma : Bool) : Except Trap Fired := do
  let w := c.r.scalar
  let t := numAt w 16 4
  let cap := c.l.cap
  noBroken [c.l, c.r, c.t]
  let perms := if capKind cap = 4 then [pLoad, pStore] else []
  c.checkEngine [{ v := c.l, kinds := [4, 9], perms := perms, matrix := true }, receiptOp c.t]
  if capKind cap = 9 && !bitAt cap (96 + t) then throw (trapCap tPerm cap)
  let a := if capKind cap = 9 then 0x2000 * t else (capAddr cap).toNat + 0x2000 * t
  if a % 0x2000 ≠ 0 then throw (alignTrap (BitVec.ofNat 64 a) 0x2000)
  receiptAligned c.t 16
  if capKind cap = 4 && !rangeOk cap a 0x2000 then throw (trapCap tBounds cap)
  let r ← receiptBounds c.t 16
  let k := numAt w 0 12
  if numAt w 20 44 ≠ 0 || numAt w 13 3 ≠ 0 || (isMma && k = 0) || (!isMma && (k ≠ 0 || bitAt w 12)) then throw (trap tShape)
  match c.home (capAddr cap) with
  | some q =>
    c.silent (c.act (.engine (.matrix { (default : MxCmd) with core := q, isMma := isMma, tile := t, off := a % 2 ^ 52, zero := bitAt w 12,
                                                                steps := k, rcore := c.core, receipt := r }) r))
  | none => throw (trapLodging (addrCore (capAddr cap)))

/-- MMA (R224). Queues K block-steps of the matrix unit into a C tile. -/
def execMma (pr : BitVec 2) (s : State) : Out :=
  s.fire (nForm .mma pr 3 4 2 4) plainNull fun c => c.matrix true

/-- MZERO (R224). Queues the zeroing of a C tile. -/
def execMzero (pr : BitVec 2) (s : State) : Out :=
  s.fire (nForm .mzero pr 3 4 2 4) plainNull fun c => c.matrix false

/-- A command that runs: the head of the unit, an MMA with its leave (R174, R214). -/
def Core.running (c : Core) : Option MxCmd := c.mx.head?.filter fun m => !m.isMma || m.leave == 2
/-- An MMA that still has block-steps to do and none that faults (R226, R227). -/
def MxCmd.stepping (m : MxCmd) : Bool := m.isMma && m.done < m.steps && m.code == 0
/-- The feeds hold fewer fblocks than a block-step needs (R221, R227). -/
def Core.feedShort (c : Core) : Bool := c.aFeed.length < 64 || c.bFeed.length < 32
/-- The word MSTAT yields (R228). -/
def Core.mstat (c : Core) : Word :=
  let run := c.running
  let mma := run.filter fun m => m.isMma
  BitVec.ofNat 64 (((mma.map fun m => m.steps - m.done).getD 0) * 2 ^ 28 + bit1 (mma.any MxCmd.stepping && c.feedShort) * 2 ^ 26
    + bit1 (run.isNone && c.mx.head?.any fun m => m.code == 0) * 2 ^ 25 + bit1 run.isSome * 2 ^ 24 + c.bFeed.length * 2 ^ 16 + c.aFeed.length * 2 ^ 8 + c.mx.length)

/-- MSTAT (R228). Returns the matrix unit's status word. -/
def execMstat (pr : BitVec 2) (t1 : BitVec 9) (t0 : BitVec 9) (s : State) : Out :=
  s.fire (wForm .mstat pr 1 4 0 0 t1 t0) plainNull fun c => do
    c.checkEngine [{ v := c.l, kinds := [4, 9], perms := [], own := true, matrix := true }]
    c.value (dataScalar (c.s.core c.core).mstat)


end Sys2Proof.Machine
end

