-- ==== Sys2Proof/Machine/Translate.lean ====
section
/-! DEFINITION. Device memory under its keys (R469), the space table and page tables (R383 to R388), translation at a
station (R384, R387, R389, R390) and the fault entries of parked requests (R422, R430). -/

namespace Sys2Proof.Machine

/-! ## Device memory -/

/-- Bytes of HBM and of far memory the part has (R2, R420, R465). -/
def State.hbmSize (s : State) : Nat := s.fuses.hbmStacks * 2 ^ 36
def State.farSize (s : State) : Nat := s.fuses.far.1 + s.fuses.far.2
/-- The port of a far address (R420). -/
def State.farPort (s : State) (pa : Nat) : Nat := if s.fuses.far.1 = s.fuses.far.2 then pa / 4096 % 2 else bit1 (s.fuses.far.1 ≤ pa)
/-- The key number under which a lodging's memory is written; 1 for lodging 0, drawn afresh by LODGE.NEW (R469). -/
def State.keyOf (s : State) (lodging : Nat) : Nat := if lodging = 0 then 1 else mapGet s.keys (s.lodging lodging).keySlot
/-- A 64-byte unit as a reader under a key sees it: under another key than it was written with its bytes are free
(log 11); a unit nothing has written reads as zero (log 4). -/
def State.unit (s : State) (isFar : Bool) (key u : Nat) : List Byte :=
  let k := mapGet (if isFar then s.farKeys else s.hbmKeys) u
  if k = 0 ∨ k = key then bytesAt (if isFar then s.far else s.hbm) (64 * u) 64 else bytesOf 64 (Config.freeUnit u)
/-- Reads `n` bytes at a physical address under a key. -/
def State.memRead (s : State) (isFar : Bool) (key pa n : Nat) : List Byte :=
  (List.range n).map fun i => ((s.unit isFar key ((pa + i) / 64))[(pa + i) % 64]?).getD 0
def State.memNum (s : State) (key pa n : Nat) : Nat := natOfBytes (s.memRead false key pa n)
/-- Prepares one unit for a write under a key: bytes of another key are lost. -/
def State.rekey (s : State) (isFar : Bool) (key u : Nat) : State :=
  let b := s.unit isFar key u
  let k := mapGet (if isFar then s.farKeys else s.hbmKeys) u
  if k = key then s
  else if isFar then { s with far := writeBytes s.far (64 * u) b, farKeys := mapSet s.farKeys u key }
  else { s with hbm := writeBytes s.hbm (64 * u) b, hbmKeys := mapSet s.hbmKeys u key }
/-- Writes bytes at a physical address under a key; HBM's granules written lose their tag (R34); a unit covered whole is
no longer poisoned (R452). -/
def State.memWrite (s : State) (isFar : Bool) (key pa : Nat) (bs : List (Option Byte)) : State :=
  let hit := (List.range bs.length).filter fun i => (bs[i]?.getD none).isSome
  if hit.isEmpty then s
  else
    let us := (hit.map fun i => (pa + i) / 64).eraseDups
    let s := us.foldl (fun s u => s.rekey isFar key u) s
    let whole := us.filter fun u => (List.range 64).all fun j => pa ≤ 64 * u + j && hit.contains (64 * u + j - pa)
    if isFar then { s with far := writeMasked s.far pa bs, farPoison := s.farPoison.filter fun e => !whole.contains e.1 }
    else { s with hbm := writeMasked s.hbm pa bs, hbmPoison := s.hbmPoison.filter fun e => !whole.contains e.1,
                  hbmTags := s.hbmTags.filter fun g => !(hit.any fun i => (pa + i) / 16 == g.1) }
def State.setHbmTag (s : State) (g : Nat) (b : Bool) : State := { s with hbmTags := mapSet s.hbmTags g b }
/-- An uncorrectable unit lies in `[pa, pa + n)` (R452). -/
def State.memBad (s : State) (isFar : Bool) (pa n : Nat) : Bool :=
  (if isFar then s.farPoison else s.hbmPoison).any fun e => e.1 * 64 < pa + n && pa < e.1 * 64 + 64

/-! ## Spaces and page tables -/

/-- A space descriptor (R383). -/
structure Space where
  type : Nat
  lodging : Nat
  root : Nat
  mode : Nat
  pasid : Nat
deriving DecidableEq, Repr

/-- The descriptor of a space; space 0 and type 11 are unused (R383). -/
def State.space (s : State) (n : Nat) : Space :=
  let a := s.fuses.spaceTable + 16 * n
  let w0 := s.memNum 1 a 8
  let w1 := s.memNum 1 (a + 8) 8
  { type := if n = 0 ∨ w0 / 2 ^ 62 = 3 then 0 else w0 / 2 ^ 62, lodging := w0 / 2 ^ 54 % 256, root := w0 / 2 ^ 12 % 2 ^ 42 * 2 ^ 12,
    mode := w1 / 2 ^ 20 % 4, pasid := w1 % 2 ^ 20 }

/-- How a walk ends (R386). -/
inductive Walk where
  | leaf (l : Leaf)
  | invalid (malformed : Bool)
deriving DecidableEq, Repr

/-- Bits of the offset below level `n`'s index, and the index bits (R385). -/
def levelShift (n : Nat) : Nat := match n with | 0 => 19 | 1 => 25 | _ => 34
def levelBits (n : Nat) : Nat := match n with | 0 => 6 | 1 => 9 | _ => 14
/-- A pointer (R386): valid, marker 1111, at level 2 or 1. -/
def isPointer (level e : Nat) : Bool := level != 0 && e / 2 ^ 59 == 31
def pointerOk (e : Nat) : Bool := e / 2 ^ 54 % 32 == 0 && e % 2 ^ 12 == 0
/-- A leaf of a device space that is not malformed (R386, R415, R420); frames beyond the part's memory are (log 22). -/
def State.leafOk (s : State) (level e : Nat) : Bool :=
  let frame := e / 2 ^ 19 % 2 ^ 35 * 2 ^ 19
  let low := match level with | 0 => 0 | 1 => frame / 2 ^ 19 % 2 ^ 6 | _ => frame / 2 ^ 19 % 2 ^ 15
  let tier := e / 2 ^ 59 % 4
  let peer := tier == 0 && e / 2 ^ 53 % 2 == 1
  let dev := e / 2 ^ 33 % 2 ^ 20
  e / 2 ^ 61 % 4 != 3 && tier < 2 && e / 2 ^ 54 % 4 == 0 && e % 2 ^ 19 == 0 && low == 0
    && (if peer then dev < 2 ^ 19 && dev != s.fuses.device && e / 2 ^ 19 % 2 ^ 14 == 0
        else if tier == 1 then frame / 2 ^ 43 == 0 && frame + 2 ^ levelShift level ≤ s.farSize
        else frame + 2 ^ levelShift level ≤ s.hbmSize)
/-- The leaf an entry stands for. -/
def leafOf (space level va e : Nat) : Leaf :=
  let size := 2 ^ levelShift level
  let frame := e / 2 ^ 19 % 2 ^ 35 * 2 ^ 19
  { space := space, base := va / size * size, size := size, kind := e / 2 ^ 61 % 4,
    rd := e / 2 ^ 58 % 2 == 1, wr := e / 2 ^ 57 % 2 == 1, ex := e / 2 ^ 56 % 2 == 1,
    place := if e / 2 ^ 59 % 4 = 1 then .far frame else if e / 2 ^ 53 % 2 = 1 then .peer (e / 2 ^ 33 % 2 ^ 20) else .hbm frame }
/-- The address of the entry for `va` in a level's table (R385). -/
def entryAddr (table level va : Nat) : Nat := table + 8 * (va / 2 ^ levelShift level % 2 ^ levelBits level)
/-- The entry that ends a walk: invalid, malformed or a leaf (R386). -/
def State.walkEntry (s : State) (space va level table : Nat) : Walk :=
  let e := natOfBytes (bytesAt s.hbm (entryAddr table level va) 8)
  if e / 2 ^ 63 = 0 then .invalid false
  else if s.leafOk level e then .leaf (leafOf space level va e) else .invalid true
/-- The walk of R386, from a level's table down. -/
def State.walkFrom (s : State) (space va : Nat) : Nat → Nat → Walk
  | 0, table => s.walkEntry space va 0 table
  | level + 1, table =>
    let e := natOfBytes (bytesAt s.hbm (entryAddr table (level + 1) va) 8)
    let next := e / 2 ^ 12 % 2 ^ 42 * 2 ^ 12
    if isPointer (level + 1) e then
      (if pointerOk e && next + 2 ^ 12 ≤ s.hbmSize then s.walkFrom space va level next else .invalid true)
    else s.walkEntry space va (level + 1) table
/-- The table that holds the level-`level` entry for `va`, or none where the walk stops above it (R433). -/
def State.tableFor (s : State) (va level : Nat) : Nat → Nat → Option Nat
  | 0, table => some table
  | at' + 1, table =>
    if at' + 1 ≤ level then some table
    else
      let e := natOfBytes (bytesAt s.hbm (entryAddr table (at' + 1) va) 8)
      if isPointer (at' + 1) e && pointerOk e then s.tableFor va level at' (e / 2 ^ 12 % 2 ^ 42 * 2 ^ 12) else none
/-- The walk of a device space for a virtual address; bits [63:48] are ignored (R385). -/
def State.walk (s : State) (space root : Nat) (va : Word) : Walk := s.walkFrom space (numAt va 0 48) 2 root

/-! ## Stations -/

/-- The station of a request (R389). -/
def stationOf (die space : Nat) (va : Word) : Nat := 8 * die + (numAt va 19 3 ^^^ (space % 8))
def State.station (s : State) (n : Nat) : Station := mapGet s.stations n
def State.updStation (s : State) (n : Nat) (f : Station → Station) : State := { s with stations := mapUpd s.stations n f }
/-- The virtual address as a leaf's tag holds it (R385, R394): bits [63:48] are ignored in a device space alone. -/
def Leaf.tagOf (l : Leaf) (va : Word) : Nat := match l.place with | .host .. => va.toNat | _ => numAt va 0 48
def Leaf.covers (l : Leaf) (va : Word) : Bool := l.base ≤ l.tagOf va && l.tagOf va < l.base + l.size
/-- A cached leaf that covers an address (R390). -/
def Station.find (t : Station) (space : Nat) (va : Word) : Option Leaf := t.cache.find? fun l => l.space == space && l.covers va
/-- Caches a leaf, in place of an older answer of the host for the page (R394); a full cache of 4,096 leaves drops its oldest (R390). -/
def Station.keep (t : Station) (l : Leaf) : Station :=
  if t.cache.contains l then t
  else
    let older := fun (x : Leaf) => (match l.place with | .host .. => true | _ => false) && x.space == l.space && x.base < l.base + l.size && l.base < x.base + x.size
    let kept := t.cache.filter fun x => !older x
    { t with cache := (kept ++ [l]).drop (kept.length + 1 - 4096) }
/-- A station whose 64 walks and whose miss buffer of 512 are taken takes no requests (R392). -/
def Station.full (t : Station) : Bool := 64 ≤ t.walks.length && 512 ≤ t.buffer.length

/-- Accesses of R430: 0 load, 1 store, 2 atomic, 3 fetch, 4 porter read, 5 porter write. -/
def Leaf.allows (l : Leaf) (access : Nat) : Bool :=
  match access with
  | 0 => l.rd | 1 => l.wr | 2 => l.rd && l.wr
  | 3 => l.ex && (match l.place with | .far _ => false | _ => true)
  | 4 => l.rd | _ => l.wr
/-- The place an address of a leaf names (R386, R415). -/
def Leaf.at (l : Leaf) (va : Word) : Place :=
  match l.place with
  | .hbm pa => .hbm (pa + (numAt va 0 48 - l.base))
  | .far pa => .far (pa + (numAt va 0 48 - l.base))
  | .host pa m => .host (pa + (va.toNat - l.base)) m
  | p => p

/-- The check of R384: the space is used, its lodging is the request's (skipped in steward mode, R427), and its type fits
the capability's kind. -/
def Space.fits (d : Space) (kind lodging : Nat) (steward : Bool) : Bool :=
  d.type == (if kind = 10 then 2 else 1) && (steward || d.lodging == lodging)
/-- The leaf of the page that an address reaches now, whatever it permits; none where the page is not there. -/
def State.leafAt (s : State) (core : Nat) (a : MemAddr) : Option Leaf :=
  match (s.station (stationOf (dieOf core) a.space a.va)).find a.space a.va with
  | some l => some l
  | none =>
    if a.kind ≠ 1 then none
    else match s.walk a.space (s.space a.space).root a.va with
      | .leaf l => some l
      | .invalid _ => none
/-- The page of an address has no valid entry now: its kind is not known yet (R366, R388). -/
def State.unmapped (s : State) (core : Nat) (a : MemAddr) : Bool := a.kind == 1 && (s.leafAt core a).isNone
/-- The ordering kind of the page an address reaches (R365): 0 STRONG, 1 RELEASE, 2 UNORDERED; a peer's page has the kind that the peer
gives it, which this device does not hold (log 13). -/
def State.pageKind (s : State) (core : Nat) (a : MemAddr) : Nat :=
  if a.kind ≠ 1 then 1
  else match s.leafAt core a with
    | some l => (match l.place with | .peer d => Config.peerKind d a.space (numAt a.va 19 29) % 3 | _ => l.kind)
    | none => 1

/-! ## Fault entries (R388, R422, R430) -/

/-- The 32 bytes of a record (R430). -/
def FaultEntry.bytes (e : FaultEntry) (station lodging : Nat) : List Byte :=
  bytesOf 8 (BitVec.ofNat 64 (e.page * 2 ^ 19 + e.access * 2 ^ 16 + Nat.min e.merge 255 * 2 ^ 8 + station)) ++
  bytesOf 8 (BitVec.ofNat 64 (bit1 e.engine * 2 ^ 40 + bit1 e.malformed * 2 ^ 39 + e.slotNo % 8 * 2 ^ 36 + e.core % 2 ^ 12 * 2 ^ 24
    + lodging % 256 * 2 ^ 16 + e.space)) ++ bytesOf 8 e.cycle ++ bytesOf 8 e.block
/-- The S router and offset of a slot of a lodging's fault ring (R422). -/
def State.faultSlot (s : State) (lodging j : Nat) : Option (Nat × Nat) :=
  let f := (s.lodging lodging).faultRing
  (s.router 0 (addrCore (capAddr f))).map fun r => (r, addrOff (capAddr f) + 32 * j)
/-- Writes a record into its slot. -/
def State.putRecord (s : State) (station : Nat) (e : FaultEntry) : State :=
  let lodging := (s.space e.space).lodging
  match e.slot with
  | none => s
  | some j => match s.faultSlot lodging j with
    | some (r, off) => s.updCore r fun c => { c with s := c.s.put off (e.bytes station lodging) }
    | none => s
/-- The message that a record gives rise to: F, addressed to the slot, for the lodging's fault queue (R422). -/
def State.faultMsg (s : State) (lodging j : Nat) : Nat × Nat × Msg :=
  let l := s.lodging lodging
  let f := capWithAddr l.faultRing (capAddr l.faultRing + BitVec.ofNat 64 (32 * j))
  ((s.router 0 (addrCore (capAddr l.faultQueue))).getD 4096, addrOff (capAddr l.faultQueue),
    { data := f.zeroExtend 512, cap := true, core := 0xFFF, lodging := lodging, toCore := 0 })
/-- Takes the lodging's next slot in turn for an entry, when that slot has been retired, writes the record, and owes its message (R422). -/
def State.placeRecord (s : State) (station : Nat) (e : FaultEntry) : State × FaultEntry :=
  let lodging := (s.space e.space).lodging
  let l := s.lodging lodging
  if e.slot.isSome ∨ mapGet l.busySlots l.nextFault then (s, e)
  else
    let e := { e with slot := some l.nextFault }
    let s := s.updStation station fun t => { t with msgs := t.msgs ++ [s.faultMsg lodging l.nextFault] }
    let s := s.updLodging lodging fun l => { l with busySlots := mapSet l.busySlots l.nextFault true,
                                                    nextFault := (l.nextFault + 1) % 2 ^ l.ringSize }
    (s.putRecord station e, e)
/-- Parks a request at an invalid entry: it joins the outstanding entry of its page, or forms one (R388, R422). -/
def State.park (s : State) (station : Nat) (e : FaultEntry) : State :=
  let t := s.station station
  if t.faults.any fun f => f.space == e.space && f.page == e.page then
    let s := s.updStation station fun t =>
      { t with faults := t.faults.map fun f => if f.space == e.space && f.page == e.page then { f with merge := f.merge + 1 } else f }
    (((s.station station).faults.filter fun f => f.space == e.space && f.page == e.page).foldl (fun s f => s.putRecord station f) s)
  else
    let (s, e) := s.placeRecord station e
    s.updStation station fun t => { t with faults := t.faults ++ [e] }
/-- The entry of a request of an activity's block, or of an engine command (R430). -/
def State.faultOf (s : State) (core slot space : Nat) (va : Word) (access : Nat) (malformed engine : Bool) (block : Word) : FaultEntry :=
  { (default : FaultEntry) with space := space, page := numAt va 19 29, access := access, malformed := malformed, cycle := s.cycle,
                                block := block, engine := engine, core := (s.core core).logicalNo, slotNo := slot }

/-! ## Translations that no request for memory carries -/

/-- What a translation comes to: a place with its leaf, a code, or a wait while a request of its own stands at the station. -/
inductive Sought where
  | ok (p : Place) (l : Leaf)
  | fail (code : Nat)
  | wait (s : State)

/-- The 512 KiB page of an address (R389). -/
def MemAddr.page (a : MemAddr) : Nat := numAt a.va 19 29
/-- Addresses of one page of a space, whose requests keep their order (R393); a host page is one of 4 KiB (R394). -/
def MemAddr.samePage (a b : MemAddr) : Bool :=
  a.space == b.space && (if a.kind = 10 then a.va.toNat / 4096 == b.va.toNat / 4096 else a.page == b.page)
/-- The address, and the access, that a request asks its station for, when it has no operation of its own there. -/
def Eff.seeks : Eff → Option (Seeker × MemAddr × Nat) | .xlate w a access => some (w, a, access) | _ => none
/-- A seeker's request stands at its station. -/
def State.seeking (s : State) (core : Nat) (w : Seeker) : Bool :=
  s.reqs.any fun q => q.act.core == core && (match q.eff.seeks with | some (v, _, _) => v == w | none => false)
/-- A seeker waits for its translation, or for a line of a peer (R415). -/
def State.reading (s : State) (core : Nat) (w : Seeker) : Bool :=
  s.seeking core w || s.reqs.any fun q => q.act.core == core && (match q.eff, q.stage with
    | .line .., .done _ => false
    | .line v _ _, _ => v == w
    | _, _ => false)
/-- A request of the core for the same page stands at the station (R393); one that only asks for a translation stands there from its look-up on. -/
def State.pageQueued (s : State) (core : Nat) (a : MemAddr) : Bool :=
  s.reqs.any fun q => q.act.core == core
    && (match q.stage with | .station => q.eff.seeks.isNone | .walking | .buffered | .page => true | _ => false)
    && (match q.eff with | .mem _ b _ | .xlate _ b _ => a.samePage b | _ => false)
/-- Asks for a translation (R384, R388, R390): a hit that nothing stands before answers at once, and all else becomes a request at the
station; its answer lets the seeker ask again, or fails it. -/
def State.seek (s : State) (core lodging : Nat) (w : Seeker) (a : MemAddr) (access : Nat) (block : Word) : Sought :=
  if s.seeking core w then .wait s
  else if !(s.space a.space).fits a.kind lodging (isSteward core) then .fail tProtection
  else
    let t := s.station (stationOf (dieOf core) a.space a.va)
    match if t.full || s.pageQueued core a || t.faults.any (fun f => f.space == a.space && f.page == a.page) then none else t.find a.space a.va with
    | some l =>
      if l.allows access then .ok (l.at a.va) l
      else if (s.space a.space).type = 2 then .wait (s.issue (deviceAct core) lodging 0 block 0 (.xlate w a access) .station)
      else .fail tProtection
    | none => .wait (s.issue (deviceAct core) lodging 0 block 0 (.xlate w a access) .station)

/-- How a read of a line of code, or of 32 bytes of a descriptor, ends (R49, R387, R472). -/
inductive CodeRead where
  | ok (line : V512)
  | fail (code : Nat)
  | wait (s : State)
/-- The line that a seeker reads from a page of a peer (R415): it is asked of the peer, and stands with its request until the seeker is done
with it. -/
def State.peerLine (s : State) (core lodging : Nat) (w : Seeker) (device : Nat) (a : MemAddr) : CodeRead :=
  let e := Eff.line w device { a with va := a.va / 64 * 64 }
  match s.reqs.find? fun q => q.act.core == core && q.eff == e with
  | none => .wait (s.issue (deviceAct core) lodging 0 0 0 e .queued)
  | some q => match q.stage with
    | .done (.val v _) => .ok v.bits
    | .done (.fail c _ _) => .fail c.toNat
    | _ => .wait s
/-- The seeker is done with what it has read from peers. -/
def State.dropLines (s : State) (core : Nat) (w : Seeker) : State :=
  { s with reqs := s.reqs.filter fun q => !(q.act.core == core && (match q.eff with | .line v _ _ => v == w | _ => false)) }

end Sys2Proof.Machine
end

