-- ==== Sys2Proof/Machine/System.lean ====
section
/-! DEFINITION. The system group at its firing: TRAP, ISYNC, state words, custody (R301 to R310) and the steward instructions (R431 to R443). -/

namespace Sys2Proof.Machine

/-- TRAP (R301). Always fails its commit check with code TRAP. -/
def execTrap (pr : BitVec 2) (s : State) : Out :=
  s.fire (nForm .trap pr 1 2 0 0) plainNull fun c => do
    let v ← checkScalar c.l
    c.silent (c.act (.trap v))

/-- ISYNC (R302). Discards the core's block cache before the exit fetches. -/
def execIsync (pr : BitVec 2) (s : State) : Out :=
  s.fire (nForm .isync pr 0 0 0 0) plainNull fun c => c.silent (c.act .isync)

/-- The state words of R303 and R429. -/
def stateWord (n : Nat) : Bool := n ≤ 0x09 || (0x10 ≤ n && n ≤ 0x30) || (0x40 ≤ n && n ≤ 0x42)
def writable (n : Nat) : Bool := n == 6 || n == 7 || (0x20 ≤ n && n ≤ 0x2F) || n == 0x40
/-- The checks on n (R303, R429). -/
def Ctx.checkWord (c : Ctx) (v : Value) (isWrite : Bool) : Except Trap Nat :=
  let n := v.scalar.toNat
  if v.tag == .broken then .error (trap tBrokenUse)
  else if 256 ≤ n || !stateWord n then .error (trap tShape)
  else if (0x40 ≤ n && !c.steward) || (isWrite && !writable n) then .error { code := tPerm, lo := v.scalar, hi := 0 }
  else .ok n
/-- The scalar words of R303 and R429: `s.cycle` and `s.ev` at the firing, the others as at the admission (R304); a twin reads its own router and
slot (R460). -/
def Ctx.word64 (c : Ctx) (n : Nat) : Word :=
  let k := c.s.core c.core
  match n with
  | 0x00 => c.s.cycle
  | 0x01 => BitVec.ofNat 64 k.logicalNo
  | 0x02 => BitVec.ofNat 64 (c.x.seenAs.getD (c.core, c.slot)).1
  | 0x03 => BitVec.ofNat 64 (c.x.seenAs.getD (c.core, c.slot)).2
  | 0x04 => zext64 c.x.launch
  | 0x05 => BitVec.ofNat 64 k.lodging
  | 0x06 => c.x.blk.round
  | 0x07 => zext64 c.x.blk.seed
  | 0x08 => BitVec.ofNat 64 c.x.blk.obs.rankMin
  | 0x09 => BitVec.ofNat 64 c.x.blk.obs.heldMask
  | 0x40 => zext64 c.x.serve
  | 0x41 => zext64 c.x.image
  | 0x42 => c.x.blk.switch
  | _ => zext64 (mapGet k.ev (n - 0x20))

/-- SYS.RD (R304). Reads a state word. -/
def execSysRd (pr : BitVec 2) (t1 : BitVec 9) (t0 : BitVec 9) (s : State) : Out :=
  s.fire (wForm .sysRd pr 1 2 0 0 t1 t0) plainNull fun c => do
    let n ← c.checkWord c.l false
    let v := if 0x10 ≤ n ∧ n ≤ 0x1F then dataValue ((obWord c.x.blk.obs.custodial (mapGet c.x.blk.obs.ents (n - 0x10))).zeroExtend 512)
      else if n = 0x30 then capValue c.x.blk.service
      else dataScalar (c.word64 n)
    c.value (c.masked v)

/-- SYS.WR (R305). Writes a writable state word at commit. -/
def execSysWr (pr : BitVec 2) (s : State) : Out :=
  s.fire (nForm .sysWr pr 2 2 2 0) plainNull fun c => do
    noBroken [c.l, c.r]
    let n ← c.checkWord c.l true
    c.silent (c.act (.sysWr n c.r.scalar))

/-- The steward check of R116 and R431: a BROKEN operand, then the mode. -/
def Ctx.needSteward (c : Ctx) (vs : List Value) : Except Trap Unit := do
  noBroken vs
  if !c.steward then throw (trap tPerm)
/-- A custody record operand (R306): LODGING for a core outside the lodging of `s.serve`; the slot, or none where the
offset names no record of a slot the core offers, which faults SHAPE at the commit. -/
def Ctx.custodyAt (c : Ctx) (v : Word) : Except Trap (Nat × Option Nat) :=
  match c.s.router c.x.serve.toNat (addrCore v) with
  | none => .error (trapLodging (addrCore v))
  | some r =>
    let off := addrOff v
    .ok (r, if 0xE000 ≤ off ∧ (off - 0xE000) % 0x80 = 0 ∧ (off - 0xE000) / 0x80 < c.s.slotCount r then some ((off - 0xE000) / 0x80) else none)
/-- The mark of a reservation by an activity (R306). -/
def Ctx.reserver (c : Ctx) : Nat := 8 * c.core + c.slot + 1
/-- A record that another activity's block has reserved (R306). -/
def Ctx.taken (c : Ctx) (v : Value) : Bool :=
  match c.custodyAt v.scalar with
  | .ok (r, some k) => let m := (c.s.slot r k).custody.reserved; m != 0 && m != c.reserver
  | _ => false
/-- Reserves a record until the block commits (R267, R306). -/
def Ctx.reserveRecord (c : Ctx) (s : State) (r k : Nat) : State :=
  s.updSlot r k fun x => { x with custody := { x.custody with reserved := c.reserver } }
/-- The custody records that a CUS instruction names (R307 to R310). -/
def Ctx.names (c : Ctx) : Row → List Value
  | .cusTake | .cusResume | .cusBreak => [c.l]
  | .cusGive => [c.l] ++ (if c.t.tag == .cap then [] else [c.t])
  | _ => []
/-- The CUS instruction at `here` waits for a record that another block has reserved; one that its predicate or a null token keeps from
acting names none (R58, R306). -/
def State.cusWaits (s : State) (f : Form) : Bool :=
  match s.ctx f with
  | none => false
  | some (c, p) => match readPred f.pr p with
    | .run _ => c.steward && !f.nullData c && (c.names f.row).any c.taken
    | _ => false
/-- Fires a CUS instruction that does not wait. -/
def State.fireCus (s : State) (f : Form) (act : Ctx → Except Trap Fired) : Out :=
  if s.cusWaits f then .next s else s.fire f plainNull act

/-- CUS.TAKE (R307). Marks a custody record taken and returns one held entry. -/
def execCusTake (pr : BitVec 2) (t1 : BitVec 9) (t0 : BitVec 9) (s : State) : Out :=
  s.fireCus (wForm .cusTake pr 2 2 2 0 t1 t0) fun c => do
    c.needSteward [c.l, c.r]
    let (r, k) ← c.custodyAt c.l.scalar
    let j := c.r.scalar.toNat
    match k with
    | some k =>
      let y := c.s.slot r k
      let w : BitVec 192 := (y.custody.stateWord ++ obWord y.obs.custodial (mapGet y.obs.ents j))
      let v := c.masked (dataValue (w.zeroExtend 512))
      let s := if j < 16 then { c with s := c.reserveRecord c.s r k }.act (.cusTake r k) else c.act .shape
      return { s := s, v0 := v, v1 := v }
    | none => return { s := c.act .shape, v0 := nullToken, v1 := nullToken }

/-- CUS.RESUME (R308). Returns a trapped activity to running at a given block. -/
def execCusResume (pr : BitVec 2) (s : State) : Out :=
  s.fireCus (nForm .cusResume pr 2 2 2 0) fun c => do
    c.needSteward [c.l, c.r]
    let (r, k) ← c.custodyAt c.l.scalar
    match k with
    | some k => c.silent ({ c with s := c.reserveRecord c.s r k }.act (.cusResume r k c.r.scalar))
    | none => c.silent (c.act .shape)

/-- CUS.GIVE (R309). Moves custodial entries to another custody set or a new activity. -/
def execCusGive (pr : BitVec 2) (s : State) : Out :=
  s.fireCus (nForm .cusGive pr 3 2 2 2) fun c => do
    c.needSteward [c.l, c.r, c.t]
    let (r, k) ← c.custodyAt c.l.scalar
    match k with
    | none => c.silent (c.act .shape)
    | some k =>
      let m := c.r.scalar
      if m.toNat = 0 || 2 ^ 16 ≤ m.toNat then c.silent (c.act .shape)
      else if c.t.tag == .cap then
        let e ← checkCap c.t 12 [pInvoke]
        let s := { c with s := c.reserveRecord c.s r k }.act (.cusGive r k m c.t r k)
        c.silent (c.ask s (.entry e))
      else
        let (q, j) ← c.custodyAt c.t.scalar
        match j with
        | none => c.silent (c.act .shape)
        | some j => c.silent ({ c with s := c.reserveRecord (c.reserveRecord c.s r k) q j }.act (.cusGive r k m c.t q j))

/-- CUS.BREAK (R310). Breaks every custodial entry and optionally ends the activity. -/
def execCusBreak (pr : BitVec 2) (s : State) : Out :=
  s.fireCus (nForm .cusBreak pr 3 2 2 2) fun c => do
    c.needSteward [c.l, c.r, c.t]
    let (r, k) ← c.custodyAt c.l.scalar
    match k with
    | none => c.silent (c.act .shape)
    | some k =>
      if numAt c.r.scalar 0 8 = 0 || 1 < c.t.scalar.toNat then c.silent (c.act .shape)
      else c.silent ({ c with s := c.reserveRecord c.s r k }.act (.cusBreak r k c.r.scalar c.t.scalar))

/-- An act whose fields passed the commit-time checks of R431, or SHAPE at the commit. -/
def Ctx.actIf (c : Ctx) (ok : Bool) (a : Act) : Except Trap Fired := c.silent (c.act (if ok then a else .shape))
/-- What STN.MAP may write (R433): an invalid entry, a pointer at level 2 or 1, a leaf that is not malformed. -/
def State.mapEntryOk (s : State) (level e : Nat) : Bool :=
  e / 2 ^ 63 == 0 || (if isPointer level e then pointerOk e else s.leafOk level e)

/-- STN.MAP (R433). Writes a page-table entry of a device space. -/
def execStnMap (pr : BitVec 2) (s : State) : Out :=
  s.fire (nForm .stnMap pr 3 2 2 2) plainNull fun c => do
    c.needSteward [c.l, c.r, c.t]
    let w := c.l.scalar
    let level := numAt w 16 2
    c.actIf (numAt w 18 46 == 0 && level != 3 && numAt w 0 16 != 0 && c.s.mapEntryOk level c.t.scalar.toNat)
      (.effect (.stnMap (numAt w 0 16) level c.r.scalar c.t.scalar))

/-- STN.INV (R434). Drops cached translations of a range at all stations. -/
def execStnInv (pr : BitVec 2) (s : State) : Out :=
  s.fire (nForm .stnInv pr 3 2 2 2) plainNull fun c => do
    c.needSteward [c.l, c.r, c.t]
    let w := c.l.scalar
    let n := c.t.scalar.toNat
    c.actIf (numAt w 16 48 == 0 && numAt w 0 16 != 0 && 1 ≤ n && n ≤ 2 ^ 48) (.effect (.stnInv (numAt w 0 16) c.r.scalar.toNat n))

/-- STN.REPLAY (R435). Retires a fault entry and re-walks or fails its parked requests. -/
def execStnReplay (pr : BitVec 2) (s : State) : Out :=
  s.fire (nForm .stnReplay pr 2 2 2 0) plainNull fun c => do
    c.needSteward [c.l, c.r]
    let w := c.l.scalar
    let f := c.r.scalar
    c.actIf (numAt w 17 47 == 0 && numAt w 0 16 != 0 && numAt f 0 8 < 64) (.effect (.stnReplay (numAt f 0 8) (numAt w 0 16) (numAt f 19 29) (bitAt w 16)))

/-- A receipt operand alone (R431, R442). -/
def Ctx.receipt (c : Ctx) (v : Value) : Except Trap Nat := do
  c.checkEngine [receiptOp v]
  receiptAligned v 16
  receiptBounds v 16

/-- LODGE.NEW (R436). Creates a lodging from a lodging record. -/
def execLodgeNew (pr : BitVec 2) (s : State) : Out :=
  s.fire (nForm .lodgeNew pr 2 4 4 0) plainNull fun c => do
    c.needSteward [c.l, c.r]
    c.checkEngine [{ v := c.l, kinds := [5], perms := [pLoad], own := true, plain := true }, receiptOp c.r]
    if (capAddr c.l.cap).toNat % 128 ≠ 0 then throw (alignTrap (capAddr c.l.cap) 128)
    receiptAligned c.r 16
    if !rangeOk c.l.cap (capAddr c.l.cap).toNat 128 then throw (trapCap tBounds c.l.cap)
    let r ← receiptBounds c.r 16
    c.silent (c.act (.lodgeNew (addrOff (capAddr c.l.cap)) r))

/-- LODGE.END (R437). Ends a lodging, breaking its obligations and cancelling its engines. -/
def execLodgeEnd (pr : BitVec 2) (s : State) : Out :=
  s.fire (nForm .lodgeEnd pr 2 2 2 0) plainNull fun c => do
    c.needSteward [c.l, c.r]
    let n := c.l.scalar.toNat
    c.actIf (1 ≤ n && n ≤ 255 && numAt c.r.scalar 0 8 != 0) (.effect (.lodgeEnd n (bitsAt c.r.scalar 0 8)))

/-- MIGRATE (R440). Moves one logical core of a lodging to another router. -/
def execMigrate (pr : BitVec 2) (s : State) : Out :=
  s.fire (nForm .migrate pr 3 2 2 4) plainNull fun c => do
    c.needSteward [c.l, c.r, c.t]
    let n := c.x.serve.toNat
    let l := c.l.scalar.toNat
    c.checkEngine [receiptOp c.t]
    if (c.s.router n l).isNone then throw { code := tLodging, lo := c.l.scalar, hi := 0 }
    let r ← c.receipt c.t
    c.silent (c.act (.engine (.migrate n l c.r.scalar.toNat r) r))

/-- A save record operand, kind 1 with a permission (R438, R439), beside a receipt: steps 1 to 4 of R212 over both, then the receipt's place. -/
def Ctx.saveOps (c : Ctx) (v : Value) (perm : Nat) : Except Trap (MemAddr × Nat) := do
  c.checkEngine [{ v := v, kinds := [1], perms := [perm] }, receiptOp c.t]
  let r ← c.receipt c.t
  return (memAddr v.cap (capAddr v.cap), r)

/-- SHADOW.SAVE (R438). Halts, drains and saves a lodging into a save record. -/
def execShadowSave (pr : BitVec 2) (s : State) : Out :=
  s.fire (nForm .shadowSave pr 3 2 4 4) plainNull fun c => do
    c.needSteward [c.l, c.r, c.t]
    let (m, r) ← c.saveOps c.r pStore
    c.silent (c.act (.engine (.shadowSave c.l.scalar.toNat m (capRest c.r.cap) r) r))

/-- SHADOW.LOAD (R439). Restores a saved lodging onto a rectangle. -/
def execShadowLoad (pr : BitVec 2) (s : State) : Out :=
  s.fire (nForm .shadowLoad pr 3 2 4 4) plainNull fun c => do
    c.needSteward [c.l, c.r, c.t]
    let (m, r) ← c.saveOps c.r pLoad
    let q := c.l.scalar
    c.silent (c.act (.engine (.shadowLoad (numAt q 0 16, numAt q 16 16, numAt q 32 16, numAt q 48 16) m r) r))

/-- TEST.RUN (R441). Runs a built-in pattern set on one unit in idle cycles. -/
def execTestRun (pr : BitVec 2) (s : State) : Out :=
  s.fire (nForm .testRun pr 3 2 2 4) plainNull fun c => do
    c.needSteward [c.l, c.r, c.t]
    let u := c.l.scalar
    let r ← c.receipt c.t
    c.actIf (numAt u 17 47 == 0 && numAt u 13 4 < 8 && numAt u 0 13 < 4144 && c.r.scalar.toNat < 256)
      (.engine (.testRun (numAt u 0 13) (numAt u 13 4) c.r.scalar.toNat r) r)

/-- STAT.SUM (R442). Contributes the core's event counters to a launch-wide sum. -/
def execStatSum (pr : BitVec 2) (s : State) : Out :=
  s.fire (nForm .statSum pr 2 4 4 0) plainNull fun c => do
    c.checkEngine [{ v := c.l, kinds := [1, 5], perms := [pStore], plain := true }, receiptOp c.r]
    let a := capAddr c.l.cap
    if a.toNat % 64 ≠ 0 then throw (alignTrap a 64)
    receiptAligned c.r 16
    if !rangeOk c.l.cap a.toNat 64 then throw (trapCap tBounds c.l.cap)
    let r ← receiptBounds c.r 16
    c.silent (c.act (.engine (.statSum (memAddr c.l.cap a) r [] c.x.rect) r))

/-- ENGINE.CANCEL (R443). Stops every engine command reporting to a receipt, ending it with a code. -/
def execEngineCancel (pr : BitVec 2) (s : State) : Out :=
  s.fire (nForm .engineCancel pr 2 2 2 0) plainNull fun c => do
    c.needSteward [c.l, c.r]
    let a := c.l.scalar
    match c.s.router c.x.serve.toNat (addrCore a) with
    | none => throw (trapLodging (addrCore a))
    | some r => c.actIf (addrOff a % 16 == 0 && numAt c.r.scalar 0 8 != 0) (.effect (.cancel r (addrOff a) (bitsAt c.r.scalar 0 8)))


end Sys2Proof.Machine
end

