-- ==== Sys2Proof/Machine/Land.lean ====
section
/-! DEFINITION. Landings (R70, R71): a value or a code reaches every EMPTY register that waits for one request, wherever
the register is: in a slot, in a copy that a start carries (R15), in a saved context (R71, R342). -/

namespace Sys2Proof.Machine

/-- Changes the entries of a map for which `hit` holds. -/
def mapEach {α : Type} [Inhabited α] [DecidableEq α] (m : Map α) (hit : α → Bool) (f : α → α) : Map α :=
  m.foldl (fun m' e => if hit e.2 then mapSet m' e.1 (f e.2) else m') m

/-- Registers that wait for a request. -/
def awaits (id : Nat) (m : Map Reg) : Bool := id != 0 && m.any fun e => e.2.req == id
def landRegs (id : Nat) (f : Reg → Reg) (m : Map Reg) : Map Reg := mapEach m (fun g => g.req == id) f
def Slot.awaits (id : Nat) (x : Slot) : Bool := Machine.awaits id x.regs
def Slot.land (id : Nat) (f : Reg → Reg) (x : Slot) : Slot := { x with regs := landRegs id f x.regs }
def Start.land (id : Nat) (f : Reg → Reg) (st : Start) : Start := { st with copies := landRegs id f st.copies }
def Launch.land (id : Nat) (f : Reg → Reg) (l : Launch) : Launch := { l with copies := landRegs id f l.copies }
def Eff.land (id : Nat) (f : Reg → Reg) : Eff → Eff
  | .spawn c st => .spawn c (st.land id f)
  | .launch l => .launch (l.land id f)
  | e => e
def Core.awaits (id : Nat) (c : Core) : Bool :=
  c.slots.any (fun e => e.2.awaits id) || c.ring.any (fun st => Machine.awaits id st.copies)
    || c.arrivals.any (fun st => Machine.awaits id st.copies) || c.resume.any (fun e => e.2.awaits id)
def Core.land (id : Nat) (f : Reg → Reg) (c : Core) : Core :=
  { c with slots := mapEach c.slots (Slot.awaits id) (Slot.land id f), ring := c.ring.map (Start.land id f),
           arrivals := c.arrivals.map (Start.land id f), resume := c.resume.map (fun e => (e.1, e.2.land id f)) }
/-- Fills, or marks with a code, every register that waits for request `id`. -/
def State.land (s : State) (id : Nat) (f : Reg → Reg) : State :=
  { s with cores := mapEach s.cores (Core.awaits id) (Core.land id f),
           reqs := s.reqs.map fun r => { r with eff := r.eff.land id f },
           desk := s.desk.map (Launch.land id f),
           saves := s.saves.map fun v => { v with images := v.images.map fun i => { i with core := i.core.land id f } } }

/-- A register as a landing fills it (R70); the rank of a landing from an object is kept for the next admission (R246). -/
def landed (v : Value) (rank : Nat) (g : Reg) : Reg :=
  { regOf (if v.tag == .cap then v.cap.zeroExtend 512 else v.bits) v.tag with
      rank := if g.ranked then rank else 0, ranked := g.ranked, addr := if g.ranked then g.addr else 0 }
/-- A register that carries a code (R230, R271). -/
def carries (code : Byte) (addr detail : Word) (receipt : Bool) (g : Reg) : Reg :=
  { g with req := 0, code := code, addr := addr, detail := detail, receipt := receipt, rank := 0, ranked := false }
/-- An EMPTY register that waits for request `id` (R66 step 3). -/
def emptyReg (id rank : Nat) (ranked : Bool) (object : Word) : Reg :=
  { (default : Reg) with tag := .empty, req := id, rank := rank, ranked := ranked, addr := if ranked then object else 0 }
/-- Registers of an activity that a landing would be discarded with: those still waiting or carrying a code. -/
def Reg.pendingCode (g : Reg) : Bool := g.tag == .empty && g.code != 0

/-- The activity is still in its slot, or in a saved or moved context. -/
def State.alive (s : State) (a : ActId) : Bool :=
  let x := s.slot a.core a.slot
  (x.live && x.gen == a.gen)
/-- Request `id` is not acknowledged yet (R362). -/
def State.outstanding (s : State) (id : Nat) : Bool := s.reqs.any (·.id == id)

/-! ## Lots (R29, R30) -/

/-- Byte ranges of one side of a porter command (R216, R219). -/
def MemAddr.rows (a : MemAddr) (stride : Int) (n w : Nat) : List (Nat × Nat) :=
  (List.range n).map fun (i : Nat) => ((a.va + BitVec.ofInt 64 (stride * (i : Int))).toNat, w)
/-- Whether a range of a local store overlaps a byte range given by full addresses. -/
def hits (logical : Nat) (lo hi : Nat) (q : Nat × Nat) : Bool := q.1 < logical * 2 ^ 52 + hi && logical * 2 ^ 52 + lo < q.1 + q.2
/-- A porter command reads or writes bytes `[lo, hi)` of store `k` of a logical core. -/
def PorterCmd.uses (c : PorterCmd) (logical : Nat) (k : Sto) (lo hi : Nat) : Bool :=
  (c.src.kind == k.kind && !c.zero && (c.src.rows c.srcStride c.rows c.rowBytes).any (hits logical lo hi))
    || (c.dst.kind == k.kind && (c.dst.rows c.dstStride c.rows c.rowBytes).any (hits logical lo hi))
/-- An engine command that core `q` has committed uses bytes `[lo, hi)` of a store of router `r`, as data or for its receipt. -/
def Eff.usesLot (r logical : Nat) (k : Sto) (lo hi q : Nat) : Eff → Bool
  | .porter c => c.uses logical k lo hi || (q == r && k == .s && lo ≤ c.receipt && c.receipt < hi)
  | .matrix c => (k == .c && c.core == r && c.off < hi && lo < c.off + 0x2000) || (k == .s && c.rcore == r && lo ≤ c.receipt && c.receipt < hi)
  | .feed q' isB l h => q' == r && k == (if isB then .w else .a) && l < hi && lo < h
  | _ => false
/-- An engine command of the lodging, under way or still on its way to its engine, uses bytes `[lo, hi)` of a store of router `r`. -/
def State.engineUses (s : State) (r : Nat) (k : Sto) (lo hi : Nat) : Bool :=
  let me := s.core r
  let uses := Eff.usesLot r me.logicalNo k lo hi
  (s.cores.any fun e => e.2.lodging == me.lodging && (e.2.porter.any (fun c => uses e.1 (.porter c)) || e.2.mx.any fun c => uses e.1 (.matrix c)))
    || (s.reqs.any fun q => q.lodging == me.lodging && !q.stage.isDone && uses q.act.core q.eff)
    || (k == .w && me.bQueue.any fun w => w.1 < hi && lo < w.2) || (k == .a && me.aQueue.any fun w => w.1 < hi && lo < w.2)
/-- A discharge or a binding of a counter in bytes `[lo, hi)` of S is not acknowledged yet: the counter is still to be updated, and the
lot is scrubbed after it (R237, log 60). -/
def State.counterDue (s : State) (r : Nat) (k : Sto) (lo hi : Nat) : Bool :=
  k == .s && s.reqs.any fun q => match q.eff with
    | .discharge o .. | .bind o _ => q.lodging == (s.core r).lodging && numAt o 52 12 == (s.core r).logicalNo && lo ≤ numAt o 0 52 && numAt o 0 52 < hi
    | _ => false

/-- A counter or a queue is scrubbed with its lot: what was bound there is bound no more, but an escrow is none of its bytes and stays until
it is discharged (R253, log 69). -/
def Binding.scrubbed (b : Binding) : Binding :=
  if b.escrow.isEmpty then default else { (default : Binding) with escrow := b.escrow, lodging := b.lodging, launch := b.launch, rect := b.rect }
/-- Gives one lot unit back: scrubbed and free, or held while an engine command uses it (R30). -/
def State.freeLot (s : State) (r : Nat) (k : Sto) (u : Nat) : State :=
  let busy := s.engineUses r k (u * k.unit) ((u + 1) * k.unit) || s.counterDue r k (u * k.unit) ((u + 1) * k.unit)
  s.updCore r fun c =>
    let l := c.store k
    if busy then c.setStore k { l with lots := mapSet l.lots u 16 }
    else
      let c := if k == .s then { c with binds := c.binds.foldl (fun m e => if u * k.unit ≤ e.1 ∧ e.1 < (u + 1) * k.unit then mapUpd m e.1 Binding.scrubbed else m) c.binds } else c
      c.setStore k { (l.scrub (u * k.unit) ((u + 1) * k.unit)) with lots := mapSet l.lots u 0, saved := mapSet l.saved u 0 }
def State.freeRun (s : State) (r : Nat) (k : Sto) (run : Run) : State :=
  (List.range run.count).foldl (fun s i => s.freeLot r k (run.start + i)) s
/-- Lots that waited for an engine command's end are returned (R30). -/
def State.reclaim (s : State) (r : Nat) : State :=
  [Sto.w, .a, .c, .s].foldl (fun s k =>
    (((s.core r).store k).lots.filter fun e => e.2 == 16).foldl (fun s e => s.freeLot r k e.1) s) s
def State.reclaimAll (s : State) : State := (mapKeys s.cores).foldl (fun s r => s.reclaim r) s
/-- A unit of a switched-out lodging that a core claims is scanned out to its save record, scrubbed, and entered in the residency map (R345). -/
def State.scanOut (s : State) (r : Nat) (k : Sto) (u : Nat) : State :=
  let l := (s.core r).store k
  let g := mapGet l.guest u
  if g.1 = 0 then s
  else
    let p := l.part k (· == u)
    let put := fun (i : Image) => if i.logical = g.2 then { i with core := i.core.setStore k ((i.core.store k).join p) } else i
    let s := s.updCore r fun c => c.setStore k { l.scrub (u * k.unit) ((u + 1) * k.unit) with guest := mapSet l.guest u default }
    { s with saves := s.saves.map fun v =>
        if v.lodging = g.1 then { v with images := v.images.map put, scanned := v.scanned ++ [(g.2, k.unitNo, u)] } else v }
/-- Takes a run for a slot, scrubbed (R14, R234); what lay there of a switched-out lodging is scanned out first (R345). -/
def State.takeRun (s : State) (r k : Nat) (st : Sto) (run : Run) (fresh : Nat → Bool) : State :=
  (List.range run.count).foldl (fun s i =>
    let u := run.start + i
    (s.scanOut r st u).updCore r fun c =>
      let l := c.store st
      let l := if fresh u then { (l.scrub (u * st.unit) ((u + 1) * st.unit)) with saved := mapSet l.saved u 0 } else l
      c.setStore st { l with lots := mapSet l.lots u (k + 1) }) s
end Sys2Proof.Machine
end

