-- ==== Sys2Proof/Machine/Block.lean ====
section
/-! DEFINITION. Blocks before their commit: fetching and decoding (R46 to R51, R62 to R64), admission (R68, R69, R73,
R76, R129, R132, R246), completion (R65), and the limits of a running block (R67, R329). -/

namespace Sys2Proof.Machine

/-! ## Decoding (R46 to R51) -/

/-- What a header says (R47). -/
structure Header where
  count : Nat
  lsids : Nat
  region : Bool
  stores : W32
  writes : Word
deriving DecidableEq, Repr

/-- The header of R47, or none where it is malformed. -/
def header (bs : List Byte) : Option Header :=
  let h := fun i => natOfBytes ((bs.drop (4 * i)).take 4)
  let n := h 0 / 2 ^ 15 % 64
  if h 0 / 2 ^ 28 = 11 ∧ n ≤ 32 ∧ h 0 % 2 ^ 14 = 0 ∧ h 1 / 2 ^ n = 0 then
    some { count := h 0 / 2 ^ 21 % 128 + 1, lsids := n, region := h 0 / 2 ^ 14 % 2 == 1, stores := BitVec.ofNat 32 (h 1),
           writes := BitVec.ofNat 64 (h 2 + h 3 * 2 ^ 32) }
  else none
/-- Bytes of a block that are fetched (R46). -/
def Header.bytes (h : Header) : Nat := 16 + 8 * bit1 h.region + 4 * h.count

/-- The row of the word at index `i`. -/
def rowAt (ws : List W32) (i : Nat) : Option Row := match ws[i]? with | some w => (rowOf w).toOption | none => none
/-- Step 2 beside the word itself: a wide EXT whose payload makes the successor's immediate illegal (R63, R64). DESIGN CHOICE (log 57):
the offending word is the successor, whose immediate it is, and not the EXT. -/
def wideBad (ws : List W32) (i : Nat) : Bool :=
  match extOf ws i with
  | some e =>
    xKind e == 0 && (match rowAt ws i with
      | some .shli | some .shri | some .srai => xPay e != 0
      | some .movif => numAt (xPay e) 18 5 != 0
      | _ => false)
  | none => false
def badWord (ws : List W32) (i : Nat) : Bool := (rowAt ws i).isNone || wideBad ws i
/-- The word at index `i` holds an LSID (R47). -/
def lsidAt (ws : List W32) (i : Nat) : Option Nat :=
  match rowAt ws i with
  | some r => if r.isLoad || r.isStore then some (lsidOf (ws[i]?.getD 0)).toNat else none
  | none => none
/-- Step 3 at one word: an LSID at or above the count, used by a lower index, or marked otherwise than its kind. DESIGN CHOICE (log 57):
of two words that use one LSID the offending one is the second. -/
def badLsid (h : Header) (ws : List W32) (i : Nat) : Bool :=
  match lsidAt ws i, rowAt ws i with
  | some l, some r => h.lsids ≤ l || (List.range i).any (fun j => lsidAt ws j == some l) || bitAt h.stores l != r.isStore
  | _, _ => false
/-- The slot of R53 that a target names is one its consumer has (R117). -/
def slotOk (ws : List W32) (t : BitVec 9) : Bool :=
  let j := numAt t 0 7
  match rowAt ws j with
  | some r =>
    !(r == .extWide || r == .extHint || r == .extModifier) &&
      (match numAt t 7 2 with
       | 0 => 1 ≤ r.arity | 1 => 2 ≤ r.arity | 2 => predOf r (ws[j]?.getD 0) != 0 | _ => 3 ≤ r.arity)
  | none => false
/-- Step 4 at one word. -/
def badTarget (ws : List W32) (i : Nat) : Bool :=
  match rowAt ws i with
  | some r =>
    let ts := targetsOf r (ws[i]?.getD 0)
    ts.any (fun t => ws.length ≤ numAt t 0 7 || numAt t 0 7 == i || !slotOk ws t) || ts.eraseDups.length != ts.length
  | none => false
/-- The register a word completes. -/
def completesAt (ws : List W32) (i : Nat) : Option Nat :=
  match rowAt ws i with | some r => completesReg r (ws[i]?.getD 0) | none => none
def badReg (h : Header) (ws : List W32) (i : Nat) : Bool :=
  match completesAt ws i with | some g => !bitAt h.writes g | none => false
/-- Step 6: an EXT whose successor is not acceptable (R62). -/
def badExt (ws : List W32) (i : Nat) : Bool :=
  let w := ws[i]?.getD 0
  let next := if i = 127 then none else rowAt ws (i + 1)
  match rowAt ws i, next with
  | some .extWide, some n => !(n.fmt == .i || n.fmt == .l || n.fmt == .s || n.fmt == .b || n.fmt == .bl)
  | some .extHint, some n => n.fmt == .x
  | some .extModifier, some n =>
    n.fmt == .x || (numAt w 0 3 != 0 && n.draws (ws[i + 1]?.getD 0) == 0) || (bitAt w 3 && !n.honoursSat) || (numAt w 4 2 != 0 && !n.honoursScope)
  | some .extWide, none | some .extHint, none | some .extModifier, none => true
  | _, _ => false
def noIndex : W32 := 0xFFFFFFFF
/-- The lowest offending word of a step. -/
def lowest (ws : List W32) (bad : Nat → Bool) : Option Nat := (List.range ws.length).find? bad
/-- Steps 2 to 7 of R51: the fault code and the index that the record carries. DESIGN CHOICE (log 57): where no word is the offending
one (an LSID that no word uses, a write-mask register that no word names, no exit) the index is 0xFFFFFFFF, as for a header. -/
def decodeFault (h : Header) (ws : List W32) : Option (Nat × W32) :=
  let at' := fun (code i : Nat) => some (code, BitVec.ofNat 32 i)
  match lowest ws (badWord ws) with
  | some i => at' tIllegal i
  | none =>
  match lowest ws (badLsid h ws) with
  | some i => at' tBlockForm i
  | none =>
  if (List.range h.lsids).any fun l => !(List.range ws.length).any fun i => lsidAt ws i == some l then some (tBlockForm, noIndex)
  else
  match lowest ws (badTarget ws) with
  | some i => at' tBlockForm i
  | none =>
  match lowest ws (badReg h ws) with
  | some i => at' tBlockForm i
  | none =>
  if (List.range 64).any fun g => bitAt h.writes g && !(List.range ws.length).any fun i => completesAt ws i == some g then some (tBlockForm, noIndex)
  else
  match lowest ws (badExt ws) with
  | some i => at' tBlockForm i
  | none =>
  if (List.range ws.length).any fun i => (rowAt ws i).any Row.isExit then none else some (tBlockForm, noIndex)

/-! ## Fetching (R49, R302, R382) -/

/-- The 64 bytes at a place of this device under a key; none when they hold an uncorrectable error (R452). -/
def State.lineAt (s : State) (key : Nat) : Place → Option V512
  | .hbm pa => if s.memBad false (pa / 64 * 64) 64 then none else some (wordOfBytes 512 (s.memRead false key (pa / 64 * 64) 64))
  | .far pa => if s.memBad true (pa / 64 * 64) 64 then none else some (wordOfBytes 512 (s.memRead true key (pa / 64 * 64) 64))
  | .host pa _ => if mapGet s.hostPoison (pa / 64) then none else some (wordOfBytes 512 (bytesAt s.host (pa / 64 * 64) 64))
  | _ => some (Config.freeUnit s.tick)
/-- Reads the line of code at `va` (access 3), or for a descriptor (access 0), on behalf of a seeker; the service entry is read with
Oxkan's own space (R426, R444). -/
def State.codeRead (s : State) (r : Nat) (w : Seeker) (space : Nat) (va : Word) (access : Nat) (block : Word) : CodeRead :=
  let lodging := if access = 0 ∧ space = 0xFFFF then 0 else (s.core r).lodging
  let a : MemAddr := { kind := 11, space := space, va := va }
  match s.seek r lodging w a access block with
  | .ok (.peer d) _ => s.peerLine r lodging w d a
  | .ok p _ => match s.lineAt (s.keyOf (s.space space).lodging) p with
    | some b => .ok b
    | none => .fail tUncorrectable
  | .fail c => .fail c
  | .wait s => .wait s
/-- The block-cache key of a line. -/
def lineKey (space u : Nat) : Nat := space * 2 ^ 58 + u
/-- Keeps a line; a full cache of 512 lines gives one up (R382). -/
def Core.keepLine (c : Core) (key : Nat) (b : V512) : Core :=
  let m := if (mapGet c.cache key).isNone ∧ 512 ≤ c.cache.length then c.cache.drop 1 else c.cache
  { c with cache := mapSet m key (some b) }
/-- What a fetch of `n` bytes at `va` gives: the bytes, the trap of R49, or a state in which it goes on later. -/
inductive Fetch where
  | ok (bytes : List Byte)
  | trap (t : Trap)
  | wait (s : State)

/-- Lines `u`, `u` + 1, … `n` of them, from the block cache; the first that is not there is read, by itself, and the fetch goes on at
another step (R382). -/
def State.fetchLines (s : State) (r k space : Nat) : Nat → Nat → Fetch
  | _, 0 => .ok []
  | u, n + 1 =>
    match mapGet (s.core r).cache (lineKey space u) with
    | some b => (match s.fetchLines r k space (u + 1) n with
      | .ok bs => .ok (bytesOf 64 b ++ bs)
      | f => f)
    | none =>
      let va := BitVec.ofNat 64 (64 * u)
      match s.codeRead r (.fetch k) space va 3 (s.slot r k).pc with
      | .ok b => .wait (s.updCore r fun c => c.keepLine (lineKey space u) b)
      | .fail c => .trap { code := c, lo := va, hi := if c = tUncorrectable then 0 else BitVec.ofNat 64 space }
      | .wait s => .wait s
/-- The whole fetch of the block at an activity's pc. -/
def State.fetch (s : State) (r k n : Nat) : Fetch :=
  let x := s.slot r k
  if capKind x.code ≠ 11 || !capHas x.code pExec then .trap (trapCap tPerm x.code)
  else if !capInBounds x.code x.pc.toNat n then .trap (trapCap tBounds x.code)
  else s.fetchLines r k (capSpace x.code) (x.pc.toNat / 64) ((n + 63) / 64)

/-- The words of a fetched block. -/
def wordsOf (h : Header) (bs : List Byte) : List W32 :=
  (List.range h.count).map fun i => wordOfBytes 32 ((bs.drop (16 + 8 * bit1 h.region + 4 * i)).take 4)
def liveInOf (h : Header) (bs : List Byte) : Word := if h.region then wordOfBytes 64 ((bs.drop 16).take 8) else 0
/-- A decoded block is ready for its admission; a pending link of a CALLC lands (R127). -/
def State.decoded (s : State) (r k : Nat) (h : Header) (ws : List W32) (live : Word) : State :=
  let x := s.slot r k
  let s := (s.dropLines r (.fetch k)).updSlot r k fun x =>
    { x with link := none, blk := { (default : Blk) with phase := 1, words := ws, lsids := h.lsids, storeMask := h.stores, writeMask := h.writes,
                                                         region := h.region, liveIn := live } }
  match x.link with
  | some (id, v) => s.land id (landed v 0)
  | none => s
/-- A fault of a fetch or of decoding, at an index (R49, R51). -/
def State.fetchTrap (s : State) (r k : Nat) (t : Trap) (index : W32) : State := (s.dropLines r (.fetch k)).takeTrap r k t index 0
/-- Steps of R51 on fetched bytes. -/
def State.decodeBytes (s : State) (r k : Nat) (h : Header) (bs : List Byte) : State :=
  let ws := wordsOf h bs
  let live := liveInOf h bs
  if 16 < ((List.range 64).filter fun i => bitAt live i).length then s.fetchTrap r k (trap tBlockForm) noIndex
  else match decodeFault h ws with
    | some (c, i) => s.fetchTrap r k { code := c, lo := 0, hi := if c = tIllegal then zext64 (ws[i.toNat]?.getD 0) else 0 } i
    | none => s.decoded r k h ws live
/-- 1 ms in cycles (R449). -/
def handoverAfter : Nat := 800000
/-- A steward core is past the 1 ms that the firmware switch leaves its old image (R449 step 3). -/
def State.pastSwitch (s : State) (r : Nat) : Bool :=
  let c := s.core r
  c.switching == 2 || (c.switching == 1 && c.switchAt.toNat + handoverAfter ≤ s.cycle.toNat)
/-- An activity of an old image that the firmware switch has halted (R449 step 3). -/
def State.halted (s : State) (r k : Nat) : Bool := (s.slot r k).image != s.newImage && s.pastSwitch r
/-- An activity that may go on: live, not in custody, its core not gated, nor its twin's (R462), not halted. -/
def State.runs (s : State) (r k : Nat) : Bool :=
  let x := s.slot r k
  x.live && !x.isTwin && x.custody.state == 0 && !(s.core r).gated && !s.halted r k
    && (match x.twin with | some (q, j) => (s.slot q j).live && (s.slot q j).isTwin && !(s.core q).gated | none => true)
/-- BLOCK_FETCH (R49, R51): fetches and decodes the block at the activity's address, one line that the block cache lacks at a step. An activity
that serves a call of Oxkan acts by its own request (log 19). -/
def execBlockFetch (core slot : Nat) (s : State) : Out :=
  let x := s.slot core slot
  if !s.runs core slot || x.native || x.blk.phase != 0 then .next s
  else match s.fetch core slot 16 with
    | .trap t => .next (s.fetchTrap core slot t noIndex)
    | .wait s' => .next s'
    | .ok bs =>
      match header bs with
      | none => .next (s.fetchTrap core slot (trap tBlockForm) noIndex)
      | some h =>
        match s.fetch core slot h.bytes with
        | .trap t => .next (s.fetchTrap core slot t noIndex)
        | .wait s' => .next s'
        | .ok bs => .next (s.decodeBytes core slot h bs)

/-! ## Admission (R68, R69, R73, R76, R246) -/

/-- Registers named by READs, with whether they park, in index order, then those of the write mask (R73 rule 3). -/
def Blk.reads (b : Blk) : List (Nat × Bool) :=
  (List.range b.words.length).filterMap fun i =>
    match rowAt b.words i with
    | some .read => let w := b.words[i]?.getD 0; some ((rReg w).toNat, rE w == 1)
    | _ => none
def Blk.writesL (b : Blk) : List Nat := (List.range 64).filter fun g => bitAt b.writeMask g
def Blk.livesL (b : Blk) : List Nat := (List.range 64).filter fun g => bitAt b.liveIn g
def Blk.named (b : Blk) : List Nat := b.reads.map Prod.fst ++ b.writesL ++ b.livesL
/-- A register that a block waits for (R68, R76): named by a READ with e = 1, by the write mask or by the live-in mask. -/
def Blk.parksOn (b : Blk) (g : Nat) : Bool := b.reads.contains (g, true) || bitAt b.writeMask g || bitAt b.liveIn g
/-- The failure of an admission (R73 rule 3): RANK_ORDER, then a carried code; with the flags of the record. A register that is still
EMPTY is checked where the block waits for it, and one whose value has landed wherever it is named (R69, R243, R246). -/
def Slot.admitFault (x : Slot) : Option (Trap × Nat) :=
  let g := fun n => mapGet x.regs n
  let ns := x.blk.named
  match ns.find? fun n => (g n).ranked && x.obs.rankMin ≤ (g n).rank && ((g n).tag != .empty || x.blk.parksOn n) with
  | some n => some ({ code := tRankOrder, lo := (g n).addr, hi := BitVec.ofNat 64 ((g n).rank + x.obs.rankMin * 2 ^ 16) }, 0)
  | none =>
    match ns.find? fun n => (g n).pendingCode with
    | some n => some ({ code := (g n).code.toNat, lo := (g n).addr, hi := (g n).detail }, 4 + 8 * bit1 (g n).receipt)
    | none => none
/-- The registers the block waits for (R68, R76). -/
def Slot.parked (x : Slot) : Bool :=
  let empty := fun n => (mapGet x.regs n).tag == .empty
  (x.blk.reads.any fun e => e.2 && empty e.1) || x.blk.writesL.any empty || x.blk.livesL.any empty
/-- EMPTY_READ (R68): a READ with e = 0 whose register is EMPTY. -/
def Slot.emptyRead (x : Slot) : Option Nat := (x.blk.reads.find? fun e => !e.2 && (mapGet x.regs e.1).tag == .empty).map Prod.fst
/-- The die to which each stack attaches: two to each of dies 0, 3, 4 and 7, one to each of the others (R360; the stacks' numbers are the model's,
log 20). -/
def stackDies : List Nat := [0, 0, 3, 3, 4, 4, 7, 7, 1, 2, 5, 6]
def dieOfFrame (pa : Nat) : Nat := (stackDies[Config.stackOfFrame (pa / 2 ^ 19) % 12]?).getD 0
/-- The scope at which a place lies, seen from a core, as R105 codes scopes: 0 core, 1 die, 2 dev, 3 sys (R360). -/
def Place.scope (p : Place) (core : Nat) : Nat :=
  match p with
  | .hbm pa => if dieOfFrame pa = dieOf core then 1 else 2
  | .loc q _ _ => if q = core then 0 else if dieOf q = dieOf core then 1 else 2
  | _ => 3
/-- The scope at which an address's home lies (R360, R371), whatever its page permits. -/
def State.homeScope (s : State) (core : Nat) (a : MemAddr) (lodging : Nat) : Nat :=
  if a.kind = 10 then 3
  else if a.kind = 1 then (match s.leafAt core a with | some l => (l.at a.va).scope core | none => 2)
  else match s.router lodging (addrCore a.va) with
    | some q => (Place.loc q .s 0).scope core
    | none => 2
/-- The scope of an object of a core. -/
def State.objScope (s : State) (core lodging logical : Nat) : Nat :=
  match s.router lodging logical with | some q => (Place.loc q .s 0).scope core | none => 2
/-- The device, relay core, S offset of its queue, and block index, of the `k`-th message through a collective (R418). -/
def Coll.dest (c : Coll) (k : Nat) : Nat × Nat × Nat × Nat :=
  let i := k % c.blocks
  match c.relays[i % c.relays.length]? with | some (d, r, off) => (d, r, off, i) | none => (0, 0, 0, i)
/-- The destination of the `k`-th message of a core through a collective. -/
def State.collDest (s : State) (n k : Nat) : Nat × Nat × Nat × Nat := (mapGet s.colls n).dest k
/-- A message through collective `n` that an open block holds for its commit: a SEND that has a staging place, or a SENDW. -/
def Act.entersColl (n : Nat) : Act → Bool
  | .send (.coll m _) _ true => m == n
  | .sendw (.coll m _) _ => m == n
  | _ => false
/-- Messages of a core's open blocks for a collective that come before that of instruction `idx` of a slot: those of the block's lower indices, and
those of the other slots' blocks, which may commit first (R267, R418). -/
def State.collAhead (s : State) (n core slot idx : Nat) : Nat :=
  (s.core core).slots.foldl (fun k e =>
    k + (e.2.blk.acts.filter fun a => (e.1 != slot || a.1 < idx) && (match a.2 with | some x => x.entersColl n | none => false)).length) 0
/-- The number that the message of an instruction is to have, as far as its core can tell before the commit (R418). -/
def State.collNext (s : State) (n core slot idx : Nat) : Nat := mapGet (mapGet s.colls n).sent core + s.collAhead n core slot idx
/-- The relay of this device to which a collective's message goes; none where that is a peer's (R418). -/
def State.relayOf (s : State) (n k : Nat) : Option Nat := let d := s.collDest n k; if d.1 = s.fuses.device then some d.2.1 else none
/-- The scope at which a request's home lies, as R105 codes scopes (R360, R371); an engine command goes to its engine (R375). -/
def State.reqScope (s : State) (q : Req) : Nat :=
  match q.eff with
  | .mem _ a _ => s.homeScope q.act.core a q.lodging
  | .message (.queue r ..) _ _ => (Place.loc r .s 0).scope q.act.core
  | .message (.coll n k) _ _ => (match s.relayOf n k with | some r => (Place.loc r .s 0).scope q.act.core | none => 3)
  | .message .. => 3
  | .spawn r _ | .invoke r _ | .feed r .. => (Place.loc r .s 0).scope q.act.core
  | .matrix m => (Place.loc m.core .s 0).scope q.act.core
  | .porter _ | .qbind .. | .qunbind .. => 0
  | .stnMap sp level va _ => (match s.tableFor (numAt va 0 48) level 2 (s.space sp).root with
    | some t => (Place.hbm (entryAddr t level (numAt va 0 48))).scope q.act.core
    | none => 2)
  | .stnReplay st .. => if st / 8 = dieOf q.act.core then 1 else 2
  | .line .. | .query .. => 3
  | .discharge c .. => s.objScope q.act.core q.lodging (addrCore c)
  | .bind c .. => s.objScope q.act.core q.lodging (addrCore c)
  | .settle c _ _ _ => if numAt c 44 20 ≠ s.fuses.device then 3 else s.objScope q.act.core q.lodging (numAt c 32 12)
  | .invokec c _ => if numAt c 44 20 ≠ s.fuses.device then 3 else s.objScope q.act.core q.lodging (numAt c 32 12)
  | .waitObj _ _ 8 o => if numAt o 44 20 ≠ s.fuses.device then 3 else s.objScope q.act.core q.lodging (numAt o 32 12)
  | .waitObj _ _ _ o => s.objScope q.act.core q.lodging (addrCore o)
  | _ => 2
/-- Requests of a list that are within a scope and not acknowledged. -/
def State.anyOut (s : State) (ids : List Nat) (scope : Nat) : Bool :=
  s.reqs.any fun q => ids.contains q.id && s.reqScope q ≤ scope
/-- The waits before an admission: SLEEP, YIELD, FENCE.acq, the snapshot promise (R129, R132, R293, R379). -/
def State.mayAdmit (s : State) (x : Slot) : Bool :=
  x.sleep.toNat ≤ s.cycle.toNat && (!x.yielded || x.yieldFor.isEmpty) && !s.anyOut x.fenceOn 3 && !s.anyOut x.gates 2
/-- The region that an admission opens (R453), or the one that is open. -/
def Slot.regionAt (x : Slot) : Region :=
  if !x.blk.region then x.region
  else { isOpen := true, first := x.pc, restarted := x.region.again && x.region.restarted, again := false,
         saved := x.blk.livesL.foldl (fun m g => mapIns m g (mapGet x.regs g)) [] }
/-- The firmware-switch word (R429): the cycle of the hand-over, rounded down to 4, with the phase of the switch. -/
def State.switchWord (s : State) (r : Nat) : Word :=
  let c := s.core r
  BitVec.ofNat 64 (if c.switching = 0 then 0 else c.switchAt.toNat / 4 * 4 + if s.pastSwitch r then 2 else 1)
/-- The admission itself (R68, R76): the block sees registers and state words as they stand now (R304). -/
def Slot.admitted (x : Slot) (cycle : Word) (service : Cap) (switch : Word) : Slot :=
  let names := x.blk.named
  let regs := names.foldl (fun m g => mapUpd m g fun y => { y with ranked := false, rank := 0, addr := if y.ranked then 0 else y.addr }) x.regs
  { x with region := x.regionAt, yielded := false, yieldFor := [], fenceOn := [], gates := [], regs := regs,
           blk := { x.blk with phase := 2, regs := regs, obs := x.obs, round := x.round, seed := x.seed, admitted := cycle, service := service, switch := switch } }
/-- BLOCK_ADMISSION (R68). -/
def execBlockAdmission (core slot : Nat) (s : State) : Out :=
  let x := s.slot core slot
  if !s.runs core slot || x.blk.phase != 1 || !s.mayAdmit x then .next s
  else match x.deferred with
    | some (code, a, sp) =>
      .next ((s.updSlot core slot fun y => { y with deferred := none }).takeTrap core slot { code := code.toNat, lo := a, hi := BitVec.ofNat 64 sp } noIndex 1)
    | none =>
      if x.poisoned then .next ((s.takeTrap core slot (trap tUncorrectable) noIndex 0).updSlot core slot fun y => { y with poisoned := false })
      else match x.admitFault with
        | some (t, fl) => .next (s.takeTrap core slot t noIndex fl)
        | none =>
          if x.parked then .next s
          else match x.emptyRead with
            | some g => .next (s.takeTrap core slot { code := tEmptyRead, lo := BitVec.ofNat 64 g, hi := 0 } noIndex 0)
            | none =>
              if x.blk.livesL.any fun g => (mapGet x.regs g).poison != 0 then .next ((s.noteError core registerFile).takeTrap core slot (trap tUncorrectable) noIndex 0)
              else .next (s.updSlot core slot fun y => y.admitted s.cycle s.service (s.switchWord core))

/-! ## Completion and limits (R65, R67) -/

/-- How a word of a row takes its operands: the form in which its meaning fires, but for its targets. -/
def formOf (row : Row) (w : W32) : Form :=
  { pr := predOf row w, arity := row.arity, wl := row.wholes.1, wr := row.wholes.2.1, wx := row.wholes.2.2, row := row }
/-- Instruction `i` could still fire: it is ready, and it is no PORT that waits for a word. -/
def State.canFire (s : State) (r : Nat) (b : Blk) (i : Nat) : Bool :=
  match rowAt b.words i with
  | some row =>
    let w := b.words[i]?.getD 0
    mapGet b.fired i == 0 && row.fmt != .x
      && (formOf row w).ready (fun q => mapGet b.slots (slotKey i q)) (storesDone b (lsidOf w).toNat)
      && !(row == .port && rE w == 1 && (s.portHead r (rReg w).toNat).isNone)
  | none => false
/-- A question not answered yet (R267). -/
def Ask.open : Ask → Bool
  | .rank .. | .stat .. | .place .. | .place2 .. | .bindInfo .. | .pending | .entry .. => true
  | _ => false
/-- A completed block (R65, R267; log 6). -/
def State.complete (s : State) (r k : Nat) : Bool :=
  let b := (s.slot r k).blk
  b.phase == 2 && b.writesL.all (fun g => mapGet b.regDone g != .no)
    && (List.range 32).all (fun l => !bitAt b.storeMask l || (mapGet b.lsids' l).done)
    && b.exits.length == 1 && b.asks.all (fun e => !e.2.open)
    && (List.range b.words.length).all fun i => !s.canFire r b i
/-- Cycles a block may take (R67). -/
def stuckAfter : Nat := 2 ^ 20
/-- BLOCK_STUCK (R67). -/
def execBlockStuck (core slot : Nat) (s : State) : Out :=
  let b := (s.slot core slot).blk
  if s.runs core slot && b.phase == 2 && b.awayAt == 0 && b.admitted.toNat + b.away + stuckAfter ≤ s.cycle.toNat && (!s.complete core slot || b.waiting) then
    .next (s.takeTrap core slot (trap tBlockStuck) noIndex 0)
  else .next s
/-- YIELD_TIMEOUT (R129). -/
def execYieldTimeout (core slot : Nat) (s : State) : Out :=
  let x := s.slot core slot
  if x.yielded && x.yieldAt.toNat + 64 ≤ s.cycle.toNat then .next (s.updSlot core slot fun y => { y with yielded := false, yieldFor := [] })
  else .next s
/-- SLEEP_EXPIRY (R132). -/
def execSleepExpiry (core slot : Nat) (s : State) : Out :=
  let x := s.slot core slot
  if x.sleep != 0 && x.sleep.toNat ≤ s.cycle.toNat then .next (s.updSlot core slot fun y => { y with sleep := 0 })
  else .next s
/-- The cycle since which an instruction that can fire has been ready (R329): its block's admission, the arrival of its last operand,
for a load the completion of the last store below it, and for a PORT the arrival of its word. -/
def State.readySince (s : State) (r : Nat) (b : Blk) (i : Nat) : Nat :=
  let w := b.words[i]?.getD 0
  let own := Nat.max b.admitted.toNat (mapGet b.arrived i).toNat
  match rowAt b.words i with
  | some .port => match s.portWord r (rReg w).toNat with | some p => Nat.max own p.2.toNat | none => own
  | some row => if row.isLoad then (List.range (lsidOf w).toNat).foldl (fun m j => if bitAt b.storeMask j then Nat.max m (mapGet b.lsids' j).since.toNat else m) own else own
  | none => own
/-- INSTRUCTION_AGED (R329): an instruction that has been ready for 512 cycles goes to the front. -/
def execInstructionAged (core slot idx : Nat) (s : State) : Out :=
  let b := (s.slot core slot).blk
  if b.phase == 2 && s.canFire core b idx && s.readySince core b idx + 512 ≤ s.cycle.toNat then
    .next (s.updBlk core slot fun b => { b with aged := mapSet b.aged idx true })
  else .next s
/-- The class of an instruction: its hint's, or its activity's (R62, R329). -/
def Blk.classOf (b : Blk) (cls i : Nat) : Nat :=
  match extOf b.words i with | some e => if xKind e = 1 then numAt (xPay e) 0 3 else cls | none => cls
def Blk.longOf (b : Blk) (i : Nat) : Bool :=
  match extOf b.words i with | some e => xKind e == 1 && bitAt (xPay e) 3 | none => false
/-- A slot holds a ready instruction of a class. -/
def State.readyIn (s : State) (r k cls : Nat) : Bool :=
  let x := s.slot r k
  s.runs r k && x.blk.phase == 2 && (List.range x.blk.words.length).any fun i => s.canFire r x.blk i && x.blk.classOf x.cls i == cls
/-- FAVOURED_SLOT_MOVE (R329): every 64 cycles; where no slot holds a ready instruction of the class, it stays. -/
def execFavouredSlotMove (core cls : Nat) (s : State) : Out :=
  let now := mapGet (s.core core).favoured cls
  if (mapGet (s.core core).favSince cls).toNat + 64 ≤ s.cycle.toNat then
    let next := (((List.range 8).map fun i => (now + 1 + i) % 8).find? fun k => s.readyIn core k cls).getD now
    .next (s.updCore core fun c => { c with favoured := mapSet c.favoured cls next, favSince := mapSet c.favSince cls s.cycle })
  else .next s
/-- PORT_WORD_ARRIVAL (R35): the oldest word on its way from that neighbour enters the queue of eight. -/
def execPortWordArrival (core port : Nat) (s : State) : Out :=
  let p := mapGet (s.core core).ports port
  match p.coming with
  | w :: ws =>
    if p.words.length < 8 then
      .next (s.updCore core fun c => { c with ports := mapSet c.ports port { words := p.words ++ [(w, s.cycle)], coming := ws } })
    else .next s
  | [] => .next s

end Sys2Proof.Machine
end

