-- ==== Sys2Proof/Machine/Objects.lean ====
section
/-! DEFINITION. Objects at their homes: starts that arrive at a core (R324, R325), handlers of counters (R261, R312, R327), waits
(R229, R263), claims, invocations and their breaking (R256, R258, R259), and the end of an activity (R130, R310). -/

namespace Sys2Proof.Machine

/-! ## Starts at a core -/

/-- A counter that has fired, or a bound queue with an entry, waits for a ring place (R327). -/
def State.retrying (s : State) (r : Nat) : Bool := !(s.retries r).isEmpty
/-- A start reaches a core (R324, R325, R327): a ring place that no retry waits for, else the arrival list of 16; false when both
are full. -/
def State.arrive (s : State) (r : Nat) (st : Start) : State × Bool :=
  let c := s.core r
  if c.arrivals.isEmpty && !s.retrying r && c.ringFree st.units then (s.toRing r st, true)
  else if c.arrivals.length < 16 then ((s.updCore r fun c => { c with arrivals := c.arrivals ++ [st] }).count r 13 1, true)
  else (s, false)
/-- Moves the arrival list into freed ring places (R327). -/
def State.admitArrivals (s : State) (r : Nat) : Nat → State
  | 0 => s
  | n + 1 =>
    match (s.core r).arrivals with
    | st :: rest => if (s.core r).ringFree st.units then (s.updCore r fun c => ({ c with arrivals := rest } : Core).putRing st).admitArrivals r n else s
    | [] => s

/-! ## Counters (R260, R261, R312) -/

/-- The handler codelet of a bound counter (R14, R19, R254). -/
def State.codelet (s : State) (r off : Nat) (b : Binding) (broken : Bool) : Start :=
  { (default : Start) with
    kind := 2, lodging := b.lodging, entry := b.entry, desc := b.desc, launch := b.launch, rect := b.rect,
    counter := localAddr (s.core r).logicalNo off, broken := broken, obs := b.escrow, image := s.imageVersion,
    run := if b.ended then b.run else none }
/-- The run goes to the first handler placed; the other counters of the run start with fresh lots (R312). -/
def Binding.sharesRun (b y : Binding) : Bool := b.run.isSome && y.run == b.run && y.binder == b.binder
def State.giveRun (s : State) (r : Nat) (b : Binding) : State :=
  let s := s.updCore r fun c => { c with binds := mapEach c.binds b.sharesRun fun y => { y with run := none } }
  { s with reqs := s.reqs.map fun q => match q.eff with
      | .bind w y => if b.sharesRun y then { q with eff := .bind w { y with run := none } } else q
      | _ => q }
/-- A bound counter at zero: its handler takes a ring place, or it keeps fired-pending set while its run is held, the ring is full or an
older retry waits (R261, R312, R327). -/
def State.placeCounter (s : State) (r off : Nat) : State :=
  let w := s.sByte r off 8
  let b := mapGet (s.core r).binds off
  let put := fun (s : State) (fired : Bool) =>
    s.putS r off 8 (ctrWord (ctrRank w) (ctrScope w) (ctrWaitable w) fired (ctrBroken w) true (ctrLeft w))
  if (b.run.isSome && !b.ended) || !(s.core r).ringFree 2 || s.retriedBefore r off (if b.order = 0 then s.nextReq else b.order) then
    let s := put s true
    { s.updCore r fun c => { c with binds := mapUpd c.binds off fun y => { y with order := if y.order = 0 then s.nextReq else y.order } } with nextReq := s.nextReq + 1 }
  else
    let s := (put s false).toRing r (s.codelet r off b (ctrBroken w))
    (s.updCore r fun c => { c with binds := mapUpd c.binds off fun y => { y with escrow := [], run := none, order := 0 } }).giveRun r b
/-- What a waiter on a counter lands (R229, R275). -/
def counterValue (w : Nat) (st : Bool) : Value :=
  scalarValue (BitVec.ofNat 64 w) true (if ctrBound w || (ctrBroken w && !st) then .broken else .data)
def State.isSt (s : State) (id : Nat) : Bool :=
  match s.req id with | some { eff := .waitObj _ b _ _, .. } => b | some { eff := .peer _ _ (.wait _ b _), .. } => b | _ => false
/-- Answers every recorded waiter of a counter, in the order of their records (R263). -/
def State.landCounter (s : State) (r off : Nat) : State :=
  let w := s.sByte r off 8
  let s' := (mapGet (s.core r).waiters off).foldl (fun s id => s.answer id (.val (counterValue w (s.isSt id)) (ctrRank w))) s
  s'.updCore r fun c => { c with waiters := mapSet c.waiters off [] }
/-- A counter that has reached 0 (R261). -/
def State.counterZero (s : State) (r off : Nat) : State :=
  if ctrBound (s.sByte r off 8) then s.placeCounter r off else s.landCounter r off
/-- A discharge of `n` units at the counter's home (R261, R273). -/
def State.discharge (s : State) (r off n : Nat) (broken : Bool) : State :=
  let w := s.sByte r off 8
  let left := ctrLeft w - n
  let s := s.putS r off 8 (ctrWord (ctrRank w) (ctrScope w) (ctrWaitable w) (ctrFired w) (ctrBroken w || broken || ctrLeft w < n) (ctrBound w) left)
  if ctrLeft w ≠ 0 ∧ left = 0 then s.counterZero r off else s

/-! ## Discharges on behalf of an activity (R253, R258, R310) -/

/-- The request that breaks one entry with a code. -/
def breakEff (code : Byte) (e : Ob) : Eff :=
  if e.isCount then .discharge e.object e.mult 2 true else .settle e.object (dataValue 0) code 2
/-- Breaks entries with a code, each as a release of the activity (R310); index 128 marks it, and no instruction has it. -/
def State.breakObs (s : State) (act : ActId) (lodging : Nat) (launch : W32) (block : Word) (code : Byte) (es : List Ob) : State :=
  es.foldl (fun s e => s.issue act lodging launch block 128 (breakEff code e) .queued) s
def ObSet.list (o : ObSet) : List Ob := ((List.range 16).map fun i => mapGet o.ents i).filter (·.held)

/-! ## Claims (R255, R256, R258, R259) -/

/-- What a waiter on a settled claim lands (R229): the value with its tag, or the break code tagged BROKEN; the status
word for WAIT.st. -/
def claimLanding (resolved : Bool) (v : Value) (code : Byte) (st : Bool) : Value :=
  if st then dataScalar (BitVec.ofNat 64 (if resolved then 2 else 3 + code.toNat * 256))
  else if resolved then v
  else { bits := code.zeroExtend 512, valid := allLanes, tag := .broken, null := false }
/-- A message from a home: a fulfilment or break of a claim, sent by the core itself. -/
def State.homeSettle (s : State) (core lodging : Nat) (claim : Word) (code : Byte) : State :=
  s.issue (deviceAct core) lodging 0 0 0 (.settle claim (dataValue 0) code 2) .queued
/-- An invocation breaks its claim, and its escrow, with a code (R258). -/
def State.breakInvocation (s : State) (core : Nat) (i : Invocation) (code : Byte) : State :=
  (s.homeSettle core i.lodging i.claim code).breakObs (deviceAct core) i.lodging i.launch 0 code i.obs
/-- The chain rank of a claim falls to its own rank once its invocation is forwarded (R242). -/
def State.dropChain (s : State) (lodging : Nat) (claim : Word) : State :=
  match s.claimHome lodging claim with
  | some (r, i) => s.updCore r fun c => { c with claims := mapUpd c.claims i fun x => { x with chain := x.rank, heldAt := 0 } }
  | none => s
/-- The claim's home hears that its invocation is forwarded: it is this device, or a peer that is told so (R242, log 69). -/
def State.tellForwarded (s : State) (r lodging : Nat) (claim : Word) : State :=
  if claimDevice claim = s.fuses.device then s.dropChain lodging claim
  else s.issue (deviceAct r) lodging 0 0 0 (.query (claimDevice claim) 99 0 7 claim) .queued
/-- The CLAIM entry of an invoked activity (R236, R238). -/
def claimOb (claim : Word) (rank : Nat) : Ob := { held := true, isCount := false, object := claim, rank := rank, mult := 1 }
/-- The start of an invoked activity (R14). -/
def invokedStart (s : State) (entry : Cap) (desc : BitVec 128) (arg : V512) (argCap : Bool) (claim : Word) (rank : Nat) (obs : List Ob)
    (launch : W32) (rect : Area) (lodging : Nat) (gates : List Nat) : Start :=
  { (default : Start) with
    kind := 4, lodging := lodging, entry := entry, desc := desc, g0 := arg, g0cap := argCap, g2 := mkCap 8 8 0 0 0 0 claim, launch := launch,
    rect := rect, obs := claimOb claim rank :: obs, claim := claim, gates := gates, image := s.imageVersion }
/-- The 32 bytes of a descriptor in a line. -/
def descIn (line : V512) (va : Word) : BitVec 256 := bitsAt line (8 * (va.toNat % 64)) 256
/-- A target claim's home deals with one invocation once the claim has settled (R258, R472). `at'` is the request that holds the
invocation while its descriptor is read; 0 makes one. -/
def State.forward (s : State) (r idx : Nat) (x : Claim) (i : Invocation) (at' : Nat) : State :=
  if x.state = 3 then s.breakInvocation r i x.code
  else if x.value.tag != .cap || capKind x.value.cap != 12 || !capHas x.value.cap pInvoke then s.breakInvocation r i (BitVec.ofNat 8 tPerm)
  else
    let e := x.value.cap
    let held := if at' = 0 then s.nextReq else at'
    let s1 := if at' = 0 then s.issue (deviceAct r) i.lodging i.launch 0 0 (.invokec (claimNumber s.fuses.device (s.core r).logicalNo idx x.gen) i) (.ready (.loc r .s 0)) else s
    match s1.codeRead r (.req held) (capSpace e) (capAddr e) 0 0 with
    | .fail c => s.breakInvocation r i (BitVec.ofNat 8 c)
    | .wait s => s
    | .ok line =>
      let d := descIn line (capAddr e)
      if !descOk d false then s.breakInvocation r i (BitVec.ofNat 8 tShape)
      else if ((default : ObSet).overflow (claimOb i.claim i.rank :: i.obs)).isSome then s.breakInvocation r i (BitVec.ofNat 8 tObligFull)
      else
        let s := s.tellForwarded r i.lodging i.claim
        match s.router i.lodging (numAt i.word 16 12) with
        | some q => s.issue (deviceAct r) i.lodging i.launch 0 0
            (.invoke q { invokedStart s e (d.truncate 128) i.arg i.argCap i.claim i.rank i.obs i.launch i.rect i.lodging i.gates with toCore := numAt i.word 16 12 }) .queued
        | none => s.breakInvocation r i (BitVec.ofNat 8 tLodging)
/-- A claim settles (R256): waiters land, held invocations proceed. -/
def State.settleAt (s : State) (r i : Nat) (v : Value) (code : Byte) : State :=
  let x := mapGet (s.core r).claims i
  if x.state ≠ 1 then s
  else
    let y : Claim := { x with state := if code = 0 then 2 else 3, value := if code = 0 then v else default, code := code, chain := x.rank,
                              heldAt := 0, invs := [], waiters := [], settled := s.nextReq }
    let s := { s.updCore r fun c => { c with claims := mapSet c.claims i y } with nextReq := s.nextReq + 1 }
    let s := x.waiters.foldl (fun s id => s.answer id (.val (claimLanding (code == 0) v code (s.isSt id)) x.rank)) s
    x.invs.foldl (fun s inv => s.forward r i y inv 0) s
/-- A fulfilment or a break reaches a claim's home (R256, R279, R280); a stale one is dropped, and event 14 counts it. -/
def State.settle (s : State) (lodging : Nat) (claim : Word) (v : Value) (code : Byte) : State :=
  match s.claimHome lodging claim with
  | some (r, i) =>
    if (mapGet (s.core r).claims i).state ≠ 1 then s.count r 14 1
    else if code = 0 ∧ v.tag = .broken then s.settleAt r i v (BitVec.ofNat 8 tBrokenUse)
    else s.settleAt r i v code
  | none => match s.router lodging (claimCore claim) with | some r => s.count r 14 1 | none => s

/-! ## Waits at a home (R229, R263) -/

/-- Object-waiter records in use at a core (R263), and waiter records of its claims (R255). -/
def Core.objectWaiters (c : Core) : Nat := c.waiters.foldl (fun n e => n + e.2.length) 0
def Core.claimWaiters (c : Core) : Nat := c.claims.foldl (fun n e => n + e.2.waiters.length) 0
/-- A wait meets its object: it lands, is recorded, or is answered pending and asks again. -/
def State.performWait (s : State) (q : Req) (st : Bool) (kind : Nat) (o : Word) : State :=
  let later := fun (s : State) => s.updReq q.id fun x => { x with stage := .waiting, since := s.cycle }
  if kind = 8 then
    match s.claimHome q.lodging o with
    | none => s.answer q.id (.val (claimLanding false default (BitVec.ofNat 8 tPerm) st) 0)
    | some (r, i) =>
      let x := mapGet (s.core r).claims i
      if 2 ≤ x.state then s.answer q.id (.val (claimLanding (x.state == 2) x.value x.code st) x.rank)
      else if x.waiters.contains q.id then later s
      else if 16 ≤ x.waiters.length || 256 ≤ (s.core r).claimWaiters then later s
      else later (s.updCore r fun c => { c with claims := mapUpd c.claims i fun y => { y with waiters := y.waiters ++ [q.id] } })
  else
    match s.router q.lodging (addrCore o) with
    | none => s.answer q.id (.fail (BitVec.ofNat 8 tLodging) o 0)
    | some r =>
      let off := addrOff o
      let w := s.sByte r off 8
      let ws := mapGet (s.core r).waiters off
      let record := fun (s : State) =>
        if ws.contains q.id || 64 ≤ (s.core r).objectWaiters then later s
        else later (s.updCore r fun c => { c with waiters := mapSet c.waiters off (ws ++ [q.id]) })
      if kind = 7 then
        if ctrBad w then s.answer q.id (.fail (BitVec.ofNat 8 tShape) o 0)
        else if ctrBound w || ctrLeft w = 0 then s.answer q.id (.val (counterValue w st) (ctrRank w))
        else record s
      else
        if qBad w then s.answer q.id (.fail (BitVec.ofNat 8 tShape) o 0)
        else if qBound w then s.answer q.id (.val (scalarValue 0 true .broken) (qRank w))
        else if 0 < qCount w && (ws.isEmpty || ws.head? == some q.id || st) then
          let s := s.updCore r fun c => { c with waiters := mapSet c.waiters off (ws.filter (· != q.id)) }
          if st then s.answer q.id (.val (dataScalar (BitVec.ofNat 64 (qCount w))) (qRank w))
          else ((s.answer q.id (.val (entryValue ((s.core r).qEntry off (qHead w))) (qRank w))).qPop r off).admitSendw r off 1
        else record s

/-! ## Receipts (R207 to R211, R230) -/

def rcDone (w : Nat) : Bool := w / 2 ^ 63 == 1
def rcStatus (w : Nat) : Nat := w / 2 ^ 61 % 4
def rcPending (w : Nat) : Nat := w / 2 ^ 54 % 128
def rcExpected (w : Nat) : Nat := w / 2 ^ 27 % 2 ^ 27
def rcDelivered (w : Nat) : Nat := w % 2 ^ 27
def rcWord (done : Bool) (status pending expected delivered : Nat) : Nat :=
  bit1 done * 2 ^ 63 + status % 4 * 2 ^ 61 + pending % 128 * 2 ^ 54 + expected % 2 ^ 27 * 2 ^ 27 + delivered % 2 ^ 27
/-- `check()` of R210 on word 0. -/
def rcCheck (w : Nat) : Nat :=
  if rcDone w then w
  else if rcStatus w = 3 then (if rcPending w = 0 then rcWord true 3 0 (rcExpected w) (rcDelivered w) else w)
  else if rcExpected w < rcDelivered w then rcWord true 2 (rcPending w) (rcExpected w) (rcDelivered w)
  else if rcPending w = 0 then rcWord true (if rcDelivered w = rcExpected w then 0 else 1) 0 (rcExpected w) (rcDelivered w)
  else w
/-- `units(n)` of R210. -/
def rcUnits (w n : Nat) : Nat :=
  rcCheck (rcWord (rcDone w) (rcStatus w) (rcPending w) (rcExpected w) (Nat.min (rcDelivered w + n) (2 ^ 27 - 1)))
/-- `end(code, cursor)` of R210, on words 0 and 1. -/
def rcEnd (w w1 code cursor : Nat) : Nat × Nat :=
  let fault := code ≠ 0 ∧ rcDone w = false ∧ rcStatus w ≠ 3
  (rcCheck (rcWord (rcDone w) (if fault then 3 else rcStatus w) (rcPending w - 1) (rcExpected w) (rcDelivered w)),
   if fault then code * 2 ^ 56 + cursor % 2 ^ 56 else w1)
/-- The commit of an engine command that names the receipt (R210). -/
def rcCommit (w : Nat) : Nat := rcWord (rcDone w) (rcStatus w) (rcPending w + 1) (rcExpected w) (rcDelivered w)
/-- What a WAIT on a done receipt brings (R229, R230): word 0 when ok, a carried code otherwise; both words for WAIT.st. -/
def rcLanding (w w1 : Nat) (addr : Word) (st : Bool) : Resp :=
  if st then .val (dataValue (BitVec.ofNat 512 (w + w1 * 2 ^ 64))) 0
  else match rcStatus w with
    | 0 => .val (dataScalar (BitVec.ofNat 64 w)) 0
    | 1 => .fail (BitVec.ofNat 8 tReceiptShort) addr (BitVec.ofNat 64 w)
    | 2 => .fail (BitVec.ofNat 8 tReceiptOver) addr (BitVec.ofNat 64 w)
    | _ => .fail (BitVec.ofNat 8 (w1 / 2 ^ 56)) addr (BitVec.ofNat 64 w1)
/-- A receipt that is done answers its waits (R229). -/
def State.landReceipt (s : State) (r off : Nat) : State :=
  let w := s.sByte r off 8
  let w1 := s.sByte r (off + 8) 8
  let a := localAddr (s.core r).logicalNo off
  if !rcDone w then s
  else
    { s with reqs := s.reqs.map fun q =>
        match q.eff, q.stage with
        | .waitObj _ st 5 o, .waiting => if q.act.core == r && o == a then { q with stage := .done (rcLanding w w1 a st) } else q
        | _, _ => q }
/-- Writes word 0 of a receipt; the words an engine writes clear the granule's tag (R34). -/
def State.putReceipt (s : State) (r off w0 w1 : Nat) : State :=
  if off = noReceipt then s
  else (s.storeS r off (bytesOf 8 (BitVec.ofNat 64 w0) ++ bytesOf 8 (BitVec.ofNat 64 w1))).landReceipt r off
def State.receiptUnits (s : State) (r off n : Nat) : State := s.putReceipt r off (rcUnits (s.sByte r off 8) n) (s.sByte r (off + 8) 8)
def State.receiptEnd (s : State) (r off code cursor : Nat) : State :=
  let e := rcEnd (s.sByte r off 8) (s.sByte r (off + 8) 8) code cursor
  s.putReceipt r off e.1 e.2
/-- The cursor that an engine writes at a chunk boundary while D = 0 (R210); the code beside it stays. -/
def State.receiptCursor (s : State) (r off cursor : Nat) : State :=
  let w := s.sByte r off 8
  if rcDone w then s else s.putReceipt r off w (s.sByte r (off + 8) 8 / 2 ^ 56 * 2 ^ 56 + cursor % 2 ^ 56)

/-! ## The end of an activity (R30, R71, R130, R310, R312) -/

/-- Codes that nobody will read any more: event 14 counts them (R230). -/
def Slot.codes (x : Slot) : Nat := (x.regs.filter fun e => e.2.pendingCode).length
/-- A counter bound by the activity that lies in its S run keeps that run (R312). -/
def State.keepsRun (s : State) (r k : Nat) : Bool :=
  let x := s.slot r k
  let a : ActId := { core := r, slot := k, gen := x.gen }
  ((s.core r).binds.any fun e => e.2.binder == a && e.2.run.isSome && !e.2.ended)
    || s.reqs.any fun q => match q.eff with | .bind _ b => b.binder == a && b.run.isSome && !b.ended | _ => false
/-- The binder has ended: its run waits for a handler, and counters at zero are placed (R312). -/
def State.binderEnds (s : State) (r k : Nat) : State :=
  let x := s.slot r k
  let a : ActId := { core := r, slot := k, gen := x.gen }
  let mine := fun (b : Binding) => b.binder == a && b.run.isSome
  let s := s.updCore r fun c => { c with binds := mapEach c.binds mine fun b => { b with ended := true } }
  let s : State := { s with reqs := s.reqs.map fun q => match q.eff with
    | .bind w b => if mine b then { q with eff := .bind w { b with ended := true } } else q
    | _ => q }
  let s := (List.range x.sRun.count).foldl (fun s i => s.updCore r fun c => { c with s := { c.s with lots := mapSet c.s.lots (x.sRun.start + i) 32 } }) s
  ((s.core r).binds.filter fun e => mine e.2 && ctrFired (s.sByte r e.1 8)).foldl (fun s e => s.placeCounter r e.1) s
/-- A binding that keeps its binder's S run is lost: once the binder has ended, and no other counter of the run is bound or about to be, the
run goes back (R30, R312). -/
def State.dropRun (s : State) (r : Nat) (b : Binding) : State :=
  match b.run with
  | some run =>
    if b.ended && !((s.core r).binds.any fun e => b.sharesRun e.2) && !(s.reqs.any fun q => match q.eff with
        | .bind _ y => b.sharesRun y && !q.stage.isDone
        | _ => false) then s.freeRun r .s run
    else s
  | none => s
/-- An activity has taken the custody record of a slot. -/
def Slot.takenBy (a : ActId) (y : Slot) : Bool := y.custody.state == 2 && y.custody.taker == a
def Slot.untaken (a : ActId) (y : Nat × Slot) : Nat × Slot :=
  if y.2.takenBy a then (y.1, { y.2 with custody := { y.2.custody with state := 1, taker := default } }) else y
def Core.untaken (a : ActId) (c : Core) : Core := { c with slots := c.slots.map (Slot.untaken a), resume := c.resume.map (Slot.untaken a) }
def Core.hasTaken (a : ActId) (c : Core) : Bool := c.slots.any (fun y => y.2.takenBy a) || c.resume.any fun y => y.2.takenBy a
/-- Custody records that the activity had taken return to custodial, in resume lists and saved contexts too (R306). -/
def State.untake (s : State) (a : ActId) : State :=
  { s with cores := s.cores.map fun e => if e.2.hasTaken a then (e.1, e.2.untaken a) else e,
           saves := s.saves.map fun v => { v with images := v.images.map fun i => if i.core.hasTaken a then { i with core := i.core.untaken a } else i } }
/-- Some register, anywhere, waits for the request. -/
def State.awaited (s : State) (id : Nat) : Bool :=
  s.cores.any (fun e => e.2.awaits id) || s.desk.any (fun l => awaits id l.copies) || s.saves.any (fun v => v.images.any fun i => i.core.awaits id)
    || s.reqs.any fun q => match q.eff with | .spawn _ st => awaits id st.copies | .launch l => awaits id l.copies | _ => false
/-- The waiters of an activity that has ended on counters and queues are forgotten: their records are freed and they ask no more (R263). A wait
whose landing a copied register still awaits goes on (R15), and so does one on a receipt or a claim, whose landing will be discarded (R71). -/
def State.dropWaiters (s : State) (a : ActId) : State :=
  let ids := (s.reqs.filter fun q => q.act == a && (match q.eff with | .waitObj _ _ kind _ => kind == 6 || kind == 7 | _ => false) && !q.stage.isDone
    && !s.awaited q.id).map Req.id
  if ids.isEmpty then s
  else { s with reqs := s.reqs.filter fun q => !ids.contains q.id,
                cores := s.cores.map fun e => (e.1, { e.2 with waiters := mapEach e.2.waiters (fun l => l.any ids.contains) fun l => l.filter fun i => !ids.contains i }) }
/-- The twin's slot and lots go with the primary (R459, R462). -/
def State.endTwin (s : State) (x : Slot) : State :=
  match x.twin with
  | some (q, j) =>
    let y := s.slot q j
    let s := [Sto.w, .a, .c, .s].foldl (fun s st => s.freeRun q st (y.run st)) s
    s.setSlot q j { (default : Slot) with gen := y.gen }
  | none => s
/-- The end of an activity (R130, R310): its slot is free, its lots are returned under R30, its late landings will be
discarded; the failure of a store that it has not been told of leaves a record (R271). -/
def State.endActivity (s : State) (r k : Nat) : State :=
  let x := s.slot r k
  let a : ActId := { core := r, slot := k, gen := x.gen }
  let s := s.count r 14 x.codes
  let s := s.untake a
  let s := s.endTwin x
  let s := [Sto.w, .a, .c].foldl (fun s st => s.freeRun r st (x.run st)) s
  let s := if s.keepsRun r k then s.binderEnds r k else s.freeRun r .s x.sRun
  let s := (s.setSlot r k { (default : Slot) with gen := x.gen }).dropWaiters a
  match x.deferred with
  | some (code, addr, sp) =>
    s.issue a (s.core r).lodging x.launch x.pc 128 (.mem none default (.store [] none)) (.done (.fail code addr (BitVec.ofNat 64 sp)))
  | none => s

end Sys2Proof.Machine
end

