-- ==== Sys2Proof/Machine/Commit.lean ====
section
/-! DEFINITION. The commit (R65 to R67, R268): the commit-time checks in index order, then register writes, local
stores, off-core effects, port pops and pushes, and the exit. -/

namespace Sys2Proof.Machine

/-! ## The checks of step 1 (R66, R244, R268) -/

/-- What the checks of a block build up: the held set, the off-core effects with their indices, writes to S, state words, and the rest of the commit. -/
structure Plan where
  obs : ObSet
  effs : List (Nat × Eff)
  puts : List (Nat × List Byte)
  /-- Objects that CTR.NEW or QNEW makes: S offset. -/
  news : List Nat
  sysw : List (Nat × Word)
  sleep : Word
  isync : Bool
  /-- Engine commands of the block per receipt (R213). -/
  pend : Map Nat
  pushes : List (Nat × V512)
  /-- Claims of INVOKEC with their chain rank and target (R242). -/
  chains : List (Nat × Nat × Word)
  runs : List (Sto × Run)
  twinRuns : List (Sto × Run)
  fulfilled : List Word
  /-- Custody acts in index order, and the slots they leave (R306 to R310). -/
  cus : List Eff
  slots : List (Nat × Nat × Slot)
deriving Repr, Inhabited

def Plan.add (p : Plan) (i : Nat) (e : Eff) : Plan := { p with effs := p.effs ++ [(i, e)] }
def shapeIf (b : Bool) : Except Trap Unit := if b then .error (trap tShape) else .ok ()
def trapObj (code : Nat) (o : Word) : Trap := { code := code, lo := o, hi := 0 }
/-- The value that reached slot `q` (0 L, 1 R, 2 X) of instruction `i`. -/
def Blk.op (b : Blk) (i q : Nat) : Value := (mapGet b.slots (slotKey i q)).getD default
/-- The descriptor read at the firing (R21, R472). -/
def askDesc (a : Ask) (handler : Bool) : Except Trap (BitVec 128) :=
  match a with
  | .desc d => if descOk d handler then .ok (d.truncate 128) else .error (trap tShape)
  | .failed c a sp => .error { code := c.toNat, lo := a, hi := BitVec.ofNat 64 sp }
  | _ => .error (trap tShape)
/-- BELOW that works out to 0 (R241). -/
def needRank (x : Slot) (r : Nat) : Except Trap Nat := if x.rankOf r = 0 then .error (trap tRankReserved) else .ok (x.rankOf r)
/-- Takes the entries of a give mask out of the set (R250). -/
def Plan.give (p : Plan) (mask : Nat) : Except Trap (List Ob × Plan) :=
  match p.obs.pick mask with
  | some es => .ok (es, { p with obs := p.obs.drop mask })
  | none => .error (trap tObligNone)
/-- A receiver that cannot take some entries faults OBLIG_FULL with the object of the first that does not fit (R238, R250, R296). -/
def fullIf (o : ObSet) (es : List Ob) : Except Trap Unit := match o.overflow es with | some w => .error (trapObj tObligFull w) | none => .ok ()
/-- Entries given to a new activity of at most 16 (R250). -/
def setOf (es : List Ob) : Option ObSet := ({ (default : ObSet) with custodial := false } : ObSet).receiveAll es

/-- The rectangle of a launch record, in global columns and rows, within a lodging (R288). -/
def Lodging.rect (l : Lodging) (x y w h : Nat) : Nat × Nat × Nat × Nat := (l.x + x, l.y + y, w, h)
/-- Enabled cores of a rectangle: routers of the lodging's map on which starts may be placed (R43, R463). -/
def State.rectCores (s : State) (lodging : Nat) (q : Nat × Nat × Nat × Nat) : List Nat :=
  (s.lodging lodging).map.filter fun r => inRect r q && !(s.core r).off
/-- The rectangle as the launch placed there keeps it. -/
def State.areaOf (s : State) (lodging : Nat) (q : Nat × Nat × Nat × Nat) : Area :=
  { x := q.1 - (s.lodging lodging).x, y := q.2.1 - (s.lodging lodging).y, w := q.2.2.1, h := q.2.2.2,
    cores := (s.rectCores lodging q).map fun r => (s.core r).logicalNo }
/-- The routers of a launch's enabled cores now. -/
def State.areaCores (s : State) (lodging : Nat) (a : Area) : List Nat := (a.cores.filterMap (s.router lodging)).filter fun r => !(s.core r).off
/-- Origins that an anywhere launch may try, rows from the top (R322). -/
def Lodging.origins (l : Lodging) (w h : Nat) : List (Nat × Nat) :=
  if l.w < w ∨ l.h < h then []
  else ((List.range (l.h + 1 - h)).map fun y => (List.range (l.w + 1 - w)).map fun x => (x, y)).flatten
/-- A launch record's fields (R288). -/
structure LaunchRec where
  entry : Cap
  tagged : Bool
  w : Nat
  h : Nat
  x : Nat
  y : Nat
  queue : Nat
  give : Nat
  arg : BitVec 256
  pad : Nat
deriving Repr, Inhabited
def launchFields (b : V512 × Bool) : LaunchRec :=
  let n := fun o k => numAt b.1 (8 * o) (8 * k)
  { entry := BitVec.ofNat 128 (n 0 16), tagged := b.2, w := n 16 2, h := n 18 2, x := n 20 1, y := n 21 1,
    queue := n 22 1, give := n 23 1, arg := BitVec.ofNat 256 (n 24 32), pad := n 56 8 }
/-- The 64 bytes of a launch record, and the tag of its first granule. -/
def State.launchBytes (s : State) (r a : Nat) : V512 × Bool := (wordOfBytes 512 (bytesAt (s.core r).s.bytes a 64), mapGet (s.core r).s.tags (a / 16))
/-- The record of the LAUNCH at index `i`: as the commit read it when it asked for the descriptor, or as it stands (R288, R472). -/
def State.launchRec (s : State) (r k i a : Nat) : LaunchRec :=
  let b := (s.slot r k).blk
  launchFields (if mapGet b.asks (128 + i) = .none then s.launchBytes r a else mapGet b.recs i)
/-- The record's zero fields and ranges (R288 check 1). -/
def LaunchRec.fieldsOk (l : LaunchRec) : Bool :=
  l.pad == 0 && (l.give < 16 || l.give == 255) && l.queue < 16 && (l.x == 255) == (l.y == 255) && 1 ≤ l.w && 1 ≤ l.h
def LaunchRec.anywhere (l : LaunchRec) : Bool := l.x == 255
/-- The rectangle leaves the lodging's (R288 check 2). -/
def LaunchRec.outside (l : LaunchRec) (g : Lodging) : Bool :=
  if l.anywhere then g.w < l.w || g.h < l.h else g.w < l.x + l.w || g.h < l.y + l.h
/-- The units taken: enabled cores at the origin, or the most at any origin that R322 may try (R288 check 5). -/
def State.launchUnits (s : State) (lodging : Nat) (l : LaunchRec) : Nat :=
  let g := s.lodging lodging
  if l.anywhere then (g.origins l.w l.h).foldl (fun m o => Nat.max m (s.rectCores lodging (g.rect o.1 o.2 l.w l.h)).length) 0
  else (s.rectCores lodging (g.rect l.x l.y l.w l.h)).length

/-- A wait's rank check (R243 to R245): the home's answer against the lowest rank the block leaves. -/
def waitCheck (a : Ask) (v : Value) (o : Word) (fin : Nat) : Except Trap Nat :=
  match a with
  | .answered true n _ => if n < fin then .ok n else .error { code := tRankOrder, lo := o, hi := BitVec.ofNat 64 (n + fin * 2 ^ 16) }
  | .answered false _ m => .error (refusal m (addrCore o) v)
  | _ => .ok 0
/-- The code by which a check of step 1 says that it has read a word with an uncorrectable error: no trap code, since the block then
restarts (R75). -/
def tConsumed : Nat := 0x100
/-- The checks of step 1 read `n` bytes of S at `off`. -/
def State.readS (s : State) (r off n : Nat) : Except Trap Unit :=
  if s.lotAway r .s off n then .error (trap tAway) else if (s.core r).s.bad off n then .error (trap tConsumed) else .ok ()
/-- The words of S stores that the checks of an act read: router, offset, bytes. -/
def State.checkReads (s : State) (r : Nat) : Act → List (Nat × Nat × Nat)
  | .rarm off _ | .ctrNew off .. => [(r, off, 8)]
  | .ctrDec c .. => (match s.router (s.core r).lodging (addrCore c) with | some q => [(q, addrOff c, 8)] | none => [])
  | .launch a true => [(r, a, 64)]
  | .qnew off w => if cfgInbox w then [] else [(r, off, 8)]
  | .qbind a _ | .qunbind a => [(r, addrOff a, 8)]
  | .wait _ 5 o => [(r, addrOff o, 16)]
  | .engine _ receipt => [(r, receipt, 8)]
  | .tile _ _ a => [(r, a, 64)]
  | .lodgeNew off receipt => [(r, off, 128), (r, receipt, 8)]
  | _ => []
/-- SEC-DED repairs what the checks of the act at an index read (R450). -/
def State.repairFor (s : State) (r : Nat) (a : Option Act) : State :=
  match a with
  | some a => (s.checkReads r a).foldl (fun s w => s.repairStore w.1 .s w.2.1 w.2.2) s
  | none => s
def State.repairChecked (s : State) (r k upTo : Nat) : State :=
  (s.slot r k).blk.acts.foldl (fun s e => if e.1 ≤ upTo then s.repairFor r e.2 else s) s
/-- The receipt's pending count after one more command (R213). -/
def State.countIn (s : State) (r : Nat) (p : Plan) (receipt : Nat) : Except Trap Plan := do
  s.readS r receipt 8
  if 127 < rcPending (s.sByte r receipt 8) + mapGet p.pend receipt + 1 then .error (trap tShape)
  else .ok { p with pend := mapUpd p.pend receipt (· + 1) }
/-- A tile record (R219): row bytes, rows, strides, mode and the fields that must be zero. -/
structure TileRec where
  w : Nat
  h : Nat
  ss : Int
  ds : Int
  mode : Nat
  pad : Nat
deriving DecidableEq, Repr
def State.tileRec (s : State) (r a : Nat) : TileRec :=
  { w := s.sByte r (a + 16) 4, h := s.sByte r (a + 20) 4, ss := (BitVec.ofNat 64 (s.sByte r (a + 24) 8)).toInt,
    ds := (BitVec.ofNat 64 (s.sByte r (a + 32) 8)).toInt, mode := s.sByte r (a + 40) 1, pad := s.sByte r (a + 41) 7 + s.sByte r (a + 48) 16 }
/-- The record's fields (R219 check 1). -/
def TileRec.bad (t : TileRec) : Bool :=
  decide (t.w < 16) || decide (65536 < t.w) || t.w % 16 != 0 || t.h == 0 || decide (65536 < t.h) || decide (1 < t.mode) || t.pad != 0
/-- A start or a stride that is no multiple of 16 (R219 check 2). -/
def tileAlign (cap : Cap) (stride : Int) : Bool := (capAddr cap).toNat % 16 != 0 || stride % 16 != 0
/-- Row `i` lies within the capability's bounds (R219 check 3). -/
def tileRow (cap : Cap) (stride : Int) (w i : Nat) : Bool :=
  let a : Int := ((capAddr cap).toNat : Int) + stride * (i : Int)
  decide (0 ≤ a) && rangeOk cap a.toNat w
def tileIn (cap : Cap) (stride : Int) (w h : Nat) : Bool := tileRow cap stride w 0 && tileRow cap stride w (h - 1)
/-- TILE's commit-time checks (R219). -/
def State.checkTile (s : State) (r : Nat) (c : PorterCmd) (sc dc : Cap) (a : Nat) : Except Trap PorterCmd :=
  let t := s.tileRec r a
  if t.bad then .error (trap tShape)
  else if tileAlign sc t.ss then .error (alignTrap (capAddr sc) 16)
  else if tileAlign dc t.ds then .error (alignTrap (capAddr dc) 16)
  else if !tileIn sc t.ss t.w t.h then .error (trapCap tBounds sc)
  else if !tileIn dc t.ds t.w t.h then .error (trapCap tBounds dc)
  else .ok { c with srcStride := t.ss, dstStride := t.ds, rowBytes := t.w, rows := t.h, zero := t.mode == 1, tags := tagsTravel sc dc }
/-- A slot as the custody acts of lower index leave it. -/
def Plan.slotOf (p : Plan) (s : State) (r k : Nat) : Slot :=
  match p.slots.find? fun e => e.1 == r && e.2.1 == k with | some e => e.2.2 | none => s.slot r k
/-- Adds a custody act, with what it leaves of a slot. -/
def Plan.custody (p : Plan) (e : Eff) (r k : Nat) (y : Slot) : Plan :=
  { p with cus := p.cus ++ [e], slots := (r, k, y) :: p.slots }
/-- A custody record that a CUS instruction may settle (R306). -/
def State.checkCustody (s : State) (p : Plan) (me : ActId) (r k : Nat) : Except Trap Slot :=
  let y := p.slotOf s r k
  match y.custody.state with
  | 1 => .ok y
  | 2 => if y.custody.taker = me then .ok y else if s.alive y.custody.taker then .error (trap tPerm) else .ok y
  | _ => .error (trap tShape)
/-- Zero fields and ranges of a lodging record (R436). -/
def lodgeFieldsOk (b : List Byte) : Bool :=
  let n := fun o k => natOfBytes ((b.drop o).take k)
  n 84 44 == 0 && 1 ≤ n 0 1 && n 1 1 < 2 && n 2 2 < 128 && n 4 2 < 32 && 1 ≤ n 6 2 && n 6 2 ≤ 128 && 1 ≤ n 8 2 && n 8 2 ≤ 32
    && 3 ≤ n 10 1 && n 10 1 ≤ 8 && n 12 4 < 2 ^ 20
/-- The S-store address of an object of this core. -/
def State.here' (s : State) (r off : Nat) : Word := localAddr (s.core r).logicalNo off
/-- The waiting effect on a counter, claim or queue needs the register of its word. -/
def Blk.regAt (b : Blk) (i : Nat) : Nat := (wReg (b.words[i]?.getD 0)).toNat

/-- The tiles that a keep word names (R232): the first and how many; none where they are not contiguous. -/
def keepTiles (keep : Word) : Option (Nat × Nat) :=
  let ix := (List.range 16).filter fun i => bitAt keep i
  let lo := (ix.head?).getD 0
  if ix = (List.range ix.length).map (· + lo) then some (lo, ix.length) else none
/-- The run that a successor inherits in a store (R232, R233). -/
def Slot.inherits (x : Slot) (keep : Word) (st : Sto) : Run :=
  match st with
  | .w => if bitAt keep 17 then x.wRun else default
  | .a => if bitAt keep 16 then x.aRun else default
  | .s => if bitAt keep 18 then x.sRun else default
  | .c => match keepTiles keep with
    | some (lo, n) => if n = 0 then default else { start := x.cRun.start + lo, count := n }
    | none => default
/-- The engine commands that a block is about to commit, whose lots are no free ones (R30, R233). -/
def State.blockEngines (s : State) (r k : Nat) : List Eff :=
  (s.slot r k).blk.acts.filterMap fun e => match e.2 with
    | some (.engine f _) => some f
    | some (.effect (.feed q b lo hi)) => some (.feed q b lo hi)
    | some (.tile sc dc a) =>
      let t := s.tileRec r a
      some (.porter { (default : PorterCmd) with src := memAddr sc (capAddr sc), dst := memAddr dc (capAddr dc), srcStride := t.ss, dstStride := t.ds,
                                                 rowBytes := t.w, rows := t.h, zero := t.mode == 1, receipt := a })
    | _ => none
/-- The block binds a counter that lies in its activity's S run (R312). -/
def State.ownRun (s : State) (r k : Nat) (counter : Word) : Option Run :=
  let x := s.slot r k
  let off := addrOff counter
  if (s.router (s.core r).lodging (addrCore counter)).getD r = r ∧ x.sRun.count ≠ 0 ∧ x.sRun.start * 1024 ≤ off ∧ off < (x.sRun.start + x.sRun.count) * 1024
  then some x.sRun else none
def State.bindsOwnRun (s : State) (r k : Nat) : Bool :=
  (s.slot r k).blk.acts.any fun e => match e.2 with | some (.ctrBind o _ _) => (s.ownRun r k o).isSome | _ => false
/-- The plan of R233: runs of the successor in W, A, C, S; SHAPE when one does not exist. -/
def State.planHandoff (s : State) (r k : Nat) (keep : Word) (d : BitVec 128) (holdS : Bool) : Except Trap (List (Sto × Run)) := do
  let x := s.slot r k
  shapeIf (match keepTiles keep with | some (lo, n) => x.cRun.count < lo + n | none => true)
  let one := fun (st : Sto) => do
    let inh := x.inherits keep st
    let own := x.run st
    let used := fun u => s.engineUses r st (u * st.unit) ((u + 1) * st.unit) || s.counterDue r st (u * st.unit) ((u + 1) * st.unit)
      || (s.blockEngines r k).any (Eff.usesLot r (s.core r).logicalNo st (u * st.unit) ((u + 1) * st.unit) r)
    let freed := fun u => own.has u && !inh.has u && !(st == .s && holdS) && !used u
    match ((s.core r).store st).plan st.lots (descLots d st) inh freed with
    | some run => return (st, run)
    | none => throw (trap tShape)
  return [← one .w, ← one .a, ← one .c, ← one .s]

/-- A binding that the committing activity makes. -/
def State.bindOf (s : State) (r k : Nat) (x : Slot) (entry : Cap) (desc : BitVec 128) (escrow : List Ob) (run : Option Run) : Binding :=
  { (default : Binding) with bound := true, entry := entry, desc := desc, escrow := escrow, binder := { core := r, slot := k, gen := x.gen },
                             run := run, launch := x.launch, rect := x.rect, lodging := (s.core r).lodging }

/-- Escrow records in use, or about to be, at a core (R254, R255): of its counters and held invocations, of bindings and invocations on
their way to it, and of those of lower index in the block. -/
def State.escrowUsed (s : State) (p : Plan) (lodging r : Nat) : Nat :=
  let of := fun (e : Eff) => match e with
    | .bind k b => if s.router lodging (addrCore k) == some r then b.escrow.length else 0
    | .invokec t i => if claimDevice t == s.fuses.device && s.router lodging (claimCore t) == some r then i.obs.length else 0
    | _ => 0
  (s.core r).binds.foldl (fun n e => n + e.2.escrow.length) 0
    + (s.core r).claims.foldl (fun n e => n + (e.2.invs.foldl (fun n v => n + v.obs.length) 0)) 0
    + (s.reqs.foldl (fun n q => if q.lodging == lodging && !q.stage.isDone then n + of q.eff else n) 0)
    + p.effs.foldl (fun n e => n + of e.2) 0

/-- The commit-time checks of the off-core and system acts that name lodgings, spaces and custody records (R306 to R310, R431). -/
def State.checkSystem (s : State) (r k : Nat) (i : Nat) (a : Act) (p : Plan) : Except Trap Plan :=
  let x := s.slot r k
  let b := x.blk
  let me : ActId := { core := r, slot := k, gen := x.gen }
  match a with
  | .cusTake q j => do
    let y ← s.checkCustody p me q j
    return p.custody (.cusTake q j) q j { y with custody := { y.custody with state := 2, taker := me } }
  | .cusResume q j a => do
    let y ← s.checkCustody p me q j
    if a.toNat % 64 ≠ 0 then throw (alignTrap a 64)
    return p.custody (.cusResume q j a) q j { y with custody := default }
  | .cusGive q j mask dest q2 j2 => do
    let y ← s.checkCustody p me q j
    match y.obs.pick mask.toNat with
    | none => throw (trap tObligNone)
    | some es =>
      let y' := { y with obs := y.obs.drop mask.toNat }
      if dest.tag == .cap then
        let d ← askDesc (mapGet b.asks i) false
        fullIf default es
        let st : Start := { (default : Start) with kind := 1, lodging := (s.core q).lodging, entry := dest.cap, desc := d, g0 := y.custody.record.bits,
                                                   launch := y.launch, rect := y.rect, obs := es, image := s.imageVersion }
        return p.custody (.cusGive q j mask.toNat q2 j2 (some st)) q j y'
      else
        let p' := p.custody (.cusGive q j mask.toNat q2 j2 none) q j y'
        let z ← s.checkCustody p' me q2 j2
        fullIf z.obs es
        return { p' with slots := (q2, j2, { z with obs := (z.obs.receiveAll es).getD z.obs }) :: p'.slots }
  | .cusBreak q j code fl => do
    let y ← s.checkCustody p me q j
    return p.custody (.cusBreak q j (bitsAt code 0 8) (fl == 1)) q j
      { y with obs := { (default : ObSet) with custodial := true }, custody := if fl == 1 then default else y.custody }
  | .lodgeNew off receipt => do
    s.readS r off 128
    let rec_ := bytesAt (s.core r).s.bytes off 128
    shapeIf (!lodgeFieldsOk rec_)
    let p ← s.countIn r p receipt
    let tag := fun g => bit1 (mapGet (s.core r).s.tags (off / 16 + g))
    return p.add i (.lodgeNew rec_ (tag 1 + 2 * tag 2 + 4 * tag 3) receipt)
  | _ => .ok p

/-- The commit-time checks of one act (R66 step 1), on the held set that lower indices left (R268); `fin` is the lowest rank
that the whole block leaves (R244). -/
def State.checkAct (s : State) (r k : Nat) (fin : Nat) (p : Plan) (i : Nat) (a : Act) : Except Trap Plan :=
  let x := s.slot r k
  let b := x.blk
  let c := s.core r
  match a with
  | .effect e => .ok (p.add i e)
  | .trap v => .error { code := tTrap, lo := 0, hi := v }
  | .rarm off n => do
    s.readS r off 8
    shapeIf (2 ^ 27 - 1 < n.toNat || rcPending (s.sByte r off 8) != 0)
    return { p with puts := p.puts ++ [(off, bytesOf 8 (BitVec.ofNat 64 (n.toNat * 2 ^ 27)) ++ bytesOf 8 (0 : Word))] }
  | .ctrNew off n rank scope => do
    s.readS r off 8
    let w := s.sByte r off 8
    shapeIf (2 ^ 32 ≤ n.toNat || 0xFFFF < rank.toNat || ctrLeft w != 0 || ctrFired w || !(mapGet c.waiters off).isEmpty || !(mapGet c.binds off).escrow.isEmpty)
    let rk ← needRank x rank.toNat
    let obs ← if n = 0 then pure p.obs
      else match p.obs.receive { held := true, isCount := true, object := s.here' r off, rank := rk, mult := n.toNat } false with
        | some o => pure o
        | none => throw (trapObj tObligFull (s.here' r off))
    return { p with obs := obs, news := p.news ++ [off],
                    puts := p.puts ++ [(off, bytesOf 8 (BitVec.ofNat 64 (ctrWord rk scope true false false false n.toNat)) ++ bytesOf 8 (0 : Word))] }
  | .ctrDec k' n scope => do
    let home := s.router c.lodging (addrCore k')
    if let some q := home then s.readS q (addrOff k') 8
    let bad := match home with | some q => ctrBad (s.sByte q (addrOff k') 8) | none => false
    shapeIf (n.toNat = 0 || 2 ^ 32 ≤ n.toNat || bad)
    match p.obs.findUnits k' n.toNat with
    | some j =>
      return ({ p with obs := p.obs.spend j n.toNat }).add i (.discharge k' n.toNat scope false)
    | none => throw (trapObj tObligNone k')
  | .ctrBind k' e mask => do
    shapeIf (2 ^ 16 ≤ mask.toNat)
    let d ← askDesc (mapGet b.asks (128 + i)) true
    let (ok, rank, bound) := match mapGet b.asks i with | .answered ok n m => (ok, n, m) | _ => (false, 0, 0)
    shapeIf (!ok || bound != 0)
    let rankmin := p.obs.rankMin
    let (es, p) ← p.give mask.toNat
    if es.any fun e => e.rank ≤ rank then throw { code := tRankOrder, lo := k', hi := BitVec.ofNat 64 (rank + rankmin * 2 ^ 16) }
    let home := (s.router c.lodging (addrCore k')).getD r
    if 16 < es.length || 64 < s.escrowUsed p c.lodging home + es.length then throw (trapObj tObligFull k')
    fullIf default es
    return p.add i (.bind k' (s.bindOf r k x e d es (s.ownRun r k k')))
  | .ctrSplit a b' n => do
    let free := b'.toNat < 16 && !(mapGet p.obs.ents b'.toNat).held
    shapeIf (15 < a.toNat || 15 < b'.toNat || a == b' || !free || n == 0)
    let o := mapGet p.obs.ents a.toNat
    if !o.held || !o.isCount || o.mult < n.toNat then throw (trapObj tObligNone o.object)
    let q := p.obs.spend a.toNat n.toNat
    return { p with obs := { q with ents := mapSet q.ents b'.toNat { o with mult := n.toNat } } }
  | .invoke _ _ _ none => .ok p
  | .invoke e arg w (some ci) => do
    shapeIf (numAt w 44 20 != 0)
    let d ← askDesc (mapGet b.asks i) false
    let (es, p) ← p.give (numAt w 28 16)
    let rk ← needRank x (numAt w 0 16)
    let n := claimNumber s.fuses.device c.logicalNo ci (mapGet c.claims ci).gen
    fullIf default (claimOb n rk :: es)
    let st := invokedStart s e d arg.bits (arg.tag == .cap) n rk es x.launch x.rect c.lodging []
    let service := c.lodging != 0 && capSpace e == 0xFFFF
    let q := if service then 4096 + numAt w 16 12 else (s.router c.lodging (numAt w 16 12)).getD r
    return p.add i (.invoke q (if service then { st with serve := c.lodging, call := 1 } else st))
  | .invokec _ _ _ none => .ok p
  | .invokec t arg w (some ci) => do
    shapeIf (numAt w 44 20 != 0)
    let rankmin := p.obs.rankMin
    let (es, p) ← p.give (numAt w 28 16)
    let rk ← needRank x (numAt w 0 16)
    let chain := match mapGet b.asks i with | .answered _ n _ => n | _ => 0
    if es.any fun e => e.rank ≤ chain then throw { code := tRankOrder, lo := t, hi := BitVec.ofNat 64 (chain + rankmin * 2 ^ 16) }
    if claimDevice t = s.fuses.device ∧ es ≠ [] then
      let home := (s.router c.lodging (claimCore t)).getD r
      if 64 < s.escrowUsed p c.lodging home + es.length then throw (trapObj tObligFull t)
    let n := claimNumber s.fuses.device c.logicalNo ci (mapGet c.claims ci).gen
    let inv : Invocation := { arg := arg.bits, argCap := arg.tag == .cap, word := w, claim := n, rank := rk, lodging := c.lodging, launch := x.launch,
                              rect := x.rect, obs := es, gates := [] }
    return ({ p with chains := p.chains ++ [(ci, Nat.max rk chain, t)] }).add i (.invokec t inv)
  | .spawn e arg w => do
    shapeIf (numAt w 32 32 != 0 || numAt w 12 4 != 0)
    let d ← askDesc (mapGet b.asks i) false
    let (es, p) ← p.give (numAt w 16 16)
    fullIf default es
    let st : Start := { (default : Start) with kind := 1, lodging := c.lodging, entry := e, desc := d, g0 := arg.bits, g0cap := arg.tag == .cap,
                                               launch := x.launch, rect := x.rect, obs := es, image := s.imageVersion }
    return p.add i (.spawn ((s.router c.lodging (numAt w 0 12)).getD r) st)
  | .launch _ false => .ok p
  | .launch a true => do
    if mapGet b.asks (128 + i) = .none then s.readS r a 64
    let l := s.launchRec r k i a
    let g := s.lodging c.lodging
    shapeIf (!l.fieldsOk)
    if l.outside g then throw (trapLodging 0)
    let u := s.launchUnits c.lodging l
    shapeIf (u == 0)
    if !l.tagged || capKind l.entry != 12 then throw (trapCap tTag l.entry)
    if !capHas l.entry pInvoke then throw (trapCap tPerm l.entry)
    let d ← askDesc (mapGet b.asks (128 + i)) false
    let o := mapGet p.obs.ents l.give
    if l.give != 255 && (!o.held || !o.isCount || o.mult < u) then throw (trapObj tObligNone o.object)
    let p := if l.give = 255 then p else { p with obs := p.obs.spend l.give u }
    let n : Launch := { (default : Launch) with
      lodging := c.lodging, die := dieOf r, queue := l.queue, entry := l.entry, desc := d, arg := l.arg, w := l.w, h := l.h, x := l.x, y := l.y,
      units := if l.give = 255 then 0 else u, counter := if l.give = 255 then 0 else o.object, rank := o.rank }
    return p.add i (.launch n)
  | .fulfil n v scope => do
    match p.obs.find false n with
    | some j => return ({ p with obs := p.obs.spend j 1, fulfilled := p.fulfilled ++ [n] }).add i (.settle n v 0 scope)
    | none => throw (trapObj tObligNone n)
  | .brk n code scope => do
    shapeIf (numAt code 0 8 == 0)
    match p.obs.find false n with
    | some j => return ({ p with obs := p.obs.spend j 1 }).add i (.settle n (dataValue 0) (bitsAt code 0 8) scope)
    | none => throw (trapObj tObligNone n)
  | .qnew off w => do
    if cfgInbox w then
      shapeIf (numAt w 21 43 != 0 || cfgLog w != 0 || cfgRank w != 0)
      return p
    else
      s.readS r off 8
      let h := s.sByte r off 8
      shapeIf (numAt w 21 43 != 0 || cfgLog w < 3 || 8 < cfgLog w)
      shapeIf (qCount h != 0 || !(mapGet c.waiters off).isEmpty || qBound h)
      let rk ← needRank x (cfgRank w)
      return { p with news := p.news ++ [off],
                      puts := p.puts ++ [(off, bytesOf 8 (BitVec.ofNat 64 (qWord rk (cfgLog w) false 0 0)) ++ List.replicate 56 0)] }
  | .qbind a e => do
    let d ← askDesc (mapGet b.asks i) true
    let off := addrOff a
    shapeIf (addrCore a != c.logicalNo || off == inboxOff)
    s.readS r off 8
    shapeIf (qBad (s.sByte r off 8) || qBound (s.sByte r off 8))
    return p.add i (.qbind off (s.bindOf r k x e d [] none))
  -- DEDUCED (log 69): QUNBIND's L is as for QBIND, so one on another core, an inbox and a malformed header (R262) fault SHAPE here too
  | .qunbind a => do
    let off := addrOff a
    shapeIf (addrCore a != c.logicalNo || off == inboxOff)
    s.readS r off 8
    shapeIf (qBad (s.sByte r off 8))
    return p.add i (.qunbind off)
  | .wait st kind o => do
    if kind = 5 then s.readS r (addrOff o) 16
    if kind ≠ 5 then let _ ← waitCheck (mapGet b.asks i) (b.op i 0) o fin
    return p.add i (.waitObj (b.regAt i) st kind o)
  | .send d m ok => .ok (if ok then p.add i (.message d m none) else p)
  | .sendw d m => do
    let _ ← waitCheck (mapGet b.asks i) (b.op i 0) (capAddr (b.op i 0).cap) fin
    return p.add i (.message d m (some (b.regAt i)))
  | .engine e receipt => do
    let p ← s.countIn r p receipt
    return p.add i e
  | .tile sc dc a => do
    s.readS r a 64
    let cmd : PorterCmd := { (default : PorterCmd) with act := { core := r, slot := k, gen := x.gen }, lodging := c.lodging,
                                                        src := memAddr sc (capAddr sc), dst := memAddr dc (capAddr dc), receipt := a }
    let cmd ← s.checkTile r cmd sc dc a
    let p ← s.countIn r p a
    return p.add i (.porter cmd)
  | .sysWr n v => .ok { p with sysw := p.sysw ++ [(n, v)] }
  | .sleep t => .ok { p with sleep := BitVec.ofNat 64 (Nat.max p.sleep.toNat t.toNat) }
  | .isync => .ok { p with isync := true }
  | .push port v => .ok { p with pushes := p.pushes ++ [(port, v)] }
  | .shape => .error (trap tShape)
  | .cusTake .. | .cusResume .. | .cusGive .. | .cusBreak .. | .lodgeNew .. => s.checkSystem r k i a p

/-- The commit-time checks of an exit (R126, R130, R232, R233). -/
def State.checkExit (s : State) (r k : Nat) (p : Plan) (i : Nat) (e : Exit) : Except Trap Plan :=
  let x := s.slot r k
  match e with
  | .computed v _ =>
    if v.tag == .broken then .error (trap tBrokenUse)
    else if v.tag == .cap && capKind v.cap != 11 then .error (trapCap tTag v.cap)
    else
      let a := if v.tag == .cap then capAddr v.cap else v.scalar
      if a.toNat % 64 ≠ 0 then .error (alignTrap a 64) else .ok p
  | .exit => if p.obs.heldMask ≠ 0 then .error { code := tObligAtExit, lo := 0, hi := BitVec.ofNat 64 p.obs.heldMask } else .ok p
  | .handoff _ _ keep => do
    let d ← askDesc (mapGet x.blk.asks i) false
    shapeIf (numAt keep 19 45 != 0)
    shapeIf ((descFlags d % 2 == 1) != x.redundant || (descFlags d / 2 % 2 == 1) != x.linkUsing)
    let hold := !bitAt keep 18 && (s.keepsRun r k || s.bindsOwnRun r k)
    let runs ← s.planHandoff r k keep d hold
    let twin ← match x.twin with | some (q, j) => s.planHandoff q j keep d false | none => pure []
    return { p with runs := runs, twinRuns := twin }
  | _ => .ok p
/-- The checks of one index. -/
def State.checkIdx (s : State) (r k : Nat) (fin : Nat) (p : Plan) (i : Nat) : Except Trap Plan :=
  let b := (s.slot r k).blk
  match mapGet b.acts i, b.exits.find? fun e => e.1 == i with
  | some a, _ => s.checkAct r k fin p i a
  | none, some e => s.checkExit r k p i e.2
  | none, none => .ok p
/-- The index, at or above 16, of an entry that a full set could not take but would hold if every check passed. -/
def ObSet.findBeyond (o : ObSet) (object : Word) (n : Nat) : Option Nat :=
  (o.ents.find? fun e => 16 ≤ e.1 && e.2.isCount && e.2.object == object && n ≤ e.2.mult).map Prod.fst
/-- The lowest rank of a set, with the entries beyond its sixteen. -/
def ObSet.lowest (o : ObSet) : Nat := o.ents.foldl (fun m e => if 16 ≤ e.1 && e.2.held then Nat.min m e.2.rank else m) o.rankMin
/-- What an act would leave of the held set if its checks passed (R244), whether they pass or not. -/
def State.assumed (s : State) (r k i : Nat) (o : ObSet) : Act → ObSet
  | .ctrNew off n rank _ =>
    let e : Ob := { held := true, isCount := true, object := s.here' r off, rank := (s.slot r k).rankOf (numAt rank 0 16), mult := n.toNat }
    if n = 0 then o
    else match o.receive e false with
      | some o' => o'
      | none => { o with ents := mapSet o.ents (16 + i) e }
  | .ctrDec c n _ => match o.findUnits c n.toNat with
    | some j => o.spend j n.toNat
    | none => match o.findBeyond c n.toNat with
      | some j => o.spend j n.toNat
      | none => o
  | .ctrBind _ _ mask => o.drop mask.toNat
  | .invoke _ _ w (some _) => o.drop (numAt w 28 16)
  | .invokec _ _ w (some _) => o.drop (numAt w 28 16)
  | .spawn _ _ w => o.drop (numAt w 16 16)
  | .launch a true => let l := s.launchRec r k i a; if l.give = 255 then o else o.spend l.give (s.launchUnits (s.core r).lodging l)
  | .fulfil n _ _ => match o.find false n with | some j => o.spend j 1 | none => o
  | .brk n _ _ => match o.find false n with | some j => o.spend j 1 | none => o
  | _ => o
/-- The lowest rank the block would leave if every check passed (R244); it does not depend on which check fails. -/
def State.finalMin (s : State) (r k : Nat) (p0 : Plan) : Nat :=
  ((List.range (s.slot r k).blk.words.length).foldl (fun p i => match s.checkIdx r k (2 ^ 17) p i with
    | .ok q => q
    | .error _ => match mapGet (s.slot r k).blk.acts i with | some a => { p with obs := s.assumed r k i p.obs a } | none => p) p0).obs.lowest
/-- An EXIT whose block leaves an obligation, made at a higher index, faults as well: no obligation is freed but by a discharge (R130,
R253, log 61). -/
def State.exitLeaves (s : State) (r k : Nat) (p : Plan) : Except (Nat × Trap) Plan :=
  match (s.slot r k).blk.exits with
  | [(i, .exit)] => if p.obs.heldMask ≠ 0 then .error (i, { code := tObligAtExit, lo := 0, hi := BitVec.ofNat 64 p.obs.heldMask }) else .ok p
  | _ => .ok p
/-- All checks in index order; the first that fails, with its index. -/
def State.checkFrom (s : State) (r k fin : Nat) : Plan → List Nat → Except (Nat × Trap) Plan
  | p, [] => .ok p
  | p, i :: is => match s.checkIdx r k fin p i with | .ok q => s.checkFrom r k fin q is | .error t => .error (i, t)
/-- Step 1 of R66. -/
def State.commitChecks (s : State) (r k : Nat) : Except (Nat × Trap) Plan :=
  let p0 : Plan := { (default : Plan) with obs := (s.slot r k).obs }
  match s.checkFrom r k (s.finalMin r k p0) p0 (List.range (s.slot r k).blk.words.length) with
  | .ok p => s.exitLeaves r k p
  | .error e => .error e

/-! ## The twin's effects (R460, R461) -/

/-- The block as the twin of a redundant activity has run it; the primary's where the twin has run none of it yet. -/
def State.twinBlk (s : State) (r k : Nat) : Blk :=
  let x := s.slot r k
  match x.twin with
  | some (q, j) => let y := (s.slot q j).blk; if y.phase = 2 ∧ x.blk.phase = 2 ∧ y.admitted = x.blk.admitted ∧ y.words = x.blk.words then y else x.blk
  | none => x.blk
/-- Values of the two copies that hash alike: equal ones, and what `s.phys` and `s.slot` read, of which the primary's is hashed (R460). -/
def alike (r k q j : Nat) (v w : RegDone) : Bool :=
  let own := fun (n m : Nat) => v == .value (dataScalar (BitVec.ofNat 64 n)) && w == .value (dataScalar (BitVec.ofNat 64 m))
  v == w || own r q || own k j
/-- The effects of a block differ between the copies (R461): register writes, local stores, outbound entries, the exit. DEDUCED (log 48): the effects
themselves are compared, for the hash, which is not architected. -/
def State.twinDiffers (s : State) (r k : Nat) : Bool :=
  let x := s.slot r k
  match x.twin with
  | none => false
  | some (q, j) =>
    let a := x.blk
    let b := s.twinBlk r k
    (List.range 64).any (fun g => !alike r k q j (mapGet a.regDone g) (mapGet b.regDone g)) || a.lsids' != b.lsids' || a.exits != b.exits || a.acts != b.acts || a.pops != b.pops

/-! ## Steps 2 to 7 -/

/-- Every push has room (R66 step 2). -/
def State.pushRoom (s : State) (r : Nat) (p : Plan) : Bool :=
  p.pushes.all fun e => match s.portTo r e.1 with
    | some q => let pt := mapGet (s.core q).ports (facing e.1); pt.words.length + pt.coming.length + (p.pushes.filter fun f => f.1 == e.1).length ≤ 8
    | none => true
/-- The request number of the effect of instruction `i`. -/
def Plan.idOf (p : Plan) (next i : Nat) : Nat := next + (p.effs.findIdx fun e => e.1 == i)
/-- The register file after step 3 (R66, R122). -/
def regsAfter (x : Slot) (p : Plan) (next : Nat) : Map Reg :=
  x.blk.regDone.foldl (fun m e =>
    let g := mapGet x.regs e.1
    match e.2 with
    | .value v => mapSet m e.1 (writeReg g v)
    | .landing i _ ranked =>
      let n := match mapGet x.blk.asks i with | .answered _ n _ => n | _ => 0
      let o := match mapGet x.blk.acts i with | some (.wait _ _ o) => o | some (.sendw ..) => capAddr (x.blk.op i 0).cap | _ => 0
      mapSet m e.1 (emptyReg (p.idOf next i) n ranked o)
    | .link => mapSet m e.1 (emptyReg (next + p.effs.length) 0 false 0)
    | _ => m) x.regs
/-- The bytes of one local store access reach the store (R60, R66 step 4): granules written lose their tag, but for the one
that STC decides; words covered whole are no longer poisoned. -/
def LStore.commit (l : LStore) (w : LsWrite) (shift : Nat → Nat) : LStore :=
  let bs := w.bytes.map fun e => (shift e.1, e.2)
  let whole := fun u => (List.range 8).all fun j => bs.any fun e => e.1 == 8 * u + j
  let l := { l with bytes := bs.reverse.foldl (fun m e => mapSet m e.1 e.2) l.bytes,
                    tags := l.tags.filter fun g => !(bs.any fun e => e.1 / 16 == g.1),
                    poison := l.poison.filter fun u => !whole u.1, corr := l.corr.filter fun u => !whole u.1 }
  match w.tag with
  | some (g, b) => l.setTag (shift (16 * g) / 16) b
  | none => l
/-- Steps 4's local stores, in LSID order. -/
def Core.commitStores (c : Core) (ws : Map LsWrite) (shift : Sto → Nat → Nat) : Core :=
  ws.foldl (fun c e => if e.2.bytes.isEmpty && e.2.tag.isNone then c else c.setStore e.2.sto ((c.store e.2.sto).commit e.2 (shift e.2.sto))) c
/-- The writes of a redundant activity are made on both cores (R460). -/
def State.twinStores (s : State) (x : Slot) : State :=
  match x.twin with
  | some (q, j) =>
    let y := s.slot q j
    let inside := fun (e : LsWrite) => e.bytes.all fun b => let a := x.run e.sto; a.start * e.sto.unit ≤ b.1 && b.1 < (a.start + a.count) * e.sto.unit
    s.updCore q fun c => c.commitStores (x.blk.lsids'.filter fun e => inside e.2) (twinShift x y)
  | none => s
/-- SYS.WR (R305). -/
def State.sysWrite (s : State) (r k : Nat) (n : Nat) (v : Word) : State :=
  if n = 6 then s.updSlot r k fun x => { x with round := roundWritten v }
  else if n = 7 then s.updSlot r k fun x => { x with seed := if bitsAt v 0 32 = 0 then 0x6A09E667 else bitsAt v 0 32 }
  else if n = 0x40 then s.updSlot r k fun x => { x with serve := bitsAt v 0 8 }
  else if 0x20 ≤ n ∧ n ≤ 0x2F then s.updCore r fun c => { c with ev := mapSet c.ev (n - 0x20) (bitsAt v 0 32) }
  else s
/-- Registers g3 to g(2 + n) for a child (R15, R270). -/
def copyRegs (regs : Map Reg) (desc : BitVec 128) : Map Reg := regs.filter fun e => 3 ≤ e.1 && e.1 < 3 + descCopies desc
/-- A request that a release or a gate waits for: everything but waits and fences. -/
def Eff.counts : Eff → Bool | .waitObj .. => false | .fence .. => false | _ => true
/-- The activity's requests that are not acknowledged (R269). -/
def State.mine (s : State) (a : ActId) : List Nat := (s.reqs.filter fun q => q.act == a && q.eff.counts).map Req.id
/-- Landings that an activity still waits for, within a scope (R293). -/
def State.pendingLandings (s : State) (a : ActId) (scope : Nat) : List Nat :=
  (s.reqs.filter fun q => q.act == a && s.reqScope q ≤ scope && (match q.eff with
    | .mem (some _) _ _ => true | .waitObj .. => true | .message _ _ (some _) => true | _ => false)).map Req.id
/-- An effect takes its place in the outbound queue (R66 step 5); a WAIT asks its object at once. -/
def State.enter (s : State) (r k : Nat) (i : Nat) (e : Eff) : State :=
  let x := s.slot r k
  let a : ActId := { core := r, slot := k, gen := x.gen }
  let lodging := (s.core r).lodging
  let id := s.nextReq
  let gates := s.mine a
  let e : Eff := match e with
    | .porter c => .porter { c with id := id }
    | .matrix m => .matrix { m with id := id }
    | .invoke q st => .invoke q { st with gates := gates, toCore := (s.core q).logicalNo }
    | .invokec t v => .invokec t { v with gates := gates }
    | .spawn q st => .spawn q { st with gates := gates, copies := copyRegs x.regs st.desc, toCore := (s.core q).logicalNo }
    | .launch l => .launch { l with gates := gates, copies := copyRegs x.regs l.desc, num := (s.lodging lodging).nextLaunch, since := s.cycle }
    | .statSum d rc _ q => .statSum d rc (s.core r).ev q
    | .message (.coll n _) m reg => .message (.coll n (mapGet (mapGet s.colls n).sent r)) m reg
    | e => e
  let s : State := match e with
    | .message (.coll n k) _ _ => { s with colls := mapUpd s.colls n fun c =>
        { c with sent := mapUpd c.sent r (· + 1), out := c.out ++ [(id, k % c.blocks % c.relays.length)] } }
    | .launch _ => s.updLodging lodging fun g => { g with nextLaunch := if g.nextLaunch = 0xFFFFFFFF then 1 else g.nextLaunch + 1 }
    | .statSum .. =>
      let n := mapGet (s.core r).rounds x.launch.toNat
      { s.updCore r (fun c => { c with rounds := mapSet c.rounds x.launch.toNat (n + 1) }) with
          sums := s.sums ++ [(lodging, x.launch.toNat, n, r, id)] }
    | .fence acq _ sc => if acq then s.updSlot r k fun y => { y with fenceOn := y.fenceOn ++ s.pendingLandings a sc } else s
    | _ => s
  let stage : Stage := match e with
    | .waitObj _ _ 5 _ => .waiting
    | .waitObj _ _ 8 o => if claimDevice o = s.fuses.device then .ready (.loc r .s 0) else .ready (.peer (claimDevice o))
    | .waitObj .. => .ready (.loc r .s 0)
    | _ => .queued
  s.issue a lodging x.launch x.pc i e stage
/-- A block has an effect that closes a region (R453). -/
def closes (x : Slot) (p : Plan) : Bool :=
  !p.effs.isEmpty || !p.cus.isEmpty || !p.puts.isEmpty || !p.sysw.isEmpty || !p.pushes.isEmpty || !x.blk.pops.isEmpty || p.obs != x.obs
    || (x.blk.lsids'.any fun e => !e.2.bytes.isEmpty || e.2.tag.isSome)
    || (x.blk.regDone.any fun e => match e.2 with | .landing .. => true | .link => true | _ => false)
/-- Step 3 (R66, R166, R169, R179, R305). -/
def State.step3 (s : State) (r k : Nat) (p : Plan) : State :=
  let x := s.slot r k
  let b := x.blk
  let s := s.updCore r fun c => { c with ev := countEvents c.ev b.evs }
  let s := match x.twin with | some (q, _) => s.updCore q fun c => { c with ev := countEvents c.ev b.evs } | none => s
  let s := s.updSlot r k fun y =>
    { y with regs := regsAfter x p s.nextReq, obs := p.obs, round := roundFlags x.round b.evs,
             seed := seedAfter (drawsBelow b.words b.round b.words.length) x.seed, retried := false, diverged := false,
             region := if closes x p then { x.region with isOpen := false } else x.region.overwritten b.regDone }
  let s := match x.twin with
    | some (q, j) => s.updSlot q j fun y =>
      let b := s.twinBlk r k
      { y with regs := regsAfter { y with blk := b } p s.nextReq,
               region := if closes x p then { y.region with isOpen := false } else y.region.overwritten b.regDone }
    | none => s
  p.sysw.foldl (fun s e => s.sysWrite r k e.1 e.2) s
/-- Step 4: local stores in LSID order, then RARM, CTR.NEW and QNEW (R66). -/
def State.step4 (s : State) (r k : Nat) (p : Plan) : State :=
  let x := s.slot r k
  let s := s.updCore r fun c => c.commitStores x.blk.lsids' fun _ o => o
  let s := s.twinStores x
  let s := p.puts.foldl (fun s e => s.storeS r e.1 e.2) s
  p.news.foldl (fun s off => s.updCore r fun c =>
    { c with binds := mapUpd c.binds off fun y =>
        { (default : Binding) with launch := x.launch, rect := x.rect, lodging := c.lodging, escrow := y.escrow } }) s
/-- A reservation of a custody record ends (R306). -/
def Custody.unreserve (c : Custody) : Custody := { c with reserved := 0 }
def State.unreserve (s : State) (r k : Nat) : State := s.updSlot r k fun x => { x with custody := x.custody.unreserve }
/-- CUS.TAKE (R307). -/
def State.cusTake (s : State) (me : ActId) (r k : Nat) : State :=
  s.updSlot r k fun x => { x with custody := { x.custody with state := 2, taker := me, reserved := 0 } }
/-- CUS.GIVE (R309): to another custodial set, or to a new activity, which starts as if the trapped one had committed SPAWN. -/
def State.cusGive (s : State) (r k mask r2 k2 : Nat) (st : Option Start) : State :=
  let x := s.slot r k
  let a : ActId := { core := r, slot := k, gen := x.gen }
  let es := (x.obs.pick mask).getD []
  let s' := s.updSlot r k fun x => { x with obs := x.obs.drop mask, custody := x.custody.unreserve }
  match st with
  | some st => s'.issue a (s.core r).lodging x.launch x.pc 128 (.spawn r { st with copies := copyRegs x.regs st.desc, gates := s.mine a, toCore := (s.core r).logicalNo }) .queued
  | none => s'.updSlot r2 k2 fun y => { y with obs := (y.obs.receiveAll es).getD y.obs, custody := y.custody.unreserve }
/-- CUS.BREAK (R310). -/
def State.cusBreak (s : State) (r k : Nat) (code : Byte) (endIt : Bool) : State :=
  let x := s.slot r k
  let a : ActId := { core := r, slot := k, gen := x.gen }
  let s := s.breakObs a (s.core r).lodging x.launch x.pc code x.obs.list
  let s := s.updSlot r k fun x => { x with obs := { (default : ObSet) with custodial := true }, custody := x.custody.unreserve }
  if endIt then s.endActivity r k else s
/-- A custody act takes effect (R306 to R310). -/
def State.custodyAct (s : State) (me : ActId) : Eff → State
  | .cusTake r k => s.cusTake me r k
  | .cusResume r k a => s.resume r k a
  | .cusGive r k mask r2 k2 st => s.cusGive r k mask r2 k2 st
  | .cusBreak r k code endIt => s.cusBreak r k code endIt
  | _ => s
/-- The cores on which a slot's activity runs: its own, and its twin's (R459). -/
def State.copies (s : State) (r k : Nat) : List Nat := match (s.slot r k).twin with | some (q, _) => [r, q] | none => [r]
/-- Step 5: receipts count commands in, effects enter the outbound queue in index order, waits check receipts (R66, R210). -/
def State.step5 (s : State) (r k : Nat) (p : Plan) : State :=
  let s := p.pend.foldl (fun s e =>
    s.putS r e.1 8 ((List.range e.2).foldl (fun w _ => rcCommit w) (s.sByte r e.1 8))) s
  let s := p.chains.foldl (fun s e => s.updCore r fun c => { c with claims := mapUpd c.claims e.1 fun y => { y with chain := e.2.1, heldAt := e.2.2 } }) s
  let s := p.fulfilled.foldl (fun s n => (s.copies r k).foldl (fun s q => s.updCore q fun c => c.logEntry 1 n s.cycle) s) s
  let s := p.effs.foldl (fun s e => s.enter r k e.1 e.2) s
  let s := p.cus.foldl (fun s e => s.custodyAct { core := r, slot := k, gen := (s.slot r k).gen } e) s
  p.effs.foldl (fun s e => match e.2 with
    | .waitObj _ _ 5 o => s.putReceipt r (addrOff o) (rcCheck (s.sByte r (addrOff o) 8)) (s.sByte r (addrOff o + 8) 8)
    | _ => s) s
/-- Slots whose block peeked a word that this commit pops run again (R36, R75). -/
def State.restartPeekers (s : State) (r k port : Nat) : State :=
  (List.range 8).foldl (fun s j => if j != k && (s.slot r j).blk.phase == 2 && (s.slot r j).blk.pops.contains port then s.restart r j else s) s
/-- Step 6: pops, then pushes (R36, R66). -/
def State.step6 (s : State) (r k : Nat) (p : Plan) : State :=
  let pops := (s.slot r k).blk.pops
  let s := pops.foldl (fun s q =>
    (if q = 4 then (s.qPop r inboxOff).admitSendw r inboxOff 1
     else s.updCore r fun c => { c with ports := mapUpd c.ports q fun y => { y with words := y.words.drop 1 } }).restartPeekers r k q) s
  p.pushes.foldl (fun s e => match s.portTo r e.1 with
    | some q => s.updCore q fun c => { c with ports := mapUpd c.ports (facing e.1) fun y => { y with coming := y.coming ++ [e.2] } }
    | none => s) s
/-- The code capability of a start (R17). -/
def startCode (e : Cap) (d : BitVec 128) : Cap :=
  let a := descBlock d
  let c := mkCap 11 0x880 (capSpace e) (capE e) (capB e) (capL e) (capAddr e)
  if capBase e ≤ a.toNat ∧ a.toNat < capLimit e then capWithAddr c a else c
/-- The registers of own lots (R16). -/
def lotRegs (logical : Nat) (runs : Sto → Run) (m : Map Reg) : Map Reg :=
  mapSet (mapSet (mapSet (mapSet m 60 (lotReg logical .w (runs .w))) 61 (lotReg logical .a (runs .a))) 62 (lotReg logical .c (runs .c))) 63 (lotReg logical .s (runs .s))
/-- Lots change hands at a HANDOFF (R234): what is not inherited is scrubbed and given back, what is newly taken is scrubbed. -/
def State.moveLots (s : State) (r k : Nat) (keep : Word) (runs : List (Sto × Run)) (holdS : Bool) : State :=
  runs.foldl (fun s e =>
    let x := s.slot r k
    let own := x.run e.1
    let stays := fun u => (x.inherits keep e.1).has u && e.2.has u
    let s := if e.1 == .s && holdS then s.binderEnds r k
      else (List.range own.count).foldl (fun s i => if stays (own.start + i) then s else s.freeLot r e.1 (own.start + i)) s
    let s := s.takeRun r k e.1 e.2 fun u => !stays u
    s.updSlot r k fun y => y.setRun e.1 e.2) s
/-- Bindings, made or on their way, get another run (R312). -/
def State.moveBinds (s : State) (r : Nat) (hit : Binding → Bool) (run : Option Run) : State :=
  let s := s.updCore r fun c => { c with binds := mapEach c.binds hit fun b => { b with run := run } }
  { s with reqs := s.reqs.map fun q => match q.eff with | .bind w b => if hit b then { q with eff := .bind w { b with run := run } } else q | _ => q }
/-- HANDOFF at step 7 (R234). -/
def State.succeed (s : State) (r k : Nat) (p : Plan) (e : Cap) (mask keep : Word) (d : BitVec 128) : State :=
  let x := s.slot r k
  let logical := (s.core r).logicalNo
  let keepReg := fun g => g < 60 && bitAt mask g
  let lost := (x.regs.filter fun g => !keepReg g.1 && g.2.pendingCode).length
  let s := s.count r 14 lost
  let hold := !bitAt keep 18 && s.keepsRun r k
  let kept := (p.runs.find? fun q => q.1 == .s).map Prod.snd
  let me : ActId := { core := r, slot := k, gen := x.gen }
  let s := if hold then s else s.moveBinds r (fun b => b.binder == me && b.run.isSome && !b.ended) kept
  let s := s.moveLots r k keep p.runs hold
  let s := match x.twin with
    | some (q, j) => (s.moveLots q j keep p.twinRuns false).updSlot q j fun y =>
      { y with regs := lotRegs logical (s.slot r k).run (y.regs.filter fun g => keepReg g.1), region := { y.region with isOpen := false }, blk := default }
    | none => s
  s.updSlot r k fun y =>
    { y with regs := lotRegs logical y.run (x.regs.filter fun g => keepReg g.1), cls := descClass d, code := startCode e d, pc := descBlock d, serve := 0,
             region := { y.region with isOpen := false }, blk := default }
/-- The control transfer of step 7 (R66, R125 to R132). DESIGN CHOICE (log 59): a YIELD waits for the slots that hold a ready instruction
of an admitted block at its commit, and not for slots that become ready later; a SLEEP in a block that exits by HANDOFF delays the
successor's first block. -/
def State.step7 (s : State) (r k : Nat) (p : Plan) (old : Slot) (linkId : Nat) : State :=
  let s := if p.isync then s.updCore r fun c => { c with cache := [] } else s
  let s := if p.sleep = 0 then s else s.updSlot r k fun x => { x with sleep := p.sleep }
  let go := fun (s : State) (a : Word) => s.updSlot r k fun x => { x with pc := a, blk := default }
  match old.blk.exits with
  | [(i, e)] =>
    match e with
    | .jump a => go s a
    | .yield a =>
      let others := (List.range 8).filter fun j => j != k && (s.slot r j).cls ≤ old.cls && s.runs r j && (s.slot r j).blk.phase == 2
        && (List.range (s.slot r j).blk.words.length).any fun i => s.canFire r (s.slot r j).blk i
      (go s a).updSlot r k fun x => { x with yielded := true, yieldAt := s.cycle, yieldFor := others }
    | .computed v call =>
      let s := match call with
        | some _ =>
          let ret := returnAddr old
          s.updSlot r k fun x => { x with link := some (linkId, if v.tag == .cap then moveCap false old.code ret else dataScalar ret) }
        | none => s
      if v.tag == .cap then (go s (capAddr v.cap)).updSlot r k fun x => { x with code := v.cap } else go s v.scalar
    | .exit => s.endActivity r k
    | .handoff e m keep => match mapGet old.blk.asks i with
      | .desc d => s.succeed r k p e m keep (d.truncate 128)
      | _ => s
    | .none => s
  | _ => s
/-- Steps 3 to 7, as one step (R66); a commit of a failed core lengthens its suspect window (R463). -/
def State.applyCommit (s : State) (r k : Nat) (p : Plan) : State :=
  let old := s.slot r k
  let linkId := s.nextReq + p.effs.length
  let s := s.step3 r k p
  let s := s.step4 r k p
  let s := s.step5 r k p
  let s := { s with nextReq := s.nextReq + 1 }
  let s := s.step6 r k p
  let s := (s.copies r k).foldl (fun s q => s.updCore q fun c => if c.off then { c with suspectTo := s.cycle } else c) s
  s.step7 r k p old linkId
/-- The twins' effects differ (R461): once, the block runs again; a second time it faults DIVERGENCE, and R458 applies to both cores: their
matrix units, as which R458 records the failure, fail and are reported (log 48). -/
def State.diverge (s : State) (r k : Nat) : State :=
  let x := s.slot r k
  if x.diverged then (s.copies r k).foldl (fun s q => s.failUnit q 0 0) (s.takeTrap r k (trap tDivergence) noIndex 0)
  else
    ((s.copies r k).foldl (fun s q => s.count q 10 1) (s.release r k)).updSlot r k fun y => { y with blk := { (default : Blk) with phase := 0 }, diverged := true, skew := false }
/-- The commit of a completed block (R66), or its wait at step 2. -/
def State.commit (s : State) (r k : Nat) : State :=
  let x := s.slot r k
  if x.redundant && (x.skew || s.twinDiffers r k) then s.diverge r k
  else
    let checked := s.commitChecks r k
    let s := s.repairChecked r k (match checked with | .error e => e.1 | .ok _ => 127)
    match checked with
    | .error (i, t) => if t.code = tAway then s.waitsAway r k else if t.code = tConsumed then s.consumeBad r k i Sto.s.unitNo else s.takeTrap r k t (BitVec.ofNat 32 i) 0
    | .ok p =>
      if s.pushRoom r p then s.applyCommit r k p
      else s.updBlk r k fun b => { b with waiting := true }
/-- A LAUNCH whose record names an entry asks for its descriptor before the checks (R472): index, record, entry. -/
def State.launchAsks (s : State) (r k : Nat) : List (Nat × (V512 × Bool) × Cap) :=
  (s.slot r k).blk.acts.filterMap fun e => match e.2 with
    | some (.launch a true) =>
      let b := s.launchBytes r a
      let l := launchFields b
      if !(s.core r).s.bad a 64 && l.tagged && capKind l.entry == 12 && mapGet (s.slot r k).blk.asks (128 + e.1) == .none then some (e.1, b, l.entry) else none
    | _ => none
/-- BLOCK_COMMIT (R66). -/
def execBlockCommit (core slot : Nat) (s : State) : Out :=
  if !s.runs core slot || !s.complete core slot || (s.slot core slot).blk.waiting then .next s
  else match s.launchAsks core slot with
    | [] => .next (s.commit core slot)
    | qs => .next ((qs.foldl (fun s e => s.repairFor core (mapGet (s.slot core slot).blk.acts e.1)) s).updBlk core slot fun b =>
      { b with asks := qs.foldl (fun m e => mapSet m (128 + e.1) (.entry e.2.2)) b.asks,
               recs := qs.foldl (fun m e => mapSet m e.1 e.2.1) b.recs })
/-- COMMIT_WAIT (R66 step 2): every destination has room now. -/
def execCommitWait (core slot : Nat) (s : State) : Out :=
  if !s.runs core slot || !s.complete core slot || !(s.slot core slot).blk.waiting then .next s
  else .next ((s.updBlk core slot fun b => { b with waiting := false }).commit core slot)

end Sys2Proof.Machine
end

