-- ==== Sys2Proof/Machine/Transport.lean ====
section
/-! DEFINITION. Requests on their way (R359 to R373): leaving the outbound queue, translation at a station (R384 to
R396), and the landing of responses (R70, R271, R362). -/

namespace Sys2Proof.Machine

/-! ## What a request does -/

/-- Bytes of a memory operation, and its access code (R430). -/
def MemOp.bytes : MemOp → Nat
  | .load w _ => widthBytes w
  | .store bs _ => bs.length
  | .amo _ w _ _ _ _ => if w % 2 = 0 then 4 else 8
def MemOp.access : MemOp → Nat | .load .. => 0 | .store .. => 1 | .amo .. => 2
/-- The memory operation of a request, its own or a peer's (R289, R415). -/
def Req.mem (q : Req) : Option (MemAddr × MemOp) :=
  match q.eff with
  | .mem _ a op => some (a, op)
  | .peer _ _ (.read _ sp va) => some ({ kind := 1, space := sp, va := va }, .load 7 false)
  | .peer _ _ (.write _ sp va mask d) =>
    some ({ kind := 1, space := sp, va := va }, .store ((List.range 64).map fun i => if bitAt mask i then some (bitsAt d (8 * i) 8) else none) none)
  | .peer _ _ (.amo _ sp va op w v e) => some ({ kind := 1, space := sp, va := va }, .amo op w 0 2 v e)
  | _ => none
/-- What a request asks its station for: an address and an access code of R430. -/
def Req.asks (q : Req) : Option (MemAddr × Nat) :=
  match q.eff.seeks with
  | some (_, a, access) => some (a, access)
  | none => q.mem.map fun m => (m.1, m.2.access)
/-- The request asks for a page of the same station, space and number as address `a` at station `n`. -/
def Req.asksPage (q : Req) (n space page : Nat) : Bool :=
  match q.asks with | some (a, _) => a.space == space && numAt a.va 19 29 == page && stationOf q.die a.space a.va == n | none => false
/-- The register a request lands in. -/
def Eff.lands : Eff → Bool
  | .mem (some _) _ _ => true
  | .waitObj .. => true
  | .message _ _ (some _) => true
  | _ => false

/-! ## Leaving the outbound queue (R363 to R371) -/

/-- Earlier requests of the activity that are not acknowledged. -/
def State.earlier (s : State) (q : Req) : List Req := (s.reqs.takeWhile fun p => p.id != q.id).filter fun p => p.act == q.act
/-- The ordering kind of a request: 0 STRONG, 1 RELEASE, 2 UNORDERED (R365). -/
def State.kindOf (s : State) (q : Req) : Nat := match q.eff with | .mem _ a _ => s.pageKind q.act.core a | _ => 1
/-- The addresses that stand for the pages of one side of a porter command: the first of every row, and of every 4 KiB page in it. -/
def MemAddr.pages (a : MemAddr) (stride : Int) (n w : Nat) : List MemAddr :=
  ((List.range n).map fun (i : Nat) =>
    let lo := (a.va + BitVec.ofInt 64 (stride * (i : Int))).toNat
    ((lo :: (List.range (w / 4096 + 1)).map fun j => (lo / 4096 + 1 + j) * 4096).filter fun v => v < lo + w).map fun v => { a with va := BitVec.ofNat 64 v }).flatten
/-- The addresses whose homes an engine command reads or writes, its receipt's apart (R371, R375). -/
def PorterCmd.homes (c : PorterCmd) : List MemAddr :=
  (if c.zero then [] else c.src.pages c.srcStride c.rows c.rowBytes) ++ c.dst.pages c.dstStride c.rows c.rowBytes
/-- A home that a request reaches lies within a scope and keeps the order of STRONG and RELEASE pages (R368, R370, R371, R375). -/
def State.heldWithin (s : State) (q : Req) (scope : Nat) : Bool :=
  match q.eff with
  | .porter c => c.homes.any fun a => s.homeScope q.act.core a q.lodging ≤ scope && s.pageKind q.act.core a != 2
  | _ => s.kindOf q != 2 && s.reqScope q ≤ scope
/-- The scope at which a request releases, and whether it waits for UNORDERED pages too (R269, R273, R367); a break on behalf of an
activity waits for every request that it issued before (R310). -/
def State.releaseOf (s : State) (q : Req) : Option (Nat × Bool) :=
  match q.eff with
  | .mem _ _ (.amo _ _ order scope _ _) => if 2 ≤ order then some (scope, false) else none
  | .discharge c _ scope _ =>
    let own := match s.router q.lodging (addrCore c) with | some r => ctrScope (s.sByte r (addrOff c) 8) | none => 0
    some (if 128 ≤ q.idx then (3, true) else (Nat.max scope own, false))
  | .settle _ _ _ scope => some (if 128 ≤ q.idx then (3, true) else (scope, false))
  | .launch _ | .spawn .. | .invoke .. | .invokec .. => some (2, true)
  | _ => none
/-- An acquire whose response has not returned holds later requests within its scope (R368). -/
def Eff.acquires : Eff → Option Nat
  | .mem _ _ (.amo _ _ order scope _ _) => if order % 2 = 1 then some scope else none
  | _ => none
/-- The page that a request reaches is STRONG, or may turn out to be: no entry maps it yet (R366, R388). -/
def State.mayBeStrong (s : State) (p : Req) : Bool :=
  match p.eff with | .mem _ a _ => s.kindOf p == 0 || s.unmapped p.act.core a | _ => false
/-- A rule of order holds request `q` behind request `p` of its activity (R293, R366 to R368). -/
def State.holds (s : State) (p q : Req) : Bool :=
  (match p.eff with | .fence .. => true | _ => false)
    || (match p.eff.acquires with | some sc => s.heldWithin q sc | none => false)
    || (q.mem.isSome && s.kindOf q == 0 && s.mayBeStrong p)
    || (match s.releaseOf q with | some (sc, all) => p.eff.counts && s.reqScope p ≤ sc && (all || s.kindOf p != 2) | none => false)
/-- Nothing of the outbound queue of a gated core leaves, but for the breaks of a lodging's end (R339, R355); a question that an admitted
block asks is none of that queue (R267). -/
def State.frozen (s : State) (q : Req) : Bool :=
  let l := s.lodging q.lodging
  (match q.eff with | .query .. | .line .. => false | _ => true) && ((s.core q.act.core).gated || (q.lodging != 0 && (l.gated || l.out))) && !(l.ending != 0 && (128 ≤ q.idx || q.act.slot == 99))
/-- Core `r` accepts nothing that this sender sent directly until its flush marker has come; what came by the old router is not behind it (R349). -/
def State.behindMarker (s : State) (lodging sender r : Nat) : Bool := (s.lodging lodging).markers.any fun m => m.2 == sender && s.router lodging m.1 == some r
def State.markerHeld (s : State) (q : Req) : Bool :=
  q.via == 0 && (match q.stage with | .ready (.loc r _ _) => s.behindMarker q.lodging q.act.core r | _ => false)
/-- Two requests for one queue, or one claim, on a peer (R259, R262, R414). -/
def Eff.samePeerHome : Eff → Eff → Bool
  | .message (.peer d c off) _ _, .message (.peer d' c' off') _ _ => d == d' && c == c' && off == off'
  | .invokec n _, .invokec m _ => n == m
  | _, _ => false
/-- A rule of order holds a request (R363); what an activity sends to one queue or claim leaves in commit order (R259, R262). -/
def State.orderHeld (s : State) (q : Req) : Bool :=
  q.act.slot != 99 && (s.earlier q).any fun p => s.holds p q || (p.stage == .queued && p.eff.samePeerHome q.eff)
/-- Loads and atomics a core has in flight (R289). -/
def State.inFlight (s : State) (core : Nat) : Nat :=
  (s.reqs.filter fun p => p.act.core == core && p.stage != .queued && (match p.eff with | .mem (some _) _ _ => true | _ => false)).length
/-- There is a porter place, a feed queue place or a request place for it (R215, R222, R289). DESIGN CHOICE (log 70): a FEED with an empty window takes no
place, so it passes a full feed queue. -/
def State.hasPlace (s : State) (q : Req) : Bool :=
  match q.eff with
  | .porter _ => (s.core q.act.core).porter.length < 128
  | .feed r isB lo hi => lo == hi || (if isB then (s.core r).bQueue else (s.core r).aQueue).length < 8
  | .mem (some _) _ _ => s.inFlight q.act.core < 64
  | _ => true
/-- An earlier effect of the slot, whichever activity committed it, waits at the head for such a place (R363). -/
def State.placeHeld (s : State) (q : Req) : Bool :=
  (s.reqs.takeWhile fun p => p.id != q.id).any fun p =>
    p.act.core == q.act.core && p.act.slot == q.act.slot && q.act.slot != 99 && p.stage == .queued && !s.hasPlace p && !s.orderHeld p
/-- A fence is passed (R293). -/
def State.fenceDone (s : State) (q : Req) (acq rel : Bool) (scope : Nat) : Bool :=
  (s.earlier q).all fun p => !(rel && p.eff.counts && s.reqScope p ≤ scope) && !(acq && p.eff.lands && s.reqScope p ≤ scope)
/-- A device with a route that works (R414). -/
def State.hasRoute (s : State) (device plane : Nat) : Bool :=
  let l := mapGet s.routes (4 * device + plane)
  l != 0 && !mapGet s.failedLinks (l - 1)
/-- Bytes 0 to 247 of a flit (R413): the header, and three slots, of which one that carries nothing is zero (log 67). -/
def flitHeader (f : Flit) : Word := f.dest ++ f.source ++ f.plane ++ f.credits ++ f.seq
def flitBody (f : Flit) : List Byte :=
  bytesOf 8 (flitHeader f) ++ ((List.range 3).map fun i => match f.slots[i]? with | some e => bytesOf 80 (Config.slotBytes e) | none => List.replicate 80 0).flatten
/-- The 256 bytes that a link carries (R413). -/
def flitBytes (f : Flit) : List Byte := flitBody f ++ bytesOf 8 f.crc
def flitOk (f : Flit) : Bool := f.crc == Config.crc64 (flitBody f)
/-- A flit goes out on the link of a route, where there is one (R413, R414). -/
def State.putFlit (s : State) (device plane : Nat) (toPlane seq : Nat) (e : FlitSlot) : State :=
  if !s.hasRoute device toPlane then s
  else
    let f : Flit := { link := mapGet s.routes (4 * device + toPlane) - 1, crc := 0, source := BitVec.ofNat 20 s.fuses.device, dest := BitVec.ofNat 20 device,
                      plane := BitVec.ofNat 2 plane, credits := 0, seq := BitVec.ofNat 16 seq, slots := [e] }
    { s with linkOut := s.linkOut ++ [{ f with crc := Config.crc64 (flitBody f) }] }
/-- A message for a peer joins its pair, and its flit is sent (R414). -/
def State.sendFlit (s : State) (device plane lodging core : Nat) (b : FlitBody) : State :=
  let e : FlitSlot := { lodging := lodging, core := core, body := b }
  let p := (s.pairs.find? fun p => p.key == (device, plane)).getD { key := (device, plane), next := 0, send := 0, early := [], unacked := [] }
  let p' := { p with send := p.send + 1, unacked := p.unacked ++ [(p.send, e)] }
  let s : State := if s.pairs.any fun x => x.key == p.key then { s with pairs := s.pairs.map fun x => if x.key == p.key then p' else x }
    else { s with pairs := s.pairs ++ [p'] }
  s.putFlit device plane plane p.send e
/-- The flits of a pair that are not acknowledged, from `seq` on, are sent again on the link of their route (R414). -/
def State.resend (s : State) (device plane seq : Nat) : State :=
  match s.pairs.find? fun p => p.key == (device, plane) with
  | some p => (p.unacked.filter fun e => seq ≤ e.1).foldl (fun s e => s.putFlit device plane plane e.1 e.2) s
  | none => s
/-- The home that a request of this kind goes to, where it is not translated (R360). -/
def State.homeOf (s : State) (q : Req) : Option Place :=
  let at' := fun (logical off : Nat) => (s.router q.lodging logical).map fun r => Place.loc r .s off
  let claim := fun (n : Word) => if claimDevice n = s.fuses.device then at' (claimCore n) 0 else some (.peer (claimDevice n))
  match q.eff with
  | .mem _ a _ => match stoOfKind a.kind with | some k => (s.router q.lodging (addrCore a.va)).map fun r => .loc r k (addrOff a.va) | none => none
  | .matrix m => some (.loc m.core .c m.off)
  | .message (.queue r off _) _ _ => some (.loc r .s off)
  | .peer _ _ (.message _ _ _ c off ..) => at' c off
  | .message (.peer d _ _) _ _ => some (.peer d)
  | .message (.coll n k) _ _ =>
    let d := s.collDest n k
    some (if d.1 = s.fuses.device then .loc d.2.1 .s d.2.2.2 else .peer d.1)
  | .discharge c .. => at' (addrCore c) (addrOff c)
  | .bind c _ => at' (addrCore c) (addrOff c)
  | .settle n .. => claim n
  | .invokec n _ => claim n
  | .query d .. => some (.peer d)
  | .line _ d _ => some (.peer d)
  | .spawn r _ => some (.loc r .s 0)
  | .invoke r _ => some (.loc r .s 0)
  | _ => some (.loc q.act.core .s 0)
/-- Some engine command of the core waits for leave (R178, R214). -/
def Core.awaitsLeave (c : Core) : Bool := c.porter.any (fun p => p.leave == 1) || c.mx.any fun m => m.leave == 1
/-- A core's porter takes a command; one that moves more than 1 MiB asks for leave (R214, R215). -/
def State.acceptPorter (s : State) (q : Req) (c : PorterCmd) : State :=
  let r := q.act.core
  let ask := 2 ^ 20 < c.rowBytes * c.rows
  let s := s.updCore r fun k =>
    { k with porter := k.porter ++ [{ c with leave := bit1 ask, chunkStart := s.cycle }], leaveWait := if ask && !k.awaitsLeave then s.cycle else k.leaveWait }
  if ask then { s with leaveWait := s.leaveWait ++ [(dieOf r, r, c.id, 1)] } else s
/-- A core's feed takes a FEED, or is emptied by one with an empty window (R222). -/
def Core.acceptFeed (c : Core) (isB : Bool) (lo hi : Nat) : Core :=
  if isB then (if lo = hi then { c with bFeed := [], bQueue := [] } else { c with bQueue := c.bQueue ++ [(lo, hi)] })
  else if lo = hi then { c with aFeed := [], aQueue := [] } else { c with aQueue := c.aQueue ++ [(lo, hi)] }
/-- A request has left: it is counted (R339), takes its place in the order of departures and goes on to stage `st`. -/
def State.leaves (s : State) (q : Req) (st : Stage) : State :=
  { (s.updLodging q.lodging fun l => { l with sent := l.sent + 1 }).updReq q.id fun p =>
      { p with stage := st, since := s.cycle, die := dieOf q.act.core, order := s.nextReq } with nextReq := s.nextReq + 1 }
/-- The code with which a claim settles: a BROKEN value breaks it with BROKEN_USE (R279). -/
def settleCode (v : Value) (code : Byte) : Byte := if code = 0 ∧ v.tag = .broken then BitVec.ofNat 8 tBrokenUse else code
/-- The flit of a request for a peer (R413, R416). -/
def Eff.flit (id : Nat) : Eff → FlitBody
  | .message (.peer _ c off) m reg => .message id reg.isSome false c off 0 0 m.data
  | .settle n v code _ => .settle id n (settleCode v code) v.bits
  | .invokec n i => .invoke id n i.arg i.word i.claim i.rank (i.obs.map fun o => (o.isCount, o.object, o.rank, o.mult))
  | .waitObj _ st _ o => .wait id st o
  | .query _ _ _ kind o => .ask id kind o
  | _ => .ack 0 0
/-- What is told to a peer, under the number of its request. -/
def flitTagged (id : Nat) : FlitBody → FlitBody
  | .message _ w c k off coll i d => .message id w c k off coll i d
  | .coll _ op num n blocks rs => .coll id op num n blocks rs
  | b => b
/-- A request leaves its outbound queue. -/
def State.depart (s : State) (q : Req) : State :=
  match q.eff with
  | .fence acq rel scope => if s.fenceDone q acq rel scope then s.dropReq q.id else s
  | .porter c => (s.acceptPorter q c).leaves q (.done .ack)
  | .feed r isB lo hi => if s.behindMarker q.lodging q.act.core r then s else (s.updCore r fun c => c.acceptFeed isB lo hi).leaves q (.done .ack)
  | .statSum .. => s.leaves q .waiting
  | .message (.reply l n) m reg =>
    let s := if reg.isSome then s else s.updLodging l fun x => { x with replies := mapUpd x.replies n fun y => { y with reserved := y.reserved - 1 } }
    (s.queueReply l n 0 m.core q.id m.data).leaves q .waiting
  | .mem _ a _ => if a.kind = 1 ∨ a.kind = 10 then s.leaves q .station else match s.homeOf q with
      | some p => s.leaves q (.ready p)
      | none => s.leaves q (.done (.fail (BitVec.ofNat 8 tLodging) (BitVec.ofNat 64 (addrCore a.va)) 0))
  | .message (.coll n k) m reg =>
    let d := s.collDest n k
    if d.1 = s.fuses.device then s.leaves q (.ready (.loc d.2.1 .s d.2.2.2))
    else if s.hasRoute d.1 2 then (s.sendFlit d.1 2 q.lodging m.core (.message q.id reg.isSome false d.2.1 d.2.2.1 (n + 1) d.2.2.2 m.data)).leaves q .waiting else s
  | .line _ d a => if s.hasRoute d 0 then (s.sendFlit d 0 q.lodging (s.core q.act.core).logicalNo (.read q.id a.space a.va)).leaves q .waiting else s
  | .tell _ d lodging b => if s.hasRoute d 2 then (s.sendFlit d 2 lodging 0xFFF (flitTagged q.id b)).leaves q .waiting else s
  | _ => match s.homeOf q with
      | some (.peer d) => if s.hasRoute d 2 then (s.sendFlit d 2 q.lodging (s.core q.act.core).logicalNo (q.eff.flit q.id)).leaves q .waiting else s
      | some p => s.leaves q (.ready p)
      | none => s.leaves q (.done .ack)
/-- OUTBOUND_DEPART (R363): request `req` leaves once no rule holds it. -/
def execOutboundDepart (req : Nat) (s : State) : Out :=
  match s.req req with
  | some q => if q.stage == .queued && !s.frozen q && !s.orderHeld q && !s.placeHeld q && s.hasPlace q then .next (s.depart q) else .next s
  | none => .next s

/-! ## Stations (R384 to R395) -/

/-- The station of a request (R389). -/
def Req.station (q : Req) (a : MemAddr) : Nat := stationOf q.die a.space a.va
/-- A request that only asks for a translation has it: its seeker asks again (R388, R390). -/
def State.found (s : State) (q : Req) (p : Place) : State :=
  if q.eff.seeks.isSome then s.answer q.id .ack else s.setStage q.id (.ready p)
/-- The way on from a station: a permitted place, or PROTECTION (R387). -/
def State.resolve (s : State) (q : Req) (a : MemAddr) (access : Nat) (l : Leaf) : State :=
  if l.allows access then s.found q (l.at a.va)
  else s.answer q.id (.fail (BitVec.ofNat 8 tProtection) a.va (BitVec.ofNat 64 a.space))
/-- The slot, and whether an engine asks, as a fault entry records them (R430). -/
def State.asker (s : State) (q : Req) : Nat × Bool :=
  match q.eff with
  | .xlate (.fetch k) _ _ => (k, false)
  | .xlate (.desc k _) _ _ => (k, false)
  | .xlate (.porter id) _ _ => (((s.core q.act.core).porter.find? fun c => c.id == id).elim 0 fun c => c.act.slot, true)
  | .xlate (.req id) _ _ => (match s.req id with
    | some p => (if p.act.slot < 8 then p.act.slot else 0, match p.eff with | .statSum .. => true | _ => false)
    | none => (0, false))
  | _ => (q.act.slot, false)
/-- Parks a request (R388). -/
def State.parkReq (s : State) (q : Req) (a : MemAddr) (access : Nat) (malformed : Bool) : State :=
  (s.park (q.station a) (s.faultOf q.act.core (s.asker q).1 a.space a.va access malformed (s.asker q).2 q.block)).setStage q.id .parked
/-- A request of the same core for the page stands before it at the station (R393): the station passes a page's requests on in the order
in which it received them, and a host page is one of 4 KiB. -/
def State.behind (s : State) (q : Req) (a : MemAddr) : Bool :=
  s.reqs.any fun p =>
    p.order < q.order && p.act.core == q.act.core && (match p.asks with
      | some (b, _) => a.samePage b
      | none => false)
      && (match p.stage with | .station | .walking | .buffered | .page => true | _ => false)
/-- A walk for the page is running at the station (R391). -/
def State.walkingPage (s : State) (st : Nat) (a : MemAddr) : Bool :=
  (s.station st).walks.any fun id => match s.req id with
    | some p => p.asksPage st a.space a.page
    | none => false
/-- Starts a walk, joins one, waits in the miss buffer, or stays with the mesh (R391, R392). -/
def State.startWalk (s : State) (q : Req) (a : MemAddr) : State :=
  let n := q.station a
  let t := s.station n
  if s.walkingPage n a then s.setStage q.id .walking
  else if t.walks.length < 64 then (s.updStation n fun t => { t with walks := t.walks ++ [q.id] }).setStage q.id .walking
  else if t.buffer.length < 512 then (s.updStation n fun t => { t with buffer := t.buffer ++ [q.id] }).setStage q.id .buffered
  else s
/-- A request of a peer needs a space of its own system lodging (R415). -/
def State.peerAllowed (s : State) (q : Req) : Bool := match q.eff with | .peer .. => (s.lodging q.lodging).system | _ => true
/-- The host port sends the host a message. -/
def State.toHost (s : State) (m : HostMsg) : State := { s with hostOut := s.hostOut ++ [m] }
/-- A page request for a host page, merged with one outstanding at the station (R395). -/
def State.askPage (s : State) (n pasid page : Nat) : State :=
  if (s.station n).pages.any fun p => p.1 == pasid && p.2.1 == page then s
  else s.updStation n fun t => { t with pages := t.pages ++ [(pasid, page, false, false)] }
/-- STATION_REQUEST (R384, R389 to R395): the check of the space, then the translation cache, a walk, or the host's ATS. A host leaf in the
cache without the access is an answer without it, and starts a page request. A full station takes nothing (R392). -/
def execStationRequest (req : Nat) (s : State) : Out :=
  match s.req req with
  | some q =>
    match q.asks with
    | some (a, access) =>
      let n := q.station a
      if q.stage != .station || s.behind q a || (s.station n).full then .next s
      else
        let d := s.space a.space
        if !d.fits a.kind q.lodging (isSteward q.act.core) || !s.peerAllowed q then
          .next (s.answer req (.fail (BitVec.ofNat 8 tProtection) a.va (BitVec.ofNat 64 a.space)))
        else if (s.station n).faults.any fun f => f.space == a.space && f.page == a.page then .next (s.parkReq q a access false)
        else match (s.station n).find a.space a.va with
          | some l =>
            if d.type = 2 ∧ l.allows access = false then .next ((s.askPage n d.pasid (a.va.toNat / 4096)).setStage req .page)
            else .next (s.resolve q a access l)
          | none => if d.type = 2 then .next ((s.toHost (.translation d.pasid (a.va.toNat / 4096) (access != 0))).setStage req .walking) else .next (s.startWalk q a)
    | none => .next s
  | none => .next s
/-- What a finished walk does to one request. -/
def State.walked (s : State) (q : Req) : State :=
  match q.asks with
  | some (a, access) => match s.walk a.space (s.space a.space).root a.va with
    | .leaf l => (s.updStation (q.station a) fun t => t.keep l).resolve q a access l
    | .invalid m => s.parkReq q a access m
  | none => s
/-- Walks start from the miss buffer in arrival order (R392). -/
def State.refill (s : State) (n : Nat) : Nat → State
  | 0 => s
  | fuel + 1 =>
    let t := s.station n
    match t.buffer with
    | id :: rest =>
      match (s.req id).bind Req.asks with
      | some (a, _) =>
        if s.walkingPage n a then ((s.updStation n fun t => { t with buffer := rest }).setStage id .walking).refill n fuel
        else if t.walks.length < 64 then
          ((s.updStation n fun t => { t with buffer := rest, walks := t.walks ++ [id] }).setStage id .walking).refill n fuel
        else s
      | none => (s.updStation n fun t => { t with buffer := rest }).refill n fuel
    | [] => s
/-- A walk ends: it leaves its station, for every request that joined it. -/
def State.endWalk (s : State) (n req space page : Nat) : State :=
  let joined := s.reqs.filter fun p => p.stage == .walking && p.asksPage n space page
  let s := joined.foldl (fun s p => s.walked p) s
  (s.updStation n fun t => { t with walks := t.walks.filter (· != req) }).refill n 513
/-- WALK_COMPLETE (R386, R388, R391): the walk that `req` started ends for every request that joined it. -/
def execWalkComplete (req : Nat) (s : State) : Out :=
  match s.req req with
  | some q =>
    match q.asks with
    | some (a, _) =>
      let n := q.station a
      if !(s.station n).walks.contains req then .next s else .next (s.endWalk n req a.space a.page)
    | none => .next s
  | none => .next s
/-- Host requests of a page. -/
def State.hostPage (s : State) (q : Req) (pasid page : Nat) : Bool :=
  match q.asks with
  | some (a, _) => let d := s.space a.space; d.type == 2 && d.pasid == pasid && a.va.toNat / 4096 == page
  | none => false
/-- A host page's leaf, as ATS grants it: its translated address, size and access (R394). -/
def State.hostLeaf (s : State) (a : MemAddr) (pa size : Nat) (rd wr : Bool) : Leaf :=
  let d := s.space a.space
  { space := a.space, base := a.va.toNat / size * size, size := size, kind := 1, rd := rd, wr := wr, ex := false, place := .host (pa / size * size) d.mode }
/-- Sizes that a translation may have. -/
def pageSize (size : Nat) : Bool := 4096 ≤ size && 2 ^ Nat.log2 size == size
/-- ATS_TRANSLATION_COMPLETION (R394, R395): the host answers with a translated address, a page size and the access it grants, and an answer that
grants some is cached. A request that is replayed after a Success response stands at `.buffered`: some access, but not the one it needs,
fails it. -/
def execAtsTranslationCompletion (req pa size : Nat) (rd wr : Bool) (s : State) : Out :=
  match s.req req with
  | some q =>
    match q.asks with
    | some (a, access) =>
      let d := s.space a.space
      let n := q.station a
      if d.type != 2 || !(q.stage == .walking || q.stage == .buffered) || !pageSize size then .next s
      else
        let l := s.hostLeaf a pa size rd wr
        let s := if rd || wr then s.updStation n fun t => t.keep l else s
        if l.allows access then .next (s.resolve q a access l)
        else if q.stage == .buffered && (rd || wr) then
          .next (s.answer req (.fail (BitVec.ofNat 8 tProtection) a.va (BitVec.ofNat 64 a.space)))
        else .next ((s.askPage n d.pasid (a.va.toNat / 4096)).setStage req .page)
    | none => .next s
  | none => .next s
/-- Pooled credits in use (R395). -/
def State.pooled (s : State) : Nat := s.stations.foldl (fun n e => n + (e.2.pages.filter fun p => p.2.2.1 && !p.2.2.2).length) 0
/-- PAGE_REQUEST_SEND (R395): with a promised credit, the station's earliest first, or a pooled one in arrival order at the host port. -/
def execPageRequestSend (station pasid page : Nat) (s : State) : Out :=
  let t := s.station station
  if !(t.pages.any fun p => p.1 == pasid && p.2.1 == page && !p.2.2.1) then .next s
  else
    let first := (t.pages.find? fun p => !p.2.2.1).map (fun p => (p.1, p.2.1)) == some (pasid, page)
    let sent := fun (own : Bool) (s : State) =>
      ({ s.toHost (.pageRequest pasid page) with pageWait := s.pageWait.filter (· != (station, pasid, page)) } : State).updStation station fun t =>
        { t with pages := t.pages.map fun p => if p.1 == pasid && p.2.1 == page then (pasid, page, true, own) else p }
    if first && mapGet s.promised station < s.credits / 64 then
      .next (sent true { s with promised := mapUpd s.promised station (· + 1) })
    else if s.pooled < s.credits % 64 && (s.pageWait.isEmpty || s.pageWait.head? == some (station, pasid, page)) then .next (sent false s)
    else if s.pageWait.contains (station, pasid, page) then .next s
    else .next { s with pageWait := s.pageWait ++ [(station, pasid, page)] }
/-- A response returns its credit (R395): to its station's promise when the station is short of it, and otherwise to the pool. A credit
is the pool's when no page request of the station that is still outstanding holds a promised one. -/
def State.returnCredit (s : State) (n : Nat) (own : Bool) : State :=
  if own then { s with promised := mapUpd s.promised n (· - 1) }
  else if 0 < mapGet s.promised n then
    -- the pooled credit fills the promise, and a request sent on a promised one now counts for the pool
    let t := s.station n
    match t.pages.find? fun p => p.2.2.1 && p.2.2.2 with
    | some p => { s.updStation n fun t => { t with pages := t.pages.map fun x => if x == p then (x.1, x.2.1, true, false) else x } with
                    promised := mapUpd s.promised n (· - 1) }
    | none => s
  else s
/-- The host's answer for a page reaches station `n` (R395): its credit returns; Success replays the parked requests, another answer fails
them with TRANSLATION. -/
def State.pageAnswered (s : State) (n : Nat) (t : Station) (pasid page code : Nat) : State :=
  let own := t.pages.any fun p => p.1 == pasid && p.2.1 == page && p.2.2.2
  let s := s.updStation n fun t => { t with pages := t.pages.filter fun p => !(p.1 == pasid && p.2.1 == page) }
  let s := s.returnCredit n own
  let mine := fun (q : Req) => q.stage == .page && s.hostPage q pasid page && (match q.asks with | some (a, _) => q.station a == n | none => false)
  let asked : List HostMsg := if code = 0 then (s.reqs.filter mine).map fun q => .translation pasid page (match q.asks with | some (_, a) => a != 0 | none => false) else []
  let stage := fun (q : Req) => if code = 0 then Stage.buffered else match q.asks with
    | some (a, _) => .done (.fail (BitVec.ofNat 8 tTranslation) a.va (BitVec.ofNat 64 a.space))
    | none => q.stage
  { s with hostOut := s.hostOut ++ asked, reqs := s.reqs.map fun q => if mine q then { q with stage := stage q } else q }
/-- PRI_RESPONSE (R395). -/
def execPriResponse (pasid page code : Nat) (s : State) : Out :=
  match s.stations.find? fun e => e.2.pages.any fun p => p.1 == pasid && p.2.1 == page && p.2.2.1 with
  | some (n, t) => .next (s.pageAnswered n t pasid page code)
  | none => .next s
/-- A leaf overlaps a range. -/
def Leaf.meets (l : Leaf) (lo n : Nat) : Bool := l.base < lo + n && lo < l.base + l.size
/-- Requests that used a dropped translation and are not performed (R396): at their homes here, on their way to the host, or at a peer. -/
def State.users (s : State) (station : Nat) (gone : List Leaf) : List Nat :=
  (s.reqs.filter fun q => (match q.stage with | .ready _ | .host _ | .agent _ => true | .waiting => q.mem.isSome | _ => false)
    && (match q.mem with | some (a, _) => q.station a == station && gone.any fun l => l.space == a.space && l.covers a.va | none => false)).map Req.id
/-- The units of porter commands, the lines and the records of STAT.SUM that are at a peer under a dropped translation. -/
def State.unitUsers (s : State) (station : Nat) (gone : List Leaf) : List Nat :=
  let uses := fun (q : Req) (a : MemAddr) => q.station a == station && gone.any fun l => l.space == a.space && l.covers a.va
  (s.reqs.filter fun q => match q.eff with
    | .unit _ _ _ _ a | .line _ _ a => uses q a
    | .statSum a .. => q.stage == .waiting && !(s.sums.any fun e => e.2.2.2.2 == q.id) && uses q a
    | _ => false).map Req.id
/-- Drops the translations that overlap, at every station, and notes which requests still use one (R390, R396). -/
def State.invalidate (s : State) (tag : Nat) (drop : Leaf → Bool) : State :=
  (List.range 64).foldl (fun s n =>
    let gone := (s.station n).cache.filter drop
    let us := s.users n gone ++ s.unitUsers n gone
    s.updStation n fun t => { t with cache := t.cache.filter fun l => !drop l, invals := t.invals ++ [(tag, us)] }) s
/-- ATS_INVALIDATION_REQUEST (R396). -/
def execAtsInvalidationRequest (pasid va len tag : Nat) (s : State) : Out :=
  let mine := fun (space : Nat) => let d := s.space space; d.type == 2 && d.pasid == pasid
  .next (if s.boot = 2 then s else s.invalidate tag fun l => mine l.space && l.meets va len)
/-- STATION_INVALIDATION_ANSWER (R396, R434): a station answers once every request that used a dropped translation has been
performed; when all 64 have answered, STN.INV is acknowledged, and the host port sends the Invalidation Completion of the host's request. -/
def execStationInvalidationAnswer (station tag : Nat) (s : State) : Out :=
  let unperformed := fun (id : Nat) => match s.req id with | some q => !q.stage.isDone | none => false
  match (s.station station).invals.find? fun e => e.1 == tag with
  | some (_, ids) =>
    if ids.any unperformed then .next s
    else
      let s := s.updStation station fun t => { t with invals := t.invals.filter fun e => e.1 != tag }
      if s.stations.any fun e => e.2.invals.any fun i => i.1 == tag then .next s
      else if tag < 32 then .next { s with hostOut := s.hostOut ++ [.invalidated tag] }
      else .next (s.answer (tag - 32) .ack)
  | none => .next s

/-! ## Responses (R70, R71, R230, R271, R362) -/

/-- The trap record of a store that failed after its activity had ended (R271, R295). -/
def State.endedRecord (s : State) (q : Req) (code : Byte) (addr detail : Word) : TrapRec :=
  { code := code, flags := 3, index := noIndex, block := q.block, cycle := s.cycle, core := (s.core q.act.core).logicalNo, slot := q.act.slot,
    lodging := q.lodging, launch := q.launch, lo := addr, hi := detail, ended := true }
/-- The activity of a request, where it is: in its slot or in its core's resume list (R353). -/
def State.atHome (s : State) (q : Req) : Bool := (s.core q.act.core).lodging == q.lodging && s.alive q.act
def State.inResume (s : State) (q : Req) : Bool :=
  (s.core q.act.core).lodging == q.lodging && (s.core q.act.core).resume.any fun e => e.1 == q.act.slot && e.2.gen == q.act.gen
/-- The activity of a request is in a saved context, in its slot or in its resume list (R342, R353). -/
def Image.owns (i : Image) (q : Req) : Bool :=
  awayRouter q.lodging i.logical == q.act.core
    && ((mapGet i.core.slots q.act.slot).live && (mapGet i.core.slots q.act.slot).gen == q.act.gen
      || i.core.resume.any fun e => e.1 == q.act.slot && e.2.gen == q.act.gen)
/-- The first deferred failure of an activity is kept until its next admission (R271). -/
def Slot.defer (x : Slot) (d : Byte × Word × Nat) : Slot := if x.deferred.isSome then x else { x with deferred := some d }
/-- A slot, or an entry of a resume list, when it holds the request's activity. -/
def Req.deferIn (q : Req) (d : Byte × Word × Nat) (e : Nat × Slot) : Nat × Slot :=
  if e.1 == q.act.slot && e.2.live && e.2.gen == q.act.gen then (e.1, e.2.defer d) else e
/-- A failed store traps its activity at the next admission, or leaves a record when it has ended (R271). None: the trap
queue has no place yet (R297). -/
def State.failStore (s : State) (q : Req) (code : Byte) (addr detail : Word) : Option State :=
  let d := (code, addr, detail.toNat)
  if q.act.slot = 99 then some s
  else if s.atHome q then some (s.updSlot q.act.core q.act.slot fun x => x.defer d)
  else if s.inResume q then some (s.updCore q.act.core fun c => { c with resume := c.resume.map fun e => q.deferIn d e })
  else if s.saves.any fun v => v.lodging == q.lodging && v.images.any fun i => i.owns q then
    some { s with saves := s.saves.map fun v => if v.lodging != q.lodging then v else
      { v with images := v.images.map fun i => if !i.owns q then i else
        { i with core := { i.core with slots := i.core.slots.map (q.deferIn d), resume := i.core.resume.map (q.deferIn d) } } } }
  else s.writeTrap q.lodging (s.endedRecord q code addr detail).bits (s.core q.act.core).logicalNo
/-- The answer that goes back to a peer (R415, R416). -/
def Resp.flit (tag : Nat) : Resp → FlitBody
  | .ack => .answer tag 0 0 0
  | .val v rank => .answer tag (if v.tag == .broken then bitsAt v.bits 0 8 else 0) rank v.bits
  | .fail code _ _ => .answer tag code 0 0
/-- The request tag and the plane of a flit's content (R413). -/
def flitTag : FlitBody → Nat
  | .read t .. => t | .write t .. => t | .amo t .. => t | .message t .. => t | .settle t .. => t | .wait t .. => t
  | .invoke t .. => t | .answer t .. => t | .ask t .. => t | .coll t .. => t | .ack .. => 0 | .replay .. => 0
def flitPlane : FlitBody → Nat
  | .read .. => 0 | .write .. => 0 | .amo .. => 0 | _ => 2
/-- The body of a status entry (R405): `result` is bytes 16 to 63. -/
def statusBody (seq kind outcome launch dropped result : Nat) : V512 :=
  BitVec.ofNat 512 (seq % 2 ^ 32 + kind * 2 ^ 32 + outcome * 2 ^ 40 + launch % 2 ^ 32 * 2 ^ 64 + dropped % 2 ^ 32 * 2 ^ 96 + result * 2 ^ 128)
/-- A status entry for reply queue 0 of a session's lodging (R405). -/
def State.statusEntry (s : State) (session seq kind outcome launch result : Nat) : State :=
  let e := mapGet s.sessions session
  s.queueReply e.lodging 0 1 0xFFF 0 (statusBody seq kind outcome launch e.dropped result)
/-- Frees a host space's descriptor (R383, R447). -/
def State.freeSpace (s : State) (n : Nat) : State :=
  { s.memWrite false 1 (s.fuses.spaceTable + 16 * n) (List.replicate 16 (some 0)) with windows := s.windows.filter (· != n) }
/-- A request that keeps a lot from being returned until it is acknowledged (R30, R237). -/
def Eff.holdsLots : Eff → Bool | .porter _ => true | .matrix _ => true | .feed .. => true | .discharge .. => true | .bind .. => true | _ => false
/-- A translation's answer reaches the seeker: it asks again, or fails with the code (R49, R220, R472). -/
def State.soughtFails (s : State) (q : Req) (w : Seeker) (code : Byte) (addr detail : Word) : State :=
  let r := q.act.core
  match w with
  | .fetch k =>
    let x := s.slot r k
    if s.runs r k && x.blk.phase == 0 && x.pc == q.block then s.takeTrap r k { code := code.toNat, lo := addr, hi := detail } noIndex 0 else s
  | .desc k i => (match mapGet (s.slot r k).blk.asks i with
    | .entry e => if capAddr e == addr then s.updBlk r k fun b => { b with asks := mapSet b.asks i (.failed code addr detail.toNat) } else s
    | _ => s)
  | .porter id => s.updCore r fun c => { c with porter := c.porter.map fun p => if p.id == id then { p with code := if p.code = 0 then code else p.code } else p }
  | .req id => s.updReq id fun p => { p with failed := code }
/-- What a peer has answered to a question: whether it agrees, and a number: a rank, or the code of a refusal (log 13). -/
def Resp.told : Resp → Bool × Nat
  | .val v _ => (bitAt v.bits 0, numAt v.scalar 1 63)
  | .fail code _ _ => (false, code.toNat)
  | .ack => (false, 0)
/-- A question for a place was granted one. -/
def Resp.granted (kind : Nat) (a : Resp) : Bool := (kind == 2 || kind == 3) && a.told.1
/-- A seeker still waits for a line that it has asked of a peer (R415). -/
def State.lineWanted (s : State) (r : Nat) : Seeker → Bool
  | .fetch k => (s.slot r k).live && (s.slot r k).blk.phase == 0
  | .desc k i => (s.slot r k).live && ((match mapGet (s.slot r k).blk.asks i with | .entry _ => true | _ => false) || (s.core r).switching == 2)
  | .porter _ => false
  | .req id => match s.req id with | some q => !q.stage.isDone | none => false
/-- RESPONSE_ARRIVAL (R70, R271, R362): the response of request `req` reaches its core. That of a STN.INV of Oxkan (slot 98) stands until the call
which it belongs to has seen it. -/
def execResponseArrival (req : Nat) (s : State) : Out :=
  match s.req req with
  | some q =>
    if (s.lodging q.lodging).phase = 8 then .next s
    else match q.stage with
    | .done resp =>
      let s' := if q.eff.holdsLots then (s.dropReq req).reclaimAll else s.dropReq req
      match q.eff with
      | .xlate w _ _ => (match resp with
        | .fail code addr detail => .next (s'.soughtFails q w code addr detail)
        | _ => .next s')
      | .unit .. => .next s
      | .line w _ _ => .next (if s.lineWanted q.act.core w then s else s')
      | .statSum _ receipt _ _ => (match resp with
        | .ack => .next s'
        | .val .. => .next ((s'.receiptUnits q.act.core receipt 1).receiptEnd q.act.core receipt 0 1)
        | .fail code .. => .next (s'.receiptEnd q.act.core receipt code.toNat 0))
      | .query d k _ kind o => .next (if k ≠ 99 then s else if resp.granted kind then s'.giveBack q.act.core d kind o else s')
      | .tell call .. => .next (if (s.req call).isSome then s else s')
      | .peer src _ b =>
        if s.hasRoute src (flitPlane b) then .next (s'.sendFlit src (flitPlane b) q.lodging (s.core q.act.core).logicalNo (resp.flit (flitTag b))) else .next s
      | e =>
        match resp with
        | .ack => .next (if q.act.slot = 98 ∧ (s.req q.block.toNat).isSome then s else s')
        | .val v rank => if s.awaited req then .next (s'.land req (landed v rank)) else .next (s'.count q.act.core 14 (bit1 e.lands))
        | .fail code addr detail =>
          if e.lands then
            (if s.awaited req then
              .next (s'.land req (carries code addr detail (match e with | .waitObj _ _ 5 _ => true | _ => false)))
            else .next (s'.count q.act.core 14 1))
          else match s'.failStore q code addr detail with
            | some t => .next t
            | none => .next s
    | _ => .next s
  | none => .next s

end Sys2Proof.Machine
end

