-- ==== Sys2Proof/Machine/Memory.lean ====
section
/-! DEFINITION. Memory operations at their homes: loads, stores and atomics (R27, R34, R271, R289 to R292, R333, R360 to
R373, R397, R410 to R412, R421, R452, R469). -/

namespace Sys2Proof.Machine

/-- What a load lands (R290): `n` bytes, with the tag bit of their granule. -/
def loadValue (w : Nat) (bs : List Byte) (tag : Bool) : Value :=
  let n := natOfBytes bs
  if w = 7 then dataValue (BitVec.ofNat 512 n)
  else if w = 8 then (if tag then capValue (BitVec.ofNat 128 n) else dataValue (BitVec.ofNat 512 n))
  else dataScalar (if w % 2 = 0 ∧ w < 6 then (BitVec.ofNat (8 * widthBytes w) n).signExtend 64 else BitVec.ofNat 64 n)
/-- What an atomic writes (R292): operation and width code of R106. -/
def amoNew (op w old v e : Nat) : Nat :=
  let n := if w % 2 = 0 then 32 else 64
  let int := fun (x : Nat) => (BitVec.ofNat n x).toInt
  let f := if w = 2 then f32 else f64
  match op with
  | 0 => if 2 ≤ w then (f.addNum 1 0 (f.decode old) (f.decode v)).1 else (old + v) % 2 ^ n
  | 1 => v
  | 2 => if old = e then v else old
  | 3 => if int v < int old then v else old
  | 4 => if int old < int v then v else old
  | 5 => Nat.min old v
  | 6 => Nat.max old v
  | 7 => old &&& v
  | 8 => old ||| v
  | _ => old ^^^ v
/-- What an atomic lands: i32 sign-extended, f32 in lane 0, 64-bit widths in lanes 0 and 1 (R292). -/
def amoLanding (w old : Nat) : Value :=
  dataScalar (if w = 0 then (BitVec.ofNat 32 old).signExtend 64 else BitVec.ofNat 64 old)

/-- The key of the lodging that owns a space (R427, R469). -/
def State.spaceKey (s : State) (space : Nat) : Nat := s.keyOf (s.space space).lodging
/-- How a read at a place ends: the bytes and the tag bit of the granule, or a code. -/
inductive PlaceRead where
  | ok (bs : List Byte) (tag : Bool)
  | fail (code : Nat)
deriving DecidableEq, Repr
/-- A core's store port serves its own core's lodging alone (R333). -/
def State.portOk (s : State) (r lodging : Nat) : Bool := (s.core r).lodging == lodging && s.listed r lodging
/-- Reads `n` bytes at a place (R34, R421, R452). -/
def State.readAt (s : State) (lodging space : Nat) (p : Place) (n : Nat) : PlaceRead :=
  match p with
  | .loc r k off =>
    let l := (s.core r).store k
    if !s.portOk r lodging then .fail tLodging
    else if l.bad off n then .fail tUncorrectable
    else .ok (bytesAt l.bytes off n) (k.tagged && mapGet l.tags (off / 16))
  | .hbm pa => if s.memBad false pa n then .fail tUncorrectable
    else .ok (s.memRead false (s.spaceKey space) pa n) (mapGet s.hbmTags (pa / 16))
  | .far pa => if s.memBad true pa n then .fail tUncorrectable else .ok (s.memRead true (s.spaceKey space) pa n) false
  | .host pa _ => if s.hostPoison.any fun e => e.1 * 64 < pa + n && pa < e.1 * 64 + 64 then .fail tUncorrectable
    else .ok (bytesAt s.host pa n) false
  | .peer _ => .ok ((List.range n).map fun i => bitsAt (Config.freeUnit s.tick) (8 * i) 8) false
/-- How a read of bytes by a command of the stewards, or by Oxkan, ends (R389, R436, R446). -/
inductive BytesRead where
  | ok (bytes : List Byte)
  | fail (code : Nat)
  | wait (s : State)
/-- Lines `0` to `n - 1` from an address on, of a page of a peer, for a request (R415). -/
def State.peerLines (s : State) (q : Req) (core lodging device : Nat) (a : MemAddr) : Nat → BytesRead
  | 0 => .ok []
  | n + 1 => match s.peerLine core lodging (.req q.id) device a with
    | .ok l => (match s.peerLines q core lodging device { a with va := a.va + 64 } n with
      | .ok bs => .ok (bytesOf 64 l ++ bs)
      | r => r)
    | .fail c => .fail c
    | .wait t => .wait t
/-- Reads bytes for a request of a core, by a translation of its own. -/
def State.bytesRead (s : State) (q : Req) (core lodging : Nat) (a : MemAddr) (n : Nat) : BytesRead :=
  if q.failed ≠ 0 then .fail q.failed.toNat
  else match s.seek core lodging (.req q.id) a 0 q.block with
    | .ok (.peer d) _ => (match s.peerLines q core lodging d a ((a.va.toNat % 64 + n + 63) / 64) with
      | .ok bs => .ok ((bs.drop (a.va.toNat % 64)).take n)
      | r => r)
    | .ok p _ => (match s.readAt lodging a.space p n with | .ok bs _ => .ok bs | .fail c => .fail c)
    | .fail c => .fail c
    | .wait t => .wait t
/-- Writes bytes at a place; every granule written loses its tag, but for one that `tag` sets (R34). -/
def State.writeAt (s : State) (space : Nat) (p : Place) (bs : List (Option Byte)) (tag : Bool) : State :=
  match p with
  | .loc r k off =>
    let put := fun (s : State) (q off : Nat) => s.updCore q fun c =>
      let l := (c.store k).write off bs
      c.setStore k (if tag && k.tagged then l.setTag (off / 16) true else l)
    (s.twinsOf r k off bs.length).foldl (fun s t => put s t.1 t.2) (put s r off)
  | .hbm pa =>
    let s := s.memWrite false (s.spaceKey space) pa bs
    if tag then s.setHbmTag (pa / 16) true else s
  | .far pa => s.memWrite true (s.spaceKey space) pa bs
  | .host pa _ => { s with host := writeMasked s.host pa bs }
  | .peer _ => s
/-- Ranges of two places meet. -/
def placesMeet (p : Place) (n : Nat) (q : Place) (m : Nat) : Bool :=
  let meet := fun (a b : Nat) => decide (a < b + m) && decide (b < a + n)
  match p, q with
  | .hbm a, .hbm b => meet a b
  | .far a, .far b => meet a b
  | .host a _, .host b _ => meet a b
  | .loc r k a, .loc r' k' b => r == r' && k == k' && meet a b
  | _, _ => false
/-- The place of a request, as it would be translated now. -/
def State.placeOf (s : State) (q : Req) (a : MemAddr) : Option Place :=
  match q.stage with
  | .ready p | .host p | .agent p => some p
  | _ =>
    if a.kind = 1 ∨ a.kind = 10 then (s.leafAt q.act.core a).map fun l => l.at a.va
    else s.homeOf q
/-- The bytes of a queue: its header and its ring (R262). -/
def State.queueBytes (s : State) (r off : Nat) : Place × Nat := (.loc r .s off, if off = inboxOff then 64 else 64 + 64 * 2 ^ qLog (s.sByte r off 8))
/-- The queue of the relay core of this device to which the entry with a block index of a collective goes. -/
def State.relayQueue (s : State) (n i : Nat) : Option (Place × Nat) :=
  let t := s.collDest n i
  if t.1 = s.fuses.device then some (s.queueBytes t.2.1 t.2.2.1) else none
/-- The bytes that a request reads or writes at its home (R364): memory's, a counter's, a queue's header and ring. -/
def State.touches (s : State) (q : Req) : Option (Place × Nat) :=
  match q.mem with
  | some (a, op) => (s.placeOf q a).map fun p => (p, op.bytes)
  | none => match q.eff with
    | .discharge c .. | .bind c _ => (s.router q.lodging (addrCore c)).map fun r => (.loc r .s (addrOff c), 16)
    | .message (.queue r off _) _ _ => some (s.queueBytes r off)
    | .message (.coll n k) _ _ => s.relayQueue n k
    | .peer _ _ (.message _ _ _ c off coll i _) => if coll = 0 then (s.router q.lodging c).map fun r => s.queueBytes r off else s.relayQueue (coll - 1) i
    | .qbind off _ | .qunbind off => some (.loc q.act.core .s off, 16)
    | _ => none
/-- Two memory operations name overlapping bytes by the same space and virtual address. -/
def sameBytes (q p : Req) : Bool :=
  match q.mem, p.mem with
  | some (a, x), some (b, y) => a.kind == b.kind && a.space == b.space && a.va.toNat < b.va.toNat + y.bytes && b.va.toNat < a.va.toNat + x.bytes
  | _, _ => false
/-- Two requests touch the same bytes at one home. -/
def State.meet (s : State) (q p : Req) : Bool :=
  sameBytes q p || (match s.touches q, s.touches p with | some (x, n), some (y, m) => placesMeet x n y m | _, _ => false)
/-- An earlier request of the activity to overlapping bytes is not performed (R364). -/
def State.overlapped (s : State) (q : Req) : Bool := (s.earlier q).any fun p => !p.stage.isDone && s.meet q p
/-- A message behind an earlier request of its activity for the queue's bytes that is no message (R364); messages of one queue have their own
order (R262). -/
def State.messageHeld (s : State) (q : Req) : Bool :=
  (s.earlier q).any fun p => !p.stage.isDone && (match p.eff with | .message .. => false | _ => true) && s.meet q p
/-- Its home cannot take the request yet: a flush marker is still to come (R349), or a lot unit that it touches has not been read back (R346). -/
def State.barred (s : State) (q : Req) : Bool :=
  s.markerHeld q || (match q.eff with
    | .waitObj _ _ kind o => kind != 8 && (match s.router q.lodging (addrCore o) with
      | some r => s.lotAway r .s (addrOff o) 64 || s.behindMarker q.lodging q.act.core r
      | none => false)
    | _ => match s.touches q with | some (.loc r k off, n) => s.lotAway r k off n | _ => false)
/-- A request to a STRONG page is performed behind every earlier one of its activity (R366), also where the pages were mapped only after the
requests had left, and behind one whose page is not mapped yet. -/
def State.strongHeld (s : State) (q : Req) : Bool :=
  s.kindOf q == 0 && (s.earlier q).any fun p => s.mayBeStrong p && !p.stage.isDone

/-! ## Host atomics (R397, R398, R410 to R412) -/

/-- Operations that PCIe AtomicOps carry (R410). -/
def isAtomicOp (op w : Nat) : Bool := (op == 0 && w < 2) || op == 1 || op == 2
/-- The agent queue of the lodging that owns a space (R412). -/
def State.agentQueue (s : State) (space : Nat) : Option (Nat × Nat) :=
  let l := (s.space space).lodging
  ((s.lodging l).replies.find? fun e => e.2.isSet && e.2.agent).map fun e => (l, e.1)
/-- The body of an agent request (R412). -/
def agentBody (id : Nat) (va v e : Word) (op w pasid : Nat) : V512 :=
  BitVec.ofNat 512 (id % 2 ^ 64 + va.toNat * 2 ^ 64 + v.toNat * 2 ^ 128 + (if op = 2 then e.toNat else 0) * 2 ^ 192 + op * 2 ^ 256 + w * 2 ^ 264
    + pasid * 2 ^ 272)
/-- Sends an atomic to the host agent (R412), or fails it with `code` where there is none. -/
def State.toAgent (s : State) (q : Req) (a : MemAddr) (p : Place) (op w : Nat) (v e : Word) (code : Nat) : State :=
  match s.agentQueue a.space with
  | some (l, n) =>
    let id := s.nextAgent
    let s : State := { s with nextAgent := id + 1, agentReqs := s.agentReqs ++ [(id, q.id, none)] }
    (s.queueReply l n 2 0xFFF 0 (agentBody id a.va v e op w (s.space a.space).pasid)).setStage q.id (.agent p)
  | none => s.answer q.id (.fail (BitVec.ofNat 8 code) a.va (BitVec.ofNat 64 a.space))
/-- An atomic to host memory, by the space's mode (R411). -/
def State.hostAmo (s : State) (q : Req) (a : MemAddr) (p : Place) (mode op w : Nat) (v e : Word) : State :=
  if mode = 1 ∨ mode = 2 then
    if isAtomicOp op w then s.setStage q.id (.host p)
    else if mode = 2 then s.toAgent q a p op w v e tHostAtomicDenied
    else s.answer q.id (.fail (BitVec.ofNat 8 tHostAtomicDenied) a.va (BitVec.ofNat 64 a.space))
  else s.answer q.id (.fail (BitVec.ofNat 8 tHostAtomicDenied) a.va (BitVec.ofNat 64 a.space))

/-! ## Performing (R289 to R292, R372) -/

/-- A read that fails: an uncorrectable word of a store counts as an event of it (R463). -/
def State.readFails (s : State) (p : Place) (code : Nat) : State :=
  match p with | .loc r k _ => if code = tUncorrectable then s.noteError r k.unitNo else s | _ => s

/-- An atomic at its home: one indivisible step. -/
def State.amoAt (s : State) (q : Req) (a : MemAddr) (p : Place) (op w : Nat) (v e : Word) : State :=
  let n := if w % 2 = 0 then 4 else 8
  match s.readAt q.lodging a.space p n with
  | .fail c => (s.readFails p c).answer q.id (.fail (BitVec.ofNat 8 c) (if c = tLodging then BitVec.ofNat 64 (addrCore a.va) else a.va) 0)
  | .ok bs _ =>
    let old := natOfBytes bs
    let x := v.toNat % 2 ^ (8 * n)
    let y := e.toNat % 2 ^ (8 * n)
    let s := match p with | .loc r k off => s.repairStore r k off n | _ => s
    let s := if op ≠ 2 ∨ old = y then s.writeAt a.space p ((bytesOf n (BitVec.ofNat 64 (amoNew op w old x y))).map some) false else s
    s.answer q.id (.val (amoLanding w old) 0)
/-- The flit of a request for a peer's memory (R415). -/
def MemOp.flit (id : Nat) (a : MemAddr) : MemOp → FlitBody
  | .load _ _ => .read id a.space (a.va / 64 * 64)
  | .amo op w _ _ v e => .amo id a.space a.va op w v e
  | .store bs _ =>
    let at' := a.va.toNat % 64
    let get := fun (i : Nat) => if at' ≤ i then (bs[i - at']?).getD none else none
    .write id a.space (a.va / 64 * 64) (BitVec.ofNat 64 ((List.range 64).foldl (fun n i => n + bit1 (get i).isSome * 2 ^ i) 0))
      (BitVec.ofNat 512 ((List.range 64).foldl (fun n i => n + ((get i).getD 0).toNat * 2 ^ (8 * i)) 0))
/-- QST.C to far memory or to a peer fails PERM at its home (R34, R271, R415). -/
def tagless : Place → Bool | .far _ => true | .peer _ => true | _ => false
/-- A memory request at its home. -/
def State.performMem (s : State) (q : Req) (a : MemAddr) (op : MemOp) (p : Place) : State :=
  let isC := match op with | .store _ (some _) => true | _ => false
  if isC && tagless p then s.answer q.id (.fail (BitVec.ofNat 8 tPerm) a.va 0)
  else match p with
    | .peer d => if s.hasRoute d 0 then (s.sendFlit d 0 q.lodging (s.core q.act.core).logicalNo (op.flit q.id a)).setStage q.id .waiting else s
    | _ =>
      match op with
      | .load w loadCap =>
        (match s.readAt q.lodging a.space p (widthBytes w) with
         | .fail c => (s.readFails p c).answer q.id (.fail (BitVec.ofNat 8 c) (if c = tLodging then BitVec.ofNat 64 (addrCore a.va) else a.va) 0)
         | .ok bs tag =>
           let s := match p with | .loc r k off => s.repairStore r k off (widthBytes w) | _ => s
           s.answer q.id (.val (loadValue w bs (tag && loadCap)) 0))
      | .store bs tag =>
        (match p with
         | .loc r _ _ => if s.portOk r q.lodging then (s.writeAt a.space p bs (tag == some true)).answer q.id .ack
           else s.answer q.id (.fail (BitVec.ofNat 8 tLodging) (BitVec.ofNat 64 (addrCore a.va)) 0)
         | _ => (s.writeAt a.space p bs (tag == some true)).answer q.id .ack)
      | .amo o w _ _ v e => match p with
        | .host _ mode => s.hostAmo q a p mode o w v e
        | _ => s.amoAt q a p o w v e
/-- ATOMICOP_COMPLETION (R398, R411): the host performed the AtomicOp, or answered Unsupported Request or Completer Abort. -/
def execAtomicopCompletion (req : Nat) (ok : Bool) (s : State) : Out :=
  match s.req req with
  | some q =>
    match q.stage, q.mem with
    | .host p, some (a, .amo o w _ _ v e) =>
      if ok then .next (s.amoAt q a p o w v e)
      else match p with
        | .host _ 2 => .next (s.toAgent q a p o w v e tHostAtomic)
        | _ => .next (s.answer req (.fail (BitVec.ofNat 8 tHostAtomic) a.va (BitVec.ofNat 64 a.space)))
    | _, _ => .next s
  | none => .next s
/-- COMPLETION_TIMEOUT (R410): a QLD or AMO whose host completion times out or is poisoned lands UNCORRECTABLE. -/
def execCompletionTimeout (req : Nat) (s : State) : Out :=
  match s.req req with
  | some q =>
    match q.stage, q.mem with
    | .host _, some (a, _) => .next (s.answer req (.fail (BitVec.ofNat 8 tUncorrectable) a.va 0))
    | .ready (.host ..), some (a, .load ..) => .next (s.answer req (.fail (BitVec.ofNat 8 tUncorrectable) a.va 0))
    | _, _ => .next s
  | none => .next s

end Sys2Proof.Machine
end

