-- ==== Sys2Proof/Machine/Lodge.lean ====
section
/-! DEFINITION. Lodgings: making and ending one (R355, R436, R437), halting, saving, loading and moving one (R338 to R354,
R438 to R440), and the watchdogs' records (R298, R356, R357). -/

namespace Sys2Proof.Machine

/-! ## Reply entries and service records -/

/-- A lodging event for reply queue 0 (R408). -/
def State.lodgingEvent (s : State) (n : Nat) (code : Nat) : State := s.queueReply n 0 3 0xFFF 0 (BitVec.ofNat 512 (n + code * 256))
/-- A service record waits at its writer for a place of lodging 0's trap queue (R298). -/
def State.serviceRec (s : State) (kind router lodging object detail : Nat) : State :=
  { s with svcQueue := s.svcQueue ++ [(router, BitVec.ofNat 512 (kind * 2 ^ 8 + s.cycle.toNat * 2 ^ 128 + router * 2 ^ 192 + lodging * 2 ^ 216
      + object * 2 ^ 256 + detail * 2 ^ 320))] }

/-! ## Halting (R338) -/

/-- Blocks that have not committed are discarded without effect, and their reservations released. -/
def State.discard (s : State) (r : Nat) : State :=
  (List.range 8).foldl (fun s k => if (s.slot r k).live then (s.release r k).updBlk r k fun _ => default else s) s
def State.gateCore (s : State) (r : Nat) : State :=
  (s.discard r).updCore r fun c => if c.gated then c else { c with gated := true, gatedAt := s.cycle }
/-- Gives back a command's leave (R337, R470). -/
def State.leaveBack (s : State) (die n : Nat) : State := { s with leave := mapUpd s.leave die (· - n) }
/-- Leave a matrix or a porter command holds once granted (R470). -/
def mxLeave := 2
def porterLeave := 1
/-- Engine commands of a core that are not at a chunk boundary yet (R336, R339). -/
def Core.enginesRun (c : Core) : Bool := c.porter.any (fun p => !p.stopped) || c.mx.any fun m => m.leave == 2
def State.enginesRun (s : State) (n : Nat) : Bool := (s.lodging n).map.any fun r => (s.core r).enginesRun
/-- A stopped engine takes up its commands again; those that need leave ask for it again (R337). -/
def State.restartEngines (s : State) (r : Nat) : State :=
  let c := s.core r
  let s := s.updCore r fun c => { c with leaveWait := s.cycle, porter := c.porter.map fun p => { p with stopped := false, chunkStart := s.cycle, chunkDone := p.done } }
  { s with leaveWait := s.leaveWait ++ ((c.porter.filter fun p => p.leave == 1).map fun p => (dieOf r, r, p.id, porterLeave))
      ++ ((c.mx.filter fun m => m.leave == 1).map fun m => (dieOf r, r, m.id, mxLeave)) }
/-- The clocks run again; the timers of R227 go on where they stood (R338). -/
def State.ungateCore (s : State) (r : Nat) : State :=
  (s.updCore r fun c =>
    let stood := s.cycle - c.gatedAt
    { c with gated := false, feedAway := if c.feedAway = 0 then 0 else c.feedAway + stood.toNat,
             mx := c.mx.map fun m => { m with starveFrom := m.starveFrom + stood } }).restartEngines r

/-! ## Names of routers inside contexts and requests -/

def ActId.reroute (f : Nat → Nat) (a : ActId) : ActId := { a with core := f a.core }
def Binding.reroute (f : Nat → Nat) (b : Binding) : Binding := if b = default then b else { b with binder := b.binder.reroute f }
def PorterCmd.reroute (f : Nat → Nat) (c : PorterCmd) : PorterCmd := { c with act := c.act.reroute f }
def MxCmd.reroute (f : Nat → Nat) (c : MxCmd) : MxCmd := { c with core := f c.core, rcore := f c.rcore }
def Place.reroute (f : Nat → Nat) : Place → Place | .loc r k off => .loc (f r) k off | p => p
def QDest.reroute (f : Nat → Nat) (lodging : Nat) : QDest → QDest | .queue r off o => .queue (if o = lodging then f r else r) off o | d => d
def Eff.reroute (f : Nat → Nat) (lodging : Nat) : Eff → Eff
  | .porter c => .porter (c.reroute f)
  | .feed r b lo hi => .feed (f r) b lo hi
  | .matrix m => .matrix (m.reroute f)
  | .message d m r => .message (d.reroute f lodging) m r
  | .bind c b => .bind c (b.reroute f)
  | .qbind o b => .qbind o (b.reroute f)
  | .invoke r st => .invoke (f r) st
  | .spawn r st => .spawn (f r) st
  | .cancel r off c => .cancel (f r) off c
  | e => e
def Req.reroute (f : Nat → Nat) (q : Req) : Req :=
  { q with act := q.act.reroute f, eff := q.eff.reroute f q.lodging,
           stage := match q.stage with | .ready p => .ready (p.reroute f) | .host p => .host (p.reroute f) | .agent p => .agent (p.reroute f) | st => st }
/-- What an instruction has named when it fired. -/
def Act.reroute (f : Nat → Nat) (lodging : Nat) : Act → Act
  | .send d m ok => .send (d.reroute f lodging) m ok
  | .sendw d m => .sendw (d.reroute f lodging) m
  | .effect e => .effect (e.reroute f lodging)
  | .engine e rc => .engine (e.reroute f lodging) rc
  | .cusTake r k => .cusTake (f r) k
  | .cusResume r k a => .cusResume (f r) k a
  | .cusGive r k m d q j => .cusGive (f r) k m d (f q) j
  | .cusBreak r k c fl => .cusBreak (f r) k c fl
  | a => a
def Ask.reroute (f : Nat → Nat) (lodging : Nat) : Ask → Ask | .place d => .place (d.reroute f lodging) | a => a
def Blk.reroute (f : Nat → Nat) (lodging : Nat) (b : Blk) : Blk :=
  { b with acts := b.acts.map (fun e => (e.1, e.2.map (Act.reroute f lodging))), asks := b.asks.map fun e => (e.1, e.2.reroute f lodging) }
/-- A request of any lodging whose home was on a router that has been vacated goes on to where that home now is; one on its way there
passes through the forwarding address (R348). -/
def Req.redirect (f : Nat → Nat) (lodging : Nat) (q : Req) : Req :=
  { q with eff := match q.eff with | .message d m r => .message (d.reroute f lodging) m r | .cancel r off c => .cancel (f r) off c | e => e,
           stage := match q.stage with | .ready p => .ready (p.reroute f) | st => st,
           via := match q.stage with | .ready (.loc r _ _) => if f r = r then q.via else r + 1 | _ => q.via }
def Slot.reroute (f : Nat → Nat) (x : Slot) : Slot := if x.live then { x with twin := x.twin.map fun t => (f t.1, t.2) } else x
def Core.reroute (f : Nat → Nat) (c : Core) : Core :=
  { c with slots := c.slots.map (fun e => (e.1, e.2.reroute f)), resume := c.resume.map (fun e => (e.1, e.2.reroute f)),
           binds := c.binds.map (fun e => (e.1, e.2.reroute f)), porter := c.porter.map (PorterCmd.reroute f), mx := c.mx.map (MxCmd.reroute f) }
/-- The keys of a map, renamed. -/
def mapRename {α : Type} [Inhabited α] [DecidableEq α] (f : Nat → Nat) (m : Map α) : Map α := m.foldl (fun n e => mapSet n (f e.1) e.2) []
/-- Every request, and every collective and sum of the lodging, names its cores' new places (R348). -/
def State.rerouteReqs (s : State) (lodging : Nat) (f : Nat → Nat) : State :=
  { s with reqs := s.reqs.map (fun q => let q := q.redirect f lodging; if q.lodging == lodging then q.reroute f else q),
           sums := s.sums.map (fun e => if e.1 == lodging then (e.1, e.2.1, e.2.2.1, f e.2.2.2.1, e.2.2.2.2) else e),
           colls := s.colls.map fun e => if e.2.lodging != lodging then e else
             (e.1, { e.2 with relays := e.2.relays.map (fun t => if t.1 = s.fuses.device then (t.1, f t.2.1, t.2.2) else t), sent := mapRename f e.2.sent }) }
/-- Other cores of the lodging name the moved core's new router, and so do blocks of any lodging that have named it. -/
def State.rerouteCores (s : State) (lodging : Nat) (f : Nat → Nat) : State :=
  { s with cores := s.cores.map fun e =>
      let c := if e.2.lodging == lodging && !isSteward e.1 then e.2.reroute f else e.2
      (e.1, { c with slots := c.slots.map fun x => (x.1, { x.2 with blk := x.2.blk.reroute f lodging }) }) }

/-! ## The save record (R344) -/

/-- The progress word. -/
def Lodging.progress (l : Lodging) : Nat := l.phase % 16 * 2 ^ 60 + l.written % 2 ^ 13 * 2 ^ 32 + l.phaseAt.toNat % 2 ^ 32
/-- The 64 bytes of the header; the address of the residency map is free (log 18). -/
def State.header (s : State) (n : Nat) : List Byte :=
  let l := s.lodging n
  bytesOf 8 (BitVec.ofNat 64 l.progress) ++ bytesOf 8 (BitVec.ofNat 64 (n + l.map.length * 2 ^ 16 + bit1 l.linkUsing * 2 ^ 32)) ++ bytesOf 8 l.gateCycle
    ++ bytesOf 8 (bitsAt (Config.freeUnit n) 0 64) ++ List.replicate 32 0
def State.putHeader (s : State) (n : Nat) : State :=
  match (s.lodging n).saveAddr with
  | some pa => s.memWrite false 1 pa ((s.header n).map some)
  | none => s
/-- A change of phase (R344). -/
def State.setPhase (s : State) (n p : Nat) : State := (s.updLodging n fun l => { l with phase := p, phaseAt := s.cycle, changedAt := s.cycle }).putHeader n
/-- One more image is written, or found written by an earlier SHADOW.SAVE (R344, R356). -/
def State.wrote (s : State) (n logical : Nat) : State :=
  (s.updLodging n fun l =>
    let done := l.done ++ [logical]
    if l.written < done.length then { l with done := done, written := done.length, changedAt := s.cycle } else { l with done := done }).putHeader n
/-- Reports to the receipt of a save, load or move. -/
def State.saveUnits (s : State) (n k : Nat) : State :=
  match (s.lodging n).saveReceipt with | some (r, off) => s.receiptUnits r off k | none => s
def State.saveEnd (s : State) (n code : Nat) : State :=
  match (s.lodging n).saveReceipt with
  | some (r, off) => (s.receiptEnd r off code 0).updLodging n fun l => { l with saveReceipt := none }
  | none => s
/-- Any activity, running or waiting to start, came from a link-using descriptor (R352). -/
def State.usesLinks (s : State) (n : Nat) : Bool :=
  (s.lodging n).map.any fun r => (s.core r).slots.any (fun e => e.2.live && e.2.linkUsing)
    || (s.core r).resume.any (fun e => e.2.linkUsing) || (s.core r).ring.any (fun st => descFlags st.desc / 2 % 2 == 1)
/-- Where a save record's capability leads: into a space of lodging 0 (R438, R439; another space fails as R384 says, log 63). -/
def State.recordAt (s : State) (q : Req) (m : MemAddr) (access : Nat) : Sought :=
  if q.failed ≠ 0 then .fail q.failed.toNat
  else if (s.space m.space).lodging ≠ 0 then .fail tProtection
  else s.seek q.act.core 0 (.req q.id) m access q.block
/-- Where the pages of a save record lie in HBM. -/
inductive RecordRead where
  | ok (pages : List Nat)
  | fail (code : Nat)
  | wait (s : State)
/-- The pages `i` and on of a save record, from page 0 with its first byte. -/
def State.recordPages (s : State) (q : Req) (m : MemAddr) (access : Nat) : Nat → Nat → RecordRead
  | 0, _ => .ok []
  | n + 1, i =>
    match s.recordAt q (if i = 0 then m else { m with va := BitVec.ofNat 64 ((m.va.toNat / 2 ^ 19 + i) * 2 ^ 19) }) access with
    | .ok (.hbm pa) _ => (match s.recordPages q m access n (i + 1) with | .ok ps => .ok (pa :: ps) | r => r)
    | .ok _ _ => .fail tProtection
    | .fail c => .fail c
    | .wait t => .wait t
/-- Pages of the record of a lodging of `k` cores at an address (R438). -/
def recordCount (va : Word) (k : Nat) : Nat := (va.toNat % 2 ^ 19 + 64 + 102400 * k + (2 ^ 19 - 1)) / 2 ^ 19
/-- SHADOW.SAVE at its home (R338, R438). -/
def State.shadowSave (s : State) (q : Req) (n : Nat) (m : MemAddr) (limit receipt : Nat) : State :=
  let l := s.lodging n
  let fail := fun (c : Nat) => (s.receiptEnd q.act.core receipt c 0).answer q.id .ack
  match s.recordAt q m 1 with
  | .fail c => fail c
  | .wait t => t
  | .ok (.hbm pa) _ =>
    if n = 0 ∨ 256 ≤ n ∨ !(l.live || l.out) ∨ limit < 64 + 102400 * l.map.length then fail tShape
    else if l.out && (s.saves.any fun v => v.lodging == n && v.addr == pa) then ((s.receiptEnd q.act.core receipt 0 0).answer q.id .ack)
    else if !l.isLive || l.phase = 8 then fail tShape
    else if 1 ≤ l.phase ∧ l.saveAddr = some pa then
      (s.updLodging n fun l => { l with saveReceipt := some (q.act.core, receipt), done := [] }).answer q.id .ack
    else if l.phase ≠ 0 then fail tShape
    else match s.recordPages q m 1 (recordCount m.va l.map.length) 0 with
    | .fail c => fail c
    | .wait t => t
    | .ok ps =>
      let s := l.map.foldl (fun s r => s.gateCore r) s
      let s := s.updLodging n fun l =>
        { l with gated := true, gateCycle := s.cycle, written := 0, done := [], saveAddr := some pa, savePages := ps, saveReceipt := some (q.act.core, receipt), watch := 0, drainZero := 0,
                 linkUsing := s.usesLinks n }
      (s.setPhase n 1).answer q.id .ack
  | .ok _ _ => fail tProtection
/-- DRAIN_REDUCTION's count: requests of a lodging that have left and are neither answered to their core nor held (R339, R340). -/
def State.flying (s : State) (n : Nat) : Nat :=
  (s.reqs.filter fun q => q.lodging == n && !q.held && (match q.stage with
    | .queued | .parked | .page => false
    | .ready (.peer d) => s.hasRoute d (if q.mem.isSome then 0 else 2)
    | .waiting => (match s.homeOf q with | some (.peer _) => true | _ => false)
    | _ => true)).length
/-- A reduction reads the traffic redirected through each forwarding address: one whose markers have all come is retired at its second reading
of zero (R350). -/
def State.readForwards (s : State) (n : Nat) : State :=
  let reads := fun (l : Lodging) (w : Forward) =>
    if l.markers.any (fun m => m.1 == w.logical) || s.reqs.any fun q => q.via == w.old + 1 then { w with zeros := 0 } else { w with zeros := w.zeros + 1 }
  s.updLodging n fun l => { l with forwards := (l.forwards.map (reads l)).filter fun w => w.zeros < 2 }
/-- The engines of a halted lodging have all stopped (R344). -/
def State.enginesStopped (s : State) (n : Nat) : State := if (s.lodging n).phase = 1 ∧ !s.enginesRun n then s.setPhase n 2 else s
/-- DRAIN_REDUCTION (R339): two readings of zero with one total drain a lodging whose engines have stopped. -/
def execDrainReduction (lodging : Nat) (s : State) : Out :=
  let l := s.lodging lodging
  let zero := s.flying lodging == 0
  let second := zero && 0 < l.drainZero && l.drainTotal == l.sent
  let s1 := s.updLodging lodging fun l => { l with drainZero := if zero then (if l.drainTotal = l.sent then l.drainZero + 1 else 1) else 0, drainTotal := l.sent }
  let s2 := s1.readForwards lodging
  .next (if second ∧ l.phase = 2 then s2.setPhase lodging 3 else s2.enginesStopped lodging)
/-- REQUEST_HELD (R340): a request unanswered 32,768 cycles after gating is marked held by its home. -/
def execRequestHeld (req : Nat) (s : State) : Out :=
  match s.req req with
  | some q =>
    let l := s.lodging q.lodging
    if l.gated && q.stage != .queued && l.gateCycle.toNat + 32768 ≤ s.cycle.toNat then .next (s.updReq req fun q => { q with held := true }) else .next s
  | none => .next s

/-! ## Images (R342 to R346, R351 to R353) -/

/-- Changes every local store. -/
def Core.mapStores (c : Core) (f : Sto → LStore → LStore) : Core := { c with w := f .w c.w, a := f .a c.a, c := f .c c.c, s := f .s c.s }
/-- A core as it is when no lodging holds it: what belongs to the part itself stays, and so do the units of switched-out lodgings (R345). -/
def Core.vacated (c : Core) : Core :=
  { (default : Core) with off := c.off, failed := c.failed, failedAt := c.failedAt, suspectTo := c.suspectTo, errors := c.errors, lastPass := c.lastPass, log := c.log, atPass := c.atPass,
                          leaveWait := c.leaveWait, w := c.w.guestPart .w, a := c.a.guestPart .a, c := c.c.guestPart .c, s := c.s.guestPart .s }
/-- Units of HBM that hold an image: their bytes are not laid out by the spec, and read as free values (log 18). -/
def imageKey : Nat := 2 ^ 40
/-- The physical address of byte `o` of a save record whose pages lie at `ps`, the first with the record's own offset in it. -/
def recordByte (ps : List Nat) (o : Nat) : Nat :=
  let at' := (ps.head?.getD 0) % 2 ^ 19 + o
  if at' < 2 ^ 19 then ps.head?.getD 0 + o else (ps[at' / 2 ^ 19]?.getD 0) + at' % 2 ^ 19
def State.maskImage (s : State) (ps : List Nat) (i : Nat) : State :=
  { s with hbmKeys := (List.range 1600).foldl (fun m j => mapSet m (recordByte ps (64 + 102400 * i + 64 * j) / 64) imageKey) s.hbmKeys }
/-- A held lot unit that lies on this core, and stays where it is when its lodging is switched out (R345). -/
def LStore.resident (l : LStore) (u : Nat) : Bool := mapGet l.lots u != 0 && mapGet l.saved u == 0
/-- What of a store goes into an image: all but the lot units that stay; and what stays, under the lodging's name (R343, R345). -/
def LStore.imaged (l : LStore) (k : Sto) : LStore :=
  { l.part k (fun u => !l.resident u && !l.isGuest u) with lots := l.lots, saved := l.saved }
def LStore.left (l : LStore) (k : Sto) (n logical : Nat) : LStore :=
  let mine := l.lots.filter fun e => l.resident e.1
  { l.part k (fun u => l.resident u || l.isGuest u) with guest := mine.foldl (fun m e => mapSet m e.1 (n, logical)) l.guest }
/-- Units of a core that had not been read back when it was imaged are in the save record. -/
def Core.unread (c : Core) (logical : Nat) : List (Nat × Nat × Nat) :=
  [Sto.w, .a, .c, .s].flatMap fun k => (c.store k).saved.map fun e => (logical, k.unitNo, e.1)
/-- Writes the image of one logical core, and frees its router (R343, R345). -/
def State.saveImage (s : State) (n logical r pa : Nat) : State :=
  let c := s.core r
  let away := fun (q : Nat) => if q = r then awayRouter n logical else q
  let im : Image := { logical := logical, core := (c.mapStores fun k l => l.imaged k).reroute away, router := r }
  let old := s.saves.find? fun v => v.addr == pa && v.lodging == n && !v.complete
  let v : SaveRec := match old with
    | some v => { v with images := v.images ++ [im], scanned := v.scanned ++ c.unread logical }
    | none => { addr := pa, lodging := n, linkUsing := (s.lodging n).linkUsing, gateCycle := (s.lodging n).gateCycle, images := [im], scanned := c.unread logical,
                saved := s.lodging n, complete := false }
  let s : State := { s with saves := s.saves.filter (fun v => !(v.addr == pa)) ++ [v] }
  let stays := c.mapStores fun k l => l.left k n logical
  let s := (s.setCore r stays.vacated).rerouteReqs n away
  let s := (s.rerouteCores n away).maskImage (s.lodging n).savePages logical
  { s with saves := s.saves.map fun v => if v.lodging == n && !v.complete then
      { v with images := v.images.map fun i => { i with core := i.core.reroute away } } else v }
/-- Routers of a rectangle, row-major (R43). -/
def rectRouters (x y w h : Nat) : List Nat := ((List.range h).map fun j => (List.range w).map fun i => (y + j) * 128 + x + i).flatten
/-- Routers of a lodging: those of its rectangle, and its relay cores (R44). -/
def Lodging.routers (l : Lodging) : List Nat :=
  rectRouters l.x l.y l.w l.h ++ (List.range 16).filterMap fun i => if bitAt l.relays i then some (4128 + i) else none
def Lodging.area (l : Lodging) : Nat × Nat × Nat × Nat := (l.x, l.y, l.w, l.h)
/-- The live lodging other than `n` in whose rectangle a router lies without a core of its map: an enabled core that its load has left over is
treated as disabled, and belongs to it (R351); 0 for none. -/
def State.leftTo (s : State) (n r : Nat) : Nat :=
  ((s.lodgings.find? fun e => e.1 != n && e.1 != 0 && e.2.live && inRect r e.2.area && !e.2.map.contains r).map Prod.fst).getD 0
/-- The last image is written: the lodging is switched out (R344, R347), and its other routers are free too. A failed core is excluded from now
on (R463). -/
def State.saved (s : State) (n pa : Nat) : State :=
  let s := (s.setPhase n 4).setPhase n 5
  let s := (s.saveUnits n 1).saveEnd n 0
  let s := (s.lodging n).map.foldl (fun s r => if (s.core r).off then s.reportExcluded r else s) s
  let s := (s.lodging n).routers.foldl (fun s r => if (s.core r).lodging = n then s.updCore r fun c => { c with lodging := s.leftTo n r } else s) s
  let s := s.updLodging n fun l => { l with live := false, out := true, gated := false, phase := 0, map := [], forwards := [], markers := [] }
  { s with saves := s.saves.map fun v => if v.addr == pa && v.lodging == n then { v with complete := true, saved := s.lodging n } else v }
/-- Slots beyond those a core offers wait in its resume list; entries of the list whose slots it does offer go back to them (R353). -/
def Core.fitSlots (c : Core) (slots : Nat) : Core :=
  let fits := fun (e : Nat × Slot) => e.1 < slots && !(mapGet c.slots e.1).live
  { c with slots := (c.resume.filter fits).foldl (fun m e => mapSet m e.1 e.2) (c.slots.filter fun e => e.1 < slots || !e.2.live),
           resume := c.resume.filter (fun e => !fits e) ++ c.slots.filter fun e => slots ≤ e.1 && e.2.live }
/-- A store as its image comes back: units that still lie here are used as they stand, the others are read back on their first touch (R346). -/
def LStore.restored (l image : LStore) (k : Sto) (n logical : Nat) : LStore :=
  let mine := fun (u : Nat) => mapGet l.guest u == (n, logical)
  { image.join (l.part k l.isGuest) with saved := (image.lots.filter fun e => !mine e.1).map (fun e => (e.1, n)), guest := l.guest.filter fun e => !mine e.1 }
/-- What lies on the router of units that a core brings back is scanned out, as are the core's own units on another router (R345, R351). -/
def State.makeRoom (s : State) (n logical r from_ : Nat) (c : Core) : State :=
  let own := fun (k : Sto) => ((((s.core from_).store k).guest.filter fun e => e.2 == (n, logical)).map Prod.fst)
  [Sto.w, .a, .c, .s].foldl (fun s k =>
    let s := if from_ = r then s else (own k).foldl (fun s u => s.scanOut from_ k u) s
    ((c.store k).lots.map Prod.fst).foldl (fun s u => if mapGet ((s.core r).store k).guest u = (n, logical) then s else s.scanOut r k u) s) s
/-- A core's context on another router: what belongs to the part stays there. -/
def Core.onto (c at' : Core) (n logical : Nat) : Core :=
  { c with lodging := n, logical := logical + 1, off := at'.off, failed := at'.failed, failedAt := at'.failedAt, suspectTo := at'.suspectTo, errors := at'.errors, lastPass := at'.lastPass, log := at'.log,
           atPass := at'.atPass, cache := [] }
/-- Puts an image onto its router. -/
def State.loadImage (s : State) (n logical r : Nat) (im : Image) : State :=
  let at' := s.core r
  let c : Core := { im.core.onto at' n logical with gated := true, w := at'.w.restored im.core.w .w n logical, a := at'.a.restored im.core.a .a n logical,
                                                    c := at'.c.restored im.core.c .c n logical, s := at'.s.restored im.core.s .s n logical }
  s.setCore r (c.fitSlots (s.slotCount r))
/-- The image of a logical core in a save record. -/
def State.image (s : State) (pa n logical : Nat) : Option Image :=
  (s.saves.find? fun v => v.addr == pa && v.lodging == n).bind fun v => v.images.find? fun i => i.logical == logical
/-- A loading lodging has all its images: its cores resume (R337, R439). -/
def State.loaded (s : State) (n pa : Nat) : State :=
  let s := s.saveEnd n 0
  let s := (s.lodging n).map.foldl (fun s r => s.ungateCore r) s
  let s := s.updLodging n fun l => { l with gated := false, phase := 0, written := 0, saveAddr := none, out := false }
  { s with saves := s.saves.filter fun v => !(v.addr == pa && v.lodging == n) }
/-- IMAGE_SWAP (R342, R343, R356): writes one image of a drained lodging, or places one of a lodging that is being loaded. -/
def execImageSwap (lodging logical : Nat) (s : State) : Out :=
  let l := s.lodging lodging
  match l.map[logical]?, l.saveAddr with
  | some r, some pa =>
    let here := (s.core r).lodging = lodging ∧ (s.core r).logical = logical + 1
    if l.phase = 3 ∧ !l.done.contains logical ∧ (here ∨ (s.image pa lodging logical).isSome) then
      let s := if (s.image pa lodging logical).isSome then s else s.saveImage lodging logical r pa
      let s := (s.wrote lodging logical).saveUnits lodging 1
      .next (if (s.lodging lodging).done.length = l.map.length then s.saved lodging pa else s)
    else if l.phase = 8 ∧ (s.core r).lodging = 0 then
      match s.image pa lodging logical with
      | some im =>
        let s := s.makeRoom lodging logical r im.router im.core
        let s := s.loadImage lodging logical r ((s.image pa lodging logical).getD im)
        let s := (s.updLodging lodging fun l => { l with written := l.written + 1 }).saveUnits lodging 1
        .next (if (s.lodging lodging).written = l.map.length then s.loaded lodging pa else s)
      | none => .next s
    else .next s
  | _, _ => .next s
/-- The waits of a core for saved units are over: what they took counts toward no timer (R346). -/
def Core.readBack (c : Core) (now : Word) : Core :=
  let waited := fun (b : Blk) => if b.awayAt = 0 then b else { b with away := b.away + (now.toNat + 1 - b.awayAt), awayAt := 0 }
  let fed := if c.feedAway = 0 then 0 else BitVec.ofNat 64 (now.toNat + 1 - c.feedAway)
  { c with slots := c.slots.map (fun e => (e.1, { e.2 with blk := waited e.2.blk })), feedAway := 0, mx := c.mx.map fun m => { m with starveFrom := m.starveFrom + fed } }
/-- LOT_READBACK (R346): a lot unit marked saved has been read back. -/
def execLotReadback (core store unit : Nat) (s : State) : Out :=
  match stoOfKind store with
  | some k =>
    if mapGet ((s.core core).store k).saved unit = 0 then .next s
    else .next (s.updCore core fun c => let l := c.store k; (c.readBack s.cycle).setStore k { l with saved := mapSet l.saved unit 0 })
  | none => .next s
/-- A live lodging that holds a router, by its rectangle, or as one of its relay cores; one saved to phase 3 gives its routers up (R439). -/
def Lodging.holds (l : Lodging) (r : Nat) : Bool := l.live && (inRect r l.area || l.map.contains r) && !(3 ≤ l.phase && l.phase ≤ 5)
/-- A router whose core can be given to a lodging: enabled and free, or held by a lodging saved to phase 3 (R439); what a load has taken, or
left over, is not free (R351). -/
def State.takeable (s : State) (r : Nat) : Bool :=
  !(s.core r).off && !s.fuses.disabled.contains r && !s.lodgings.any fun e => e.1 != 0 && e.2.holds r
/-- Positions of the enabled cores of a rectangle, by offset (R352). -/
def State.enabledAt (s : State) (x y w h : Nat) : List (Nat × Nat) :=
  (((List.range h).map fun j => (List.range w).map fun i => (i, j)).flatten).filter fun p =>
    let r := (y + p.2) * 128 + x + p.1
    !(s.core r).off && !s.fuses.disabled.contains r
/-- The cores that the lodging had, by offset in its rectangle. -/
def Lodging.places (l : Lodging) (map : List Nat) : List (Nat × Nat) := (map.filter (· < 4096)).map fun r => (r % 128 - l.x, r / 128 - l.y)
/-- A router lists a lodging from now on, or no longer (R331). -/
def State.listGuest (s : State) (n r : Nat) : State := { s with guests := mapUpd s.guests r fun b => b ||| (1 <<< n) }
def State.unlistGuest (s : State) (n r : Nat) : State := { s with guests := mapUpd s.guests r fun b => b &&& ~~~((1 : BitVec 256) <<< n) }
/-- A lodging's places in the guest lists move with its rectangle (R331, log 64). -/
def State.moveGuest (s : State) (n : Nat) (from_ onto : List Nat) : State := onto.foldl (fun s r => s.listGuest n r) (from_.foldl (fun s r => s.unlistGuest n r) s)
/-- SHADOW.LOAD at its home (R351, R352, R439). DESIGN CHOICE (log 63): a target core that may not be taken refuses the load too, and the
remaining enabled cores of the rectangle go to nobody else. -/
def State.shadowLoad (s : State) (q : Req) (rect : Nat × Nat × Nat × Nat) (m : MemAddr) (receipt : Nat) : State :=
  let (x, y, w, h) := rect
  let fail := fun (c : Nat) => (s.receiptEnd q.act.core receipt c 0).answer q.id .ack
  match s.recordAt q m 0 with
  | .fail c => fail c
  | .wait t => t
  | .ok (.hbm pa) _ =>
    match s.saves.find? fun v => v.addr == pa && v.complete with
    | none => fail tUncorrectable
    | some v =>
      let n := v.lodging
      let l := v.saved
      let relays := (List.range 16).filterMap fun i => if bitAt l.relays i then some (4128 + i) else none
      let compute := v.images.length - relays.length
      let all := (rectRouters x y w h).filter fun r => !(s.core r).off && !s.fuses.disabled.contains r
      let rs := all.take compute
      let sameShape := l.w == w && l.h == h && s.enabledAt x y w h == l.fuse
      if (s.lodging n).live || w = 0 || h = 0 || 128 < x + w || 32 < y + h || all.length < compute || (v.linkUsing && !sameShape)
          || (rs ++ relays).any (fun r => !s.takeable r) then fail 0x22
      else match s.recordPages q m 0 (recordCount m.va v.images.length) 0 with
      | .fail c => fail c
      | .wait t => t
      | .ok ps =>
        if ps != l.savePages then fail tUncorrectable else
        let map := rs ++ relays
        let home := fun (r : Nat) => match (List.range map.length).find? fun i => awayRouter n i == r with | some i => map[i]?.getD r | none => r
        let s := s.rerouteReqs n home
        let s : State := { s with saves := s.saves.map fun u => if u.addr == pa && u.complete then
          { u with images := u.images.map fun i => { i with core := i.core.reroute home } } else u }
        let s := s.updLodging n fun l =>
          { l with live := true, gated := true, phase := 8, x := x, y := y, w := w, h := h, map := map, written := 0, saveAddr := some pa,
                   saveReceipt := some (q.act.core, receipt), fuse := s.enabledAt x y w h }
        let s := (all.drop compute).foldl (fun s r => if (s.core r).lodging = 0 then s.updCore r fun c => { c with lodging := n } else s) s
        (s.moveGuest n (rectRouters l.x l.y l.w l.h) (rectRouters x y w h)).answer q.id .ack
  | .ok _ _ => fail tProtection

/-! ## Live migration (R348 to R350, R440) -/

/-- Cores that hold the primaries, or the twins, of a core's redundant activities (R459, R462). -/
def State.pairedWith (s : State) (r : Nat) : List Nat :=
  ((s.core r).slots.filterMap fun e => if e.2.live then e.2.twin.map Prod.fst else none)
    ++ ((s.cores.filter fun e => e.1 != r && e.2.slots.any fun x => x.2.live && x.2.twin.any fun t => t.1 == r).map Prod.fst)
/-- MIGRATE at its home: the target is enabled, inside the rectangle, free and mapped to no logical core (R348, R440). A redundant pair moves
as one: the partner's core is halted with it (R462, log 48). DESIGN CHOICE (log 63): a lodging that is halted, and one of whose cores is already
on its way, is refused with SHAPE too. -/
def State.migrate (s : State) (q : Req) (n logical target receipt : Nat) : State :=
  let l := s.lodging n
  let fail := (s.receiptEnd q.act.core receipt tShape 0).answer q.id .ack
  match l.map[logical]? with
  | some r =>
    if 4096 ≤ target ∨ (s.core target).off ∨ s.fuses.disabled.contains target ∨ !inRect target l.area ∨ l.map.contains target
        ∨ ((s.core target).lodging ≠ 0 ∧ (s.core target).lodging ≠ n)
        ∨ 16 ≤ (l.forwards.filter fun f => f.old == r).length ∨ l.migrating.isSome ∨ l.gated ∨ !l.isLive then fail
    else
      (((s.pairedWith r).foldl (fun s p => s.gateCore p) (s.gateCore r)).updLodging n fun l =>
        { l with migrating := some (logical, target, q.act.core, receipt) }).answer q.id .ack
  | none => fail
/-- MIGRATION_RESUME (R348, R349): the context and its lots are on the target, the map has the new entry, and the core resumes;
every other core of the lodging owes a flush marker. -/
def execMigrationResume (lodging logical : Nat) (s : State) : Out :=
  let l := s.lodging lodging
  match l.migrating, l.map[logical]? with
  | some (k, target, rcore, receipt), some r =>
    let pair := s.pairedWith r
    if k != logical || (s.core r).enginesRun || pair.any fun p => (s.core p).enginesRun then .next s
    else
      let s := if (s.core r).off then s.reportExcluded r else s
      let f := fun (q : Nat) => if q = r then target else q
      let c := s.core r
      let s := s.makeRoom lodging logical target target c
      let moved := (c.mapStores fun k l => { (l.part k fun u => !l.isGuest u).join (((s.core target).store k).guestPart k) with
                                               lots := l.lots, saved := l.saved, guest := ((s.core target).store k).guest }).onto (s.core target) lodging logical
      let s := (s.setCore target (moved.fitSlots (s.slotCount target))).setCore r { c.vacated with lodging := lodging }
      let s := (s.rerouteReqs lodging f).rerouteCores lodging f
      let s := s.updLodging lodging fun l =>
        { l with map := l.map.set logical target, migrating := none, forwards := l.forwards ++ [{ old := r, target := target, logical := logical, zeros := 0 }],
                 markers := l.markers.map (fun m => (m.1, f m.2)) ++ ((l.map.filter (· != r)).map fun q => (logical, q)), drainZero := 0 }
      let s := pair.foldl (fun s p => s.ungateCore p) (s.ungateCore target)
      .next ((s.receiptUnits (f rcore) receipt 1).receiptEnd (f rcore) receipt 0 0)
  | _, _ => .next s
/-- FLUSH_MARKER (R349): the marker of a sender arrives through the old router, behind everything that it sent that way. -/
def execFlushMarker (lodging logical sender : Nat) (s : State) : Out :=
  match s.router lodging logical with
  | some r =>
    let before := s.reqs.any fun q => q.act.core == sender && q.lodging == lodging && q.via != 0 && (match q.stage with | .ready (.loc d _ _) => d == r | _ => false)
    if before then .next s
    else .next (s.updLodging lodging fun l => { l with markers := l.markers.erase (logical, sender) })
  | none => .next s

/-! ## Ending (R253, R355, R437) -/

/-- Breaks what a start would have held. -/
def State.breakStart (s : State) (r : Nat) (code : Byte) (st : Start) : State := s.breakObs (deviceAct r) st.lodging st.launch 0 code st.obs
/-- Breaks every obligation of a core or of its image: held and custodial sets, escrows, held invocations, waiting starts; `r` is the core
in whose name its activities' requests stand. -/
def State.breakAll (s : State) (r : Nat) (code : Byte) (c : Core) : State :=
  let s := (c.slots.filter fun e => e.2.live && !e.2.isTwin).foldl (fun s e =>
    s.breakObs { core := r, slot := e.1, gen := e.2.gen } c.lodging e.2.launch e.2.pc code e.2.obs.list) s
  let s := c.resume.foldl (fun s e => s.breakObs { core := r, slot := e.1, gen := e.2.gen } c.lodging e.2.launch e.2.pc code e.2.obs.list) s
  let s := c.binds.foldl (fun s e => s.breakObs (deviceAct r) c.lodging e.2.launch 0 code e.2.escrow) s
  let s := c.claims.foldl (fun s e => e.2.invs.foldl (fun s i => s.breakInvocation r i code) s) s
  (c.ring ++ c.arrivals).foldl (fun s st => s.breakStart r code st) s
/-- A core without what has been broken. -/
def Core.unburdened (c : Core) : Core :=
  { c.clearRing with arrivals := [], resume := [],
                     slots := (c.slots.map fun e => (e.1, { e.2 with obs := default })).filter fun e => e.2 != default,
                     binds := (c.binds.map fun e => (e.1, { e.2 with escrow := [] })).filter fun e => e.2 != default,
                     claims := (c.claims.map fun e => (e.1, { e.2 with invs := [] })).filter fun e => e.2 != default }
def State.breakCore (s : State) (r : Nat) (code : Byte) : State := (s.breakAll r code (s.core r)).updCore r Core.unburdened
/-- The obligations a request carries. -/
def Eff.obs : Eff → List Ob
  | .bind _ b => b.escrow
  | .invoke _ st => st.obs
  | .invokec _ i => i.obs
  | .spawn _ st => st.obs
  | .launch l => if l.units = 0 then [] else [{ held := true, isCount := true, object := l.counter, rank := l.rank, mult := l.units }]
  | _ => []
/-- A request that ends with its lodging (R220, R355, R412, R414): it waits at a station, at a peer or for a peer's route, or it waits for
an answer; or it waits for the agent of the lodging. -/
def State.endsWith (s : State) (n : Nat) (q : Req) : Bool :=
  let agents := match q.mem with | some (a, _) => (s.space a.space).lodging == n | none => false
  match q.stage with
  | .station | .walking | .buffered | .parked | .page => q.lodging == n
  | .agent _ => q.lodging == n || agents
  | .ready (.peer d) => q.lodging == n && !s.hasRoute d (if q.mem.isSome then 0 else 2)
  | .waiting => q.lodging == n && (match q.eff with | .message (.reply ..) _ _ => false | _ => true)
  | _ => false
/-- Walks of requests that are gone end, and those that had joined them ask their station again (R391, R392). -/
def State.dropWalks (s : State) (gone : List Nat) : State :=
  let s : State := { s with stations := s.stations.map fun e => (e.1, { e.2 with walks := e.2.walks.filter (!gone.contains ·), buffer := e.2.buffer.filter (!gone.contains ·) }) }
  let lost := fun (q : Req) => q.stage == .walking && (match q.asks with | some (a, _) => a.kind != 10 && !s.walkingPage (q.station a) a | none => false)
  let s : State := { s with reqs := s.reqs.map fun q => if lost q then { q with stage := .station } else q }
  (mapKeys s.stations).foldl (fun s n => s.refill n 513) s
/-- Requests that have not left break what they carry and go; those that cannot be answered any more fail. -/
def State.endReqs (s : State) (n : Nat) (code : Byte) : State :=
  let unsent := s.reqs.filter fun q => q.lodging == n && q.stage == .queued && q.idx < 128 && q.act.slot != 99
  let s := unsent.foldl (fun s q => (s.breakObs (deviceAct q.act.core) n q.launch q.block code q.eff.obs).dropReq q.id) s
  let stuck := s.reqs.filter (s.endsWith n)
  let s := stuck.foldl (fun s q => (s.breakObs (deviceAct q.act.core) n q.launch q.block code q.eff.obs).answer q.id (.fail code 0 0)) s
  s.dropWalks (stuck.map Req.id)
/-- Discharges or breaks what the pending launches of a lodging hold (R318). -/
def State.endLaunches (s : State) (n : Nat) (code : Byte) : State :=
  let mine := s.desk.filter fun l => l.lodging == n
  let s := mine.foldl (fun s l => s.breakObs (deviceAct (((s.lodging n).map.head?).getD 0)) n l.num 0 code (Eff.launch l).obs) s
  let s := mine.foldl (fun (s : State) l => { s with pending := mapUpd s.pending l.die (· - 1) }) s
  { s with desk := s.desk.filter fun l => l.lodging != n }
/-- Fault entries of the lodging's spaces are retired with it (R422). -/
def State.endFaults (s : State) (n : Nat) : State :=
  { s with stations := s.stations.map fun e => (e.1, { e.2 with faults := e.2.faults.filter fun f => (s.space f.space).lodging != n }) }
/-- The units of a lodging that still lie on cores are scrubbed (R30, R437). -/
def State.dropUnits (s : State) (n : Nat) : State :=
  { s with cores := s.cores.map fun e => (e.1, e.2.mapStores fun k l => (l.guest.filter fun g => g.2.1 == n).foldl (fun l g =>
      { l.scrub (g.1 * k.unit) ((g.1 + 1) * k.unit) with guest := mapSet l.guest g.1 default }) l) }
/-- Breaks the obligations in the images of a lodging whose cores are not on their routers: saved, or on their way out or in (R253, R354). -/
def State.breakImages (s : State) (n : Nat) (code : Byte) : State :=
  let away := fun (i : Image) => match (s.lodging n).map[i.logical]? with
    | some r => (s.core r).lodging != n || (s.core r).logical != i.logical + 1
    | none => true
  (s.saves.filter fun v => v.lodging == n).foldl (fun s v => (v.images.filter away).foldl (fun s i => s.breakAll (awayRouter n i.logical) code i.core) s) s
/-- The first steps of ending a live lodging (R355): gate, break, cancel. -/
def State.endLodging (s : State) (n : Nat) (code : Byte) : State :=
  let l := s.lodging n
  let own := l.map.filter fun r => (s.core r).lodging == n
  let s := own.foldl (fun s r => s.gateCore r) s
  let s := s.saveEnd n code.toNat
  let s := match l.migrating with | some (_, _, rc, off) => s.receiptEnd rc off code.toNat 0 | none => s
  let s := s.updLodging n fun l => { l with out := false, gated := true, gateCycle := s.cycle, ending := code, phase := 0, saveAddr := none, migrating := none, drainZero := 0 }
  let s := (own.foldl (fun s r => s.breakCore r code) s).breakImages n code
  let s := (s.endReqs n code).endLaunches n code
  let s := own.foldl (fun s r => s.updCore r fun c =>
    { c with porter := c.porter.map (fun p => { p with asked := if p.asked = 0 then code else p.asked }),
             mx := c.mx.map (fun m => { m with code := if m.code = 0 then code else m.code }) }) s
  let s : State := { s.dropUnits n with saves := s.saves.filter fun v => v.lodging != n }
  (s.endFaults n).lodgingEvent n code.toNat
/-- The routers that a grant has opened: user, owner and queue address (R448). -/
def State.openedBy (s : State) (g : Nat × Nat × Word) : List Nat := match s.router g.2.1 (addrCore g.2.2) with | some q => s.routesTo g.1 q | none => []
/-- The end of a lodging takes its grants' bits away from the other lodging too, but for those of its own routers and of its other grants
(R448). -/
def State.closeRoutes (s : State) (n : Nat) : State :=
  let of := fun (m : Nat) (g : Nat × Nat × Word) => g.1 == m || g.2.1 == m
  (s.grants.filter (of n)).foldl (fun t g =>
    let m := if g.1 = n then g.2.1 else g.1
    let kept := (s.lodging m).routers ++ ((s.grants.filter fun h => of m h && !of n h).map s.openedBy).flatten
    (s.openedBy g).foldl (fun t r => if kept.contains r then t else t.unlistGuest m r) t) s
/-- What a lodging held beyond its cores is released: sessions, grants, collectives, key (R402, R447, R448, R469). -/
def State.forget (s : State) (n : Nat) : State :=
  let s := s.closeRoutes n
  { s with sessions := s.sessions.map fun e => if e.2.lodging == n then (e.1, { e.2 with known := false }) else e,
           grants := s.grants.filter fun g => g.1 != n && g.2.1 != n,
           offers := s.offers.filter fun o => o.1 != n && o.2.1 != n,
           accepts := s.accepts.filter fun o => o.1 != n && o.2 != n,
           colls := s.colls.filter fun e => e.2.lodging != n,
           guests := s.guests.map (fun e => (e.1, e.2 &&& ~~~((1 : BitVec 256) <<< n))) |>.filter fun e => e.2 != 0,
           keys := mapSet s.keys (s.lodging n).keySlot 0,
           lodgings := mapUpd s.lodgings n fun l => { (default : Lodging) with replies := l.replies, pasid := l.pasid, session := l.session } }
/-- LODGE.END at its home (R437): a switched-out lodging ends as a live one does, with every obligation of its save record broken and its lot
units freed (R354). -/
def State.lodgeEnd (s : State) (q : Req) (n : Nat) (code : Byte) : State :=
  let l := s.lodging n
  (if l.live && l.ending == 0 then s.endLodging n code
   else if l.out then (s.updLodging n fun l => { l with live := true, out := false, map := [] }).endLodging n code else s).answer q.id .ack
/-- A lodging is gone (R355): its cores are vacated, its launches leave the desk, and nothing of it is kept. -/
def State.lodgeGone (s : State) (lodging : Nat) : State :=
  let l := s.lodging lodging
  let s := (l.map ++ l.routers).foldl (fun s r => if (s.core r).lodging = lodging then s.updCore r Core.vacated else s) s
  let s : State := { s with desk := s.desk.filter fun l => l.lodging != lodging }
  (s.forget lodging).reclaimAll
/-- LODGE_END_COMPLETE (R355): drained, and the last engine command ended: scrub, clear and release. -/
def execLodgeEndComplete (lodging : Nat) (s : State) : Out :=
  let l := s.lodging lodging
  let busy := s.reqs.any (fun q => q.lodging == lodging && (match q.eff with | .message (.reply ..) _ _ => false | _ => true))
    || l.map.any fun r => (s.core r).lodging == lodging && (!(s.core r).porter.isEmpty || !(s.core r).mx.isEmpty)
  if l.ending = 0 ∨ !l.live ∨ busy then .next s else .next (s.lodgeGone lodging)

/-! ## Making (R436, R469) -/

/-- The entries of 16 bytes of a table in Oxkan's space (R426, R436), one after another. -/
def State.oxkanTable (s : State) (q : Req) (va : Word) : Nat → Nat → BytesRead
  | _, 0 => .ok []
  | i, n + 1 =>
    match s.bytesRead q q.act.core 0 { kind := 1, space := 0xFFFF, va := va + BitVec.ofNat 64 (16 * i) } 16 with
    | .ok b => (match s.oxkanTable q va (i + 1) n with | .ok bs => .ok (b ++ bs) | r => r)
    | r => r
/-- A table that a record names, or none for the address 0. -/
def State.tableOf (s : State) (q : Req) (va n : Nat) : BytesRead := if va = 0 then .ok [] else s.oxkanTable q (BitVec.ofNat 64 va) 0 n
/-- One reply queue of the table. -/
def replyOf (b : List Byte) : ReplyQ :=
  let n := fun o k => natOfBytes ((b.drop o).take k)
  if n 0 8 = 0 then default
  else { (default : ReplyQ) with isSet := true, va := BitVec.ofNat 64 (n 0 8), k := n 8 1, agent := n 9 1 == 1, credits := 2 ^ n 8 1, seq := 1 }
/-- Rectangles of routers that share one. -/
def rectsMeet (a b : Nat × Nat × Nat × Nat) : Bool :=
  a.1 < b.1 + b.2.2.1 && b.1 < a.1 + a.2.2.1 && a.2.1 < b.2.1 + b.2.2.2 && b.2.1 < a.2.1 + a.2.2.2
/-- Some of a list of routers lie on a die; a lodging has a router on it, lodging 0 those of its steward cores (R315, R425). -/
def onDie (rs : List Nat) (d : Nat) : Bool := rs.any fun r => dieOf r == d
def Lodging.onDie (l : Lodging) (d : Nat) : Bool := Machine.onDie (l.routers ++ l.map) d
/-- A core as a new lodging receives it: everything zero, the inbox empty (R262, R436). -/
def Core.fresh (c : Core) (n logical : Nat) : Core :=
  let v := c.vacated
  { v with lodging := n, logical := logical + 1, s := { v.s with bytes := putNum v.s.bytes inboxOff 8 inboxWord } }
/-- LODGE.NEW at its home (R436). DEDUCED (log 45): the number of a switched-out lodging is not free either. -/
def State.lodgeNew (s : State) (q : Req) (rec_ : List Byte) (caps receipt : Nat) : State :=
  let f := fun o k => natOfBytes ((rec_.drop o).take k)
  let cap := fun (o : Nat) => (BitVec.ofNat 128 (f o 16) : Cap)
  let n := f 0 1
  let (x, y, w, h) := (f 2 2, f 4 2, f 6 2, f 8 2)
  let rel := f 82 2
  let relays := (List.range 16).filterMap fun i => if rel / 2 ^ i % 2 = 1 then some (4128 + i) else none
  let rs := rectRouters x y w h
  let ended := fun (c : Nat) => (s.receiptEnd q.act.core receipt c 0).answer q.id .ack
  let others := s.lodgings.filter fun e => e.1 != n && e.2.live
  let crowded := (List.range 8).any fun d => onDie (rs ++ relays) d && 48 < 1 + (others.filter fun e => e.2.onDie d).length
  let badCaps := caps != 7 || capKind (cap 16) != 6 || capKind (cap 32) != 5 || capKind (cap 48) != 6
  let refuse := (s.lodging n).live || (s.lodging n).out || 128 < x + w || 32 < y + h || crowded || badCaps || f 11 1 == 0
    || others.any (fun e => rectsMeet (x, y, w, h) (e.2.x, e.2.y, e.2.w, e.2.h)) || relays.any (fun r => (s.core r).lodging != 0 || others.any fun e => e.2.map.contains r)
    || mapGet s.keys (f 11 1) != 0
  if refuse then ended tShape
  else
    match s.tableOf q (f 64 8) 256, s.tableOf q (f 72 8) 16 with
    | .wait t, _ => t
    | .fail c, _ => ended c
    | _, .wait t => t
    | _, .fail c => ended c
    | .ok es, .ok ps =>
      let replies : Map ReplyQ := ((List.range (ps.length / 16)).map fun i => (i, replyOf ((ps.drop (16 * i)).take 16))).filter fun e => e.2.isSet
      if 1 < (replies.filter fun e => e.2.agent).length || replies.any (fun e => e.2.k < 4 || 12 < e.2.k) then ended tShape
      else
        let entries : Map Cap := ((List.range (es.length / 16)).map fun i => (i, (BitVec.ofNat 128 (natOfBytes ((es.drop (16 * i)).take 16)) : Cap))).filter fun e => e.2 != 0
        let map := (rs.filter fun r => !(s.core r).off && !s.fuses.disabled.contains r) ++ relays
        let l : Lodging := { (default : Lodging) with
          live := true, system := f 1 1 % 2 == 1, x := x, y := y, w := w, h := h, map := map, relays := BitVec.ofNat 16 rel, pasid := f 12 4 % 2 ^ 20,
          session := f 80 2, keySlot := f 11 1, trapQueue := cap 16, faultRing := cap 32, faultQueue := cap 48, ringSize := f 10 1, entries := entries,
          replies := replies, nextLaunch := 1, record := rec_, digest := Config.sha256 (rec_ ++ es ++ ps), fuse := s.enabledAt x y w h }
        let s : State := { s with lodgings := mapSet s.lodgings n l, keys := mapSet s.keys (f 11 1) (s.nextReq + 1), nextReq := s.nextReq + 2 }
        let s := rs.foldl (fun s r => s.setCore r { (s.core r).vacated with lodging := n }) s
        let s := (List.range map.length).foldl (fun s i => let r := map[i]?.getD 0; s.updCore r fun c => c.fresh n i) s
        let s := (rs ++ relays).foldl (fun s r => s.listGuest n r) s
        let s : State := { s with sessions := mapUpd s.sessions (f 80 2) fun e => { e with lodging := n } }
        ((s.receiptUnits q.act.core receipt 1).receiptEnd q.act.core receipt 0 0).answer q.id .ack

/-! ## Watchdogs (R298, R356, R357) -/

/-- Cycles of the lodging watchdog and of the device watchdog (1 ms at 800 cycles a microsecond). -/
def lodgingLimit : Nat := 102400
def deviceLimit : Nat := 800000
/-- LODGING_WATCHDOG (R356). DESIGN CHOICE (log 70): its service record names the router of the lodging's logical core 0 as the writer, which R298
leaves open, and the record's physical address in HBM. -/
def execLodgingWatchdog (lodging : Nat) (s : State) : Out :=
  let l := s.lodging lodging
  if l.live && 1 ≤ l.phase && l.phase ≤ 4 && l.watch == 0 && l.gateCycle.toNat + lodgingLimit ≤ s.cycle.toNat then
    let s := s.updLodging lodging fun l => { l with watch := s.cycle.toNat + 1 }
    .next (s.serviceRec 2 ((l.map.head?).getD 0) lodging (l.saveAddr.getD 0) l.progress)
  else .next s
/-- DEVICE_WATCHDOG (R357). -/
def execDeviceWatchdog (lodging : Nat) (s : State) : Out :=
  let l := s.lodging lodging
  if l.live && l.ending == 0 && l.watch != 0 && l.changedAt.toNat < l.watch && l.watch + deviceLimit ≤ s.cycle.toNat + 1 then
    let s := s.serviceRec 3 ((l.map.head?).getD 0) lodging (l.saveAddr.getD 0) (if l.saveAddr.isSome then l.progress else 0)
    .next (s.endLodging lodging 0x1F)
  else .next s

end Sys2Proof.Machine
end

