-- ==== Sys2Proof/Machine/Home.lean ====
section
/-! DEFINITION. Requests performed at their homes (R359 to R362): memory, waits, pages and stations
(R433 to R435), lodgings, tests and cancellation (R436 to R443), and launches that reach the desk (R319). -/

namespace Sys2Proof.Machine

/-! ## Page tables and stations (R433 to R435) -/

/-- STN.MAP at the entry's home. -/
def State.stnMap (s : State) (q : Req) (space level : Nat) (va e : Word) : State :=
  let d := s.space space
  let fail := fun (c : Nat) => s.answer q.id (.fail (BitVec.ofNat 8 c) va (BitVec.ofNat 64 space))
  if d.type ≠ 1 then fail tProtection
  else match s.tableFor (numAt va 0 48) level 2 d.root with
    | some t => (s.memWrite false 1 (entryAddr t level (numAt va 0 48)) ((bytesOf 8 e).map some)).answer q.id .ack
    | none => fail tTranslation
/-- STN.INV: acknowledged when all 64 stations have answered (R396, R434). -/
def State.stnInv (s : State) (q : Req) (space va n : Nat) : State :=
  let lo := if (s.space space).type = 2 then va else va % 2 ^ 48
  (s.invalidate (32 + q.id) fun l => l.space == space && l.meets lo n).setStage q.id .waiting
/-- Requests in the order in which their station received them (R393, R435). -/
def byOrder (l : List Req) : List Req :=
  l.foldl (fun acc q => acc.takeWhile (fun p => p.order ≤ q.order) ++ [q] ++ acc.dropWhile fun p => p.order ≤ q.order) []
/-- The parked requests of an entry, walked afresh in arrival order, or failed (R435). -/
def State.replayReqs (s : State) (station space page : Nat) (fail : Bool) : State :=
  (byOrder (s.reqs.filter fun q => q.stage == .parked && q.asksPage station space page)).foldl (fun s q =>
    match q.asks with
    | some (a, _) => if fail then s.answer q.id (.fail (BitVec.ofNat 8 tTranslation) a.va (BitVec.ofNat 64 space)) else s.walked q
    | none => s) s
/-- Fault entries that found no slot take the slots that have been retired (R422). -/
def State.placeWaiting (s : State) : State :=
  s.stations.foldl (fun s e => e.2.faults.foldl (fun s f =>
    if f.slot.isSome then s
    else
      let (s, f') := s.placeRecord e.1 f
      s.updStation e.1 fun t => { t with faults := t.faults.map fun g => if g.space == f.space && g.page == f.page then f' else g }) s) s
/-- STN.REPLAY at its station (R435): a fault that waited for the slot takes it before the requests are walked afresh (R422). -/
def State.stnReplay (s : State) (q : Req) (station space page : Nat) (fail : Bool) : State :=
  match (s.station station).faults.find? fun f => f.space == space && f.page == page with
  | none => s.answer q.id .ack
  | some f =>
    let s := s.updStation station fun t => { t with faults := t.faults.filter fun g => !(g.space == space && g.page == page) }
    let s := match f.slot with
      | some j => s.updLodging (s.space space).lodging fun l => { l with busySlots := mapSet l.busySlots j false }
      | none => s
    (s.placeWaiting.replayReqs station space page fail).answer q.id .ack

/-! ## Tests and cancellation (R441, R443) -/

/-- TEST.RUN at its core. -/
def State.testRun (s : State) (q : Req) (core unit set receipt : Nat) : State :=
  match Config.patterns unit set with
  | none => (s.receiptEnd q.act.core receipt tShape 0).answer q.id .ack
  | some n =>
    if n = 0 then (s.receiptEnd q.act.core receipt 0 0).answer q.id .ack
    else { s with tests := s.tests ++ [(core, unit, set, 0, q.id)] }.setStage q.id .waiting
/-- A command on its way to its engine reports to a receipt. -/
def Req.reportsTo (q : Req) (r off : Nat) : Bool :=
  match q.eff with
  | .porter p => !q.stage.isDone && q.act.core == r && p.receipt == off
  | .matrix m => !q.stage.isDone && m.rcore == r && m.receipt == off
  | _ => false
/-- Commands that report to a receipt (R443), at their engine or on their way. -/
def State.reporting (s : State) (r off : Nat) : Bool :=
  ((s.core r).porter.any fun p => p.receipt == off) || (s.cores.any fun e => e.2.mx.any fun m => m.rcore == r && m.receipt == off)
    || s.reqs.any fun q => q.reportsTo r off
/-- A command on its way takes the code with which it ends, as soon as its engine has it. -/
def Eff.cancelled (code : Byte) : Eff → Eff
  | .porter p => .porter { p with asked := if p.asked = 0 then code else p.asked }
  | .matrix m => .matrix { m with code := if m.code = 0 then code else m.code }
  | e => e
/-- ENGINE.CANCEL: every command that reports to the receipt ends with the code at its next chunk boundary. -/
def State.cancel (s : State) (q : Req) (r off : Nat) (code : Byte) : State :=
  let hit := fun (m : MxCmd) => m.rcore == r && m.receipt == off
  let ids := ((s.core r).porter.filter fun p => p.receipt == off).map PorterCmd.id ++ (s.cores.map fun e => (e.2.mx.filter hit).map MxCmd.id).flatten
  let s := s.updCore r fun c => { c with porter := c.porter.map fun p => if p.receipt = off then { p with asked := if p.asked = 0 then code else p.asked } else p }
  let s : State := { s with cores := s.cores.map fun e => (e.1, { e.2 with mx := e.2.mx.map fun m => if hit m then { m with code := if m.code = 0 then code else m.code } else m }),
                            reqs := s.reqs.map fun p => if p.reportsTo r off then { p with eff := p.eff.cancelled code } else p,
                            leaveWait := s.leaveWait.filter fun w => !ids.contains w.2.2.1 }
  if s.reporting r off then s.setStage q.id .waiting else s.answer q.id .ack
/-- Cancellations whose commands have all ended are acknowledged. -/
def State.settleCancels (s : State) : State :=
  { s with reqs := s.reqs.map fun q => match q.eff, q.stage with
    | .cancel r off _, .waiting => if s.reporting r off then q else { q with stage := .done .ack }
    | _, _ => q }

/-! ## Queue bindings and launches -/

/-- A new binding keeps the launch of the activity that created the object (R19), and the escrow that is still there (R253). -/
def Binding.keep (b y : Binding) : Binding :=
  if y.lodging = 0 then { b with escrow := y.escrow ++ b.escrow } else { b with launch := y.launch, rect := y.rect, escrow := y.escrow ++ b.escrow }
/-- QBIND at its core (R285). -/
def State.qbind (s : State) (q : Req) (off : Nat) (b : Binding) : State :=
  let r := q.act.core
  let h := s.sByte r off 8
  let ws := mapGet (s.core r).waiters off
  let s := s.putS r off 8 (qWord (qRank h) (qLog h) true (qHead h) (qCount h))
  let s := s.putS r (off + 8) 8 (capAddr b.entry).toNat
  let s := s.updCore r fun c => { c with binds := mapUpd c.binds off fun y => b.keep y, waiters := mapSet c.waiters off [] }
  let s := ws.foldl (fun s id => s.answer id (.val (scalarValue 0 true .broken) (qRank h))) s
  (s.runHandlers r off 256).answer q.id .ack
/-- QUNBIND at its core (R285). -/
def State.qunbind (s : State) (q : Req) (off : Nat) : State :=
  let r := q.act.core
  let h := s.sByte r off 8
  if !qBound h then s.answer q.id .ack
  else
    let s := s.putS r off 8 (qWord (qRank h) (qLog h) false (qHead h) (qCount h))
    let s := (s.putS r (off + 8) 8 0).updCore r fun c => { c with binds := mapSet c.binds off { mapGet c.binds off with bound := false, entry := 0, desc := 0 } }
    s.answer q.id .ack
/-- A launch reaches the desk, in its activity's commit order (R319, R362). -/
def State.launchArrives (s : State) (q : Req) (l : Launch) : State :=
  if (s.earlier q).any fun p => (match p.eff with | .launch _ => !p.stage.isDone | _ => false) then s
  else if (s.lodging l.lodging).ending ≠ 0 then
    ({ s.breakObs (deviceAct q.act.core) l.lodging l.num 0 (s.lodging l.lodging).ending (Eff.launch l).obs with pending := mapUpd s.pending l.die (· - 1) }).answer q.id .ack
  else { s with desk := s.desk ++ [{ l with since := s.cycle }] }.answer q.id .ack
/-- A wait meets its object, here or at a peer (R229, R416). -/
def State.waitArrives (s : State) (q : Req) (st : Bool) (kind : Nat) (o : Word) : State :=
  match q.stage with
  | .ready (.peer d) => if s.hasRoute d 2 then (s.sendFlit d 2 q.lodging (s.core q.act.core).logicalNo (.wait q.id st o)).setStage q.id .waiting else s
  | _ => s.performWait q st kind o
/-- FAULT_MESSAGE_SEND (R422): the station sends one of the messages that it owes for written records to the fault queue; one that finds the queue
full waits. -/
def execFaultMessageSend (station entry : Nat) (s : State) : Out :=
  match (s.station station).msgs[entry]? with
  | some (r, off, m) => match s.tryDeliver r off m with
    | some s' => .next (s'.updStation station fun t => { t with msgs := t.msgs.eraseIdx entry })
    | none => .next s
  | none => .next s

end Sys2Proof.Machine
end

