-- ==== Sys2Proof/Machine/Answer.lean ====
section
/-! DEFINITION. The answers of homes to what instructions asked when they fired (R245, R267, R276, R278, R283, R288, R315, R418,
R472). -/

namespace Sys2Proof.Machine

/-- Delivers values to the targets of instruction `i`, whose format is T (R276, R278, R283, R288). -/
def State.yields (s : State) (r k i : Nat) (v0 v1 : Value) : State :=
  let w := (s.slot r k).blk.words[i]?.getD 0
  (s.send r k (t0Of w) v0).send r k (t1Of w) v1
def State.answered (s : State) (r k i : Nat) (a : Ask) : State := s.updBlk r k fun b => { b with asks := mapSet b.asks i a }
def State.setAct (s : State) (r k i : Nat) (a : Act) : State := s.updBlk r k fun b => { b with acts := mapSet b.acts i (some a) }
/-- The header of a queue, also one of a switched-out lodging: in its image, or in a lot unit that still lies on a core (R345, R347). -/
def State.headerOf (s : State) (r off owner : Nat) : Nat :=
  match s.savedCore owner (r - awayRouter owner 0) with
  | some i => if 8192 ≤ r ∧ mapGet (s.core i.router).s.guest (off / 1024) ≠ (owner, i.logical) then numBytes i.core.s.bytes off 8
    else s.sByte (if 8192 ≤ r then i.router else r) off 8
  | none => s.sByte r off 8
/-- A question about an object in a lot unit that has not been read back waits for it (R346). -/
def State.askAway (s : State) (lodging : Nat) : Ask → Bool
  | .rank kind o => kind != 8 && (match s.router lodging (addrCore o) with | some q => s.lotAway q .s (addrOff o) 16 | none => false)
  | .stat o | .bindInfo o => (match s.router lodging (addrCore o) with | some q => s.lotAway q .s (addrOff o) 16 | none => false)
  | .place (.queue q off _) => s.lotAway q .s off 16
  | _ => false
/-- The router and the S offset of the word that the home reads to answer question `idx` of a block: a counter's, or a queue's header. -/
def State.askWord (s : State) (r k idx : Nat) : Option (Nat × Nat) :=
  let lodging := (s.core r).lodging
  let own := fun (o : Word) => (s.router lodging (addrCore o)).map fun q => (q, addrOff o)
  let queue := fun (d : QDest) => match d with
    | .queue q off owner => if q < 8192 ∧ (s.core q).lodging = owner then some (q, off) else none
    | .coll n _ => let t := s.collDest n (s.collNext n r k (idx % 128)); if t.1 = s.fuses.device then some (t.2.1, t.2.2.1) else none
    | _ => none
  match mapGet (s.slot r k).blk.asks idx with
  | .rank kind o => (match mapGet (s.slot r k).blk.acts (idx % 128) with
    | some (.sendw d _) => queue d
    | _ => if kind = 8 then none else own o)
  | .stat o | .bindInfo o => own o
  | .place d => (match d with | .queue .. => queue d | _ => none)
  | _ => none
/-- The word that an answer rests on holds an uncorrectable error (R75). -/
def State.askBad (s : State) (r k idx : Nat) : Bool := (s.askWord r k idx).any fun w => (s.core w.1).s.bad w.2 8
/-- SEC-DED repairs the word that an answer rests on (R450). -/
def State.repairAsk (s : State) (r k idx : Nat) : State :=
  match s.askWord r k idx with | some w => s.repairStore w.1 .s w.2 8 | none => s
/-- A queue's rank (R262), of a relay's queue where instruction `idx`'s message through a collective goes; a reply queue has none (R282). -/
def State.queueRank (s : State) (d : QDest) (core slot idx : Nat) : Ask :=
  match d with
  | .queue r off owner => let h := s.headerOf r off owner; if qBad h then .answered false 0 tShape else .answered true (qRank h) 0
  | .reply .. => .answered true 0 0
  | .peer .. => .answered false 0 0
  | .coll n _ => let t := s.collDest n (s.collNext n core slot idx); .answered true (qRank (s.sByte t.2.1 t.2.2.1 8)) 0
/-- The rank that the home of an awaited object answers (R245): refused with a code for a counter or a queue that WAIT may not name
(R229, R285). -/
def State.rankAnswer (s : State) (r k i kind : Nat) (o : Word) : Ask :=
  let lodging := (s.core r).lodging
  match mapGet (s.slot r k).blk.acts i with
  | some (.sendw d _) => s.queueRank d r k i
  | _ =>
    if kind = 8 then
      match s.claimHome lodging o with
        | some (q, j) => .answered true (mapGet (s.core q).claims j).chain 0
        | none => .answered true 0 0
    else
      match s.router lodging (addrCore o) with
      | none => .answered false 0 tPerm
      | some q =>
        let w := s.sByte q (addrOff o) 8
        if kind = 7 then
          (if ctrBad w then .answered false 0 tShape
           else if ctrBound w || !ctrWaitable w then .answered false (ctrRank w) tPerm else .answered true (ctrRank w) 0)
        else if qBad w then .answered false 0 tShape
        else if qBound w then .answered false (qRank w) tPerm
        else .answered true (qRank w) 0
/-- A staging place is left to a contributing core at the relay of instruction `idx`'s message (R267, R418): fewer than 2 of its entries have been
committed for that relay and not entered its queue, or are to be committed for it before. The relay answers an entry when it enters, so this holds
for a relay on a peer too. DESIGN CHOICE (log 70): which relay that is, is what the core can tell when the instruction fires: the open blocks of
its other slots are taken to commit first. -/
def State.stagingFree (s : State) (coll core slot idx : Nat) : Bool :=
  let c := mapGet s.colls coll
  let relay := fun (k : Nat) => k % c.blocks % c.relays.length
  let first := mapGet c.sent core
  let ahead := s.collAhead coll core slot idx
  let left := c.out.filter fun e => e.2 == relay (first + ahead) && (match s.req e.1 with | some q => q.act.core == core && !q.stage.isDone | none => false)
  let coming := (List.range ahead).filter fun i => relay (first + i) == relay (first + ahead)
  left.length + coming.length < 2
/-- A place for SEND (R267, R282, R283, R347, R407, R418); none of `some` where the queue's header is malformed. -/
def State.takePlace (s : State) (r slot idx : Nat) (d : QDest) : Option (State × Bool) :=
  match d with
  | .queue q off owner =>
    if qBad (s.sByte q off 8) && (s.core q).lodging == owner then none
    else if s.qFree q off && (mapGet (s.core q).sendws off).isEmpty && (s.core q).lodging == owner && !(s.lodging owner).out then
      some (s.updCore q fun c => { c with places := mapUpd c.places off (· + 1) }, true)
    else some (s, false)
  | .reply l n =>
    let y := mapGet (s.lodging l).replies n
    if y.isSet && y.reserved + y.waiting.length < y.credits then
      some (s.updLodging l fun l => { l with replies := mapUpd l.replies n fun y => { y with reserved := y.reserved + 1 } }, true)
    else some (s, false)
  | .peer .. => some (s, false)
  | .coll n _ => some (s, s.stagingFree n r slot idx)
/-- An invocation place and record at the target claim's home (R258): its chain rank and whether there is one. A claim whose generation no
longer matches takes none: its chain rank counts as 0, and what is addressed to it breaks when it arrives (R278). -/
def State.invokePlace (s : State) (lodging : Nat) (n : Word) : State × Nat × Bool :=
  match s.claimHome lodging n with
  | none => (s, 0, true)
  | some (q, i) =>
    let c := s.core q
    let records : Nat := c.claims.foldl (fun m e => m + e.2.invs.length + e.2.reserved) 0
    let x := mapGet c.claims i
    if x.invs.length + x.reserved < 8 ∧ records < 64 then
      (s.updCore q fun c => { c with claims := mapUpd c.claims i fun y => { y with reserved := y.reserved + 1 } }, x.chain, true)
    else (s, x.chain, false)
/-- Pending-launch entries of a die outside the reserve of 16 of each lodging with a router there; what a switched-out lodging holds is none of a
reserve (R315). -/
def State.poolUsed (s : State) (die : Nat) : Nat := s.lodgings.foldl (fun n e => n + (mapGet e.2.pool die - if e.2.live then 16 else 0)) 0
def State.poolSize (s : State) (die : Nat) : Nat := 1024 - 16 * (s.lodgings.filter fun e => e.2.live && e.2.onDie die).length
/-- Takes a pending-launch entry, from the lodging's reserve and then from the pool (R315, R316). -/
def State.takePending (s : State) (lodging die : Nat) : Option State :=
  if mapGet (s.lodging lodging).pool die < 16 ∨ s.poolUsed die < s.poolSize die then
    some ({ s with pending := mapUpd s.pending die (· + 1) }.updLodging lodging fun l => { l with pool := mapUpd l.pool die (· + 1) })
  else none
/-- Reads the 32 bytes of a descriptor as a load (R472) for an instruction's question. -/
def State.entryAnswer (s : State) (r k i : Nat) (e : Cap) : State :=
  let sp := capSpace e
  match s.codeRead r (.desc k i) sp (capAddr e) 0 (s.slot r k).pc with
  | .ok b => (s.dropLines r (.desc k i)).answered r k i (.desc (descIn b (capAddr e)))
  | .fail c => (s.dropLines r (.desc k i)).answered r k i (.failed (BitVec.ofNat 8 c) (capAddr e) (if c = tUncorrectable then 0 else sp))
  | .wait s => s
def predValue (b : Bool) : Value := dataScalar (if b then 1 else 0)
/-- What question `idx` of a block asks of a home on a peer: the device, the kind of question and the object (R416). -/
def State.peerQuestion (s : State) (r k idx : Nat) : Option (Nat × Nat × Word) :=
  let b := (s.slot r k).blk
  let queue := fun (d : QDest) (kind : Nat) => match d with
    | .peer device c off => some (device, kind, localAddr c off)
    | .coll n _ => let t := s.collDest n (s.collNext n r k (idx % 128)); if kind = 2 ∨ t.1 = s.fuses.device then none else some (t.1, kind, localAddr t.2.1 t.2.2.1)
    | _ => none
  let claim := fun (n : Word) (kind : Nat) => if claimDevice n = s.fuses.device then none else some (claimDevice n, kind, n)
  match mapGet b.asks idx with
  | .rank kind o => (match mapGet b.acts (idx % 128) with
    | some (.sendw d _) => queue d 0
    | _ => if kind = 8 then claim o 1 else none)
  | .place d => queue d 2
  | .place2 n => (match mapGet b.acts (idx % 128) with | some (.invokec _ _ _ (some _)) => claim n 3 | _ => none)
  | _ => none
/-- SEND's place is granted, or not (R283). -/
def State.placeTold (s : State) (r k i : Nat) (d : QDest) (ok : Bool) : State :=
  match mapGet (s.slot r k).blk.acts i with
  | some (.send _ m _) => ((s.answered r k i (.answered ok 0 0)).setAct r k i (.send d m ok)).yields r k i (predValue ok) (predValue ok)
  | _ => s
/-- INVOKEC's place is granted, or not; its target's chain rank comes with it (R258, R260). -/
def State.invokeTold (s : State) (r k i : Nat) (n : Word) (chain : Nat) (ok : Bool) : State :=
  match mapGet (s.slot r k).blk.acts i with
  | some (.invokec t arg w (some ci)) =>
    if ok then
      let c := s.core r
      let v := claimValue (claimNumber s.fuses.device c.logicalNo ci (mapGet c.claims ci).gen)
      let s := s.updCore r fun c => { c with claims := mapUpd c.claims ci fun x => { x with chain := Nat.max x.rank chain, heldAt := n } }
      (s.answered r k i (.answered true chain 0)).yields r k i v (predValue true)
    else
      let s := s.updCore r fun c => { c with claims := mapUpd c.claims ci fun x => { x with state := 0 } }
      ((s.setAct r k i (.invokec t arg w none)).answered r k i (.answered false chain 0)).yields r k i nullClaim (predValue false)
  | _ => (s.answered r k i (.answered false 0 0)).yields r k i nullClaim (predValue false)
/-- A peer's answer reaches the instruction that asked (R267, R416): a rank, or the code with which its home refuses one. -/
def State.peerTold (s : State) (r k i kind : Nat) (ok : Bool) (n : Nat) : State :=
  match kind, mapGet (s.slot r k).blk.asks i with
  | 2, .place d =>
    let logical := match d with | .peer _ c _ => c | _ => 0
    if !ok && n != 0 then s.takeTrap r k (refusal n logical ((s.slot r k).blk.op i 0)) (BitVec.ofNat 32 i) 0 else s.placeTold r k i d ok
  | 3, .place2 t => s.invokeTold r k i t (if ok then n else 0) ok
  | _, _ => s.answered r k i (if ok then .answered true n 0 else .answered false 0 n)
/-- A request carries the question `idx` of a slot. -/
def Eff.asksFor (e : Eff) (k idx kind : Nat) : Bool := match e with | .query _ k' i kind' _ => k' == k && i == idx && kind' == kind | _ => false
/-- A question for a home on a peer goes out over its link, and is answered when the answer has come back (R267, R416). -/
def State.askPeer (s : State) (r k idx device kind : Nat) (o : Word) : State :=
  match s.reqs.find? fun q => q.act == deviceAct r && q.eff.asksFor k idx kind with
  | none => s.issue (deviceAct r) (s.core r).lodging 0 0 0 (.query device k idx kind o) .queued
  | some q => match q.stage with
    | .done a => (s.dropReq q.id).peerTold r k idx kind a.told.1 a.told.2
    | _ => s
/-- The home of an object on this device answers question `idx` of a block (R245, R267). -/
def State.homeTells (s : State) (core slot idx : Nat) : State :=
  let b := (s.slot core slot).blk
  let i := idx % 128
  let lodging := (s.core core).lodging
  match mapGet b.asks idx with
  | .rank kind o => s.answered core slot idx (s.rankAnswer core slot i kind o)
  | .stat o => match s.router lodging (addrCore o) with
    | some q =>
      let w := s.sByte q (addrOff o) 8
      if ctrBad w then s.takeTrap core slot (trap tShape) (BitVec.ofNat 32 i) 0
      else
        let v := dataScalar (BitVec.ofNat 64 w)
        (s.answered core slot idx (.answered true 0 0)).yields core slot i v v
    | none => s.takeTrap core slot (trapLodging (addrCore o)) (BitVec.ofNat 32 i) 0
  | .place d => match s.takePlace core slot i d with
    | some (s', ok) => s'.placeTold core slot i d ok
    | none => s.takeTrap core slot (trap tShape) (BitVec.ofNat 32 i) 0
  | .place2 n => match mapGet b.acts i with
    | some (.invokec _ _ _ (some _)) => let (s', chain, ok) := s.invokePlace lodging n; s'.invokeTold core slot i n chain ok
    | _ => s.invokeTold core slot i n 0 false
  | .bindInfo o => match s.router lodging (addrCore o) with
    | some q =>
      let w := s.sByte q (addrOff o) 8
      s.answered core slot idx (.answered (!ctrBad w) (ctrRank w) (bit1 (ctrBound w)))
    | none => s.answered core slot idx (.answered false 0 0)
  | .pending => match s.takePending lodging (dieOf core), mapGet b.acts i with
    | some s', some (.launch a _) =>
      ((s'.answered core slot idx (.answered true 0 0)).setAct core slot i (.launch a true)).yields core slot i (predValue true) (predValue true)
    | _, _ => ((s.answered core slot idx (.answered false 0 0)).count core 12 1).yields core slot i (predValue false) (predValue false)
  | .entry e => s.entryAnswer core slot idx e
  | _ => s
/-- The home of a question lies on a core that accepts nothing of this sender until its flush marker has come (R349). -/
def State.askHeld (s : State) (r k idx : Nat) : Bool :=
  let lodging := (s.core r).lodging
  let home := match mapGet (s.slot r k).blk.asks idx with
    | .place2 n => if claimDevice n = s.fuses.device then s.router lodging (claimCore n) else none
    | .rank 8 n => if claimDevice n = s.fuses.device then s.router lodging (claimCore n) else none
    | _ => (s.askWord r k idx).map Prod.fst
  home.any fun q => s.behindMarker lodging r q
/-- REMOTE_ANSWER (R245, R267): the answer to question `idx` of a block returns (128 and above: second questions). One whose word lies in a lot
unit that has not been read back waits, and the time counts toward no timer (R346); one whose word holds an uncorrectable error restarts the
block (R75). -/
def execRemoteAnswer (core slot idx : Nat) (s : State) : Out :=
  let b := (s.slot core slot).blk
  if b.phase != 2 || !s.runs core slot then .next s
  else if s.askAway (s.core core).lodging (mapGet b.asks idx) then .next (s.waitsAway core slot)
  else match s.peerQuestion core slot idx with
    | some (device, kind, o) => .next (s.askPeer core slot idx device kind o)
    | none =>
      if s.askHeld core slot idx then .next s
      else if s.askBad core slot idx then .next (s.consumeBad core slot (idx % 128) Sto.s.unitNo)
      else .next ((s.repairAsk core slot idx).homeTells core slot idx)

end Sys2Proof.Machine
end

