-- ==== Sys2Proof/Machine/Oxkan.lean ====
section
/-! DEFINITION. What Oxkan does when it is called (R444 to R448; log 19): the activity that a call starts on a steward core performs a function of
R447. -/

namespace Sys2Proof.Machine

/-- A call (R444, R446): who calls, from the host or from an activity, function, version, scalar arguments, and the capability
operand where its granule is tagged. -/
structure Call where
  lodging : Nat
  host : Bool
  session : Nat
  seq : Nat
  steward : Nat
  fn : Nat
  version : Nat
  zero : Bool
  arg : BitVec 256
  cap : Option Cap
deriving Repr
def Call.num (c : Call) (o n : Nat) : Nat := numAt c.arg (8 * o) (8 * n)
/-- What a call comes to: a value, a break code, or a wait for a page or a translation. -/
inductive CallEnd where
  | done (s : State) (v : Value)
  | fail (code : Nat)
  | wait (s : State)
def tMemExhausted := 0x20

/-- Enabled compute cores of a lodging on this device (R43, R44). -/
def Lodging.computeCores (l : Lodging) : Nat := (l.map.filter (· < 4096)).length
/-- A message of the device to an inbox: tagged when it is a capability; sender core 0xFFF (R409, R448). -/
def State.toInbox (s : State) (steward lodging logical : Nat) (data : V512) (cap : Bool) : State :=
  match s.router lodging logical with
  | some r => s.issue (deviceAct steward) 0 0 0 0 (.message (.queue r inboxOff lodging) { data := data, cap := cap, core := 0xFFF, lodging := 0 } none) .queued
  | none => s
/-- Sets the bits of both lodgings on every router between the user's cores and the queue's core (R331, R448). -/
def State.openRoute (s : State) (a b q : Nat) : State :=
  let rs := s.routesTo b q
  { s with guests := rs.foldl (fun m r => mapUpd m r fun w => w ||| (1 <<< a) ||| (1 <<< b)) s.guests }
/-- An offer meets an acceptance (R448). -/
def State.matchOffer (s : State) (steward : Nat) (o : Nat × Nat × Nat × Cap) : State :=
  let (a, b, core, q) := o
  let s := match s.router a (addrCore (capAddr q)) with | some r => s.openRoute a b r | none => s
  let grant := mkCap 6 0x22 0 0 0 0 (capAddr q)
  let s : State := { s with grants := s.grants ++ [(b, a, capAddr q)], offers := s.offers.filter (· != o) }
  s.toInbox steward b core (BitVec.ofNat 512 (grant.toNat + a * 2 ^ 128)) true

/-- ENGINE_GRANT. -/
def State.engineGrant (s : State) (c : Call) : CallEnd :=
  let core := c.num 0 2 % 2 ^ 12
  let mask := c.num 2 2
  let l := s.lodging c.lodging
  let cap := mkCap 9 4 mask 0 0 0 (BitVec.ofNat 64 (core * 2 ^ 52))
  if l.computeCores ≤ core then .fail tLodging
  else if mask = 0 then .fail tShape
  else if !c.host then .done s (capValue cap)
  else
    let owner := c.num 4 2 % 2 ^ 12
    if (s.router c.lodging owner).isNone then .fail tLodging
    else .done (s.toInbox c.steward c.lodging owner (BitVec.ofNat 512 (cap.toNat + c.seq * 2 ^ 160)) true) (dataValue 0)
/-- A queue or an inbox of the caller's lodging on this device, with send (R447). -/
def State.offered (s : State) (c : Call) : Option Cap :=
  match c.cap with
  | some q =>
    let foreign := capHas q pGlobal && s.grants.any fun g => g.1 == c.lodging && g.2.2 == capAddr q
    if capKind q = 6 ∧ capHas q pSend ∧ !foreign ∧ numAt (capAddr q) 48 4 < 13 ∧ (s.router c.lodging (addrCore (capAddr q))).isSome then some q else none
  | none => none
/-- QUEUE_OFFER. -/
def State.queueOffer (s : State) (c : Call) : CallEnd :=
  let b := c.num 0 1
  match s.offered c with
  | none => .fail tShape
  | some q =>
    if b = 0 ∨ b = c.lodging ∨ !(s.lodging b).isLive then .fail tShape
    else if 64 ≤ s.offers.length then .fail tMemExhausted
    else
      let o := (c.lodging, b, c.num 2 2 % 2 ^ 12, q)
      let s : State := { s with offers := s.offers ++ [o] }
      .done (if s.accepts.contains (b, c.lodging) then s.matchOffer c.steward o else s) (dataValue 0)
/-- QUEUE_ACCEPT. -/
def State.queueAccept (s : State) (c : Call) : CallEnd :=
  let a := c.num 0 1
  if !(s.lodging a).isLive then .fail tShape
  else
    let os := s.offers.filter fun o => o.1 == a && o.2.1 == c.lodging
    let s : State := { s with accepts := if s.accepts.contains (c.lodging, a) then s.accepts else s.accepts ++ [(c.lodging, a)] }
    .done (os.foldl (fun s o => s.matchOffer c.steward o) s) (dataScalar (BitVec.ofNat 64 os.length))
/-- What peers have been told on behalf of a call, and their answers. -/
inductive Told where
  | ok (answers : List (Nat × V512))
  | fail
  | wait (s : State)
/-- Tells peers, once each, and waits for all their answers (R447). -/
def State.tells (s : State) (q : Req) (c : Call) (bs : List (Nat × FlitBody)) : Told :=
  let told := fun (m : Nat × FlitBody) => s.reqs.find? fun p => p.eff == .tell q.id m.1 c.lodging m.2
  let answers := bs.filterMap fun m => (told m).bind fun p => match p.stage with
    | .done (.val v _) => some (m.1, some v.bits)
    | .done _ => some (m.1, none)
    | _ => none
  if answers.length = bs.length then
    (if answers.any fun a => a.2.isNone then .fail else .ok (answers.filterMap fun a => a.2.map fun v => (a.1, v)))
  else
    .wait ((bs.filter fun m => (told m).isNone).foldl (fun s m => s.issue (deviceAct c.steward) 0 0 0 0 (.tell q.id m.1 c.lodging m.2) .queued) s)
/-- PEER_QUEUE_GRANT: the capability goes to the inbox of the peer's core, which the peer refuses when the lodging has no such core there. -/
def State.peerQueueGrant (s : State) (q : Req) (c : Call) : CallEnd :=
  let d := c.num 0 4 % 2 ^ 20
  match s.offered c with
  | none => .fail tShape
  | some k =>
    if !(s.lodging c.lodging).system then .fail tShape
    else if d = s.fuses.device then .fail tLodging
    else
      let a := addrCore (capAddr k) * 2 ^ 52 + 0xE * 2 ^ 48 + s.fuses.device * 2 ^ 28 + addrOff (capAddr k) % 2 ^ 16
      let cap := mkCap 6 0x20 0 0 0 0 (BitVec.ofNat 64 a)
      match s.tells q c [(d, .message 0 false true (c.num 4 2 % 2 ^ 12) inboxOff 0 0 (cap.zeroExtend 512))] with
      | .wait t => .wait t
      | .fail => .fail tLodging
      | .ok _ => .done s (dataValue 0)
/-- Bytes of the caller's device memory. -/
def State.callRead (s : State) (q : Req) (c : Call) (cap : Cap) (o n : Nat) : BytesRead :=
  s.bytesRead q c.steward c.lodging { kind := 1, space := capSpace cap, va := capAddr cap + BitVec.ofNat 64 o } n
/-- The relay core of this device that a logical core of a lodging names (R44). -/
def State.relayHere (s : State) (lodging logical : Nat) : Option Nat := (s.router lodging logical).filter fun r => isRelay r
/-- One entry of a collective table, by device, logical core and offset; or a code (R448). -/
def State.collEntry (s : State) (c : Call) (bs : List Byte) : Except Nat (Nat × Nat × Nat) :=
  let f := fun o n => natOfBytes ((bs.drop o).take n)
  let d := f 0 3
  let k := f 4 2 % 2 ^ 12
  if f 6 2 ≠ 0 ∨ f 3 1 ≠ 0 ∨ 2 ^ 20 ≤ d then .error tShape
  else if d = s.fuses.device ∧ (s.relayHere c.lodging k).isNone then .error tLodging
  else .ok (d, k, f 8 8 % 2 ^ 52)
/-- What a table of relays comes to. -/
inductive RelaysRead where
  | ok (relays : List (Nat × Nat × Nat))
  | fail (code : Nat)
  | wait (s : State)
/-- All entries, in order. -/
def State.collEntries (s : State) (q : Req) (c : Call) (cap : Cap) : List Nat → RelaysRead
  | [] => .ok []
  | j :: js =>
    match s.callRead q c cap (16 + 16 * j) 16 with
    | .wait t => .wait t
    | .fail k => .fail k
    | .ok bs => match s.collEntry c bs, s.collEntries q c cap js with
      | .error k, _ => .fail k
      | .ok e, .ok es => .ok (e :: es)
      | .ok _, r => r
/-- Sets message counts and staging to zero: what is staged is given up, and its senders are answered (R418, R447). -/
def State.clearStaging (s : State) (i : Nat) : State :=
  let ids := (s.cores.map fun e => (e.2.staged.filter fun x => x.1 == i).map fun x => x.2.2.1).flatten
  let s := ids.foldl (fun s id => s.answer id .ack) s
  { s with cores := s.cores.map fun e => (e.1, { e.2 with staged := e.2.staged.filter fun x => x.1 != i }) }
/-- A device records a collective, arms it, and frees it (R417, R418). -/
def State.collRecord (s : State) (lodging i n blocks : Nat) (relays : List (Nat × Nat × Nat)) : State :=
  let here := fun (t : Nat × Nat × Nat) => if t.1 = s.fuses.device then (t.1, (s.relayHere lodging t.2.1).getD 0, t.2.2) else t
  { s with colls := mapSet s.colls i { live := true, lodging := lodging, relays := relays.map here, n := n, blocks := blocks, sent := [], passed := [], out := [], came := [] } }
def State.collArm (s : State) (i : Nat) : State := { s.clearStaging i with colls := mapUpd s.colls i fun k => { k with sent := [], passed := [], out := [], came := [] } }
def State.collFree (s : State) (i : Nat) : State := { s.clearStaging i with colls := mapSet s.colls i default }
/-- The collective numbers in use on a device, as bits. -/
def State.collUsed (s : State) : Nat := s.colls.foldl (fun u e => if e.2.live then u + 2 ^ e.1 else u) 0
/-- What a peer's Oxkan tells this device of a collective, and the answer (R447, log 13): to the question, whether the system lodging is here, whether
it holds the relay cores named, and the numbers in use. -/
def State.collTold (s : State) (lodging op i n blocks : Nat) (relays : List (Nat × Nat × Nat)) : State × Resp :=
  let here := (s.lodging lodging).isLive && (s.lodging lodging).system
  let its := (mapGet s.colls i).live && (mapGet s.colls i).lodging == lodging
  match op with
  | 0 =>
    let held := relays.all fun t => (s.relayHere lodging t.2.1).isSome
    (s, .val (dataValue (BitVec.ofNat 512 (bit1 here + 2 * bit1 held + s.collUsed * 2 ^ 256))) 0)
  | 1 => (if here then s.collRecord lodging i n blocks relays else s, .ack)
  | 2 => (if its then s.collArm i else s, .ack)
  | _ => (if its then s.collFree i else s, .ack)
/-- Devices that may hold a system lodging too: those to which a route leads (R414). -/
def State.peers (s : State) (lodging : Nat) : List Nat :=
  if (s.lodging lodging).system then ((mapKeys s.routes).filter (· % 4 == 2)).map (· / 4) else []
/-- The number under which a call is recording its collective at peers. -/
def State.recording (s : State) (q : Req) : Option Nat :=
  s.reqs.findSome? fun p => match p.eff with | .tell call _ _ (.coll _ 1 i _ _ _) => if call = q.id then some i else none | _ => none
/-- COLLECTIVE_MAKE with its table read: the peers are asked, and the lowest number free everywhere is recorded here and there. -/
def State.collMade (s : State) (q : Req) (c : Call) (n b : Nat) (es : List (Nat × Nat × Nat)) : CallEnd :=
  let ds := s.peers c.lodging
  match s.tells q c (ds.map fun d => (d, .coll 0 0 0 n b (es.filter fun e => e.1 == d))) with
  | .wait t => .wait t
  | .fail => .fail tLodging
  | .ok as =>
    let members := as.filter fun a => bitAt a.2 0
    let used := members.foldl (fun u a => u ||| numAt a.2 256 256) s.collUsed
    let record := fun (s : State) (i : Nat) => match s.tells q c (members.map fun a => (a.1, .coll 0 1 i n b es)) with
      | .wait t => CallEnd.wait t
      | _ => .done s (capValue (mkCap 6 0x20 0 0 0 0 (BitVec.ofNat 64 (0xD * 2 ^ 48 + i))))
    if es.any fun e => e.1 != s.fuses.device && !(members.any fun a => a.1 == e.1 && bitAt a.2 1) then .fail tLodging
    else match s.recording q with
      | some i => record s i
      | none => match (List.range 256).find? fun i => used / 2 ^ i % 2 == 0 with
        | none => .fail tMemExhausted
        | some i => record (s.collRecord c.lodging i n b es) i
/-- COLLECTIVE_MAKE. -/
def State.collectiveMake (s : State) (q : Req) (c : Call) : CallEnd :=
  match c.cap with
  | none => .fail tShape
  | some cap =>
    if capKind cap ≠ 1 ∨ !capHas cap pLoad ∨ (capAddr cap).toNat % 16 ≠ 0 ∨ !capInBounds cap (capAddr cap).toNat 16 then .fail tShape
    else match s.callRead q c cap 0 16 with
      | .wait t => .wait t
      | .fail k => .fail k
      | .ok h =>
        let f := fun o n => natOfBytes ((h.drop o).take n)
        let (m, n, b) := (f 0 4, f 4 4, f 8 4)
        if f 12 4 ≠ 0 ∨ m = 0 ∨ 256 < m ∨ n = 0 ∨ 256 < n ∨ b = 0 ∨ 2 ^ 24 < b ∨ !capInBounds cap (capAddr cap).toNat (16 + 16 * m) then .fail tShape
        else match s.collEntries q c cap (List.range m) with
          | .wait t => .wait t
          | .fail k => .fail k
          | .ok es => s.collMade q c n b es
/-- The collective that a capability names, when it is the caller's and live (R447). -/
def State.collOf (s : State) (c : Call) : Option Nat :=
  match c.cap with
  | some q =>
    let i := numAt (capAddr q) 0 8
    if capKind q = 6 ∧ numAt (capAddr q) 48 4 = 13 ∧ (mapGet s.colls i).live ∧ (mapGet s.colls i).lodging = c.lodging then some i else none
  | none => none
/-- COLLECTIVE_ARM and COLLECTIVE_FREE: on every device of the lodging. -/
def State.collectiveDo (s : State) (q : Req) (c : Call) (op : Nat) (f : State → Nat → State) : CallEnd :=
  match s.collOf c with
  | some i => (match s.tells q c ((s.peers c.lodging).map fun d => (d, .coll 0 op i 0 0 [])) with
    | .wait t => .wait t
    | _ => .done (f s i) (dataValue 0))
  | none => .fail tShape
/-- WINDOW_FREE: done once the STN.INV of the space has completed. -/
def State.windowFree (s : State) (q : Req) (c : Call) : CallEnd :=
  let n := c.num 0 2
  let d := s.space n
  let a : ActId := { (deviceAct c.steward) with slot := 98 }
  if !s.windows.contains n ∨ d.type ≠ 2 ∨ d.lodging ≠ c.lodging then .fail tShape
  else match s.reqs.find? fun p => p.act == a && p.block == BitVec.ofNat 64 q.id with
    | none => .wait (s.issue a 0 0 (BitVec.ofNat 64 q.id) 0 (.stnInv n 0 (2 ^ 64)) .queued)
    | some p => if p.stage.isDone then .done (s.freeSpace n) (dataValue 0) else .wait s
/-- LODGING_INFO. -/
def State.lodgingInfo (s : State) (c : Call) : CallEnd :=
  let l := s.lodging c.lodging
  .done s (dataValue (BitVec.ofNat 512 (c.lodging + bit1 l.system * 2 ^ 8 + l.computeCores * 2 ^ 16 + (l.map.length - l.computeCores) * 2 ^ 32
    + l.x * 2 ^ 48 + l.y * 2 ^ 64 + l.w * 2 ^ 80 + l.h * 2 ^ 96 + s.fuses.device * 2 ^ 112)))
/-- The functions of R447, by number and by who may call them. -/
def State.call (s : State) (q : Req) (c : Call) : CallEnd :=
  if c.version ≠ 1 ∨ !c.zero then .fail tShape
  else match c.fn with
    | 1 => s.engineGrant c
    | 2 => if c.host then .fail tShape else s.queueOffer c
    | 3 => s.queueAccept c
    | 4 => if c.host then .fail tShape else s.peerQueueGrant q c
    | 5 => if c.host then .fail tShape else s.collectiveMake q c
    | 6 => if c.host then .fail tShape else s.collectiveDo q c 2 State.collArm
    | 7 => if c.host then .fail tShape else s.collectiveDo q c 3 State.collFree
    | 8 => if c.host then s.windowFree q c else .fail tShape
    | 9 => s.lodgingInfo c
    | _ => .fail tShape
/-- What a serving activity finds where its call is kept. -/
inductive CallRead where
  | ok (c : Call) (arg : Cap)
  | fail (code : Nat)
  | wait
/-- The call block that an argument names in the S of the caller, whose claim this is (R446): SHAPE where it is no such capability. An
uncorrectable error in it breaks the claim (log 19). -/
def State.callBlock (s : State) (steward lodging : Nat) (claim : Word) (g0 : V512) (g0cap : Bool) : CallRead :=
  let a : Cap := g0.truncate 128
  let off := addrOff (capAddr a)
  if !g0cap || capKind a != 5 || !capHas a pLoad || !capHas a pLoadCap || (capAddr a).toNat % 64 != 0 || !capInBounds a (capAddr a).toNat 64
    || addrCore (capAddr a) != claimCore claim then .fail tShape
  else if (s.lodging lodging).out then .wait
  else match s.router lodging (addrCore (capAddr a)) with
    | some r =>
      let n := fun o k => s.sByte r (off + o) k
      if s.lotAway r .s off 64 then .wait
      else if (s.core r).s.bad off 64 then .fail tUncorrectable
      else .ok { lodging := lodging, host := false, session := 0, seq := 0, steward := steward, fn := n 0 2, version := n 2 2, zero := n 4 12 == 0,
                 arg := BitVec.ofNat 256 (n 32 32), cap := if mapGet (s.core r).s.tags (off / 16 + 1) then some (BitVec.ofNat 128 (n 16 16)) else none } a
    | none => .fail tShape
/-- The claim that an activity holds for its caller. -/
def Slot.callerClaim (x : Slot) : Word := ((x.obs.list.find? fun o => !o.isCount).map fun o => o.object).getD 0
/-- The call that an activity serves: of an activity, by its argument, which its call record keeps for the new image (R449); or of the host, by
its request. A host request that has been answered is none. -/
def State.callFor (s : State) (r k call : Nat) : CallRead :=
  let x := s.slot r k
  let g := mapGet x.regs 0
  if call = 1 then
    (if x.kind = 4 then s.callBlock r x.serve.toNat x.callerClaim g.bits (g.tag == .cap)
     else s.callBlock r x.serve.toNat x.callerClaim (bitsAt g.bits 192 512) true)
  else match s.req (call - 2) with
    | some { eff := .inlet session seq _ p, .. } =>
      .ok { lodging := x.serve.toNat, host := true, session := session, seq := seq, steward := r, fn := numAt p 0 16, version := numAt p 16 16,
            zero := true, arg := bitsAt p 64 256, cap := none } (BitVec.ofNat 128 (numAt p 32 32))
    | _ => .fail tShape
/-- The call record (R445), from its first byte on: version, function, call id, claim, and what is the function's own: progress, and state, of which
the model has bytes 24 to 39 keep the argument (log 19). -/
def callRecord (image : W32) (c : Call) (claim : Word) (arg : Cap) (own : V512) : List Byte :=
  bytesOf 2 (Config.recordVersion image) ++ bytesOf 2 (BitVec.ofNat 16 c.fn) ++ bytesOf 4 (BitVec.ofNat 32 (if c.host then arg.toNat else 0)) ++ bytesOf 8 claim
    ++ bytesOf 8 (bitsAt own 0 64) ++ bytesOf 16 (if c.host then (0 : Cap) else arg) ++ bytesOf 24 (bitsAt own 64 192)
/-- The serving activity brings its call record up to date (R445). -/
def State.keepRecord (s : State) (r k : Nat) (c : Call) (arg : Cap) : State :=
  let x := s.slot r k
  if x.sRun.count = 0 then s else s.storeS r (1024 * x.sRun.start) (callRecord x.image c x.callerClaim arg (Config.freeUnit s.tick))
/-- A host's call is answered with a status entry (R405, R444). -/
def State.inletDone (s : State) (id session seq kind outcome launch result : Nat) : State :=
  (s.dropReq id).statusEntry session seq kind outcome launch result
/-- A call ends: the caller's claim resolves or breaks, entries given with the call break with its code, or with SHAPE (R253), or the host is answered;
and the activity ends. -/
def State.callEnds (s : State) (q : Req) (r k call : Nat) (v : Value) (code : Nat) : State :=
  let x := s.slot r k
  let code8 := BitVec.ofNat 8 code
  let given := x.obs.list.filter fun o => o.object != x.callerClaim || o.isCount
  let s := s.updSlot r k fun y => { y with obs := default }
  let s := if call = 1 then s.issue (deviceAct r) x.serve.toNat x.launch 0 0 (.settle x.callerClaim v code8 2) .queued
    else match s.req (call - 2) with
      | some { id, eff := .inlet session seq kind _, .. } => s.inletDone id session seq kind 0 0 (if code = 0 then 256 * v.bits.toNat else code)
      | _ => s
  let s := s.breakObs (deviceAct r) x.serve.toNat x.launch 0 (if code = 0 then BitVec.ofNat 8 tShape else code8) given
  (s.endActivity r k).answer q.id .ack
/-- The activity that serves a call acts (R444 to R446, log 19): after its waits before an admission (R248, R269) it reads the call, keeps its record,
and does what the function asks; the call waits, as its request, for a page or a peer. -/
def State.serveCall (s : State) (q : Req) (r k gen call : Nat) : State :=
  let x := s.slot r k
  if !x.live || x.gen != gen then s.answer q.id .ack
  else if !s.runs r k || !s.mayAdmit x then s
  else match s.callFor r k call with
    | .wait => s
    | .fail code => s.callEnds q r k call (dataValue 0) code
    | .ok c arg =>
      match (s.keepRecord r k c arg).call q c with
      | .done t v => t.callEnds q r k call v 0
      | .fail code => (s.keepRecord r k c arg).callEnds q r k call (dataValue 0) code
      | .wait t => t

end Sys2Proof.Machine
end

