-- ==== Sys2Proof/Machine/Arrive.lean ====
section
/-! DEFINITION. What arrives at a core: discharges, bindings, invocations, settlements, messages and starts, and what is sent or asked
again (R254 to R263, R275, R283 to R285, R324 to R327, R347, R416). -/

namespace Sys2Proof.Machine

/-- A request at its home in a core's S store: the router and the offset. -/
def Req.atCore (q : Req) : Option (Nat × Nat) := match q.stage with | .ready (.loc r _ off) => some (r, off) | _ => none
/-- The sender by whose order a home takes requests: an activity here, or a core of a peer (R259, R262, R414). -/
def Req.sender (q : Req) : ActId × Option (Nat × Nat) := match q.eff with | .peer device core _ => (default, some (device, core)) | _ => (q.act, none)
/-- An earlier request of the sender for which `f` holds has not been taken by its home. -/
def State.preceded (s : State) (q : Req) (f : Req → Bool) : Bool :=
  (s.reqs.takeWhile fun p => p.id != q.id).any fun p => p.sender == q.sender && !p.stage.isDone && f p
/-- The lodging's end, when it is under way, breaks what arrives (R355). -/
def State.endingCode (s : State) (lodging : Nat) : Option Byte := let l := s.lodging lodging; if l.ending = 0 then none else some l.ending
/-- The interval at which a core sends or asks again (R255, R263, R284, R325). -/
def again : Nat := 1024
def Req.due (q : Req) (s : State) : Bool := q.since.toNat + again ≤ s.cycle.toNat

/-! ## Messages dropped (R334) -/

/-- The logical core that a message-plane request is for. -/
def Eff.toLogical : Eff → Option Nat
  | .message _ m _ => some m.toCore
  | .discharge c .. | .bind c _ => some (addrCore c)
  | .settle n .. | .invokec n _ => some (claimCore n)
  | .spawn _ st | .invoke _ st => some st.toCore
  | _ => none
/-- A message is dropped on its way (R334): the stewards hear of it, event 14 counts it at the destination core, and what it carries is broken
with LODGING; a SENDW's register carries that code (DESIGN CHOICE, log 65). The place that a SEND had reserved is free again (R267). -/
def State.dropMessage (s : State) (q : Req) (r : Nat) : State :=
  let at' := (s.unlistedOn q.act.core r q.lodging q.lodging).getD r
  let logical := (q.eff.toLogical).getD (s.core r).logicalNo
  let s := (s.serviceRec 1 at' q.lodging (logical + r * 2 ^ 16) q.act.core).count r 14 1
  let s := s.breakObs (deviceAct q.act.core) q.lodging q.launch q.block (BitVec.ofNat 8 tLodging) q.eff.obs
  let s := match q.eff with
    | .message (.queue _ off owner) _ none =>
      if (s.core r).lodging = owner ∧ q.act.slot ≠ 99 then s.updCore r fun c => { c with places := mapUpd c.places off (· - 1) } else s
    | _ => s
  s.answer q.id (if q.eff.lands then .fail (BitVec.ofNat 8 tLodging) (BitVec.ofNat 64 logical) 0 else .ack)
/-- A message of a lodging finds the router it was sent to, or one on its way there, no longer the lodging's (R334). -/
def State.strays (s : State) (q : Req) (r : Nat) : Bool :=
  q.lodging != 0 && ((s.core r).lodging != q.lodging || ((s.core q.act.core).lodging == q.lodging && !s.routeListed q.act.core r q.lodging q.lodging))

/-! ## Counters (R254, R261, R275, R327) -/

/-- COUNTER_DISCHARGE (R261): the home applies a discharge. -/
def execCounterDischarge (req : Nat) (s : State) : Out :=
  match s.req req with
  | some q =>
    match q.eff, q.atCore with
    | .discharge _ n _ broken, some (r, off) =>
      if s.overlapped q || s.barred q then .next s
      else .next (if s.strays q r then s.dropMessage q r else (s.discharge r off n broken).answer req .ack)
    | _, _ => .next s
  | none => .next s
/-- Fired counters and bound queues take free places in the order in which counters reached zero and entries arrived (R327). -/
def State.retry (s : State) (r : Nat) : Nat → State
  | 0 => s
  | n + 1 =>
    if (s.core r).ringFree 2 then match s.firstRetry r with
      | some (_, off, false) => (s.placeCounter r off).retry r n
      | some (_, off, true) => (s.runHandlers r off 1).retry r n
      | none => s
    else s
/-- HANDLER_RETRY (R327): freed places go to fired counters and bound queues, and then to the arrival list. -/
def execHandlerRetry (core : Nat) (s : State) : Out := .next ((s.retry core 512).admitArrivals core 16)
/-- A bind at the counter's home (R275). -/
def State.bind (s : State) (r off : Nat) (b : Binding) : State :=
  let w := s.sByte r off 8
  let s := s.putS r off 8 (ctrWord (ctrRank w) (ctrScope w) false (ctrFired w) (ctrBroken w) true (ctrLeft w))
  let s := s.putS r (off + 8) 8 (capAddr b.entry).toNat
  let s := s.updCore r fun c => { c with binds := mapUpd c.binds off fun y => b.keep y }
  let s := s.landCounter r off
  if ctrLeft w = 0 then s.counterZero r off else s
/-- BIND_ARRIVAL (R254, R275): a bind that finds the counter bound breaks its escrow with SHAPE. -/
def execBindArrival (req : Nat) (s : State) : Out :=
  match s.req req with
  | some q =>
    match q.eff, q.atCore with
    | .bind _ b, some (r, off) =>
      let brk := fun (code : Byte) => ((s.breakObs (deviceAct r) q.lodging q.launch q.block code b.escrow).answer req .ack).dropRun r b
      if s.overlapped q || s.barred q then .next s
      else if s.strays q r then .next (s.dropMessage q r)
      else (match s.endingCode q.lodging with
       | some code => .next (brk code)
       | none => if ctrBound (s.sByte r off 8) then .next (brk (BitVec.ofNat 8 tShape)) else .next ((s.bind r off b).answer req .ack))
    | _, _ => .next s
  | none => .next s

/-! ## Claims (R255, R256, R258, R259) -/

/-- The invocation that a peer sends (R416). -/
def peerInvocation (lodging : Nat) (d : V512) (word new : Word) (rank : Nat) (obs : List (Bool × Word × Nat × Nat)) : Invocation :=
  { (default : Invocation) with arg := d, word := word, claim := new, rank := rank, lodging := lodging,
                                obs := obs.map fun o => { held := true, isCount := o.1, object := o.2.1, rank := o.2.2.1, mult := o.2.2.2 } }
/-- An invocation on its way, and the claim that it names. -/
def Req.invocation (q : Req) : Option (Word × Invocation) :=
  match q.eff with
  | .invokec n i => some (n, i)
  | .peer _ _ (.invoke _ n d word new rank obs) => some (n, peerInvocation q.lodging d word new rank obs)
  | _ => none
/-- Order at a claim (R259): its home's own forwarding first, then the commit order of the activity. -/
def State.invocationHeld (s : State) (q : Req) (n : Word) (r : Nat) : Bool :=
  let names := fun (p : Req) => match p.invocation with | some (m, _) => m == n | none => false
  s.preceded q names || (q.act != deviceAct r && s.reqs.any fun p => p.act == deviceAct r && !p.stage.isDone && names p)
/-- An invocation meets its target claim (R258). `at'`: the request that goes on holding it while its descriptor is read; 0 for none. -/
def State.invocation (s : State) (r lodging : Nat) (n : Word) (i : Invocation) (at' : Nat) (failed : Byte) : State :=
  match s.endingCode i.lodging, s.claimHome lodging n with
  | some code, _ => s.breakInvocation r i code
  | none, none => s.breakInvocation r i (BitVec.ofNat 8 tPerm)
  | none, some (q, k) =>
    let x := mapGet (s.core q).claims k
    if failed ≠ 0 then s.breakInvocation r i failed
    else if x.state = 1 then s.updCore q fun c => { c with claims := mapUpd c.claims k fun y => { y with invs := y.invs ++ [i] } }
    else s.forward q k x i at'
/-- The claim has a place reserved for the invocation: an activity's has one (R267); a peer's may find a free one instead (R255, R416). What a
peer's brings needs escrow records too (R254); it waits for them (log 69). A claim that is gone needs none: the invocation breaks (R278). -/
def State.hasInvocationPlace (s : State) (q : Req) (r : Nat) (n : Word) (i : Invocation) : Bool :=
  match q.eff, s.claimHome q.lodging n with
  | .peer .., some (_, k) =>
    let x := mapGet (s.core r).claims k
    let records := (s.core r).claims.foldl (fun m e => m + e.2.invs.length + e.2.reserved) 0
    x.state != 1 || ((0 < x.reserved || (x.invs.length < 8 && records < 64)) && s.escrowUsed default q.lodging r + i.obs.length ≤ 64)
  | _, _ => true
/-- INVOCATION_ARRIVAL (R258, R259). What a home holds itself, while it reads a descriptor, stays with its request until that is read. -/
def execInvocationArrival (req : Nat) (s : State) : Out :=
  match s.req req with
  | some q =>
    match q.invocation, q.atCore with
    | some (n, i), some (r, _) =>
      let own := match q.eff with | .invokec .. => q.act.slot == 99 | _ => false
      if s.invocationHeld q n r || s.barred q then .next s
      else if !own && s.strays q r then .next (s.dropMessage q r)
      else if !own && !s.hasInvocationPlace q r n i then .next s
      else if !own then .next (((s.answer req .ack).freeClaimPlace q.lodging n).invocation r q.lodging n i 0 0)
      else
        let t := s.invocation r q.lodging n i req q.failed
        .next (if t.reading r (.req req) then t else t.answer req .ack)
    | _, _ => .next s
  | none => .next s
/-- A settlement on its way: claim, value and code (0 for a fulfilment). -/
def Req.settlement (q : Req) : Option (Word × Value × Byte) :=
  match q.eff with
  | .settle n v code _ => some (n, v, code)
  | .peer _ _ (.settle _ n code d) => some (n, dataValue d, code)
  | _ => none
/-- A settlement that has reached its claim's home is applied and acknowledged. -/
def State.settles (s : State) (req : Nat) (broken : Bool) : State :=
  match s.req req with
  | some q =>
    match q.settlement, q.atCore with
    | some (n, v, code), some (r, _) =>
      if (code != 0) != broken || s.barred q then s else if s.strays q r then s.dropMessage q r else (s.settle q.lodging n v code).answer req .ack
    | _, _ => s
  | none => s
/-- CLAIM_FULFILMENT (R256): PENDING becomes RESOLVED. -/
def execClaimFulfilment (req : Nat) (s : State) : Out := .next (s.settles req false)
/-- CLAIM_BREAK (R256): PENDING becomes BROKEN with the code. -/
def execClaimBreak (req : Nat) (s : State) : Out := .next (s.settles req true)

/-! ## Queues (R283, R284, R347, R418) -/

/-- The queue that a request's message names. -/
def Req.dest (q : Req) : Option QDest := match q.eff with | .message d _ _ => some d | _ => none
/-- The queue, or the collective and its relay, that a peer's message names: logical core, offset, collective plus one. -/
def Req.peerDest (q : Req) : Option (Nat × Nat × Nat) := match q.eff with | .peer _ _ (.message _ _ _ c off coll ..) => some (c, off, coll) | _ => none
/-- A SENDW at its queue (R284). -/
def State.sendwArrives (s : State) (q : Req) (r off : Nat) (m : Msg) : State :=
  let waiting := mapGet (s.core r).sendws off
  if qBad (s.sByte r off 8) then s.answer q.id (.fail (BitVec.ofNat 8 tShape) (localAddr (s.core r).logicalNo off) 0)
  else if waiting.isEmpty && s.qFree r off then
    let p := s.qPush r off m
    (p.1.answer q.id (.val (dataScalar (BitVec.ofNat 64 p.2)) (qRank (s.sByte r off 8)))).serveQueue r off 64
  else if waiting.length < 16 then
    (s.updCore r fun c => { c with sendws := mapSet c.sendws off (waiting ++ [q.id]) }).setStage q.id .waiting
  else s.updReq q.id fun p => { p with stage := .buffered, since := s.cycle }
/-- A SEND at its queue: it takes the place reserved for it (R267, R283); a message of Oxkan takes a free one (log 19). -/
def State.sendArrives (s : State) (q : Req) (r off : Nat) (m : Msg) : State :=
  if q.act.slot = 99 then (match s.tryDeliver r off m with | some s' => s'.answer q.id .ack | none => s)
  else
    let s := s.updCore r fun c => { c with places := mapUpd c.places off (· - 1) }
    if qBad (s.sByte r off 8) then (s.count r 14 1).answer q.id .ack else (s.deliver r off m).answer q.id .ack
/-- A SEND of a peer takes the place that it has asked for, or a free one; a message of the peer's Oxkan takes a free one (R267, R416). -/
def State.peerSend (s : State) (q : Req) (r off : Nat) (m : Msg) : State :=
  if 0 < mapGet (s.core r).places off && m.core != 0xFFF then s.sendArrives q r off m
  else match s.tryDeliver r off m with | some s' => s'.answer q.id .ack | none => s
/-- The contributor of a collective's entry: a router of this device, or a core of a peer. -/
def Req.contributor (q : Req) : Option Nat × Nat := match q.eff with | .peer device core _ => (some device, core) | _ => (none, q.act.core)
/-- An entry of a collective is staged at its relay, which holds 2 of each contributor (R418). `k` is its number among the contributor's messages
through the collective. -/
def State.stageEntry (s : State) (q : Req) (r n k : Nat) (m : Msg) : State :=
  if 2 ≤ ((s.core r).staged.filter fun e => e.1 == n && (s.req e.2.2.1).map Req.contributor == some q.contributor).length then s
  else (s.updCore r fun c => { c with staged := c.staged ++ [(n, k, q.id, m)] }).setStage q.id .waiting
/-- Block indices that go to relay `j` of a collective (R418). -/
def Coll.indices (c : Coll) (j : Nat) : Nat := (c.blocks - j + c.relays.length - 1) / c.relays.length
/-- A peer's entry with block index `i` is staged: its relay tells its round by the entries that the contributor has sent it (R414, R418). -/
def State.stagePeer (s : State) (q : Req) (device core r n i : Nat) (m : Msg) : State :=
  let c := mapGet s.colls n
  let j := i % c.relays.length
  let key := j + 256 * (core + 4096 * device)
  let t := s.stageEntry q r n (mapGet c.came key / c.indices j * c.blocks + i) m
  if (t.core r).staged.length = (s.core r).staged.length then t else { t with colls := mapUpd t.colls n fun c => { c with came := mapUpd c.came key (· + 1) } }
/-- QUEUE_MESSAGE_ARRIVAL (R283, R284, R333, R334, R347, R416, R418). -/
def execQueueMessageArrival (req : Nat) (s : State) : Out :=
  match s.req req with
  | some q =>
    match q.eff, q.atCore with
    | .message (.queue _ off owner) m reg, some (r, _) =>
      if s.barred q || s.messageHeld q || s.preceded q fun p => p.dest == q.dest && (p.stage != .waiting || reg.isNone) then .next s
      else if (s.lodging owner).out && reg.isSome then .next (s.updReq req fun p => { p with stage := .buffered, since := s.cycle })
      else if (s.lodging owner).out || (s.core r).lodging != owner || (q.act.slot != 99 && !s.routeListed q.act.core r q.lodging owner) then .next (s.dropMessage q r)
      else .next (if reg.isSome then s.sendwArrives q r off m else s.sendArrives q r off m)
    | .message (.coll n k) m _, some (r, _) =>
      let before := fun (p : Req) => match p.dest with | some (.coll n' _) => n' == n && p.stage != .waiting && p.atCore.map Prod.fst == some r | _ => false
      if s.barred q || s.messageHeld q || s.preceded q before then .next s
      else .next (s.stageEntry q r n k m)
    | .peer device core (.message _ waits cap logical off coll i d), some (r, _) =>
      let m : Msg := { data := d, cap := cap, core := core, lodging := q.lodging, toCore := logical }
      if s.barred q || s.preceded q fun p => p.peerDest == q.peerDest && (p.stage != .waiting || (coll == 0 && !waits)) then .next s
      else if coll ≠ 0 then .next (s.stagePeer q device core r (coll - 1) i m)
      else .next (if waits then s.sendwArrives q r off m else s.peerSend q r off m)
    | _, _ => .next s
  | none => .next s
/-- A request that its core keeps goes to its home again. -/
def State.sendAgain (s : State) (q : Req) : State :=
  match s.homeOf q with | some p => s.updReq q.id fun x => { x with stage := .ready p, since := s.cycle } | none => s
/-- SENDW_RESEND (R284, R347). -/
def execSendwResend (req : Nat) (s : State) : Out :=
  match s.req req with
  | some q =>
    match q.eff with
    | .message (.queue ..) _ (some _) | .peer _ _ (.message _ true ..) => if q.stage == .buffered && q.due s then .next (s.sendAgain q) else .next s
    | _ => .next s
  | none => .next s

/-! ## Waits that were answered pending (R255, R263) -/

/-- What a waiting request waits for, when it is a claim, a counter or a queue: kind, object, whether a status. -/
def Req.waitsFor (q : Req) : Option (Nat × Word × Bool) :=
  match q.eff, q.stage with
  | .waitObj _ st kind o, .waiting => if kind = 5 then none else some (kind, o, st)
  | .peer _ _ (.wait _ st o), .waiting => some (8, o, st)
  | _, _ => none
/-- The waiter has a record at its object. -/
def State.recorded (s : State) (q : Req) (kind : Nat) (o : Word) : Bool :=
  if kind = 8 then (match s.claimHome q.lodging o with | some (r, i) => (mapGet (s.core r).claims i).waiters.contains q.id | none => false)
  else match s.router q.lodging (addrCore o) with | some r => (mapGet (s.core r).waiters (addrOff o)).contains q.id | none => false
/-- The core's earlier waits for the object that were answered pending ask first. -/
def State.asksBefore (s : State) (q : Req) (kind : Nat) (o : Word) : Bool :=
  (s.reqs.takeWhile fun p => p.id != q.id).any fun p => p.act.core == q.act.core && p.since.toNat ≤ q.since.toNat
    && (match p.waitsFor with | some (k, o', _) => k == kind && o' == o && !s.recorded p k o' | none => false)
/-- Asks an object again. -/
def State.poll (s : State) (req : Nat) (claims : Bool) : State :=
  match s.req req with
  | some q => match q.waitsFor with
    | some (kind, o, st) =>
      if (kind == 8) == claims && q.due s && !s.barred q && !s.recorded q kind o && !s.asksBefore q kind o then s.performWait q st kind o else s
    | none => s
  | none => s
/-- CLAIM_WAITER_POLL (R255). -/
def execClaimWaiterPoll (req : Nat) (s : State) : Out := .next (s.poll req true)
/-- OBJECT_WAITER_POLL (R263). -/
def execObjectWaiterPoll (req : Nat) (s : State) : Out := .next (s.poll req false)

/-! ## Starts (R287, R325, R446) -/

/-- The start that a request brings to a core. -/
def Req.start (q : Req) : Option (Nat × Start) := match q.eff with | .spawn r st => some (r, st) | .invoke r st => some (r, st) | _ => none
/-- A start reaches its core. -/
def State.startArrives (s : State) (q : Req) (r : Nat) (st : Start) : State :=
  match s.endingCode st.lodging with
  | some code => (s.answer q.id .ack).breakStart r code st
  | none =>
    let (s', ok) := s.arrive r st
    if ok then s'.answer q.id .ack else s.updReq q.id fun p => { p with stage := .buffered, since := s.cycle }
/-- START_ARRIVAL (R325): a start reaches its core, in the commit order of its sender's starts to that core. -/
def execStartArrival (req : Nat) (s : State) : Out :=
  match s.req req with
  | some q =>
    match q.start, q.atCore with
    | some (r, st), some _ =>
      if s.barred q || s.preceded q fun p => (match p.start with | some (r', _) => r' == r | none => false) then .next s
      else if st.call = 0 ∧ s.strays q r then .next (s.dropMessage q r)
      else .next (s.startArrives q r st)
    | _, _ => .next s
  | none => .next s
/-- ARRIVAL_RESEND (R325). -/
def execArrivalResend (req : Nat) (s : State) : Out :=
  match s.req req with
  | some q => if q.start.isSome && q.stage == .buffered && q.due s then .next (s.sendAgain q) else .next s
  | none => .next s

end Sys2Proof.Machine
end

