-- ==== Sys2Proof/Machine/Transc.lean ====
section
/-! DEFINITION. Correctly rounded transcendental operations (R185, R204 to R206): an interval around the exact result
is narrowed until both ends round to the same code (log 14). -/

namespace Sys2Proof.Machine

/-- Fixed-point numbers: an integer times 2^-p. -/
abbrev Fix := Int

/-- ln 2 at precision `p`, from below, within `p + 4` units. -/
def ln2Fix (p : Nat) : Fix :=
  ((List.range (p + 2)).foldl (fun s k => s + 2 ^ (p + 8) / ((k + 1) * 2 ^ (k + 1))) 0 / 2 ^ 8 : Nat)

/-- Terms x^k / k! of the exponential, for a fixed-point x in [0, 1). -/
def expTerms (p : Nat) (x : Nat) : Nat → Nat → Nat → Nat → Nat
  | 0, _, _, acc => acc
  | fuel + 1, k, term, acc =>
    if term = 0 then acc else expTerms p x fuel (k + 1) (term * x / 2 ^ p / k) (acc + term)

/-- exp of a fixed-point x in [0, 1), from below, within 4p units. -/
def expFix (p x : Nat) : Nat := expTerms p x (p + 4) 1 (2 ^ p) 0

/-- Alternating terms of arctan(1/n), at precision `p`. -/
def atanInvTerms (n2 : Nat) : Nat → Nat → Nat → Bool → Int → Int
  | 0, _, _, _, acc => acc
  | fuel + 1, k, pow, minus, acc =>
    if pow = 0 then acc
    else atanInvTerms n2 fuel (k + 2) (pow / n2) (!minus) (if minus then acc - (pow / k : Nat) else acc + (pow / k : Nat))

def atanInv (p n : Nat) : Int := atanInvTerms (n * n) (p + 4) 1 (2 ^ p / n) false 0

/-- π at precision `p` (Machin), within 2^8 × p units before the guard bits go. -/
def piFix (p : Nat) : Int := (16 * atanInv (p + 32) 5 - 4 * atanInv (p + 32) 239) / 2 ^ 32

/-- Terms of 2·atanh z = Σ 2 z^(2k+1) / (2k+1), for a fixed-point z ≥ 0. -/
def atanhTerms (p z2 : Nat) : Nat → Nat → Nat → Nat → Nat
  | 0, _, _, acc => acc
  | fuel + 1, k, pow, acc =>
    if pow = 0 then acc else atanhTerms p z2 fuel (k + 2) (pow * z2 / 2 ^ p) (acc + 2 * pow / k)

/-- Terms of sin and cos for a fixed-point x in [0, 1): start term, first divisor. -/
def trigTerms (p x2 : Nat) : Nat → Nat → Nat → Bool → Int → Int
  | 0, _, _, _, acc => acc
  | fuel + 1, k, term, minus, acc =>
    if term = 0 then acc
    else trigTerms p x2 fuel (k + 2) (term * x2 / 2 ^ p / (k * (k + 1))) (!minus) (if minus then acc - term else acc + term)

def sinFix (p x : Nat) : Int := trigTerms p (x * x / 2 ^ p) (p + 4) 2 x false 0
def cosFix (p x : Nat) : Int := trigTerms p (x * x / 2 ^ p) (p + 4) 1 (2 ^ p) false 0

/-- An exact dyadic as a fixed-point number at precision `p`, rounded down. -/
def Ex.fix (x : Ex) (p : Nat) : Int :=
  let v : Int := if 0 ≤ x.e + p then (x.m * 2 ^ (x.e + p).toNat : Nat) else (x.m / 2 ^ (-(x.e + p)).toNat : Nat)
  if x.neg then -v else v

/-- The ends of an interval around a positive fixed-point approximation with error below `err` units; both sticky. -/
def around (neg : Bool) (a : Int) (err : Nat) (e : Int) : Ex × Ex :=
  ({ neg := neg, m := (a - err).toNat, e := e, sticky := true }, { neg := neg, m := (a + err).toNat, e := e, sticky := true })

/-- 2^x for a dyadic x that is no integer, as an interval with about `p` significant bits. -/
def exp2Bounds (x : Ex) (p : Nat) : Ex × Ex :=
  let big := Nat.log2 x.m + 1
  if (20 : Int) < x.e + big then
    let e : Int := if x.neg then -2000000 else 2000000
    ({ neg := false, m := 2 ^ 200, e := e, sticky := true }, { neg := false, m := 2 ^ 200, e := e, sticky := true })
  else if x.e + big < -((p : Int) + 8) then
    -- so close to 1 that the unit of the approximation decides
    if x.neg then ({ neg := false, m := 2 ^ (p + 4) - 1, e := -((p : Int) + 4), sticky := true }, { neg := false, m := 2 ^ (p + 4) - 1, e := -((p : Int) + 4), sticky := true })
    else ({ neg := false, m := 2 ^ (p + 4), e := -((p : Int) + 4), sticky := true }, { neg := false, m := 2 ^ (p + 4), e := -((p : Int) + 4), sticky := true })
  else
    let g := p + 24
    let fx := x.fix g
    let n := fx / 2 ^ g
    let r := fx % 2 ^ g
    let y := (r * ln2Fix g / 2 ^ g).toNat
    around false (expFix g y) (16 * g) (n - g)

/-- ln of a fixed-point ratio through atanh: 2·atanh((a − b) / (a + b)) at precision `p`, for a ≥ b. -/
def lnRatio (p a b : Nat) : Nat :=
  let z := (a - b) * 2 ^ p / (a + b)
  atanhTerms p (z * z / 2 ^ p) (p + 4) 1 z 0

/-- log2 of a positive dyadic that is no power of two. -/
def log2Bounds (x : Ex) (p : Nat) : Ex × Ex :=
  let l := Nat.log2 x.m
  let up := 3 * 2 ^ l ≤ 2 * x.m
  let n : Int := x.e + l + (if up then 1 else 0)
  let one := if up then 2 ^ (l + 1) else 2 ^ l
  let g := 2 * p + 64 + l
  -- log2 x = n ± ln(ratio) / ln 2
  let lr := if up then lnRatio g one x.m else lnRatio g x.m one
  let q : Int := (lr : Int) * 2 ^ g / ln2Fix g
  let v : Int := n * 2 ^ g + (if up then -q else q)
  around (v < 0) v.natAbs (16 * g) (-(g : Int))

/-- Divides the ends of two positive intervals. -/
def divBounds (a b : Ex × Ex) : Ex × Ex :=
  ({ (Ex.div a.1 b.2) with sticky := true }, { (Ex.div a.2 b.1) with sticky := true })

/-- tanh of a nonzero dyadic. -/
def tanhBounds (x : Ex) (p : Nat) : Ex × Ex :=
  let top := x.e + Nat.log2 x.m
  if top < -(p : Int) then
    ({ neg := x.neg, m := x.m * 2 ^ (p + p / 2) - 1, e := x.e - (p + p / 2 : Nat), sticky := true },
     { neg := x.neg, m := x.m * 2 ^ (p + p / 2) - 1, e := x.e - (p + p / 2 : Nat), sticky := true })
  else if (20 : Int) < top ∨ ((p : Int) < 2 ^ top.toNat ∧ 0 ≤ top) then
    ({ neg := x.neg, m := 2 ^ p - 1, e := -(p : Int), sticky := true }, { neg := x.neg, m := 2 ^ p - 1, e := -(p : Int), sticky := true })
  else
    -- (2^y − 1) / (2^y + 1) with y = 2x / ln 2, in fixed point
    let g := 3 * p + 64
    let ax := (x.fix g).natAbs
    let y : Int := 2 * (ax : Int) * 2 ^ g / ln2Fix g
    let n := (y / 2 ^ g).toNat
    let r := (y % 2 ^ g * ln2Fix g / 2 ^ g).toNat
    let ey : Int := (expFix g r * 2 ^ n : Nat)
    let err := 64 * g * 2 ^ n * (n + 2)
    let num := around false (ey - 2 ^ g) err (-(g : Int))
    let den := around false (ey + 2 ^ g) err (-(g : Int))
    let q := divBounds num den
    ({ q.1 with neg := x.neg }, { q.2 with neg := x.neg })

/-- sin (or cos) of a nonzero dyadic. -/
def trigBounds (cos : Bool) (x : Ex) (p : Nat) : Ex × Ex :=
  let top := x.e + Nat.log2 x.m
  if top < -(p : Int) then
    if cos then ({ neg := false, m := 2 ^ p - 1, e := -(p : Int), sticky := true }, { neg := false, m := 2 ^ p - 1, e := -(p : Int), sticky := true })
    else
      ({ neg := x.neg, m := x.m * 2 ^ (p + p / 2) - 1, e := x.e - (p + p / 2 : Nat), sticky := true },
       { neg := x.neg, m := x.m * 2 ^ (p + p / 2) - 1, e := x.e - (p + p / 2 : Nat), sticky := true })
  else
    let g := 2 * p + 64 + (if 0 ≤ top then top.toNat else 0)
    let ax : Int := ((x.fix (g + 8)).natAbs : Nat)
    let half := piFix (g + 8)               -- π / 2 at one bit less
    let u := ax * 2
    let n := u / half
    let r : Nat := ((u % half) / 2).toNat / 2 ^ 8
    -- r lies in [0, π/2): halve it once so that the series runs below 1
    let h := r / 2
    let sh := sinFix g h
    let ch := cosFix g h
    let quad := (if cos then n + 1 else n) % 4
    let s2 := 2 * sh * ch / 2 ^ g
    let c2 := (ch * ch - sh * sh) / 2 ^ g
    let v := if quad = 0 then s2 else if quad = 1 then c2 else if quad = 2 then -s2 else -c2
    let err := 2 ^ 12 * g * (if 0 ≤ top then top.toNat + 1 else 1)
    let neg := if cos then v < 0 else (v < 0) != x.neg
    around neg v.natAbs err (-(g : Int))

/-- Rounds a result known by intervals: the precision doubles until both ends round to one code (log 14). -/
def Fmt.roundBounds (f : Fmt) (mode draw : Nat) (b : Nat → Ex × Ex) : Nat → Nat → Nat × List Nat
  | 0, p => f.round mode draw .plain (b p).1
  | fuel + 1, p =>
    let (lo, hi) := b p
    let x := f.round mode draw .plain lo
    let y := f.round mode draw .plain hi
    if x = y then x else f.roundBounds mode draw b fuel (2 * p)

/-- 2^x of a finite dyadic: exact for an integer x (R185). -/
def Fmt.exp2 (f : Fmt) (mode draw : Nat) (x : Ex) : Nat × List Nat :=
  if x.m = 0 then f.round mode draw .plain { neg := false, m := 1, e := 0 }
  else if (20 : Int) < x.e + Nat.log2 x.m then f.roundBounds mode draw (exp2Bounds x) 1 160
  else
    let i := x.at (if x.e ≤ 0 then x.e else 0)
    let u : Int := if x.e ≤ 0 then 2 ^ (-x.e).toNat else 1
    if i % u = 0 then f.round mode draw .plain { neg := false, m := 1, e := i / u }
    else f.roundBounds mode draw (exp2Bounds x) 5 160

/-- The operations VEXP2 to VCOS of R185, by xop. -/
def Fmt.transc (f : Fmt) (op mode draw : Nat) (a : FNum) : Nat × List Nat :=
  let one := f.round 1 0 .plain { neg := false, m := 1, e := 0 }
  match a with
  | .nan s => (f.nan, if s then [evInvalid] else [])
  | .inf neg =>
    match op with
    | 11 => (if neg then 0 else f.infCode, [])
    | 12 => if neg then (f.nan, [evInvalid]) else (f.infCode, [])
    | 13 => (f.sign neg one.1, [])
    | _ => (f.nan, [evInvalid])
  | .fin neg m e =>
    let x : Ex := { neg := neg, m := m, e := e }
    match op with
    | 11 => f.exp2 mode draw x
    | 12 =>
      if m = 0 then (f.sign true f.infCode, [evDivZero])
      else if neg then (f.nan, [evInvalid])
      else if m = 2 ^ Nat.log2 m then
        let n : Int := e + Nat.log2 m
        if n = 0 then (0, []) else f.round mode draw .plain (Ex.ofInt n 0)
      else f.roundBounds mode draw (log2Bounds x) 5 160
    | 13 => if m = 0 then (f.sign neg 0, []) else f.roundBounds mode draw (tanhBounds x) 5 160
    | 14 => if m = 0 then (f.sign neg 0, []) else f.roundBounds mode draw (trigBounds false x) 5 160
    | _ => if m = 0 then one else f.roundBounds mode draw (trigBounds true x) 5 160

end Sys2Proof.Machine
end

