-- ==== Sys2Proof/Machine/VecFloat.lean ====
section
/-! DEFINITION. The vector unit: elements and lanes (R180 to R183), the floating and integer families, fused multiply-add, compares, select, conversions, permutes and reductions (R185 to R195). -/

namespace Sys2Proof.Machine

/-- Element `k` of width `w` (R180). -/
def Value.elem (v : Value) (w k : Nat) : Nat := numAt v.bits (w * k) w
/-- Whether element `k` of width `w` is not null under a validity mask (R180). -/
def elemOk (valid : BitVec 16) (w k : Nat) : Bool :=
  if w = 64 then bitAt valid (2 * k) && bitAt valid (2 * k + 1) else bitAt valid (k * w / 32)
/-- Elements of width `w` packed from position 0, the rest zero. -/
def ofElems (w : Nat) (es : List Nat) : V512 := BitVec.ofNat 512 (es.foldr (fun e n => e % 2 ^ w + 2 ^ w * n) 0)
/-- Lanes no null element of the first `n` is written into (R180, R191). -/
def lanesOf (w n : Nat) (ok : Nat → Bool) : BitVec 16 :=
  maskOf fun l => (List.range n).all fun k => ok k || (if w = 64 then k != l / 2 else k * w / 32 != l)
/-- The draw of an element in mode SR; 0 in the other modes, which take none. -/
def Ctx.drawIn (c : Ctx) (mode k : Nat) : Nat := if mode = 5 then c.draw k else 0

/-- An element-wise operation: `n` elements of width `ws` of each operand give `n` elements of width `wd` (R180, R191). The
tag follows R181. An element raises its events where its result lanes are valid (R179). -/
def Ctx.mapEl (c : Ctx) (vs : List Value) (ws wd n : Nat) (f : Nat → List Nat → Nat × List Nat) : Except Trap Fired :=
  let valid := fun (v : Value) => if ws = wd then v.valid &&& c.mask else v.valid
  let ok := fun k => vs.all fun v => elemOk (valid v) ws k
  let rs := (List.range n).map fun k => if ok k then f k (vs.map fun v => v.elem ws k) else (0, [])
  let out := lanesOf wd n ok &&& c.mask
  let evs := ((List.range n).zip rs).map fun x => if elemOk out wd x.1 then x.2.2 else []
  c.value { bits := ofElems wd (rs.map Prod.fst), valid := out, tag := brokenOf vs, null := false } evs.flatten

/-- A one- or two-operand operation of a floating family (R185). -/
def Ctx.vf1 (c : Ctx) (f : Fmt) (op : Nat → Nat → FNum → Nat × List Nat) : Except Trap Fired :=
  c.mapEl [c.l] f.w f.w (512 / f.w) fun k xs => op c.mode (c.drawIn c.mode k) (f.decode (xs[0]?.getD 0))
def Ctx.vf2 (c : Ctx) (f : Fmt) (op : Nat → Nat → FNum → FNum → Nat × List Nat) : Except Trap Fired :=
  c.mapEl [c.l, c.r] f.w f.w (512 / f.w) fun k xs =>
    op c.mode (c.drawIn c.mode k) (f.decode (xs[0]?.getD 0)) (f.decode (xs[1]?.getD 0))
/-- The same on codes, for operations without rounding. -/
def Ctx.vc1 (c : Ctx) (f : Fmt) (op : Nat → Nat × List Nat) : Except Trap Fired :=
  c.mapEl [c.l] f.w f.w (512 / f.w) fun _ xs => op (xs[0]?.getD 0)
def Ctx.vc2 (c : Ctx) (f : Fmt) (op : Nat → Nat → Nat × List Nat) : Except Trap Fired :=
  c.mapEl [c.l, c.r] f.w f.w (512 / f.w) fun _ xs => op (xs[0]?.getD 0) (xs[1]?.getD 0)

/-- f32 or f64; f16 or bf16 (R108). -/
def fmtOf (w : BitVec 1) : Fmt := if w = 1 then f64 else f32
def fmt16 (w : BitVec 1) : Fmt := if w = 1 then bf16 else f16
/-- The types of the VFMA family (R109). -/
def fmt4 (w : BitVec 2) : Fmt := if w = 0 then f32 else if w = 1 then f64 else if w = 2 then f16 else bf16

/-- The canonical NaN for NaN operands, invalid for a signalling one (R163); none when no operand is NaN. -/
def Fmt.nanOf (f : Fmt) (xs : List FNum) : Option (Nat × List Nat) := if xs.any FNum.isNan then some (f.nan, snanEv xs) else none
/-- a × b (R185). -/
def Fmt.mulNum (f : Fmt) (mode draw : Nat) (a b : FNum) : Nat × List Nat :=
  match f.nanOf [a, b] with
  | some r => r
  | none =>
    let neg := a.isNeg != b.isNeg
    if (a.isInf && b.isZero) || (a.isZero && b.isInf) then (f.nan, [evInvalid])
    else if a.isInf || b.isInf then (f.sign neg f.infCode, [])
    else f.round mode draw .plain (Ex.mul a.ex b.ex)
/-- a ÷ b (R185). -/
def Fmt.divNum (f : Fmt) (mode draw : Nat) (a b : FNum) : Nat × List Nat :=
  match f.nanOf [a, b] with
  | some r => r
  | none =>
    let neg := a.isNeg != b.isNeg
    if (a.isInf && b.isInf) || (a.isZero && b.isZero) then (f.nan, [evInvalid])
    else if a.isInf then (f.sign neg f.infCode, [])
    else if b.isInf then (f.sign neg 0, [])
    else if b.isZero then (f.sign neg f.infCode, [evDivZero])
    else f.round mode draw .plain (Ex.div a.ex b.ex)
def oneNum : FNum := .fin false 1 0
/-- √a (R185). -/
def Fmt.sqrtNum (f : Fmt) (mode draw : Nat) (a : FNum) : Nat × List Nat :=
  match f.nanOf [a] with
  | some r => r
  | none =>
    if a.isZero then (f.sign a.isNeg 0, [])
    else if a.isNeg then (f.nan, [evInvalid])
    else if a.isInf then (f.infCode, [])
    else f.round mode draw .plain (Ex.sqrt a.ex)
/-- 1 ÷ √a (R185). -/
def Fmt.rsqNum (f : Fmt) (mode draw : Nat) (a : FNum) : Nat × List Nat :=
  match f.nanOf [a] with
  | some r => r
  | none =>
    if a.isZero then (f.sign a.isNeg f.infCode, [evDivZero])
    else if a.isNeg then (f.nan, [evInvalid])
    else if a.isInf then (0, [])
    else f.round mode draw .plain (Ex.rsqrt a.ex)
/-- An integral value in a mode: 4 floors, 3 ceils (R185). -/
def Fmt.integral (f : Fmt) (mode draw code : Nat) : Nat × List Nat :=
  match f.decode code with
  | .nan s => (f.nan, if s then [evInvalid] else [])
  | .inf _ => (code, [])
  | .fin neg m e =>
    if 0 ≤ e ∨ m = 0 then (code, [])
    else
      let (k, half, frac, exact) := unitsOf { neg := neg, m := m, e := e } 0
      let n := if !exact && roundsUp mode neg half frac (k % 2 == 0) draw then k + 1 else k
      ((f.round 2 0 .plain { neg := neg, m := n, e := 0 }).1, [])
/-- The class mask of R186. -/
def Fmt.classOf (f : Fmt) (code : Nat) : Nat :=
  match f.decode code with
  | .nan s => if s then 2 ^ 8 else 2 ^ 9
  | .inf neg => if neg then 1 else 2 ^ 7
  | .fin neg m _ =>
    if m = 0 then (if neg then 2 ^ 3 else 2 ^ 4)
    else if m < 2 ^ f.p then (if neg then 2 ^ 2 else 2 ^ 5)
    else if neg then 2 else 2 ^ 6
/-- Sign operations of VABS and VNEG: NaN payloads kept (R162). -/
def Fmt.absCode (f : Fmt) (x : Nat) : Nat := x % 2 ^ (f.w - 1)
def Fmt.negCode (f : Fmt) (x : Nat) : Nat := if x / 2 ^ (f.w - 1) = 0 then x + 2 ^ (f.w - 1) else x - 2 ^ (f.w - 1)

/-- VADD.f32 (R185). Elementwise floating add, f32 or f64. -/
def execVadd (w : BitVec 1) (pr : BitVec 2) (t1 : BitVec 9) (t0 : BitVec 9) (s : State) : Out :=
  s.fire (tForm .vadd pr 2 t1 t0) plainNull fun c => c.vf2 (fmtOf w) (fun m d a b => (fmtOf w).addNum m d a b)

/-- VSUB.f32 (R185). Elementwise floating subtract. -/
def execVsub (w : BitVec 1) (pr : BitVec 2) (t1 : BitVec 9) (t0 : BitVec 9) (s : State) : Out :=
  s.fire (tForm .vsub pr 2 t1 t0) plainNull fun c => c.vf2 (fmtOf w) (fun m d a b => (fmtOf w).addNum m d a b.neg)

/-- VMUL.f32 (R185). Elementwise floating multiply. -/
def execVmul (w : BitVec 1) (pr : BitVec 2) (t1 : BitVec 9) (t0 : BitVec 9) (s : State) : Out :=
  s.fire (tForm .vmul pr 2 t1 t0) plainNull fun c => c.vf2 (fmtOf w) (fmtOf w).mulNum

/-- VDIV.f32 (R185). Elementwise floating divide. -/
def execVdiv (w : BitVec 1) (pr : BitVec 2) (t1 : BitVec 9) (t0 : BitVec 9) (s : State) : Out :=
  s.fire (tForm .vdiv pr 2 t1 t0) plainNull fun c => c.vf2 (fmtOf w) (fmtOf w).divNum

/-- VMIN.f32 (R185). Elementwise minimumNumber. -/
def execVmin (w : BitVec 1) (pr : BitVec 2) (t1 : BitVec 9) (t0 : BitVec 9) (s : State) : Out :=
  s.fire (tForm .vmin pr 2 t1 t0) plainNull fun c => c.vc2 (fmtOf w) ((fmtOf w).minMax false)

/-- VMAX.f32 (R185). Elementwise maximumNumber. -/
def execVmax (w : BitVec 1) (pr : BitVec 2) (t1 : BitVec 9) (t0 : BitVec 9) (s : State) : Out :=
  s.fire (tForm .vmax pr 2 t1 t0) plainNull fun c => c.vc2 (fmtOf w) ((fmtOf w).minMax true)

/-- VABS.f32 (R185). Clears each element's sign bit. -/
def execVabs (w : BitVec 1) (pr : BitVec 2) (t1 : BitVec 9) (t0 : BitVec 9) (s : State) : Out :=
  s.fire (tForm .vabs pr 1 t1 t0) plainNull fun c => c.vc1 (fmtOf w) (fun x => ((fmtOf w).absCode x, []))

/-- VNEG.f32 (R185). Inverts each element's sign bit. -/
def execVneg (w : BitVec 1) (pr : BitVec 2) (t1 : BitVec 9) (t0 : BitVec 9) (s : State) : Out :=
  s.fire (tForm .vneg pr 1 t1 t0) plainNull fun c => c.vc1 (fmtOf w) (fun x => ((fmtOf w).negCode x, []))

/-- VSQRT.f32 (R185). Elementwise square root. -/
def execVsqrt (w : BitVec 1) (pr : BitVec 2) (t1 : BitVec 9) (t0 : BitVec 9) (s : State) : Out :=
  s.fire (tForm .vsqrt pr 1 t1 t0) plainNull fun c => c.vf1 (fmtOf w) (fmtOf w).sqrtNum

/-- VRCP.f32 (R185). Elementwise reciprocal. -/
def execVrcp (w : BitVec 1) (pr : BitVec 2) (t1 : BitVec 9) (t0 : BitVec 9) (s : State) : Out :=
  s.fire (tForm .vrcp pr 1 t1 t0) plainNull fun c => c.vf1 (fmtOf w) (fun m d a => (fmtOf w).divNum m d oneNum a)

/-- VRSQ.f32 (R185). Elementwise reciprocal square root. -/
def execVrsq (w : BitVec 1) (pr : BitVec 2) (t1 : BitVec 9) (t0 : BitVec 9) (s : State) : Out :=
  s.fire (tForm .vrsq pr 1 t1 t0) plainNull fun c => c.vf1 (fmtOf w) (fmtOf w).rsqNum

/-- VEXP2.f32 (R185). Elementwise power of two. -/
def execVexp2 (w : BitVec 1) (pr : BitVec 2) (t1 : BitVec 9) (t0 : BitVec 9) (s : State) : Out :=
  s.fire (tForm .vexp2 pr 1 t1 t0) plainNull fun c => c.vf1 (fmtOf w) ((fmtOf w).transc 11)

/-- VLOG2.f32 (R185). Elementwise base-2 logarithm. -/
def execVlog2 (w : BitVec 1) (pr : BitVec 2) (t1 : BitVec 9) (t0 : BitVec 9) (s : State) : Out :=
  s.fire (tForm .vlog2 pr 1 t1 t0) plainNull fun c => c.vf1 (fmtOf w) ((fmtOf w).transc 12)

/-- VTANH.f32 (R185). Elementwise hyperbolic tangent. -/
def execVtanh (w : BitVec 1) (pr : BitVec 2) (t1 : BitVec 9) (t0 : BitVec 9) (s : State) : Out :=
  s.fire (tForm .vtanh pr 1 t1 t0) plainNull fun c => c.vf1 (fmtOf w) ((fmtOf w).transc 13)

/-- VSIN.f32 (R185). Elementwise sine. -/
def execVsin (w : BitVec 1) (pr : BitVec 2) (t1 : BitVec 9) (t0 : BitVec 9) (s : State) : Out :=
  s.fire (tForm .vsin pr 1 t1 t0) plainNull fun c => c.vf1 (fmtOf w) ((fmtOf w).transc 14)

/-- VCOS.f32 (R185). Elementwise cosine. -/
def execVcos (w : BitVec 1) (pr : BitVec 2) (t1 : BitVec 9) (t0 : BitVec 9) (s : State) : Out :=
  s.fire (tForm .vcos pr 1 t1 t0) plainNull fun c => c.vf1 (fmtOf w) ((fmtOf w).transc 15)

/-- VFLOOR.f32 (R185). Elementwise floor. -/
def execVfloor (w : BitVec 1) (pr : BitVec 2) (t1 : BitVec 9) (t0 : BitVec 9) (s : State) : Out :=
  s.fire (tForm .vfloor pr 1 t1 t0) plainNull fun c => c.vc1 (fmtOf w) ((fmtOf w).integral 4 0)

/-- VCEIL.f32 (R185). Elementwise ceiling. -/
def execVceil (w : BitVec 1) (pr : BitVec 2) (t1 : BitVec 9) (t0 : BitVec 9) (s : State) : Out :=
  s.fire (tForm .vceil pr 1 t1 t0) plainNull fun c => c.vc1 (fmtOf w) ((fmtOf w).integral 3 0)

/-- VRINT.f32 (R185). Rounds each element to an integral value in the effective mode. -/
def execVrint (w : BitVec 1) (pr : BitVec 2) (t1 : BitVec 9) (t0 : BitVec 9) (s : State) : Out :=
  s.fire (tForm .vrint pr 1 t1 t0) plainNull fun c => let f := fmtOf w
    c.mapEl [c.l] f.w f.w (512 / f.w) fun k xs => f.integral c.mode (c.drawIn c.mode k) (xs[0]?.getD 0)

/-- VCLASS.f32 (R186). Writes a one-hot class mask per element. -/
def execVclass (w : BitVec 1) (pr : BitVec 2) (t1 : BitVec 9) (t0 : BitVec 9) (s : State) : Out :=
  s.fire (tForm .vclass pr 1 t1 t0) plainNull fun c => c.vc1 (fmtOf w) (fun x => ((fmtOf w).classOf x, []))

/-- VADD.f16 (R185). Elementwise add on f16 or bf16. -/
def execVaddF16 (pr : BitVec 2) (w : BitVec 1) (t1 : BitVec 9) (t0 : BitVec 9) (s : State) : Out :=
  s.fire (tForm .vaddF16 pr 2 t1 t0) plainNull fun c => c.vf2 (fmt16 w) (fun m d a b => (fmt16 w).addNum m d a b)

/-- VSUB.f16 (R185). Elementwise subtract on f16 or bf16. -/
def execVsubF16 (pr : BitVec 2) (w : BitVec 1) (t1 : BitVec 9) (t0 : BitVec 9) (s : State) : Out :=
  s.fire (tForm .vsubF16 pr 2 t1 t0) plainNull fun c => c.vf2 (fmt16 w) (fun m d a b => (fmt16 w).addNum m d a b.neg)

/-- VMUL.f16 (R185). Elementwise multiply on f16 or bf16. -/
def execVmulF16 (pr : BitVec 2) (w : BitVec 1) (t1 : BitVec 9) (t0 : BitVec 9) (s : State) : Out :=
  s.fire (tForm .vmulF16 pr 2 t1 t0) plainNull fun c => c.vf2 (fmt16 w) (fmt16 w).mulNum

/-- VDIV.f16 (R185). Elementwise divide on f16 or bf16. -/
def execVdivF16 (pr : BitVec 2) (w : BitVec 1) (t1 : BitVec 9) (t0 : BitVec 9) (s : State) : Out :=
  s.fire (tForm .vdivF16 pr 2 t1 t0) plainNull fun c => c.vf2 (fmt16 w) (fmt16 w).divNum

/-- VMIN.f16 (R185). Elementwise minimumNumber on f16 or bf16. -/
def execVminF16 (pr : BitVec 2) (w : BitVec 1) (t1 : BitVec 9) (t0 : BitVec 9) (s : State) : Out :=
  s.fire (tForm .vminF16 pr 2 t1 t0) plainNull fun c => c.vc2 (fmt16 w) ((fmt16 w).minMax false)

/-- VMAX.f16 (R185). Elementwise maximumNumber on f16 or bf16. -/
def execVmaxF16 (pr : BitVec 2) (w : BitVec 1) (t1 : BitVec 9) (t0 : BitVec 9) (s : State) : Out :=
  s.fire (tForm .vmaxF16 pr 2 t1 t0) plainNull fun c => c.vc2 (fmt16 w) ((fmt16 w).minMax true)

/-- VABS.f16 (R185). Clears sign bits of f16 or bf16 elements. -/
def execVabsF16 (pr : BitVec 2) (w : BitVec 1) (t1 : BitVec 9) (t0 : BitVec 9) (s : State) : Out :=
  s.fire (tForm .vabsF16 pr 1 t1 t0) plainNull fun c => c.vc1 (fmt16 w) (fun x => ((fmt16 w).absCode x, []))

/-- VNEG.f16 (R185). Inverts sign bits of f16 or bf16 elements. -/
def execVnegF16 (pr : BitVec 2) (w : BitVec 1) (t1 : BitVec 9) (t0 : BitVec 9) (s : State) : Out :=
  s.fire (tForm .vnegF16 pr 1 t1 t0) plainNull fun c => c.vc1 (fmt16 w) (fun x => ((fmt16 w).negCode x, []))

/-- VSQRT.f16 (R185). Elementwise square root on f16 or bf16. -/
def execVsqrtF16 (pr : BitVec 2) (w : BitVec 1) (t1 : BitVec 9) (t0 : BitVec 9) (s : State) : Out :=
  s.fire (tForm .vsqrtF16 pr 1 t1 t0) plainNull fun c => c.vf1 (fmt16 w) (fmt16 w).sqrtNum

/-- VRCP.f16 (R185). Elementwise reciprocal on f16 or bf16. -/
def execVrcpF16 (pr : BitVec 2) (w : BitVec 1) (t1 : BitVec 9) (t0 : BitVec 9) (s : State) : Out :=
  s.fire (tForm .vrcpF16 pr 1 t1 t0) plainNull fun c => c.vf1 (fmt16 w) (fun m d a => (fmt16 w).divNum m d oneNum a)

/-- VRSQ.f16 (R185). Elementwise reciprocal square root on f16 or bf16. -/
def execVrsqF16 (pr : BitVec 2) (w : BitVec 1) (t1 : BitVec 9) (t0 : BitVec 9) (s : State) : Out :=
  s.fire (tForm .vrsqF16 pr 1 t1 t0) plainNull fun c => c.vf1 (fmt16 w) (fmt16 w).rsqNum

/-- VEXP2.f16 (R185). Elementwise power of two on f16 or bf16. -/
def execVexp2F16 (pr : BitVec 2) (w : BitVec 1) (t1 : BitVec 9) (t0 : BitVec 9) (s : State) : Out :=
  s.fire (tForm .vexp2F16 pr 1 t1 t0) plainNull fun c => c.vf1 (fmt16 w) ((fmt16 w).transc 11)

/-- VLOG2.f16 (R185). Elementwise base-2 logarithm on f16 or bf16. -/
def execVlog2F16 (pr : BitVec 2) (w : BitVec 1) (t1 : BitVec 9) (t0 : BitVec 9) (s : State) : Out :=
  s.fire (tForm .vlog2F16 pr 1 t1 t0) plainNull fun c => c.vf1 (fmt16 w) ((fmt16 w).transc 12)

/-- VTANH.f16 (R185). Elementwise tanh on f16 or bf16. -/
def execVtanhF16 (pr : BitVec 2) (w : BitVec 1) (t1 : BitVec 9) (t0 : BitVec 9) (s : State) : Out :=
  s.fire (tForm .vtanhF16 pr 1 t1 t0) plainNull fun c => c.vf1 (fmt16 w) ((fmt16 w).transc 13)

/-- VSIN.f16 (R185). Elementwise sine on f16 or bf16. -/
def execVsinF16 (pr : BitVec 2) (w : BitVec 1) (t1 : BitVec 9) (t0 : BitVec 9) (s : State) : Out :=
  s.fire (tForm .vsinF16 pr 1 t1 t0) plainNull fun c => c.vf1 (fmt16 w) ((fmt16 w).transc 14)

/-- VCOS.f16 (R185). Elementwise cosine on f16 or bf16. -/
def execVcosF16 (pr : BitVec 2) (w : BitVec 1) (t1 : BitVec 9) (t0 : BitVec 9) (s : State) : Out :=
  s.fire (tForm .vcosF16 pr 1 t1 t0) plainNull fun c => c.vf1 (fmt16 w) ((fmt16 w).transc 15)


end Sys2Proof.Machine
end

