-- ==== Sys2Proof/Machine/VecInt.lean ====
section
/-! DEFINITION. Vector integer families, fused multiply-add, compares, select and conversions (R187 to R191). -/

namespace Sys2Proof.Machine

/-- An element as a number, signed or natural. -/
def elemInt (nat : Bool) (w x : Nat) : Int := if nat then x else (BitVec.ofNat w x).toInt
/-- An integer operation with an exact result (R187). -/
def Ctx.viExact (c : Ctx) (nat : Bool) (w : Nat) (vs : List Value) (f : Int → Int → Int) : Except Trap Fired :=
  c.mapEl vs w w (512 / w) fun _ xs =>
    let x := f (elemInt nat w (xs[0]?.getD 0)) (elemInt nat w (xs[1]?.getD 0))
    let r := if nat then satNatural c.sat w x else satSigned c.sat w x
    (r.1, clampEv r.2)
/-- One on the bits (R187). -/
def Ctx.viBits (c : Ctx) (w : Nat) (f : Nat → Nat → Nat) : Except Trap Fired :=
  c.mapEl [c.l, c.r] w w (512 / w) fun _ xs => (f (xs[0]?.getD 0) (xs[1]?.getD 0), [])
/-- VMULH (R187). -/
def mulHigh (nat : Bool) (w x y : Nat) : Nat := ((elemInt nat w x * elemInt nat w y / 2 ^ w) % 2 ^ w).toNat
/-- a × 2^c with c the low log2 w bits of b; the exact result under saturation (R187). -/
def Ctx.viShl (c : Ctx) (nat : Bool) (w : Nat) : Except Trap Fired :=
  c.mapEl [c.l, c.r] w w (512 / w) fun _ xs =>
    let x := elemInt nat w (xs[0]?.getD 0) * 2 ^ ((xs[1]?.getD 0) % w)
    let r := if nat then satNatural c.sat w x else satSigned c.sat w x
    (r.1, clampEv r.2)
/-- 8 or 16 bits (R108). -/
def width16 (w : BitVec 1) : Nat := if w = 1 then 8 else 16

/-- VADD.i32 (R187). 32-bit integer vector add. -/
def execVaddI32 (pr : BitVec 2) (n : BitVec 1) (t1 : BitVec 9) (t0 : BitVec 9) (s : State) : Out :=
  s.fire (tForm .vaddI32 pr 2 t1 t0) plainNull fun c => c.viExact (n == 1) 32 [c.l, c.r] (fun a b => a + b)

/-- VSUB.i32 (R187). 32-bit integer vector subtract. -/
def execVsubI32 (pr : BitVec 2) (n : BitVec 1) (t1 : BitVec 9) (t0 : BitVec 9) (s : State) : Out :=
  s.fire (tForm .vsubI32 pr 2 t1 t0) plainNull fun c => c.viExact (n == 1) 32 [c.l, c.r] (fun a b => a - b)

/-- VMUL.i32 (R187). 32-bit integer vector multiply, low half. -/
def execVmulI32 (pr : BitVec 2) (n : BitVec 1) (t1 : BitVec 9) (t0 : BitVec 9) (s : State) : Out :=
  s.fire (tForm .vmulI32 pr 2 t1 t0) plainNull fun c => c.viExact (n == 1) 32 [c.l, c.r] (fun a b => a * b)

/-- VMULH.i32 (R187). 32-bit integer vector multiply, high half. -/
def execVmulhI32 (pr : BitVec 2) (n : BitVec 1) (t1 : BitVec 9) (t0 : BitVec 9) (s : State) : Out :=
  s.fire (tForm .vmulhI32 pr 2 t1 t0) plainNull fun c => c.viBits 32 (mulHigh (n == 1) 32)

/-- VMIN.i32 (R187). 32-bit integer vector minimum. -/
def execVminI32 (pr : BitVec 2) (n : BitVec 1) (t1 : BitVec 9) (t0 : BitVec 9) (s : State) : Out :=
  s.fire (tForm .vminI32 pr 2 t1 t0) plainNull fun c => c.viBits 32 (fun x y => if elemInt (n == 1) 32 x ≤ elemInt (n == 1) 32 y then x else y)

/-- VMAX.i32 (R187). 32-bit integer vector maximum. -/
def execVmaxI32 (pr : BitVec 2) (n : BitVec 1) (t1 : BitVec 9) (t0 : BitVec 9) (s : State) : Out :=
  s.fire (tForm .vmaxI32 pr 2 t1 t0) plainNull fun c => c.viBits 32 (fun x y => if elemInt (n == 1) 32 x ≤ elemInt (n == 1) 32 y then y else x)

/-- VABS.i32 (R187). 32-bit integer vector absolute value. -/
def execVabsI32 (pr : BitVec 2) (t1 : BitVec 9) (t0 : BitVec 9) (s : State) : Out :=
  s.fire (tForm .vabsI32 pr 1 t1 t0) plainNull fun c => c.viExact false 32 [c.l] (fun a _ => (a.natAbs : Int))

/-- VNEG.i32 (R187). 32-bit integer vector negate. -/
def execVnegI32 (pr : BitVec 2) (t1 : BitVec 9) (t0 : BitVec 9) (s : State) : Out :=
  s.fire (tForm .vnegI32 pr 1 t1 t0) plainNull fun c => c.viExact false 32 [c.l] (fun a _ => -a)

/-- VAND.i32 (R187). 32-bit vector AND. -/
def execVandI32 (pr : BitVec 2) (t1 : BitVec 9) (t0 : BitVec 9) (s : State) : Out :=
  s.fire (tForm .vandI32 pr 2 t1 t0) plainNull fun c => c.viBits 32 (fun x y => x &&& y)

/-- VOR.i32 (R187). 32-bit vector OR. -/
def execVorI32 (pr : BitVec 2) (t1 : BitVec 9) (t0 : BitVec 9) (s : State) : Out :=
  s.fire (tForm .vorI32 pr 2 t1 t0) plainNull fun c => c.viBits 32 (fun x y => x ||| y)

/-- VXOR.i32 (R187). 32-bit vector XOR. -/
def execVxorI32 (pr : BitVec 2) (t1 : BitVec 9) (t0 : BitVec 9) (s : State) : Out :=
  s.fire (tForm .vxorI32 pr 2 t1 t0) plainNull fun c => c.viBits 32 (fun x y => x ^^^ y)

/-- VSHL.i32 (R187). 32-bit vector shift left. -/
def execVshlI32 (pr : BitVec 2) (n : BitVec 1) (t1 : BitVec 9) (t0 : BitVec 9) (s : State) : Out :=
  s.fire (tForm .vshlI32 pr 2 t1 t0) plainNull fun c => c.viShl (n == 1) 32

/-- VSHR.i32 (R187). 32-bit vector logical shift right. -/
def execVshrI32 (pr : BitVec 2) (t1 : BitVec 9) (t0 : BitVec 9) (s : State) : Out :=
  s.fire (tForm .vshrI32 pr 2 t1 t0) plainNull fun c => c.viBits 32 (fun x y => x / 2 ^ (y % 32))

/-- VSRA.i32 (R187). 32-bit vector arithmetic shift right. -/
def execVsraI32 (pr : BitVec 2) (t1 : BitVec 9) (t0 : BitVec 9) (s : State) : Out :=
  s.fire (tForm .vsraI32 pr 2 t1 t0) plainNull fun c => c.viBits 32 (fun x y => ((elemInt false 32 x / 2 ^ (y % 32)) % 2 ^ 32).toNat)

/-- VADD.i16 (R187). 16- or 8-bit integer vector add. -/
def execVaddI16 (w : BitVec 1) (pr : BitVec 2) (n : BitVec 1) (t1 : BitVec 9) (t0 : BitVec 9) (s : State) : Out :=
  s.fire (tForm .vaddI16 pr 2 t1 t0) plainNull fun c => c.viExact (n == 1) (width16 w) [c.l, c.r] (fun a b => a + b)

/-- VSUB.i16 (R187). 16- or 8-bit integer vector subtract. -/
def execVsubI16 (w : BitVec 1) (pr : BitVec 2) (n : BitVec 1) (t1 : BitVec 9) (t0 : BitVec 9) (s : State) : Out :=
  s.fire (tForm .vsubI16 pr 2 t1 t0) plainNull fun c => c.viExact (n == 1) (width16 w) [c.l, c.r] (fun a b => a - b)

/-- VMUL.i16 (R187). 16- or 8-bit integer vector multiply, low half. -/
def execVmulI16 (w : BitVec 1) (pr : BitVec 2) (n : BitVec 1) (t1 : BitVec 9) (t0 : BitVec 9) (s : State) : Out :=
  s.fire (tForm .vmulI16 pr 2 t1 t0) plainNull fun c => c.viExact (n == 1) (width16 w) [c.l, c.r] (fun a b => a * b)

/-- VMULH.i16 (R187). 16- or 8-bit integer vector multiply, high half. -/
def execVmulhI16 (w : BitVec 1) (pr : BitVec 2) (n : BitVec 1) (t1 : BitVec 9) (t0 : BitVec 9) (s : State) : Out :=
  s.fire (tForm .vmulhI16 pr 2 t1 t0) plainNull fun c => c.viBits (width16 w) (mulHigh (n == 1) (width16 w))

/-- VMIN.i16 (R187). 16- or 8-bit integer vector minimum. -/
def execVminI16 (w : BitVec 1) (pr : BitVec 2) (n : BitVec 1) (t1 : BitVec 9) (t0 : BitVec 9) (s : State) : Out :=
  s.fire (tForm .vminI16 pr 2 t1 t0) plainNull fun c => c.viBits (width16 w) (fun x y => if elemInt (n == 1) (width16 w) x ≤ elemInt (n == 1) (width16 w) y then x else y)

/-- VMAX.i16 (R187). 16- or 8-bit integer vector maximum. -/
def execVmaxI16 (w : BitVec 1) (pr : BitVec 2) (n : BitVec 1) (t1 : BitVec 9) (t0 : BitVec 9) (s : State) : Out :=
  s.fire (tForm .vmaxI16 pr 2 t1 t0) plainNull fun c => c.viBits (width16 w) (fun x y => if elemInt (n == 1) (width16 w) x ≤ elemInt (n == 1) (width16 w) y then y else x)

/-- VABS.i16 (R187). 16- or 8-bit integer vector absolute value. -/
def execVabsI16 (w : BitVec 1) (pr : BitVec 2) (t1 : BitVec 9) (t0 : BitVec 9) (s : State) : Out :=
  s.fire (tForm .vabsI16 pr 1 t1 t0) plainNull fun c => c.viExact false (width16 w) [c.l] (fun a _ => (a.natAbs : Int))

/-- VNEG.i16 (R187). 16- or 8-bit integer vector negate. -/
def execVnegI16 (w : BitVec 1) (pr : BitVec 2) (t1 : BitVec 9) (t0 : BitVec 9) (s : State) : Out :=
  s.fire (tForm .vnegI16 pr 1 t1 t0) plainNull fun c => c.viExact false (width16 w) [c.l] (fun a _ => -a)

/-- VAND.i16 (R187). 16- or 8-bit vector AND. -/
def execVandI16 (w : BitVec 1) (pr : BitVec 2) (t1 : BitVec 9) (t0 : BitVec 9) (s : State) : Out :=
  s.fire (tForm .vandI16 pr 2 t1 t0) plainNull fun c => c.viBits (width16 w) (fun x y => x &&& y)

/-- VOR.i16 (R187). 16- or 8-bit vector OR. -/
def execVorI16 (w : BitVec 1) (pr : BitVec 2) (t1 : BitVec 9) (t0 : BitVec 9) (s : State) : Out :=
  s.fire (tForm .vorI16 pr 2 t1 t0) plainNull fun c => c.viBits (width16 w) (fun x y => x ||| y)

/-- VXOR.i16 (R187). 16- or 8-bit vector XOR. -/
def execVxorI16 (w : BitVec 1) (pr : BitVec 2) (t1 : BitVec 9) (t0 : BitVec 9) (s : State) : Out :=
  s.fire (tForm .vxorI16 pr 2 t1 t0) plainNull fun c => c.viBits (width16 w) (fun x y => x ^^^ y)

/-- VSHL.i16 (R187). 16- or 8-bit vector shift left. -/
def execVshlI16 (w : BitVec 1) (pr : BitVec 2) (n : BitVec 1) (t1 : BitVec 9) (t0 : BitVec 9) (s : State) : Out :=
  s.fire (tForm .vshlI16 pr 2 t1 t0) plainNull fun c => c.viShl (n == 1) (width16 w)

/-- VSHR.i16 (R187). 16- or 8-bit vector logical shift right. -/
def execVshrI16 (w : BitVec 1) (pr : BitVec 2) (t1 : BitVec 9) (t0 : BitVec 9) (s : State) : Out :=
  s.fire (tForm .vshrI16 pr 2 t1 t0) plainNull fun c => c.viBits (width16 w) (fun x y => x / 2 ^ (y % (width16 w)))

/-- VSRA.i16 (R187). 16- or 8-bit vector arithmetic shift right. -/
def execVsraI16 (w : BitVec 1) (pr : BitVec 2) (t1 : BitVec 9) (t0 : BitVec 9) (s : State) : Out :=
  s.fire (tForm .vsraI16 pr 2 t1 t0) plainNull fun c => c.viBits (width16 w) (fun x y => ((elemInt false (width16 w) x / 2 ^ (y % (width16 w))) % 2 ^ (width16 w)).toNat)

/-- An operation of the VFMA family (R188). -/
def Ctx.fmaEl (c : Ctx) (f : Fmt) (negProd negAdd : Bool) : Except Trap Fired :=
  c.mapEl [c.l, c.r, c.t] f.w f.w (512 / f.w) fun k xs =>
    f.fma c.mode (c.drawIn c.mode k) (f.decode (xs[0]?.getD 0)) (f.decode (xs[1]?.getD 0)) (f.decode (xs[2]?.getD 0)) negProd negAdd

/-- VFMA (R188). Fused a×b+c, rounded once. -/
def execVfma (pr : BitVec 2) (w : BitVec 2) (t1 : BitVec 9) (t0 : BitVec 9) (s : State) : Out :=
  s.fire (tForm .vfma pr 3 t1 t0) plainNull fun c => c.fmaEl (fmt4 w) false false

/-- VFMS (R188). Fused a×b−c, rounded once. -/
def execVfms (pr : BitVec 2) (w : BitVec 2) (t1 : BitVec 9) (t0 : BitVec 9) (s : State) : Out :=
  s.fire (tForm .vfms pr 3 t1 t0) plainNull fun c => c.fmaEl (fmt4 w) false true

/-- VNFMA (R188). Fused −(a×b)+c, rounded once. -/
def execVnfma (pr : BitVec 2) (w : BitVec 2) (t1 : BitVec 9) (t0 : BitVec 9) (s : State) : Out :=
  s.fire (tForm .vnfma pr 3 t1 t0) plainNull fun c => c.fmaEl (fmt4 w) true false

/-- VNFMS (R188). Fused −(a×b)−c, rounded once. -/
def execVnfms (pr : BitVec 2) (w : BitVec 2) (t1 : BitVec 9) (t0 : BitVec 9) (s : State) : Out :=
  s.fire (tForm .vnfms pr 3 t1 t0) plainNull fun c => c.fmaEl (fmt4 w) true true

/-- The types of VCMP (R110): a format, or an integer width and whether it is natural. -/
def cmpType (w : BitVec 3) : Fmt ⊕ (Nat × Bool) :=
  match w.toNat with
  | 0 => .inl f32 | 1 => .inl f64 | 2 => .inl f16 | 3 => .inl bf16
  | 4 => .inr (32, false) | 5 => .inr (32, true) | 6 => .inr (16, false) | _ => .inr (16, true)
/-- One comparison (R189): the order of two elements, none for a NaN operand, and the events. -/
def cmpElems (w : BitVec 3) (ordered : Bool) (x y : Nat) : Option Ordering × List Nat :=
  match cmpType w with
  | .inl f =>
    let a := f.decode x; let b := f.decode y
    if a.isNan || b.isNan then (none, if ordered then [evInvalid] else snanEv [a, b]) else (some (a.cmp b), [])
  | .inr (n, nat) => (some (compare (elemInt nat n x) (elemInt nat n y)), [])
/-- VCMP (R189): null and masked elements give 0; the result is a DATA scalar with every lane valid. -/
def Ctx.vcmp (c : Ctx) (w : BitVec 3) (ordered : Bool) (holds : Option Ordering → Bool) : Except Trap Fired :=
  let n := match cmpType w with | .inl f => f.w | .inr x => x.1
  let ok := fun k => elemOk (c.l.valid &&& c.mask) n k && elemOk (c.r.valid &&& c.mask) n k
  let rs := (List.range (512 / n)).map fun k => if ok k then cmpElems w ordered (c.l.elem n k) (c.r.elem n k) else (none, [])
  let bits := (List.range (512 / n)).foldl (fun b k =>
    if ok k && holds ((rs[k]?.getD (none, [])).1) then b + (if n = 64 then 3 * 2 ^ (2 * k) else 2 ^ k) else b) 0
  c.value { bits := BitVec.ofNat 512 bits, valid := allLanes, tag := brokenOf [c.l, c.r], null := false } (rs.map Prod.snd).flatten

/-- VCMP.eq (R189). Elementwise equality into a bit mask. -/
def execVcmpEq (pr : BitVec 2) (w : BitVec 3) (t1 : BitVec 9) (t0 : BitVec 9) (s : State) : Out :=
  s.fire (tForm .vcmpEq pr 2 t1 t0) plainNull fun c => c.vcmp w false (· == some .eq)

/-- VCMP.ne (R189). Elementwise inequality into a bit mask. -/
def execVcmpNe (pr : BitVec 2) (w : BitVec 3) (t1 : BitVec 9) (t0 : BitVec 9) (s : State) : Out :=
  s.fire (tForm .vcmpNe pr 2 t1 t0) plainNull fun c => c.vcmp w false (· != some .eq)

/-- VCMP.lt (R189). Elementwise less-than into a bit mask. -/
def execVcmpLt (pr : BitVec 2) (w : BitVec 3) (t1 : BitVec 9) (t0 : BitVec 9) (s : State) : Out :=
  s.fire (tForm .vcmpLt pr 2 t1 t0) plainNull fun c => c.vcmp w true (· == some .lt)

/-- VCMP.le (R189). Elementwise less-or-equal into a bit mask. -/
def execVcmpLe (pr : BitVec 2) (w : BitVec 3) (t1 : BitVec 9) (t0 : BitVec 9) (s : State) : Out :=
  s.fire (tForm .vcmpLe pr 2 t1 t0) plainNull fun c => c.vcmp w true (fun r => r == some .lt || r == some .eq)

/-- VSEL (R190). Selects lanes of two vectors by a mask. -/
def execVsel (pr : BitVec 2) (t1 : BitVec 9) (t0 : BitVec 9) (s : State) : Out :=
  s.fire (tForm .vsel pr 3 t1 t0) plainNull fun c => 
    let tag := brokenOf [c.l, c.r, c.t]
    if !bitAt c.t.valid 0 then c.value { bits := 0, valid := 0, tag := tag, null := false }
    else
      let from_ := fun i => if bitAt (c.t.lane 0) i then c.l else c.r
      c.value (c.masked { bits := ofLanes fun i => (from_ i).lane i, valid := maskOf fun i => bitAt (from_ i).valid i, tag := tag, null := false })

/-- A conversion between floating formats (R191, R168). -/
def Fmt.convert (d s : Fmt) (o : Over) (mode draw x : Nat) : Nat × List Nat :=
  match s.decode x with
  | .nan sig => (d.nan, if sig then [evInvalid] else [])
  | .inf neg =>
    if d.e4m3 then (match o with | .saturate => (d.sign neg d.maxCode, [evClamp]) | .plain => (d.nan, [evInvalid]))
    else (d.sign neg d.infCode, [])
  | .fin neg m e => d.round mode draw o { neg := neg, m := m, e := e }
/-- A conversion into an integer (R171). -/
def Fmt.toInteger (s : Fmt) (nat : Bool) (w mode draw x : Nat) : Nat × List Nat :=
  let lo : Int := if nat then 0 else -2 ^ (w - 1)
  let hi : Int := if nat then 2 ^ w - 1 else 2 ^ (w - 1) - 1
  let r : Int × List Nat := match s.decode x with
    | .nan _ => (0, [evInvalid])
    | .inf neg => (if neg then lo else hi, [evInvalid])
    | .fin neg m e => roundInt mode draw lo hi evInvalid { neg := neg, m := m, e := e }
  ((r.1 % 2 ^ w).toNat, r.2)
/-- A conversion from an integer (R191). -/
def Fmt.fromInteger (d : Fmt) (nat : Bool) (w mode draw x : Nat) : Nat × List Nat :=
  d.round mode draw .plain (Ex.ofInt (elemInt nat w x) 0)
/-- The frame of a conversion: `n` elements from position 0, the rest zero and valid (R191). -/
def Ctx.cvt (c : Ctx) (ws wd n : Nat) (f : Nat → Nat → Nat → Nat × List Nat) : Except Trap Fired :=
  c.mapEl [c.l] ws wd n fun k xs => f c.mode (c.drawIn c.mode k) (xs[0]?.getD 0)
/-- VCVT.i16.i32 and VCVT.i8.i32 (R191). -/
def Ctx.narrow (c : Ctx) (w : Nat) : Except Trap Fired :=
  c.mapEl [c.l] 32 w 16 fun _ xs =>
    let r := satSigned c.sat w (elemInt false 32 (xs[0]?.getD 0))
    (r.1, clampEv r.2)

/-- VCVT.f32.f64 (R191). Converts f64 elements to f32. -/
def execVcvtF32F64 (pr : BitVec 2) (t1 : BitVec 9) (t0 : BitVec 9) (s : State) : Out :=
  s.fire (tForm .vcvtF32F64 pr 1 t1 t0) plainNull fun c => c.cvt 64 32 8 (f32.convert f64 .plain)

/-- VCVT.f64.f32 (R191). Converts f32 elements to f64. -/
def execVcvtF64F32 (pr : BitVec 2) (t1 : BitVec 9) (t0 : BitVec 9) (s : State) : Out :=
  s.fire (tForm .vcvtF64F32 pr 1 t1 t0) plainNull fun c => c.cvt 32 64 8 (f64.convert f32 .plain)

/-- VCVT.f16.f32 (R191). Converts f32 elements to f16. -/
def execVcvtF16F32 (pr : BitVec 2) (t1 : BitVec 9) (t0 : BitVec 9) (s : State) : Out :=
  s.fire (tForm .vcvtF16F32 pr 1 t1 t0) plainNull fun c => c.cvt 32 16 16 (f16.convert f32 .plain)

/-- VCVT.f32.f16 (R191). Converts f16 elements to f32. -/
def execVcvtF32F16 (pr : BitVec 2) (t1 : BitVec 9) (t0 : BitVec 9) (s : State) : Out :=
  s.fire (tForm .vcvtF32F16 pr 1 t1 t0) plainNull fun c => c.cvt 16 32 16 (f32.convert f16 .plain)

/-- VCVT.bf16.f32 (R191). Converts f32 elements to bf16. -/
def execVcvtBf16F32 (pr : BitVec 2) (t1 : BitVec 9) (t0 : BitVec 9) (s : State) : Out :=
  s.fire (tForm .vcvtBf16F32 pr 1 t1 t0) plainNull fun c => c.cvt 32 16 16 (bf16.convert f32 .plain)

/-- VCVT.f32.bf16 (R191). Converts bf16 elements to f32. -/
def execVcvtF32Bf16 (pr : BitVec 2) (t1 : BitVec 9) (t0 : BitVec 9) (s : State) : Out :=
  s.fire (tForm .vcvtF32Bf16 pr 1 t1 t0) plainNull fun c => c.cvt 16 32 16 (f32.convert bf16 .plain)

/-- VCVT.e4m3.f32 (R191). Converts f32 elements to E4M3, saturating. -/
def execVcvtE4m3F32 (pr : BitVec 2) (t1 : BitVec 9) (t0 : BitVec 9) (s : State) : Out :=
  s.fire (tForm .vcvtE4m3F32 pr 1 t1 t0) plainNull fun c => c.cvt 32 8 16 (e4m3.convert f32 .saturate)

/-- VCVT.e5m2.f32 (R191). Converts f32 elements to E5M2, saturating. -/
def execVcvtE5m2F32 (pr : BitVec 2) (t1 : BitVec 9) (t0 : BitVec 9) (s : State) : Out :=
  s.fire (tForm .vcvtE5m2F32 pr 1 t1 t0) plainNull fun c => c.cvt 32 8 16 (e5m2.convert f32 .saturate)

/-- VCVT.e4m3.f32.nosat (R191). Converts f32 elements to E4M3 without saturation. -/
def execVcvtE4m3F32Nosat (pr : BitVec 2) (t1 : BitVec 9) (t0 : BitVec 9) (s : State) : Out :=
  s.fire (tForm .vcvtE4m3F32Nosat pr 1 t1 t0) plainNull fun c => c.cvt 32 8 16 (e4m3.convert f32 .plain)

/-- VCVT.e5m2.f32.nosat (R191). Converts f32 elements to E5M2 without saturation. -/
def execVcvtE5m2F32Nosat (pr : BitVec 2) (t1 : BitVec 9) (t0 : BitVec 9) (s : State) : Out :=
  s.fire (tForm .vcvtE5m2F32Nosat pr 1 t1 t0) plainNull fun c => c.cvt 32 8 16 (e5m2.convert f32 .plain)

/-- VCVT.f32.e4m3 (R191). Converts E4M3 elements to f32. -/
def execVcvtF32E4m3 (pr : BitVec 2) (t1 : BitVec 9) (t0 : BitVec 9) (s : State) : Out :=
  s.fire (tForm .vcvtF32E4m3 pr 1 t1 t0) plainNull fun c => c.cvt 8 32 16 (f32.convert e4m3 .plain)

/-- VCVT.f32.e5m2 (R191). Converts E5M2 elements to f32. -/
def execVcvtF32E5m2 (pr : BitVec 2) (t1 : BitVec 9) (t0 : BitVec 9) (s : State) : Out :=
  s.fire (tForm .vcvtF32E5m2 pr 1 t1 t0) plainNull fun c => c.cvt 8 32 16 (f32.convert e5m2 .plain)

/-- VCVT.i32.f32 (R191). Converts f32 elements to signed 32-bit integers. -/
def execVcvtI32F32 (pr : BitVec 2) (t1 : BitVec 9) (t0 : BitVec 9) (s : State) : Out :=
  s.fire (tForm .vcvtI32F32 pr 1 t1 t0) plainNull fun c => c.cvt 32 32 16 (f32.toInteger false 32)

/-- VCVT.n32.f32 (R191). Converts f32 elements to natural 32-bit integers. -/
def execVcvtN32F32 (pr : BitVec 2) (t1 : BitVec 9) (t0 : BitVec 9) (s : State) : Out :=
  s.fire (tForm .vcvtN32F32 pr 1 t1 t0) plainNull fun c => c.cvt 32 32 16 (f32.toInteger true 32)

/-- VCVT.f32.i32 (R191). Converts signed 32-bit integers to f32. -/
def execVcvtF32I32 (pr : BitVec 2) (t1 : BitVec 9) (t0 : BitVec 9) (s : State) : Out :=
  s.fire (tForm .vcvtF32I32 pr 1 t1 t0) plainNull fun c => c.cvt 32 32 16 (f32.fromInteger false 32)

/-- VCVT.f32.n32 (R191). Converts natural 32-bit integers to f32. -/
def execVcvtF32N32 (pr : BitVec 2) (t1 : BitVec 9) (t0 : BitVec 9) (s : State) : Out :=
  s.fire (tForm .vcvtF32N32 pr 1 t1 t0) plainNull fun c => c.cvt 32 32 16 (f32.fromInteger true 32)

/-- VCVT.i64.f64 (R191). Converts f64 elements to signed 64-bit integers. -/
def execVcvtI64F64 (pr : BitVec 2) (t1 : BitVec 9) (t0 : BitVec 9) (s : State) : Out :=
  s.fire (tForm .vcvtI64F64 pr 1 t1 t0) plainNull fun c => c.cvt 64 64 8 (f64.toInteger false 64)

/-- VCVT.n64.f64 (R191). Converts f64 elements to natural 64-bit integers. -/
def execVcvtN64F64 (pr : BitVec 2) (t1 : BitVec 9) (t0 : BitVec 9) (s : State) : Out :=
  s.fire (tForm .vcvtN64F64 pr 1 t1 t0) plainNull fun c => c.cvt 64 64 8 (f64.toInteger true 64)

/-- VCVT.f64.i64 (R191). Converts signed 64-bit integers to f64. -/
def execVcvtF64I64 (pr : BitVec 2) (t1 : BitVec 9) (t0 : BitVec 9) (s : State) : Out :=
  s.fire (tForm .vcvtF64I64 pr 1 t1 t0) plainNull fun c => c.cvt 64 64 8 (f64.fromInteger false 64)

/-- VCVT.f64.n64 (R191). Converts natural 64-bit integers to f64. -/
def execVcvtF64N64 (pr : BitVec 2) (t1 : BitVec 9) (t0 : BitVec 9) (s : State) : Out :=
  s.fire (tForm .vcvtF64N64 pr 1 t1 t0) plainNull fun c => c.cvt 64 64 8 (f64.fromInteger true 64)

/-- VCVT.i16.i32 (R191). Narrows 32-bit integers to 16 bits. -/
def execVcvtI16I32 (pr : BitVec 2) (t1 : BitVec 9) (t0 : BitVec 9) (s : State) : Out :=
  s.fire (tForm .vcvtI16I32 pr 1 t1 t0) plainNull fun c => c.narrow 16

/-- VCVT.i8.i32 (R191). Narrows 32-bit integers to 8 bits. -/
def execVcvtI8I32 (pr : BitVec 2) (t1 : BitVec 9) (t0 : BitVec 9) (s : State) : Out :=
  s.fire (tForm .vcvtI8I32 pr 1 t1 t0) plainNull fun c => c.narrow 8

/-- VCVT.i32.i16 (R191). Widens 16-bit integers to 32 bits. -/
def execVcvtI32I16 (pr : BitVec 2) (t1 : BitVec 9) (t0 : BitVec 9) (s : State) : Out :=
  s.fire (tForm .vcvtI32I16 pr 1 t1 t0) plainNull fun c => c.mapEl [c.l] 16 32 16 fun _ xs => ((elemInt false 16 (xs[0]?.getD 0) % 2 ^ 32).toNat, [])

/-- VCVT.i32.i8 (R191). Widens 8-bit integers to 32 bits. -/
def execVcvtI32I8 (pr : BitVec 2) (t1 : BitVec 9) (t0 : BitVec 9) (s : State) : Out :=
  s.fire (tForm .vcvtI32I8 pr 1 t1 t0) plainNull fun c => c.mapEl [c.l] 8 32 16 fun _ xs => ((elemInt false 8 (xs[0]?.getD 0) % 2 ^ 32).toNat, [])


end Sys2Proof.Machine
end

