-- ==== Sys2Proof/Machine/FBlock.lean ====
section
/-! DEFINITION. Format blocks (R158 to R161), the format-block instructions (R196 to R203) and online softmax (R204 to R206). -/

namespace Sys2Proof.Machine

/-- Element types: the four 4-bit types in the order of R160, then E4M3, E5M2, INT8, BF16, FP16. -/
inductive ElTy where | int4 | e2m1 | pow2 | hybrid | e4m3 | e5m2 | int8 | bf16 | f16
deriving DecidableEq, Repr

/-- An fblock's header (R159, R160). -/
inductive Hdr where
  | zero
  | poison
  | real (code : Nat) (ty : ElTy) (scale : Int)
deriving DecidableEq, Repr

/-- Bits of an element (R159). -/
def ElTy.width : ElTy → Nat
  | .int4 | .e2m1 | .pow2 | .hybrid => 4 | .e4m3 | .e5m2 | .int8 => 8 | .bf16 | .f16 => 16
/-- Elements of a block of the class: 124, 62 or 31 (R159). -/
def ElTy.count (t : ElTy) : Nat := 496 / t.width
/-- Groups of sixteen elements (R199). -/
def ElTy.groups (t : ElTy) : Nat := (t.count + 15) / 16
def fourBit (n : Nat) : ElTy := match n with | 0 => .int4 | 1 => .e2m1 | 2 => .pow2 | _ => .hybrid
def ElTy.fourCode : ElTy → Nat | .e2m1 => 1 | .pow2 => 2 | .hybrid => 3 | _ => 0
/-- The type a format code names, and the 4-bit type given with it (R160); none for an unlisted code. -/
def codeType (code four : Nat) : Option ElTy :=
  match code with
  | 0x10 => some (fourBit four) | 0x20 => some .e4m3 | 0x21 => some .e5m2 | 0x22 => some .int8
  | 0x30 => some .bf16 | 0x31 => some .f16 | _ => none
/-- Reads a header; FORMAT for an unlisted code (R160, R196). -/
def hdrOf (b : V512) : Except Trap Hdr :=
  let code := numAt b 0 8
  if code = 0 then .ok .zero
  else if code = 0xFF then .ok .poison
  else match codeType code (numAt b 14 2) with
    | none => .error (trap tFormat)
    | some t => .ok (.real code t (if code = 0x10 then (bitsAt b 8 6 : BitVec 6).toInt else (bitsAt b 8 8 : BitVec 8).toInt))
/-- Element `k` of a payload (R159). -/
def rawEl (b : V512) (t : ElTy) (k : Nat) : Nat := numAt b (16 + t.width * k) t.width
/-- Magnitudes of the 4-bit grids, times 2, and the overflow point, times 2 (R158, R167). -/
def ElTy.cells : ElTy → List Nat
  | .e2m1 => [0, 1, 2, 3, 4, 6, 8, 12] | .pow2 => [0, 2, 4, 8, 16, 32, 64, 128] | _ => [0, 2, 4, 6, 8, 12, 16, 24]
def ElTy.top : ElTy → Nat | .e2m1 => 16 | .pow2 => 256 | _ => 32
/-- The format of a floating element type. -/
def ElTy.fmt : ElTy → Option Fmt
  | .e4m3 => some Machine.e4m3 | .e5m2 => some Machine.e5m2 | .bf16 => some Machine.bf16 | .f16 => some Machine.f16 | _ => none
/-- The code value of an element (R155 to R158). -/
def ElTy.num (t : ElTy) (raw : Nat) : FNum :=
  match t.fmt with
  | some f => f.decode raw
  | none =>
    match t with
    | .int4 => let i := (BitVec.ofNat 4 raw).toInt; .fin (decide (i < 0)) i.natAbs 0
    | .int8 => let i := (BitVec.ofNat 8 raw).toInt; .fin (decide (i < 0)) i.natAbs 0
    | _ => .fin (raw / 8 == 1) (t.cells[raw % 8]?.getD 0) (-1)
/-- A number times 2^s (R161). -/
def FNum.shift (s : Int) : FNum → FNum
  | .fin n m e => .fin n m (e + s)
  | x => x
/-- Element `k` of a block: a zero block's is +0 (R160, R161). -/
def Hdr.value (h : Hdr) (b : V512) (k : Nat) : FNum :=
  match h with
  | .real _ t s => (t.num (rawEl b t k)).shift s
  | _ => .fin false 0 0

/-- Quantises a value into an element type (R197): the code and the events. -/
def ElTy.quant (t : ElTy) (mode draw : Nat) (v : FNum) : Nat × List Nat :=
  match t.fmt with
  | some f =>
    match v with
    | .nan s => (f.nan, if s then [evInvalid] else [])
    | .inf neg => if f.e4m3 then (f.sign neg f.maxCode, [evClamp]) else (f.sign neg f.infCode, [])
    | .fin neg m e => f.round mode draw .saturate { neg := neg, m := m, e := e }
  | none =>
    if t = .int4 ∨ t = .int8 then
      let hi : Int := 2 ^ (t.width - 1) - 1
      let lo : Int := -2 ^ (t.width - 1)
      let r : Int × List Nat := match v with
        | .nan _ => (0, [evInvalid])
        | .inf neg => (if neg then lo else hi, [evClamp])
        | .fin neg m e => roundInt mode draw lo hi evClamp { neg := neg, m := m, e := e }
      ((r.1 % 2 ^ t.width).toNat, r.2)
    else
      match v with
      | .nan _ => (0, [evInvalid])
      | .inf neg => (7 + 8 * bit1 neg, [evClamp])
      | .fin neg m e =>
        let x : Ex := { neg := neg, m := m, e := e }
        let r := gridRound mode draw t.cells t.top x
        let u := unitsOf x (-1)
        let tiny := t == .e2m1 && u.1 < 2 && !(u.2.2.2 && t.cells.contains u.1)
        (r.1 + 8 * bit1 neg, clampEv r.2 ++ (if tiny then [evUnderflow] else []))

/-- The largest finite value of a type (R197), as m × 2^e. -/
def ElTy.largest : ElTy → Nat × Int
  | .int4 => (7, 0) | .e2m1 => (6, 0) | .pow2 => (64, 0) | .hybrid => (12, 0) | .e4m3 => (448, 0) | .e5m2 => (57344, 0)
  | .int8 => (127, 0) | .bf16 => (255, 120) | .f16 => (65504, 0)
/-- The scale VQHDR chooses for a maximum (R198). -/
def scaleFor (code : Nat) (t : ElTy) (m : Ex) : Int :=
  let lo : Int := if code = 0x10 then -32 else -128
  let n : Nat := if code = 0x10 then 64 else 256
  let fits := fun (i : Nat) => FNum.cmp (.fin false m.m m.e) (.fin false t.largest.1 (t.largest.2 + lo + i)) != .gt
  lo + (((List.range n).find? fits).getD (n - 1) : Nat)
/-- The scale byte of a header (R198). -/
def scaleByte (code : Nat) (t : ElTy) (s : Int) : Nat :=
  if code = 0x10 then t.fourCode * 64 + (s % 64).toNat else (s % 256).toNat
def poisonBlock : V512 := 0xFF
/-- Lays out a block from a header and its codes (R159). -/
def packBlock (code : Nat) (t : ElTy) (s : Int) (codes : List Nat) : V512 :=
  BitVec.ofNat 512 (code + 256 * scaleByte code t s + 65536 * codes.foldr (fun c n => c % 2 ^ t.width + 2 ^ t.width * n) 0)
/-- Scale and codes for a list of values (R201, R203), filled with +0 to the class's count. -/
def Ctx.requant (c : Ctx) (code : Nat) (t : ElTy) (vs : List FNum) : V512 × List Nat :=
  let big := vs.foldl (fun (m : Ex) v => match v with
    | .fin _ x e => if FNum.cmp (.fin false m.m m.e) (.fin false x e) == .lt then { neg := false, m := x, e := e } else m
    | _ => m) { neg := false, m := 0, e := 0 }
  let s := scaleFor code t big
  let rs := (List.range t.count).map fun k => match vs[k]? with
    | some v => t.quant c.mode (c.drawIn c.mode k) (v.shift (-s))
    | none => (0, [])
  (packBlock code t s (rs.map Prod.fst), (rs.map Prod.snd).flatten)

/-- A format operand: its code and type; FORMAT for an unlisted code (R196). -/
def fmtOperand (v : Value) : Except Trap (Nat × Option ElTy) :=
  let code := numAt v.bits 0 8
  if code = 0 ∨ code = 0xFF then .ok (code, none)
  else match codeType code (numAt v.bits 8 2) with
    | none => .error (trap tFormat)
    | some t => .ok (code, some t)
/-- A group or row operand: lane 0, with lane 1 where it is valid. -/
def groupOperand (v : Value) : Nat := if bitAt v.valid 1 then v.scalar.toNat else (v.lane 0).toNat
/-- The frame of R196: a null lane of a block operand, or a null lane 0 of a scalar, nulls every lane. -/
def Ctx.fblock (c : Ctx) (vs blocks scalars : List Value) (masked : Bool) (f : Except Trap (V512 × List Nat)) : Except Trap Fired :=
  if blocks.any (·.valid != allLanes) || scalars.any fun v => !bitAt v.valid 0 then
    c.value { bits := 0, valid := 0, tag := brokenOf vs, null := false }
  else match f with
    | .error t => .error t
    | .ok (b, evs) =>
      let v : Value := { bits := b, valid := allLanes, tag := brokenOf vs, null := false }
      c.value (if masked then c.masked v else v) evs

/-- VQHDR (R198). Builds an fblock header with the smallest scale that fits a max-abs value. -/
def execVqhdr (pr : BitVec 2) (t1 : BitVec 9) (t0 : BitVec 9) (s : State) : Out :=
  s.fire (tForm .vqhdr pr 2 t1 t0) plainNull fun c => c.fblock [c.l, c.r] [] [c.l, c.r] true (do
    let (code, ty) ← fmtOperand c.r
    match ty with
    | none => return (if code = 0 then 0 else poisonBlock, [])
    | some t =>
      match f32.decode (numAt c.l.bits 0 31) with
      | .fin _ m e => return (packBlock code t (scaleFor code t { neg := false, m := m, e := e }) [], [])
      | _ => return (poisonBlock, [evInvalid]))

/-- VQPK (R199). Quantises 16 FP32 values into one group of an fblock. -/
def execVqpk (pr : BitVec 2) (t1 : BitVec 9) (t0 : BitVec 9) (s : State) : Out :=
  s.fire (tForm .vqpk pr 3 t1 t0) plainNull fun c => c.fblock [c.l, c.r, c.t] [c.l] [c.t] true (do
    let h ← hdrOf c.l.bits
    match h with
    | .zero => return (c.l.bits, [])
    | .poison => return (c.l.bits, [evInvalid])
    | .real _ t s =>
      let q := groupOperand c.t
      if t.groups ≤ q then throw (trap tShape)
      let one := fun (a : V512 × List Nat) l =>
        let k := 16 * q + l
        if k < t.count && bitAt (c.r.valid &&& c.mask) l then
          let r := t.quant c.mode (c.drawIn c.mode l) ((f32.decode (c.r.lane l).toNat).shift (-s))
          (setBits a.1 (16 + t.width * k) t.width r.1, a.2 ++ r.2)
        else a
      return (List.range 16).foldl one (c.l.bits, []))

/-- VDQ (R200). Dequantises one group of an fblock to FP32. -/
def execVdq (pr : BitVec 2) (t1 : BitVec 9) (t0 : BitVec 9) (s : State) : Out :=
  s.fire (tForm .vdq pr 2 t1 t0) plainNull fun c => c.fblock [c.l, c.r] [c.l] [c.r] true (do
    let h ← hdrOf c.l.bits
    match h with
    | .zero => return (0, [])
    | .poison => return (ofLanes fun _ => BitVec.ofNat 32 f32.nan, [evInvalid])
    | .real _ t _ =>
      let q := groupOperand c.r
      if t.groups ≤ q then throw (trap tShape)
      let rs := (List.range 16).map fun l =>
        if 16 * q + l < t.count then
          match h.value c.l.bits (16 * q + l) with
          | .nan sig => (f32.nan, if sig then [evInvalid] else [])
          | .inf neg => (f32.sign neg f32.infCode, [])
          | .fin neg m e => f32.round c.mode (c.drawIn c.mode l) .plain { neg := neg, m := m, e := e }
        else (0, [])
      return (ofElems 32 (rs.map Prod.fst), (rs.map Prod.snd).flatten))

/-- The exact sum of two element values (R201): NaN from a NaN addend, and with invalid from +∞ and −∞. -/
def sumEls (mode : Nat) (a b : FNum) : FNum × List Nat :=
  if a.isNan || b.isNan then (.nan false, snanEv [a, b])
  else match a, b with
    | .inf x, .inf y => if x == y then (.inf x, []) else (.nan false, [evInvalid])
    | .inf x, _ => (.inf x, [])
    | _, .inf y => (.inf y, [])
    | x, y => let s := Ex.add mode x.ex y.ex; (.fin s.neg s.m s.e, [])
/-- A 4-bit −0 behaves as +0 in every sum (R158). -/
def plusZero (w : Nat) (v : FNum) : FNum := if w = 4 && v.isZero then .fin false 0 0 else v

/-- VBAQ (R201). Adds two fblocks exactly and requantises the sum. -/
def execVbaq (pr : BitVec 2) (t1 : BitVec 9) (t0 : BitVec 9) (s : State) : Out :=
  s.fire (tForm .vbaq pr 2 t1 t0) plainNull fun c => c.fblock [c.l, c.r] [c.l, c.r] [] true (do
    let h ← hdrOf c.l.bits
    let g ← hdrOf c.r.bits
    let go := fun code (t : ElTy) =>
      let vs := (List.range t.count).map fun k => sumEls c.mode (plusZero t.width (h.value c.l.bits k)) (plusZero t.width (g.value c.r.bits k))
      let r := c.requant code t (vs.map Prod.fst)
      (r.1, (vs.map Prod.snd).flatten ++ r.2)
    match h, g with
    | .poison, _ => return (poisonBlock, [evInvalid])
    | _, .poison => return (poisonBlock, [evInvalid])
    | .zero, .zero => return (0, [])
    | .real code t _, .real _ u _ => if t.width ≠ u.width then throw (trap tFormatPair) else return go code t
    | .real code t _, .zero => return go code t
    | .zero, .real code t _ => return go code t)

/-- VBMAX (R202). Updates a running max-abs with an fblock's largest element. -/
def execVbmax (pr : BitVec 2) (t1 : BitVec 9) (t0 : BitVec 9) (s : State) : Out :=
  s.fire (tForm .vbmax pr 2 t1 t0) plainNull fun c => c.fblock [c.l, c.r] [c.l] [c.r] true (do
    let h ← hdrOf c.l.bits
    match h with
    | .poison => return (BitVec.ofNat 512 f32.nan, [evInvalid])
    | .zero => let r := f32.minMax true (c.r.lane 0).toNat 0; return (BitVec.ofNat 512 r.1, r.2)
    | .real _ t _ =>
      let u := (List.range t.count).foldl (fun m k => match h.value c.l.bits k with
        | .nan _ => m
        | .inf _ => f32.infCode
        | .fin _ x e => Nat.max m (f32.round 3 0 .plain { neg := false, m := x, e := e }).1) 0
      let r := f32.minMax true (c.r.lane 0).toNat u
      return (BitVec.ofNat 512 r.1, r.2))

/-- VBFMT (R203). Requantises an fblock into another format. -/
def execVbfmt (pr : BitVec 2) (t1 : BitVec 9) (t0 : BitVec 9) (s : State) : Out :=
  s.fire (tForm .vbfmt pr 2 t1 t0) plainNull fun c => c.fblock [c.l, c.r] [c.l] [c.r] true (do
    let h ← hdrOf c.l.bits
    let (code, ty) ← fmtOperand c.r
    match h, ty with
    | .poison, _ => return (poisonBlock, [evInvalid])
    | .zero, _ => return (if code = 0xFF then poisonBlock else 0, [])
    | .real _ _ _, none => return (if code = 0xFF then poisonBlock else 0, [])
    | .real _ u _, some t => return c.requant code t ((List.range (Nat.min t.count u.count)).map (h.value c.l.bits)))

/-- A value known to be inexact: an irrational one between its bounds. -/
def Ex.inexact (x : Ex) : Ex := { x with sticky := true }
/-- x − m for a finite x at or below a finite m; none for −∞ (R205). -/
def oneStep (m : FNum) (acc : Nat × List Nat) (x : FNum) : Nat × List Nat :=
  match x with
  | .fin _ _ _ =>
    let p := f32.exp2 1 0 (Ex.add 1 x.ex (m.neg).ex)
    let r := f32.addNum 1 0 (f32.decode acc.1) (f32.decode p.1)
    (r.1, acc.2 ++ p.2 ++ r.2)
  | _ => let r := f32.addNum 1 0 (f32.decode acc.1) (.fin false 0 0); (r.1, acc.2 ++ r.2)
/-- 2^d as an exact interval-free product: l × 2^d rounded once (R205). -/
def scaleExp2 (l d : Ex) : Nat × List Nat :=
  if l.m = 0 then (f32.sign l.neg 0, [])
  else
    let u : Int := if d.e ≤ 0 then 2 ^ (-d.e).toNat else 1
    let i := d.at (if d.e ≤ 0 then d.e else 0)
    if d.m ≠ 0 ∧ (20 : Int) < d.e + Nat.log2 d.m then
      f32.roundBounds 1 0 (fun p => let b := exp2Bounds d p; ((Ex.mul l b.1).inexact, (Ex.mul l b.2).inexact)) 1 160
    else if i % u = 0 then f32.round 1 0 .plain { l with e := l.e + i / u }
    else f32.roundBounds 1 0 (fun p => let b := exp2Bounds d p; ((Ex.mul l b.1).inexact, (Ex.mul l b.2).inexact)) 5 160
/-- The new row state of OSM.STEP (R205). -/
def osmRow (m l : Nat) (xs : List Nat) : Nat × Nat × List Nat :=
  let nums := (m :: l :: xs).map f32.decode
  if nums.any FNum.isNan then (f32.nan, f32.nan, [evInvalid])
  else
    let m' := xs.foldl (fun a x => (f32.minMax true a x).1) m
    match f32.decode m' with
    | .inf false => (m', f32.nan, [evInvalid])
    | .inf true => (m', 0, [])
    | top =>
      let first : Nat × List Nat := match f32.decode m, f32.decode l with
        | .inf _, .inf _ => (f32.nan, [evInvalid])
        | .inf _, a => (f32.sign a.isNeg 0, [])
        | _, .inf neg => (f32.sign neg f32.infCode, [])
        | a, b => scaleExp2 b.ex (Ex.add 1 a.ex (top.neg).ex)
      let r := xs.foldl (fun a x => oneStep top a (f32.decode x)) first
      (m', r.1, r.2)
/-- The row operand: SHAPE above 7 (R204); none when its lane 0 or 1 is null. -/
def rowOperand (v : Value) : Except Trap Nat := if 7 < v.scalar.toNat then .error (trap tShape) else .ok v.scalar.toNat

/-- OSM.STEP (R205). Updates one row's online-softmax state with 16 values: the row's two lanes are null where masked (R56, R180), and every other lane stays as L
holds it, validity included. DESIGN CHOICE (log 70): a row operand whose lane 0 or 1 is null makes every lane of the result null. -/
def execOsmStep (pr : BitVec 2) (t1 : BitVec 9) (t0 : BitVec 9) (s : State) : Out :=
  s.fire (tForm .osmStep pr 3 t1 t0) plainNull fun c => 
    let tag := brokenOf [c.l, c.r, c.t]
    if !c.t.validTo 2 then c.value { bits := 0, valid := 0, tag := tag, null := false }
    else match rowOperand c.t with
      | .error t => .error t
      | .ok r =>
        if !(bitAt c.l.valid (2 * r) && bitAt c.l.valid (2 * r + 1)) then
          c.value { bits := c.l.bits, valid := c.l.valid &&& ~~~ (BitVec.ofNat 16 (3 * 4 ^ r)), tag := tag, null := false }
        else
          let xs := ((List.range 16).filter fun j => bitAt (c.r.valid &&& c.mask) j).map fun j => (c.r.lane j).toNat
          let n := osmRow (c.l.lane (2 * r)).toNat (c.l.lane (2 * r + 1)).toNat xs
          c.value ({ bits := setBits (setBits c.l.bits (64 * r) 32 n.1) (64 * r + 32) 32 n.2.1,
                     valid := c.l.valid &&& (c.mask ||| ~~~ (BitVec.ofNat 16 (3 * 4 ^ r))), tag := tag, null := false }) n.2.2

/-- 2^(x − m) ÷ l rounded once, RNE (R206). -/
def osmQuot (x m l : FNum) : Nat × List Nat :=
  match f32.nanOf [x, m, l] with
  | some r => r
  | none =>
    -- the difference x − m: none when both are the same infinity
    let diff : Option FNum := match x, m with
      | .inf a, .inf b => if a == b then none else some (.inf a)
      | .inf a, _ => some (.inf a)
      | _, .inf b => some (.inf !b)
      | a, b => let s := Ex.add 1 a.ex b.neg.ex; some (.fin s.neg s.m s.e)
    match diff with
    | none => (f32.nan, [evInvalid])
    | some (.inf true) => f32.divNum 1 0 (.fin false 0 0) l
    | some (.inf false) => f32.divNum 1 0 (.inf false) l
    | some d =>
      if l.isInf then (f32.sign l.isNeg 0, [])
      else if l.isZero then (f32.sign l.isNeg f32.infCode, [evDivZero])
      else
        let u : Int := if d.ex.e ≤ 0 then 2 ^ (-d.ex.e).toNat else 1
        let i := d.ex.at (if d.ex.e ≤ 0 then d.ex.e else 0)
        if d.ex.m = 0 ∨ (d.ex.e + Nat.log2 d.ex.m ≤ (20 : Int) ∧ i % u = 0) then
          f32.round 1 0 .plain (Ex.div { neg := false, m := 1, e := if d.ex.m = 0 then 0 else i / u } l.ex)
        else f32.roundBounds 1 0 (fun p => let b := exp2Bounds d.ex p; ((Ex.div b.1 l.ex).inexact, (Ex.div b.2 l.ex).inexact)) 5 160

/-- OSM.NORM (R206). Normalises 16 values against one row's softmax state. DESIGN CHOICE (log 70): a row operand whose lane 0 or 1 is null makes every lane
of the result null. -/
def execOsmNorm (pr : BitVec 2) (t1 : BitVec 9) (t0 : BitVec 9) (s : State) : Out :=
  s.fire (tForm .osmNorm pr 3 t1 t0) plainNull fun c => 
    let tag := brokenOf [c.l, c.r, c.t]
    if !c.t.validTo 2 then c.value { bits := 0, valid := 0, tag := tag, null := false }
    else match rowOperand c.t with
      | .error t => .error t
      | .ok r =>
        if !(bitAt c.l.valid (2 * r) && bitAt c.l.valid (2 * r + 1)) then c.value { bits := 0, valid := 0, tag := tag, null := false }
        else
          let m := f32.decode (c.l.lane (2 * r)).toNat
          let l := f32.decode (c.l.lane (2 * r + 1)).toNat
          let ok := c.r.valid &&& c.mask
          let rs := (List.range 16).map fun j => if bitAt ok j then osmQuot (f32.decode (c.r.lane j).toNat) m l else (0, [])
          c.value { bits := ofElems 32 (rs.map Prod.fst), valid := ok, tag := tag, null := false } (rs.map Prod.snd).flatten


end Sys2Proof.Machine
end

