-- ==== Sys2Proof/Machine/Sched.lean ====
section
/-! DEFINITION. From launch to firing: the launch desk (R318 to R323), and the start of an activity from its core's run ring (R12 to
R20, R312, R326, R353, R459). -/

namespace Sys2Proof.Machine

/-! ## The launch desk (R319 to R323) -/

/-- Cycles after which a waiting head is aged (R320). -/
def agedAfter : Nat := 65536
/-- The head of a lodging's desk queue (R319). -/
def State.deskHead (s : State) (lodging queue : Nat) : Option Launch := s.desk.find? fun l => l.lodging == lodging && l.queue == queue
/-- Start units of a launch's children (R325). -/
def Launch.startUnits (l : Launch) : Nat := 2 + descCopies l.desc
def Launch.anywhere (l : Launch) : Bool := l.x == 255
/-- The rectangles that a launch may take, in the order of R322. -/
def State.launchRects (s : State) (l : Launch) : List (Nat × Nat × Nat × Nat) :=
  let g := s.lodging l.lodging
  if l.anywhere then (g.origins l.w l.h).map fun o => g.rect o.1 o.2 l.w l.h else [g.rect l.x l.y l.w l.h]
/-- A ring place, and units, that no retry and no waiting arrival comes before (R321, R324, R327). -/
def State.placeOn (s : State) (r units : Nat) : Bool := (s.core r).ringFree units && !s.retrying r && (s.core r).arrivals.isEmpty
/-- A core that a launch may not take, because an aged head of a lower-numbered queue waits for it (R320). -/
def State.keptForAged (s : State) (l : Launch) (r : Nat) : Bool :=
  (List.range l.queue).any fun q => match s.deskHead l.lodging q with
    | some a => a.aged && (a.anywhere || (s.launchRects a).any fun t => inRect r t)
    | none => false
/-- The rectangle on which the desk places a launch now, if any (R321, R322). -/
def State.deskRect (s : State) (l : Launch) : Option (Nat × Nat × Nat × Nat) :=
  (s.launchRects l).find? fun t =>
    let rs := s.rectCores l.lodging t
    (!l.anywhere || !rs.isEmpty) && rs.all fun r => s.placeOn r l.startUnits && !s.keptForAged l r
/-- The launch that a decision places for a lodging: the lowest-numbered queue whose head can be placed (R320). -/
def State.deskPick (s : State) (lodging : Nat) : Option (Launch × (Nat × Nat × Nat × Nat)) :=
  if (s.lodging lodging).gated || !(s.lodging lodging).live then none
  else (List.range 16).findSome? fun q => match s.deskHead lodging q with
    | some l => (s.deskRect l).map fun t => (l, t)
    | none => none
/-- A child of a launch (R14, R288). -/
def State.child (s : State) (l : Launch) (t : Nat × Nat × Nat × Nat) : Start :=
  { (default : Start) with
    kind := 0, lodging := l.lodging, entry := l.entry, desc := l.desc, g0 := l.arg.zeroExtend 512, copies := l.copies, launch := l.num, rect := s.areaOf l.lodging t,
    obs := if l.units = 0 then [] else [{ held := true, isCount := true, object := l.counter, rank := l.rank, mult := 1 }],
    image := s.imageVersion, gates := l.gates }
/-- A launch is placed: its surplus units are discharged, and every child takes its place (R318, R321, R323). -/
def State.placeLaunch (s : State) (l : Launch) (t : Nat × Nat × Nat × Nat) : State :=
  let rs := s.rectCores l.lodging t
  let s : State := { s with desk := s.desk.filter (fun d => !(d.lodging == l.lodging && d.num == l.num)), deskNext := l.lodging,
                            pending := mapUpd s.pending l.die (· - 1) }
  let s := s.updLodging l.lodging fun g => { g with pool := mapUpd g.pool l.die (· - 1) }
  let s := if l.units = 0 ∨ l.units = rs.length then s
    else s.issue (deviceAct (((s.lodging l.lodging).map.head?).getD 0)) l.lodging l.num 0 0 (.discharge l.counter (l.units - rs.length) 0 false) .queued
  rs.foldl (fun s r => s.toRing r (s.child l t)) s
/-- DESK_DECISION (R320): one placement, lodgings in turn after that of the last decision. -/
def execDeskDecision (s : State) : Out :=
  let order := (List.range 256).map fun i => (s.deskNext + 1 + i) % 256
  match (order.filter fun n => s.desk.any fun l => l.lodging == n).findSome? s.deskPick with
  | some (l, t) => .next (s.placeLaunch l t)
  | none => .next s
/-- LAUNCH_AGED (R320). -/
def execLaunchAged (lodging queue : Nat) (s : State) : Out :=
  match s.deskHead lodging queue with
  | some l =>
    if l.since.toNat + agedAfter ≤ s.cycle.toNat then
      .next { s with desk := s.desk.map fun d => if d.lodging == lodging && d.num == l.num then { d with aged := true } else d }
    else .next s
  | none => .next s

/-! ## The start of an activity (R12 to R20, R312, R326, R353, R459) -/

/-- Start information (R19). -/
def startInfo (logical : Nat) (st : Start) : V512 :=
  BitVec.ofNat 512 (st.launch.toNat + logical % 2 ^ 12 * 2 ^ 32 + st.kind * 2 ^ 48 + st.rect.x * 2 ^ 64 + st.rect.y * 2 ^ 80 + st.rect.w * 2 ^ 96 + st.rect.h * 2 ^ 112
    + st.sender % 2 ^ 12 * 2 ^ 128 + st.senderLodging % 256 * 2 ^ 144 + st.counter.toNat * 2 ^ 160 + bit1 st.broken * 2 ^ 224)
/-- The registers of a start (R14 to R16). -/
def startRegs (logical : Nat) (st : Start) (runs : Sto → Run) : Map Reg :=
  let m := mapSet st.copies 0 (if st.g0cap then regOf ((st.g0.truncate 128).zeroExtend 512) .cap else regOf st.g0 .data)
  let m := mapSet m 1 (regOf (startInfo logical st) .data)
  let m := if st.kind = 4 then mapSet m 2 (regOf (st.g2.zeroExtend 512) .cap) else m
  lotRegs logical runs m
/-- The image that a start of a steward core runs (R449). -/
def State.imageFor (s : State) (r : Nat) : W32 := if (s.core r).switching = 0 then s.imageVersion else s.newImage
/-- The activity as it stands before its first admission. -/
def State.started (s : State) (r : Nat) (st : Start) (gen : Nat) (runs : List (Sto × Run)) : Slot :=
  let c := s.core r
  let x : Slot := { (default : Slot) with
    live := true, gen := gen + 1, obs := (setOf st.obs).getD default, round := 1, seed := startSeed c.logicalNo, launch := st.launch, rect := st.rect,
    serve := BitVec.ofNat 8 st.serve, image := s.imageFor r, code := startCode st.entry st.desc, pc := descBlock st.desc, cls := descClass st.desc,
    kind := st.kind, native := st.call != 0, redundant := descRedundant st.desc, linkUsing := descFlags st.desc / 2 % 2 == 1, gates := st.gates }
  let x := runs.foldl (fun x e => x.setRun e.1 e.2) x
  { x with regs := startRegs c.logicalNo st x.run }
/-- Takes a slot's lots on its core: scrubbed, but for an inherited run; what the descriptor does not ask of that is given back (R14, R312). -/
def State.takeLots (s : State) (r k : Nat) (runs : List (Sto × Run)) (inh : Run) : State :=
  let s := (List.range inh.count).foldl (fun s i =>
    let u := inh.start + i
    if runs.any fun e => e.1 == .s && e.2.has u then s else s.freeLot r .s u) s
  runs.foldl (fun s e => s.takeRun r k e.1 e.2 fun u => !(e.1 == .s && inh.has u)) s
/-- The twin of a redundant activity takes a slot and lots on its partner core, with the same registers; a failed core takes no start (R459, R460,
R463). -/
def State.addTwin (s : State) (r k : Nat) (st : Start) : Option State :=
  let q := s.partner r
  match if (s.core q).off then none else (s.core q).freeSlot s q, s.startRuns q { st with run := none } with
  | some j, some runs =>
    let y : Slot := runs.foldl (fun y e => y.setRun e.1 e.2)
      { (default : Slot) with live := true, isTwin := true, gen := (s.slot q j).gen + 1, launch := st.launch, rect := st.rect, cls := descClass st.desc, kind := st.kind,
                              regs := (s.slot r k).regs }
    let s := (s.takeLots q j runs default).setSlot q j y
    some ((s.updCore q fun c => c.logEntry 0 (st.launch.zeroExtend 64) s.cycle).updSlot r k fun x => { x with twin := some (q, j) })
  | _, _ => none
/-- Starts an activity in a free slot (R12); none while a slot or a lot is missing. -/
def State.begin (s : State) (r : Nat) (st : Start) : Option State :=
  match (s.core r).freeSlot s r, s.startRuns r st with
  | some k, some runs =>
    let x := s.started r st (s.slot r k).gen runs
    let s := (s.takeLots r k runs (st.run.getD default)).setSlot r k x
    let s := s.updCore r fun c => c.logEntry 0 (st.launch.zeroExtend 64) s.cycle
    let s := if st.call = 0 then s else s.issue (deviceAct r) 0 0 0 0 (.serve k x.gen st.call) (.ready (.loc r .s 0))
    if descRedundant st.desc then s.addTwin r k st else some s
  | _, _ => none
/-- The entry that the ring starts next: the lowest class, and within it the earliest (R326). -/
def Core.ringHead (c : Core) : Option Nat :=
  (List.range 4).findSome? fun p => c.ring.findIdx? fun st => descClass st.desc == p
/-- A primary's link to its twin, whose slot has changed (R353, R459). -/
def Slot.twinMoved (x : Slot) (a b : Nat × Nat) : Slot := if x.twin = some a then { x with twin := some b } else x
/-- Renames an activity whose slot has changed. -/
def State.renameAct (s : State) (a b : ActId) : State :=
  let act := fun (x : ActId) => if x = a then b else x
  let bind := fun (y : Binding) => { y with binder := act y.binder }
  { s with
    reqs := s.reqs.map fun q => { q with act := act q.act, eff := match q.eff with
      | .porter c => .porter { c with act := act c.act }
      | .bind w y => .bind w (bind y)
      | .qbind o y => .qbind o (bind y)
      | e => e },
    cores := s.cores.map fun e => (e.1, { e.2 with
      binds := mapEach e.2.binds (fun y => y.binder == a) bind,
      porter := e.2.porter.map fun c => { c with act := act c.act },
      slots := (mapEach e.2.slots (fun x => x.custody.state == 2 && x.custody.taker == a) fun x => { x with custody := { x.custody with taker := b } }).map
        fun x => (x.1, x.2.twinMoved (a.core, a.slot) (b.core, b.slot)),
      resume := e.2.resume.map fun x => (x.1, x.2.twinMoved (a.core, a.slot) (b.core, b.slot)) }) }
/-- A freed slot goes to the resume list first (R353). -/
def State.resumeWaiting (s : State) (r : Nat) : Option State :=
  match (s.core r).resume, (s.core r).freeSlot s r with
  | (j, x) :: rest, some k =>
    let gen := (s.slot r k).gen + 1
    let owned := fun (l : LStore) => { l with lots := mapEach l.lots (fun n => n == j + 1) fun _ => k + 1 }
    let s := s.updCore r fun c => { c with resume := rest, w := owned c.w, a := owned c.a, c := owned c.c, s := owned c.s }
    some ((s.setSlot r k { x with gen := gen }).renameAct { core := r, slot := j, gen := x.gen } { core := r, slot := k, gen := gen })
  | _, _ => none
/-- A start that was made from an old image's entry, on a core that has begun its switch (R449). -/
def State.onNewImage (s : State) (r : Nat) (st : Start) : Start :=
  if (s.core r).switching = 0 ∨ st.image = s.newImage then st
  else { st with entry := (Config.movedEntry s.newImage st.entry).1, desc := (Config.movedEntry s.newImage st.entry).2, image := s.newImage }
/-- RING_START (R326, R353). A gated core and a failed core start nothing (R338, R463). -/
def execRingStart (core : Nat) (s : State) : Out :=
  let c := s.core core
  if c.gated || c.off then .next s
  else if !c.resume.isEmpty then .next ((s.resumeWaiting core).getD s)
  else match c.ringHead with
    | some i =>
      match c.ring[i]? with
      | some st => .next (((s.updCore core fun c => c.takeRing i).begin core (s.onNewImage core st)).getD s)
      | none => .next s
    | none => .next s

end Sys2Proof.Machine
end

