-- ==== Sys2Proof/Machine/Engines.lean ====
section
/-! DEFINITION. Engines at work: leave (R214, R470), the porter (R215 to R220, R336, R337), the feeds (R221 to R223) and the matrix unit
(R172 to R177, R226, R227). -/

namespace Sys2Proof.Machine

/-! ## Leave (R214, R470) -/

/-- An MMA that has come to the head of its unit asks for leave (R214). -/
def State.headAsks (s : State) (r : Nat) : State :=
  match (s.core r).mx with
  | m :: rest =>
    if m.isMma && m.leave == 0 && m.code == 0 then
      { s.updCore r fun c => { c with mx := { m with leave := 1 } :: rest, leaveWait := if c.awaitsLeave then c.leaveWait else s.cycle } with
          leaveWait := s.leaveWait ++ [(dieOf r, r, m.id, mxLeave)] }
    else s
  | [] => s
/-- A command that waits for leave. -/
def Core.asker (c : Core) (id : Nat) : Bool := c.porter.any (fun p => p.id == id && p.leave == 1) || c.mx.any fun m => m.id == id && m.leave == 1
/-- A command has its leave. -/
def Core.granted (c : Core) (id : Nat) (now : Word) : Core :=
  { c with porter := c.porter.map (fun p => if p.id == id then { p with leave := 2, chunkStart := now } else p),
           mx := c.mx.map (fun m => if m.id == id then { m with leave := 2, starveFrom := now } else m) }
/-- LEAVE_GRANT (R470): the earliest request of the die, when the budget covers it. -/
def execLeaveGrant (die : Nat) (s : State) : Out :=
  match s.leaveWait.find? fun w => w.1 == die with
  | some (d, r, id, n) =>
    let rest : State := { s with leaveWait := s.leaveWait.filter fun w => !(w.1 == d && w.2.1 == r && w.2.2.1 == id) }
    if (s.core r).gated || !(s.core r).asker id then .next rest
    else if mapGet s.leave die + n ≤ s.fuses.leave then
      .next ({ rest with leave := mapUpd s.leave die (· + n) }.updCore r fun c => c.granted id s.cycle)
    else .next s
  | none => .next s
/-- LEAVE_WAIT_COUNT (R178): event 15, one for each 1,024 cycles of waiting; a halted core's commands have left the desk (R337, R470). -/
def execLeaveWaitCount (core : Nat) (s : State) : Out :=
  let c := s.core core
  if !c.gated && c.awaitsLeave && c.leaveWait.toNat + 1024 ≤ s.cycle.toNat then
    .next ((s.updCore core fun c => { c with leaveWait := c.leaveWait + 1024 }).count core 15 1)
  else .next s

/-! ## The porter (R215 to R220, R336) -/

def PorterCmd.total (c : PorterCmd) : Nat := c.rowBytes * c.rows
/-- The address of a side at a byte offset of the command (R216, R219). -/
def PorterCmd.addr (c : PorterCmd) (src : Bool) (o : Nat) : MemAddr :=
  let a := if src then c.src else c.dst
  let stride := if src then c.srcStride else c.dstStride
  { a with va := a.va + BitVec.ofInt 64 (stride * ((o / c.rowBytes : Nat) : Int)) + BitVec.ofNat 64 (o % c.rowBytes) }
/-- Bytes of the unit at an offset: 64 where both ranges allow an aligned one, else 16 (R216). -/
def PorterCmd.unitAt (c : PorterCmd) (o : Nat) : Nat :=
  let whole := fun (src : Bool) => (c.addr src o).va.toNat % 64 == 0
  if whole false && (c.zero || whole true) && o % c.rowBytes + 64 ≤ c.rowBytes then 64 else 16
/-- Offsets of the units in `[o, hi)`. -/
def PorterCmd.unitsFrom (c : PorterCmd) (hi : Nat) : Nat → Nat → List Nat
  | 0, _ => []
  | fuel + 1, o => if hi < o + c.unitAt o then [] else o :: c.unitsFrom hi fuel (o + c.unitAt o)
/-- Where the chunk under way ends (R336): 64 KiB on, or, once its 4,096 cycles are over, behind the units that it has begun. -/
def PorterCmd.chunkEnd (c : PorterCmd) (now : Word) : Nat :=
  if c.chunkStart.toNat + 4096 ≤ now.toNat then (c.ahead ++ c.flying).foldl (fun m o => Nat.max m (o + c.unitAt o)) c.done
  else Nat.min c.total (c.chunkDone + 65536)
/-- The units of the chunk that have not begun; they may be written in any order (R374, R376). -/
def PorterCmd.next (c : PorterCmd) (now : Word) : List Nat :=
  (c.unitsFrom (c.chunkEnd now) 4097 c.done).filter fun o => !c.ahead.contains o && !c.flying.contains o
/-- A chunk has ended: 64 KiB, 4,096 cycles, or nothing done in it yet, and every write of it is acknowledged (R336). -/
def PorterCmd.atBoundary (c : PorterCmd) (now : Word) : Bool :=
  c.ahead.isEmpty && c.flying.isEmpty && (c.done == c.chunkDone || (c.next now).isEmpty)
def State.updPorter (s : State) (r id : Nat) (f : PorterCmd → PorterCmd) : State :=
  s.updCore r fun k => { k with porter := k.porter.map fun p => if p.id == id then f p else p }
/-- An address of a command reached: a local store, or by translation (R220). -/
def State.reach (s : State) (r : Nat) (c : PorterCmd) (src : Bool) (o : Nat) : Sought :=
  let a := c.addr src o
  match stoOfKind a.kind with
  | some k => match s.router c.lodging (addrCore a.va) with
    | some q => if !s.portOk q c.lodging then .fail tLodging
      else if s.lotAway q k (addrOff a.va) 64 || s.behindMarker c.lodging r q then .wait s
      else .ok (.loc q k (addrOff a.va)) default
    | none => .fail tLodging
  | none => s.seek r c.lodging (.porter c.id) a (if src then 4 else 5) (localAddr (s.core r).logicalNo c.receipt)
/-- Places that keep tags (R34). -/
def Place.keepsTags : Place → Bool | .loc _ k _ => k.tagged | .hbm _ => true | _ => false
/-- The place `n` bytes further. -/
def Place.plus (n : Nat) : Place → Place
  | .hbm a => .hbm (a + n) | .far a => .far (a + n) | .host a m => .host (a + n) m | .peer d => .peer d | .loc r k a => .loc r k (a + n)
/-- The granules that the porter read: bytes and tag bits; or a code. -/
def State.porterRead (s : State) (c : PorterCmd) (p : Place) (n : Nat) : Except Nat (List (List Byte × Bool)) :=
  (List.range (n / 16)).foldr (fun i acc =>
    match acc with
    | .error e => .error e
    | .ok l => match s.readAt c.lodging c.src.space (p.plus (16 * i)) 16 with
      | .ok bs t => .ok ((bs, t && c.tags && p.keepsTags) :: l)
      | .fail e => .error e) (.ok [])
/-- Writes the granules of a unit on this device. -/
def State.porterWrite (s : State) (c : PorterCmd) (p : Place) (gs : List (List Byte × Bool)) : State :=
  (List.range gs.length).foldl (fun s i =>
    let g := gs[i]?.getD ([], false)
    s.writeAt c.dst.space (p.plus (16 * i)) (g.1.map some) (g.2 && p.keepsTags)) s
/-- The lowest offset not acknowledged moves on over units that are. -/
def PorterCmd.advance (c : PorterCmd) : Nat → PorterCmd
  | 0 => c
  | n + 1 => if c.ahead.contains c.done then ({ c with ahead := c.ahead.filter (· != c.done), done := c.done + c.unitAt c.done } : PorterCmd).advance n else c
/-- The unit at an offset is acknowledged. -/
def PorterCmd.acked (c : PorterCmd) (o : Nat) : PorterCmd :=
  ({ c with flying := c.flying.filter (· != o), ahead := c.ahead ++ [o] } : PorterCmd).advance (c.ahead.length + 1)
/-- A unit is acknowledged: it is reported, once (R337), and the cursor between chunks (R207, R215, R216). -/
def State.unitAcked (s : State) (r : Nat) (c : PorterCmd) (o : Nat) : State :=
  let c' := c.acked o
  let ends := c'.atBoundary s.cycle
  let again := c.told.contains o
  let c' := { c' with told := c'.told.filter (· != o) }
  let s := s.updPorter r c.id fun _ => if ends then { c' with chunkDone := c'.done, chunkStart := s.cycle } else c'
  let s := if again then s else s.receiptUnits r c.receipt (c.unitAt o)
  if ends && c'.done < c'.total then s.receiptCursor r c.receipt c'.done else s
/-- A chunk whose time is over ends where the command stands, and the next one begins (R336). -/
def State.nextChunk (s : State) (r : Nat) (c : PorterCmd) : State :=
  (s.updPorter r c.id fun p => { p with chunkDone := p.done, chunkStart := s.cycle }).receiptCursor r c.receipt c.done
def State.porterFault (s : State) (r id code : Nat) : State := s.updPorter r id fun p => { p with code := if p.code = 0 then BitVec.ofNat 8 code else p.code }
/-- A unit goes to a peer, as a read or as a write (R377, R415). -/
def State.unitFlies (s : State) (r : Nat) (c : PorterCmd) (o device : Nat) (reads : Bool) (b : Nat → FlitBody) : State :=
  if !s.hasRoute device 0 then s
  else
    let id := s.nextReq
    let s := s.issue (deviceAct r) c.lodging 0 0 0 (.unit c.id o (c.unitAt o) reads (c.addr reads o)) .waiting
    (s.sendFlit device 0 c.lodging (s.core r).logicalNo (b id)).updPorter r c.id fun p => { p with flying := p.flying.filter (· != o) ++ [o] }
/-- What has been read of a unit is written to its destination. -/
def State.unitWrite (s : State) (r : Nat) (c : PorterCmd) (o : Nat) (d : Place) (gs : List (List Byte × Bool)) : State :=
  match d with
  | .peer dev => s.unitFlies r c o dev false fun id => (MemOp.store ((gs.map Prod.fst).flatten.map some) none).flit id (c.addr false o)
  | _ => (s.porterWrite c d gs).unitAcked r c o
/-- A page of kind STRONG that a unit reaches waits for the activity's earlier requests to such pages (R366, R370). -/
def State.strongWaits (s : State) (r : Nat) (c : PorterCmd) (o : Nat) : Bool :=
  let strong := fun (src : Bool) => (c.addr src o).kind == 1 && s.pageKind r (c.addr src o) == 0
  ((!c.zero && strong true) || strong false) && s.reqs.any fun q => q.act == c.act && q.id < c.id && q.mem.isSome && s.kindOf q == 0
/-- One unit of a porter command (R216 to R219): read, then written. -/
def State.porterUnit (s : State) (r : Nat) (c : PorterCmd) (o : Nat) : State :=
  let dst := s.reach r c false o
  let from_ := if c.zero then none else some (s.reach r c true o)
  match from_, dst with
  | some (.fail e), _ => s.porterFault r c.id e
  | some (.wait s), _ => s
  | _, .fail e => s.porterFault r c.id e
  | _, .wait s => s
  | none, .ok d _ => s.unitWrite r c o d (List.replicate (c.unitAt o / 16) (List.replicate 16 0, false))
  | some (.ok p _), .ok d _ =>
    match p with
    | .peer dev => s.unitFlies r c o dev true fun id => .read id c.src.space ((c.addr true o).va / 64 * 64)
    | _ => match s.porterRead c p (c.unitAt o) with
      | .error e => (s.readFails p e).porterFault r c.id e
      | .ok gs => (match p with | .loc q k off => s.repairStore q k off (c.unitAt o) | _ => s).unitWrite r c o d gs
/-- The answer of a peer to a unit: what was read is written on, a write is acknowledged, a fault of the peer ends the command (R220, R415). -/
def State.unitAnswered (s : State) (r : Nat) (c : PorterCmd) (q : Req) (o : Nat) (resp : Resp) : State :=
  match resp with
  | .ack => (s.dropReq q.id).unitAcked r c o
  | .fail code _ _ => ((s.dropReq q.id).updPorter r c.id fun p => { p with flying := p.flying.filter (· != o) }).porterFault r c.id code.toNat
  | .val v _ =>
    let n := c.unitAt o
    let at' := (c.addr true o).va.toNat % 64
    let gs := (List.range (n / 16)).map fun g => ((List.range 16).map fun i => bitsAt v.bits (8 * (at' + 16 * g + i)) 8, false)
    if c.code ≠ 0 then (s.dropReq q.id).updPorter r c.id fun p => { p with flying := p.flying.filter (· != o) }
    else match s.reach r c false o with
      | .ok d _ => (s.dropReq q.id).unitWrite r c o d gs
      | .fail e => ((s.dropReq q.id).updPorter r c.id fun p => { p with flying := p.flying.filter (· != o) }).porterFault r c.id e
      | .wait s => s
/-- A unit of a command whose peer has answered. -/
def State.unitBack (s : State) (r id : Nat) : Option (Req × Nat × Resp) :=
  s.reqs.findSome? fun q => match q.eff, q.stage with
    | .unit cmd o _ _ _, .done resp => if cmd = id ∧ q.act.core = r then some (q, o, resp) else none
    | _, _ => none
/-- ENGINE_UNITS (R216, R336, R374, R376): a unit whose peer has answered, or else one of the units of the chunk that have not begun. -/
def execEngineUnits (core cmd : Nat) (s : State) : Out :=
  match (s.core core).porter.find? fun p => p.id == cmd with
  | some c =>
    match s.unitBack core cmd with
    | some (q, o, resp) => .next (s.unitAnswered core c q o resp)
    | none =>
      if s.lotAway core .s c.receipt 16 || c.code != 0 || c.stopped || c.leave == 1 || (((s.core core).gated || c.asked != 0) && c.atBoundary s.cycle) then .next s
      else
        let os := c.next s.cycle
        match os[Config.pick s.tick % os.length]? with
        | some o => if s.strongWaits core c o then .next s else .next (s.porterUnit core c o)
        | none => .next (if c.atBoundary s.cycle && c.done < c.total then s.nextChunk core c else s)
  | none => .next s
/-- A porter command that may stop for a switch (R336): at a chunk boundary, or while it waits for leave or for a page. -/
def State.mayStop (s : State) (core : Nat) (p : PorterCmd) : Bool :=
  !p.stopped && p.flying.isEmpty && (p.leave == 1 || p.code != 0 || s.seeking core (.porter p.id) || p.atBoundary s.cycle)
/-- ENGINE_CHUNK_STOP (R336): an engine of a core that is halted stops at a chunk boundary, and gives its leave back (R470); of a chunk that was cut
off, what lies past the cursor is read and written again (R337). -/
def execEngineChunkStop (core cmd : Nat) (s : State) : Out :=
  let c := s.core core
  let forget : State := { s with leaveWait := s.leaveWait.filter fun w => !(w.2.1 == core && w.2.2.1 == cmd) }
  if !c.gated then .next s
  else match c.porter.find? fun p => p.id == cmd with
    | some p =>
      if !s.mayStop core p then .next s
      else
        let s := forget.receiptCursor core p.receipt p.done
        let s := if p.leave = 2 then s.leaveBack (dieOf core) porterLeave else s
        .next ((s.updPorter core cmd fun p => { p with stopped := true, leave := Nat.min p.leave 1, chunkDone := p.done, told := p.told ++ p.ahead, ahead := [] }).enginesStopped c.lodging)
    | none => match c.mx.find? fun m => m.id == cmd with
      | some m => if m.leave = 2 then
          .next (((forget.leaveBack (dieOf core) mxLeave).updCore core fun c =>
            { c with mx := c.mx.map fun m => if m.id == cmd then { m with leave := 1 } else m }).enginesStopped c.lodging)
        else .next s
      | none => .next s
/-- What the end of a command lets happen: lots come back, cancellations are acknowledged (R30, R443). -/
def State.afterEnd (s : State) : State := s.reclaimAll.settleCancels
/-- A porter command ends (R216, R220). -/
def State.endPorter (s : State) (r : Nat) (c : PorterCmd) : State :=
  let s := s.updCore r fun k => { k with porter := k.porter.filter fun p => p.id != c.id }
  let s : State := { s with leaveWait := s.leaveWait.filter fun w => !(w.2.1 == r && w.2.2.1 == c.id) }
  let s := if c.leave = 2 then s.leaveBack (dieOf r) porterLeave else s
  (s.receiptEnd r c.receipt c.code.toNat c.done).afterEnd
/-- A matrix command ends (R226, R227): one with a fault code empties both feeds; the next MMA asks for leave. -/
def State.endMx (s : State) (r : Nat) (m : MxCmd) : State :=
  let s := s.updCore r fun k =>
    let k := { k with mx := k.mx.filter fun x => x.id != m.id }
    if m.code = 0 then k else { k with aFeed := [], bFeed := [], aQueue := [], bQueue := [] }
  let s : State := { s with leaveWait := s.leaveWait.filter fun w => !(w.2.1 == r && w.2.2.1 == m.id) }
  let s := if m.leave = 2 then s.leaveBack (dieOf r) mxLeave else s
  ((s.receiptEnd m.rcore m.receipt m.code.toNat m.done).headAsks r).afterEnd
/-- Engine commands of a core may end: it is not halted (R336), or its lodging is ending (R355). -/
def State.mayEnd (s : State) (core : Nat) : Bool := !(s.core core).gated || (s.lodging (s.core core).lodging).ending != 0
/-- The receipt of a command lies in a lot unit that has not been read back (R346). -/
def State.receiptAway (s : State) (core cmd : Nat) : Bool :=
  ((s.core core).porter.any fun p => p.id == cmd && s.lotAway core .s p.receipt 16) || (s.core core).mx.any fun m => m.id == cmd && s.lotAway m.rcore .s m.receipt 16
/-- ENGINE_END (R210, R216, R220, R226, R227): a command that is complete, or that ends with a code; the writes it has issued are
acknowledged first. -/
def execEngineEnd (core cmd : Nat) (s : State) : Out :=
  let c := s.core core
  if !s.mayEnd core || s.receiptAway core cmd then .next s
  else match c.porter.find? fun p => p.id == cmd with
  | some p =>
    if !p.flying.isEmpty then .next s
    else if p.code != 0 || (p.total ≤ p.done && !p.stopped && p.leave != 1) then .next (s.endPorter core p)
    else if p.asked != 0 && (p.stopped || s.mayStop core p) then .next (s.endPorter core { p with code := p.asked })
    else .next s
  | none => match c.mx.find? fun m => m.id == cmd with
    | some m => if m.code != 0 || (m.isMma && m.leave == 2 && m.done == m.steps) then .next (s.endMx core m) else .next s
    | none => .next s

/-! ## The feeds (R221 to R223) -/

/-- FEED_FBLOCK_ENTER (R221, R223): the next fblock of a feed's oldest FEED enters while the feed has room. -/
def execFeedFblockEnter (core : Nat) (feedB : Bool) (s : State) : Out :=
  let c := s.core core
  let k : Sto := if feedB then .w else .a
  let room := if feedB then c.bFeed.length < 64 else c.aFeed.length < 128
  match if feedB then c.bQueue else c.aQueue with
  | (lo, hi) :: rest =>
    if c.gated || !room then .next s
    else if s.lotAway core k lo 64 then .next (s.updCore core fun c => { c with feedAway := if c.feedAway = 0 then s.cycle.toNat + 1 else c.feedAway })
    else
      let l := c.store k
      let b : V512 × Bool := (wordOfBytes 512 (bytesAt l.bytes lo 64), l.bad lo 64)
      let rest := if lo + 64 < hi then (lo + 64, hi) :: rest else rest
      let s := if b.2 then s.noteError core k.unitNo else s
      let s := (s.repairStore core k lo 64).updCore core fun c =>
        if feedB then { c with bFeed := c.bFeed ++ [b], bQueue := rest } else { c with aFeed := c.aFeed ++ [b], aQueue := rest }
      .next (if lo + 64 < hi then s else s.reclaim core)
  | [] => .next s

/-! ## The matrix unit (R172 to R177, R226, R227) -/

/-- MATRIX_COMMAND_ACCEPT (R226): a unit takes a command while it holds fewer than 16, in each sender's order. -/
def execMatrixCommandAccept (req : Nat) (s : State) : Out :=
  match s.req req with
  | some q =>
    match q.eff, q.atCore with
    | .matrix m, some (r, _) =>
      let before := (s.reqs.takeWhile fun p => p.id != req).any fun p => p.act.core == q.act.core && !p.stage.isDone && (match p.eff with | .matrix x => x.core == r | _ => false)
      if before || s.markerHeld q || 16 ≤ (s.core r).mx.length then .next s
      else .next (((s.updCore r fun c => { c with mx := c.mx ++ [m] }).headAsks r).answer req .ack)
    | _, _ => .next s
  | none => .next s
/-- Element types of one block-step's pair meet: same width class, or one is a zero or a poison block (R9, R161). -/
def pairOk (a b : Hdr) : Bool := match a, b with | .real _ t _, .real _ u _ => t.width == u.width | _, _ => true
/-- Elements that a pair multiplies. -/
def pairCount (a b : Hdr) : Nat := match a, b with | .real _ t _, _ => t.count | _, .real _ t _ => t.count | _, _ => 0
/-- One product, and what non-finite operands make of it (R173). -/
def elProduct (a b : FNum) : FNum :=
  if a.isNan || b.isNan || (a.isInf && b.isZero) || (a.isZero && b.isInf) then .nan false
  else if a.isInf || b.isInf then .inf (a.isNeg != b.isNeg)
  else let x := Ex.mul a.ex b.ex; .fin x.neg x.m x.e
/-- Adds a product to the sum so far (R172, R173). -/
def addProduct (acc p : FNum) : FNum :=
  match acc, p with
  | .nan x, _ => .nan x
  | _, .nan x => .nan x
  | .inf x, .inf y => if x == y then .inf x else .nan false
  | .inf x, _ => .inf x
  | _, .inf y => .inf y
  | a, b => let x := Ex.add 1 a.ex b.ex; .fin (x.neg && x.m != 0) x.m x.e
/-- The exact sum S_ij, NaN for a poison block (R172, R173). -/
def pairSum (ha hb : Hdr) (a b : V512) : FNum :=
  if ha = .poison ∨ hb = .poison then .nan false
  else (List.range (pairCount ha hb)).foldl (fun acc k => addProduct acc (elProduct (ha.value a k) (hb.value b k))) (.fin false 0 0)
/-- C_ij after the step, and its events (R172, R173, R178). -/
def stepCell (c : Nat) (s : FNum) : Nat × List Nat :=
  let r := f32.addNum 1 0 (f32.decode c) s
  let nan := (f32.decode r.1).isNan
  (if nan then f32.nan else r.1, (if r.2.contains evOverflow then [evOverflow] else []) ++ (if nan && !(f32.decode c).isNan then [5] else []))
/-- All headers of a list of fblocks; none when one has an unlisted code. -/
def hdrsOf : List (V512 × Bool) → Option (List (Hdr × V512))
  | [] => some []
  | e :: es => match hdrOf e.1, hdrsOf es with | .ok h, some hs => some ((h, e.1) :: hs) | _, _ => none
/-- One block-step on a tile of 2,048 cells: the code it ends with, or the new cells and their events. -/
def stepTile (cells : List Nat) (as bs : List (V512 × Bool)) : Except Nat (List (Nat × List Nat)) :=
  match hdrsOf as, hdrsOf bs with
  | some ha, some hb =>
    if ha.any fun a => hb.any fun b => !pairOk a.1 b.1 then .error tFormatPair
    else .ok ((List.range 2048).map fun n =>
      let a := ha[n / 32]?.getD (.zero, 0)
      let b := hb[n % 32]?.getD (.zero, 0)
      stepCell (cells[n]?.getD 0) (pairSum a.1 b.1 a.2 b.2))
  | _, _ => .error tFormat
def State.updMx (s : State) (r id : Nat) (f : MxCmd → MxCmd) : State := s.updCore r fun k => { k with mx := k.mx.map fun p => if p.id == id then f p else p }
/-- Oxkan runs TEST.RUN on the matrix unit of a core that has failed (R458), from the first steward core of its die and with no receipt (log 19). -/
def State.testFailed (s : State) (r : Nat) : State :=
  let o := 4096 + 4 * dieOf r
  s.issue (deviceAct o) 0 0 0 0 (.testRun r 0 (Config.failSet 0) noReceipt) (.ready (.loc o .s 0))
/-- The block-step of the running MMA (R172 to R177, R226, R227). -/
def State.blockStep (s : State) (r : Nat) (m : MxCmd) : State :=
  let c := s.core r
  let as := c.aFeed.take 64
  let bs := c.bFeed.take 32
  let ends := fun (s : State) (code : Nat) => s.updMx r m.id fun x => { x with code := BitVec.ofNat 8 code }
  let clear := m.zero && m.done == 0
  if as.any (·.2) || bs.any (·.2) || (!clear && c.c.bad m.off 0x2000) then ends (if c.c.bad m.off 0x2000 then s.noteError r 5 else s) tUncorrectable
  else
    let s := s.repairStore r .c m.off 0x2000
    let cells := (List.range 2048).map fun n => if clear then 0 else numBytes (s.core r).c.bytes (m.off + 4 * n) 4
    let wrong := mapGet s.residue r
    match stepTile cells as bs with
    | .error e => ends s e
    | .ok out =>
      let s : State := { s with residue := mapSet s.residue r (wrong - 2) }
      let s := if wrong = 0 then s else s.count r 6 1
      if 2 ≤ wrong then (((ends s tResidue).count r 7 1).failUnit r 0 0).testFailed r
      else
        let evs := (out.map Prod.snd).flatten
        let s := s.writeAt 0 (.loc r .c m.off) ((out.map fun e => bytesOf 4 (BitVec.ofNat 32 e.1)).flatten.map some) false
        let on := r :: (s.twinsOf r .c m.off 0x2000).map Prod.fst
        let s := if evs.contains evOverflow then on.foldl (fun s q => s.count q evOverflow 1) s else s
        let s := if evs.contains 5 then on.foldl (fun s q => s.count q 5 1) s else s
        let s := s.updCore r fun k => { k with aFeed := k.aFeed.drop 64, bFeed := k.bFeed.drop 32 }
        let s := s.updMx r m.id fun x => { x with done := x.done + 1, starveFrom := s.cycle }
        (s.receiptUnits m.rcore m.receipt 1).receiptCursor m.rcore m.receipt (m.done + 1)
/-- The running MMA that may take a block-step. -/
def Core.stepping (c : Core) : Option MxCmd := if c.gated then none else c.running.filter fun m => m.isMma && m.code == 0 && m.done < m.steps
/-- A tile or a receipt lies in a lot unit that has not been read back (R346). -/
def State.tileAway (s : State) (r : Nat) (m : MxCmd) : Bool := s.lotAway r .c m.off 0x2000 || s.lotAway m.rcore .s m.receipt 16
/-- BLOCK_STEP (R226). -/
def execBlockStep (core : Nat) (s : State) : Out :=
  match (s.core core).stepping with
  | some m => if (s.core core).feedShort || s.tileAway core m then .next s else .next (s.blockStep core m)
  | none => .next s
/-- MZERO_COMPLETE (R226): the tile is set to +0, one unit is reported, and the command ends. -/
def execMzeroComplete (core : Nat) (s : State) : Out :=
  let c := s.core core
  match c.mx.head? with
  | some m =>
    if c.gated || m.isMma || m.code != 0 || s.tileAway core m then .next s
    else
      let s := s.writeAt 0 (.loc core .c m.off) (List.replicate 0x2000 (some 0)) false
      .next ((s.receiptUnits m.rcore m.receipt 1).endMx core { m with done := 1 })
  | none => .next s
/-- ENGINE_STARVED (R227): the next block-step has waited 2^20 cycles for fblocks. -/
def execEngineStarved (core : Nat) (s : State) : Out :=
  match (s.core core).stepping with
  | some m =>
    if (s.core core).feedShort && (s.core core).feedAway == 0 && m.starveFrom.toNat + 2 ^ 20 ≤ s.cycle.toNat then .next (s.updMx core m.id fun x => { x with code := BitVec.ofNat 8 tStarved })
    else .next s
  | none => .next s

end Sys2Proof.Machine
end

