-- ==== Sys2Proof/Machine/HostPort.lean ====
section
/-! DEFINITION. The host port: the inlet and its requests (R401 to R406, R409, R412, R446), reply queues (R407, R408) and the binding
of a session (R468). -/

namespace Sys2Proof.Machine

/-! ## Acceptance (R402, R405, R406) -/

/-- Requests of kinds 4 and 5 have no status entry (R405). -/
def hasStatus (kind : Nat) : Bool := kind != 4 && kind != 5
/-- A discarded write of a known session is counted (R402). -/
def State.dropWrite (s : State) (session : Nat) : State :=
  if (mapGet s.sessions session).known && s.boot != 2 then { s with sessions := mapUpd s.sessions session fun e => { e with dropped := e.dropped + 1 } } else s
/-- An authenticated write of a session: accepted, it becomes a request of its own; otherwise it is discarded (R402, R406, R466). -/
def State.inletWrite (s : State) (session seq kind : Nat) (payload : BitVec 320) : State :=
  let e := mapGet s.sessions session
  if !e.known || s.boot == 2 then s
  else if seq ≤ e.last || 2 ^ 32 ≤ seq || (hasStatus kind && 64 ≤ e.unanswered) then s.dropWrite session
  else
    let s : State := { s with sessions := mapSet s.sessions session { e with last := seq, unanswered := e.unanswered + bit1 (hasStatus kind) } }
    s.issue (deviceAct 4096) 0 0 0 0 (.inlet session seq kind payload) (.ready (.loc 4096 .s 0))
/-- INLET_LAUNCH (R402, R404). -/
def execInletLaunch (session seq : Nat) (payload : BitVec 320) (s : State) : Out := .next (s.inletWrite session seq 1 payload)
/-- INLET_WINDOW (R402, R404). -/
def execInletWindow (session seq : Nat) (payload : BitVec 320) (s : State) : Out := .next (s.inletWrite session seq 2 payload)
/-- INLET_POST (R402, R404). -/
def execInletPost (session seq : Nat) (payload : BitVec 320) (s : State) : Out := .next (s.inletWrite session seq 3 payload)
/-- INLET_CREDIT (R402, R404). -/
def execInletCredit (session seq : Nat) (payload : BitVec 320) (s : State) : Out := .next (s.inletWrite session seq 4 payload)
/-- INLET_AGENT (R402, R404). -/
def execInletAgent (session seq : Nat) (payload : BitVec 320) (s : State) : Out := .next (s.inletWrite session seq 5 payload)
/-- INLET_CALL (R402, R404). -/
def execInletCall (session seq : Nat) (payload : BitVec 320) (s : State) : Out := .next (s.inletWrite session seq 6 payload)
/-- INLET_UNKNOWN_KIND (R404): a kind that R404 does not list. -/
def execInletUnknownKind (session seq : Nat) (kind : BitVec 8) (payload : BitVec 320) (s : State) : Out :=
  if 1 ≤ kind.toNat ∧ kind.toNat ≤ 6 then .next s else .next (s.inletWrite session seq kind.toNat payload)
/-- INLET_WRITE_DISCARDED (R402): a write that is no request of the session. -/
def execInletWriteDiscarded (session : Nat) (s : State) : Out := .next (s.dropWrite session)
/-- Bytes of BAR0, the inlet (R401). -/
def barSize : Nat := 65536
/-- INLET_READ (R401): the host's read of an offset of the inlet completes with zeros; in recovery the port does not answer it (R466). -/
def execInletRead (offset : Nat) (s : State) : Out :=
  .next (if offset < barSize ∧ s.boot ≠ 2 then s.toHost (.completion offset 0) else s)
/-- A write of the host to the inlet, as a TLP brings it (R402, R403): 64 bytes at a 64-byte-aligned offset in one posted write, for a known
session, with byte 7 zero, that authenticates; any other is discarded, and counted for a known session. -/
def State.inletTlp (s : State) (offset : Nat) (posted : Bool) (data : List Byte) : State :=
  let n := fun (o k : Nat) => natOfBytes ((data.drop o).take k)
  let session := n 4 2
  if barSize ≤ offset ∨ data.length < 8 then s
  else if !posted || data.length != 64 || offset % 64 != 0 || n 7 1 != 0 then s.dropWrite session
  else
    match Config.opened (mapGet s.sessions session).inletKey ((mapGet s.sessions session).inletSalt ++ BitVec.ofNat 64 (n 0 8)) (BitVec.ofNat 64 (n 0 8)) (BitVec.ofNat 320 (n 8 40))
        (BitVec.ofNat 128 (n 48 16)) with
    | some p => s.inletWrite session (n 0 4) (n 6 1) p
    | none => s.dropWrite session
/-- Requests of a session whose status entry has not been written (R406). -/
def State.unwritten (s : State) (lodging session : Nat) : Nat :=
  (s.reqs.filter fun q => match q.eff with | .inlet n _ kind _ => n == session && hasStatus kind | _ => false).length
    + ((mapGet (s.lodging lodging).replies 0).waiting.filter fun e => e.1 == 1).length
/-- The labels under which a session's keys are exported (R468). -/
def keyLabel (name : String) : List Byte := name.toList.map fun c => BitVec.ofNat 8 c.toNat
/-- SESSION_BIND_REQUEST (R402, R468): inside the secured session that the host speaks in, a session is established, afresh when it was known, with
the keys exported from it, and its number and salts are answered. -/
def execSessionBindRequest (lodging session : Nat) (inletSalt replySalt : W32) (s : State) : Out :=
  let l := s.lodging lodging
  let p := mapGet s.spdm s.speaking
  if p.phase == 2 && lodging != 0 && (l.live || l.out) && l.session == session && s.boot != 2 then
    .next { s with
      sessions := mapSet s.sessions session
        { known := true, lodging := lodging, last := 0, dropped := 0, unanswered := s.unwritten lodging session, inletSalt := inletSalt, replySalt := replySalt,
          inletKey := Config.hkdfExpand p.secret (keyLabel "hjelton inlet"), replyKey := Config.hkdfExpand p.secret (keyLabel "hjelton reply") }
      hostOut := s.hostOut ++ [.bound session inletSalt replySalt] }
  else .next s

/-! ## What accepted requests do (R404, R409, R412) -/

/-- `n` bytes of a payload at byte `o`. -/
def payAt (p : BitVec 320) (o n : Nat) : Nat := numAt p (8 * o) (8 * n)
/-- Reads an entry's descriptor for the inlet; a steward that ends its wait fails it (R388, R404, R472). -/
def State.inletDesc (s : State) (q : Req) (core : Nat) (e : Cap) : CodeRead :=
  if q.failed ≠ 0 then .fail q.failed.toNat else s.codeRead core (.req q.id) (capSpace e) (capAddr e) 0 0
/-- LAUNCH from the inlet: a launch under R288 and R314 to R317, with no give entry and no copies, whatever its descriptor says (R325, R404). -/
def State.inletLaunch (s : State) (q : Req) (session seq : Nat) (p : BitVec 320) : State :=
  let n := (mapGet s.sessions session).lodging
  let g := s.lodging n
  let core := (g.map.head?).getD 0
  let done := fun (s : State) (outcome launch : Nat) => s.inletDone q.id session seq 1 outcome launch 0
  let e := mapGet g.entries (payAt p 32 1)
  let r : LaunchRec := { entry := e, tagged := true, w := payAt p 34 2, h := payAt p 36 2, x := payAt p 38 1, y := payAt p 39 1, queue := payAt p 33 1, give := 255,
                         arg := bitsAt p 0 256, pad := 0 }
  match s.takePending n (dieOf core) with
  | none => done s 1 0
  | some s1 =>
    if capKind e ≠ 12 ∨ !capHas e pInvoke ∨ !r.fieldsOk then done s 2 0
    else if r.outside g then done s 3 0
    else if s.launchUnits n r = 0 then done s 2 0
    else match s.inletDesc q core e with
      | .wait s' => s'
      | .fail _ => done s 2 0
      | .ok line =>
        let d := descIn line (capAddr e)
        if !descOk d false then done s 2 0
        else
          let l : Launch := { (default : Launch) with
            lodging := n, die := dieOf core, queue := r.queue, entry := e, desc := (bitsAt d 0 112).zeroExtend 128, arg := r.arg, w := r.w, h := r.h, x := r.x, y := r.y,
            num := g.nextLaunch, since := s.cycle }
          let s := s1.updLodging n fun g => { g with nextLaunch := if g.nextLaunch = 0xFFFFFFFF then 1 else g.nextLaunch + 1 }
          done { s with desk := s.desk ++ [l] } 0 g.nextLaunch.toNat
/-- The lowest unused space number (R383; log 19). -/
def State.freeSpaceNo (s : State) : Option Nat := ((List.range 65535).map (· + 1)).find? fun n => (s.space n).type == 0
/-- A device's message to the inbox of a core of a session's lodging: sender core 0xFFF (R404, R409). -/
def State.toHostInbox (s : State) (n logical : Nat) (data : V512) (cap : Bool) : Option State :=
  match s.router n logical with
  | some r => s.tryDeliver r inboxOff { data := data, cap := cap, core := 0xFFF, lodging := n }
  | none => none
/-- WINDOW (R409): outcomes 2, 5, 3 and 4 in this order (log 12). -/
def State.inletWindow (s : State) (q : Req) (session seq : Nat) (p : BitVec 320) : State :=
  let n := (mapGet s.sessions session).lodging
  let g := s.lodging n
  let done := fun (s : State) (outcome : Nat) => s.inletDone q.id session seq 2 outcome 0 0
  let (base, len, perms, mode, core, pasid) := (payAt p 0 8, payAt p 8 8, payAt p 16 1, payAt p 17 1, payAt p 18 2 % 2 ^ 12, payAt p 20 4)
  if payAt p 24 16 ≠ 0 ∨ len = 0 ∨ len % 4096 ≠ 0 ∨ base % 4096 ≠ 0 then done s 2
  else if perms / 4 ≠ 0 ∨ 2 ^ 20 ≤ pasid ∨ 2 < mode ∨ (mode = 2 ∧ !(g.replies.any fun e => e.2.isSet && e.2.agent)) ∨ 2 ^ 64 < base + len then done s 5
  else match s.router n core, s.freeSpaceNo with
    | none, _ => done s 3
    | _, none => done s 5
    | some _, some sp =>
      match boundedCap 10 (bit1 (perms % 2 == 1) * 2 ^ 11 + bit1 (perms / 2 == 1) * 2 ^ 10) sp base (base + len) with
      | none => done s 5
      | some c =>
        match s.toHostInbox n core (BitVec.ofNat 512 (c.toNat + sp * 2 ^ 128 + seq * 2 ^ 160)) true with
        | none => done s 4
        | some s =>
          done ({ s.memWrite false 1 (s.fuses.spaceTable + 16 * sp)
            ((bytesOf 8 (BitVec.ofNat 64 (2 * 2 ^ 62 + n * 2 ^ 54)) ++ bytesOf 8 (BitVec.ofNat 64 (mode * 2 ^ 20 + pasid))).map some) with windows := s.windows ++ [sp] }) 0
/-- POST (R404). -/
def State.inletPost (s : State) (q : Req) (session seq : Nat) (p : BitVec 320) : State :=
  let n := (mapGet s.sessions session).lodging
  let done := fun (s : State) (outcome : Nat) => s.inletDone q.id session seq 3 outcome 0 0
  if payAt p 2 6 ≠ 0 then done s 2
  else if (s.router n (payAt p 0 2 % 2 ^ 12)).isNone then done s 3
  else match s.toHostInbox n (payAt p 0 2 % 2 ^ 12) (BitVec.ofNat 512 (payAt p 8 32)) false with
    | some s => done s 0
    | none => done s 4
/-- CREDIT (R404, R407): a malformed one does nothing (log 12). -/
def State.inletCredit (s : State) (q : Req) (session : Nat) (p : BitVec 320) : State :=
  let s := s.dropReq q.id
  let k := payAt p 0 1
  if 16 ≤ k ∨ payAt p 1 3 ≠ 0 then s
  else s.updLodging (mapGet s.sessions session).lodging fun l =>
    { l with replies := mapUpd l.replies k fun y => if y.isSet then { y with credits := Nat.min (y.credits + payAt p 4 4) (2 ^ y.k) } else y }
/-- The host agent performs the operation of an outstanding request, once, on what the host's memory holds then (R292, R397, R398). -/
def State.agentActs (s : State) (id : Nat) : State :=
  match s.agentReqs.find? fun e => e.1 == id && e.2.2.isNone with
  | some (_, r, _) =>
    match (s.req r).bind Req.mem, (s.req r).map Req.stage with
    | some (a, .amo op w _ _ v e), some (.agent (.host pa mode)) =>
      let n := if w % 2 = 0 then 4 else 8
      let (old, x, y) := (natOfBytes (bytesAt s.host pa n), v.toNat % 2 ^ (8 * n), e.toNat % 2 ^ (8 * n))
      let t := if op = 2 ∧ old ≠ y then s else s.writeAt a.space (.host pa mode) ((bytesOf n (BitVec.ofNat 64 (amoNew op w old x y))).map some) false
      { t with agentReqs := t.agentReqs.map fun e => if e.1 == id then (id, r, some old) else e }
    | _, _ => s
  | none => s
/-- AGENT (R412): the answer to an outstanding request of the lodging; any other is discarded and counted. So is one that says otherwise than its agent
did: an old value that the agent did not find, or a failure after it has acted (R397, log 66). -/
def State.inletAgent (s : State) (q : Req) (session : Nat) (p : BitVec 320) : State :=
  let s := s.dropReq q.id
  let n := (mapGet s.sessions session).lodging
  match s.agentReqs.find? fun e => e.1 % 2 ^ 64 == payAt p 0 8 with
  | none => s.dropWrite session
  | some (id, r, did) =>
    let gone : State := { s with agentReqs := s.agentReqs.filter fun e => e.1 != id }
    match s.req r with
    | none => gone.dropWrite session
    | some t => match t.mem, t.stage with
      | some (a, .amo _ w _ _ _ _), .agent _ =>
        let old := payAt p 8 8 % 2 ^ (if w % 2 = 0 then 32 else 64)
        if (s.space a.space).lodging ≠ n ∨ payAt p 17 23 ≠ 0 ∨ 2 ≤ payAt p 16 1 then s.dropWrite session
        else if payAt p 16 1 = 0 then (if did = some old then gone.answer r (.val (amoLanding w old) 0) else s.dropWrite session)
        else if did.isNone then gone.answer r (.fail (BitVec.ofNat 8 tHostAtomic) a.va (BitVec.ofNat 64 a.space))
        else s.dropWrite session
      | _, _ => gone.dropWrite session
/-- CALL (R444, R446): a steward activity of the new image, on steward core 0 (log 19), is started to serve the call; the request stands until it
answers. A service entry that cannot be started breaks the call. -/
def State.inletCall (s : State) (q : Req) (session seq : Nat) (p : BitVec 320) : State :=
  let broken := fun (s : State) (code : Nat) => s.inletDone q.id session seq 6 0 0 code
  match s.inletDesc q 4096 s.service with
  | .wait t => t
  | .fail code => broken s code
  | .ok line =>
    let d := descIn line (capAddr s.service)
    if !descOk d false then broken s tShape
    else
      let st : Start := { (default : Start) with
        kind := 1, entry := s.service, desc := d.truncate 128, g0 := p.zeroExtend 512, serve := (mapGet s.sessions session).lodging, call := q.id + 2, image := s.imageVersion }
      let (t, ok) := s.arrive 4096 st
      if ok then t.setStage q.id .waiting else s
/-- An accepted request acts (R404); while its lodging is halted or switched out it stays in the host interface (R347), and when its session
has ended it is gone (R402). -/
def State.inletActs (s : State) (q : Req) (session seq kind : Nat) (p : BitVec 320) : State :=
  let e := mapGet s.sessions session
  let l := s.lodging e.lodging
  if !e.known then s.dropReq q.id
  else if (l.gated && l.ending == 0) || l.out then s
  else match kind with
    | 1 => s.inletLaunch q session seq p
    | 2 => s.inletWindow q session seq p
    | 3 => s.inletPost q session seq p
    | 4 => s.inletCredit q session p
    | 5 => s.inletAgent q session p
    | 6 => s.inletCall q session seq p
    | k => s.inletDone q.id session seq k 6 0 0

/-! ## Reply queues (R407, R408) -/

/-- The status entry of a host call that was accepted before a firmware switch began (R449). -/
def oldCall (before : Nat) (body : V512) : Bool := numAt body 32 8 == 6 && numAt body 0 32 ≤ before
/-- The 128 bytes of a reply entry of a session (R408); the encrypted body and the tag are the cipher's (log 10). -/
def replyEntry (key : BitVec 256) (salt : W32) (kind sender seq : Nat) (body : V512) : List Byte :=
  let head := bytesOf 8 (BitVec.ofNat 64 seq) ++ [BitVec.ofNat 8 kind, 0] ++ bytesOf 2 (BitVec.ofNat 16 (sender % 2 ^ 12)) ++ List.replicate 4 0
  let c := Config.cipher key (salt ++ BitVec.ofNat 64 seq) (BitVec.ofNat 128 (natOfBytes head)) body
  head ++ (List.range 80).map (fun j => c.getD j 0) ++ List.replicate 32 0
/-- Where entry `i` of a reply queue lies in the host's memory (R407). -/
def Lodging.replyAt (l : Lodging) (y : ReplyQ) (i : Nat) : Nat :=
  let va := (y.va + BitVec.ofNat 64 (128 * i)).toNat
  Config.hostPage l.pasid (va / 4096) * 4096 + va % 4096
/-- REPLY_ENTRY_WRITE (R282, R284, R407, R408): the oldest entry that waits is written while there is a credit, in two posted writes: bytes 8 to
127, and at the next such step bytes 0 to 7. The status entry of a call that the firmware switch fails is not written before it does (R449). -/
def execReplyEntryWrite (lodging queue : Nat) (s : State) : Out :=
  let l := s.lodging lodging
  let y := mapGet l.replies queue
  match y.waiting with
  | (kind, sender, req, body) :: rest =>
    let i := (y.seq - 1) % 2 ^ y.k
    let e := mapGet s.sessions l.session
    let bytes := replyEntry e.replyKey e.replySalt kind sender y.seq body
    if !y.isSet || y.credits == 0 || (kind == 1 && oldCall e.before body && s.pastSwitch 4096 && (s.core 4096).switching == 1) then .next s
    else if !y.begun then
      .next ({ s with host := writeBytes s.host (l.replyAt y i + 8) (bytes.drop 8) }.updLodging lodging fun l =>
        { l with replies := mapSet l.replies queue { y with begun := true } })
    else
      let s : State := { s with host := writeBytes s.host (l.replyAt y i) (bytes.take 8) }
      let s := s.updLodging lodging fun l => { l with replies := mapSet l.replies queue { y with credits := y.credits - 1, seq := y.seq + 1, waiting := rest, begun := false } }
      let s : State := if kind = 1 ∧ (mapGet s.sessions l.session).lodging = lodging then
        { s with sessions := mapUpd s.sessions l.session fun e => { e with unanswered := e.unanswered - 1 } } else s
      match s.req req with
      | some q => .next (s.answer req (match q.eff with | .message _ _ (some _) => .val (dataScalar (BitVec.ofNat 64 i)) 0 | _ => .ack))
      | none => .next s
  | [] => .next s

end Sys2Proof.Machine
end

