-- ==== Sys2Proof/Machine/Links.lean ====
section
/-! DEFINITION. The Tarham links (R413 to R416) and collectives at their relays (R417 to R419); and requests performed at their homes
(R359). -/

namespace Sys2Proof.Machine

/-! ## Links (R413 to R416) -/

/-- The relay core's router beside a link port (R44): a die has three links. -/
def linkRouter (link : Nat) : Nat := 4128 + 2 * (link / 3)
/-- What a peer's answer brings to a request of this device (R415, R416). -/
def answerOf (q : Req) (code : Byte) (rank : Nat) (d : V512) : Resp :=
  let fail := fun (a : Word) (x : Nat) => Resp.fail code a (if code.toNat = tUncorrectable then 0 else BitVec.ofNat 64 x)
  match q.eff with
  | .mem _ a op =>
    if code ≠ 0 then fail a.va a.space
    else match op with
      | .load w _ => .val (loadValue w ((List.range (widthBytes w)).map fun i => bitsAt d (8 * (a.va.toNat % 64 + i)) 8) false) 0
      | .amo _ w _ _ _ _ => .val (amoLanding w (numAt d 0 (if w % 2 = 0 then 32 else 64))) 0
      | .store .. => .ack
  | .unit _ _ _ reads a => if code ≠ 0 then fail a.va a.space else if reads then .val (dataValue d) 0 else .ack
  | .line _ _ a => if code ≠ 0 then fail a.va a.space else .val (dataValue d) 0
  | .statSum a .. => if code ≠ 0 then fail a.va a.space else .val (dataValue 0) 0
  | .message _ _ (some _) => if code ≠ 0 then fail 0 0 else .val (dataScalar (bitsAt d 0 64)) rank
  | .query .. | .tell .. => if code ≠ 0 then fail 0 0 else .val (dataValue d) rank
  | .waitObj _ st _ _ => .val (if st then dataScalar (bitsAt d 0 64) else claimLanding (code == 0) (dataValue d) code false) rank
  | _ => .ack
/-- Where a peer's request goes on this device. -/
def State.peerStage (s : State) (lodging link : Nat) (b : FlitBody) : Stage :=
  let at' := fun (logical off : Nat) => match s.router lodging logical with
    | some r => Stage.ready (.loc r .s off)
    | none => .done (.fail (BitVec.ofNat 8 tLodging) (BitVec.ofNat 64 logical) 0)
  match b with
  | .message _ _ _ core off .. => at' core off
  | .ask _ kind o => if kind % 2 = 0 then at' (addrCore o) (addrOff o) else at' (claimCore o) 0
  | .settle _ n _ _ => at' (claimCore n) 0
  | .invoke _ n _ _ _ _ _ => at' (claimCore n) 0
  | .wait .. | .coll .. => .ready (.loc (linkRouter link) .s 0)
  | _ => .station
/-- The content of one slot, delivered in the order of its pair. -/
def State.deliverSlot (s : State) (source link : Nat) (e : FlitSlot) : State :=
  match e.body with
  | .answer tag code rank d => match s.req tag with
    | some q => if q.stage == .waiting then s.answer tag (answerOf q code rank d) else s
    | none => s
  | .ack .. => s
  | .replay .. => s
  | b => s.issue (deviceAct (linkRouter link)) e.lodging 0 0 0 (.peer source e.core b) (s.peerStage e.lodging link b)
def State.deliverFlit (s : State) (source link : Nat) (es : List FlitSlot) : State := es.foldl (fun s e => s.deliverSlot source link e) s
/-- The state of a pair; a new one starts at sequence 0. -/
def State.pair (s : State) (k : Nat × Nat) : Pair := (s.pairs.find? fun p => p.key == k).getD { key := k, next := 0, send := 0, early := [], unacked := [] }
def State.setPair (s : State) (p : Pair) : State :=
  if s.pairs.any fun x => x.key == p.key then { s with pairs := s.pairs.map fun x => if x.key == p.key then p else x }
  else { s with pairs := s.pairs ++ [p] }
/-- Flits kept out of order that now stand next are delivered (R414). -/
def State.drainPair (s : State) (k : Nat × Nat) (link : Nat) : Nat → State
  | 0 => s
  | n + 1 =>
    let p := s.pair k
    match p.early.find? fun e => e.1 == p.next with
    | some (_, es) =>
      ((s.setPair { p with next := p.next + 1, early := p.early.filter fun e => e.1 != p.next }).deliverFlit k.1 link es).drainPair k link n
    | none => s
/-- Flits that a receiver holds out of order (R414). -/
def heldFlits : Nat := 64
/-- A flit of a memory or message plane is delivered in pair order, kept out of order, or discarded as a repeat (R414). -/
def State.takeFlit (s : State) (flit : Flit) : State :=
  let k := (flit.source.toNat, flit.plane.toNat)
  let p := s.pair k
  let ahead := (flit.seq.toNat + 2 ^ 16 - p.next % 2 ^ 16) % 2 ^ 16
  if ahead = 0 then ((s.setPair { p with next := p.next + 1 }).deliverFlit k.1 flit.link flit.slots).drainPair k flit.link heldFlits
  else if ahead ≤ heldFlits ∧ p.early.length < heldFlits ∧ !(p.early.any fun e => e.1 == p.next + ahead) then
    s.setPair { p with early := p.early ++ [(p.next + ahead, flit.slots)] }
  else s
/-- Link control (log 67): acknowledged flits leave the replay buffer, or flits are sent again from it (R414). -/
def State.linkControl (s : State) (source : Nat) (b : FlitBody) : State :=
  match b with
  | .ack plane n => let p := s.pair (source, plane); s.setPair { p with unacked := p.unacked.filter fun e => n ≤ e.1 }
  | .replay plane n => s.resend source plane n
  | _ => s
/-- What a receiver tells the sender of a plane: how far its flits have come, or from where on it is to send again (R414, log 67). -/
def State.tellSender (s : State) (source plane : Nat) (again : Bool) : State :=
  let n := (s.pair (source, plane)).next
  s.putFlit source 3 plane 0 { lodging := 0, core := 0, body := if again then .replay plane n else .ack plane n }
/-- FLIT_RECEIVE (R413, R414): a flit with a bad CRC is sent again by its sender; repeats are discarded; the rest are delivered in pair
order, with up to 64 of a pair held out of order. -/
def execFlitReceive (flit : Flit) (s : State) : Out :=
  if flit.dest.toNat != s.fuses.device || s.fuses.links ≤ flit.link || mapGet s.failedLinks flit.link || 3 < flit.slots.length then .next s
  else if !flitOk flit then .next (s.tellSender flit.source.toNat flit.plane.toNat true)
  else if flit.plane = 3 then .next (flit.slots.foldl (fun s e => s.linkControl flit.source.toNat e.body) s)
  else .next ((s.takeFlit flit).tellSender flit.source.toNat flit.plane.toNat false)
/-- LINK_FAILURE (R414): the link carries nothing more; flits not acknowledged are sent again on the new link, once a steward has written a
route that takes it. -/
def execLinkFailure (link : Nat) (s : State) : Out :=
  let s' : State := { s with failedLinks := mapSet s.failedLinks link true }
  .next (s'.pairs.foldl (fun t p => if mapGet s.routes (4 * p.key.1 + p.key.2) = link + 1 then t.resend p.key.1 p.key.2 0 else t) s')
/-- A steward's new route (R414): the flits that are not acknowledged go out on it. -/
def State.setRoute (s : State) (device plane link : Nat) : State :=
  ({ s with routes := mapSet s.routes (4 * device + plane) link }).resend device plane 0
/-- A question of a peer at its home here (R267, R416). -/
def State.peerAsks (s : State) (q : Req) (kind : Nat) (o : Word) : State :=
  let back := fun (s : State) (ok : Bool) (n : Nat) => s.answer q.id (.val (dataScalar (BitVec.ofNat 64 (bit1 ok + 2 * n))) 0)
  let at' := (s.router q.lodging (addrCore o)).getD 0
  let queue := QDest.queue at' (addrOff o) q.lodging
  match kind with
  | 0 => match s.queueRank queue 0 0 0 with | .answered true n _ => back s true n | _ => back s false tShape
  | 1 => match s.claimHome q.lodging o with | some (r, i) => back s true (mapGet (s.core r).claims i).chain | none => back s true 0
  | 2 => match s.takePlace at' 0 0 queue with | some (s, ok) => back s ok 0 | none => back s false tShape
  | 3 => let (s, chain, ok) := s.invokePlace q.lodging o; back s ok chain
  | 4 => back (s.updCore at' fun c => { c with places := mapUpd c.places (addrOff o) (· - 1) }) true 0
  | 5 => back (s.freeClaimPlace q.lodging o) true 0
  | _ => back (s.dropChain q.lodging o) true 0

/-! ## Collectives at a relay (R418, R419) -/

/-- The place in a contributor's count of the entry that relay `j` of a collective takes next: `n` entries of each of its indices, in rising order,
round by round (R419). -/
def Coll.expects (c : Coll) (j : Nat) : Nat :=
  let v := mapGet c.passed j / c.n
  v / c.indices j * c.blocks + j + c.relays.length * (v % c.indices j)
/-- A staged entry of a collective enters the queue of its relay, and its sender is answered (R419). -/
def State.passEntry (s : State) (core off coll j req : Nat) (m : Msg) : State :=
  let s := s.updCore core fun k => { k with staged := k.staged.filter fun e => !(e.1 == coll && e.2.2.1 == req) }
  let s : State := { s with colls := mapUpd s.colls coll fun c => { c with passed := mapUpd c.passed j (· + 1) } }
  let p := s.qPush core off m
  let resp := match s.req req with
    | some { eff := .message _ _ (some _), .. } | some { eff := .peer _ _ (.message _ true ..), .. } => Resp.val (dataScalar (BitVec.ofNat 64 p.2)) (qRank (s.sByte core off 8))
    | _ => .ack
  (p.1.answer req resp).serveQueue core off 64
/-- COLLECTIVE_ENTRY_PASS (R419): the earliest staged entry of the index that is due enters the relay's queue. -/
def execCollectiveEntryPass (core coll : Nat) (s : State) : Out :=
  let c := mapGet s.colls coll
  match (s.core core).staged.find? fun e => e.1 == coll && c.live && c.expects (e.2.1 % c.blocks % c.relays.length) == e.2.1 with
  | some (_, k, req, m) =>
    let i := k % c.blocks
    match c.relays[i % c.relays.length]? with
    | some (_, r, off) => if r != core || !s.qFree core off then .next s else .next (s.passEntry core off coll (i % c.relays.length) req m)
    | none => .next s
  | none => .next s

/-! ## STAT.SUM (R442) -/

/-- A contributor's destination; a fault entry names its receipt (R430). -/
def State.sumPlace (s : State) (q : Req) (d : MemAddr) : Sought :=
  if q.failed ≠ 0 then .fail q.failed.toNat
  else match stoOfKind d.kind with
  | some k => match s.router q.lodging (addrCore d.va) with
    | some r => if !s.portOk r q.lodging then .fail tLodging else if s.lotAway r k (addrOff d.va) 64 then .wait s else .ok (.loc r k (addrOff d.va)) default
    | none => .fail tLodging
  | none =>
    let from_ := match q.eff with | .statSum _ receipt _ _ => localAddr (s.core q.act.core).logicalNo receipt | _ => q.block
    s.seek q.act.core q.lodging (.req q.id) d 1 from_
/-- The 64 bytes of a record of sums. -/
def sumBytes (m : Map W32) : List Byte := ((List.range 16).map fun i => bytesOf 4 (mapGet m i)).flatten
/-- A contributor's record is written, here or at a peer, and its receipt told once the write is acknowledged; it waits for its page by itself. -/
def State.sumOne (s : State) (q : Req) : State :=
  match q.eff with
  | .statSum d receipt m _ =>
    let r := q.act.core
    match s.sumPlace q d with
    | .ok (.peer n) _ => if s.hasRoute n 0 then (s.sendFlit n 0 q.lodging (s.core r).logicalNo ((MemOp.store ((sumBytes m).map some) none).flit q.id d)).setStage q.id .waiting else s
    | .ok p _ => (((s.writeAt d.space p ((sumBytes m).map some) false).receiptUnits r receipt 1).receiptEnd r receipt 0 1).answer q.id .ack
    | .fail c => (s.receiptEnd r receipt c 0).answer q.id .ack
    | .wait t => t
  | _ => s

/-! ## Homes (R359 to R362) -/

/-- HOME_PERFORM (R359): the home of request `req` applies it. -/
def execHomePerform (req : Nat) (s : State) : Out :=
  match s.req req with
  | some q =>
    match q.stage with
    | .ready p =>
      if s.barred q then .next s else
      match q.mem with
      | some (a, op) => if s.overlapped q || s.strongHeld q then .next s else .next (s.performMem q a op p)
      | none =>
        match q.eff with
        | .waitObj _ st kind o => .next (s.waitArrives q st kind o)
        | .peer _ _ (.wait _ st o) => .next (s.performWait q st 8 o)
        | .peer _ _ (.ask _ kind o) => .next (s.peerAsks q kind o)
        | .peer _ _ (.coll _ op num n b rs) => let (t, resp) := s.collTold q.lodging op num n b rs; .next (t.answer req resp)
        | .qbind off b => .next (if s.overlapped q then s else s.qbind q off b)
        | .qunbind off => .next (if s.overlapped q then s else s.qunbind q off)
        | .statSum .. => .next (s.sumOne q)
        | .serve slot gen call => .next (match p with | .loc r _ _ => s.serveCall q r slot gen call | _ => s)
        | .launch l => .next (s.launchArrives q l)
        | .cusTake .. | .cusResume .. | .cusGive .. | .cusBreak .. => .next (s.answer req .ack)
        | .stnMap sp level va e => .next (s.stnMap q sp level va e)
        | .stnInv sp va n => .next (s.stnInv q sp va n)
        | .stnReplay st sp page fail => .next (s.stnReplay q st sp page fail)
        | .lodgeNew rec_ caps rc => .next (s.lodgeNew q rec_ caps rc)
        | .lodgeEnd n code => .next (s.lodgeEnd q n code)
        | .migrate n l t rc => .next (s.migrate q n l t rc)
        | .shadowSave n m limit rc => .next (s.shadowSave q n m limit rc)
        | .shadowLoad rect m rc => .next (s.shadowLoad q rect m rc)
        | .testRun c u p rc => .next (s.testRun q c u p rc)
        | .cancel r off code => .next (s.cancel q r off code)
        | .inlet session seq kind p => .next (s.inletActs q session seq kind p)
        | _ => .next s
    | _ => .next s
  | none => .next s

end Sys2Proof.Machine
end

