-- ==== Sys2Proof/Machine/LocalMem.lean ====
section
/-! DEFINITION. Local loads and stores (R146 to R153), and what they do at a word with an error (R450, R452, R454). -/

namespace Sys2Proof.Machine

/-- Whether a store of lower LSID in the block supplies byte `a` (R60). -/
def Ctx.forwarded (c : Ctx) (k : Sto) (a lsid : Nat) : Bool :=
  (List.range lsid).any fun j => (mapGet c.x.blk.lsids' j).sto == k && (mapGet c.x.blk.lsids' j).bytes.any (·.1 == a)
/-- Marked 64-bit words among the bytes a load takes from the store itself. -/
def Ctx.marked (c : Ctx) (k : Sto) (off n lsid : Nat) (m : Map Bool) : List Nat :=
  (m.filter fun w => (List.range n).any fun i => (off + i) / 8 == w.1 && !c.forwarded k (off + i) lsid).map (·.1)
/-- SEC-DED returns corrected words repaired and writes them back; event 9 counts each (R450). -/
def Ctx.corrected (c : Ctx) (k : Sto) (ws : List Nat) : State :=
  if ws.isEmpty then c.s
  else (c.s.updCore c.core fun x =>
    let l := x.store k
    x.setStore k { l with corr := l.corr.filter fun w => !ws.contains w.1 }).count c.core 9 ws.length

/-- The result of a load that reads bytes at the places `at_` (R27, R60, R75). -/
def Ctx.readLocal (c : Ctx) (k : Sto) (lsid : Nat) (at_ : List (Nat × Nat)) (out : Value) : Except Trap Fired :=
  let l := (c.s.core c.core).store k
  if at_.any fun a => !(c.marked k a.1 a.2 lsid l.poison).isEmpty then c.silent (c.s.consumeBad c.core c.slot c.idx k.unitNo)
  else
    let s := c.corrected k ((at_.map fun a => c.marked k a.1 a.2 lsid l.corr).flatten.eraseDups)
    .ok { s := s, v0 := c.masked out, v1 := c.masked out }

/-- A local load of `n` bytes (R146 to R150): `lanes` are the lanes accessed, and `whole` says that all of them must be
unmasked. DESIGN CHOICE (log 58): the result of a load that reads nothing is tagged DATA, whatever the tag of its address. -/
def Ctx.load (c : Ctx) (lsid : BitVec 5) (imm : BitVec 9) (n : Nat) (isC : Bool) (lanes : BitVec 16) (whole : Bool)
    (out : List Byte → Bool → Value) : Except Trap Fired :=
  let acc := c.mask &&& lanes
  if !c.l.validTo 4 then c.value { bits := 0, valid := 0, tag := .data, null := false }
  else if acc = 0 ∨ (whole ∧ acc ≠ lanes) then c.value (c.masked { bits := 0, valid := ~~~ lanes, tag := .data, null := false })
  else
    let a := localAt c.l.cap (wideField c.x.blk.words c.idx 9 imm) n
    let tagAt := match stoOfKind (capKind c.l.cap) with
      | some k => c.seenTag k (addrOff a / 16) lsid.toNat
      | none => false
    match c.checkLocal c.l false isC a n n tagAt with
    | .error t => .error t
    | .ok (k, off) => c.readLocal k lsid.toNat [(off, n)] (out (c.seen k off n lsid.toNat) tagAt)

/-- The scalar loads (R147): `signed` extends the sign. -/
def Ctx.loadScalar (c : Ctx) (lsid : BitVec 5) (imm : BitVec 9) (n : Nat) (signed : Bool) : Except Trap Fired :=
  c.load lsid imm n false 3 true fun bs _ =>
    let x : BitVec 64 := wordOfBytes 64 bs
    dataScalar (if signed then ((x.truncate (8 * n)).signExtend 64) else x)

/-- LD.i8 (R146). Local load of a sign-extended byte. -/
def execLdI8 (pr : BitVec 2) (lsid : BitVec 5) (imm : BitVec 9) (t0 : BitVec 9) (s : State) : Out :=
  s.fire (iForm .ldI8 pr 1 t0) plainNull fun c => c.loadScalar lsid imm 1 true

/-- LD.n8 (R146). Local load of a zero-extended byte. -/
def execLdN8 (pr : BitVec 2) (lsid : BitVec 5) (imm : BitVec 9) (t0 : BitVec 9) (s : State) : Out :=
  s.fire (iForm .ldN8 pr 1 t0) plainNull fun c => c.loadScalar lsid imm 1 false

/-- LD.i16 (R146). Local load of a sign-extended 16-bit value. -/
def execLdI16 (pr : BitVec 2) (lsid : BitVec 5) (imm : BitVec 9) (t0 : BitVec 9) (s : State) : Out :=
  s.fire (iForm .ldI16 pr 1 t0) plainNull fun c => c.loadScalar lsid imm 2 true

/-- LD.n16 (R146). Local load of a zero-extended 16-bit value. -/
def execLdN16 (pr : BitVec 2) (lsid : BitVec 5) (imm : BitVec 9) (t0 : BitVec 9) (s : State) : Out :=
  s.fire (iForm .ldN16 pr 1 t0) plainNull fun c => c.loadScalar lsid imm 2 false

/-- LD.i32 (R146). Local load of a sign-extended 32-bit value. -/
def execLdI32 (pr : BitVec 2) (lsid : BitVec 5) (imm : BitVec 9) (t0 : BitVec 9) (s : State) : Out :=
  s.fire (iForm .ldI32 pr 1 t0) plainNull fun c => c.loadScalar lsid imm 4 true

/-- LD.n32 (R146). Local load of a zero-extended 32-bit value. -/
def execLdN32 (pr : BitVec 2) (lsid : BitVec 5) (imm : BitVec 9) (t0 : BitVec 9) (s : State) : Out :=
  s.fire (iForm .ldN32 pr 1 t0) plainNull fun c => c.loadScalar lsid imm 4 false

/-- LD.64 (R146). Local load of 64 bits. -/
def execLd64 (pr : BitVec 2) (lsid : BitVec 5) (imm : BitVec 9) (t0 : BitVec 9) (s : State) : Out :=
  s.fire (iForm .ld64 pr 1 t0) plainNull fun c => c.loadScalar lsid imm 8 false

/-- LDV (R146). Local load of a 64-byte vector. -/
def execLdv (pr : BitVec 2) (lsid : BitVec 5) (imm : BitVec 9) (t0 : BitVec 9) (s : State) : Out :=
  s.fire (iForm .ldv pr 1 t0) plainNull fun c => c.load lsid imm 64 false allLanes false fun bs _ => dataValue (wordOfBytes 512 bs)

/-- LDC (R148). Local load of a 16-byte granule, CAP when its tag bit is set. -/
def execLdc (pr : BitVec 2) (lsid : BitVec 5) (imm : BitVec 9) (t0 : BitVec 9) (s : State) : Out :=
  s.fire (iForm .ldc pr 1 t0) plainNull fun c => c.load lsid imm 16 true 15 false fun bs t =>
    { bits := wordOfBytes 512 bs, valid := allLanes, tag := if t then .cap else .data, null := false }

/-- The lane checks of R149 and R153, in lane order: the store and the offset of each accessed lane. -/
def Ctx.lanesOk (c : Ctx) (isStore : Bool) (base : Word) (idx : Value) (acc : BitVec 16) : List Nat → Except Trap (Sto × List (Nat × Nat))
  | [] => .ok (.w, [])
  | l :: ls =>
    if !bitAt acc l then c.lanesOk isStore base idx acc ls
    else
      match c.checkLocal c.l isStore false (base + 4 * zext64 (idx.lane l)) 4 4 false with
      | .error t => .error t
      | .ok (k, off) =>
        match c.lanesOk isStore base idx acc ls with
        | .error t => .error t
        | .ok (_, xs) => .ok (k, (l, off) :: xs)

/-- VGATHER (R149). Gathers 16 words by index from a local store. DESIGN CHOICE (log 58): a BROKEN index vector faults BROKEN_USE. -/
def execVgather (pr : BitVec 2) (lsid : BitVec 5) (imm : BitVec 9) (t0 : BitVec 9) (s : State) : Out :=
  s.fire (iForm .vgather pr 2 t0) plainNull fun c => 
    let acc := c.mask &&& c.r.valid
    if !c.l.validTo 4 || acc == 0 then c.value { bits := 0, valid := 0, tag := .data, null := false }
    else if c.r.tag == .broken then .error (trap tBrokenUse)
    else
      let base := localAt c.l.cap (wideField c.x.blk.words c.idx 9 imm) 64
      match c.lanesOk false base c.r acc (List.range 16) with
      | .error t => .error t
      | .ok (k, xs) =>
        let word := fun l => match xs.find? (·.1 == l) with
          | some x => wordOfBytes 32 (c.seen k x.2 4 lsid.toNat)
          | none => 0
        c.readLocal k lsid.toNat (xs.map fun x => (x.2, 4)) { bits := ofLanes word, valid := acc, tag := .data, null := false }

/-- A store has fired: its bytes wait for the commit, and its LSID is complete (R61, R152). -/
def Ctx.stored (c : Ctx) (lsid : BitVec 5) (k : Sto) (bytes : List (Nat × Byte)) (tag : Option (Nat × Bool)) : Except Trap Fired :=
  c.silent (c.s.updBlk c.core c.slot fun b =>
    { b with lsids' := mapSet b.lsids' lsid.toNat { done := true, since := c.s.cycle, sto := k, bytes := bytes, tag := tag } })
/-- The bytes of the first `n` whose lane is valid, each with its offset. -/
def laneBytes (v : V512) (valid : BitVec 16) (off n : Nat) : List (Nat × Byte) :=
  ((List.range n).filter fun i => bitAt valid (i / 4)).map fun i => (off + i, bitsAt v (8 * i) 8)
/-- A local store of `n` bytes of R (R151, R152). An address with a null lane, and a value with every accessed lane null
or masked, write nothing and raise no fault. DESIGN CHOICE (log 58): a scalar store with one of lanes 0 and 1 of its value null or
masked writes nothing, of whatever width, as R55 makes a scalar null with either lane. -/
def Ctx.store (c : Ctx) (lsid : BitVec 5) (imm : BitVec 18) (n : Nat) (isC : Bool) (lanes : BitVec 16) (whole : Bool) : Except Trap Fired :=
  let ok := c.r.valid &&& c.mask &&& lanes
  if !c.l.validTo 4 || ok == 0 || (whole && ok != lanes) then c.silent (nullStore lsid.toNat c)
  else if c.r.tag == .broken then .error (trap tBrokenUse)
  else
    let isCap := isC && c.r.tag == .cap
    let a := localAt c.l.cap (wideField c.x.blk.words c.idx 18 imm) n
    if isCap && ok != lanes && c.l.tag == .cap && (stoOfKind (capKind c.l.cap)).isSome then .error (trapCap tTag c.r.cap)
    else
      match c.checkLocal c.l true isC a n n isCap with
      | .error t => .error t
      | .ok (k, off) => c.stored lsid k (laneBytes c.r.bits (if whole then allLanes else ok) off n) (if isC then some (off / 16, isCap) else none)

/-- ST.8 (R151). Local store of a byte at commit. -/
def execSt8 (pr : BitVec 2) (lsid : BitVec 5) (imm : BitVec 18) (s : State) : Out :=
  s.fire (nForm .st8 pr 2 0 0 0) (nullStore lsid.toNat) fun c => c.store lsid imm 1 false 3 true

/-- ST.16 (R151). Local store of 16 bits at commit. -/
def execSt16 (pr : BitVec 2) (lsid : BitVec 5) (imm : BitVec 18) (s : State) : Out :=
  s.fire (nForm .st16 pr 2 0 0 0) (nullStore lsid.toNat) fun c => c.store lsid imm 2 false 3 true

/-- ST.32 (R151). Local store of 32 bits at commit. -/
def execSt32 (pr : BitVec 2) (lsid : BitVec 5) (imm : BitVec 18) (s : State) : Out :=
  s.fire (nForm .st32 pr 2 0 0 0) (nullStore lsid.toNat) fun c => c.store lsid imm 4 false 3 true

/-- ST.64 (R151). Local store of 64 bits at commit. -/
def execSt64 (pr : BitVec 2) (lsid : BitVec 5) (imm : BitVec 18) (s : State) : Out :=
  s.fire (nForm .st64 pr 2 0 0 0) (nullStore lsid.toNat) fun c => c.store lsid imm 8 false 3 true

/-- STV (R151). Local store of a 64-byte vector at commit. -/
def execStv (pr : BitVec 2) (lsid : BitVec 5) (imm : BitVec 18) (s : State) : Out :=
  s.fire (nForm .stv pr 2 0 0 0) (nullStore lsid.toNat) fun c => c.store lsid imm 64 false allLanes false

/-- STC (R152). Stores a capability or data granule with its tag bit. -/
def execStc (pr : BitVec 2) (lsid : BitVec 5) (imm : BitVec 18) (s : State) : Out :=
  s.fire (nForm .stc pr 2 0 0 0) (nullStore lsid.toNat) fun c => c.store lsid imm 16 true 15 false

/-- VSCATTER (R153). Scatters 16 words by index into a local store. DESIGN CHOICE (log 58): a BROKEN index vector faults BROKEN_USE. -/
def execVscatter (pr : BitVec 2) (lsid : BitVec 5) (imm : BitVec 18) (s : State) : Out :=
  s.fire (nForm .vscatter pr 3 0 0 0) (nullStore lsid.toNat) fun c => 
    let acc := c.mask &&& c.r.valid &&& c.t.valid
    if !c.l.validTo 4 || acc == 0 then c.silent (nullStore lsid.toNat c)
    else if c.r.tag == .broken || c.t.tag == .broken then .error (trap tBrokenUse)
    else
      let base := localAt c.l.cap (wideField c.x.blk.words c.idx 18 imm) 64
      match c.lanesOk true base c.r acc (List.range 16) with
      | .error t => .error t
      | .ok (k, xs) =>
        let one := fun (x : Nat × Nat) => (List.range 4).map fun i => (x.2 + i, bitsAt c.t.bits (32 * x.1 + 8 * i) 8)
        c.stored lsid k ((xs.reverse.map one).flatten) none


end Sys2Proof.Machine
end

