-- ==== Sys2Proof/Machine/Platform.lean ====
section
/-! DEFINITION. The platform: trap and service records that wait (R297, R298), scrubbing and failed units (R451, R463, R464), tests
(R441), STAT.SUM rounds (R442), the firmware switch (R449), reset (R466) and attestation (R467). -/

namespace Sys2Proof.Machine

/-! ## Records that wait (R297, R298) -/

/-- TRAP_RECORD_WRITE: the trap record of a slot below 8, or else the router's oldest service record, once the trap queue has a
place. -/
def execTrapRecordWrite (core slot : Nat) (s : State) : Out :=
  if slot < 8 then
    let x := s.slot core slot
    if !x.custody.unwritten || x.custody.state == 0 then .next s
    else match s.writeTrap x.custody.record.lodging x.custody.record.bits x.custody.record.core with
      | some s => .next (s.updSlot core slot fun x => { x with custody := { x.custody with unwritten := false } })
      | none => .next s
  else match s.svcQueue.find? fun e => e.1 == core with
    | some (r, rec_) => match s.writeTrap 0 rec_ 0xFFF with
      | some s => .next { s with svcQueue := s.svcQueue.erase (r, rec_) }
      | none => .next s
    | none => .next s

/-! ## Errors and failed units (R451, R463) -/

/-- SCRUB_VISIT (R451): a word with a single-bit error is corrected; event 9 counts it. -/
def execScrubVisit (core store word : Nat) (s : State) : Out :=
  match stoOfKind store with
  | some k =>
    if mapGet ((s.core core).store k).corr word then
      .next ((s.updCore core fun c => let l := c.store k; c.setStore k { l with corr := mapSet l.corr word false }).count core 9 1)
    else .next s
  | none => .next s
/-- Uncorrectable events within which a unit may not exceed 64 (R463). -/
def errorWindow : Nat := 2 ^ 30
/-- UNIT_FAILURE (R463): a register file or a local store with more than 64 uncorrectable events in 2^30 cycles. -/
def execUnitFailure (core unit : Nat) (s : State) : Out :=
  let l := mapGet (s.core core).errors unit
  match l.head?, l.getLast? with
  | some a, some b =>
    if l.length = 65 ∧ b.toNat - a.toNat ≤ errorWindow then
      .next ((s.updCore core fun c => { c with errors := mapSet c.errors unit [] }).failUnit core unit 0xFF)
    else .next s
  | _, _ => .next s
/-- A unit passes its tests: its suspect window opens here (R464). -/
def State.passUnit (s : State) (r unit : Nat) : State :=
  let live := ((s.core r).slots.filter fun e => e.2.live).map fun e => ((s.core r).lodging, e.2.launch)
  s.updCore r fun c => { c with lastPass := mapSet c.lastPass unit s.cycle, atPass := mapSet c.atPass unit live }
/-- TEST_PATTERN_END (R441, R463): one pattern of the test under way on a core. -/
def execTestPatternEnd (core : Nat) (pass : Bool) (s : State) : Out :=
  match s.tests.find? fun t => t.1 == core with
  | some (r, unit, set, n, req) =>
    match s.req req with
    | some q => match q.eff with
      | .testRun _ _ _ receipt =>
        let rest : State := { s with tests := s.tests.filter fun (t : Nat × Nat × Nat × Nat × Nat) => t.2.2.2.2 != req }
        let at' := q.act.core
        if pass then
          (if (Config.patterns unit set).getD 0 ≤ n + 1 then
            .next ((((rest.receiptUnits at' receipt 1).receiptEnd at' receipt 0 (n + 1)).answer req .ack).passUnit r unit)
          else .next ({ s with tests := s.tests.map fun (t : Nat × Nat × Nat × Nat × Nat) => if t.2.2.2.2 == req then (r, unit, set, n + 1, req) else t }.receiptUnits at' receipt 1))
        else .next (((rest.receiptEnd at' receipt tDivergence n).answer req .ack).failUnit r unit unit)
      | _ => .next s
    | none => .next s
  | none => .next s

/-! ## STAT.SUM (R442) -/

/-- The sum of contributions, counter by counter, saturating (R442). -/
def sumOf (l : List (Map W32)) : Map W32 :=
  (List.range 16).foldl (fun m i => mapSet m i (BitVec.ofNat 32 (Nat.min (l.foldl (fun n c => n + (mapGet c i).toNat) 0) 0xFFFFFFFF))) []
/-- A request's counters become the sum of its round, and its record is due. -/
def Req.summed (q : Req) (m : Map W32) : Req :=
  match q.eff with
  | .statSum d receipt _ t => { q with eff := .statSum d receipt m t, stage := .ready (.loc q.act.core .s 0) }
  | _ => q
/-- STAT_SUM_ROUND (R442): every enabled core of the launch's rectangle has contributed; each contributor's record is written as soon as it can be. -/
def execStatSumRound (lodging launch round : Nat) (s : State) : Out :=
  let es := s.sums.filter fun e => e.1 == lodging && e.2.1 == launch && e.2.2.1 == round
  let qs := es.filterMap fun e => s.req e.2.2.2.2
  let rects := qs.filterMap fun q => match q.eff with | .statSum _ _ _ t => some t | _ => none
  let ready := qs.length == es.length && qs.all fun q => q.stage == .waiting
  match rects.head? with
  | none => .next s
  | some t =>
    if !ready || !((s.areaCores lodging t).all fun r => es.any fun e => e.2.2.2.1 == r) then .next s
    else
      let m := sumOf (qs.filterMap fun q => match q.eff with | .statSum _ _ c _ => some c | _ => none)
      let ids := qs.map Req.id
      .next { s with sums := s.sums.filter fun e => !es.contains e, reqs := s.reqs.map fun q => if ids.contains q.id then q.summed m else q }

/-! ## The firmware switch (R449) -/

/-- Routers of the steward cores. -/
def stewardCores : List Nat := (List.range 32).map (· + 4096)
/-- FIRMWARE_SWITCH (R449 step 1): a steward core reaches its quiescent point; the first finds the image that has been verified. -/
def execFirmwareSwitch (core : Nat) (s : State) : Out :=
  if !isSteward core || s.boot != 1 || (s.core core).switching != 0 then .next s
  else
    let underWay := stewardCores.any fun r => (s.core r).switching != 0
    let mark := fun (s : State) => if core = 4096 then { s with sessions := mapEach s.sessions (fun e => e.known) fun e => { e with before := e.last } } else s
    let go := fun (s : State) => (mark s).updCore core fun c =>
      { c with switching := 1, switchAt := s.cycle,
               binds := mapEach c.binds (fun b => b.bound) fun b =>
                 { b with entry := (Config.movedEntry s.newImage b.entry).1, desc := (Config.movedEntry s.newImage b.entry).2 } }
    if underWay then .next (go s)
    else match Config.image s.tick with
      | some i => .next (go { s with newImage := i.version, accepted := i.accepts, service := i.service })
      | none => .next s
/-- An old-image activity that still runs on a steward core. -/
def State.oldRuns (s : State) (r k : Nat) : Bool :=
  let x := s.slot r k
  x.live && !x.isTwin && x.custody.state == 0 && x.image != s.newImage
/-- A host call that had been accepted at the quiescent point of the core that serves host calls, and whose status entry has not been written, answers
FIRMWARE_SWITCH in byte 16 (R449 step 4); a call that came after it is the new image's (step 1). -/
def failedCall (before : Nat) (b : V512) : V512 := if oldCall before b then setBits b 128 8 0x21 else b
def State.failCalls (s : State) : State :=
  let before := fun (n : Nat) => (mapGet s.sessions n).before
  let calls := s.reqs.filterMap fun q => match q.eff with
    | .inlet n seq 6 _ => if seq ≤ before n then some (q.id, n, seq) else none
    | _ => none
  let s := calls.foldl (fun s c => s.inletDone c.1 c.2.1 c.2.2 6 0 0 0x21) s
  { s with lodgings := s.lodgings.map fun e => (e.1, { e.2 with replies := e.2.replies.map fun y =>
      (y.1, { y.2 with waiting := y.2.waiting.map fun w => if w.1 == 1 then (w.1, w.2.1, w.2.2.1, failedCall (before e.2.session) w.2.2.2) else w }) }) }
/-- The switch is over once no old-image activity runs. -/
def State.switched (s : State) : State :=
  if stewardCores.all (fun r => (s.core r).switching != 0 && !(List.range 8).any fun k => s.oldRuns r k) then
    stewardCores.foldl (fun s r => s.updCore r fun c => { c with switching := 0, switchAt := 0 }) { s with imageVersion := s.newImage }
  else s
/-- The call that an activity of a steward core serves, as in its start; 0 for none. -/
def State.callOf (s : State) (r k gen : Nat) : Nat :=
  (s.reqs.findSome? fun q => match q.eff, q.stage with
    | .serve k' gen' call, .ready (.loc r' _ _) => if r' = r ∧ k' = k ∧ gen' = gen then some call else none
    | _, _ => none).getD 0
/-- An old-image activity is halted and handed over: to an activity of the new image that takes its call record's version, or broken (R449
step 3). It stands halted while the start has no room or its descriptor's page is not there. -/
def State.handOver (s : State) (r k : Nat) : State :=
  let s := (s.release r k).updBlk r k fun _ => default
  let x := s.slot r k
  let a : ActId := { core := r, slot := k, gen := x.gen }
  let record := if x.sRun.count = 0 then [] else bytesAt (s.core r).s.bytes (1024 * x.sRun.start) 64
  let broken := fun (_ : Unit) =>
    ((s.breakObs a (s.core r).lodging x.launch x.pc 0x21 x.obs.list).updSlot r k fun x => { x with obs := default }).endActivity r k
  match s.accepted.find? fun e => e.1.toNat == natOfBytes (record.take 2) && !record.isEmpty with
  | none => broken ()
  | some (_, e) => match s.codeRead r (.desc k 0) (capSpace e) (capAddr e) 0 0 with
    | .wait t => t
    | .fail _ => broken ()
    | .ok line =>
      let d := descIn line (capAddr e)
      if !descOk d false then broken ()
      else
        let st : Start := { (default : Start) with
          kind := 1, lodging := (s.core r).lodging, entry := e, desc := d.truncate 128, g0 := wordOfBytes 512 record, launch := x.launch, rect := x.rect,
          obs := x.obs.list, copies := copyRegs x.regs (d.truncate 128), gates := s.mine a, image := s.newImage,
          serve := if x.native then x.serve.toNat else 0, call := s.callOf r k x.gen }
        let (s', ok) := s.arrive r st
        if ok then (s'.updSlot r k fun x => { x with obs := default }).endActivity r k else s
/-- FIRMWARE_HANDOVER (R449 steps 3 and 4): 1 ms after a core's quiescent point. -/
def execFirmwareHandover (core slot : Nat) (s : State) : Out :=
  let c := s.core core
  if c.switching = 0 ∨ s.cycle.toNat < c.switchAt.toNat + handoverAfter then .next s
  else
    let s0 := s.updCore core fun c => { c with switching := 2 }
    let s1 := if c.switching = 1 ∧ core = 4096 then s0.failCalls else s0
    .next (if s1.oldRuns core slot then s1.handOver core slot else s1).switched

/-! ## Reset and attestation (R466, R467) -/

/-- A steward core as the boot ROM starts it. -/
def State.bootCore (s : State) (i : Config.Image) (k : Nat) : State :=
  let r := 4096 + k
  let st : Start := { (default : Start) with kind := 1, entry := i.entry, desc := i.desc, image := i.version }
  (s.setCore r ((default : Core).fresh 0 k)).toRing r st
/-- What the part offers (R2, R465). -/
def State.counts (s : State) : Counts :=
  let on := (List.range 4096).filter fun r => !s.fuses.disabled.contains r
  { cores := on.length, pseudo := s.fuses.pseudo, links := s.fuses.links, stackCount := s.fuses.hbmStacks, six := (on.filter fun r => s.slotCount r == 6).length,
    four := (on.filter fun r => s.slotCount r == 4).length, map := BitVec.ofNat 4096 (on.foldl (fun n r => n + 2 ^ r) 0) }
/-- The measurements that the boot ROM records (R466, R467). -/
def State.bootMeasures (s : State) (i : Config.Image) : Map Measurement :=
  [(1, { digest := Config.sha256 Config.rom, version := 0, counts := none }), (2, { digest := Config.sha256 i.bytes, version := i.version, counts := none }),
   (3, { digest := 0, version := 0, counts := some s.counts })]
/-- The boot ROM's work on an image that verifies: measurements, the descriptor of space 0xFFFF (R426), lodging 0 and its cores. -/
def State.bootWith (s : State) (i : Config.Image) : State :=
  let l : Lodging := { (default : Lodging) with live := true, map := stewardCores, nextLaunch := 1, trapQueue := i.trapQueue, faultQueue := i.faultQueue,
                                                faultRing := i.faultRing, ringSize := i.ringSize }
  let s : State := { s with boot := 1, imageVersion := i.version, newImage := i.version, service := i.service, accepted := i.accepts,
                            measures := s.bootMeasures i, lodgings := mapSet s.lodgings 0 l }
  let s := s.memWrite false 1 (s.fuses.spaceTable + 16 * 0xFFFF)
    ((bytesOf 8 (BitVec.ofNat 64 (2 ^ 62 + i.root / 4096 % 2 ^ 42 * 2 ^ 12)) ++ bytesOf 8 (0 : Word)).map some)
  (List.range 32).foldl (fun s k => s.bootCore i k) s
/-- RESET (R466): everything of the part returns to its reset value, the host's memory and the fuses stay, and the boot ROM runs. An image
that does not verify leaves the device in recovery. -/
def execReset (s : State) : Out :=
  let s0 : State := { State.reset with host := s.host, hostPoison := s.hostPoison, fuses := s.fuses, schedule := s.schedule, tick := s.tick, here := s.here }
  match Config.image s.tick with
  | some i => .next (s0.bootWith i)
  | none => .next { s0 with boot := 2 }
/-- The index of the measurement of the lodging table (R467). -/
def tableIndex : Nat := 0x80
/-- The lodging table (R467): the digest of each live lodging, and zero for any other. -/
def State.lodgingTable (s : State) : List (BitVec 256) :=
  (List.range 255).map fun i => if (s.lodging (i + 1)).live then (s.lodging (i + 1)).digest else 0
/-- The host port answers with a measurement and the identity key's signature, or with the failure of the verification (R466, R467). -/
def State.measured (s : State) (index : Nat) : State :=
  s.toHost (if s.boot = 2 then .failed else .measured index (mapGet s.measures index) (Config.signed index (mapGet s.measures index)))
/-- SPDM_REQUEST (R466, R467): a measurement is read; that of the lodging table is taken afresh. -/
def execSpdmRequest (index : Nat) (s : State) : Out :=
  let m : Measurement := { digest := Config.sha256 (s.lodgingTable.flatMap (bytesOf 32)), version := 0, counts := none }
  .next ((if index = tableIndex ∧ s.boot = 1 then { s with measures := mapSet s.measures tableIndex m } else s).measured index)

/-- A message of the host over DOE, in an SPDM session or, with session 0, in none (R466 to R468): the certificate chain of slot 0; KEY_EXCHANGE and
FINISH, which make a session secured; its end; and inside a secured session the lodging table and the keys of the IDE streams. In recovery every
message is answered with the failure. -/
def State.doe (s : State) (session : Nat) (m : DoeMsg) : State :=
  if s.boot = 2 then s.toHost .failed
  else
    let p := mapGet s.spdm session
    let s : State := { s with speaking := session }
    let become := fun (s : State) (p : Spdm) => { s with spdm := mapSet s.spdm session p }.toHost (.spdm session p.phase)
    match m with
    | .certificate slot => s.toHost (.certificate slot (if slot = 0 then Config.certificates else []))
    | .keyExchange => if session = 0 then s else become s { phase := 1, secret := Config.exchanged s.tick }
    | .finish => if p.phase = 1 then become s { p with phase := 2 } else s
    | .close => become s default
    | .table => if p.phase = 2 then s.toHost (.table s.lodgingTable) else s
    | .ideKey selective key => if p.phase = 2 then { s with ide := mapSet s.ide (bit1 selective) { key := key, on := false } } else s
    | .ideSet selective on => if p.phase = 2 then { s with ide := mapUpd s.ide (bit1 selective) fun x => { x with on := on } } else s
/-- The capabilities of the configuration space (R401). -/
def pciCaps : List PciCap := [.pcie, .ats, .pri, .pasid, .doe, .ide]
/-- BAR0 as the configuration space reads (R401): 64-bit, not prefetchable, 64 KiB. PRESUMED (log 71): PCI codes these in bits [3:0], as 0100. -/
def State.bar0Reads (s : State) : Word := s.bar0 ||| 4
def State.setBar0 (s : State) (base : Word) : State := { s with bar0 := base / 65536 * 65536 }

end Sys2Proof.Machine
end

