-- ==== Sys2Proof/Machine/VecPerm.lean ====
section
/-! DEFINITION. Permutes, non-zero filtering and lane reductions (R192 to R195). -/

namespace Sys2Proof.Machine

/-- Element width of a permute (R112). -/
def permWidth (w : BitVec 1) : Nat := if w = 1 then 64 else 32
/-- An element with its validity. -/
def Value.cell (v : Value) (w k : Nat) : Nat × Bool := (v.elem w k, elemOk v.valid w k)
/-- A permute's result from its elements (R192). -/
def Ctx.perm (c : Ctx) (w : Nat) (vs : List Value) (out : Nat → Nat × Bool) : Except Trap Fired :=
  let n := 512 / w
  let es := (List.range n).map out
  c.value (c.masked { bits := ofElems w (es.map Prod.fst), valid := lanesOf w n fun k => (es[k]?.getD (0, true)).2,
                      tag := brokenOf vs, null := false })
/-- The whole result null (R192, R193). -/
def Ctx.allNull (c : Ctx) (vs : List Value) : Except Trap Fired := c.value { bits := 0, valid := 0, tag := brokenOf vs, null := false }
/-- The elements of L chosen by a mask, in increasing order (R192). -/
def chosen (w : Nat) (p : Nat → Bool) : List Nat := (List.range (512 / w)).filter p
/-- The mask bit of element `e`: e, or 2e for 64-bit elements (R192). -/
def maskBit (w : Nat) (m : W32) (e : Nat) : Bool := bitAt m (e * w / 32)
/-- Elements of L with any bit set; a null element counts as zero (R192). -/
def nonZero (w : Nat) (v : Value) : List Nat := chosen w fun e => elemOk v.valid w e && v.elem w e != 0

/-- VSHUF (R192). Permutes elements by an index vector. -/
def execVshuf (pr : BitVec 2) (w : BitVec 1) (t1 : BitVec 9) (t0 : BitVec 9) (s : State) : Out :=
  s.fire (tForm .vshuf pr 2 t1 t0) plainNull fun c => let n := permWidth w
    c.perm n [c.l, c.r] fun e => if elemOk c.r.valid n e then c.l.cell n (c.r.elem n e % (512 / n)) else (0, false)

/-- VBCAST (R192). Broadcasts element 0. -/
def execVbcast (pr : BitVec 2) (w : BitVec 1) (t1 : BitVec 9) (t0 : BitVec 9) (s : State) : Out :=
  s.fire (tForm .vbcast pr 1 t1 t0) plainNull fun c => let n := permWidth w
    c.perm n [c.l] fun _ => c.l.cell n 0

/-- VROT (R192). Rotates the elements. -/
def execVrot (pr : BitVec 2) (w : BitVec 1) (t1 : BitVec 9) (t0 : BitVec 9) (s : State) : Out :=
  s.fire (tForm .vrot pr 2 t1 t0) plainNull fun c => let n := permWidth w
    if !c.r.validTo 2 then c.allNull [c.l, c.r]
    else c.perm n [c.l, c.r] fun e => c.l.cell n ((e + c.r.scalar.toNat) % (512 / n))

/-- VIOTA (R192). Yields s+e in each element e. DESIGN CHOICE (log 70): a null lane 0 or 1 of s makes every lane of the result null, as R193 says of
VROT, VINS and VEXT. -/
def execViota (pr : BitVec 2) (w : BitVec 1) (t1 : BitVec 9) (t0 : BitVec 9) (s : State) : Out :=
  s.fire (tForm .viota pr 1 t1 t0) plainNull fun c => let n := permWidth w
    if !c.l.validTo 2 then c.allNull [c.l]
    else c.perm n [c.l] fun e => ((c.l.scalar.toNat + e) % 2 ^ n, true)

/-- VCOMP (R192). Compresses the mask-selected elements. -/
def execVcomp (pr : BitVec 2) (w : BitVec 1) (t1 : BitVec 9) (t0 : BitVec 9) (s : State) : Out :=
  s.fire (tForm .vcomp pr 2 t1 t0) plainNull fun c => let n := permWidth w
    if !bitAt c.r.valid 0 then c.allNull [c.l, c.r]
    else
      let ks := chosen n (maskBit n (c.r.lane 0))
      c.perm n [c.l, c.r] fun e => match ks[e]? with | some k => c.l.cell n k | none => (0, true)

/-- VEXPAND (R192). Expands elements into the mask-selected positions. -/
def execVexpand (pr : BitVec 2) (w : BitVec 1) (t1 : BitVec 9) (t0 : BitVec 9) (s : State) : Out :=
  s.fire (tForm .vexpand pr 2 t1 t0) plainNull fun c => let n := permWidth w
    if !bitAt c.r.valid 0 then c.allNull [c.l, c.r]
    else c.perm n [c.l, c.r] fun e =>
      if maskBit n (c.r.lane 0) e then c.l.cell n ((List.range e).filter (maskBit n (c.r.lane 0))).length else (0, true)

/-- VZIP (R192). Interleaves two vectors. -/
def execVzip (pr : BitVec 2) (w : BitVec 1) (t1 : BitVec 9) (t0 : BitVec 9) (s : State) : Out :=
  s.fire (tForm .vzip pr 2 t1 t0) plainNull fun c => let n := permWidth w
    c.perm n [c.l, c.r] fun e => if e % 2 = 0 then c.l.cell n (e / 2) else c.r.cell n (e / 2)

/-- VUNZIP (R192). De-interleaves a vector. -/
def execVunzip (pr : BitVec 2) (w : BitVec 1) (t1 : BitVec 9) (t0 : BitVec 9) (s : State) : Out :=
  s.fire (tForm .vunzip pr 1 t1 t0) plainNull fun c => let n := permWidth w
    c.perm n [c.l] fun e => if e < 256 / n then c.l.cell n (2 * e) else c.l.cell n (2 * (e - 256 / n) + 1)

/-- VNZ (R192). Compresses the non-zero elements. -/
def execVnz (pr : BitVec 2) (w : BitVec 1) (t1 : BitVec 9) (t0 : BitVec 9) (s : State) : Out :=
  s.fire (tForm .vnz pr 1 t1 t0) plainNull fun c => let n := permWidth w
    c.perm n [c.l] fun e => match (nonZero n c.l)[e]? with | some k => (c.l.elem n k, true) | none => (0, true)

/-- VNZI (R192). Yields the indices of the non-zero elements. -/
def execVnzi (pr : BitVec 2) (w : BitVec 1) (t1 : BitVec 9) (t0 : BitVec 9) (s : State) : Out :=
  s.fire (tForm .vnzi pr 1 t1 t0) plainNull fun c => let n := permWidth w
    c.perm n [c.l] fun e => match (nonZero n c.l)[e]? with | some k => (k, true) | none => (2 ^ n - 1, true)

/-- VINS (R192). Inserts a scalar at element k. -/
def execVins (pr : BitVec 2) (w : BitVec 1) (t1 : BitVec 9) (t0 : BitVec 9) (s : State) : Out :=
  s.fire (tForm .vins pr 3 t1 t0) plainNull fun c => let n := permWidth w
    if !c.t.validTo 2 then c.allNull [c.l, c.r, c.t]
    else c.perm n [c.l, c.r, c.t] fun e => if e = c.t.scalar.toNat % (512 / n) then c.r.cell n 0 else c.l.cell n e

/-- VEXT (R193). Extracts element k as a scalar. -/
def execVext (pr : BitVec 2) (w : BitVec 1) (t1 : BitVec 9) (t0 : BitVec 9) (s : State) : Out :=
  s.fire (tForm .vext pr 2 t1 t0) plainNull fun c => let n := permWidth w
    if !c.r.validTo 2 then c.allNull [c.l, c.r]
    else
      let k := c.r.scalar.toNat % (512 / n)
      let x : Word := if n = 32 then sext64 (BitVec.ofNat 32 (c.l.elem n k)) else BitVec.ofNat 64 (c.l.elem n k)
      c.value (c.masked (scalarValue x (elemOk (c.l.valid &&& c.mask) n k) (brokenOf [c.l, c.r])))

/-- The elements of L for a reduction, the identity for null and masked ones; none when every element is (R194). -/
def Ctx.redOperands (c : Ctx) (w ident : Nat) : Option (List Nat) :=
  let ok := fun k => elemOk (c.l.valid &&& c.mask) w k
  if (List.range (512 / w)).any ok then some ((List.range (512 / w)).map fun k => if ok k then c.l.elem w k else ident) else none
/-- The scalar of a reduction (R194): i32 sign-extended, f32 in lane 0. -/
def Ctx.redScalar (c : Ctx) (signed : Bool) (w : Nat) (r : Option (Nat × List Nat)) : Except Trap Fired :=
  match r with
  | none => c.value (c.masked (scalarValue 0 false (brokenOf [c.l])))
  | some (x, evs) =>
    c.value (c.masked (scalarValue (if signed && w == 32 then sext64 (BitVec.ofNat 32 x) else BitVec.ofNat 64 x) true (brokenOf [c.l]))) evs
/-- One level of the pairwise tree of R195: the sums, the events, the next draw. -/
def addLevel (f : Fmt) (mode : Nat) (draw : Nat → Nat) : List Nat → Nat → List Nat × List Nat
  | x :: y :: xs, d =>
    let r := f.addNum mode (draw d) (f.decode x) (f.decode y)
    let s := addLevel f mode draw xs (d + 1)
    (r.1 :: s.1, r.2 ++ s.2)
  | _, _ => ([], [])
/-- The tree of R195, `n` levels. -/
def addTree (f : Fmt) (mode : Nat) (draw : Nat → Nat) : Nat → List Nat → Nat → Nat × List Nat
  | 0, xs, _ => (xs.head?.getD 0, [])
  | n + 1, xs, d =>
    let r := addLevel f mode draw xs d
    let s := addTree f mode draw n r.1 (d + xs.length / 2)
    (s.1, r.2 ++ s.2)
/-- maximumNumber or minimumNumber over the elements (R194). -/
def foldMinMax (f : Fmt) (isMax : Bool) (xs : List Nat) : Nat × List Nat :=
  match xs with
  | [] => (0, [])
  | x :: xs => xs.foldl (fun a y => let r := f.minMax isMax a.1 y; (r.1, a.2 ++ r.2)) (x, [])
/-- An integer reduction (R194). -/
def Ctx.redInt (c : Ctx) (w : BitVec 2) (ident : Nat → Nat) (f : Nat → Nat → Nat → Nat) : Except Trap Fired :=
  let n := if bitAt w 0 then 64 else 32
  c.redScalar true n ((c.redOperands n (ident n)).map fun xs => (xs.foldl (f n) (ident n), []))
def maxSigned (n x y : Nat) : Nat := if elemInt false n x ≤ elemInt false n y then y else x
def minSigned (n x y : Nat) : Nat := if elemInt false n x ≤ elemInt false n y then x else y
/-- f32 or f64 for the types 0 and 1 of R113. -/
def redFmt (w : BitVec 2) : Fmt := if bitAt w 0 then f64 else f32

/-- VRED.add (R195). Sums the elements, floats in a fixed pairwise tree. -/
def execVredAdd (pr : BitVec 2) (w : BitVec 2) (t1 : BitVec 9) (t0 : BitVec 9) (s : State) : Out :=
  s.fire (tForm .vredAdd pr 1 t1 t0) plainNull fun c => 
    if bitAt w 1 then c.redInt w (fun _ => 0) (fun n x y => (x + y) % 2 ^ n)
    else
      let f := redFmt w
      c.redScalar false f.w ((c.redOperands f.w (2 ^ (f.w - 1))).map fun xs => addTree f c.mode (c.drawIn c.mode) (if f.w = 32 then 4 else 3) xs 0)

/-- VRED.max (R194). Maximum of the elements. -/
def execVredMax (pr : BitVec 2) (w : BitVec 2) (t1 : BitVec 9) (t0 : BitVec 9) (s : State) : Out :=
  s.fire (tForm .vredMax pr 1 t1 t0) plainNull fun c => 
    if bitAt w 1 then c.redInt w (fun n => 2 ^ (n - 1)) maxSigned
    else
      let f := redFmt w
      c.redScalar false f.w ((c.redOperands f.w (f.sign true f.infCode)).map (foldMinMax f true))

/-- VRED.min (R194). Minimum of the elements. -/
def execVredMin (pr : BitVec 2) (w : BitVec 2) (t1 : BitVec 9) (t0 : BitVec 9) (s : State) : Out :=
  s.fire (tForm .vredMin pr 1 t1 t0) plainNull fun c => 
    if bitAt w 1 then c.redInt w (fun n => 2 ^ (n - 1) - 1) minSigned
    else
      let f := redFmt w
      c.redScalar false f.w ((c.redOperands f.w f.infCode).map (foldMinMax f false))

/-- VRED.maxn (R194). Natural maximum of the elements. -/
def execVredMaxn (pr : BitVec 2) (w : BitVec 2) (t1 : BitVec 9) (t0 : BitVec 9) (s : State) : Out :=
  s.fire (tForm .vredMaxn pr 1 t1 t0) plainNull fun c => c.redInt w (fun _ => 0) (fun _ x y => Nat.max x y)

/-- VRED.minn (R194). Natural minimum of the elements. -/
def execVredMinn (pr : BitVec 2) (w : BitVec 2) (t1 : BitVec 9) (t0 : BitVec 9) (s : State) : Out :=
  s.fire (tForm .vredMinn pr 1 t1 t0) plainNull fun c => c.redInt w (fun n => 2 ^ n - 1) (fun _ x y => Nat.min x y)

/-- VRED.and (R194). AND of the elements. -/
def execVredAnd (pr : BitVec 2) (w : BitVec 2) (t1 : BitVec 9) (t0 : BitVec 9) (s : State) : Out :=
  s.fire (tForm .vredAnd pr 1 t1 t0) plainNull fun c => c.redInt w (fun n => 2 ^ n - 1) (fun _ x y => x &&& y)

/-- VRED.or (R194). OR of the elements. -/
def execVredOr (pr : BitVec 2) (w : BitVec 2) (t1 : BitVec 9) (t0 : BitVec 9) (s : State) : Out :=
  s.fire (tForm .vredOr pr 1 t1 t0) plainNull fun c => c.redInt w (fun _ => 0) (fun _ x y => x ||| y)

/-- VRED.xor (R194). XOR of the elements. -/
def execVredXor (pr : BitVec 2) (w : BitVec 2) (t1 : BitVec 9) (t0 : BitVec 9) (s : State) : Out :=
  s.fire (tForm .vredXor pr 1 t1 t0) plainNull fun c => c.redInt w (fun _ => 0) (fun _ x y => x ^^^ y)


end Sys2Proof.Machine
end

