-- ==== Sys2Proof/Machine/Dispatch.lean ====
section
/-! DEFINITION. The dispatcher: one arm per constructor of Instr, one direct call of its meaning. -/

namespace Sys2Proof.Machine

/-- What an instruction, or one of the part's own steps, does. -/
def exec (i : Instr) (s : State) : Host.Outcome State Fault Refusal :=
  match i with
  | .blockFetch core slot => Sys2Proof.Machine.execBlockFetch core slot s
  | .blockAdmission core slot => Sys2Proof.Machine.execBlockAdmission core slot s
  | .blockCommit core slot => Sys2Proof.Machine.execBlockCommit core slot s
  | .commitWait core slot => Sys2Proof.Machine.execCommitWait core slot s
  | .blockStuck core slot => Sys2Proof.Machine.execBlockStuck core slot s
  | .yieldTimeout core slot => Sys2Proof.Machine.execYieldTimeout core slot s
  | .sleepExpiry core slot => Sys2Proof.Machine.execSleepExpiry core slot s
  | .instructionAged core slot idx => Sys2Proof.Machine.execInstructionAged core slot idx s
  | .favouredSlotMove core cls => Sys2Proof.Machine.execFavouredSlotMove core cls s
  | .portWordArrival core port => Sys2Proof.Machine.execPortWordArrival core port s
  | .outboundDepart req => Sys2Proof.Machine.execOutboundDepart req s
  | .homePerform req => Sys2Proof.Machine.execHomePerform req s
  | .responseArrival req => Sys2Proof.Machine.execResponseArrival req s
  | .remoteAnswer core slot idx => Sys2Proof.Machine.execRemoteAnswer core slot idx s
  | .engineUnits core cmd => Sys2Proof.Machine.execEngineUnits core cmd s
  | .engineEnd core cmd => Sys2Proof.Machine.execEngineEnd core cmd s
  | .engineChunkStop core cmd => Sys2Proof.Machine.execEngineChunkStop core cmd s
  | .leaveGrant die => Sys2Proof.Machine.execLeaveGrant die s
  | .matrixCommandAccept req => Sys2Proof.Machine.execMatrixCommandAccept req s
  | .blockStep core => Sys2Proof.Machine.execBlockStep core s
  | .mzeroComplete core => Sys2Proof.Machine.execMzeroComplete core s
  | .engineStarved core => Sys2Proof.Machine.execEngineStarved core s
  | .feedFblockEnter core feedB => Sys2Proof.Machine.execFeedFblockEnter core feedB s
  | .counterDischarge req => Sys2Proof.Machine.execCounterDischarge req s
  | .handlerRetry core => Sys2Proof.Machine.execHandlerRetry core s
  | .bindArrival req => Sys2Proof.Machine.execBindArrival req s
  | .invocationArrival req => Sys2Proof.Machine.execInvocationArrival req s
  | .claimFulfilment req => Sys2Proof.Machine.execClaimFulfilment req s
  | .claimBreak req => Sys2Proof.Machine.execClaimBreak req s
  | .queueMessageArrival req => Sys2Proof.Machine.execQueueMessageArrival req s
  | .sendwResend req => Sys2Proof.Machine.execSendwResend req s
  | .claimWaiterPoll req => Sys2Proof.Machine.execClaimWaiterPoll req s
  | .objectWaiterPoll req => Sys2Proof.Machine.execObjectWaiterPoll req s
  | .deskDecision => Sys2Proof.Machine.execDeskDecision s
  | .launchAged lodging queue => Sys2Proof.Machine.execLaunchAged lodging queue s
  | .startArrival req => Sys2Proof.Machine.execStartArrival req s
  | .arrivalResend req => Sys2Proof.Machine.execArrivalResend req s
  | .ringStart core => Sys2Proof.Machine.execRingStart core s
  | .stationRequest req => Sys2Proof.Machine.execStationRequest req s
  | .walkComplete req => Sys2Proof.Machine.execWalkComplete req s
  | .faultMessageSend station entry => Sys2Proof.Machine.execFaultMessageSend station entry s
  | .atsTranslationCompletion req pa size rd wr => Sys2Proof.Machine.execAtsTranslationCompletion req pa size rd wr s
  | .pageRequestSend station pasid page => Sys2Proof.Machine.execPageRequestSend station pasid page s
  | .priResponse pasid page code => Sys2Proof.Machine.execPriResponse pasid page code s
  | .atsInvalidationRequest pasid va len tag => Sys2Proof.Machine.execAtsInvalidationRequest pasid va len tag s
  | .stationInvalidationAnswer station tag => Sys2Proof.Machine.execStationInvalidationAnswer station tag s
  | .atomicopCompletion req ok => Sys2Proof.Machine.execAtomicopCompletion req ok s
  | .completionTimeout req => Sys2Proof.Machine.execCompletionTimeout req s
  | .inletLaunch session seq payload => Sys2Proof.Machine.execInletLaunch session seq payload s
  | .inletWindow session seq payload => Sys2Proof.Machine.execInletWindow session seq payload s
  | .inletPost session seq payload => Sys2Proof.Machine.execInletPost session seq payload s
  | .inletCredit session seq payload => Sys2Proof.Machine.execInletCredit session seq payload s
  | .inletAgent session seq payload => Sys2Proof.Machine.execInletAgent session seq payload s
  | .inletCall session seq payload => Sys2Proof.Machine.execInletCall session seq payload s
  | .inletUnknownKind session seq kind payload => Sys2Proof.Machine.execInletUnknownKind session seq kind payload s
  | .inletRead offset => Sys2Proof.Machine.execInletRead offset s
  | .replyEntryWrite lodging queue => Sys2Proof.Machine.execReplyEntryWrite lodging queue s
  | .flitReceive flit => Sys2Proof.Machine.execFlitReceive flit s
  | .linkFailure link => Sys2Proof.Machine.execLinkFailure link s
  | .collectiveEntryPass core coll => Sys2Proof.Machine.execCollectiveEntryPass core coll s
  | .drainReduction lodging => Sys2Proof.Machine.execDrainReduction lodging s
  | .requestHeld req => Sys2Proof.Machine.execRequestHeld req s
  | .imageSwap lodging logical => Sys2Proof.Machine.execImageSwap lodging logical s
  | .lotReadback core store unit => Sys2Proof.Machine.execLotReadback core store unit s
  | .flushMarker lodging logical sender => Sys2Proof.Machine.execFlushMarker lodging logical sender s
  | .lodgingWatchdog lodging => Sys2Proof.Machine.execLodgingWatchdog lodging s
  | .deviceWatchdog lodging => Sys2Proof.Machine.execDeviceWatchdog lodging s
  | .lodgeEndComplete lodging => Sys2Proof.Machine.execLodgeEndComplete lodging s
  | .trapRecordWrite core slot => Sys2Proof.Machine.execTrapRecordWrite core slot s
  | .scrubVisit core store word => Sys2Proof.Machine.execScrubVisit core store word s
  | .unitFailure core unit => Sys2Proof.Machine.execUnitFailure core unit s
  | .statSumRound lodging launch round => Sys2Proof.Machine.execStatSumRound lodging launch round s
  | .firmwareSwitch core => Sys2Proof.Machine.execFirmwareSwitch core s
  | .firmwareHandover core slot => Sys2Proof.Machine.execFirmwareHandover core slot s
  | .reset => Sys2Proof.Machine.execReset s
  | .spdmRequest index => Sys2Proof.Machine.execSpdmRequest index s
  | .sessionBindRequest lodging session inletSalt replySalt => Sys2Proof.Machine.execSessionBindRequest lodging session inletSalt replySalt s
  | .inletWriteDiscarded session => Sys2Proof.Machine.execInletWriteDiscarded session s
  | .testPatternEnd core pass => Sys2Proof.Machine.execTestPatternEnd core pass s
  | .migrationResume lodging logical => Sys2Proof.Machine.execMigrationResume lodging logical s
  | .leaveWaitCount core => Sys2Proof.Machine.execLeaveWaitCount core s
  | .extWide payload => Sys2Proof.Machine.execExtWide payload s
  | .extHint long cls => Sys2Proof.Machine.execExtHint long cls s
  | .extModifier scope sat round => Sys2Proof.Machine.execExtModifier scope sat round s
  | .read e reg t1 t0 => Sys2Proof.Machine.execRead e reg t1 t0 s
  | .port e reg t1 t0 => Sys2Proof.Machine.execPort e reg t1 t0 s
  | .write pr reg => Sys2Proof.Machine.execWrite pr reg s
  | .wport pr reg => Sys2Proof.Machine.execWport pr reg s
  | .null pr t1 t0 => Sys2Proof.Machine.execNull pr t1 t0 s
  | .mov pr t1 t0 => Sys2Proof.Machine.execMov pr t1 t0 s
  | .bro pr off => Sys2Proof.Machine.execBro pr off s
  | .call pr reg off => Sys2Proof.Machine.execCall pr reg off s
  | .brc pr => Sys2Proof.Machine.execBrc pr s
  | .ret pr => Sys2Proof.Machine.execRet pr s
  | .callc pr reg => Sys2Proof.Machine.execCallc pr reg s
  | .exit pr => Sys2Proof.Machine.execExit pr s
  | .yield pr off => Sys2Proof.Machine.execYield pr off s
  | .handoff pr => Sys2Proof.Machine.execHandoff pr s
  | .sleep pr => Sys2Proof.Machine.execSleep pr s
  | .add w pr t1 t0 => Sys2Proof.Machine.execAdd w pr t1 t0 s
  | .sub w pr t1 t0 => Sys2Proof.Machine.execSub w pr t1 t0 s
  | .and w pr t1 t0 => Sys2Proof.Machine.execAnd w pr t1 t0 s
  | .or w pr t1 t0 => Sys2Proof.Machine.execOr w pr t1 t0 s
  | .xor w pr t1 t0 => Sys2Proof.Machine.execXor w pr t1 t0 s
  | .andn w pr t1 t0 => Sys2Proof.Machine.execAndn w pr t1 t0 s
  | .shl w pr t1 t0 => Sys2Proof.Machine.execShl w pr t1 t0 s
  | .shr w pr t1 t0 => Sys2Proof.Machine.execShr w pr t1 t0 s
  | .sra w pr t1 t0 => Sys2Proof.Machine.execSra w pr t1 t0 s
  | .rol w pr t1 t0 => Sys2Proof.Machine.execRol w pr t1 t0 s
  | .min w pr t1 t0 => Sys2Proof.Machine.execMin w pr t1 t0 s
  | .max w pr t1 t0 => Sys2Proof.Machine.execMax w pr t1 t0 s
  | .minn w pr t1 t0 => Sys2Proof.Machine.execMinn w pr t1 t0 s
  | .maxn w pr t1 t0 => Sys2Proof.Machine.execMaxn w pr t1 t0 s
  | .sel w pr t1 t0 => Sys2Proof.Machine.execSel w pr t1 t0 s
  | .mul pr w t1 t0 => Sys2Proof.Machine.execMul pr w t1 t0 s
  | .mulh pr w t1 t0 => Sys2Proof.Machine.execMulh pr w t1 t0 s
  | .mulhn pr w t1 t0 => Sys2Proof.Machine.execMulhn pr w t1 t0 s
  | .div pr w t1 t0 => Sys2Proof.Machine.execDiv pr w t1 t0 s
  | .divn pr w t1 t0 => Sys2Proof.Machine.execDivn pr w t1 t0 s
  | .rem pr w t1 t0 => Sys2Proof.Machine.execRem pr w t1 t0 s
  | .remn pr w t1 t0 => Sys2Proof.Machine.execRemn pr w t1 t0 s
  | .clz pr t1 t0 => Sys2Proof.Machine.execClz pr t1 t0 s
  | .ctz pr t1 t0 => Sys2Proof.Machine.execCtz pr t1 t0 s
  | .pop pr t1 t0 => Sys2Proof.Machine.execPop pr t1 t0 s
  | .sext8 pr t1 t0 => Sys2Proof.Machine.execSext8 pr t1 t0 s
  | .sext16 pr t1 t0 => Sys2Proof.Machine.execSext16 pr t1 t0 s
  | .sext32 pr t1 t0 => Sys2Proof.Machine.execSext32 pr t1 t0 s
  | .zext8 pr t1 t0 => Sys2Proof.Machine.execZext8 pr t1 t0 s
  | .zext16 pr t1 t0 => Sys2Proof.Machine.execZext16 pr t1 t0 s
  | .zext32 pr t1 t0 => Sys2Proof.Machine.execZext32 pr t1 t0 s
  | .brev pr t1 t0 => Sys2Proof.Machine.execBrev pr t1 t0 s
  | .bswap pr t1 t0 => Sys2Proof.Machine.execBswap pr t1 t0 s
  | .teq pr w t1 t0 => Sys2Proof.Machine.execTeq pr w t1 t0 s
  | .tne pr w t1 t0 => Sys2Proof.Machine.execTne pr w t1 t0 s
  | .tlt pr w t1 t0 => Sys2Proof.Machine.execTlt pr w t1 t0 s
  | .tle pr w t1 t0 => Sys2Proof.Machine.execTle pr w t1 t0 s
  | .tltn pr w t1 t0 => Sys2Proof.Machine.execTltn pr w t1 t0 s
  | .tlen pr w t1 t0 => Sys2Proof.Machine.execTlen pr w t1 t0 s
  | .tbit pr t1 t0 => Sys2Proof.Machine.execTbit pr t1 t0 s
  | .pand pr t1 t0 => Sys2Proof.Machine.execPand pr t1 t0 s
  | .por pr t1 t0 => Sys2Proof.Machine.execPor pr t1 t0 s
  | .pxor pr t1 t0 => Sys2Proof.Machine.execPxor pr t1 t0 s
  | .pnot pr t1 t0 => Sys2Proof.Machine.execPnot pr t1 t0 s
  | .pany pr t1 t0 => Sys2Proof.Machine.execPany pr t1 t0 s
  | .pall pr t1 t0 => Sys2Proof.Machine.execPall pr t1 t0 s
  | .pcnt pr t1 t0 => Sys2Proof.Machine.execPcnt pr t1 t0 s
  | .pfirst pr t1 t0 => Sys2Proof.Machine.execPfirst pr t1 t0 s
  | .addi pr imm t0 => Sys2Proof.Machine.execAddi pr imm t0 s
  | .addiw pr imm t0 => Sys2Proof.Machine.execAddiw pr imm t0 s
  | .andi pr imm t0 => Sys2Proof.Machine.execAndi pr imm t0 s
  | .ori pr imm t0 => Sys2Proof.Machine.execOri pr imm t0 s
  | .xori pr imm t0 => Sys2Proof.Machine.execXori pr imm t0 s
  | .shli pr imm t0 => Sys2Proof.Machine.execShli pr imm t0 s
  | .shri pr imm t0 => Sys2Proof.Machine.execShri pr imm t0 s
  | .srai pr imm t0 => Sys2Proof.Machine.execSrai pr imm t0 s
  | .muli pr imm t0 => Sys2Proof.Machine.execMuli pr imm t0 s
  | .teqi pr imm t0 => Sys2Proof.Machine.execTeqi pr imm t0 s
  | .tnei pr imm t0 => Sys2Proof.Machine.execTnei pr imm t0 s
  | .tlti pr imm t0 => Sys2Proof.Machine.execTlti pr imm t0 s
  | .tlei pr imm t0 => Sys2Proof.Machine.execTlei pr imm t0 s
  | .tltni pr imm t0 => Sys2Proof.Machine.execTltni pr imm t0 s
  | .movi pr imm t0 => Sys2Proof.Machine.execMovi pr imm t0 s
  | .movif pr imm t0 => Sys2Proof.Machine.execMovif pr imm t0 s
  | .cadd pr t1 t0 => Sys2Proof.Machine.execCadd pr t1 t0 s
  | .cseta pr t1 t0 => Sys2Proof.Machine.execCseta pr t1 t0 s
  | .csetb pr t1 t0 => Sys2Proof.Machine.execCsetb pr t1 t0 s
  | .csetbx pr t1 t0 => Sys2Proof.Machine.execCsetbx pr t1 t0 s
  | .cperm pr t1 t0 => Sys2Proof.Machine.execCperm pr t1 t0 s
  | .cseal pr t1 t0 => Sys2Proof.Machine.execCseal pr t1 t0 s
  | .cunseal pr t1 t0 => Sys2Proof.Machine.execCunseal pr t1 t0 s
  | .cgeta pr t1 t0 => Sys2Proof.Machine.execCgeta pr t1 t0 s
  | .cgetb pr t1 t0 => Sys2Proof.Machine.execCgetb pr t1 t0 s
  | .cgetl pr t1 t0 => Sys2Proof.Machine.execCgetl pr t1 t0 s
  | .cgetp pr t1 t0 => Sys2Proof.Machine.execCgetp pr t1 t0 s
  | .cgetk pr t1 t0 => Sys2Proof.Machine.execCgetk pr t1 t0 s
  | .ctagt pr t1 t0 => Sys2Proof.Machine.execCtagt pr t1 t0 s
  | .csub pr t1 t0 => Sys2Proof.Machine.execCsub pr t1 t0 s
  | .ceq pr t1 t0 => Sys2Proof.Machine.execCeq pr t1 t0 s
  | .cclr pr t1 t0 => Sys2Proof.Machine.execCclr pr t1 t0 s
  | .caddi pr imm t0 => Sys2Proof.Machine.execCaddi pr imm t0 s
  | .ldI8 pr lsid imm t0 => Sys2Proof.Machine.execLdI8 pr lsid imm t0 s
  | .ldN8 pr lsid imm t0 => Sys2Proof.Machine.execLdN8 pr lsid imm t0 s
  | .ldI16 pr lsid imm t0 => Sys2Proof.Machine.execLdI16 pr lsid imm t0 s
  | .ldN16 pr lsid imm t0 => Sys2Proof.Machine.execLdN16 pr lsid imm t0 s
  | .ldI32 pr lsid imm t0 => Sys2Proof.Machine.execLdI32 pr lsid imm t0 s
  | .ldN32 pr lsid imm t0 => Sys2Proof.Machine.execLdN32 pr lsid imm t0 s
  | .ld64 pr lsid imm t0 => Sys2Proof.Machine.execLd64 pr lsid imm t0 s
  | .ldv pr lsid imm t0 => Sys2Proof.Machine.execLdv pr lsid imm t0 s
  | .ldc pr lsid imm t0 => Sys2Proof.Machine.execLdc pr lsid imm t0 s
  | .vgather pr lsid imm t0 => Sys2Proof.Machine.execVgather pr lsid imm t0 s
  | .st8 pr lsid imm => Sys2Proof.Machine.execSt8 pr lsid imm s
  | .st16 pr lsid imm => Sys2Proof.Machine.execSt16 pr lsid imm s
  | .st32 pr lsid imm => Sys2Proof.Machine.execSt32 pr lsid imm s
  | .st64 pr lsid imm => Sys2Proof.Machine.execSt64 pr lsid imm s
  | .stv pr lsid imm => Sys2Proof.Machine.execStv pr lsid imm s
  | .stc pr lsid imm => Sys2Proof.Machine.execStc pr lsid imm s
  | .vscatter pr lsid imm => Sys2Proof.Machine.execVscatter pr lsid imm s
  | .qld pr reg width off => Sys2Proof.Machine.execQld pr reg width off s
  | .qst pr width imm => Sys2Proof.Machine.execQst pr width imm s
  | .aad pr reg w scope order => Sys2Proof.Machine.execAad pr reg w scope order s
  | .aswp pr reg w scope order => Sys2Proof.Machine.execAswp pr reg w scope order s
  | .acas pr reg w scope order => Sys2Proof.Machine.execAcas pr reg w scope order s
  | .amin pr reg w scope order => Sys2Proof.Machine.execAmin pr reg w scope order s
  | .amax pr reg w scope order => Sys2Proof.Machine.execAmax pr reg w scope order s
  | .aminn pr reg w scope order => Sys2Proof.Machine.execAminn pr reg w scope order s
  | .amaxn pr reg w scope order => Sys2Proof.Machine.execAmaxn pr reg w scope order s
  | .aand pr reg w scope order => Sys2Proof.Machine.execAand pr reg w scope order s
  | .aor pr reg w scope order => Sys2Proof.Machine.execAor pr reg w scope order s
  | .axor pr reg w scope order => Sys2Proof.Machine.execAxor pr reg w scope order s
  | .fenceAcq pr scope => Sys2Proof.Machine.execFenceAcq pr scope s
  | .fenceRel pr scope => Sys2Proof.Machine.execFenceRel pr scope s
  | .fenceFull pr scope => Sys2Proof.Machine.execFenceFull pr scope s
  | .vadd w pr t1 t0 => Sys2Proof.Machine.execVadd w pr t1 t0 s
  | .vsub w pr t1 t0 => Sys2Proof.Machine.execVsub w pr t1 t0 s
  | .vmul w pr t1 t0 => Sys2Proof.Machine.execVmul w pr t1 t0 s
  | .vdiv w pr t1 t0 => Sys2Proof.Machine.execVdiv w pr t1 t0 s
  | .vmin w pr t1 t0 => Sys2Proof.Machine.execVmin w pr t1 t0 s
  | .vmax w pr t1 t0 => Sys2Proof.Machine.execVmax w pr t1 t0 s
  | .vabs w pr t1 t0 => Sys2Proof.Machine.execVabs w pr t1 t0 s
  | .vneg w pr t1 t0 => Sys2Proof.Machine.execVneg w pr t1 t0 s
  | .vsqrt w pr t1 t0 => Sys2Proof.Machine.execVsqrt w pr t1 t0 s
  | .vrcp w pr t1 t0 => Sys2Proof.Machine.execVrcp w pr t1 t0 s
  | .vrsq w pr t1 t0 => Sys2Proof.Machine.execVrsq w pr t1 t0 s
  | .vexp2 w pr t1 t0 => Sys2Proof.Machine.execVexp2 w pr t1 t0 s
  | .vlog2 w pr t1 t0 => Sys2Proof.Machine.execVlog2 w pr t1 t0 s
  | .vtanh w pr t1 t0 => Sys2Proof.Machine.execVtanh w pr t1 t0 s
  | .vsin w pr t1 t0 => Sys2Proof.Machine.execVsin w pr t1 t0 s
  | .vcos w pr t1 t0 => Sys2Proof.Machine.execVcos w pr t1 t0 s
  | .vfloor w pr t1 t0 => Sys2Proof.Machine.execVfloor w pr t1 t0 s
  | .vceil w pr t1 t0 => Sys2Proof.Machine.execVceil w pr t1 t0 s
  | .vrint w pr t1 t0 => Sys2Proof.Machine.execVrint w pr t1 t0 s
  | .vclass w pr t1 t0 => Sys2Proof.Machine.execVclass w pr t1 t0 s
  | .vaddF16 pr w t1 t0 => Sys2Proof.Machine.execVaddF16 pr w t1 t0 s
  | .vsubF16 pr w t1 t0 => Sys2Proof.Machine.execVsubF16 pr w t1 t0 s
  | .vmulF16 pr w t1 t0 => Sys2Proof.Machine.execVmulF16 pr w t1 t0 s
  | .vdivF16 pr w t1 t0 => Sys2Proof.Machine.execVdivF16 pr w t1 t0 s
  | .vminF16 pr w t1 t0 => Sys2Proof.Machine.execVminF16 pr w t1 t0 s
  | .vmaxF16 pr w t1 t0 => Sys2Proof.Machine.execVmaxF16 pr w t1 t0 s
  | .vabsF16 pr w t1 t0 => Sys2Proof.Machine.execVabsF16 pr w t1 t0 s
  | .vnegF16 pr w t1 t0 => Sys2Proof.Machine.execVnegF16 pr w t1 t0 s
  | .vsqrtF16 pr w t1 t0 => Sys2Proof.Machine.execVsqrtF16 pr w t1 t0 s
  | .vrcpF16 pr w t1 t0 => Sys2Proof.Machine.execVrcpF16 pr w t1 t0 s
  | .vrsqF16 pr w t1 t0 => Sys2Proof.Machine.execVrsqF16 pr w t1 t0 s
  | .vexp2F16 pr w t1 t0 => Sys2Proof.Machine.execVexp2F16 pr w t1 t0 s
  | .vlog2F16 pr w t1 t0 => Sys2Proof.Machine.execVlog2F16 pr w t1 t0 s
  | .vtanhF16 pr w t1 t0 => Sys2Proof.Machine.execVtanhF16 pr w t1 t0 s
  | .vsinF16 pr w t1 t0 => Sys2Proof.Machine.execVsinF16 pr w t1 t0 s
  | .vcosF16 pr w t1 t0 => Sys2Proof.Machine.execVcosF16 pr w t1 t0 s
  | .vaddI32 pr n t1 t0 => Sys2Proof.Machine.execVaddI32 pr n t1 t0 s
  | .vsubI32 pr n t1 t0 => Sys2Proof.Machine.execVsubI32 pr n t1 t0 s
  | .vmulI32 pr n t1 t0 => Sys2Proof.Machine.execVmulI32 pr n t1 t0 s
  | .vmulhI32 pr n t1 t0 => Sys2Proof.Machine.execVmulhI32 pr n t1 t0 s
  | .vminI32 pr n t1 t0 => Sys2Proof.Machine.execVminI32 pr n t1 t0 s
  | .vmaxI32 pr n t1 t0 => Sys2Proof.Machine.execVmaxI32 pr n t1 t0 s
  | .vabsI32 pr t1 t0 => Sys2Proof.Machine.execVabsI32 pr t1 t0 s
  | .vnegI32 pr t1 t0 => Sys2Proof.Machine.execVnegI32 pr t1 t0 s
  | .vandI32 pr t1 t0 => Sys2Proof.Machine.execVandI32 pr t1 t0 s
  | .vorI32 pr t1 t0 => Sys2Proof.Machine.execVorI32 pr t1 t0 s
  | .vxorI32 pr t1 t0 => Sys2Proof.Machine.execVxorI32 pr t1 t0 s
  | .vshlI32 pr n t1 t0 => Sys2Proof.Machine.execVshlI32 pr n t1 t0 s
  | .vshrI32 pr t1 t0 => Sys2Proof.Machine.execVshrI32 pr t1 t0 s
  | .vsraI32 pr t1 t0 => Sys2Proof.Machine.execVsraI32 pr t1 t0 s
  | .vaddI16 w pr n t1 t0 => Sys2Proof.Machine.execVaddI16 w pr n t1 t0 s
  | .vsubI16 w pr n t1 t0 => Sys2Proof.Machine.execVsubI16 w pr n t1 t0 s
  | .vmulI16 w pr n t1 t0 => Sys2Proof.Machine.execVmulI16 w pr n t1 t0 s
  | .vmulhI16 w pr n t1 t0 => Sys2Proof.Machine.execVmulhI16 w pr n t1 t0 s
  | .vminI16 w pr n t1 t0 => Sys2Proof.Machine.execVminI16 w pr n t1 t0 s
  | .vmaxI16 w pr n t1 t0 => Sys2Proof.Machine.execVmaxI16 w pr n t1 t0 s
  | .vabsI16 w pr t1 t0 => Sys2Proof.Machine.execVabsI16 w pr t1 t0 s
  | .vnegI16 w pr t1 t0 => Sys2Proof.Machine.execVnegI16 w pr t1 t0 s
  | .vandI16 w pr t1 t0 => Sys2Proof.Machine.execVandI16 w pr t1 t0 s
  | .vorI16 w pr t1 t0 => Sys2Proof.Machine.execVorI16 w pr t1 t0 s
  | .vxorI16 w pr t1 t0 => Sys2Proof.Machine.execVxorI16 w pr t1 t0 s
  | .vshlI16 w pr n t1 t0 => Sys2Proof.Machine.execVshlI16 w pr n t1 t0 s
  | .vshrI16 w pr t1 t0 => Sys2Proof.Machine.execVshrI16 w pr t1 t0 s
  | .vsraI16 w pr t1 t0 => Sys2Proof.Machine.execVsraI16 w pr t1 t0 s
  | .vfma pr w t1 t0 => Sys2Proof.Machine.execVfma pr w t1 t0 s
  | .vfms pr w t1 t0 => Sys2Proof.Machine.execVfms pr w t1 t0 s
  | .vnfma pr w t1 t0 => Sys2Proof.Machine.execVnfma pr w t1 t0 s
  | .vnfms pr w t1 t0 => Sys2Proof.Machine.execVnfms pr w t1 t0 s
  | .vcmpEq pr w t1 t0 => Sys2Proof.Machine.execVcmpEq pr w t1 t0 s
  | .vcmpNe pr w t1 t0 => Sys2Proof.Machine.execVcmpNe pr w t1 t0 s
  | .vcmpLt pr w t1 t0 => Sys2Proof.Machine.execVcmpLt pr w t1 t0 s
  | .vcmpLe pr w t1 t0 => Sys2Proof.Machine.execVcmpLe pr w t1 t0 s
  | .vcvtF32F64 pr t1 t0 => Sys2Proof.Machine.execVcvtF32F64 pr t1 t0 s
  | .vcvtF64F32 pr t1 t0 => Sys2Proof.Machine.execVcvtF64F32 pr t1 t0 s
  | .vcvtF16F32 pr t1 t0 => Sys2Proof.Machine.execVcvtF16F32 pr t1 t0 s
  | .vcvtF32F16 pr t1 t0 => Sys2Proof.Machine.execVcvtF32F16 pr t1 t0 s
  | .vcvtBf16F32 pr t1 t0 => Sys2Proof.Machine.execVcvtBf16F32 pr t1 t0 s
  | .vcvtF32Bf16 pr t1 t0 => Sys2Proof.Machine.execVcvtF32Bf16 pr t1 t0 s
  | .vcvtE4m3F32 pr t1 t0 => Sys2Proof.Machine.execVcvtE4m3F32 pr t1 t0 s
  | .vcvtE5m2F32 pr t1 t0 => Sys2Proof.Machine.execVcvtE5m2F32 pr t1 t0 s
  | .vcvtE4m3F32Nosat pr t1 t0 => Sys2Proof.Machine.execVcvtE4m3F32Nosat pr t1 t0 s
  | .vcvtE5m2F32Nosat pr t1 t0 => Sys2Proof.Machine.execVcvtE5m2F32Nosat pr t1 t0 s
  | .vcvtF32E4m3 pr t1 t0 => Sys2Proof.Machine.execVcvtF32E4m3 pr t1 t0 s
  | .vcvtF32E5m2 pr t1 t0 => Sys2Proof.Machine.execVcvtF32E5m2 pr t1 t0 s
  | .vcvtI32F32 pr t1 t0 => Sys2Proof.Machine.execVcvtI32F32 pr t1 t0 s
  | .vcvtN32F32 pr t1 t0 => Sys2Proof.Machine.execVcvtN32F32 pr t1 t0 s
  | .vcvtF32I32 pr t1 t0 => Sys2Proof.Machine.execVcvtF32I32 pr t1 t0 s
  | .vcvtF32N32 pr t1 t0 => Sys2Proof.Machine.execVcvtF32N32 pr t1 t0 s
  | .vcvtI64F64 pr t1 t0 => Sys2Proof.Machine.execVcvtI64F64 pr t1 t0 s
  | .vcvtN64F64 pr t1 t0 => Sys2Proof.Machine.execVcvtN64F64 pr t1 t0 s
  | .vcvtF64I64 pr t1 t0 => Sys2Proof.Machine.execVcvtF64I64 pr t1 t0 s
  | .vcvtF64N64 pr t1 t0 => Sys2Proof.Machine.execVcvtF64N64 pr t1 t0 s
  | .vcvtI16I32 pr t1 t0 => Sys2Proof.Machine.execVcvtI16I32 pr t1 t0 s
  | .vcvtI8I32 pr t1 t0 => Sys2Proof.Machine.execVcvtI8I32 pr t1 t0 s
  | .vcvtI32I16 pr t1 t0 => Sys2Proof.Machine.execVcvtI32I16 pr t1 t0 s
  | .vcvtI32I8 pr t1 t0 => Sys2Proof.Machine.execVcvtI32I8 pr t1 t0 s
  | .vshuf pr w t1 t0 => Sys2Proof.Machine.execVshuf pr w t1 t0 s
  | .vbcast pr w t1 t0 => Sys2Proof.Machine.execVbcast pr w t1 t0 s
  | .vrot pr w t1 t0 => Sys2Proof.Machine.execVrot pr w t1 t0 s
  | .viota pr w t1 t0 => Sys2Proof.Machine.execViota pr w t1 t0 s
  | .vcomp pr w t1 t0 => Sys2Proof.Machine.execVcomp pr w t1 t0 s
  | .vexpand pr w t1 t0 => Sys2Proof.Machine.execVexpand pr w t1 t0 s
  | .vzip pr w t1 t0 => Sys2Proof.Machine.execVzip pr w t1 t0 s
  | .vunzip pr w t1 t0 => Sys2Proof.Machine.execVunzip pr w t1 t0 s
  | .vnz pr w t1 t0 => Sys2Proof.Machine.execVnz pr w t1 t0 s
  | .vnzi pr w t1 t0 => Sys2Proof.Machine.execVnzi pr w t1 t0 s
  | .vins pr w t1 t0 => Sys2Proof.Machine.execVins pr w t1 t0 s
  | .vext pr w t1 t0 => Sys2Proof.Machine.execVext pr w t1 t0 s
  | .vredAdd pr w t1 t0 => Sys2Proof.Machine.execVredAdd pr w t1 t0 s
  | .vredMax pr w t1 t0 => Sys2Proof.Machine.execVredMax pr w t1 t0 s
  | .vredMin pr w t1 t0 => Sys2Proof.Machine.execVredMin pr w t1 t0 s
  | .vredMaxn pr w t1 t0 => Sys2Proof.Machine.execVredMaxn pr w t1 t0 s
  | .vredMinn pr w t1 t0 => Sys2Proof.Machine.execVredMinn pr w t1 t0 s
  | .vredAnd pr w t1 t0 => Sys2Proof.Machine.execVredAnd pr w t1 t0 s
  | .vredOr pr w t1 t0 => Sys2Proof.Machine.execVredOr pr w t1 t0 s
  | .vredXor pr w t1 t0 => Sys2Proof.Machine.execVredXor pr w t1 t0 s
  | .vsel pr t1 t0 => Sys2Proof.Machine.execVsel pr t1 t0 s
  | .vqhdr pr t1 t0 => Sys2Proof.Machine.execVqhdr pr t1 t0 s
  | .vqpk pr t1 t0 => Sys2Proof.Machine.execVqpk pr t1 t0 s
  | .vdq pr t1 t0 => Sys2Proof.Machine.execVdq pr t1 t0 s
  | .vbaq pr t1 t0 => Sys2Proof.Machine.execVbaq pr t1 t0 s
  | .vbmax pr t1 t0 => Sys2Proof.Machine.execVbmax pr t1 t0 s
  | .vbfmt pr t1 t0 => Sys2Proof.Machine.execVbfmt pr t1 t0 s
  | .osmStep pr t1 t0 => Sys2Proof.Machine.execOsmStep pr t1 t0 s
  | .osmNorm pr t1 t0 => Sys2Proof.Machine.execOsmNorm pr t1 t0 s
  | .ctrNew pr t1 t0 => Sys2Proof.Machine.execCtrNew pr t1 t0 s
  | .ctrDec pr => Sys2Proof.Machine.execCtrDec pr s
  | .ctrBind pr => Sys2Proof.Machine.execCtrBind pr s
  | .ctrSplit pr => Sys2Proof.Machine.execCtrSplit pr s
  | .ctrStat pr t1 t0 => Sys2Proof.Machine.execCtrStat pr t1 t0 s
  | .rarm pr => Sys2Proof.Machine.execRarm pr s
  | .invoke pr t1 t0 => Sys2Proof.Machine.execInvoke pr t1 t0 s
  | .invokec pr t1 t0 => Sys2Proof.Machine.execInvokec pr t1 t0 s
  | .fulfil pr => Sys2Proof.Machine.execFulfil pr s
  | .brk pr => Sys2Proof.Machine.execBrk pr s
  | .wait pr reg => Sys2Proof.Machine.execWait pr reg s
  | .waitSt pr reg => Sys2Proof.Machine.execWaitSt pr reg s
  | .send pr t1 t0 => Sys2Proof.Machine.execSend pr t1 t0 s
  | .sendw pr reg => Sys2Proof.Machine.execSendw pr reg s
  | .qnew pr t1 t0 => Sys2Proof.Machine.execQnew pr t1 t0 s
  | .qbind pr => Sys2Proof.Machine.execQbind pr s
  | .qunbind pr => Sys2Proof.Machine.execQunbind pr s
  | .spawn pr => Sys2Proof.Machine.execSpawn pr s
  | .launch pr t1 t0 => Sys2Proof.Machine.execLaunch pr t1 t0 s
  | .cpy pr => Sys2Proof.Machine.execCpy pr s
  | .tile pr => Sys2Proof.Machine.execTile pr s
  | .feedA pr => Sys2Proof.Machine.execFeedA pr s
  | .feedB pr => Sys2Proof.Machine.execFeedB pr s
  | .mma pr => Sys2Proof.Machine.execMma pr s
  | .mzero pr => Sys2Proof.Machine.execMzero pr s
  | .mstat pr t1 t0 => Sys2Proof.Machine.execMstat pr t1 t0 s
  | .trap pr => Sys2Proof.Machine.execTrap pr s
  | .isync pr => Sys2Proof.Machine.execIsync pr s
  | .sysRd pr t1 t0 => Sys2Proof.Machine.execSysRd pr t1 t0 s
  | .sysWr pr => Sys2Proof.Machine.execSysWr pr s
  | .cusTake pr t1 t0 => Sys2Proof.Machine.execCusTake pr t1 t0 s
  | .cusResume pr => Sys2Proof.Machine.execCusResume pr s
  | .cusGive pr => Sys2Proof.Machine.execCusGive pr s
  | .cusBreak pr => Sys2Proof.Machine.execCusBreak pr s
  | .stnMap pr => Sys2Proof.Machine.execStnMap pr s
  | .stnInv pr => Sys2Proof.Machine.execStnInv pr s
  | .stnReplay pr => Sys2Proof.Machine.execStnReplay pr s
  | .lodgeNew pr => Sys2Proof.Machine.execLodgeNew pr s
  | .lodgeEnd pr => Sys2Proof.Machine.execLodgeEnd pr s
  | .migrate pr => Sys2Proof.Machine.execMigrate pr s
  | .shadowSave pr => Sys2Proof.Machine.execShadowSave pr s
  | .shadowLoad pr => Sys2Proof.Machine.execShadowLoad pr s
  | .testRun pr => Sys2Proof.Machine.execTestRun pr s
  | .statSum pr => Sys2Proof.Machine.execStatSum pr s
  | .engineCancel pr => Sys2Proof.Machine.execEngineCancel pr s

end Sys2Proof.Machine
end

