-- ==== Sys2Proof/Machine/Rows.lean ====
section
/-! DEFINITION. The meaning of a word by its row: what `exec` does with the instruction `build r w`, in a form that can
be compiled and run. Sys2Proof/Laws/Rows.lean proves the two equal. -/

namespace Sys2Proof.Machine

/-- The meaning of the instruction that row `r` reads from word `w`. -/
def execRow (r : Row) (w : W32) (s : State) : Out :=
  match r with
  | .extWide => Sys2Proof.Machine.execExtWide (xPay w) s
  | .extHint => Sys2Proof.Machine.execExtHint (bitsAt w 3 1) (bitsAt w 0 3) s
  | .extModifier => Sys2Proof.Machine.execExtModifier (bitsAt w 4 2) (bitsAt w 3 1) (bitsAt w 0 3) s
  | .read => Sys2Proof.Machine.execRead (rE w) (rReg w) (t1Of w) (t0Of w) s
  | .port => Sys2Proof.Machine.execPort (rE w) (rReg w) (t1Of w) (t0Of w) s
  | .write => Sys2Proof.Machine.execWrite (prOf w) (wReg w) s
  | .wport => Sys2Proof.Machine.execWport (prOf w) (wReg w) s
  | .null => Sys2Proof.Machine.execNull (prOf w) (t1Of w) (t0Of w) s
  | .mov => Sys2Proof.Machine.execMov (prOf w) (t1Of w) (t0Of w) s
  | .bro => Sys2Proof.Machine.execBro (prOf w) (off23Of w) s
  | .call => Sys2Proof.Machine.execCall (prOf w) (wReg w) (off17Of w) s
  | .brc => Sys2Proof.Machine.execBrc (prOf w) s
  | .ret => Sys2Proof.Machine.execRet (prOf w) s
  | .callc => Sys2Proof.Machine.execCallc (prOf w) (wReg w) s
  | .exit => Sys2Proof.Machine.execExit (prOf w) s
  | .yield => Sys2Proof.Machine.execYield (prOf w) (off23Of w) s
  | .handoff => Sys2Proof.Machine.execHandoff (prOf w) s
  | .sleep => Sys2Proof.Machine.execSleep (prOf w) s
  | .add => Sys2Proof.Machine.execAdd (bitsAt w 25 1) (prOf w) (t1Of w) (t0Of w) s
  | .sub => Sys2Proof.Machine.execSub (bitsAt w 25 1) (prOf w) (t1Of w) (t0Of w) s
  | .and => Sys2Proof.Machine.execAnd (bitsAt w 25 1) (prOf w) (t1Of w) (t0Of w) s
  | .or => Sys2Proof.Machine.execOr (bitsAt w 25 1) (prOf w) (t1Of w) (t0Of w) s
  | .xor => Sys2Proof.Machine.execXor (bitsAt w 25 1) (prOf w) (t1Of w) (t0Of w) s
  | .andn => Sys2Proof.Machine.execAndn (bitsAt w 25 1) (prOf w) (t1Of w) (t0Of w) s
  | .shl => Sys2Proof.Machine.execShl (bitsAt w 25 1) (prOf w) (t1Of w) (t0Of w) s
  | .shr => Sys2Proof.Machine.execShr (bitsAt w 25 1) (prOf w) (t1Of w) (t0Of w) s
  | .sra => Sys2Proof.Machine.execSra (bitsAt w 25 1) (prOf w) (t1Of w) (t0Of w) s
  | .rol => Sys2Proof.Machine.execRol (bitsAt w 25 1) (prOf w) (t1Of w) (t0Of w) s
  | .min => Sys2Proof.Machine.execMin (bitsAt w 25 1) (prOf w) (t1Of w) (t0Of w) s
  | .max => Sys2Proof.Machine.execMax (bitsAt w 25 1) (prOf w) (t1Of w) (t0Of w) s
  | .minn => Sys2Proof.Machine.execMinn (bitsAt w 25 1) (prOf w) (t1Of w) (t0Of w) s
  | .maxn => Sys2Proof.Machine.execMaxn (bitsAt w 25 1) (prOf w) (t1Of w) (t0Of w) s
  | .sel => Sys2Proof.Machine.execSel (bitsAt w 25 1) (prOf w) (t1Of w) (t0Of w) s
  | .mul => Sys2Proof.Machine.execMul (prOf w) (bitsAt w 21 1) (t1Of w) (t0Of w) s
  | .mulh => Sys2Proof.Machine.execMulh (prOf w) (bitsAt w 21 1) (t1Of w) (t0Of w) s
  | .mulhn => Sys2Proof.Machine.execMulhn (prOf w) (bitsAt w 21 1) (t1Of w) (t0Of w) s
  | .div => Sys2Proof.Machine.execDiv (prOf w) (bitsAt w 21 1) (t1Of w) (t0Of w) s
  | .divn => Sys2Proof.Machine.execDivn (prOf w) (bitsAt w 21 1) (t1Of w) (t0Of w) s
  | .rem => Sys2Proof.Machine.execRem (prOf w) (bitsAt w 21 1) (t1Of w) (t0Of w) s
  | .remn => Sys2Proof.Machine.execRemn (prOf w) (bitsAt w 21 1) (t1Of w) (t0Of w) s
  | .clz => Sys2Proof.Machine.execClz (prOf w) (t1Of w) (t0Of w) s
  | .ctz => Sys2Proof.Machine.execCtz (prOf w) (t1Of w) (t0Of w) s
  | .pop => Sys2Proof.Machine.execPop (prOf w) (t1Of w) (t0Of w) s
  | .sext8 => Sys2Proof.Machine.execSext8 (prOf w) (t1Of w) (t0Of w) s
  | .sext16 => Sys2Proof.Machine.execSext16 (prOf w) (t1Of w) (t0Of w) s
  | .sext32 => Sys2Proof.Machine.execSext32 (prOf w) (t1Of w) (t0Of w) s
  | .zext8 => Sys2Proof.Machine.execZext8 (prOf w) (t1Of w) (t0Of w) s
  | .zext16 => Sys2Proof.Machine.execZext16 (prOf w) (t1Of w) (t0Of w) s
  | .zext32 => Sys2Proof.Machine.execZext32 (prOf w) (t1Of w) (t0Of w) s
  | .brev => Sys2Proof.Machine.execBrev (prOf w) (t1Of w) (t0Of w) s
  | .bswap => Sys2Proof.Machine.execBswap (prOf w) (t1Of w) (t0Of w) s
  | .teq => Sys2Proof.Machine.execTeq (prOf w) (bitsAt w 21 1) (t1Of w) (t0Of w) s
  | .tne => Sys2Proof.Machine.execTne (prOf w) (bitsAt w 21 1) (t1Of w) (t0Of w) s
  | .tlt => Sys2Proof.Machine.execTlt (prOf w) (bitsAt w 21 1) (t1Of w) (t0Of w) s
  | .tle => Sys2Proof.Machine.execTle (prOf w) (bitsAt w 21 1) (t1Of w) (t0Of w) s
  | .tltn => Sys2Proof.Machine.execTltn (prOf w) (bitsAt w 21 1) (t1Of w) (t0Of w) s
  | .tlen => Sys2Proof.Machine.execTlen (prOf w) (bitsAt w 21 1) (t1Of w) (t0Of w) s
  | .tbit => Sys2Proof.Machine.execTbit (prOf w) (t1Of w) (t0Of w) s
  | .pand => Sys2Proof.Machine.execPand (prOf w) (t1Of w) (t0Of w) s
  | .por => Sys2Proof.Machine.execPor (prOf w) (t1Of w) (t0Of w) s
  | .pxor => Sys2Proof.Machine.execPxor (prOf w) (t1Of w) (t0Of w) s
  | .pnot => Sys2Proof.Machine.execPnot (prOf w) (t1Of w) (t0Of w) s
  | .pany => Sys2Proof.Machine.execPany (prOf w) (t1Of w) (t0Of w) s
  | .pall => Sys2Proof.Machine.execPall (prOf w) (t1Of w) (t0Of w) s
  | .pcnt => Sys2Proof.Machine.execPcnt (prOf w) (t1Of w) (t0Of w) s
  | .pfirst => Sys2Proof.Machine.execPfirst (prOf w) (t1Of w) (t0Of w) s
  | .addi => Sys2Proof.Machine.execAddi (prOf w) (imm14Of w) (t0Of w) s
  | .addiw => Sys2Proof.Machine.execAddiw (prOf w) (imm14Of w) (t0Of w) s
  | .andi => Sys2Proof.Machine.execAndi (prOf w) (imm14Of w) (t0Of w) s
  | .ori => Sys2Proof.Machine.execOri (prOf w) (imm14Of w) (t0Of w) s
  | .xori => Sys2Proof.Machine.execXori (prOf w) (imm14Of w) (t0Of w) s
  | .shli => Sys2Proof.Machine.execShli (prOf w) (imm14Of w) (t0Of w) s
  | .shri => Sys2Proof.Machine.execShri (prOf w) (imm14Of w) (t0Of w) s
  | .srai => Sys2Proof.Machine.execSrai (prOf w) (imm14Of w) (t0Of w) s
  | .muli => Sys2Proof.Machine.execMuli (prOf w) (imm14Of w) (t0Of w) s
  | .teqi => Sys2Proof.Machine.execTeqi (prOf w) (imm14Of w) (t0Of w) s
  | .tnei => Sys2Proof.Machine.execTnei (prOf w) (imm14Of w) (t0Of w) s
  | .tlti => Sys2Proof.Machine.execTlti (prOf w) (imm14Of w) (t0Of w) s
  | .tlei => Sys2Proof.Machine.execTlei (prOf w) (imm14Of w) (t0Of w) s
  | .tltni => Sys2Proof.Machine.execTltni (prOf w) (imm14Of w) (t0Of w) s
  | .movi => Sys2Proof.Machine.execMovi (prOf w) (imm14Of w) (t0Of w) s
  | .movif => Sys2Proof.Machine.execMovif (prOf w) (imm14Of w) (t0Of w) s
  | .cadd => Sys2Proof.Machine.execCadd (prOf w) (t1Of w) (t0Of w) s
  | .cseta => Sys2Proof.Machine.execCseta (prOf w) (t1Of w) (t0Of w) s
  | .csetb => Sys2Proof.Machine.execCsetb (prOf w) (t1Of w) (t0Of w) s
  | .csetbx => Sys2Proof.Machine.execCsetbx (prOf w) (t1Of w) (t0Of w) s
  | .cperm => Sys2Proof.Machine.execCperm (prOf w) (t1Of w) (t0Of w) s
  | .cseal => Sys2Proof.Machine.execCseal (prOf w) (t1Of w) (t0Of w) s
  | .cunseal => Sys2Proof.Machine.execCunseal (prOf w) (t1Of w) (t0Of w) s
  | .cgeta => Sys2Proof.Machine.execCgeta (prOf w) (t1Of w) (t0Of w) s
  | .cgetb => Sys2Proof.Machine.execCgetb (prOf w) (t1Of w) (t0Of w) s
  | .cgetl => Sys2Proof.Machine.execCgetl (prOf w) (t1Of w) (t0Of w) s
  | .cgetp => Sys2Proof.Machine.execCgetp (prOf w) (t1Of w) (t0Of w) s
  | .cgetk => Sys2Proof.Machine.execCgetk (prOf w) (t1Of w) (t0Of w) s
  | .ctagt => Sys2Proof.Machine.execCtagt (prOf w) (t1Of w) (t0Of w) s
  | .csub => Sys2Proof.Machine.execCsub (prOf w) (t1Of w) (t0Of w) s
  | .ceq => Sys2Proof.Machine.execCeq (prOf w) (t1Of w) (t0Of w) s
  | .cclr => Sys2Proof.Machine.execCclr (prOf w) (t1Of w) (t0Of w) s
  | .caddi => Sys2Proof.Machine.execCaddi (prOf w) (imm14Of w) (t0Of w) s
  | .ldI8 => Sys2Proof.Machine.execLdI8 (prOf w) (lsidOf w) (t1Of w) (t0Of w) s
  | .ldN8 => Sys2Proof.Machine.execLdN8 (prOf w) (lsidOf w) (t1Of w) (t0Of w) s
  | .ldI16 => Sys2Proof.Machine.execLdI16 (prOf w) (lsidOf w) (t1Of w) (t0Of w) s
  | .ldN16 => Sys2Proof.Machine.execLdN16 (prOf w) (lsidOf w) (t1Of w) (t0Of w) s
  | .ldI32 => Sys2Proof.Machine.execLdI32 (prOf w) (lsidOf w) (t1Of w) (t0Of w) s
  | .ldN32 => Sys2Proof.Machine.execLdN32 (prOf w) (lsidOf w) (t1Of w) (t0Of w) s
  | .ld64 => Sys2Proof.Machine.execLd64 (prOf w) (lsidOf w) (t1Of w) (t0Of w) s
  | .ldv => Sys2Proof.Machine.execLdv (prOf w) (lsidOf w) (t1Of w) (t0Of w) s
  | .ldc => Sys2Proof.Machine.execLdc (prOf w) (lsidOf w) (t1Of w) (t0Of w) s
  | .vgather => Sys2Proof.Machine.execVgather (prOf w) (lsidOf w) (t1Of w) (t0Of w) s
  | .st8 => Sys2Proof.Machine.execSt8 (prOf w) (lsidOf w) (imm18Of w) s
  | .st16 => Sys2Proof.Machine.execSt16 (prOf w) (lsidOf w) (imm18Of w) s
  | .st32 => Sys2Proof.Machine.execSt32 (prOf w) (lsidOf w) (imm18Of w) s
  | .st64 => Sys2Proof.Machine.execSt64 (prOf w) (lsidOf w) (imm18Of w) s
  | .stv => Sys2Proof.Machine.execStv (prOf w) (lsidOf w) (imm18Of w) s
  | .stc => Sys2Proof.Machine.execStc (prOf w) (lsidOf w) (imm18Of w) s
  | .vscatter => Sys2Proof.Machine.execVscatter (prOf w) (lsidOf w) (imm18Of w) s
  | .qld => Sys2Proof.Machine.execQld (prOf w) (wReg w) (wXop w) (auxOf w) s
  | .qst => Sys2Proof.Machine.execQst (prOf w) (lsidOf w) (imm18Of w) s
  | .aad => Sys2Proof.Machine.execAad (prOf w) (wReg w) (bitsAt w 10 2) (bitsAt w 8 2) (bitsAt w 6 2) s
  | .aswp => Sys2Proof.Machine.execAswp (prOf w) (wReg w) (bitsAt w 10 1) (bitsAt w 8 2) (bitsAt w 6 2) s
  | .acas => Sys2Proof.Machine.execAcas (prOf w) (wReg w) (bitsAt w 10 1) (bitsAt w 8 2) (bitsAt w 6 2) s
  | .amin => Sys2Proof.Machine.execAmin (prOf w) (wReg w) (bitsAt w 10 1) (bitsAt w 8 2) (bitsAt w 6 2) s
  | .amax => Sys2Proof.Machine.execAmax (prOf w) (wReg w) (bitsAt w 10 1) (bitsAt w 8 2) (bitsAt w 6 2) s
  | .aminn => Sys2Proof.Machine.execAminn (prOf w) (wReg w) (bitsAt w 10 1) (bitsAt w 8 2) (bitsAt w 6 2) s
  | .amaxn => Sys2Proof.Machine.execAmaxn (prOf w) (wReg w) (bitsAt w 10 1) (bitsAt w 8 2) (bitsAt w 6 2) s
  | .aand => Sys2Proof.Machine.execAand (prOf w) (wReg w) (bitsAt w 10 1) (bitsAt w 8 2) (bitsAt w 6 2) s
  | .aor => Sys2Proof.Machine.execAor (prOf w) (wReg w) (bitsAt w 10 1) (bitsAt w 8 2) (bitsAt w 6 2) s
  | .axor => Sys2Proof.Machine.execAxor (prOf w) (wReg w) (bitsAt w 10 1) (bitsAt w 8 2) (bitsAt w 6 2) s
  | .fenceAcq => Sys2Proof.Machine.execFenceAcq (prOf w) (bitsAt w 18 2) s
  | .fenceRel => Sys2Proof.Machine.execFenceRel (prOf w) (bitsAt w 18 2) s
  | .fenceFull => Sys2Proof.Machine.execFenceFull (prOf w) (bitsAt w 18 2) s
  | .vadd => Sys2Proof.Machine.execVadd (bitsAt w 25 1) (prOf w) (t1Of w) (t0Of w) s
  | .vsub => Sys2Proof.Machine.execVsub (bitsAt w 25 1) (prOf w) (t1Of w) (t0Of w) s
  | .vmul => Sys2Proof.Machine.execVmul (bitsAt w 25 1) (prOf w) (t1Of w) (t0Of w) s
  | .vdiv => Sys2Proof.Machine.execVdiv (bitsAt w 25 1) (prOf w) (t1Of w) (t0Of w) s
  | .vmin => Sys2Proof.Machine.execVmin (bitsAt w 25 1) (prOf w) (t1Of w) (t0Of w) s
  | .vmax => Sys2Proof.Machine.execVmax (bitsAt w 25 1) (prOf w) (t1Of w) (t0Of w) s
  | .vabs => Sys2Proof.Machine.execVabs (bitsAt w 25 1) (prOf w) (t1Of w) (t0Of w) s
  | .vneg => Sys2Proof.Machine.execVneg (bitsAt w 25 1) (prOf w) (t1Of w) (t0Of w) s
  | .vsqrt => Sys2Proof.Machine.execVsqrt (bitsAt w 25 1) (prOf w) (t1Of w) (t0Of w) s
  | .vrcp => Sys2Proof.Machine.execVrcp (bitsAt w 25 1) (prOf w) (t1Of w) (t0Of w) s
  | .vrsq => Sys2Proof.Machine.execVrsq (bitsAt w 25 1) (prOf w) (t1Of w) (t0Of w) s
  | .vexp2 => Sys2Proof.Machine.execVexp2 (bitsAt w 25 1) (prOf w) (t1Of w) (t0Of w) s
  | .vlog2 => Sys2Proof.Machine.execVlog2 (bitsAt w 25 1) (prOf w) (t1Of w) (t0Of w) s
  | .vtanh => Sys2Proof.Machine.execVtanh (bitsAt w 25 1) (prOf w) (t1Of w) (t0Of w) s
  | .vsin => Sys2Proof.Machine.execVsin (bitsAt w 25 1) (prOf w) (t1Of w) (t0Of w) s
  | .vcos => Sys2Proof.Machine.execVcos (bitsAt w 25 1) (prOf w) (t1Of w) (t0Of w) s
  | .vfloor => Sys2Proof.Machine.execVfloor (bitsAt w 25 1) (prOf w) (t1Of w) (t0Of w) s
  | .vceil => Sys2Proof.Machine.execVceil (bitsAt w 25 1) (prOf w) (t1Of w) (t0Of w) s
  | .vrint => Sys2Proof.Machine.execVrint (bitsAt w 25 1) (prOf w) (t1Of w) (t0Of w) s
  | .vclass => Sys2Proof.Machine.execVclass (bitsAt w 25 1) (prOf w) (t1Of w) (t0Of w) s
  | .vaddF16 => Sys2Proof.Machine.execVaddF16 (prOf w) (bitsAt w 22 1) (t1Of w) (t0Of w) s
  | .vsubF16 => Sys2Proof.Machine.execVsubF16 (prOf w) (bitsAt w 22 1) (t1Of w) (t0Of w) s
  | .vmulF16 => Sys2Proof.Machine.execVmulF16 (prOf w) (bitsAt w 22 1) (t1Of w) (t0Of w) s
  | .vdivF16 => Sys2Proof.Machine.execVdivF16 (prOf w) (bitsAt w 22 1) (t1Of w) (t0Of w) s
  | .vminF16 => Sys2Proof.Machine.execVminF16 (prOf w) (bitsAt w 22 1) (t1Of w) (t0Of w) s
  | .vmaxF16 => Sys2Proof.Machine.execVmaxF16 (prOf w) (bitsAt w 22 1) (t1Of w) (t0Of w) s
  | .vabsF16 => Sys2Proof.Machine.execVabsF16 (prOf w) (bitsAt w 22 1) (t1Of w) (t0Of w) s
  | .vnegF16 => Sys2Proof.Machine.execVnegF16 (prOf w) (bitsAt w 22 1) (t1Of w) (t0Of w) s
  | .vsqrtF16 => Sys2Proof.Machine.execVsqrtF16 (prOf w) (bitsAt w 22 1) (t1Of w) (t0Of w) s
  | .vrcpF16 => Sys2Proof.Machine.execVrcpF16 (prOf w) (bitsAt w 22 1) (t1Of w) (t0Of w) s
  | .vrsqF16 => Sys2Proof.Machine.execVrsqF16 (prOf w) (bitsAt w 22 1) (t1Of w) (t0Of w) s
  | .vexp2F16 => Sys2Proof.Machine.execVexp2F16 (prOf w) (bitsAt w 22 1) (t1Of w) (t0Of w) s
  | .vlog2F16 => Sys2Proof.Machine.execVlog2F16 (prOf w) (bitsAt w 22 1) (t1Of w) (t0Of w) s
  | .vtanhF16 => Sys2Proof.Machine.execVtanhF16 (prOf w) (bitsAt w 22 1) (t1Of w) (t0Of w) s
  | .vsinF16 => Sys2Proof.Machine.execVsinF16 (prOf w) (bitsAt w 22 1) (t1Of w) (t0Of w) s
  | .vcosF16 => Sys2Proof.Machine.execVcosF16 (prOf w) (bitsAt w 22 1) (t1Of w) (t0Of w) s
  | .vaddI32 => Sys2Proof.Machine.execVaddI32 (prOf w) (bitsAt w 22 1) (t1Of w) (t0Of w) s
  | .vsubI32 => Sys2Proof.Machine.execVsubI32 (prOf w) (bitsAt w 22 1) (t1Of w) (t0Of w) s
  | .vmulI32 => Sys2Proof.Machine.execVmulI32 (prOf w) (bitsAt w 22 1) (t1Of w) (t0Of w) s
  | .vmulhI32 => Sys2Proof.Machine.execVmulhI32 (prOf w) (bitsAt w 22 1) (t1Of w) (t0Of w) s
  | .vminI32 => Sys2Proof.Machine.execVminI32 (prOf w) (bitsAt w 22 1) (t1Of w) (t0Of w) s
  | .vmaxI32 => Sys2Proof.Machine.execVmaxI32 (prOf w) (bitsAt w 22 1) (t1Of w) (t0Of w) s
  | .vabsI32 => Sys2Proof.Machine.execVabsI32 (prOf w) (t1Of w) (t0Of w) s
  | .vnegI32 => Sys2Proof.Machine.execVnegI32 (prOf w) (t1Of w) (t0Of w) s
  | .vandI32 => Sys2Proof.Machine.execVandI32 (prOf w) (t1Of w) (t0Of w) s
  | .vorI32 => Sys2Proof.Machine.execVorI32 (prOf w) (t1Of w) (t0Of w) s
  | .vxorI32 => Sys2Proof.Machine.execVxorI32 (prOf w) (t1Of w) (t0Of w) s
  | .vshlI32 => Sys2Proof.Machine.execVshlI32 (prOf w) (bitsAt w 22 1) (t1Of w) (t0Of w) s
  | .vshrI32 => Sys2Proof.Machine.execVshrI32 (prOf w) (t1Of w) (t0Of w) s
  | .vsraI32 => Sys2Proof.Machine.execVsraI32 (prOf w) (t1Of w) (t0Of w) s
  | .vaddI16 => Sys2Proof.Machine.execVaddI16 (bitsAt w 25 1) (prOf w) (bitsAt w 22 1) (t1Of w) (t0Of w) s
  | .vsubI16 => Sys2Proof.Machine.execVsubI16 (bitsAt w 25 1) (prOf w) (bitsAt w 22 1) (t1Of w) (t0Of w) s
  | .vmulI16 => Sys2Proof.Machine.execVmulI16 (bitsAt w 25 1) (prOf w) (bitsAt w 22 1) (t1Of w) (t0Of w) s
  | .vmulhI16 => Sys2Proof.Machine.execVmulhI16 (bitsAt w 25 1) (prOf w) (bitsAt w 22 1) (t1Of w) (t0Of w) s
  | .vminI16 => Sys2Proof.Machine.execVminI16 (bitsAt w 25 1) (prOf w) (bitsAt w 22 1) (t1Of w) (t0Of w) s
  | .vmaxI16 => Sys2Proof.Machine.execVmaxI16 (bitsAt w 25 1) (prOf w) (bitsAt w 22 1) (t1Of w) (t0Of w) s
  | .vabsI16 => Sys2Proof.Machine.execVabsI16 (bitsAt w 25 1) (prOf w) (t1Of w) (t0Of w) s
  | .vnegI16 => Sys2Proof.Machine.execVnegI16 (bitsAt w 25 1) (prOf w) (t1Of w) (t0Of w) s
  | .vandI16 => Sys2Proof.Machine.execVandI16 (bitsAt w 25 1) (prOf w) (t1Of w) (t0Of w) s
  | .vorI16 => Sys2Proof.Machine.execVorI16 (bitsAt w 25 1) (prOf w) (t1Of w) (t0Of w) s
  | .vxorI16 => Sys2Proof.Machine.execVxorI16 (bitsAt w 25 1) (prOf w) (t1Of w) (t0Of w) s
  | .vshlI16 => Sys2Proof.Machine.execVshlI16 (bitsAt w 25 1) (prOf w) (bitsAt w 22 1) (t1Of w) (t0Of w) s
  | .vshrI16 => Sys2Proof.Machine.execVshrI16 (bitsAt w 25 1) (prOf w) (t1Of w) (t0Of w) s
  | .vsraI16 => Sys2Proof.Machine.execVsraI16 (bitsAt w 25 1) (prOf w) (t1Of w) (t0Of w) s
  | .vfma => Sys2Proof.Machine.execVfma (prOf w) (bitsAt w 20 2) (t1Of w) (t0Of w) s
  | .vfms => Sys2Proof.Machine.execVfms (prOf w) (bitsAt w 20 2) (t1Of w) (t0Of w) s
  | .vnfma => Sys2Proof.Machine.execVnfma (prOf w) (bitsAt w 20 2) (t1Of w) (t0Of w) s
  | .vnfms => Sys2Proof.Machine.execVnfms (prOf w) (bitsAt w 20 2) (t1Of w) (t0Of w) s
  | .vcmpEq => Sys2Proof.Machine.execVcmpEq (prOf w) (bitsAt w 20 3) (t1Of w) (t0Of w) s
  | .vcmpNe => Sys2Proof.Machine.execVcmpNe (prOf w) (bitsAt w 20 3) (t1Of w) (t0Of w) s
  | .vcmpLt => Sys2Proof.Machine.execVcmpLt (prOf w) (bitsAt w 20 3) (t1Of w) (t0Of w) s
  | .vcmpLe => Sys2Proof.Machine.execVcmpLe (prOf w) (bitsAt w 20 3) (t1Of w) (t0Of w) s
  | .vcvtF32F64 => Sys2Proof.Machine.execVcvtF32F64 (prOf w) (t1Of w) (t0Of w) s
  | .vcvtF64F32 => Sys2Proof.Machine.execVcvtF64F32 (prOf w) (t1Of w) (t0Of w) s
  | .vcvtF16F32 => Sys2Proof.Machine.execVcvtF16F32 (prOf w) (t1Of w) (t0Of w) s
  | .vcvtF32F16 => Sys2Proof.Machine.execVcvtF32F16 (prOf w) (t1Of w) (t0Of w) s
  | .vcvtBf16F32 => Sys2Proof.Machine.execVcvtBf16F32 (prOf w) (t1Of w) (t0Of w) s
  | .vcvtF32Bf16 => Sys2Proof.Machine.execVcvtF32Bf16 (prOf w) (t1Of w) (t0Of w) s
  | .vcvtE4m3F32 => Sys2Proof.Machine.execVcvtE4m3F32 (prOf w) (t1Of w) (t0Of w) s
  | .vcvtE5m2F32 => Sys2Proof.Machine.execVcvtE5m2F32 (prOf w) (t1Of w) (t0Of w) s
  | .vcvtE4m3F32Nosat => Sys2Proof.Machine.execVcvtE4m3F32Nosat (prOf w) (t1Of w) (t0Of w) s
  | .vcvtE5m2F32Nosat => Sys2Proof.Machine.execVcvtE5m2F32Nosat (prOf w) (t1Of w) (t0Of w) s
  | .vcvtF32E4m3 => Sys2Proof.Machine.execVcvtF32E4m3 (prOf w) (t1Of w) (t0Of w) s
  | .vcvtF32E5m2 => Sys2Proof.Machine.execVcvtF32E5m2 (prOf w) (t1Of w) (t0Of w) s
  | .vcvtI32F32 => Sys2Proof.Machine.execVcvtI32F32 (prOf w) (t1Of w) (t0Of w) s
  | .vcvtN32F32 => Sys2Proof.Machine.execVcvtN32F32 (prOf w) (t1Of w) (t0Of w) s
  | .vcvtF32I32 => Sys2Proof.Machine.execVcvtF32I32 (prOf w) (t1Of w) (t0Of w) s
  | .vcvtF32N32 => Sys2Proof.Machine.execVcvtF32N32 (prOf w) (t1Of w) (t0Of w) s
  | .vcvtI64F64 => Sys2Proof.Machine.execVcvtI64F64 (prOf w) (t1Of w) (t0Of w) s
  | .vcvtN64F64 => Sys2Proof.Machine.execVcvtN64F64 (prOf w) (t1Of w) (t0Of w) s
  | .vcvtF64I64 => Sys2Proof.Machine.execVcvtF64I64 (prOf w) (t1Of w) (t0Of w) s
  | .vcvtF64N64 => Sys2Proof.Machine.execVcvtF64N64 (prOf w) (t1Of w) (t0Of w) s
  | .vcvtI16I32 => Sys2Proof.Machine.execVcvtI16I32 (prOf w) (t1Of w) (t0Of w) s
  | .vcvtI8I32 => Sys2Proof.Machine.execVcvtI8I32 (prOf w) (t1Of w) (t0Of w) s
  | .vcvtI32I16 => Sys2Proof.Machine.execVcvtI32I16 (prOf w) (t1Of w) (t0Of w) s
  | .vcvtI32I8 => Sys2Proof.Machine.execVcvtI32I8 (prOf w) (t1Of w) (t0Of w) s
  | .vshuf => Sys2Proof.Machine.execVshuf (prOf w) (bitsAt w 22 1) (t1Of w) (t0Of w) s
  | .vbcast => Sys2Proof.Machine.execVbcast (prOf w) (bitsAt w 22 1) (t1Of w) (t0Of w) s
  | .vrot => Sys2Proof.Machine.execVrot (prOf w) (bitsAt w 22 1) (t1Of w) (t0Of w) s
  | .viota => Sys2Proof.Machine.execViota (prOf w) (bitsAt w 22 1) (t1Of w) (t0Of w) s
  | .vcomp => Sys2Proof.Machine.execVcomp (prOf w) (bitsAt w 22 1) (t1Of w) (t0Of w) s
  | .vexpand => Sys2Proof.Machine.execVexpand (prOf w) (bitsAt w 22 1) (t1Of w) (t0Of w) s
  | .vzip => Sys2Proof.Machine.execVzip (prOf w) (bitsAt w 22 1) (t1Of w) (t0Of w) s
  | .vunzip => Sys2Proof.Machine.execVunzip (prOf w) (bitsAt w 22 1) (t1Of w) (t0Of w) s
  | .vnz => Sys2Proof.Machine.execVnz (prOf w) (bitsAt w 22 1) (t1Of w) (t0Of w) s
  | .vnzi => Sys2Proof.Machine.execVnzi (prOf w) (bitsAt w 22 1) (t1Of w) (t0Of w) s
  | .vins => Sys2Proof.Machine.execVins (prOf w) (bitsAt w 22 1) (t1Of w) (t0Of w) s
  | .vext => Sys2Proof.Machine.execVext (prOf w) (bitsAt w 22 1) (t1Of w) (t0Of w) s
  | .vredAdd => Sys2Proof.Machine.execVredAdd (prOf w) (bitsAt w 21 2) (t1Of w) (t0Of w) s
  | .vredMax => Sys2Proof.Machine.execVredMax (prOf w) (bitsAt w 21 2) (t1Of w) (t0Of w) s
  | .vredMin => Sys2Proof.Machine.execVredMin (prOf w) (bitsAt w 21 2) (t1Of w) (t0Of w) s
  | .vredMaxn => Sys2Proof.Machine.execVredMaxn (prOf w) (bitsAt w 21 2) (t1Of w) (t0Of w) s
  | .vredMinn => Sys2Proof.Machine.execVredMinn (prOf w) (bitsAt w 21 2) (t1Of w) (t0Of w) s
  | .vredAnd => Sys2Proof.Machine.execVredAnd (prOf w) (bitsAt w 21 2) (t1Of w) (t0Of w) s
  | .vredOr => Sys2Proof.Machine.execVredOr (prOf w) (bitsAt w 21 2) (t1Of w) (t0Of w) s
  | .vredXor => Sys2Proof.Machine.execVredXor (prOf w) (bitsAt w 21 2) (t1Of w) (t0Of w) s
  | .vsel => Sys2Proof.Machine.execVsel (prOf w) (t1Of w) (t0Of w) s
  | .vqhdr => Sys2Proof.Machine.execVqhdr (prOf w) (t1Of w) (t0Of w) s
  | .vqpk => Sys2Proof.Machine.execVqpk (prOf w) (t1Of w) (t0Of w) s
  | .vdq => Sys2Proof.Machine.execVdq (prOf w) (t1Of w) (t0Of w) s
  | .vbaq => Sys2Proof.Machine.execVbaq (prOf w) (t1Of w) (t0Of w) s
  | .vbmax => Sys2Proof.Machine.execVbmax (prOf w) (t1Of w) (t0Of w) s
  | .vbfmt => Sys2Proof.Machine.execVbfmt (prOf w) (t1Of w) (t0Of w) s
  | .osmStep => Sys2Proof.Machine.execOsmStep (prOf w) (t1Of w) (t0Of w) s
  | .osmNorm => Sys2Proof.Machine.execOsmNorm (prOf w) (t1Of w) (t0Of w) s
  | .ctrNew => Sys2Proof.Machine.execCtrNew (prOf w) (t1Of w) (t0Of w) s
  | .ctrDec => Sys2Proof.Machine.execCtrDec (prOf w) s
  | .ctrBind => Sys2Proof.Machine.execCtrBind (prOf w) s
  | .ctrSplit => Sys2Proof.Machine.execCtrSplit (prOf w) s
  | .ctrStat => Sys2Proof.Machine.execCtrStat (prOf w) (t1Of w) (t0Of w) s
  | .rarm => Sys2Proof.Machine.execRarm (prOf w) s
  | .invoke => Sys2Proof.Machine.execInvoke (prOf w) (t1Of w) (t0Of w) s
  | .invokec => Sys2Proof.Machine.execInvokec (prOf w) (t1Of w) (t0Of w) s
  | .fulfil => Sys2Proof.Machine.execFulfil (prOf w) s
  | .brk => Sys2Proof.Machine.execBrk (prOf w) s
  | .wait => Sys2Proof.Machine.execWait (prOf w) (wReg w) s
  | .waitSt => Sys2Proof.Machine.execWaitSt (prOf w) (wReg w) s
  | .send => Sys2Proof.Machine.execSend (prOf w) (t1Of w) (t0Of w) s
  | .sendw => Sys2Proof.Machine.execSendw (prOf w) (wReg w) s
  | .qnew => Sys2Proof.Machine.execQnew (prOf w) (t1Of w) (t0Of w) s
  | .qbind => Sys2Proof.Machine.execQbind (prOf w) s
  | .qunbind => Sys2Proof.Machine.execQunbind (prOf w) s
  | .spawn => Sys2Proof.Machine.execSpawn (prOf w) s
  | .launch => Sys2Proof.Machine.execLaunch (prOf w) (t1Of w) (t0Of w) s
  | .cpy => Sys2Proof.Machine.execCpy (prOf w) s
  | .tile => Sys2Proof.Machine.execTile (prOf w) s
  | .feedA => Sys2Proof.Machine.execFeedA (prOf w) s
  | .feedB => Sys2Proof.Machine.execFeedB (prOf w) s
  | .mma => Sys2Proof.Machine.execMma (prOf w) s
  | .mzero => Sys2Proof.Machine.execMzero (prOf w) s
  | .mstat => Sys2Proof.Machine.execMstat (prOf w) (t1Of w) (t0Of w) s
  | .trap => Sys2Proof.Machine.execTrap (prOf w) s
  | .isync => Sys2Proof.Machine.execIsync (prOf w) s
  | .sysRd => Sys2Proof.Machine.execSysRd (prOf w) (t1Of w) (t0Of w) s
  | .sysWr => Sys2Proof.Machine.execSysWr (prOf w) s
  | .cusTake => Sys2Proof.Machine.execCusTake (prOf w) (t1Of w) (t0Of w) s
  | .cusResume => Sys2Proof.Machine.execCusResume (prOf w) s
  | .cusGive => Sys2Proof.Machine.execCusGive (prOf w) s
  | .cusBreak => Sys2Proof.Machine.execCusBreak (prOf w) s
  | .stnMap => Sys2Proof.Machine.execStnMap (prOf w) s
  | .stnInv => Sys2Proof.Machine.execStnInv (prOf w) s
  | .stnReplay => Sys2Proof.Machine.execStnReplay (prOf w) s
  | .lodgeNew => Sys2Proof.Machine.execLodgeNew (prOf w) s
  | .lodgeEnd => Sys2Proof.Machine.execLodgeEnd (prOf w) s
  | .migrate => Sys2Proof.Machine.execMigrate (prOf w) s
  | .shadowSave => Sys2Proof.Machine.execShadowSave (prOf w) s
  | .shadowLoad => Sys2Proof.Machine.execShadowLoad (prOf w) s
  | .testRun => Sys2Proof.Machine.execTestRun (prOf w) s
  | .statSum => Sys2Proof.Machine.execStatSum (prOf w) s
  | .engineCancel => Sys2Proof.Machine.execEngineCancel (prOf w) s

end Sys2Proof.Machine
end

