-- ==== Sys2Proof/Machine/Twin.lean ====
section
/-! DEFINITION. Redundant mode (R459 to R461; log 48): what a block's steps do on the twin. The two copies run in step: whatever fires, or is admitted or
answered, on the primary does so on the twin with the twin's registers, its block, and the errors in its own stores. -/

namespace Sys2Proof.Machine

/-- The marks of errors in run `a` of a store are those of run `b` of another. -/
def LStore.marksOf (l m : LStore) (k : Sto) (a b : Run) : LStore :=
  let n := k.unit / 8
  let within := fun (t : Run) (w : Nat) => decide (t.start * n ≤ w) && decide (w < (t.start + t.count) * n)
  let marks := fun (x y : Map Bool) =>
    (y.filter fun e => within b e.1 && e.1 - b.start * n < a.count * n).foldl (fun z e => mapSet z (e.1 - b.start * n + a.start * n) e.2) (x.filter fun e => !within a e.1)
  { l with poison := marks l.poison m.poison, corr := marks l.corr m.corr }
/-- The state as the twin of slot (r, k) sees it, in slot (q, j): the primary's places hold what is the twin's. -/
def State.asTwin (s : State) (r k q j : Nat) : State :=
  let x := s.slot r k
  let y := s.slot q j
  let s' := [Sto.w, .a, .c, .s].foldl (fun t st =>
    t.updCore r fun c => c.setStore st ((c.store st).marksOf ((s.core q).store st) st (x.run st) (y.run st))) s
  s'.setSlot r k { x with regs := y.regs, blk := s.twinBlk r k, region := y.region, poisoned := y.poisoned, twin := none, seenAs := some (q, j) }
/-- A block has failed between two states of its slot: it has been given up, or its activity has trapped. -/
def Slot.gaveUp (x y : Slot) : Bool := y.custody.state != x.custody.state || y.blk.phase < x.blk.phase
/-- A region has been restarted between two states of a slot (R454). -/
def Slot.wentBack (x y : Slot) : Bool := y.custody.state == 0 && y.region.again && !x.region.again
/-- The twin keeps what is its own: registers, block, region, and the errors in its stores, which a correction may have removed. -/
def State.keepTwin (s t1 : State) (r k q j : Nat) (y : Slot) : State :=
  let s := [Sto.w, .a, .c, .s].foldl (fun s st =>
    s.updCore q fun c => c.setStore st ((c.store st).marksOf ((t1.core r).store st) st ((s.slot q j).run st) ((s.slot r k).run st))) s
  s.updSlot q j fun z => { z with regs := y.regs, blk := y.blk, region := y.region, poisoned := y.poisoned }
/-- Repairs and uncorrectable events of the twin's run count on the twin's core (R450, R463). -/
def State.twinEvents (s t t1 : State) (r q : Nat) : State :=
  let grown := fun (e : Nat) => (mapGet (t1.core r).ev e).toNat - (mapGet (t.core r).ev e).toNat
  let s := (s.count q 8 (grown 8)).count q 9 (grown 9)
  ((mapKeys (t1.core r).errors).filter fun u => mapGet (t1.core r).errors u != mapGet (t.core r).errors u).foldl (fun s u => s.noteError q u) s
/-- The primary's run, s to s1, and the twin's, t to t1, become one state. Where one copy gives the block up, so does the other; a twin that traps
alone differs from its primary (R461, log 48). -/
def State.joined (s s1 t t1 : State) (r k q j idx : Nat) : State :=
  let x := s.slot r k
  let x1 := s1.slot r k
  let y := t.slot r k
  let y1 := t1.slot r k
  let s1' := s1.twinEvents t t1 r q
  if x.gaveUp x1 && !y.gaveUp y1 then
    let regs := if x.wentBack x1 then y.region.saved.foldl (fun m e => mapSet m e.1 e.2) y.regs else y.regs
    s1'.keepTwin t1 r k q j { y with regs := regs, blk := default, region := { x1.region with saved := y.region.saved } }
  else if y.gaveUp y1 && !x.gaveUp x1 then
    (if y1.custody.state != y.custody.state then
      (s1'.keepTwin t1 r k q j { y with blk := x1.blk, region := { x1.region with saved := y.region.saved } }).updSlot r k fun z => { z with skew := true }
     else ((s.twinEvents t t1 r q).rerun r k idx).keepTwin t1 r k q j y1)
  else s1'.keepTwin t1 r k q j y1
/-- A step of a block, on both copies of a redundant activity (R460). -/
def State.both (s : State) (r k idx : Nat) (f : State → Out) : Out :=
  match (s.slot r k).twin with
  | none => f s
  | some (q, j) =>
    let t := s.asTwin r k q j
    match f s, f t with
    | .next s1, .next t1 => .next (s.joined s1 t t1 r k q j idx)
    | o, _ => o
theorem State.both_single {s : State} {r k : Nat} (h : (s.slot r k).twin = none) (idx : Nat) (f : State → Out) : s.both r k idx f = f s := by
  simp [State.both, h]

end Sys2Proof.Machine
end

