-- ==== Sys2Proof/Machine/Turns.lean ====
section
/-! DEFINITION. What one turn of the schedule does (log 1): the firing of an instruction of an admitted block, the keeper's choice for a
pipe (R328, R329), one of the part's own steps, or an outside act (log 12). -/

namespace Sys2Proof.Machine

/-- The word that index `idx` of a slot's block holds, when the block is admitted. -/
def State.wordAt (s : State) (core slot idx : Nat) : Option W32 :=
  let b := (s.slot core slot).blk
  if b.phase = 2 then b.words[idx]? else none
/-- Fires one instruction: the meaning of the word at an index of an admitted block, at that place. A word that is none leaves the
state as it stands (R51: the block's decoding has refused it). -/
def State.fireAt (s : State) (core slot idx : Nat) : Out :=
  let s : State := { s with here := (core, slot, idx) }
  match s.wordAt core slot idx with
  | none => .next s
  | some w => match rowOf w with
    | .ok row => execRow row w s
    | .error _ => .next s

/-- An instruction of a redundant activity fires on both copies (R460). -/
def State.fireBoth (s : State) (core slot idx : Nat) : Out := s.both core slot idx fun t => t.fireAt core slot idx

/-! ## The keeper (R328, R329) -/

/-- The pipe of a major opcode: 0 scalar, 1 vector, 2 local memory, 3 none (R328). -/
def pipeOf (m : Nat) : Nat :=
  if 0x50 ≤ m ∧ m ≤ 0x5D then 1
  else if 0x30 ≤ m ∧ m ≤ 0x40 then 2
  else if (0x07 ≤ m ∧ m ≤ 0x0F) ∨ (0x10 ≤ m ∧ m ≤ 0x15) ∨ (0x18 ≤ m ∧ m ≤ 0x25) ∨ m = 0x28 ∨ m = 0x29 ∨ (0x41 ≤ m ∧ m ≤ 0x44)
      ∨ (0x70 ≤ m ∧ m ≤ 0x7D) then 0
  else 3
/-- The pipe of the word at an index. -/
def Blk.pipe (b : Blk) (i : Nat) : Nat := pipeOf (major (b.words[i]?.getD 0)).toNat
/-- An instruction is ready to fire: it can fire, and it is no CUS instruction that waits for a record (R306). -/
def State.isReady (s : State) (core k i : Nat) : Bool :=
  let b := (s.slot core k).blk
  s.runs core k && b.phase == 2 && s.canFire core b i
    && !(match rowAt b.words i with | some row => ({ s with here := (core, k, i) } : State).cusWaits (formOf row (b.words[i]?.getD 0)) | none => false)
/-- The ready instructions of a pipe: slot and index. -/
def State.readyOf (s : State) (core pipe : Nat) : List (Nat × Nat) :=
  ((List.range 8).map fun k =>
    let b := (s.slot core k).blk
    ((List.range b.words.length).filter fun i => b.pipe i == pipe && s.isReady core k i).map fun i => (k, i)).flatten
/-- Where an instruction stands in the keeper's order (R329); a smaller list goes first. -/
def State.fireKey (s : State) (core : Nat) (p : Nat × Nat) : List Nat :=
  let x := s.slot core p.1
  let cls := x.blk.classOf x.cls p.2
  if mapGet x.blk.aged p.2 then [0, s.readySince core x.blk p.2, cls, bit1 (!x.blk.longOf p.2), p.1, p.2]
  else [1, cls, bit1 (!x.blk.longOf p.2), bit1 (mapGet (s.core core).favoured cls != p.1), x.blk.admitted.toNat, p.2]
/-- Lexicographic order of keys. -/
def keyLt : List Nat → List Nat → Bool
  | a :: as, b :: bs => a < b || (a == b && keyLt as bs)
  | _, _ => false
/-- The first of a list in the keeper's order. -/
def State.firstOf (s : State) (core : Nat) : List (Nat × Nat) → Option (Nat × Nat)
  | [] => none
  | p :: ps => match s.firstOf core ps with
    | none => some p
    | some q => if keyLt (s.fireKey core q) (s.fireKey core p) then some q else some p
/-- The keeper fires the first ready instruction of a pipe (R329). -/
def State.keep (s : State) (core pipe : Nat) : Out :=
  match s.firstOf core (s.readyOf core pipe) with
  | some p => s.fireBoth core p.1 p.2
  | none => .next s
/-- A firing that the keeper allows: a ready instruction with no pipe, or the first of its pipe (R328, R329). -/
def State.kept (s : State) (core slot idx : Nat) : Bool :=
  let pipe := (s.slot core slot).blk.pipe idx
  s.isReady core slot idx && (pipe == 3 || s.firstOf core (s.readyOf core pipe) == some (slot, idx))

/-! ## Outside acts (log 12) -/

/-- A unit that a porter command may write next reaches far memory through a port (R420, R421). -/
def State.nextAtPort (s : State) (core : Nat) (c : PorterCmd) (port : Nat) : Bool :=
  let at' := fun (src : Bool) (o : Nat) => match s.reach core c src o with | .ok (.far pa) _ => s.farPort pa == port | _ => false
  (c.next s.cycle).any fun o => at' false o || (!c.zero && at' true o)
/-- What the world outside does to the part. -/
def State.outside (s : State) : Env → State
  | .regError core slot reg ws fatal =>
    s.updSlot core slot fun x => { x with regs := mapUpd x.regs reg fun g =>
      if fatal then { g with poison := g.poison ||| ws } else { g with corr := g.corr ||| ws } }
  | .storeError core k word fatal =>
    s.updCore core fun c =>
      let l := c.store k
      c.setStore k (if fatal then { l with poison := mapSet l.poison word true } else { l with corr := mapSet l.corr word true })
  | .memError isFar unit =>
    if isFar then { s with farPoison := mapSet s.farPoison unit true } else { s with hbmPoison := mapSet s.hbmPoison unit true }
  | .portError port req => (match s.req req with
    | some q => (match q.stage, q.mem with
      | .ready (.far pa), some (a, _) => if s.farPort pa = port then s.answer req (.fail (BitVec.ofNat 8 tUncorrectable) a.va 0) else s
      | _, _ => s)
    | none => s)
  | .portUnitError port core cmd => (match (s.core core).porter.find? fun c => c.id == cmd with
    | some c => if s.nextAtPort core c port then s.porterFault core cmd tUncorrectable else s
    | none => s)
  | .memCorrected unit => { s with hbmCorrected := mapUpd s.hbmCorrected (Config.stackOfFrame (unit / 2 ^ 13) % 12) (· + 1) }
  | .savedError core slot reg => s.updSlot core slot fun x => { x with region := { x.region with saved := mapUpd x.region.saved reg fun g => { g with poison := 0xFFFF } } }
  | .slotError core slot => s.updSlot core slot fun x => { x with poisoned := true }
  | .hostWrite a data =>
    { s with host := writeBytes s.host a data,
             hostPoison := s.hostPoison.filter fun e => !(a ≤ e.1 * 64 && e.1 * 64 + 64 ≤ a + data.length) }
  | .hostPoison unit => { s with hostPoison := mapSet s.hostPoison unit true }
  | .residue core times => { s with residue := mapSet s.residue core times }
  | .skew core slot => s.updSlot core slot fun x => { x with skew := true }
  | .tokens n => { s with credits := n }
  | .agentActs id => s.agentActs id
  | .doe session m => s.doe session m
  | .configRead => s.toHost (.config pciCaps s.bar0Reads)
  | .configBar base => s.setBar0 base
  | .tlp offset posted data => s.inletTlp offset posted data
  | .route device plane link => s.setRoute device plane link

/-! ## Turns -/

/-- The schedule moves on: its head is taken, or a free turn when it is empty, and time passes (log 1). -/
def State.nextTurn (s : State) : Turn × State :=
  match s.schedule with
  | (d, t) :: rest => (t, { s with schedule := rest, cycle := s.cycle + BitVec.ofNat 64 d, tick := s.tick + 1 })
  | [] =>
    let (d, t) := Config.freeTurn s.tick
    (t, { s with cycle := s.cycle + BitVec.ofNat 64 d, tick := s.tick + 1 })
/-- One of the part's own steps: the admission of a block and the answer to a question reach both copies of a redundant activity (R460). -/
def State.ownStep (s : State) (i : Instr) : Out :=
  match i with
  | .blockAdmission core slot => s.both core slot 0 (exec i)
  | .remoteAnswer core slot idx => s.both core slot (idx % 128) (exec i)
  | _ => exec i s
/-- A turn is performed. A row that words encode is performed only by firing a word. -/
def State.perform (s : State) : Turn → Out
  | .fire core slot idx => if s.kept core slot idx then s.fireBoth core slot idx else .next s
  | .keep core pipe => s.keep core pipe
  | .event i => if encode i = 0 then s.ownStep i else .next s
  | .env e => .next (s.outside e)

/-- The state with an admitted block of one word, all of whose operands are zero DATA, in slot 0 of core 0, and that word's firing next. -/
def State.placeWord (s : State) (w : W32) : State :=
  let v : Option Value := some (dataValue 0)
  let s := s.updSlot 0 0 fun x =>
    { x with live := true, isTwin := false, custody := default,
             blk := { (default : Blk) with phase := 2, words := [w], slots := [(0, v), (1, v), (2, v), (3, v)] } }
  { s with schedule := (0, .fire 0 0 0) :: s.schedule }

end Sys2Proof.Machine
end

