-- ==== Sys2Proof/Machine/Step.lean ====
section
/-! DEFINITION. One step of the machine: the next turn of the schedule. -/

namespace Sys2Proof.Machine

/-- One step (log 1). -/
def step (s : State) : Host.Outcome State Fault Refusal := s.nextTurn.2.perform s.nextTurn.1

/-- `s` with the instruction whose bits are `w` in an admitted block, so that the next step fires it (log 2). Every word of the table
has 32 bits; the first byte in memory holds bits 7 to 0 (R4, R46). -/
def State.withFetchWord (s : State) (nbits w : Nat) : State := s.placeWord (BitVec.ofNat 32 (w % 2 ^ nbits))

end Sys2Proof.Machine
end

