-- ==== Sys2Proof/Laws/Fields.lean ====
section
/-! SUPPORT. Each field of a format reads back what the format was made from (R52). -/

namespace Sys2Proof

theorem bitsAt_append_lo {a b : Nat} (x : BitVec a) (y : BitVec b) (lo n : Nat) (h : lo + n ≤ b) :
    bitsAt (x ++ y) lo n = bitsAt y lo n := by
  apply BitVec.eq_of_getLsbD_eq
  intro i hi
  simp only [bitsAt, BitVec.getLsbD_extractLsb', hi, decide_true, Bool.true_and, BitVec.getLsbD_append]
  rw [if_pos (by omega)]

theorem bitsAt_append_hi {a b : Nat} (x : BitVec a) (y : BitVec b) (lo n : Nat) (h : b ≤ lo) :
    bitsAt (x ++ y) lo n = bitsAt x (lo - b) n := by
  apply BitVec.eq_of_getLsbD_eq
  intro i hi
  simp only [bitsAt, BitVec.getLsbD_extractLsb', hi, decide_true, Bool.true_and, BitVec.getLsbD_append]
  rw [if_neg (by omega)]
  congr 1; omega

theorem bitsAt_all {a : Nat} (x : BitVec a) : bitsAt x 0 a = x := by simp [bitsAt]

theorem ne_zero_of_bitsAt {a : Nat} {x : BitVec a} (lo n : Nat) (h : bitsAt x lo n ≠ 0) : x ≠ 0 := by
  rintro rfl; apply h; simp [bitsAt]

@[simp] theorem major_mkT (op : BitVec 7) (pr : BitVec 2) (xop : BitVec 5) (t1 : BitVec 9) (t0 : BitVec 9) :
    major (mkT op pr xop t1 t0) = op :=
  ((bitsAt_append_hi (a := 23) (b := 9) _ _ _ _ (by decide)).trans ((bitsAt_append_hi (a := 14) (b := 9) _ _ _ _ (by decide)).trans ((bitsAt_append_hi (a := 9) (b := 5) _ _ _ _ (by decide)).trans ((bitsAt_append_hi (a := 7) (b := 2) _ _ _ _ (by decide)).trans (bitsAt_all _)))))
@[simp] theorem prOf_mkT (op : BitVec 7) (pr : BitVec 2) (xop : BitVec 5) (t1 : BitVec 9) (t0 : BitVec 9) :
    prOf (mkT op pr xop t1 t0) = pr :=
  ((bitsAt_append_hi (a := 23) (b := 9) _ _ _ _ (by decide)).trans ((bitsAt_append_hi (a := 14) (b := 9) _ _ _ _ (by decide)).trans ((bitsAt_append_hi (a := 9) (b := 5) _ _ _ _ (by decide)).trans ((bitsAt_append_lo (a := 7) (b := 2) _ _ _ _ (by decide)).trans (bitsAt_all _)))))
@[simp] theorem xopT_mkT (op : BitVec 7) (pr : BitVec 2) (xop : BitVec 5) (t1 : BitVec 9) (t0 : BitVec 9) :
    xopT (mkT op pr xop t1 t0) = xop :=
  ((bitsAt_append_hi (a := 23) (b := 9) _ _ _ _ (by decide)).trans ((bitsAt_append_hi (a := 14) (b := 9) _ _ _ _ (by decide)).trans ((bitsAt_append_lo (a := 9) (b := 5) _ _ _ _ (by decide)).trans (bitsAt_all _))))
@[simp] theorem t1Of_mkT (op : BitVec 7) (pr : BitVec 2) (xop : BitVec 5) (t1 : BitVec 9) (t0 : BitVec 9) :
    t1Of (mkT op pr xop t1 t0) = t1 :=
  ((bitsAt_append_hi (a := 23) (b := 9) _ _ _ _ (by decide)).trans ((bitsAt_append_lo (a := 14) (b := 9) _ _ _ _ (by decide)).trans (bitsAt_all _)))
@[simp] theorem t0Of_mkT (op : BitVec 7) (pr : BitVec 2) (xop : BitVec 5) (t1 : BitVec 9) (t0 : BitVec 9) :
    t0Of (mkT op pr xop t1 t0) = t0 :=
  ((bitsAt_append_lo (a := 23) (b := 9) _ _ _ _ (by decide)).trans (bitsAt_all _))
@[simp] theorem lsidOf_mkT (op : BitVec 7) (pr : BitVec 2) (xop : BitVec 5) (t1 : BitVec 9) (t0 : BitVec 9) :
    lsidOf (mkT op pr xop t1 t0) = xop :=
  ((bitsAt_append_hi (a := 23) (b := 9) _ _ _ _ (by decide)).trans ((bitsAt_append_hi (a := 14) (b := 9) _ _ _ _ (by decide)).trans ((bitsAt_append_lo (a := 9) (b := 5) _ _ _ _ (by decide)).trans (bitsAt_all _))))
@[simp] theorem xKind_mkT (op : BitVec 7) (pr : BitVec 2) (xop : BitVec 5) (t1 : BitVec 9) (t0 : BitVec 9) :
    xKind (mkT op pr xop t1 t0) = pr :=
  ((bitsAt_append_hi (a := 23) (b := 9) _ _ _ _ (by decide)).trans ((bitsAt_append_hi (a := 14) (b := 9) _ _ _ _ (by decide)).trans ((bitsAt_append_hi (a := 9) (b := 5) _ _ _ _ (by decide)).trans ((bitsAt_append_lo (a := 7) (b := 2) _ _ _ _ (by decide)).trans (bitsAt_all _)))))
@[simp] theorem major_mkI (op : BitVec 7) (pr : BitVec 2) (imm : BitVec 14) (t0 : BitVec 9) :
    major (mkI op pr imm t0) = op :=
  ((bitsAt_append_hi (a := 23) (b := 9) _ _ _ _ (by decide)).trans ((bitsAt_append_hi (a := 9) (b := 14) _ _ _ _ (by decide)).trans ((bitsAt_append_hi (a := 7) (b := 2) _ _ _ _ (by decide)).trans (bitsAt_all _))))
@[simp] theorem prOf_mkI (op : BitVec 7) (pr : BitVec 2) (imm : BitVec 14) (t0 : BitVec 9) :
    prOf (mkI op pr imm t0) = pr :=
  ((bitsAt_append_hi (a := 23) (b := 9) _ _ _ _ (by decide)).trans ((bitsAt_append_hi (a := 9) (b := 14) _ _ _ _ (by decide)).trans ((bitsAt_append_lo (a := 7) (b := 2) _ _ _ _ (by decide)).trans (bitsAt_all _))))
@[simp] theorem t0Of_mkI (op : BitVec 7) (pr : BitVec 2) (imm : BitVec 14) (t0 : BitVec 9) :
    t0Of (mkI op pr imm t0) = t0 :=
  ((bitsAt_append_lo (a := 23) (b := 9) _ _ _ _ (by decide)).trans (bitsAt_all _))
@[simp] theorem imm14Of_mkI (op : BitVec 7) (pr : BitVec 2) (imm : BitVec 14) (t0 : BitVec 9) :
    imm14Of (mkI op pr imm t0) = imm :=
  ((bitsAt_append_hi (a := 23) (b := 9) _ _ _ _ (by decide)).trans ((bitsAt_append_lo (a := 9) (b := 14) _ _ _ _ (by decide)).trans (bitsAt_all _)))
@[simp] theorem xKind_mkI (op : BitVec 7) (pr : BitVec 2) (imm : BitVec 14) (t0 : BitVec 9) :
    xKind (mkI op pr imm t0) = pr :=
  ((bitsAt_append_hi (a := 23) (b := 9) _ _ _ _ (by decide)).trans ((bitsAt_append_hi (a := 9) (b := 14) _ _ _ _ (by decide)).trans ((bitsAt_append_lo (a := 7) (b := 2) _ _ _ _ (by decide)).trans (bitsAt_all _))))
@[simp] theorem major_mkR (op : BitVec 7) (e : BitVec 1) (reg : BitVec 6) (t1 : BitVec 9) (t0 : BitVec 9) :
    major (mkR op e reg t1 t0) = op :=
  ((bitsAt_append_hi (a := 23) (b := 9) _ _ _ _ (by decide)).trans ((bitsAt_append_hi (a := 14) (b := 9) _ _ _ _ (by decide)).trans ((bitsAt_append_hi (a := 8) (b := 6) _ _ _ _ (by decide)).trans ((bitsAt_append_hi (a := 7) (b := 1) _ _ _ _ (by decide)).trans (bitsAt_all _)))))
@[simp] theorem t1Of_mkR (op : BitVec 7) (e : BitVec 1) (reg : BitVec 6) (t1 : BitVec 9) (t0 : BitVec 9) :
    t1Of (mkR op e reg t1 t0) = t1 :=
  ((bitsAt_append_hi (a := 23) (b := 9) _ _ _ _ (by decide)).trans ((bitsAt_append_lo (a := 14) (b := 9) _ _ _ _ (by decide)).trans (bitsAt_all _)))
@[simp] theorem t0Of_mkR (op : BitVec 7) (e : BitVec 1) (reg : BitVec 6) (t1 : BitVec 9) (t0 : BitVec 9) :
    t0Of (mkR op e reg t1 t0) = t0 :=
  ((bitsAt_append_lo (a := 23) (b := 9) _ _ _ _ (by decide)).trans (bitsAt_all _))
@[simp] theorem rE_mkR (op : BitVec 7) (e : BitVec 1) (reg : BitVec 6) (t1 : BitVec 9) (t0 : BitVec 9) :
    rE (mkR op e reg t1 t0) = e :=
  ((bitsAt_append_hi (a := 23) (b := 9) _ _ _ _ (by decide)).trans ((bitsAt_append_hi (a := 14) (b := 9) _ _ _ _ (by decide)).trans ((bitsAt_append_hi (a := 8) (b := 6) _ _ _ _ (by decide)).trans ((bitsAt_append_lo (a := 7) (b := 1) _ _ _ _ (by decide)).trans (bitsAt_all _)))))
@[simp] theorem rReg_mkR (op : BitVec 7) (e : BitVec 1) (reg : BitVec 6) (t1 : BitVec 9) (t0 : BitVec 9) :
    rReg (mkR op e reg t1 t0) = reg :=
  ((bitsAt_append_hi (a := 23) (b := 9) _ _ _ _ (by decide)).trans ((bitsAt_append_hi (a := 14) (b := 9) _ _ _ _ (by decide)).trans ((bitsAt_append_lo (a := 8) (b := 6) _ _ _ _ (by decide)).trans (bitsAt_all _))))
@[simp] theorem major_mkW (op : BitVec 7) (pr : BitVec 2) (reg : BitVec 6) (xop : BitVec 5) (aux : BitVec 12) :
    major (mkW op pr reg xop aux) = op :=
  ((bitsAt_append_hi (a := 20) (b := 12) _ _ _ _ (by decide)).trans ((bitsAt_append_hi (a := 15) (b := 5) _ _ _ _ (by decide)).trans ((bitsAt_append_hi (a := 9) (b := 6) _ _ _ _ (by decide)).trans ((bitsAt_append_hi (a := 7) (b := 2) _ _ _ _ (by decide)).trans (bitsAt_all _)))))
@[simp] theorem prOf_mkW (op : BitVec 7) (pr : BitVec 2) (reg : BitVec 6) (xop : BitVec 5) (aux : BitVec 12) :
    prOf (mkW op pr reg xop aux) = pr :=
  ((bitsAt_append_hi (a := 20) (b := 12) _ _ _ _ (by decide)).trans ((bitsAt_append_hi (a := 15) (b := 5) _ _ _ _ (by decide)).trans ((bitsAt_append_hi (a := 9) (b := 6) _ _ _ _ (by decide)).trans ((bitsAt_append_lo (a := 7) (b := 2) _ _ _ _ (by decide)).trans (bitsAt_all _)))))
@[simp] theorem wReg_mkW (op : BitVec 7) (pr : BitVec 2) (reg : BitVec 6) (xop : BitVec 5) (aux : BitVec 12) :
    wReg (mkW op pr reg xop aux) = reg :=
  ((bitsAt_append_hi (a := 20) (b := 12) _ _ _ _ (by decide)).trans ((bitsAt_append_hi (a := 15) (b := 5) _ _ _ _ (by decide)).trans ((bitsAt_append_lo (a := 9) (b := 6) _ _ _ _ (by decide)).trans (bitsAt_all _))))
@[simp] theorem wXop_mkW (op : BitVec 7) (pr : BitVec 2) (reg : BitVec 6) (xop : BitVec 5) (aux : BitVec 12) :
    wXop (mkW op pr reg xop aux) = xop :=
  ((bitsAt_append_hi (a := 20) (b := 12) _ _ _ _ (by decide)).trans ((bitsAt_append_lo (a := 15) (b := 5) _ _ _ _ (by decide)).trans (bitsAt_all _)))
@[simp] theorem auxOf_mkW (op : BitVec 7) (pr : BitVec 2) (reg : BitVec 6) (xop : BitVec 5) (aux : BitVec 12) :
    auxOf (mkW op pr reg xop aux) = aux :=
  ((bitsAt_append_lo (a := 20) (b := 12) _ _ _ _ (by decide)).trans (bitsAt_all _))
@[simp] theorem xKind_mkW (op : BitVec 7) (pr : BitVec 2) (reg : BitVec 6) (xop : BitVec 5) (aux : BitVec 12) :
    xKind (mkW op pr reg xop aux) = pr :=
  ((bitsAt_append_hi (a := 20) (b := 12) _ _ _ _ (by decide)).trans ((bitsAt_append_hi (a := 15) (b := 5) _ _ _ _ (by decide)).trans ((bitsAt_append_hi (a := 9) (b := 6) _ _ _ _ (by decide)).trans ((bitsAt_append_lo (a := 7) (b := 2) _ _ _ _ (by decide)).trans (bitsAt_all _)))))
@[simp] theorem major_mkL (op : BitVec 7) (pr : BitVec 2) (lsid : BitVec 5) (imm : BitVec 9) (t0 : BitVec 9) :
    major (mkL op pr lsid imm t0) = op :=
  ((bitsAt_append_hi (a := 23) (b := 9) _ _ _ _ (by decide)).trans ((bitsAt_append_hi (a := 14) (b := 9) _ _ _ _ (by decide)).trans ((bitsAt_append_hi (a := 9) (b := 5) _ _ _ _ (by decide)).trans ((bitsAt_append_hi (a := 7) (b := 2) _ _ _ _ (by decide)).trans (bitsAt_all _)))))
@[simp] theorem prOf_mkL (op : BitVec 7) (pr : BitVec 2) (lsid : BitVec 5) (imm : BitVec 9) (t0 : BitVec 9) :
    prOf (mkL op pr lsid imm t0) = pr :=
  ((bitsAt_append_hi (a := 23) (b := 9) _ _ _ _ (by decide)).trans ((bitsAt_append_hi (a := 14) (b := 9) _ _ _ _ (by decide)).trans ((bitsAt_append_hi (a := 9) (b := 5) _ _ _ _ (by decide)).trans ((bitsAt_append_lo (a := 7) (b := 2) _ _ _ _ (by decide)).trans (bitsAt_all _)))))
@[simp] theorem xopT_mkL (op : BitVec 7) (pr : BitVec 2) (lsid : BitVec 5) (imm : BitVec 9) (t0 : BitVec 9) :
    xopT (mkL op pr lsid imm t0) = lsid :=
  ((bitsAt_append_hi (a := 23) (b := 9) _ _ _ _ (by decide)).trans ((bitsAt_append_hi (a := 14) (b := 9) _ _ _ _ (by decide)).trans ((bitsAt_append_lo (a := 9) (b := 5) _ _ _ _ (by decide)).trans (bitsAt_all _))))
@[simp] theorem t1Of_mkL (op : BitVec 7) (pr : BitVec 2) (lsid : BitVec 5) (imm : BitVec 9) (t0 : BitVec 9) :
    t1Of (mkL op pr lsid imm t0) = imm :=
  ((bitsAt_append_hi (a := 23) (b := 9) _ _ _ _ (by decide)).trans ((bitsAt_append_lo (a := 14) (b := 9) _ _ _ _ (by decide)).trans (bitsAt_all _)))
@[simp] theorem t0Of_mkL (op : BitVec 7) (pr : BitVec 2) (lsid : BitVec 5) (imm : BitVec 9) (t0 : BitVec 9) :
    t0Of (mkL op pr lsid imm t0) = t0 :=
  ((bitsAt_append_lo (a := 23) (b := 9) _ _ _ _ (by decide)).trans (bitsAt_all _))
@[simp] theorem lsidOf_mkL (op : BitVec 7) (pr : BitVec 2) (lsid : BitVec 5) (imm : BitVec 9) (t0 : BitVec 9) :
    lsidOf (mkL op pr lsid imm t0) = lsid :=
  ((bitsAt_append_hi (a := 23) (b := 9) _ _ _ _ (by decide)).trans ((bitsAt_append_hi (a := 14) (b := 9) _ _ _ _ (by decide)).trans ((bitsAt_append_lo (a := 9) (b := 5) _ _ _ _ (by decide)).trans (bitsAt_all _))))
@[simp] theorem xKind_mkL (op : BitVec 7) (pr : BitVec 2) (lsid : BitVec 5) (imm : BitVec 9) (t0 : BitVec 9) :
    xKind (mkL op pr lsid imm t0) = pr :=
  ((bitsAt_append_hi (a := 23) (b := 9) _ _ _ _ (by decide)).trans ((bitsAt_append_hi (a := 14) (b := 9) _ _ _ _ (by decide)).trans ((bitsAt_append_hi (a := 9) (b := 5) _ _ _ _ (by decide)).trans ((bitsAt_append_lo (a := 7) (b := 2) _ _ _ _ (by decide)).trans (bitsAt_all _)))))
@[simp] theorem major_mkS (op : BitVec 7) (pr : BitVec 2) (lsid : BitVec 5) (imm : BitVec 18) :
    major (mkS op pr lsid imm) = op :=
  ((bitsAt_append_hi (a := 14) (b := 18) _ _ _ _ (by decide)).trans ((bitsAt_append_hi (a := 9) (b := 5) _ _ _ _ (by decide)).trans ((bitsAt_append_hi (a := 7) (b := 2) _ _ _ _ (by decide)).trans (bitsAt_all _))))
@[simp] theorem prOf_mkS (op : BitVec 7) (pr : BitVec 2) (lsid : BitVec 5) (imm : BitVec 18) :
    prOf (mkS op pr lsid imm) = pr :=
  ((bitsAt_append_hi (a := 14) (b := 18) _ _ _ _ (by decide)).trans ((bitsAt_append_hi (a := 9) (b := 5) _ _ _ _ (by decide)).trans ((bitsAt_append_lo (a := 7) (b := 2) _ _ _ _ (by decide)).trans (bitsAt_all _))))
@[simp] theorem xopT_mkS (op : BitVec 7) (pr : BitVec 2) (lsid : BitVec 5) (imm : BitVec 18) :
    xopT (mkS op pr lsid imm) = lsid :=
  ((bitsAt_append_hi (a := 14) (b := 18) _ _ _ _ (by decide)).trans ((bitsAt_append_lo (a := 9) (b := 5) _ _ _ _ (by decide)).trans (bitsAt_all _)))
@[simp] theorem lsidOf_mkS (op : BitVec 7) (pr : BitVec 2) (lsid : BitVec 5) (imm : BitVec 18) :
    lsidOf (mkS op pr lsid imm) = lsid :=
  ((bitsAt_append_hi (a := 14) (b := 18) _ _ _ _ (by decide)).trans ((bitsAt_append_lo (a := 9) (b := 5) _ _ _ _ (by decide)).trans (bitsAt_all _)))
@[simp] theorem imm18Of_mkS (op : BitVec 7) (pr : BitVec 2) (lsid : BitVec 5) (imm : BitVec 18) :
    imm18Of (mkS op pr lsid imm) = imm :=
  ((bitsAt_append_lo (a := 14) (b := 18) _ _ _ _ (by decide)).trans (bitsAt_all _))
@[simp] theorem xKind_mkS (op : BitVec 7) (pr : BitVec 2) (lsid : BitVec 5) (imm : BitVec 18) :
    xKind (mkS op pr lsid imm) = pr :=
  ((bitsAt_append_hi (a := 14) (b := 18) _ _ _ _ (by decide)).trans ((bitsAt_append_hi (a := 9) (b := 5) _ _ _ _ (by decide)).trans ((bitsAt_append_lo (a := 7) (b := 2) _ _ _ _ (by decide)).trans (bitsAt_all _))))
@[simp] theorem major_mkB (op : BitVec 7) (pr : BitVec 2) (off : BitVec 23) :
    major (mkB op pr off) = op :=
  ((bitsAt_append_hi (a := 9) (b := 23) _ _ _ _ (by decide)).trans ((bitsAt_append_hi (a := 7) (b := 2) _ _ _ _ (by decide)).trans (bitsAt_all _)))
@[simp] theorem prOf_mkB (op : BitVec 7) (pr : BitVec 2) (off : BitVec 23) :
    prOf (mkB op pr off) = pr :=
  ((bitsAt_append_hi (a := 9) (b := 23) _ _ _ _ (by decide)).trans ((bitsAt_append_lo (a := 7) (b := 2) _ _ _ _ (by decide)).trans (bitsAt_all _)))
@[simp] theorem off23Of_mkB (op : BitVec 7) (pr : BitVec 2) (off : BitVec 23) :
    off23Of (mkB op pr off) = off :=
  ((bitsAt_append_lo (a := 9) (b := 23) _ _ _ _ (by decide)).trans (bitsAt_all _))
@[simp] theorem xKind_mkB (op : BitVec 7) (pr : BitVec 2) (off : BitVec 23) :
    xKind (mkB op pr off) = pr :=
  ((bitsAt_append_hi (a := 9) (b := 23) _ _ _ _ (by decide)).trans ((bitsAt_append_lo (a := 7) (b := 2) _ _ _ _ (by decide)).trans (bitsAt_all _)))
@[simp] theorem xPay_mkB (op : BitVec 7) (pr : BitVec 2) (off : BitVec 23) :
    xPay (mkB op pr off) = off :=
  ((bitsAt_append_lo (a := 9) (b := 23) _ _ _ _ (by decide)).trans (bitsAt_all _))
@[simp] theorem major_mkBL (op : BitVec 7) (pr : BitVec 2) (reg : BitVec 6) (off : BitVec 17) :
    major (mkBL op pr reg off) = op :=
  ((bitsAt_append_hi (a := 15) (b := 17) _ _ _ _ (by decide)).trans ((bitsAt_append_hi (a := 9) (b := 6) _ _ _ _ (by decide)).trans ((bitsAt_append_hi (a := 7) (b := 2) _ _ _ _ (by decide)).trans (bitsAt_all _))))
@[simp] theorem prOf_mkBL (op : BitVec 7) (pr : BitVec 2) (reg : BitVec 6) (off : BitVec 17) :
    prOf (mkBL op pr reg off) = pr :=
  ((bitsAt_append_hi (a := 15) (b := 17) _ _ _ _ (by decide)).trans ((bitsAt_append_hi (a := 9) (b := 6) _ _ _ _ (by decide)).trans ((bitsAt_append_lo (a := 7) (b := 2) _ _ _ _ (by decide)).trans (bitsAt_all _))))
@[simp] theorem wReg_mkBL (op : BitVec 7) (pr : BitVec 2) (reg : BitVec 6) (off : BitVec 17) :
    wReg (mkBL op pr reg off) = reg :=
  ((bitsAt_append_hi (a := 15) (b := 17) _ _ _ _ (by decide)).trans ((bitsAt_append_lo (a := 9) (b := 6) _ _ _ _ (by decide)).trans (bitsAt_all _)))
@[simp] theorem off17Of_mkBL (op : BitVec 7) (pr : BitVec 2) (reg : BitVec 6) (off : BitVec 17) :
    off17Of (mkBL op pr reg off) = off :=
  ((bitsAt_append_lo (a := 15) (b := 17) _ _ _ _ (by decide)).trans (bitsAt_all _))
@[simp] theorem xKind_mkBL (op : BitVec 7) (pr : BitVec 2) (reg : BitVec 6) (off : BitVec 17) :
    xKind (mkBL op pr reg off) = pr :=
  ((bitsAt_append_hi (a := 15) (b := 17) _ _ _ _ (by decide)).trans ((bitsAt_append_hi (a := 9) (b := 6) _ _ _ _ (by decide)).trans ((bitsAt_append_lo (a := 7) (b := 2) _ _ _ _ (by decide)).trans (bitsAt_all _))))
@[simp] theorem major_mkX (kind : BitVec 2) (payload : BitVec 23) :
    major (mkX kind payload) = (1 : BitVec 7) :=
  ((bitsAt_append_hi (a := 9) (b := 23) _ _ _ _ (by decide)).trans ((bitsAt_append_hi (a := 7) (b := 2) _ _ _ _ (by decide)).trans (bitsAt_all _)))
@[simp] theorem prOf_mkX (kind : BitVec 2) (payload : BitVec 23) :
    prOf (mkX kind payload) = kind :=
  ((bitsAt_append_hi (a := 9) (b := 23) _ _ _ _ (by decide)).trans ((bitsAt_append_lo (a := 7) (b := 2) _ _ _ _ (by decide)).trans (bitsAt_all _)))
@[simp] theorem off23Of_mkX (kind : BitVec 2) (payload : BitVec 23) :
    off23Of (mkX kind payload) = payload :=
  ((bitsAt_append_lo (a := 9) (b := 23) _ _ _ _ (by decide)).trans (bitsAt_all _))
@[simp] theorem xKind_mkX (kind : BitVec 2) (payload : BitVec 23) :
    xKind (mkX kind payload) = kind :=
  ((bitsAt_append_hi (a := 9) (b := 23) _ _ _ _ (by decide)).trans ((bitsAt_append_lo (a := 7) (b := 2) _ _ _ _ (by decide)).trans (bitsAt_all _)))
@[simp] theorem xPay_mkX (kind : BitVec 2) (payload : BitVec 23) :
    xPay (mkX kind payload) = payload :=
  ((bitsAt_append_lo (a := 9) (b := 23) _ _ _ _ (by decide)).trans (bitsAt_all _))

/-! Bits within one field. -/

theorem bitsAt_ofNat (m x lo n : Nat) (h : x < 2 ^ m) : bitsAt (BitVec.ofNat m x) lo n = BitVec.ofNat n (x >>> lo) := by
  apply BitVec.eq_of_toNat_eq
  simp [bitsAt, BitVec.extractLsb'_toNat, Nat.mod_eq_of_lt h]


theorem bits_xop_mkT (op : BitVec 7) (pr : BitVec 2) (xop : BitVec 5) (t1 t0 : BitVec 9) (lo n : Nat) (h : 18 ≤ lo) (h' : lo + n ≤ 23) :
    bitsAt (mkT op pr xop t1 t0) lo n = bitsAt xop (lo - 18) n :=
  (bitsAt_append_hi (a := 23) (b := 9) _ _ _ _ (by omega)).trans ((bitsAt_append_hi (a := 14) (b := 9) _ _ _ _ (by omega)).trans
    ((bitsAt_append_lo (a := 9) (b := 5) _ _ _ _ (by omega)).trans (by rw [show lo - 9 - 9 = lo - 18 by omega])))

theorem bits_op_mkT (op : BitVec 7) (pr : BitVec 2) (xop : BitVec 5) (t1 t0 : BitVec 9) (lo n : Nat) (h : 25 ≤ lo) :
    bitsAt (mkT op pr xop t1 t0) lo n = bitsAt op (lo - 25) n :=
  (bitsAt_append_hi (a := 23) (b := 9) _ _ _ _ (by omega)).trans ((bitsAt_append_hi (a := 14) (b := 9) _ _ _ _ (by omega)).trans
    ((bitsAt_append_hi (a := 9) (b := 5) _ _ _ _ (by omega)).trans ((bitsAt_append_hi (a := 7) (b := 2) _ _ _ _ (by omega)).trans
      (by rw [show lo - 9 - 9 - 5 - 2 = lo - 25 by omega]))))

theorem bits_aux_mkW (op : BitVec 7) (pr : BitVec 2) (reg : BitVec 6) (xop : BitVec 5) (aux : BitVec 12) (lo n : Nat) (h : lo + n ≤ 12) :
    bitsAt (mkW op pr reg xop aux) lo n = bitsAt aux lo n := bitsAt_append_lo (a := 20) (b := 12) _ _ _ _ h

theorem bits_payload_mkX (kind : BitVec 2) (payload : BitVec 23) (lo n : Nat) (h : lo + n ≤ 23) :
    bitsAt (mkX kind payload) lo n = bitsAt payload lo n := bitsAt_append_lo (a := 9) (b := 23) _ _ _ _ h

/-! The fields of R106 in aux: two bits of width (one below a zero), scope, order, six zeros. -/

theorem aux_low (w scope order : BitVec 2) : bitsAt (w ++ scope ++ order ++ 0#6 : BitVec 12) 0 6 = 0 :=
  (bitsAt_append_lo (a := 6) (b := 6) _ _ _ _ (by decide)).trans (bitsAt_all _)
theorem aux_order (w scope order : BitVec 2) : bitsAt (w ++ scope ++ order ++ 0#6 : BitVec 12) 6 2 = order :=
  (bitsAt_append_hi (a := 6) (b := 6) _ _ _ _ (by decide)).trans ((bitsAt_append_lo (a := 4) (b := 2) _ _ _ _ (by decide)).trans (bitsAt_all _))
theorem aux_scope (w scope order : BitVec 2) : bitsAt (w ++ scope ++ order ++ 0#6 : BitVec 12) 8 2 = scope :=
  (bitsAt_append_hi (a := 6) (b := 6) _ _ _ _ (by decide)).trans ((bitsAt_append_hi (a := 4) (b := 2) _ _ _ _ (by decide)).trans
    ((bitsAt_append_lo (a := 2) (b := 2) _ _ _ _ (by decide)).trans (bitsAt_all _)))
theorem aux_width (w scope order : BitVec 2) : bitsAt (w ++ scope ++ order ++ 0#6 : BitVec 12) 10 2 = w :=
  (bitsAt_append_hi (a := 6) (b := 6) _ _ _ _ (by decide)).trans ((bitsAt_append_hi (a := 4) (b := 2) _ _ _ _ (by decide)).trans
    ((bitsAt_append_hi (a := 2) (b := 2) _ _ _ _ (by decide)).trans (bitsAt_all _)))


theorem aux1_low (w : BitVec 1) (scope order : BitVec 2) : bitsAt (0#1 ++ w ++ scope ++ order ++ 0#6 : BitVec 12) 0 6 = 0 := (bitsAt_append_lo (a := 6) (b := 6) _ _ _ _ (by decide)).trans (bitsAt_all _)
theorem aux1_order (w : BitVec 1) (scope order : BitVec 2) : bitsAt (0#1 ++ w ++ scope ++ order ++ 0#6 : BitVec 12) 6 2 = order := (bitsAt_append_hi (a := 6) (b := 6) _ _ _ _ (by decide)).trans ((bitsAt_append_lo (a := 4) (b := 2) _ _ _ _ (by decide)).trans (bitsAt_all _))
theorem aux1_scope (w : BitVec 1) (scope order : BitVec 2) : bitsAt (0#1 ++ w ++ scope ++ order ++ 0#6 : BitVec 12) 8 2 = scope := (bitsAt_append_hi (a := 6) (b := 6) _ _ _ _ (by decide)).trans ((bitsAt_append_hi (a := 4) (b := 2) _ _ _ _ (by decide)).trans ((bitsAt_append_lo (a := 2) (b := 2) _ _ _ _ (by decide)).trans (bitsAt_all _)))
theorem aux1_width (w : BitVec 1) (scope order : BitVec 2) : bitsAt (0#1 ++ w ++ scope ++ order ++ 0#6 : BitVec 12) 10 1 = w := (bitsAt_append_hi (a := 6) (b := 6) _ _ _ _ (by decide)).trans ((bitsAt_append_hi (a := 4) (b := 2) _ _ _ _ (by decide)).trans ((bitsAt_append_hi (a := 2) (b := 2) _ _ _ _ (by decide)).trans ((bitsAt_append_lo (a := 1) (b := 1) _ _ _ _ (by decide)).trans (bitsAt_all _))))
theorem aux1_top (w : BitVec 1) (scope order : BitVec 2) : bitsAt (0#1 ++ w ++ scope ++ order ++ 0#6 : BitVec 12) 11 1 = 0 := (bitsAt_append_hi (a := 6) (b := 6) _ _ _ _ (by decide)).trans ((bitsAt_append_hi (a := 4) (b := 2) _ _ _ _ (by decide)).trans ((bitsAt_append_hi (a := 2) (b := 2) _ _ _ _ (by decide)).trans ((bitsAt_append_hi (a := 1) (b := 1) _ _ _ _ (by decide)).trans (bitsAt_all _))))

/-! No word is zero (R98). -/

theorem mkT_ne_zero (op : BitVec 7) (pr : BitVec 2) (xop : BitVec 5) (t1 : BitVec 9) (t0 : BitVec 9) (h : op ≠ 0) : mkT op pr xop t1 t0 ≠ 0 :=
  ne_zero_of_bitsAt 25 7 (by rw [show bitsAt _ 25 7 = op from major_mkT ..]; exact h)
theorem mkI_ne_zero (op : BitVec 7) (pr : BitVec 2) (imm : BitVec 14) (t0 : BitVec 9) (h : op ≠ 0) : mkI op pr imm t0 ≠ 0 :=
  ne_zero_of_bitsAt 25 7 (by rw [show bitsAt _ 25 7 = op from major_mkI ..]; exact h)
theorem mkR_ne_zero (op : BitVec 7) (e : BitVec 1) (reg : BitVec 6) (t1 : BitVec 9) (t0 : BitVec 9) (h : op ≠ 0) : mkR op e reg t1 t0 ≠ 0 :=
  ne_zero_of_bitsAt 25 7 (by rw [show bitsAt _ 25 7 = op from major_mkR ..]; exact h)
theorem mkW_ne_zero (op : BitVec 7) (pr : BitVec 2) (reg : BitVec 6) (xop : BitVec 5) (aux : BitVec 12) (h : op ≠ 0) : mkW op pr reg xop aux ≠ 0 :=
  ne_zero_of_bitsAt 25 7 (by rw [show bitsAt _ 25 7 = op from major_mkW ..]; exact h)
theorem mkL_ne_zero (op : BitVec 7) (pr : BitVec 2) (lsid : BitVec 5) (imm : BitVec 9) (t0 : BitVec 9) (h : op ≠ 0) : mkL op pr lsid imm t0 ≠ 0 :=
  ne_zero_of_bitsAt 25 7 (by rw [show bitsAt _ 25 7 = op from major_mkL ..]; exact h)
theorem mkS_ne_zero (op : BitVec 7) (pr : BitVec 2) (lsid : BitVec 5) (imm : BitVec 18) (h : op ≠ 0) : mkS op pr lsid imm ≠ 0 :=
  ne_zero_of_bitsAt 25 7 (by rw [show bitsAt _ 25 7 = op from major_mkS ..]; exact h)
theorem mkB_ne_zero (op : BitVec 7) (pr : BitVec 2) (off : BitVec 23) (h : op ≠ 0) : mkB op pr off ≠ 0 :=
  ne_zero_of_bitsAt 25 7 (by rw [show bitsAt _ 25 7 = op from major_mkB ..]; exact h)
theorem mkBL_ne_zero (op : BitVec 7) (pr : BitVec 2) (reg : BitVec 6) (off : BitVec 17) (h : op ≠ 0) : mkBL op pr reg off ≠ 0 :=
  ne_zero_of_bitsAt 25 7 (by rw [show bitsAt _ 25 7 = op from major_mkBL ..]; exact h)
theorem mkX_ne_zero (kind : BitVec 2) (payload : BitVec 23) : mkX kind payload ≠ 0 :=
  ne_zero_of_bitsAt 25 7 (by rw [show bitsAt _ 25 7 = 1 from major_mkX ..]; decide)

/-! The values of short fields. -/

theorem bv1_cases (w : BitVec 1) : w = 0 ∨ w = 1 := by revert w; decide
theorem bv2_cases (w : BitVec 2) : w = 0 ∨ w = 1 ∨ w = 2 ∨ w = 3 := by revert w; decide
theorem bv3_cases (w : BitVec 3) : w = 0 ∨ w = 1 ∨ w = 2 ∨ w = 3 ∨ w = 4 ∨ w = 5 ∨ w = 6 ∨ w = 7 := by revert w; decide

end Sys2Proof
end

