-- ==== Sys2Proof/WellFormed.lean ====
section
/-! DEFINITION. Which instructions are well formed: the operand values that a word of the row may have (R99, R35, R62, R64, R104, R113), and,
for a step of the part itself, the cores, slots, indexes and other units that the part has (R11, R12, R13, R319, R389, R413). -/

namespace Sys2Proof

/-- An instruction that acts as a whole is never masked (R99). -/
def wholeOk (pr : BitVec 2) : Bool := pr != 1
/-- A number below a bound. -/
def below (b n : Nat) : Bool := decide (n < b)
/-- A router with a core: 4,096 compute cores, 32 steward cores and 16 relay cores (R13). -/
def coreOk (n : Nat) : Bool := decide (n < 4144)
/-- An activity slot (R12). -/
def slotOk (n : Nat) : Bool := decide (n < 8)
/-- An instruction index (R48). -/
def indexOk (n : Nat) : Bool := decide (n < 128)

/-- The well-formed instructions. -/
def WellFormed : Instr → Bool
  | .extWide _ => true
  | .extHint _ cls => decide (cls.toNat < 4)
  | .extModifier _ _ round => decide (round.toNat < 6)
  | .read _ _ _ _ => true
  | .port _ reg _ _ => decide (reg.toNat < 5)
  | .write _ _ => true
  | .wport _ reg => decide (reg.toNat < 4)
  | .null pr _ _ => wholeOk pr
  | .mov _ _ _ => true
  | .bro pr _ => wholeOk pr
  | .call pr _ _ => wholeOk pr
  | .brc pr => wholeOk pr
  | .ret pr => wholeOk pr
  | .callc pr _ => wholeOk pr
  | .exit pr => wholeOk pr
  | .yield pr _ => wholeOk pr
  | .handoff pr => wholeOk pr
  | .sleep pr => wholeOk pr
  | .add _ _ _ _ => true
  | .sub _ _ _ _ => true
  | .and _ _ _ _ => true
  | .or _ _ _ _ => true
  | .xor _ _ _ _ => true
  | .andn _ _ _ _ => true
  | .shl _ _ _ _ => true
  | .shr _ _ _ _ => true
  | .sra _ _ _ _ => true
  | .rol _ _ _ _ => true
  | .min _ _ _ _ => true
  | .max _ _ _ _ => true
  | .minn _ _ _ _ => true
  | .maxn _ _ _ _ => true
  | .sel _ _ _ _ => true
  | .mul _ _ _ _ => true
  | .mulh _ _ _ _ => true
  | .mulhn _ _ _ _ => true
  | .div _ _ _ _ => true
  | .divn _ _ _ _ => true
  | .rem _ _ _ _ => true
  | .remn _ _ _ _ => true
  | .clz _ _ _ => true
  | .ctz _ _ _ => true
  | .pop _ _ _ => true
  | .sext8 _ _ _ => true
  | .sext16 _ _ _ => true
  | .sext32 _ _ _ => true
  | .zext8 _ _ _ => true
  | .zext16 _ _ _ => true
  | .zext32 _ _ _ => true
  | .brev _ _ _ => true
  | .bswap _ _ _ => true
  | .teq _ _ _ _ => true
  | .tne _ _ _ _ => true
  | .tlt _ _ _ _ => true
  | .tle _ _ _ _ => true
  | .tltn _ _ _ _ => true
  | .tlen _ _ _ _ => true
  | .tbit _ _ _ => true
  | .pand _ _ _ => true
  | .por _ _ _ => true
  | .pxor _ _ _ => true
  | .pnot _ _ _ => true
  | .pany _ _ _ => true
  | .pall _ _ _ => true
  | .pcnt _ _ _ => true
  | .pfirst _ _ _ => true
  | .addi _ _ _ => true
  | .addiw _ _ _ => true
  | .andi _ _ _ => true
  | .ori _ _ _ => true
  | .xori _ _ _ => true
  | .shli _ imm _ => decide (imm.toNat < 64)
  | .shri _ imm _ => decide (imm.toNat < 64)
  | .srai _ imm _ => decide (imm.toNat < 64)
  | .muli _ _ _ => true
  | .teqi _ _ _ => true
  | .tnei _ _ _ => true
  | .tlti _ _ _ => true
  | .tlei _ _ _ => true
  | .tltni _ _ _ => true
  | .movi _ _ _ => true
  | .movif _ _ _ => true
  | .cadd _ _ _ => true
  | .cseta _ _ _ => true
  | .csetb _ _ _ => true
  | .csetbx _ _ _ => true
  | .cperm _ _ _ => true
  | .cseal _ _ _ => true
  | .cunseal _ _ _ => true
  | .cgeta _ _ _ => true
  | .cgetb _ _ _ => true
  | .cgetl _ _ _ => true
  | .cgetp _ _ _ => true
  | .cgetk _ _ _ => true
  | .ctagt _ _ _ => true
  | .csub _ _ _ => true
  | .ceq _ _ _ => true
  | .cclr _ _ _ => true
  | .caddi _ _ _ => true
  | .ldI8 _ _ _ _ => true
  | .ldN8 _ _ _ _ => true
  | .ldI16 _ _ _ _ => true
  | .ldN16 _ _ _ _ => true
  | .ldI32 _ _ _ _ => true
  | .ldN32 _ _ _ _ => true
  | .ld64 _ _ _ _ => true
  | .ldv _ _ _ _ => true
  | .ldc _ _ _ _ => true
  | .vgather _ _ _ _ => true
  | .st8 _ _ _ => true
  | .st16 _ _ _ => true
  | .st32 _ _ _ => true
  | .st64 _ _ _ => true
  | .stv _ _ _ => true
  | .stc _ _ _ => true
  | .vscatter _ _ _ => true
  | .qld pr _ width _ => wholeOk pr && decide (width.toNat < 9)
  | .qst pr width _ => wholeOk pr && [0, 2, 4, 6, 7, 8].contains width.toNat
  | .aad pr _ _ _ _ => wholeOk pr
  | .aswp pr _ _ _ _ => wholeOk pr
  | .acas pr _ _ _ _ => wholeOk pr
  | .amin pr _ _ _ _ => wholeOk pr
  | .amax pr _ _ _ _ => wholeOk pr
  | .aminn pr _ _ _ _ => wholeOk pr
  | .amaxn pr _ _ _ _ => wholeOk pr
  | .aand pr _ _ _ _ => wholeOk pr
  | .aor pr _ _ _ _ => wholeOk pr
  | .axor pr _ _ _ _ => wholeOk pr
  | .fenceAcq pr _ => wholeOk pr
  | .fenceRel pr _ => wholeOk pr
  | .fenceFull pr _ => wholeOk pr
  | .vadd _ _ _ _ => true
  | .vsub _ _ _ _ => true
  | .vmul _ _ _ _ => true
  | .vdiv _ _ _ _ => true
  | .vmin _ _ _ _ => true
  | .vmax _ _ _ _ => true
  | .vabs _ _ _ _ => true
  | .vneg _ _ _ _ => true
  | .vsqrt _ _ _ _ => true
  | .vrcp _ _ _ _ => true
  | .vrsq _ _ _ _ => true
  | .vexp2 _ _ _ _ => true
  | .vlog2 _ _ _ _ => true
  | .vtanh _ _ _ _ => true
  | .vsin _ _ _ _ => true
  | .vcos _ _ _ _ => true
  | .vfloor _ _ _ _ => true
  | .vceil _ _ _ _ => true
  | .vrint _ _ _ _ => true
  | .vclass _ _ _ _ => true
  | .vaddF16 _ _ _ _ => true
  | .vsubF16 _ _ _ _ => true
  | .vmulF16 _ _ _ _ => true
  | .vdivF16 _ _ _ _ => true
  | .vminF16 _ _ _ _ => true
  | .vmaxF16 _ _ _ _ => true
  | .vabsF16 _ _ _ _ => true
  | .vnegF16 _ _ _ _ => true
  | .vsqrtF16 _ _ _ _ => true
  | .vrcpF16 _ _ _ _ => true
  | .vrsqF16 _ _ _ _ => true
  | .vexp2F16 _ _ _ _ => true
  | .vlog2F16 _ _ _ _ => true
  | .vtanhF16 _ _ _ _ => true
  | .vsinF16 _ _ _ _ => true
  | .vcosF16 _ _ _ _ => true
  | .vaddI32 _ _ _ _ => true
  | .vsubI32 _ _ _ _ => true
  | .vmulI32 _ _ _ _ => true
  | .vmulhI32 _ _ _ _ => true
  | .vminI32 _ _ _ _ => true
  | .vmaxI32 _ _ _ _ => true
  | .vabsI32 _ _ _ => true
  | .vnegI32 _ _ _ => true
  | .vandI32 _ _ _ => true
  | .vorI32 _ _ _ => true
  | .vxorI32 _ _ _ => true
  | .vshlI32 _ _ _ _ => true
  | .vshrI32 _ _ _ => true
  | .vsraI32 _ _ _ => true
  | .vaddI16 _ _ _ _ _ => true
  | .vsubI16 _ _ _ _ _ => true
  | .vmulI16 _ _ _ _ _ => true
  | .vmulhI16 _ _ _ _ _ => true
  | .vminI16 _ _ _ _ _ => true
  | .vmaxI16 _ _ _ _ _ => true
  | .vabsI16 _ _ _ _ => true
  | .vnegI16 _ _ _ _ => true
  | .vandI16 _ _ _ _ => true
  | .vorI16 _ _ _ _ => true
  | .vxorI16 _ _ _ _ => true
  | .vshlI16 _ _ _ _ _ => true
  | .vshrI16 _ _ _ _ => true
  | .vsraI16 _ _ _ _ => true
  | .vfma _ _ _ _ => true
  | .vfms _ _ _ _ => true
  | .vnfma _ _ _ _ => true
  | .vnfms _ _ _ _ => true
  | .vcmpEq _ _ _ _ => true
  | .vcmpNe _ _ _ _ => true
  | .vcmpLt _ _ _ _ => true
  | .vcmpLe _ _ _ _ => true
  | .vcvtF32F64 _ _ _ => true
  | .vcvtF64F32 _ _ _ => true
  | .vcvtF16F32 _ _ _ => true
  | .vcvtF32F16 _ _ _ => true
  | .vcvtBf16F32 _ _ _ => true
  | .vcvtF32Bf16 _ _ _ => true
  | .vcvtE4m3F32 _ _ _ => true
  | .vcvtE5m2F32 _ _ _ => true
  | .vcvtE4m3F32Nosat _ _ _ => true
  | .vcvtE5m2F32Nosat _ _ _ => true
  | .vcvtF32E4m3 _ _ _ => true
  | .vcvtF32E5m2 _ _ _ => true
  | .vcvtI32F32 _ _ _ => true
  | .vcvtN32F32 _ _ _ => true
  | .vcvtF32I32 _ _ _ => true
  | .vcvtF32N32 _ _ _ => true
  | .vcvtI64F64 _ _ _ => true
  | .vcvtN64F64 _ _ _ => true
  | .vcvtF64I64 _ _ _ => true
  | .vcvtF64N64 _ _ _ => true
  | .vcvtI16I32 _ _ _ => true
  | .vcvtI8I32 _ _ _ => true
  | .vcvtI32I16 _ _ _ => true
  | .vcvtI32I8 _ _ _ => true
  | .vshuf _ _ _ _ => true
  | .vbcast _ _ _ _ => true
  | .vrot _ _ _ _ => true
  | .viota _ _ _ _ => true
  | .vcomp _ _ _ _ => true
  | .vexpand _ _ _ _ => true
  | .vzip _ _ _ _ => true
  | .vunzip _ _ _ _ => true
  | .vnz _ _ _ _ => true
  | .vnzi _ _ _ _ => true
  | .vins _ _ _ _ => true
  | .vext _ _ _ _ => true
  | .vredAdd _ _ _ _ => true
  | .vredMax _ _ _ _ => true
  | .vredMin _ _ _ _ => true
  | .vredMaxn _ w _ _ => bitAt w 1
  | .vredMinn _ w _ _ => bitAt w 1
  | .vredAnd _ w _ _ => bitAt w 1
  | .vredOr _ w _ _ => bitAt w 1
  | .vredXor _ w _ _ => bitAt w 1
  | .vsel _ _ _ => true
  | .vqhdr _ _ _ => true
  | .vqpk _ _ _ => true
  | .vdq _ _ _ => true
  | .vbaq _ _ _ => true
  | .vbmax _ _ _ => true
  | .vbfmt _ _ _ => true
  | .osmStep _ _ _ => true
  | .osmNorm _ _ _ => true
  | .ctrNew pr _ _ => wholeOk pr
  | .ctrDec pr => wholeOk pr
  | .ctrBind pr => wholeOk pr
  | .ctrSplit pr => wholeOk pr
  | .ctrStat pr _ _ => wholeOk pr
  | .rarm pr => wholeOk pr
  | .invoke pr _ _ => wholeOk pr
  | .invokec pr _ _ => wholeOk pr
  | .fulfil pr => wholeOk pr
  | .brk pr => wholeOk pr
  | .wait pr _ => wholeOk pr
  | .waitSt pr _ => wholeOk pr
  | .send pr _ _ => wholeOk pr
  | .sendw pr _ => wholeOk pr
  | .qnew pr _ _ => wholeOk pr
  | .qbind pr => wholeOk pr
  | .qunbind pr => wholeOk pr
  | .spawn pr => wholeOk pr
  | .launch pr _ _ => wholeOk pr
  | .cpy pr => wholeOk pr
  | .tile pr => wholeOk pr
  | .feedA pr => wholeOk pr
  | .feedB pr => wholeOk pr
  | .mma pr => wholeOk pr
  | .mzero pr => wholeOk pr
  | .mstat pr _ _ => wholeOk pr
  | .trap pr => wholeOk pr
  | .isync pr => wholeOk pr
  | .sysRd pr _ _ => wholeOk pr
  | .sysWr pr => wholeOk pr
  | .cusTake pr _ _ => wholeOk pr
  | .cusResume pr => wholeOk pr
  | .cusGive pr => wholeOk pr
  | .cusBreak pr => wholeOk pr
  | .stnMap pr => wholeOk pr
  | .stnInv pr => wholeOk pr
  | .stnReplay pr => wholeOk pr
  | .lodgeNew pr => wholeOk pr
  | .lodgeEnd pr => wholeOk pr
  | .migrate pr => wholeOk pr
  | .shadowSave pr => wholeOk pr
  | .shadowLoad pr => wholeOk pr
  | .testRun pr => wholeOk pr
  | .statSum pr => wholeOk pr
  | .engineCancel pr => wholeOk pr
  | .blockFetch core slot => coreOk core && slotOk slot
  | .blockAdmission core slot => coreOk core && slotOk slot
  | .blockCommit core slot => coreOk core && slotOk slot
  | .commitWait core slot => coreOk core && slotOk slot
  | .blockStuck core slot => coreOk core && slotOk slot
  | .yieldTimeout core slot => coreOk core && slotOk slot
  | .sleepExpiry core slot => coreOk core && slotOk slot
  | .instructionAged core slot idx => coreOk core && slotOk slot && indexOk idx
  | .favouredSlotMove core cls => coreOk core && below 4 cls
  | .portWordArrival core port => coreOk core && below 5 port
  | .outboundDepart _ => true
  | .homePerform _ => true
  | .responseArrival _ => true
  | .remoteAnswer core slot idx => coreOk core && slotOk slot && below 256 idx
  | .engineUnits core _ => coreOk core
  | .engineEnd core _ => coreOk core
  | .engineChunkStop core _ => coreOk core
  | .leaveGrant die => below 8 die
  | .matrixCommandAccept _ => true
  | .blockStep core => coreOk core
  | .mzeroComplete core => coreOk core
  | .engineStarved core => coreOk core
  | .feedFblockEnter core _ => coreOk core
  | .counterDischarge _ => true
  | .handlerRetry core => coreOk core
  | .bindArrival _ => true
  | .invocationArrival _ => true
  | .claimFulfilment _ => true
  | .claimBreak _ => true
  | .queueMessageArrival _ => true
  | .sendwResend _ => true
  | .claimWaiterPoll _ => true
  | .objectWaiterPoll _ => true
  | .deskDecision => true
  | .launchAged lodging queue => below 256 lodging && below 16 queue
  | .startArrival _ => true
  | .arrivalResend _ => true
  | .ringStart core => coreOk core
  | .stationRequest _ => true
  | .walkComplete _ => true
  | .faultMessageSend station _ => below 64 station
  | .atsTranslationCompletion _ _ _ _ _ => true
  | .pageRequestSend station _ _ => below 64 station
  | .priResponse _ _ code => below 16 code
  | .atsInvalidationRequest _ _ _ _ => true
  | .stationInvalidationAnswer station _ => below 64 station
  | .atomicopCompletion _ _ => true
  | .completionTimeout _ => true
  | .inletLaunch _ _ _ => true
  | .inletWindow _ _ _ => true
  | .inletPost _ _ _ => true
  | .inletCredit _ _ _ => true
  | .inletAgent _ _ _ => true
  | .inletCall _ _ _ => true
  | .inletUnknownKind _ _ _ _ => true
  | .inletRead _ => true
  | .replyEntryWrite lodging queue => below 256 lodging && below 16 queue
  | .flitReceive _ => true
  | .linkFailure link => below 24 link
  | .collectiveEntryPass core coll => coreOk core && below 4096 coll
  | .drainReduction lodging => below 256 lodging
  | .requestHeld _ => true
  | .imageSwap lodging _ => below 256 lodging
  | .lotReadback core store _ => coreOk core && below 4 store
  | .flushMarker lodging _ _ => below 256 lodging
  | .lodgingWatchdog lodging => below 256 lodging
  | .deviceWatchdog lodging => below 256 lodging
  | .lodgeEndComplete lodging => below 256 lodging
  | .trapRecordWrite core slot => coreOk core && slotOk slot
  | .scrubVisit core store _ => coreOk core && below 4 store
  | .unitFailure core _ => coreOk core
  | .statSumRound lodging _ _ => below 256 lodging
  | .firmwareSwitch core => coreOk core
  | .firmwareHandover core slot => coreOk core && slotOk slot
  | .reset => true
  | .spdmRequest _ => true
  | .sessionBindRequest lodging _ _ _ => below 256 lodging
  | .inletWriteDiscarded _ => true
  | .testPatternEnd core _ => coreOk core
  | .migrationResume lodging _ => below 256 lodging
  | .leaveWaitCount core => coreOk core

end Sys2Proof
end

