-- ==== Sys2Proof/Laws/PerInstr.lean ====
section
/-! SUPPORT. Decoding the word of a well-formed instruction gives the instruction back, one lemma per constructor; the part's own
steps have no word. -/

set_option linter.unusedSimpArgs false

namespace Sys2Proof

theorem decodeWord_of_rowOf {w : W32} {r : Row} (h : rowOf w = .ok r) : decodeWord w = .ok (build r w) := by
  unfold decodeWord; rw [h]

theorem rowOf_01 (w : W32) (hz : w ≠ 0) (h : major w = 0x01) : rowOf w = decodeExt w := by
  unfold rowOf; rw [if_neg hz, h]; rfl
theorem rowOf_02 (w : W32) (hz : w ≠ 0) (h : major w = 0x02) : rowOf w = .ok .read := by
  unfold rowOf; rw [if_neg hz, h]; rfl
theorem rowOf_03 (w : W32) (hz : w ≠ 0) (h : major w = 0x03) : rowOf w = if (rReg w).toNat < 5 then .ok .port else .error .registerRange := by
  unfold rowOf; rw [if_neg hz, h]; rfl
theorem rowOf_04 (w : W32) (hz : w ≠ 0) (h : major w = 0x04) : rowOf w = onlyReg w (.ok .write) := by
  unfold rowOf; rw [if_neg hz, h]; rfl
theorem rowOf_05 (w : W32) (hz : w ≠ 0) (h : major w = 0x05) : rowOf w = onlyReg w (if (wReg w).toNat < 4 then .ok .wport else .error .registerRange) := by
  unfold rowOf; rw [if_neg hz, h]; rfl
theorem rowOf_06 (w : W32) (hz : w ≠ 0) (h : major w = 0x06) : rowOf w = onlyXop0 w (wholePr w (.ok .null)) := by
  unfold rowOf; rw [if_neg hz, h]; rfl
theorem rowOf_07 (w : W32) (hz : w ≠ 0) (h : major w = 0x07) : rowOf w = onlyXop0 w (.ok .mov) := by
  unfold rowOf; rw [if_neg hz, h]; rfl
theorem rowOf_08 (w : W32) (hz : w ≠ 0) (h : major w = 0x08) : rowOf w = wholePr w (.ok .bro) := by
  unfold rowOf; rw [if_neg hz, h]; rfl
theorem rowOf_09 (w : W32) (hz : w ≠ 0) (h : major w = 0x09) : rowOf w = wholePr w (.ok .call) := by
  unfold rowOf; rw [if_neg hz, h]; rfl
theorem rowOf_0A (w : W32) (hz : w ≠ 0) (h : major w = 0x0A) : rowOf w = (match (xopT w).toNat with | 0 => wholeNone w (.ok .brc) | 1 => wholeNone w (.ok .ret) | _ => .error .reservedCode) := by
  unfold rowOf; rw [if_neg hz, h]; rfl
theorem rowOf_0B (w : W32) (hz : w ≠ 0) (h : major w = 0x0B) : rowOf w = onlyReg w (wholePr w (.ok .callc)) := by
  unfold rowOf; rw [if_neg hz, h]; rfl
theorem rowOf_0C (w : W32) (hz : w ≠ 0) (h : major w = 0x0C) : rowOf w = onlyXop0 w (wholeNone w (.ok .exit)) := by
  unfold rowOf; rw [if_neg hz, h]; rfl
theorem rowOf_0D (w : W32) (hz : w ≠ 0) (h : major w = 0x0D) : rowOf w = wholePr w (.ok .yield) := by
  unfold rowOf; rw [if_neg hz, h]; rfl
theorem rowOf_0E (w : W32) (hz : w ≠ 0) (h : major w = 0x0E) : rowOf w = onlyXop0 w (wholeNone w (.ok .handoff)) := by
  unfold rowOf; rw [if_neg hz, h]; rfl
theorem rowOf_0F (w : W32) (hz : w ≠ 0) (h : major w = 0x0F) : rowOf w = onlyXop0 w (wholeNone w (.ok .sleep)) := by
  unfold rowOf; rw [if_neg hz, h]; rfl
theorem rowOf_10 (w : W32) (hz : w ≠ 0) (h : major w = 0x10) : rowOf w = decodeAlu w := by
  unfold rowOf; rw [if_neg hz, h]; rfl
theorem rowOf_11 (w : W32) (hz : w ≠ 0) (h : major w = 0x11) : rowOf w = decodeAlu w := by
  unfold rowOf; rw [if_neg hz, h]; rfl
theorem rowOf_12 (w : W32) (hz : w ≠ 0) (h : major w = 0x12) : rowOf w = decodeMulDiv w := by
  unfold rowOf; rw [if_neg hz, h]; rfl
theorem rowOf_13 (w : W32) (hz : w ≠ 0) (h : major w = 0x13) : rowOf w = decodeBits w := by
  unfold rowOf; rw [if_neg hz, h]; rfl
theorem rowOf_14 (w : W32) (hz : w ≠ 0) (h : major w = 0x14) : rowOf w = decodeCompare w := by
  unfold rowOf; rw [if_neg hz, h]; rfl
theorem rowOf_15 (w : W32) (hz : w ≠ 0) (h : major w = 0x15) : rowOf w = decodeMask w := by
  unfold rowOf; rw [if_neg hz, h]; rfl
theorem rowOf_18 (w : W32) (hz : w ≠ 0) (h : major w = 0x18) : rowOf w = decodeImm w := by
  unfold rowOf; rw [if_neg hz, h]; rfl
theorem rowOf_19 (w : W32) (hz : w ≠ 0) (h : major w = 0x19) : rowOf w = decodeImm w := by
  unfold rowOf; rw [if_neg hz, h]; rfl
theorem rowOf_1A (w : W32) (hz : w ≠ 0) (h : major w = 0x1A) : rowOf w = decodeImm w := by
  unfold rowOf; rw [if_neg hz, h]; rfl
theorem rowOf_1B (w : W32) (hz : w ≠ 0) (h : major w = 0x1B) : rowOf w = decodeImm w := by
  unfold rowOf; rw [if_neg hz, h]; rfl
theorem rowOf_1C (w : W32) (hz : w ≠ 0) (h : major w = 0x1C) : rowOf w = decodeImm w := by
  unfold rowOf; rw [if_neg hz, h]; rfl
theorem rowOf_1D (w : W32) (hz : w ≠ 0) (h : major w = 0x1D) : rowOf w = decodeImm w := by
  unfold rowOf; rw [if_neg hz, h]; rfl
theorem rowOf_1E (w : W32) (hz : w ≠ 0) (h : major w = 0x1E) : rowOf w = decodeImm w := by
  unfold rowOf; rw [if_neg hz, h]; rfl
theorem rowOf_1F (w : W32) (hz : w ≠ 0) (h : major w = 0x1F) : rowOf w = decodeImm w := by
  unfold rowOf; rw [if_neg hz, h]; rfl
theorem rowOf_20 (w : W32) (hz : w ≠ 0) (h : major w = 0x20) : rowOf w = decodeImm w := by
  unfold rowOf; rw [if_neg hz, h]; rfl
theorem rowOf_21 (w : W32) (hz : w ≠ 0) (h : major w = 0x21) : rowOf w = decodeImm w := by
  unfold rowOf; rw [if_neg hz, h]; rfl
theorem rowOf_22 (w : W32) (hz : w ≠ 0) (h : major w = 0x22) : rowOf w = decodeImm w := by
  unfold rowOf; rw [if_neg hz, h]; rfl
theorem rowOf_23 (w : W32) (hz : w ≠ 0) (h : major w = 0x23) : rowOf w = decodeImm w := by
  unfold rowOf; rw [if_neg hz, h]; rfl
theorem rowOf_24 (w : W32) (hz : w ≠ 0) (h : major w = 0x24) : rowOf w = decodeImm w := by
  unfold rowOf; rw [if_neg hz, h]; rfl
theorem rowOf_25 (w : W32) (hz : w ≠ 0) (h : major w = 0x25) : rowOf w = decodeImm w := by
  unfold rowOf; rw [if_neg hz, h]; rfl
theorem rowOf_26 (w : W32) (hz : w ≠ 0) (h : major w = 0x26) : rowOf w = decodeImm w := by
  unfold rowOf; rw [if_neg hz, h]; rfl
theorem rowOf_27 (w : W32) (hz : w ≠ 0) (h : major w = 0x27) : rowOf w = decodeImm w := by
  unfold rowOf; rw [if_neg hz, h]; rfl
theorem rowOf_28 (w : W32) (hz : w ≠ 0) (h : major w = 0x28) : rowOf w = decodeCap w := by
  unfold rowOf; rw [if_neg hz, h]; rfl
theorem rowOf_29 (w : W32) (hz : w ≠ 0) (h : major w = 0x29) : rowOf w = .ok .caddi := by
  unfold rowOf; rw [if_neg hz, h]; rfl
theorem rowOf_30 (w : W32) (hz : w ≠ 0) (h : major w = 0x30) : rowOf w = decodeLocal w := by
  unfold rowOf; rw [if_neg hz, h]; rfl
theorem rowOf_31 (w : W32) (hz : w ≠ 0) (h : major w = 0x31) : rowOf w = decodeLocal w := by
  unfold rowOf; rw [if_neg hz, h]; rfl
theorem rowOf_32 (w : W32) (hz : w ≠ 0) (h : major w = 0x32) : rowOf w = decodeLocal w := by
  unfold rowOf; rw [if_neg hz, h]; rfl
theorem rowOf_33 (w : W32) (hz : w ≠ 0) (h : major w = 0x33) : rowOf w = decodeLocal w := by
  unfold rowOf; rw [if_neg hz, h]; rfl
theorem rowOf_34 (w : W32) (hz : w ≠ 0) (h : major w = 0x34) : rowOf w = decodeLocal w := by
  unfold rowOf; rw [if_neg hz, h]; rfl
theorem rowOf_35 (w : W32) (hz : w ≠ 0) (h : major w = 0x35) : rowOf w = decodeLocal w := by
  unfold rowOf; rw [if_neg hz, h]; rfl
theorem rowOf_36 (w : W32) (hz : w ≠ 0) (h : major w = 0x36) : rowOf w = decodeLocal w := by
  unfold rowOf; rw [if_neg hz, h]; rfl
theorem rowOf_37 (w : W32) (hz : w ≠ 0) (h : major w = 0x37) : rowOf w = decodeLocal w := by
  unfold rowOf; rw [if_neg hz, h]; rfl
theorem rowOf_38 (w : W32) (hz : w ≠ 0) (h : major w = 0x38) : rowOf w = decodeLocal w := by
  unfold rowOf; rw [if_neg hz, h]; rfl
theorem rowOf_39 (w : W32) (hz : w ≠ 0) (h : major w = 0x39) : rowOf w = decodeLocal w := by
  unfold rowOf; rw [if_neg hz, h]; rfl
theorem rowOf_3A (w : W32) (hz : w ≠ 0) (h : major w = 0x3A) : rowOf w = decodeLocal w := by
  unfold rowOf; rw [if_neg hz, h]; rfl
theorem rowOf_3B (w : W32) (hz : w ≠ 0) (h : major w = 0x3B) : rowOf w = decodeLocal w := by
  unfold rowOf; rw [if_neg hz, h]; rfl
theorem rowOf_3C (w : W32) (hz : w ≠ 0) (h : major w = 0x3C) : rowOf w = decodeLocal w := by
  unfold rowOf; rw [if_neg hz, h]; rfl
theorem rowOf_3D (w : W32) (hz : w ≠ 0) (h : major w = 0x3D) : rowOf w = decodeLocal w := by
  unfold rowOf; rw [if_neg hz, h]; rfl
theorem rowOf_3E (w : W32) (hz : w ≠ 0) (h : major w = 0x3E) : rowOf w = decodeLocal w := by
  unfold rowOf; rw [if_neg hz, h]; rfl
theorem rowOf_3F (w : W32) (hz : w ≠ 0) (h : major w = 0x3F) : rowOf w = decodeLocal w := by
  unfold rowOf; rw [if_neg hz, h]; rfl
theorem rowOf_40 (w : W32) (hz : w ≠ 0) (h : major w = 0x40) : rowOf w = decodeLocal w := by
  unfold rowOf; rw [if_neg hz, h]; rfl
theorem rowOf_41 (w : W32) (hz : w ≠ 0) (h : major w = 0x41) : rowOf w = wholePr w (decodeQueued w) := by
  unfold rowOf; rw [if_neg hz, h]; rfl
theorem rowOf_42 (w : W32) (hz : w ≠ 0) (h : major w = 0x42) : rowOf w = wholePr w (decodeQueued w) := by
  unfold rowOf; rw [if_neg hz, h]; rfl
theorem rowOf_43 (w : W32) (hz : w ≠ 0) (h : major w = 0x43) : rowOf w = wholePr w (decodeQueued w) := by
  unfold rowOf; rw [if_neg hz, h]; rfl
theorem rowOf_44 (w : W32) (hz : w ≠ 0) (h : major w = 0x44) : rowOf w = decodeFence w := by
  unfold rowOf; rw [if_neg hz, h]; rfl
theorem rowOf_50 (w : W32) (hz : w ≠ 0) (h : major w = 0x50) : rowOf w = decodeFloat w := by
  unfold rowOf; rw [if_neg hz, h]; rfl
theorem rowOf_51 (w : W32) (hz : w ≠ 0) (h : major w = 0x51) : rowOf w = decodeFloat w := by
  unfold rowOf; rw [if_neg hz, h]; rfl
theorem rowOf_52 (w : W32) (hz : w ≠ 0) (h : major w = 0x52) : rowOf w = decodeHalf w := by
  unfold rowOf; rw [if_neg hz, h]; rfl
theorem rowOf_53 (w : W32) (hz : w ≠ 0) (h : major w = 0x53) : rowOf w = decodeInt32 w := by
  unfold rowOf; rw [if_neg hz, h]; rfl
theorem rowOf_54 (w : W32) (hz : w ≠ 0) (h : major w = 0x54) : rowOf w = decodeInt16 w := by
  unfold rowOf; rw [if_neg hz, h]; rfl
theorem rowOf_55 (w : W32) (hz : w ≠ 0) (h : major w = 0x55) : rowOf w = decodeInt16 w := by
  unfold rowOf; rw [if_neg hz, h]; rfl
theorem rowOf_56 (w : W32) (hz : w ≠ 0) (h : major w = 0x56) : rowOf w = decodeFma w := by
  unfold rowOf; rw [if_neg hz, h]; rfl
theorem rowOf_57 (w : W32) (hz : w ≠ 0) (h : major w = 0x57) : rowOf w = decodeVcmp w := by
  unfold rowOf; rw [if_neg hz, h]; rfl
theorem rowOf_58 (w : W32) (hz : w ≠ 0) (h : major w = 0x58) : rowOf w = decodeVcvt w := by
  unfold rowOf; rw [if_neg hz, h]; rfl
theorem rowOf_59 (w : W32) (hz : w ≠ 0) (h : major w = 0x59) : rowOf w = decodePermute w := by
  unfold rowOf; rw [if_neg hz, h]; rfl
theorem rowOf_5A (w : W32) (hz : w ≠ 0) (h : major w = 0x5A) : rowOf w = decodeVred w := by
  unfold rowOf; rw [if_neg hz, h]; rfl
theorem rowOf_5B (w : W32) (hz : w ≠ 0) (h : major w = 0x5B) : rowOf w = onlyXop0 w (.ok .vsel) := by
  unfold rowOf; rw [if_neg hz, h]; rfl
theorem rowOf_5C (w : W32) (hz : w ≠ 0) (h : major w = 0x5C) : rowOf w = decodeFblock w := by
  unfold rowOf; rw [if_neg hz, h]; rfl
theorem rowOf_5D (w : W32) (hz : w ≠ 0) (h : major w = 0x5D) : rowOf w = decodeOsm w := by
  unfold rowOf; rw [if_neg hz, h]; rfl
theorem rowOf_70 (w : W32) (hz : w ≠ 0) (h : major w = 0x70) : rowOf w = decodeCounter w := by
  unfold rowOf; rw [if_neg hz, h]; rfl
theorem rowOf_71 (w : W32) (hz : w ≠ 0) (h : major w = 0x71) : rowOf w = decodeInvoke w := by
  unfold rowOf; rw [if_neg hz, h]; rfl
theorem rowOf_72 (w : W32) (hz : w ≠ 0) (h : major w = 0x72) : rowOf w = decodeSettle w := by
  unfold rowOf; rw [if_neg hz, h]; rfl
theorem rowOf_73 (w : W32) (hz : w ≠ 0) (h : major w = 0x73) : rowOf w = decodeWait w := by
  unfold rowOf; rw [if_neg hz, h]; rfl
theorem rowOf_74 (w : W32) (hz : w ≠ 0) (h : major w = 0x74) : rowOf w = decodeSend w := by
  unfold rowOf; rw [if_neg hz, h]; rfl
theorem rowOf_75 (w : W32) (hz : w ≠ 0) (h : major w = 0x75) : rowOf w = onlyReg w (wholePr w (.ok .sendw)) := by
  unfold rowOf; rw [if_neg hz, h]; rfl
theorem rowOf_76 (w : W32) (hz : w ≠ 0) (h : major w = 0x76) : rowOf w = decodeQueue w := by
  unfold rowOf; rw [if_neg hz, h]; rfl
theorem rowOf_77 (w : W32) (hz : w ≠ 0) (h : major w = 0x77) : rowOf w = decodeSpawn w := by
  unfold rowOf; rw [if_neg hz, h]; rfl
theorem rowOf_78 (w : W32) (hz : w ≠ 0) (h : major w = 0x78) : rowOf w = decodeLaunch w := by
  unfold rowOf; rw [if_neg hz, h]; rfl
theorem rowOf_79 (w : W32) (hz : w ≠ 0) (h : major w = 0x79) : rowOf w = decodeCpy w := by
  unfold rowOf; rw [if_neg hz, h]; rfl
theorem rowOf_7A (w : W32) (hz : w ≠ 0) (h : major w = 0x7A) : rowOf w = decodeTile w := by
  unfold rowOf; rw [if_neg hz, h]; rfl
theorem rowOf_7B (w : W32) (hz : w ≠ 0) (h : major w = 0x7B) : rowOf w = decodeFeed w := by
  unfold rowOf; rw [if_neg hz, h]; rfl
theorem rowOf_7C (w : W32) (hz : w ≠ 0) (h : major w = 0x7C) : rowOf w = decodeMatrix w := by
  unfold rowOf; rw [if_neg hz, h]; rfl
theorem rowOf_7D (w : W32) (hz : w ≠ 0) (h : major w = 0x7D) : rowOf w = decodeSystem w := by
  unfold rowOf; rw [if_neg hz, h]; rfl

namespace Laws.RoundTrip

/-- Decoding what `encode` writes gives the instruction, for a well-formed instruction that has a word. -/
def Statement (i : Instr) : Prop := WellFormed i = true → encode i ≠ 0 → decodeWord (encode i) = .ok i

theorem blockFetch (x0 : Nat) (x1 : Nat) : Statement (.blockFetch x0 x1) := fun _ h => absurd rfl h
theorem blockAdmission (x0 : Nat) (x1 : Nat) : Statement (.blockAdmission x0 x1) := fun _ h => absurd rfl h
theorem blockCommit (x0 : Nat) (x1 : Nat) : Statement (.blockCommit x0 x1) := fun _ h => absurd rfl h
theorem commitWait (x0 : Nat) (x1 : Nat) : Statement (.commitWait x0 x1) := fun _ h => absurd rfl h
theorem blockStuck (x0 : Nat) (x1 : Nat) : Statement (.blockStuck x0 x1) := fun _ h => absurd rfl h
theorem yieldTimeout (x0 : Nat) (x1 : Nat) : Statement (.yieldTimeout x0 x1) := fun _ h => absurd rfl h
theorem sleepExpiry (x0 : Nat) (x1 : Nat) : Statement (.sleepExpiry x0 x1) := fun _ h => absurd rfl h
theorem instructionAged (x0 : Nat) (x1 : Nat) (x2 : Nat) : Statement (.instructionAged x0 x1 x2) := fun _ h => absurd rfl h
theorem favouredSlotMove (x0 : Nat) (x1 : Nat) : Statement (.favouredSlotMove x0 x1) := fun _ h => absurd rfl h
theorem portWordArrival (x0 : Nat) (x1 : Nat) : Statement (.portWordArrival x0 x1) := fun _ h => absurd rfl h
theorem outboundDepart (x0 : Nat) : Statement (.outboundDepart x0) := fun _ h => absurd rfl h
theorem homePerform (x0 : Nat) : Statement (.homePerform x0) := fun _ h => absurd rfl h
theorem responseArrival (x0 : Nat) : Statement (.responseArrival x0) := fun _ h => absurd rfl h
theorem remoteAnswer (x0 : Nat) (x1 : Nat) (x2 : Nat) : Statement (.remoteAnswer x0 x1 x2) := fun _ h => absurd rfl h
theorem engineUnits (x0 : Nat) (x1 : Nat) : Statement (.engineUnits x0 x1) := fun _ h => absurd rfl h
theorem engineEnd (x0 : Nat) (x1 : Nat) : Statement (.engineEnd x0 x1) := fun _ h => absurd rfl h
theorem engineChunkStop (x0 : Nat) (x1 : Nat) : Statement (.engineChunkStop x0 x1) := fun _ h => absurd rfl h
theorem leaveGrant (x0 : Nat) : Statement (.leaveGrant x0) := fun _ h => absurd rfl h
theorem matrixCommandAccept (x0 : Nat) : Statement (.matrixCommandAccept x0) := fun _ h => absurd rfl h
theorem blockStep (x0 : Nat) : Statement (.blockStep x0) := fun _ h => absurd rfl h
theorem mzeroComplete (x0 : Nat) : Statement (.mzeroComplete x0) := fun _ h => absurd rfl h
theorem engineStarved (x0 : Nat) : Statement (.engineStarved x0) := fun _ h => absurd rfl h
theorem feedFblockEnter (x0 : Nat) (x1 : Bool) : Statement (.feedFblockEnter x0 x1) := fun _ h => absurd rfl h
theorem counterDischarge (x0 : Nat) : Statement (.counterDischarge x0) := fun _ h => absurd rfl h
theorem handlerRetry (x0 : Nat) : Statement (.handlerRetry x0) := fun _ h => absurd rfl h
theorem bindArrival (x0 : Nat) : Statement (.bindArrival x0) := fun _ h => absurd rfl h
theorem invocationArrival (x0 : Nat) : Statement (.invocationArrival x0) := fun _ h => absurd rfl h
theorem claimFulfilment (x0 : Nat) : Statement (.claimFulfilment x0) := fun _ h => absurd rfl h
theorem claimBreak (x0 : Nat) : Statement (.claimBreak x0) := fun _ h => absurd rfl h
theorem queueMessageArrival (x0 : Nat) : Statement (.queueMessageArrival x0) := fun _ h => absurd rfl h
theorem sendwResend (x0 : Nat) : Statement (.sendwResend x0) := fun _ h => absurd rfl h
theorem claimWaiterPoll (x0 : Nat) : Statement (.claimWaiterPoll x0) := fun _ h => absurd rfl h
theorem objectWaiterPoll (x0 : Nat) : Statement (.objectWaiterPoll x0) := fun _ h => absurd rfl h
theorem deskDecision : Statement (.deskDecision) := fun _ h => absurd rfl h
theorem launchAged (x0 : Nat) (x1 : Nat) : Statement (.launchAged x0 x1) := fun _ h => absurd rfl h
theorem startArrival (x0 : Nat) : Statement (.startArrival x0) := fun _ h => absurd rfl h
theorem arrivalResend (x0 : Nat) : Statement (.arrivalResend x0) := fun _ h => absurd rfl h
theorem ringStart (x0 : Nat) : Statement (.ringStart x0) := fun _ h => absurd rfl h
theorem stationRequest (x0 : Nat) : Statement (.stationRequest x0) := fun _ h => absurd rfl h
theorem walkComplete (x0 : Nat) : Statement (.walkComplete x0) := fun _ h => absurd rfl h
theorem faultMessageSend (x0 : Nat) (x1 : Nat) : Statement (.faultMessageSend x0 x1) := fun _ h => absurd rfl h
theorem atsTranslationCompletion (x0 : Nat) (x1 : Nat) (x2 : Nat) (x3 : Bool) (x4 : Bool) : Statement (.atsTranslationCompletion x0 x1 x2 x3 x4) := fun _ h => absurd rfl h
theorem pageRequestSend (x0 : Nat) (x1 : Nat) (x2 : Nat) : Statement (.pageRequestSend x0 x1 x2) := fun _ h => absurd rfl h
theorem priResponse (x0 : Nat) (x1 : Nat) (x2 : Nat) : Statement (.priResponse x0 x1 x2) := fun _ h => absurd rfl h
theorem atsInvalidationRequest (x0 : Nat) (x1 : Nat) (x2 : Nat) (x3 : Nat) : Statement (.atsInvalidationRequest x0 x1 x2 x3) := fun _ h => absurd rfl h
theorem stationInvalidationAnswer (x0 : Nat) (x1 : Nat) : Statement (.stationInvalidationAnswer x0 x1) := fun _ h => absurd rfl h
theorem atomicopCompletion (x0 : Nat) (x1 : Bool) : Statement (.atomicopCompletion x0 x1) := fun _ h => absurd rfl h
theorem completionTimeout (x0 : Nat) : Statement (.completionTimeout x0) := fun _ h => absurd rfl h
theorem inletLaunch (x0 : Nat) (x1 : Nat) (x2 : BitVec 320) : Statement (.inletLaunch x0 x1 x2) := fun _ h => absurd rfl h
theorem inletWindow (x0 : Nat) (x1 : Nat) (x2 : BitVec 320) : Statement (.inletWindow x0 x1 x2) := fun _ h => absurd rfl h
theorem inletPost (x0 : Nat) (x1 : Nat) (x2 : BitVec 320) : Statement (.inletPost x0 x1 x2) := fun _ h => absurd rfl h
theorem inletCredit (x0 : Nat) (x1 : Nat) (x2 : BitVec 320) : Statement (.inletCredit x0 x1 x2) := fun _ h => absurd rfl h
theorem inletAgent (x0 : Nat) (x1 : Nat) (x2 : BitVec 320) : Statement (.inletAgent x0 x1 x2) := fun _ h => absurd rfl h
theorem inletCall (x0 : Nat) (x1 : Nat) (x2 : BitVec 320) : Statement (.inletCall x0 x1 x2) := fun _ h => absurd rfl h
theorem inletUnknownKind (x0 : Nat) (x1 : Nat) (x2 : BitVec 8) (x3 : BitVec 320) : Statement (.inletUnknownKind x0 x1 x2 x3) := fun _ h => absurd rfl h
theorem inletRead (x0 : Nat) : Statement (.inletRead x0) := fun _ h => absurd rfl h
theorem replyEntryWrite (x0 : Nat) (x1 : Nat) : Statement (.replyEntryWrite x0 x1) := fun _ h => absurd rfl h
theorem flitReceive (x0 : Flit) : Statement (.flitReceive x0) := fun _ h => absurd rfl h
theorem linkFailure (x0 : Nat) : Statement (.linkFailure x0) := fun _ h => absurd rfl h
theorem collectiveEntryPass (x0 : Nat) (x1 : Nat) : Statement (.collectiveEntryPass x0 x1) := fun _ h => absurd rfl h
theorem drainReduction (x0 : Nat) : Statement (.drainReduction x0) := fun _ h => absurd rfl h
theorem requestHeld (x0 : Nat) : Statement (.requestHeld x0) := fun _ h => absurd rfl h
theorem imageSwap (x0 : Nat) (x1 : Nat) : Statement (.imageSwap x0 x1) := fun _ h => absurd rfl h
theorem lotReadback (x0 : Nat) (x1 : Nat) (x2 : Nat) : Statement (.lotReadback x0 x1 x2) := fun _ h => absurd rfl h
theorem flushMarker (x0 : Nat) (x1 : Nat) (x2 : Nat) : Statement (.flushMarker x0 x1 x2) := fun _ h => absurd rfl h
theorem lodgingWatchdog (x0 : Nat) : Statement (.lodgingWatchdog x0) := fun _ h => absurd rfl h
theorem deviceWatchdog (x0 : Nat) : Statement (.deviceWatchdog x0) := fun _ h => absurd rfl h
theorem lodgeEndComplete (x0 : Nat) : Statement (.lodgeEndComplete x0) := fun _ h => absurd rfl h
theorem trapRecordWrite (x0 : Nat) (x1 : Nat) : Statement (.trapRecordWrite x0 x1) := fun _ h => absurd rfl h
theorem scrubVisit (x0 : Nat) (x1 : Nat) (x2 : Nat) : Statement (.scrubVisit x0 x1 x2) := fun _ h => absurd rfl h
theorem unitFailure (x0 : Nat) (x1 : Nat) : Statement (.unitFailure x0 x1) := fun _ h => absurd rfl h
theorem statSumRound (x0 : Nat) (x1 : Nat) (x2 : Nat) : Statement (.statSumRound x0 x1 x2) := fun _ h => absurd rfl h
theorem firmwareSwitch (x0 : Nat) : Statement (.firmwareSwitch x0) := fun _ h => absurd rfl h
theorem firmwareHandover (x0 : Nat) (x1 : Nat) : Statement (.firmwareHandover x0 x1) := fun _ h => absurd rfl h
theorem reset : Statement (.reset) := fun _ h => absurd rfl h
theorem spdmRequest (x0 : Nat) : Statement (.spdmRequest x0) := fun _ h => absurd rfl h
theorem sessionBindRequest (x0 : Nat) (x1 : Nat) (x2 : W32) (x3 : W32) : Statement (.sessionBindRequest x0 x1 x2 x3) := fun _ h => absurd rfl h
theorem inletWriteDiscarded (x0 : Nat) : Statement (.inletWriteDiscarded x0) := fun _ h => absurd rfl h
theorem testPatternEnd (x0 : Nat) (x1 : Bool) : Statement (.testPatternEnd x0 x1) := fun _ h => absurd rfl h
theorem migrationResume (x0 : Nat) (x1 : Nat) : Statement (.migrationResume x0 x1) := fun _ h => absurd rfl h
theorem leaveWaitCount (x0 : Nat) : Statement (.leaveWaitCount x0) := fun _ h => absurd rfl h
theorem extWide (payload : BitVec 23) : Statement (.extWide payload) := by
  intro _ _
  show decodeWord (mkX 0 payload) = _
  refine (decodeWord_of_rowOf (r := .extWide) ((rowOf_01 _ (mkX_ne_zero _ _) (major_mkX ..)).trans ?_)).trans (congrArg Except.ok ?_)
  · simp [decodeExt, wholePr, wholeNone, onlyXop0, onlyReg, bits_payload_mkX, bitsAt_ofNat]
  · show Instr.extWide _ = _
    simp [bits_payload_mkX, bitsAt_ofNat]
theorem extHint (long : BitVec 1) (cls : BitVec 3) : Statement (.extHint long cls) := by
  intro hw _
  change (decide (cls.toNat < 4)) = true at hw
  simp at hw
  show decodeWord (mkX 1 ((0 : BitVec 19) ++ long ++ cls)) = _
  refine (decodeWord_of_rowOf (r := .extHint) ((rowOf_01 _ (mkX_ne_zero _ _) (major_mkX ..)).trans ?_)).trans (congrArg Except.ok ?_)
  · rcases bv1_cases long with rfl | rfl <;> rcases bv3_cases cls with rfl | rfl | rfl | rfl | rfl | rfl | rfl | rfl <;> first | exact absurd hw (by decide) | simp [decodeExt, wholePr, wholeNone, onlyXop0, onlyReg, bits_payload_mkX, bitsAt_ofNat, hw]
  · show Instr.extHint _ _ = _
    rcases bv1_cases long with rfl | rfl <;> rcases bv3_cases cls with rfl | rfl | rfl | rfl | rfl | rfl | rfl | rfl <;> simp [bits_payload_mkX, bitsAt_ofNat]
theorem extModifier (scope : BitVec 2) (sat : BitVec 1) (round : BitVec 3) : Statement (.extModifier scope sat round) := by
  intro hw _
  change (decide (round.toNat < 6)) = true at hw
  simp at hw
  show decodeWord (mkX 2 ((0 : BitVec 17) ++ scope ++ sat ++ round)) = _
  refine (decodeWord_of_rowOf (r := .extModifier) ((rowOf_01 _ (mkX_ne_zero _ _) (major_mkX ..)).trans ?_)).trans (congrArg Except.ok ?_)
  · rcases bv2_cases scope with rfl | rfl | rfl | rfl <;> rcases bv1_cases sat with rfl | rfl <;> rcases bv3_cases round with rfl | rfl | rfl | rfl | rfl | rfl | rfl | rfl <;> first | exact absurd hw (by decide) | simp [decodeExt, wholePr, wholeNone, onlyXop0, onlyReg, bits_payload_mkX, bitsAt_ofNat, hw]
  · show Instr.extModifier _ _ _ = _
    rcases bv2_cases scope with rfl | rfl | rfl | rfl <;> rcases bv1_cases sat with rfl | rfl <;> rcases bv3_cases round with rfl | rfl | rfl | rfl | rfl | rfl | rfl | rfl <;> simp [bits_payload_mkX, bitsAt_ofNat]
theorem read (e : BitVec 1) (reg : BitVec 6) (t1 : BitVec 9) (t0 : BitVec 9) : Statement (.read e reg t1 t0) := by
  intro _ _
  show decodeWord (mkR 0x02 e reg t1 t0) = _
  refine (decodeWord_of_rowOf (r := .read) ((rowOf_02 _ (mkR_ne_zero _ _ _ _ _ (by decide)) (major_mkR ..)).trans ?_)).trans (congrArg Except.ok ?_)
  · simp [wholePr, wholeNone, onlyXop0, onlyReg, bitsAt_ofNat]
  · show Instr.read _ _ _ _ = _
    simp [bitsAt_ofNat]
theorem port (e : BitVec 1) (reg : BitVec 6) (t1 : BitVec 9) (t0 : BitVec 9) : Statement (.port e reg t1 t0) := by
  intro hw _
  change (decide (reg.toNat < 5)) = true at hw
  simp at hw
  show decodeWord (mkR 0x03 e reg t1 t0) = _
  refine (decodeWord_of_rowOf (r := .port) ((rowOf_03 _ (mkR_ne_zero _ _ _ _ _ (by decide)) (major_mkR ..)).trans ?_)).trans (congrArg Except.ok ?_)
  · simp [wholePr, wholeNone, onlyXop0, onlyReg, bitsAt_ofNat, hw]
  · show Instr.port _ _ _ _ = _
    simp [bitsAt_ofNat]
theorem write (pr : BitVec 2) (reg : BitVec 6) : Statement (.write pr reg) := by
  intro _ _
  show decodeWord (mkW 0x04 pr reg 0 0) = _
  refine (decodeWord_of_rowOf (r := .write) ((rowOf_04 _ (mkW_ne_zero _ _ _ _ _ (by decide)) (major_mkW ..)).trans ?_)).trans (congrArg Except.ok ?_)
  · simp [wholePr, wholeNone, onlyXop0, onlyReg, bitsAt_ofNat]
  · show Instr.write _ _ = _
    simp [bitsAt_ofNat]
theorem wport (pr : BitVec 2) (reg : BitVec 6) : Statement (.wport pr reg) := by
  intro hw _
  change (decide (reg.toNat < 4)) = true at hw
  simp at hw
  show decodeWord (mkW 0x05 pr reg 0 0) = _
  refine (decodeWord_of_rowOf (r := .wport) ((rowOf_05 _ (mkW_ne_zero _ _ _ _ _ (by decide)) (major_mkW ..)).trans ?_)).trans (congrArg Except.ok ?_)
  · simp [wholePr, wholeNone, onlyXop0, onlyReg, bitsAt_ofNat, hw]
  · show Instr.wport _ _ = _
    simp [bitsAt_ofNat]
theorem null (pr : BitVec 2) (t1 : BitVec 9) (t0 : BitVec 9) : Statement (.null pr t1 t0) := by
  intro hw _
  change (wholeOk pr) = true at hw
  simp [wholeOk, below] at hw
  show decodeWord (mkT 0x06 pr 0 t1 t0) = _
  refine (decodeWord_of_rowOf (r := .null) ((rowOf_06 _ (mkT_ne_zero _ _ _ _ _ (by decide)) (major_mkT ..)).trans ?_)).trans (congrArg Except.ok ?_)
  · simp [wholePr, wholeNone, onlyXop0, onlyReg, bits_xop_mkT, bits_op_mkT, bitsAt_ofNat, hw]
  · show Instr.null _ _ _ = _
    simp [bits_xop_mkT, bits_op_mkT, bitsAt_ofNat]
theorem mov (pr : BitVec 2) (t1 : BitVec 9) (t0 : BitVec 9) : Statement (.mov pr t1 t0) := by
  intro _ _
  show decodeWord (mkT 0x07 pr 0 t1 t0) = _
  refine (decodeWord_of_rowOf (r := .mov) ((rowOf_07 _ (mkT_ne_zero _ _ _ _ _ (by decide)) (major_mkT ..)).trans ?_)).trans (congrArg Except.ok ?_)
  · simp [wholePr, wholeNone, onlyXop0, onlyReg, bits_xop_mkT, bits_op_mkT, bitsAt_ofNat]
  · show Instr.mov _ _ _ = _
    simp [bits_xop_mkT, bits_op_mkT, bitsAt_ofNat]
theorem bro (pr : BitVec 2) (off : BitVec 23) : Statement (.bro pr off) := by
  intro hw _
  change (wholeOk pr) = true at hw
  simp [wholeOk, below] at hw
  show decodeWord (mkB 0x08 pr off) = _
  refine (decodeWord_of_rowOf (r := .bro) ((rowOf_08 _ (mkB_ne_zero _ _ _ (by decide)) (major_mkB ..)).trans ?_)).trans (congrArg Except.ok ?_)
  · simp [wholePr, wholeNone, onlyXop0, onlyReg, bitsAt_ofNat, hw]
  · show Instr.bro _ _ = _
    simp [bitsAt_ofNat]
theorem call (pr : BitVec 2) (reg : BitVec 6) (off : BitVec 17) : Statement (.call pr reg off) := by
  intro hw _
  change (wholeOk pr) = true at hw
  simp [wholeOk, below] at hw
  show decodeWord (mkBL 0x09 pr reg off) = _
  refine (decodeWord_of_rowOf (r := .call) ((rowOf_09 _ (mkBL_ne_zero _ _ _ _ (by decide)) (major_mkBL ..)).trans ?_)).trans (congrArg Except.ok ?_)
  · simp [wholePr, wholeNone, onlyXop0, onlyReg, bitsAt_ofNat, hw]
  · show Instr.call _ _ _ = _
    simp [bitsAt_ofNat]
theorem brc (pr : BitVec 2) : Statement (.brc pr) := by
  intro hw _
  change (wholeOk pr) = true at hw
  simp [wholeOk, below] at hw
  show decodeWord (mkT 0x0A pr 0 noTarget noTarget) = _
  refine (decodeWord_of_rowOf (r := .brc) ((rowOf_0A _ (mkT_ne_zero _ _ _ _ _ (by decide)) (major_mkT ..)).trans ?_)).trans (congrArg Except.ok ?_)
  · simp [wholePr, wholeNone, onlyXop0, onlyReg, bits_xop_mkT, bits_op_mkT, bitsAt_ofNat, hw]
  · exact congrArg Instr.brc (prOf_mkT ..)
theorem ret (pr : BitVec 2) : Statement (.ret pr) := by
  intro hw _
  change (wholeOk pr) = true at hw
  simp [wholeOk, below] at hw
  show decodeWord (mkT 0x0A pr 1 noTarget noTarget) = _
  refine (decodeWord_of_rowOf (r := .ret) ((rowOf_0A _ (mkT_ne_zero _ _ _ _ _ (by decide)) (major_mkT ..)).trans ?_)).trans (congrArg Except.ok ?_)
  · simp [wholePr, wholeNone, onlyXop0, onlyReg, bits_xop_mkT, bits_op_mkT, bitsAt_ofNat, hw]
  · exact congrArg Instr.ret (prOf_mkT ..)
theorem callc (pr : BitVec 2) (reg : BitVec 6) : Statement (.callc pr reg) := by
  intro hw _
  change (wholeOk pr) = true at hw
  simp [wholeOk, below] at hw
  show decodeWord (mkW 0x0B pr reg 0 0) = _
  refine (decodeWord_of_rowOf (r := .callc) ((rowOf_0B _ (mkW_ne_zero _ _ _ _ _ (by decide)) (major_mkW ..)).trans ?_)).trans (congrArg Except.ok ?_)
  · simp [wholePr, wholeNone, onlyXop0, onlyReg, bitsAt_ofNat, hw]
  · show Instr.callc _ _ = _
    simp [bitsAt_ofNat]
theorem exit (pr : BitVec 2) : Statement (.exit pr) := by
  intro hw _
  change (wholeOk pr) = true at hw
  simp [wholeOk, below] at hw
  show decodeWord (mkT 0x0C pr 0 noTarget noTarget) = _
  refine (decodeWord_of_rowOf (r := .exit) ((rowOf_0C _ (mkT_ne_zero _ _ _ _ _ (by decide)) (major_mkT ..)).trans ?_)).trans (congrArg Except.ok ?_)
  · simp [wholePr, wholeNone, onlyXop0, onlyReg, bits_xop_mkT, bits_op_mkT, bitsAt_ofNat, hw]
  · exact congrArg Instr.exit (prOf_mkT ..)
theorem yield (pr : BitVec 2) (off : BitVec 23) : Statement (.yield pr off) := by
  intro hw _
  change (wholeOk pr) = true at hw
  simp [wholeOk, below] at hw
  show decodeWord (mkB 0x0D pr off) = _
  refine (decodeWord_of_rowOf (r := .yield) ((rowOf_0D _ (mkB_ne_zero _ _ _ (by decide)) (major_mkB ..)).trans ?_)).trans (congrArg Except.ok ?_)
  · simp [wholePr, wholeNone, onlyXop0, onlyReg, bitsAt_ofNat, hw]
  · show Instr.yield _ _ = _
    simp [bitsAt_ofNat]
theorem handoff (pr : BitVec 2) : Statement (.handoff pr) := by
  intro hw _
  change (wholeOk pr) = true at hw
  simp [wholeOk, below] at hw
  show decodeWord (mkT 0x0E pr 0 noTarget noTarget) = _
  refine (decodeWord_of_rowOf (r := .handoff) ((rowOf_0E _ (mkT_ne_zero _ _ _ _ _ (by decide)) (major_mkT ..)).trans ?_)).trans (congrArg Except.ok ?_)
  · simp [wholePr, wholeNone, onlyXop0, onlyReg, bits_xop_mkT, bits_op_mkT, bitsAt_ofNat, hw]
  · exact congrArg Instr.handoff (prOf_mkT ..)
theorem sleep (pr : BitVec 2) : Statement (.sleep pr) := by
  intro hw _
  change (wholeOk pr) = true at hw
  simp [wholeOk, below] at hw
  show decodeWord (mkT 0x0F pr 0 noTarget noTarget) = _
  refine (decodeWord_of_rowOf (r := .sleep) ((rowOf_0F _ (mkT_ne_zero _ _ _ _ _ (by decide)) (major_mkT ..)).trans ?_)).trans (congrArg Except.ok ?_)
  · simp [wholePr, wholeNone, onlyXop0, onlyReg, bits_xop_mkT, bits_op_mkT, bitsAt_ofNat, hw]
  · exact congrArg Instr.sleep (prOf_mkT ..)
theorem add (w : BitVec 1) (pr : BitVec 2) (t1 : BitVec 9) (t0 : BitVec 9) : Statement (.add w pr t1 t0) := by
  intro _ _
  show decodeWord (mkT ((0x08 : BitVec 6) ++ w) pr 0 t1 t0) = _
  rcases bv1_cases w with rfl | rfl
  · refine (decodeWord_of_rowOf (r := .add) ((rowOf_10 _ (mkT_ne_zero _ _ _ _ _ (by decide)) (major_mkT ..)).trans ?_)).trans (congrArg Except.ok ?_)
    · simp [decodeAlu, wholePr, wholeNone, onlyXop0, onlyReg, bits_xop_mkT, bits_op_mkT, bitsAt_ofNat]
    · show Instr.add _ _ _ _ = _
      simp [bits_xop_mkT, bits_op_mkT, bitsAt_ofNat]
  · refine (decodeWord_of_rowOf (r := .add) ((rowOf_11 _ (mkT_ne_zero _ _ _ _ _ (by decide)) (major_mkT ..)).trans ?_)).trans (congrArg Except.ok ?_)
    · simp [decodeAlu, wholePr, wholeNone, onlyXop0, onlyReg, bits_xop_mkT, bits_op_mkT, bitsAt_ofNat]
    · show Instr.add _ _ _ _ = _
      simp [bits_xop_mkT, bits_op_mkT, bitsAt_ofNat]
theorem sub (w : BitVec 1) (pr : BitVec 2) (t1 : BitVec 9) (t0 : BitVec 9) : Statement (.sub w pr t1 t0) := by
  intro _ _
  show decodeWord (mkT ((0x08 : BitVec 6) ++ w) pr 1 t1 t0) = _
  rcases bv1_cases w with rfl | rfl
  · refine (decodeWord_of_rowOf (r := .sub) ((rowOf_10 _ (mkT_ne_zero _ _ _ _ _ (by decide)) (major_mkT ..)).trans ?_)).trans (congrArg Except.ok ?_)
    · simp [decodeAlu, wholePr, wholeNone, onlyXop0, onlyReg, bits_xop_mkT, bits_op_mkT, bitsAt_ofNat]
    · show Instr.sub _ _ _ _ = _
      simp [bits_xop_mkT, bits_op_mkT, bitsAt_ofNat]
  · refine (decodeWord_of_rowOf (r := .sub) ((rowOf_11 _ (mkT_ne_zero _ _ _ _ _ (by decide)) (major_mkT ..)).trans ?_)).trans (congrArg Except.ok ?_)
    · simp [decodeAlu, wholePr, wholeNone, onlyXop0, onlyReg, bits_xop_mkT, bits_op_mkT, bitsAt_ofNat]
    · show Instr.sub _ _ _ _ = _
      simp [bits_xop_mkT, bits_op_mkT, bitsAt_ofNat]
theorem and (w : BitVec 1) (pr : BitVec 2) (t1 : BitVec 9) (t0 : BitVec 9) : Statement (.and w pr t1 t0) := by
  intro _ _
  show decodeWord (mkT ((0x08 : BitVec 6) ++ w) pr 2 t1 t0) = _
  rcases bv1_cases w with rfl | rfl
  · refine (decodeWord_of_rowOf (r := .and) ((rowOf_10 _ (mkT_ne_zero _ _ _ _ _ (by decide)) (major_mkT ..)).trans ?_)).trans (congrArg Except.ok ?_)
    · simp [decodeAlu, wholePr, wholeNone, onlyXop0, onlyReg, bits_xop_mkT, bits_op_mkT, bitsAt_ofNat]
    · show Instr.and _ _ _ _ = _
      simp [bits_xop_mkT, bits_op_mkT, bitsAt_ofNat]
  · refine (decodeWord_of_rowOf (r := .and) ((rowOf_11 _ (mkT_ne_zero _ _ _ _ _ (by decide)) (major_mkT ..)).trans ?_)).trans (congrArg Except.ok ?_)
    · simp [decodeAlu, wholePr, wholeNone, onlyXop0, onlyReg, bits_xop_mkT, bits_op_mkT, bitsAt_ofNat]
    · show Instr.and _ _ _ _ = _
      simp [bits_xop_mkT, bits_op_mkT, bitsAt_ofNat]
theorem or (w : BitVec 1) (pr : BitVec 2) (t1 : BitVec 9) (t0 : BitVec 9) : Statement (.or w pr t1 t0) := by
  intro _ _
  show decodeWord (mkT ((0x08 : BitVec 6) ++ w) pr 3 t1 t0) = _
  rcases bv1_cases w with rfl | rfl
  · refine (decodeWord_of_rowOf (r := .or) ((rowOf_10 _ (mkT_ne_zero _ _ _ _ _ (by decide)) (major_mkT ..)).trans ?_)).trans (congrArg Except.ok ?_)
    · simp [decodeAlu, wholePr, wholeNone, onlyXop0, onlyReg, bits_xop_mkT, bits_op_mkT, bitsAt_ofNat]
    · show Instr.or _ _ _ _ = _
      simp [bits_xop_mkT, bits_op_mkT, bitsAt_ofNat]
  · refine (decodeWord_of_rowOf (r := .or) ((rowOf_11 _ (mkT_ne_zero _ _ _ _ _ (by decide)) (major_mkT ..)).trans ?_)).trans (congrArg Except.ok ?_)
    · simp [decodeAlu, wholePr, wholeNone, onlyXop0, onlyReg, bits_xop_mkT, bits_op_mkT, bitsAt_ofNat]
    · show Instr.or _ _ _ _ = _
      simp [bits_xop_mkT, bits_op_mkT, bitsAt_ofNat]
theorem xor (w : BitVec 1) (pr : BitVec 2) (t1 : BitVec 9) (t0 : BitVec 9) : Statement (.xor w pr t1 t0) := by
  intro _ _
  show decodeWord (mkT ((0x08 : BitVec 6) ++ w) pr 4 t1 t0) = _
  rcases bv1_cases w with rfl | rfl
  · refine (decodeWord_of_rowOf (r := .xor) ((rowOf_10 _ (mkT_ne_zero _ _ _ _ _ (by decide)) (major_mkT ..)).trans ?_)).trans (congrArg Except.ok ?_)
    · simp [decodeAlu, wholePr, wholeNone, onlyXop0, onlyReg, bits_xop_mkT, bits_op_mkT, bitsAt_ofNat]
    · show Instr.xor _ _ _ _ = _
      simp [bits_xop_mkT, bits_op_mkT, bitsAt_ofNat]
  · refine (decodeWord_of_rowOf (r := .xor) ((rowOf_11 _ (mkT_ne_zero _ _ _ _ _ (by decide)) (major_mkT ..)).trans ?_)).trans (congrArg Except.ok ?_)
    · simp [decodeAlu, wholePr, wholeNone, onlyXop0, onlyReg, bits_xop_mkT, bits_op_mkT, bitsAt_ofNat]
    · show Instr.xor _ _ _ _ = _
      simp [bits_xop_mkT, bits_op_mkT, bitsAt_ofNat]
theorem andn (w : BitVec 1) (pr : BitVec 2) (t1 : BitVec 9) (t0 : BitVec 9) : Statement (.andn w pr t1 t0) := by
  intro _ _
  show decodeWord (mkT ((0x08 : BitVec 6) ++ w) pr 5 t1 t0) = _
  rcases bv1_cases w with rfl | rfl
  · refine (decodeWord_of_rowOf (r := .andn) ((rowOf_10 _ (mkT_ne_zero _ _ _ _ _ (by decide)) (major_mkT ..)).trans ?_)).trans (congrArg Except.ok ?_)
    · simp [decodeAlu, wholePr, wholeNone, onlyXop0, onlyReg, bits_xop_mkT, bits_op_mkT, bitsAt_ofNat]
    · show Instr.andn _ _ _ _ = _
      simp [bits_xop_mkT, bits_op_mkT, bitsAt_ofNat]
  · refine (decodeWord_of_rowOf (r := .andn) ((rowOf_11 _ (mkT_ne_zero _ _ _ _ _ (by decide)) (major_mkT ..)).trans ?_)).trans (congrArg Except.ok ?_)
    · simp [decodeAlu, wholePr, wholeNone, onlyXop0, onlyReg, bits_xop_mkT, bits_op_mkT, bitsAt_ofNat]
    · show Instr.andn _ _ _ _ = _
      simp [bits_xop_mkT, bits_op_mkT, bitsAt_ofNat]
theorem shl (w : BitVec 1) (pr : BitVec 2) (t1 : BitVec 9) (t0 : BitVec 9) : Statement (.shl w pr t1 t0) := by
  intro _ _
  show decodeWord (mkT ((0x08 : BitVec 6) ++ w) pr 6 t1 t0) = _
  rcases bv1_cases w with rfl | rfl
  · refine (decodeWord_of_rowOf (r := .shl) ((rowOf_10 _ (mkT_ne_zero _ _ _ _ _ (by decide)) (major_mkT ..)).trans ?_)).trans (congrArg Except.ok ?_)
    · simp [decodeAlu, wholePr, wholeNone, onlyXop0, onlyReg, bits_xop_mkT, bits_op_mkT, bitsAt_ofNat]
    · show Instr.shl _ _ _ _ = _
      simp [bits_xop_mkT, bits_op_mkT, bitsAt_ofNat]
  · refine (decodeWord_of_rowOf (r := .shl) ((rowOf_11 _ (mkT_ne_zero _ _ _ _ _ (by decide)) (major_mkT ..)).trans ?_)).trans (congrArg Except.ok ?_)
    · simp [decodeAlu, wholePr, wholeNone, onlyXop0, onlyReg, bits_xop_mkT, bits_op_mkT, bitsAt_ofNat]
    · show Instr.shl _ _ _ _ = _
      simp [bits_xop_mkT, bits_op_mkT, bitsAt_ofNat]
theorem shr (w : BitVec 1) (pr : BitVec 2) (t1 : BitVec 9) (t0 : BitVec 9) : Statement (.shr w pr t1 t0) := by
  intro _ _
  show decodeWord (mkT ((0x08 : BitVec 6) ++ w) pr 7 t1 t0) = _
  rcases bv1_cases w with rfl | rfl
  · refine (decodeWord_of_rowOf (r := .shr) ((rowOf_10 _ (mkT_ne_zero _ _ _ _ _ (by decide)) (major_mkT ..)).trans ?_)).trans (congrArg Except.ok ?_)
    · simp [decodeAlu, wholePr, wholeNone, onlyXop0, onlyReg, bits_xop_mkT, bits_op_mkT, bitsAt_ofNat]
    · show Instr.shr _ _ _ _ = _
      simp [bits_xop_mkT, bits_op_mkT, bitsAt_ofNat]
  · refine (decodeWord_of_rowOf (r := .shr) ((rowOf_11 _ (mkT_ne_zero _ _ _ _ _ (by decide)) (major_mkT ..)).trans ?_)).trans (congrArg Except.ok ?_)
    · simp [decodeAlu, wholePr, wholeNone, onlyXop0, onlyReg, bits_xop_mkT, bits_op_mkT, bitsAt_ofNat]
    · show Instr.shr _ _ _ _ = _
      simp [bits_xop_mkT, bits_op_mkT, bitsAt_ofNat]
theorem sra (w : BitVec 1) (pr : BitVec 2) (t1 : BitVec 9) (t0 : BitVec 9) : Statement (.sra w pr t1 t0) := by
  intro _ _
  show decodeWord (mkT ((0x08 : BitVec 6) ++ w) pr 8 t1 t0) = _
  rcases bv1_cases w with rfl | rfl
  · refine (decodeWord_of_rowOf (r := .sra) ((rowOf_10 _ (mkT_ne_zero _ _ _ _ _ (by decide)) (major_mkT ..)).trans ?_)).trans (congrArg Except.ok ?_)
    · simp [decodeAlu, wholePr, wholeNone, onlyXop0, onlyReg, bits_xop_mkT, bits_op_mkT, bitsAt_ofNat]
    · show Instr.sra _ _ _ _ = _
      simp [bits_xop_mkT, bits_op_mkT, bitsAt_ofNat]
  · refine (decodeWord_of_rowOf (r := .sra) ((rowOf_11 _ (mkT_ne_zero _ _ _ _ _ (by decide)) (major_mkT ..)).trans ?_)).trans (congrArg Except.ok ?_)
    · simp [decodeAlu, wholePr, wholeNone, onlyXop0, onlyReg, bits_xop_mkT, bits_op_mkT, bitsAt_ofNat]
    · show Instr.sra _ _ _ _ = _
      simp [bits_xop_mkT, bits_op_mkT, bitsAt_ofNat]
theorem rol (w : BitVec 1) (pr : BitVec 2) (t1 : BitVec 9) (t0 : BitVec 9) : Statement (.rol w pr t1 t0) := by
  intro _ _
  show decodeWord (mkT ((0x08 : BitVec 6) ++ w) pr 9 t1 t0) = _
  rcases bv1_cases w with rfl | rfl
  · refine (decodeWord_of_rowOf (r := .rol) ((rowOf_10 _ (mkT_ne_zero _ _ _ _ _ (by decide)) (major_mkT ..)).trans ?_)).trans (congrArg Except.ok ?_)
    · simp [decodeAlu, wholePr, wholeNone, onlyXop0, onlyReg, bits_xop_mkT, bits_op_mkT, bitsAt_ofNat]
    · show Instr.rol _ _ _ _ = _
      simp [bits_xop_mkT, bits_op_mkT, bitsAt_ofNat]
  · refine (decodeWord_of_rowOf (r := .rol) ((rowOf_11 _ (mkT_ne_zero _ _ _ _ _ (by decide)) (major_mkT ..)).trans ?_)).trans (congrArg Except.ok ?_)
    · simp [decodeAlu, wholePr, wholeNone, onlyXop0, onlyReg, bits_xop_mkT, bits_op_mkT, bitsAt_ofNat]
    · show Instr.rol _ _ _ _ = _
      simp [bits_xop_mkT, bits_op_mkT, bitsAt_ofNat]
theorem min (w : BitVec 1) (pr : BitVec 2) (t1 : BitVec 9) (t0 : BitVec 9) : Statement (.min w pr t1 t0) := by
  intro _ _
  show decodeWord (mkT ((0x08 : BitVec 6) ++ w) pr 10 t1 t0) = _
  rcases bv1_cases w with rfl | rfl
  · refine (decodeWord_of_rowOf (r := .min) ((rowOf_10 _ (mkT_ne_zero _ _ _ _ _ (by decide)) (major_mkT ..)).trans ?_)).trans (congrArg Except.ok ?_)
    · simp [decodeAlu, wholePr, wholeNone, onlyXop0, onlyReg, bits_xop_mkT, bits_op_mkT, bitsAt_ofNat]
    · show Instr.min _ _ _ _ = _
      simp [bits_xop_mkT, bits_op_mkT, bitsAt_ofNat]
  · refine (decodeWord_of_rowOf (r := .min) ((rowOf_11 _ (mkT_ne_zero _ _ _ _ _ (by decide)) (major_mkT ..)).trans ?_)).trans (congrArg Except.ok ?_)
    · simp [decodeAlu, wholePr, wholeNone, onlyXop0, onlyReg, bits_xop_mkT, bits_op_mkT, bitsAt_ofNat]
    · show Instr.min _ _ _ _ = _
      simp [bits_xop_mkT, bits_op_mkT, bitsAt_ofNat]
theorem max (w : BitVec 1) (pr : BitVec 2) (t1 : BitVec 9) (t0 : BitVec 9) : Statement (.max w pr t1 t0) := by
  intro _ _
  show decodeWord (mkT ((0x08 : BitVec 6) ++ w) pr 11 t1 t0) = _
  rcases bv1_cases w with rfl | rfl
  · refine (decodeWord_of_rowOf (r := .max) ((rowOf_10 _ (mkT_ne_zero _ _ _ _ _ (by decide)) (major_mkT ..)).trans ?_)).trans (congrArg Except.ok ?_)
    · simp [decodeAlu, wholePr, wholeNone, onlyXop0, onlyReg, bits_xop_mkT, bits_op_mkT, bitsAt_ofNat]
    · show Instr.max _ _ _ _ = _
      simp [bits_xop_mkT, bits_op_mkT, bitsAt_ofNat]
  · refine (decodeWord_of_rowOf (r := .max) ((rowOf_11 _ (mkT_ne_zero _ _ _ _ _ (by decide)) (major_mkT ..)).trans ?_)).trans (congrArg Except.ok ?_)
    · simp [decodeAlu, wholePr, wholeNone, onlyXop0, onlyReg, bits_xop_mkT, bits_op_mkT, bitsAt_ofNat]
    · show Instr.max _ _ _ _ = _
      simp [bits_xop_mkT, bits_op_mkT, bitsAt_ofNat]
theorem minn (w : BitVec 1) (pr : BitVec 2) (t1 : BitVec 9) (t0 : BitVec 9) : Statement (.minn w pr t1 t0) := by
  intro _ _
  show decodeWord (mkT ((0x08 : BitVec 6) ++ w) pr 12 t1 t0) = _
  rcases bv1_cases w with rfl | rfl
  · refine (decodeWord_of_rowOf (r := .minn) ((rowOf_10 _ (mkT_ne_zero _ _ _ _ _ (by decide)) (major_mkT ..)).trans ?_)).trans (congrArg Except.ok ?_)
    · simp [decodeAlu, wholePr, wholeNone, onlyXop0, onlyReg, bits_xop_mkT, bits_op_mkT, bitsAt_ofNat]
    · show Instr.minn _ _ _ _ = _
      simp [bits_xop_mkT, bits_op_mkT, bitsAt_ofNat]
  · refine (decodeWord_of_rowOf (r := .minn) ((rowOf_11 _ (mkT_ne_zero _ _ _ _ _ (by decide)) (major_mkT ..)).trans ?_)).trans (congrArg Except.ok ?_)
    · simp [decodeAlu, wholePr, wholeNone, onlyXop0, onlyReg, bits_xop_mkT, bits_op_mkT, bitsAt_ofNat]
    · show Instr.minn _ _ _ _ = _
      simp [bits_xop_mkT, bits_op_mkT, bitsAt_ofNat]
theorem maxn (w : BitVec 1) (pr : BitVec 2) (t1 : BitVec 9) (t0 : BitVec 9) : Statement (.maxn w pr t1 t0) := by
  intro _ _
  show decodeWord (mkT ((0x08 : BitVec 6) ++ w) pr 13 t1 t0) = _
  rcases bv1_cases w with rfl | rfl
  · refine (decodeWord_of_rowOf (r := .maxn) ((rowOf_10 _ (mkT_ne_zero _ _ _ _ _ (by decide)) (major_mkT ..)).trans ?_)).trans (congrArg Except.ok ?_)
    · simp [decodeAlu, wholePr, wholeNone, onlyXop0, onlyReg, bits_xop_mkT, bits_op_mkT, bitsAt_ofNat]
    · show Instr.maxn _ _ _ _ = _
      simp [bits_xop_mkT, bits_op_mkT, bitsAt_ofNat]
  · refine (decodeWord_of_rowOf (r := .maxn) ((rowOf_11 _ (mkT_ne_zero _ _ _ _ _ (by decide)) (major_mkT ..)).trans ?_)).trans (congrArg Except.ok ?_)
    · simp [decodeAlu, wholePr, wholeNone, onlyXop0, onlyReg, bits_xop_mkT, bits_op_mkT, bitsAt_ofNat]
    · show Instr.maxn _ _ _ _ = _
      simp [bits_xop_mkT, bits_op_mkT, bitsAt_ofNat]
theorem sel (w : BitVec 1) (pr : BitVec 2) (t1 : BitVec 9) (t0 : BitVec 9) : Statement (.sel w pr t1 t0) := by
  intro _ _
  show decodeWord (mkT ((0x08 : BitVec 6) ++ w) pr 14 t1 t0) = _
  rcases bv1_cases w with rfl | rfl
  · refine (decodeWord_of_rowOf (r := .sel) ((rowOf_10 _ (mkT_ne_zero _ _ _ _ _ (by decide)) (major_mkT ..)).trans ?_)).trans (congrArg Except.ok ?_)
    · simp [decodeAlu, wholePr, wholeNone, onlyXop0, onlyReg, bits_xop_mkT, bits_op_mkT, bitsAt_ofNat]
    · show Instr.sel _ _ _ _ = _
      simp [bits_xop_mkT, bits_op_mkT, bitsAt_ofNat]
  · refine (decodeWord_of_rowOf (r := .sel) ((rowOf_11 _ (mkT_ne_zero _ _ _ _ _ (by decide)) (major_mkT ..)).trans ?_)).trans (congrArg Except.ok ?_)
    · simp [decodeAlu, wholePr, wholeNone, onlyXop0, onlyReg, bits_xop_mkT, bits_op_mkT, bitsAt_ofNat]
    · show Instr.sel _ _ _ _ = _
      simp [bits_xop_mkT, bits_op_mkT, bitsAt_ofNat]
theorem mul (pr : BitVec 2) (w : BitVec 1) (t1 : BitVec 9) (t0 : BitVec 9) : Statement (.mul pr w t1 t0) := by
  intro _ _
  show decodeWord (mkT 0x12 pr ((0 : BitVec 1) ++ w ++ (0 : BitVec 3)) t1 t0) = _
  refine (decodeWord_of_rowOf (r := .mul) ((rowOf_12 _ (mkT_ne_zero _ _ _ _ _ (by decide)) (major_mkT ..)).trans ?_)).trans (congrArg Except.ok ?_)
  · rcases bv1_cases w with rfl | rfl <;> simp [decodeMulDiv, wholePr, wholeNone, onlyXop0, onlyReg, bits_xop_mkT, bits_op_mkT, bitsAt_ofNat]
  · show Instr.mul _ _ _ _ = _
    rcases bv1_cases w with rfl | rfl <;> simp [bits_xop_mkT, bits_op_mkT, bitsAt_ofNat]
theorem mulh (pr : BitVec 2) (w : BitVec 1) (t1 : BitVec 9) (t0 : BitVec 9) : Statement (.mulh pr w t1 t0) := by
  intro _ _
  show decodeWord (mkT 0x12 pr ((0 : BitVec 1) ++ w ++ (1 : BitVec 3)) t1 t0) = _
  refine (decodeWord_of_rowOf (r := .mulh) ((rowOf_12 _ (mkT_ne_zero _ _ _ _ _ (by decide)) (major_mkT ..)).trans ?_)).trans (congrArg Except.ok ?_)
  · rcases bv1_cases w with rfl | rfl <;> simp [decodeMulDiv, wholePr, wholeNone, onlyXop0, onlyReg, bits_xop_mkT, bits_op_mkT, bitsAt_ofNat]
  · show Instr.mulh _ _ _ _ = _
    rcases bv1_cases w with rfl | rfl <;> simp [bits_xop_mkT, bits_op_mkT, bitsAt_ofNat]
theorem mulhn (pr : BitVec 2) (w : BitVec 1) (t1 : BitVec 9) (t0 : BitVec 9) : Statement (.mulhn pr w t1 t0) := by
  intro _ _
  show decodeWord (mkT 0x12 pr ((0 : BitVec 1) ++ w ++ (2 : BitVec 3)) t1 t0) = _
  refine (decodeWord_of_rowOf (r := .mulhn) ((rowOf_12 _ (mkT_ne_zero _ _ _ _ _ (by decide)) (major_mkT ..)).trans ?_)).trans (congrArg Except.ok ?_)
  · rcases bv1_cases w with rfl | rfl <;> simp [decodeMulDiv, wholePr, wholeNone, onlyXop0, onlyReg, bits_xop_mkT, bits_op_mkT, bitsAt_ofNat]
  · show Instr.mulhn _ _ _ _ = _
    rcases bv1_cases w with rfl | rfl <;> simp [bits_xop_mkT, bits_op_mkT, bitsAt_ofNat]
theorem div (pr : BitVec 2) (w : BitVec 1) (t1 : BitVec 9) (t0 : BitVec 9) : Statement (.div pr w t1 t0) := by
  intro _ _
  show decodeWord (mkT 0x12 pr ((0 : BitVec 1) ++ w ++ (3 : BitVec 3)) t1 t0) = _
  refine (decodeWord_of_rowOf (r := .div) ((rowOf_12 _ (mkT_ne_zero _ _ _ _ _ (by decide)) (major_mkT ..)).trans ?_)).trans (congrArg Except.ok ?_)
  · rcases bv1_cases w with rfl | rfl <;> simp [decodeMulDiv, wholePr, wholeNone, onlyXop0, onlyReg, bits_xop_mkT, bits_op_mkT, bitsAt_ofNat]
  · show Instr.div _ _ _ _ = _
    rcases bv1_cases w with rfl | rfl <;> simp [bits_xop_mkT, bits_op_mkT, bitsAt_ofNat]
theorem divn (pr : BitVec 2) (w : BitVec 1) (t1 : BitVec 9) (t0 : BitVec 9) : Statement (.divn pr w t1 t0) := by
  intro _ _
  show decodeWord (mkT 0x12 pr ((0 : BitVec 1) ++ w ++ (4 : BitVec 3)) t1 t0) = _
  refine (decodeWord_of_rowOf (r := .divn) ((rowOf_12 _ (mkT_ne_zero _ _ _ _ _ (by decide)) (major_mkT ..)).trans ?_)).trans (congrArg Except.ok ?_)
  · rcases bv1_cases w with rfl | rfl <;> simp [decodeMulDiv, wholePr, wholeNone, onlyXop0, onlyReg, bits_xop_mkT, bits_op_mkT, bitsAt_ofNat]
  · show Instr.divn _ _ _ _ = _
    rcases bv1_cases w with rfl | rfl <;> simp [bits_xop_mkT, bits_op_mkT, bitsAt_ofNat]
theorem rem (pr : BitVec 2) (w : BitVec 1) (t1 : BitVec 9) (t0 : BitVec 9) : Statement (.rem pr w t1 t0) := by
  intro _ _
  show decodeWord (mkT 0x12 pr ((0 : BitVec 1) ++ w ++ (5 : BitVec 3)) t1 t0) = _
  refine (decodeWord_of_rowOf (r := .rem) ((rowOf_12 _ (mkT_ne_zero _ _ _ _ _ (by decide)) (major_mkT ..)).trans ?_)).trans (congrArg Except.ok ?_)
  · rcases bv1_cases w with rfl | rfl <;> simp [decodeMulDiv, wholePr, wholeNone, onlyXop0, onlyReg, bits_xop_mkT, bits_op_mkT, bitsAt_ofNat]
  · show Instr.rem _ _ _ _ = _
    rcases bv1_cases w with rfl | rfl <;> simp [bits_xop_mkT, bits_op_mkT, bitsAt_ofNat]
theorem remn (pr : BitVec 2) (w : BitVec 1) (t1 : BitVec 9) (t0 : BitVec 9) : Statement (.remn pr w t1 t0) := by
  intro _ _
  show decodeWord (mkT 0x12 pr ((0 : BitVec 1) ++ w ++ (6 : BitVec 3)) t1 t0) = _
  refine (decodeWord_of_rowOf (r := .remn) ((rowOf_12 _ (mkT_ne_zero _ _ _ _ _ (by decide)) (major_mkT ..)).trans ?_)).trans (congrArg Except.ok ?_)
  · rcases bv1_cases w with rfl | rfl <;> simp [decodeMulDiv, wholePr, wholeNone, onlyXop0, onlyReg, bits_xop_mkT, bits_op_mkT, bitsAt_ofNat]
  · show Instr.remn _ _ _ _ = _
    rcases bv1_cases w with rfl | rfl <;> simp [bits_xop_mkT, bits_op_mkT, bitsAt_ofNat]
theorem clz (pr : BitVec 2) (t1 : BitVec 9) (t0 : BitVec 9) : Statement (.clz pr t1 t0) := by
  intro _ _
  show decodeWord (mkT 0x13 pr 0 t1 t0) = _
  refine (decodeWord_of_rowOf (r := .clz) ((rowOf_13 _ (mkT_ne_zero _ _ _ _ _ (by decide)) (major_mkT ..)).trans ?_)).trans (congrArg Except.ok ?_)
  · simp [decodeBits, wholePr, wholeNone, onlyXop0, onlyReg, bits_xop_mkT, bits_op_mkT, bitsAt_ofNat]
  · show Instr.clz _ _ _ = _
    simp [bits_xop_mkT, bits_op_mkT, bitsAt_ofNat]
theorem ctz (pr : BitVec 2) (t1 : BitVec 9) (t0 : BitVec 9) : Statement (.ctz pr t1 t0) := by
  intro _ _
  show decodeWord (mkT 0x13 pr 1 t1 t0) = _
  refine (decodeWord_of_rowOf (r := .ctz) ((rowOf_13 _ (mkT_ne_zero _ _ _ _ _ (by decide)) (major_mkT ..)).trans ?_)).trans (congrArg Except.ok ?_)
  · simp [decodeBits, wholePr, wholeNone, onlyXop0, onlyReg, bits_xop_mkT, bits_op_mkT, bitsAt_ofNat]
  · show Instr.ctz _ _ _ = _
    simp [bits_xop_mkT, bits_op_mkT, bitsAt_ofNat]
theorem pop (pr : BitVec 2) (t1 : BitVec 9) (t0 : BitVec 9) : Statement (.pop pr t1 t0) := by
  intro _ _
  show decodeWord (mkT 0x13 pr 2 t1 t0) = _
  refine (decodeWord_of_rowOf (r := .pop) ((rowOf_13 _ (mkT_ne_zero _ _ _ _ _ (by decide)) (major_mkT ..)).trans ?_)).trans (congrArg Except.ok ?_)
  · simp [decodeBits, wholePr, wholeNone, onlyXop0, onlyReg, bits_xop_mkT, bits_op_mkT, bitsAt_ofNat]
  · show Instr.pop _ _ _ = _
    simp [bits_xop_mkT, bits_op_mkT, bitsAt_ofNat]
theorem sext8 (pr : BitVec 2) (t1 : BitVec 9) (t0 : BitVec 9) : Statement (.sext8 pr t1 t0) := by
  intro _ _
  show decodeWord (mkT 0x13 pr 3 t1 t0) = _
  refine (decodeWord_of_rowOf (r := .sext8) ((rowOf_13 _ (mkT_ne_zero _ _ _ _ _ (by decide)) (major_mkT ..)).trans ?_)).trans (congrArg Except.ok ?_)
  · simp [decodeBits, wholePr, wholeNone, onlyXop0, onlyReg, bits_xop_mkT, bits_op_mkT, bitsAt_ofNat]
  · show Instr.sext8 _ _ _ = _
    simp [bits_xop_mkT, bits_op_mkT, bitsAt_ofNat]
theorem sext16 (pr : BitVec 2) (t1 : BitVec 9) (t0 : BitVec 9) : Statement (.sext16 pr t1 t0) := by
  intro _ _
  show decodeWord (mkT 0x13 pr 4 t1 t0) = _
  refine (decodeWord_of_rowOf (r := .sext16) ((rowOf_13 _ (mkT_ne_zero _ _ _ _ _ (by decide)) (major_mkT ..)).trans ?_)).trans (congrArg Except.ok ?_)
  · simp [decodeBits, wholePr, wholeNone, onlyXop0, onlyReg, bits_xop_mkT, bits_op_mkT, bitsAt_ofNat]
  · show Instr.sext16 _ _ _ = _
    simp [bits_xop_mkT, bits_op_mkT, bitsAt_ofNat]
theorem sext32 (pr : BitVec 2) (t1 : BitVec 9) (t0 : BitVec 9) : Statement (.sext32 pr t1 t0) := by
  intro _ _
  show decodeWord (mkT 0x13 pr 5 t1 t0) = _
  refine (decodeWord_of_rowOf (r := .sext32) ((rowOf_13 _ (mkT_ne_zero _ _ _ _ _ (by decide)) (major_mkT ..)).trans ?_)).trans (congrArg Except.ok ?_)
  · simp [decodeBits, wholePr, wholeNone, onlyXop0, onlyReg, bits_xop_mkT, bits_op_mkT, bitsAt_ofNat]
  · show Instr.sext32 _ _ _ = _
    simp [bits_xop_mkT, bits_op_mkT, bitsAt_ofNat]
theorem zext8 (pr : BitVec 2) (t1 : BitVec 9) (t0 : BitVec 9) : Statement (.zext8 pr t1 t0) := by
  intro _ _
  show decodeWord (mkT 0x13 pr 6 t1 t0) = _
  refine (decodeWord_of_rowOf (r := .zext8) ((rowOf_13 _ (mkT_ne_zero _ _ _ _ _ (by decide)) (major_mkT ..)).trans ?_)).trans (congrArg Except.ok ?_)
  · simp [decodeBits, wholePr, wholeNone, onlyXop0, onlyReg, bits_xop_mkT, bits_op_mkT, bitsAt_ofNat]
  · show Instr.zext8 _ _ _ = _
    simp [bits_xop_mkT, bits_op_mkT, bitsAt_ofNat]
theorem zext16 (pr : BitVec 2) (t1 : BitVec 9) (t0 : BitVec 9) : Statement (.zext16 pr t1 t0) := by
  intro _ _
  show decodeWord (mkT 0x13 pr 7 t1 t0) = _
  refine (decodeWord_of_rowOf (r := .zext16) ((rowOf_13 _ (mkT_ne_zero _ _ _ _ _ (by decide)) (major_mkT ..)).trans ?_)).trans (congrArg Except.ok ?_)
  · simp [decodeBits, wholePr, wholeNone, onlyXop0, onlyReg, bits_xop_mkT, bits_op_mkT, bitsAt_ofNat]
  · show Instr.zext16 _ _ _ = _
    simp [bits_xop_mkT, bits_op_mkT, bitsAt_ofNat]
theorem zext32 (pr : BitVec 2) (t1 : BitVec 9) (t0 : BitVec 9) : Statement (.zext32 pr t1 t0) := by
  intro _ _
  show decodeWord (mkT 0x13 pr 8 t1 t0) = _
  refine (decodeWord_of_rowOf (r := .zext32) ((rowOf_13 _ (mkT_ne_zero _ _ _ _ _ (by decide)) (major_mkT ..)).trans ?_)).trans (congrArg Except.ok ?_)
  · simp [decodeBits, wholePr, wholeNone, onlyXop0, onlyReg, bits_xop_mkT, bits_op_mkT, bitsAt_ofNat]
  · show Instr.zext32 _ _ _ = _
    simp [bits_xop_mkT, bits_op_mkT, bitsAt_ofNat]
theorem brev (pr : BitVec 2) (t1 : BitVec 9) (t0 : BitVec 9) : Statement (.brev pr t1 t0) := by
  intro _ _
  show decodeWord (mkT 0x13 pr 9 t1 t0) = _
  refine (decodeWord_of_rowOf (r := .brev) ((rowOf_13 _ (mkT_ne_zero _ _ _ _ _ (by decide)) (major_mkT ..)).trans ?_)).trans (congrArg Except.ok ?_)
  · simp [decodeBits, wholePr, wholeNone, onlyXop0, onlyReg, bits_xop_mkT, bits_op_mkT, bitsAt_ofNat]
  · show Instr.brev _ _ _ = _
    simp [bits_xop_mkT, bits_op_mkT, bitsAt_ofNat]
theorem bswap (pr : BitVec 2) (t1 : BitVec 9) (t0 : BitVec 9) : Statement (.bswap pr t1 t0) := by
  intro _ _
  show decodeWord (mkT 0x13 pr 10 t1 t0) = _
  refine (decodeWord_of_rowOf (r := .bswap) ((rowOf_13 _ (mkT_ne_zero _ _ _ _ _ (by decide)) (major_mkT ..)).trans ?_)).trans (congrArg Except.ok ?_)
  · simp [decodeBits, wholePr, wholeNone, onlyXop0, onlyReg, bits_xop_mkT, bits_op_mkT, bitsAt_ofNat]
  · show Instr.bswap _ _ _ = _
    simp [bits_xop_mkT, bits_op_mkT, bitsAt_ofNat]
theorem teq (pr : BitVec 2) (w : BitVec 1) (t1 : BitVec 9) (t0 : BitVec 9) : Statement (.teq pr w t1 t0) := by
  intro _ _
  show decodeWord (mkT 0x14 pr ((0 : BitVec 1) ++ w ++ (0 : BitVec 3)) t1 t0) = _
  refine (decodeWord_of_rowOf (r := .teq) ((rowOf_14 _ (mkT_ne_zero _ _ _ _ _ (by decide)) (major_mkT ..)).trans ?_)).trans (congrArg Except.ok ?_)
  · rcases bv1_cases w with rfl | rfl <;> simp [decodeCompare, wholePr, wholeNone, onlyXop0, onlyReg, bits_xop_mkT, bits_op_mkT, bitsAt_ofNat]
  · show Instr.teq _ _ _ _ = _
    rcases bv1_cases w with rfl | rfl <;> simp [bits_xop_mkT, bits_op_mkT, bitsAt_ofNat]
theorem tne (pr : BitVec 2) (w : BitVec 1) (t1 : BitVec 9) (t0 : BitVec 9) : Statement (.tne pr w t1 t0) := by
  intro _ _
  show decodeWord (mkT 0x14 pr ((0 : BitVec 1) ++ w ++ (1 : BitVec 3)) t1 t0) = _
  refine (decodeWord_of_rowOf (r := .tne) ((rowOf_14 _ (mkT_ne_zero _ _ _ _ _ (by decide)) (major_mkT ..)).trans ?_)).trans (congrArg Except.ok ?_)
  · rcases bv1_cases w with rfl | rfl <;> simp [decodeCompare, wholePr, wholeNone, onlyXop0, onlyReg, bits_xop_mkT, bits_op_mkT, bitsAt_ofNat]
  · show Instr.tne _ _ _ _ = _
    rcases bv1_cases w with rfl | rfl <;> simp [bits_xop_mkT, bits_op_mkT, bitsAt_ofNat]
theorem tlt (pr : BitVec 2) (w : BitVec 1) (t1 : BitVec 9) (t0 : BitVec 9) : Statement (.tlt pr w t1 t0) := by
  intro _ _
  show decodeWord (mkT 0x14 pr ((0 : BitVec 1) ++ w ++ (2 : BitVec 3)) t1 t0) = _
  refine (decodeWord_of_rowOf (r := .tlt) ((rowOf_14 _ (mkT_ne_zero _ _ _ _ _ (by decide)) (major_mkT ..)).trans ?_)).trans (congrArg Except.ok ?_)
  · rcases bv1_cases w with rfl | rfl <;> simp [decodeCompare, wholePr, wholeNone, onlyXop0, onlyReg, bits_xop_mkT, bits_op_mkT, bitsAt_ofNat]
  · show Instr.tlt _ _ _ _ = _
    rcases bv1_cases w with rfl | rfl <;> simp [bits_xop_mkT, bits_op_mkT, bitsAt_ofNat]
theorem tle (pr : BitVec 2) (w : BitVec 1) (t1 : BitVec 9) (t0 : BitVec 9) : Statement (.tle pr w t1 t0) := by
  intro _ _
  show decodeWord (mkT 0x14 pr ((0 : BitVec 1) ++ w ++ (3 : BitVec 3)) t1 t0) = _
  refine (decodeWord_of_rowOf (r := .tle) ((rowOf_14 _ (mkT_ne_zero _ _ _ _ _ (by decide)) (major_mkT ..)).trans ?_)).trans (congrArg Except.ok ?_)
  · rcases bv1_cases w with rfl | rfl <;> simp [decodeCompare, wholePr, wholeNone, onlyXop0, onlyReg, bits_xop_mkT, bits_op_mkT, bitsAt_ofNat]
  · show Instr.tle _ _ _ _ = _
    rcases bv1_cases w with rfl | rfl <;> simp [bits_xop_mkT, bits_op_mkT, bitsAt_ofNat]
theorem tltn (pr : BitVec 2) (w : BitVec 1) (t1 : BitVec 9) (t0 : BitVec 9) : Statement (.tltn pr w t1 t0) := by
  intro _ _
  show decodeWord (mkT 0x14 pr ((0 : BitVec 1) ++ w ++ (4 : BitVec 3)) t1 t0) = _
  refine (decodeWord_of_rowOf (r := .tltn) ((rowOf_14 _ (mkT_ne_zero _ _ _ _ _ (by decide)) (major_mkT ..)).trans ?_)).trans (congrArg Except.ok ?_)
  · rcases bv1_cases w with rfl | rfl <;> simp [decodeCompare, wholePr, wholeNone, onlyXop0, onlyReg, bits_xop_mkT, bits_op_mkT, bitsAt_ofNat]
  · show Instr.tltn _ _ _ _ = _
    rcases bv1_cases w with rfl | rfl <;> simp [bits_xop_mkT, bits_op_mkT, bitsAt_ofNat]
theorem tlen (pr : BitVec 2) (w : BitVec 1) (t1 : BitVec 9) (t0 : BitVec 9) : Statement (.tlen pr w t1 t0) := by
  intro _ _
  show decodeWord (mkT 0x14 pr ((0 : BitVec 1) ++ w ++ (5 : BitVec 3)) t1 t0) = _
  refine (decodeWord_of_rowOf (r := .tlen) ((rowOf_14 _ (mkT_ne_zero _ _ _ _ _ (by decide)) (major_mkT ..)).trans ?_)).trans (congrArg Except.ok ?_)
  · rcases bv1_cases w with rfl | rfl <;> simp [decodeCompare, wholePr, wholeNone, onlyXop0, onlyReg, bits_xop_mkT, bits_op_mkT, bitsAt_ofNat]
  · show Instr.tlen _ _ _ _ = _
    rcases bv1_cases w with rfl | rfl <;> simp [bits_xop_mkT, bits_op_mkT, bitsAt_ofNat]
theorem tbit (pr : BitVec 2) (t1 : BitVec 9) (t0 : BitVec 9) : Statement (.tbit pr t1 t0) := by
  intro _ _
  show decodeWord (mkT 0x14 pr 6 t1 t0) = _
  refine (decodeWord_of_rowOf (r := .tbit) ((rowOf_14 _ (mkT_ne_zero _ _ _ _ _ (by decide)) (major_mkT ..)).trans ?_)).trans (congrArg Except.ok ?_)
  · simp [decodeCompare, wholePr, wholeNone, onlyXop0, onlyReg, bits_xop_mkT, bits_op_mkT, bitsAt_ofNat]
  · show Instr.tbit _ _ _ = _
    simp [bits_xop_mkT, bits_op_mkT, bitsAt_ofNat]
theorem pand (pr : BitVec 2) (t1 : BitVec 9) (t0 : BitVec 9) : Statement (.pand pr t1 t0) := by
  intro _ _
  show decodeWord (mkT 0x15 pr 0 t1 t0) = _
  refine (decodeWord_of_rowOf (r := .pand) ((rowOf_15 _ (mkT_ne_zero _ _ _ _ _ (by decide)) (major_mkT ..)).trans ?_)).trans (congrArg Except.ok ?_)
  · simp [decodeMask, wholePr, wholeNone, onlyXop0, onlyReg, bits_xop_mkT, bits_op_mkT, bitsAt_ofNat]
  · show Instr.pand _ _ _ = _
    simp [bits_xop_mkT, bits_op_mkT, bitsAt_ofNat]
theorem por (pr : BitVec 2) (t1 : BitVec 9) (t0 : BitVec 9) : Statement (.por pr t1 t0) := by
  intro _ _
  show decodeWord (mkT 0x15 pr 1 t1 t0) = _
  refine (decodeWord_of_rowOf (r := .por) ((rowOf_15 _ (mkT_ne_zero _ _ _ _ _ (by decide)) (major_mkT ..)).trans ?_)).trans (congrArg Except.ok ?_)
  · simp [decodeMask, wholePr, wholeNone, onlyXop0, onlyReg, bits_xop_mkT, bits_op_mkT, bitsAt_ofNat]
  · show Instr.por _ _ _ = _
    simp [bits_xop_mkT, bits_op_mkT, bitsAt_ofNat]
theorem pxor (pr : BitVec 2) (t1 : BitVec 9) (t0 : BitVec 9) : Statement (.pxor pr t1 t0) := by
  intro _ _
  show decodeWord (mkT 0x15 pr 2 t1 t0) = _
  refine (decodeWord_of_rowOf (r := .pxor) ((rowOf_15 _ (mkT_ne_zero _ _ _ _ _ (by decide)) (major_mkT ..)).trans ?_)).trans (congrArg Except.ok ?_)
  · simp [decodeMask, wholePr, wholeNone, onlyXop0, onlyReg, bits_xop_mkT, bits_op_mkT, bitsAt_ofNat]
  · show Instr.pxor _ _ _ = _
    simp [bits_xop_mkT, bits_op_mkT, bitsAt_ofNat]
theorem pnot (pr : BitVec 2) (t1 : BitVec 9) (t0 : BitVec 9) : Statement (.pnot pr t1 t0) := by
  intro _ _
  show decodeWord (mkT 0x15 pr 3 t1 t0) = _
  refine (decodeWord_of_rowOf (r := .pnot) ((rowOf_15 _ (mkT_ne_zero _ _ _ _ _ (by decide)) (major_mkT ..)).trans ?_)).trans (congrArg Except.ok ?_)
  · simp [decodeMask, wholePr, wholeNone, onlyXop0, onlyReg, bits_xop_mkT, bits_op_mkT, bitsAt_ofNat]
  · show Instr.pnot _ _ _ = _
    simp [bits_xop_mkT, bits_op_mkT, bitsAt_ofNat]
theorem pany (pr : BitVec 2) (t1 : BitVec 9) (t0 : BitVec 9) : Statement (.pany pr t1 t0) := by
  intro _ _
  show decodeWord (mkT 0x15 pr 4 t1 t0) = _
  refine (decodeWord_of_rowOf (r := .pany) ((rowOf_15 _ (mkT_ne_zero _ _ _ _ _ (by decide)) (major_mkT ..)).trans ?_)).trans (congrArg Except.ok ?_)
  · simp [decodeMask, wholePr, wholeNone, onlyXop0, onlyReg, bits_xop_mkT, bits_op_mkT, bitsAt_ofNat]
  · show Instr.pany _ _ _ = _
    simp [bits_xop_mkT, bits_op_mkT, bitsAt_ofNat]
theorem pall (pr : BitVec 2) (t1 : BitVec 9) (t0 : BitVec 9) : Statement (.pall pr t1 t0) := by
  intro _ _
  show decodeWord (mkT 0x15 pr 5 t1 t0) = _
  refine (decodeWord_of_rowOf (r := .pall) ((rowOf_15 _ (mkT_ne_zero _ _ _ _ _ (by decide)) (major_mkT ..)).trans ?_)).trans (congrArg Except.ok ?_)
  · simp [decodeMask, wholePr, wholeNone, onlyXop0, onlyReg, bits_xop_mkT, bits_op_mkT, bitsAt_ofNat]
  · show Instr.pall _ _ _ = _
    simp [bits_xop_mkT, bits_op_mkT, bitsAt_ofNat]
theorem pcnt (pr : BitVec 2) (t1 : BitVec 9) (t0 : BitVec 9) : Statement (.pcnt pr t1 t0) := by
  intro _ _
  show decodeWord (mkT 0x15 pr 6 t1 t0) = _
  refine (decodeWord_of_rowOf (r := .pcnt) ((rowOf_15 _ (mkT_ne_zero _ _ _ _ _ (by decide)) (major_mkT ..)).trans ?_)).trans (congrArg Except.ok ?_)
  · simp [decodeMask, wholePr, wholeNone, onlyXop0, onlyReg, bits_xop_mkT, bits_op_mkT, bitsAt_ofNat]
  · show Instr.pcnt _ _ _ = _
    simp [bits_xop_mkT, bits_op_mkT, bitsAt_ofNat]
theorem pfirst (pr : BitVec 2) (t1 : BitVec 9) (t0 : BitVec 9) : Statement (.pfirst pr t1 t0) := by
  intro _ _
  show decodeWord (mkT 0x15 pr 7 t1 t0) = _
  refine (decodeWord_of_rowOf (r := .pfirst) ((rowOf_15 _ (mkT_ne_zero _ _ _ _ _ (by decide)) (major_mkT ..)).trans ?_)).trans (congrArg Except.ok ?_)
  · simp [decodeMask, wholePr, wholeNone, onlyXop0, onlyReg, bits_xop_mkT, bits_op_mkT, bitsAt_ofNat]
  · show Instr.pfirst _ _ _ = _
    simp [bits_xop_mkT, bits_op_mkT, bitsAt_ofNat]
theorem addi (pr : BitVec 2) (imm : BitVec 14) (t0 : BitVec 9) : Statement (.addi pr imm t0) := by
  intro _ _
  show decodeWord (mkI 0x18 pr imm t0) = _
  refine (decodeWord_of_rowOf (r := .addi) ((rowOf_18 _ (mkI_ne_zero _ _ _ _ (by decide)) (major_mkI ..)).trans ?_)).trans (congrArg Except.ok ?_)
  · simp [decodeImm, wholePr, wholeNone, onlyXop0, onlyReg, bitsAt_ofNat]
  · show Instr.addi _ _ _ = _
    simp [bitsAt_ofNat]
theorem addiw (pr : BitVec 2) (imm : BitVec 14) (t0 : BitVec 9) : Statement (.addiw pr imm t0) := by
  intro _ _
  show decodeWord (mkI 0x19 pr imm t0) = _
  refine (decodeWord_of_rowOf (r := .addiw) ((rowOf_19 _ (mkI_ne_zero _ _ _ _ (by decide)) (major_mkI ..)).trans ?_)).trans (congrArg Except.ok ?_)
  · simp [decodeImm, wholePr, wholeNone, onlyXop0, onlyReg, bitsAt_ofNat]
  · show Instr.addiw _ _ _ = _
    simp [bitsAt_ofNat]
theorem andi (pr : BitVec 2) (imm : BitVec 14) (t0 : BitVec 9) : Statement (.andi pr imm t0) := by
  intro _ _
  show decodeWord (mkI 0x1A pr imm t0) = _
  refine (decodeWord_of_rowOf (r := .andi) ((rowOf_1A _ (mkI_ne_zero _ _ _ _ (by decide)) (major_mkI ..)).trans ?_)).trans (congrArg Except.ok ?_)
  · simp [decodeImm, wholePr, wholeNone, onlyXop0, onlyReg, bitsAt_ofNat]
  · show Instr.andi _ _ _ = _
    simp [bitsAt_ofNat]
theorem ori (pr : BitVec 2) (imm : BitVec 14) (t0 : BitVec 9) : Statement (.ori pr imm t0) := by
  intro _ _
  show decodeWord (mkI 0x1B pr imm t0) = _
  refine (decodeWord_of_rowOf (r := .ori) ((rowOf_1B _ (mkI_ne_zero _ _ _ _ (by decide)) (major_mkI ..)).trans ?_)).trans (congrArg Except.ok ?_)
  · simp [decodeImm, wholePr, wholeNone, onlyXop0, onlyReg, bitsAt_ofNat]
  · show Instr.ori _ _ _ = _
    simp [bitsAt_ofNat]
theorem xori (pr : BitVec 2) (imm : BitVec 14) (t0 : BitVec 9) : Statement (.xori pr imm t0) := by
  intro _ _
  show decodeWord (mkI 0x1C pr imm t0) = _
  refine (decodeWord_of_rowOf (r := .xori) ((rowOf_1C _ (mkI_ne_zero _ _ _ _ (by decide)) (major_mkI ..)).trans ?_)).trans (congrArg Except.ok ?_)
  · simp [decodeImm, wholePr, wholeNone, onlyXop0, onlyReg, bitsAt_ofNat]
  · show Instr.xori _ _ _ = _
    simp [bitsAt_ofNat]
theorem shli (pr : BitVec 2) (imm : BitVec 14) (t0 : BitVec 9) : Statement (.shli pr imm t0) := by
  intro hw _
  change (decide (imm.toNat < 64)) = true at hw
  simp at hw
  show decodeWord (mkI 0x1D pr imm t0) = _
  refine (decodeWord_of_rowOf (r := .shli) ((rowOf_1D _ (mkI_ne_zero _ _ _ _ (by decide)) (major_mkI ..)).trans ?_)).trans (congrArg Except.ok ?_)
  · simp [decodeImm, wholePr, wholeNone, onlyXop0, onlyReg, bitsAt_ofNat, hw]
  · show Instr.shli _ _ _ = _
    simp [bitsAt_ofNat]
theorem shri (pr : BitVec 2) (imm : BitVec 14) (t0 : BitVec 9) : Statement (.shri pr imm t0) := by
  intro hw _
  change (decide (imm.toNat < 64)) = true at hw
  simp at hw
  show decodeWord (mkI 0x1E pr imm t0) = _
  refine (decodeWord_of_rowOf (r := .shri) ((rowOf_1E _ (mkI_ne_zero _ _ _ _ (by decide)) (major_mkI ..)).trans ?_)).trans (congrArg Except.ok ?_)
  · simp [decodeImm, wholePr, wholeNone, onlyXop0, onlyReg, bitsAt_ofNat, hw]
  · show Instr.shri _ _ _ = _
    simp [bitsAt_ofNat]
theorem srai (pr : BitVec 2) (imm : BitVec 14) (t0 : BitVec 9) : Statement (.srai pr imm t0) := by
  intro hw _
  change (decide (imm.toNat < 64)) = true at hw
  simp at hw
  show decodeWord (mkI 0x1F pr imm t0) = _
  refine (decodeWord_of_rowOf (r := .srai) ((rowOf_1F _ (mkI_ne_zero _ _ _ _ (by decide)) (major_mkI ..)).trans ?_)).trans (congrArg Except.ok ?_)
  · simp [decodeImm, wholePr, wholeNone, onlyXop0, onlyReg, bitsAt_ofNat, hw]
  · show Instr.srai _ _ _ = _
    simp [bitsAt_ofNat]
theorem muli (pr : BitVec 2) (imm : BitVec 14) (t0 : BitVec 9) : Statement (.muli pr imm t0) := by
  intro _ _
  show decodeWord (mkI 0x20 pr imm t0) = _
  refine (decodeWord_of_rowOf (r := .muli) ((rowOf_20 _ (mkI_ne_zero _ _ _ _ (by decide)) (major_mkI ..)).trans ?_)).trans (congrArg Except.ok ?_)
  · simp [decodeImm, wholePr, wholeNone, onlyXop0, onlyReg, bitsAt_ofNat]
  · show Instr.muli _ _ _ = _
    simp [bitsAt_ofNat]
theorem teqi (pr : BitVec 2) (imm : BitVec 14) (t0 : BitVec 9) : Statement (.teqi pr imm t0) := by
  intro _ _
  show decodeWord (mkI 0x21 pr imm t0) = _
  refine (decodeWord_of_rowOf (r := .teqi) ((rowOf_21 _ (mkI_ne_zero _ _ _ _ (by decide)) (major_mkI ..)).trans ?_)).trans (congrArg Except.ok ?_)
  · simp [decodeImm, wholePr, wholeNone, onlyXop0, onlyReg, bitsAt_ofNat]
  · show Instr.teqi _ _ _ = _
    simp [bitsAt_ofNat]
theorem tnei (pr : BitVec 2) (imm : BitVec 14) (t0 : BitVec 9) : Statement (.tnei pr imm t0) := by
  intro _ _
  show decodeWord (mkI 0x22 pr imm t0) = _
  refine (decodeWord_of_rowOf (r := .tnei) ((rowOf_22 _ (mkI_ne_zero _ _ _ _ (by decide)) (major_mkI ..)).trans ?_)).trans (congrArg Except.ok ?_)
  · simp [decodeImm, wholePr, wholeNone, onlyXop0, onlyReg, bitsAt_ofNat]
  · show Instr.tnei _ _ _ = _
    simp [bitsAt_ofNat]
theorem tlti (pr : BitVec 2) (imm : BitVec 14) (t0 : BitVec 9) : Statement (.tlti pr imm t0) := by
  intro _ _
  show decodeWord (mkI 0x23 pr imm t0) = _
  refine (decodeWord_of_rowOf (r := .tlti) ((rowOf_23 _ (mkI_ne_zero _ _ _ _ (by decide)) (major_mkI ..)).trans ?_)).trans (congrArg Except.ok ?_)
  · simp [decodeImm, wholePr, wholeNone, onlyXop0, onlyReg, bitsAt_ofNat]
  · show Instr.tlti _ _ _ = _
    simp [bitsAt_ofNat]
theorem tlei (pr : BitVec 2) (imm : BitVec 14) (t0 : BitVec 9) : Statement (.tlei pr imm t0) := by
  intro _ _
  show decodeWord (mkI 0x24 pr imm t0) = _
  refine (decodeWord_of_rowOf (r := .tlei) ((rowOf_24 _ (mkI_ne_zero _ _ _ _ (by decide)) (major_mkI ..)).trans ?_)).trans (congrArg Except.ok ?_)
  · simp [decodeImm, wholePr, wholeNone, onlyXop0, onlyReg, bitsAt_ofNat]
  · show Instr.tlei _ _ _ = _
    simp [bitsAt_ofNat]
theorem tltni (pr : BitVec 2) (imm : BitVec 14) (t0 : BitVec 9) : Statement (.tltni pr imm t0) := by
  intro _ _
  show decodeWord (mkI 0x25 pr imm t0) = _
  refine (decodeWord_of_rowOf (r := .tltni) ((rowOf_25 _ (mkI_ne_zero _ _ _ _ (by decide)) (major_mkI ..)).trans ?_)).trans (congrArg Except.ok ?_)
  · simp [decodeImm, wholePr, wholeNone, onlyXop0, onlyReg, bitsAt_ofNat]
  · show Instr.tltni _ _ _ = _
    simp [bitsAt_ofNat]
theorem movi (pr : BitVec 2) (imm : BitVec 14) (t0 : BitVec 9) : Statement (.movi pr imm t0) := by
  intro _ _
  show decodeWord (mkI 0x26 pr imm t0) = _
  refine (decodeWord_of_rowOf (r := .movi) ((rowOf_26 _ (mkI_ne_zero _ _ _ _ (by decide)) (major_mkI ..)).trans ?_)).trans (congrArg Except.ok ?_)
  · simp [decodeImm, wholePr, wholeNone, onlyXop0, onlyReg, bitsAt_ofNat]
  · show Instr.movi _ _ _ = _
    simp [bitsAt_ofNat]
theorem movif (pr : BitVec 2) (imm : BitVec 14) (t0 : BitVec 9) : Statement (.movif pr imm t0) := by
  intro _ _
  show decodeWord (mkI 0x27 pr imm t0) = _
  refine (decodeWord_of_rowOf (r := .movif) ((rowOf_27 _ (mkI_ne_zero _ _ _ _ (by decide)) (major_mkI ..)).trans ?_)).trans (congrArg Except.ok ?_)
  · simp [decodeImm, wholePr, wholeNone, onlyXop0, onlyReg, bitsAt_ofNat]
  · show Instr.movif _ _ _ = _
    simp [bitsAt_ofNat]
theorem cadd (pr : BitVec 2) (t1 : BitVec 9) (t0 : BitVec 9) : Statement (.cadd pr t1 t0) := by
  intro _ _
  show decodeWord (mkT 0x28 pr 0 t1 t0) = _
  refine (decodeWord_of_rowOf (r := .cadd) ((rowOf_28 _ (mkT_ne_zero _ _ _ _ _ (by decide)) (major_mkT ..)).trans ?_)).trans (congrArg Except.ok ?_)
  · simp [decodeCap, wholePr, wholeNone, onlyXop0, onlyReg, bits_xop_mkT, bits_op_mkT, bitsAt_ofNat]
  · show Instr.cadd _ _ _ = _
    simp [bits_xop_mkT, bits_op_mkT, bitsAt_ofNat]
theorem cseta (pr : BitVec 2) (t1 : BitVec 9) (t0 : BitVec 9) : Statement (.cseta pr t1 t0) := by
  intro _ _
  show decodeWord (mkT 0x28 pr 1 t1 t0) = _
  refine (decodeWord_of_rowOf (r := .cseta) ((rowOf_28 _ (mkT_ne_zero _ _ _ _ _ (by decide)) (major_mkT ..)).trans ?_)).trans (congrArg Except.ok ?_)
  · simp [decodeCap, wholePr, wholeNone, onlyXop0, onlyReg, bits_xop_mkT, bits_op_mkT, bitsAt_ofNat]
  · show Instr.cseta _ _ _ = _
    simp [bits_xop_mkT, bits_op_mkT, bitsAt_ofNat]
theorem csetb (pr : BitVec 2) (t1 : BitVec 9) (t0 : BitVec 9) : Statement (.csetb pr t1 t0) := by
  intro _ _
  show decodeWord (mkT 0x28 pr 2 t1 t0) = _
  refine (decodeWord_of_rowOf (r := .csetb) ((rowOf_28 _ (mkT_ne_zero _ _ _ _ _ (by decide)) (major_mkT ..)).trans ?_)).trans (congrArg Except.ok ?_)
  · simp [decodeCap, wholePr, wholeNone, onlyXop0, onlyReg, bits_xop_mkT, bits_op_mkT, bitsAt_ofNat]
  · show Instr.csetb _ _ _ = _
    simp [bits_xop_mkT, bits_op_mkT, bitsAt_ofNat]
theorem csetbx (pr : BitVec 2) (t1 : BitVec 9) (t0 : BitVec 9) : Statement (.csetbx pr t1 t0) := by
  intro _ _
  show decodeWord (mkT 0x28 pr 3 t1 t0) = _
  refine (decodeWord_of_rowOf (r := .csetbx) ((rowOf_28 _ (mkT_ne_zero _ _ _ _ _ (by decide)) (major_mkT ..)).trans ?_)).trans (congrArg Except.ok ?_)
  · simp [decodeCap, wholePr, wholeNone, onlyXop0, onlyReg, bits_xop_mkT, bits_op_mkT, bitsAt_ofNat]
  · show Instr.csetbx _ _ _ = _
    simp [bits_xop_mkT, bits_op_mkT, bitsAt_ofNat]
theorem cperm (pr : BitVec 2) (t1 : BitVec 9) (t0 : BitVec 9) : Statement (.cperm pr t1 t0) := by
  intro _ _
  show decodeWord (mkT 0x28 pr 4 t1 t0) = _
  refine (decodeWord_of_rowOf (r := .cperm) ((rowOf_28 _ (mkT_ne_zero _ _ _ _ _ (by decide)) (major_mkT ..)).trans ?_)).trans (congrArg Except.ok ?_)
  · simp [decodeCap, wholePr, wholeNone, onlyXop0, onlyReg, bits_xop_mkT, bits_op_mkT, bitsAt_ofNat]
  · show Instr.cperm _ _ _ = _
    simp [bits_xop_mkT, bits_op_mkT, bitsAt_ofNat]
theorem cseal (pr : BitVec 2) (t1 : BitVec 9) (t0 : BitVec 9) : Statement (.cseal pr t1 t0) := by
  intro _ _
  show decodeWord (mkT 0x28 pr 5 t1 t0) = _
  refine (decodeWord_of_rowOf (r := .cseal) ((rowOf_28 _ (mkT_ne_zero _ _ _ _ _ (by decide)) (major_mkT ..)).trans ?_)).trans (congrArg Except.ok ?_)
  · simp [decodeCap, wholePr, wholeNone, onlyXop0, onlyReg, bits_xop_mkT, bits_op_mkT, bitsAt_ofNat]
  · show Instr.cseal _ _ _ = _
    simp [bits_xop_mkT, bits_op_mkT, bitsAt_ofNat]
theorem cunseal (pr : BitVec 2) (t1 : BitVec 9) (t0 : BitVec 9) : Statement (.cunseal pr t1 t0) := by
  intro _ _
  show decodeWord (mkT 0x28 pr 6 t1 t0) = _
  refine (decodeWord_of_rowOf (r := .cunseal) ((rowOf_28 _ (mkT_ne_zero _ _ _ _ _ (by decide)) (major_mkT ..)).trans ?_)).trans (congrArg Except.ok ?_)
  · simp [decodeCap, wholePr, wholeNone, onlyXop0, onlyReg, bits_xop_mkT, bits_op_mkT, bitsAt_ofNat]
  · show Instr.cunseal _ _ _ = _
    simp [bits_xop_mkT, bits_op_mkT, bitsAt_ofNat]
theorem cgeta (pr : BitVec 2) (t1 : BitVec 9) (t0 : BitVec 9) : Statement (.cgeta pr t1 t0) := by
  intro _ _
  show decodeWord (mkT 0x28 pr 7 t1 t0) = _
  refine (decodeWord_of_rowOf (r := .cgeta) ((rowOf_28 _ (mkT_ne_zero _ _ _ _ _ (by decide)) (major_mkT ..)).trans ?_)).trans (congrArg Except.ok ?_)
  · simp [decodeCap, wholePr, wholeNone, onlyXop0, onlyReg, bits_xop_mkT, bits_op_mkT, bitsAt_ofNat]
  · show Instr.cgeta _ _ _ = _
    simp [bits_xop_mkT, bits_op_mkT, bitsAt_ofNat]
theorem cgetb (pr : BitVec 2) (t1 : BitVec 9) (t0 : BitVec 9) : Statement (.cgetb pr t1 t0) := by
  intro _ _
  show decodeWord (mkT 0x28 pr 8 t1 t0) = _
  refine (decodeWord_of_rowOf (r := .cgetb) ((rowOf_28 _ (mkT_ne_zero _ _ _ _ _ (by decide)) (major_mkT ..)).trans ?_)).trans (congrArg Except.ok ?_)
  · simp [decodeCap, wholePr, wholeNone, onlyXop0, onlyReg, bits_xop_mkT, bits_op_mkT, bitsAt_ofNat]
  · show Instr.cgetb _ _ _ = _
    simp [bits_xop_mkT, bits_op_mkT, bitsAt_ofNat]
theorem cgetl (pr : BitVec 2) (t1 : BitVec 9) (t0 : BitVec 9) : Statement (.cgetl pr t1 t0) := by
  intro _ _
  show decodeWord (mkT 0x28 pr 9 t1 t0) = _
  refine (decodeWord_of_rowOf (r := .cgetl) ((rowOf_28 _ (mkT_ne_zero _ _ _ _ _ (by decide)) (major_mkT ..)).trans ?_)).trans (congrArg Except.ok ?_)
  · simp [decodeCap, wholePr, wholeNone, onlyXop0, onlyReg, bits_xop_mkT, bits_op_mkT, bitsAt_ofNat]
  · show Instr.cgetl _ _ _ = _
    simp [bits_xop_mkT, bits_op_mkT, bitsAt_ofNat]
theorem cgetp (pr : BitVec 2) (t1 : BitVec 9) (t0 : BitVec 9) : Statement (.cgetp pr t1 t0) := by
  intro _ _
  show decodeWord (mkT 0x28 pr 10 t1 t0) = _
  refine (decodeWord_of_rowOf (r := .cgetp) ((rowOf_28 _ (mkT_ne_zero _ _ _ _ _ (by decide)) (major_mkT ..)).trans ?_)).trans (congrArg Except.ok ?_)
  · simp [decodeCap, wholePr, wholeNone, onlyXop0, onlyReg, bits_xop_mkT, bits_op_mkT, bitsAt_ofNat]
  · show Instr.cgetp _ _ _ = _
    simp [bits_xop_mkT, bits_op_mkT, bitsAt_ofNat]
theorem cgetk (pr : BitVec 2) (t1 : BitVec 9) (t0 : BitVec 9) : Statement (.cgetk pr t1 t0) := by
  intro _ _
  show decodeWord (mkT 0x28 pr 11 t1 t0) = _
  refine (decodeWord_of_rowOf (r := .cgetk) ((rowOf_28 _ (mkT_ne_zero _ _ _ _ _ (by decide)) (major_mkT ..)).trans ?_)).trans (congrArg Except.ok ?_)
  · simp [decodeCap, wholePr, wholeNone, onlyXop0, onlyReg, bits_xop_mkT, bits_op_mkT, bitsAt_ofNat]
  · show Instr.cgetk _ _ _ = _
    simp [bits_xop_mkT, bits_op_mkT, bitsAt_ofNat]
theorem ctagt (pr : BitVec 2) (t1 : BitVec 9) (t0 : BitVec 9) : Statement (.ctagt pr t1 t0) := by
  intro _ _
  show decodeWord (mkT 0x28 pr 12 t1 t0) = _
  refine (decodeWord_of_rowOf (r := .ctagt) ((rowOf_28 _ (mkT_ne_zero _ _ _ _ _ (by decide)) (major_mkT ..)).trans ?_)).trans (congrArg Except.ok ?_)
  · simp [decodeCap, wholePr, wholeNone, onlyXop0, onlyReg, bits_xop_mkT, bits_op_mkT, bitsAt_ofNat]
  · show Instr.ctagt _ _ _ = _
    simp [bits_xop_mkT, bits_op_mkT, bitsAt_ofNat]
theorem csub (pr : BitVec 2) (t1 : BitVec 9) (t0 : BitVec 9) : Statement (.csub pr t1 t0) := by
  intro _ _
  show decodeWord (mkT 0x28 pr 13 t1 t0) = _
  refine (decodeWord_of_rowOf (r := .csub) ((rowOf_28 _ (mkT_ne_zero _ _ _ _ _ (by decide)) (major_mkT ..)).trans ?_)).trans (congrArg Except.ok ?_)
  · simp [decodeCap, wholePr, wholeNone, onlyXop0, onlyReg, bits_xop_mkT, bits_op_mkT, bitsAt_ofNat]
  · show Instr.csub _ _ _ = _
    simp [bits_xop_mkT, bits_op_mkT, bitsAt_ofNat]
theorem ceq (pr : BitVec 2) (t1 : BitVec 9) (t0 : BitVec 9) : Statement (.ceq pr t1 t0) := by
  intro _ _
  show decodeWord (mkT 0x28 pr 14 t1 t0) = _
  refine (decodeWord_of_rowOf (r := .ceq) ((rowOf_28 _ (mkT_ne_zero _ _ _ _ _ (by decide)) (major_mkT ..)).trans ?_)).trans (congrArg Except.ok ?_)
  · simp [decodeCap, wholePr, wholeNone, onlyXop0, onlyReg, bits_xop_mkT, bits_op_mkT, bitsAt_ofNat]
  · show Instr.ceq _ _ _ = _
    simp [bits_xop_mkT, bits_op_mkT, bitsAt_ofNat]
theorem cclr (pr : BitVec 2) (t1 : BitVec 9) (t0 : BitVec 9) : Statement (.cclr pr t1 t0) := by
  intro _ _
  show decodeWord (mkT 0x28 pr 15 t1 t0) = _
  refine (decodeWord_of_rowOf (r := .cclr) ((rowOf_28 _ (mkT_ne_zero _ _ _ _ _ (by decide)) (major_mkT ..)).trans ?_)).trans (congrArg Except.ok ?_)
  · simp [decodeCap, wholePr, wholeNone, onlyXop0, onlyReg, bits_xop_mkT, bits_op_mkT, bitsAt_ofNat]
  · show Instr.cclr _ _ _ = _
    simp [bits_xop_mkT, bits_op_mkT, bitsAt_ofNat]
theorem caddi (pr : BitVec 2) (imm : BitVec 14) (t0 : BitVec 9) : Statement (.caddi pr imm t0) := by
  intro _ _
  show decodeWord (mkI 0x29 pr imm t0) = _
  refine (decodeWord_of_rowOf (r := .caddi) ((rowOf_29 _ (mkI_ne_zero _ _ _ _ (by decide)) (major_mkI ..)).trans ?_)).trans (congrArg Except.ok ?_)
  · simp [wholePr, wholeNone, onlyXop0, onlyReg, bitsAt_ofNat]
  · show Instr.caddi _ _ _ = _
    simp [bitsAt_ofNat]
theorem ldI8 (pr : BitVec 2) (lsid : BitVec 5) (imm : BitVec 9) (t0 : BitVec 9) : Statement (.ldI8 pr lsid imm t0) := by
  intro _ _
  show decodeWord (mkL 0x30 pr lsid imm t0) = _
  refine (decodeWord_of_rowOf (r := .ldI8) ((rowOf_30 _ (mkL_ne_zero _ _ _ _ _ (by decide)) (major_mkL ..)).trans ?_)).trans (congrArg Except.ok ?_)
  · simp [decodeLocal, wholePr, wholeNone, onlyXop0, onlyReg, bitsAt_ofNat]
  · show Instr.ldI8 _ _ _ _ = _
    simp [bitsAt_ofNat]
theorem ldN8 (pr : BitVec 2) (lsid : BitVec 5) (imm : BitVec 9) (t0 : BitVec 9) : Statement (.ldN8 pr lsid imm t0) := by
  intro _ _
  show decodeWord (mkL 0x31 pr lsid imm t0) = _
  refine (decodeWord_of_rowOf (r := .ldN8) ((rowOf_31 _ (mkL_ne_zero _ _ _ _ _ (by decide)) (major_mkL ..)).trans ?_)).trans (congrArg Except.ok ?_)
  · simp [decodeLocal, wholePr, wholeNone, onlyXop0, onlyReg, bitsAt_ofNat]
  · show Instr.ldN8 _ _ _ _ = _
    simp [bitsAt_ofNat]
theorem ldI16 (pr : BitVec 2) (lsid : BitVec 5) (imm : BitVec 9) (t0 : BitVec 9) : Statement (.ldI16 pr lsid imm t0) := by
  intro _ _
  show decodeWord (mkL 0x32 pr lsid imm t0) = _
  refine (decodeWord_of_rowOf (r := .ldI16) ((rowOf_32 _ (mkL_ne_zero _ _ _ _ _ (by decide)) (major_mkL ..)).trans ?_)).trans (congrArg Except.ok ?_)
  · simp [decodeLocal, wholePr, wholeNone, onlyXop0, onlyReg, bitsAt_ofNat]
  · show Instr.ldI16 _ _ _ _ = _
    simp [bitsAt_ofNat]
theorem ldN16 (pr : BitVec 2) (lsid : BitVec 5) (imm : BitVec 9) (t0 : BitVec 9) : Statement (.ldN16 pr lsid imm t0) := by
  intro _ _
  show decodeWord (mkL 0x33 pr lsid imm t0) = _
  refine (decodeWord_of_rowOf (r := .ldN16) ((rowOf_33 _ (mkL_ne_zero _ _ _ _ _ (by decide)) (major_mkL ..)).trans ?_)).trans (congrArg Except.ok ?_)
  · simp [decodeLocal, wholePr, wholeNone, onlyXop0, onlyReg, bitsAt_ofNat]
  · show Instr.ldN16 _ _ _ _ = _
    simp [bitsAt_ofNat]
theorem ldI32 (pr : BitVec 2) (lsid : BitVec 5) (imm : BitVec 9) (t0 : BitVec 9) : Statement (.ldI32 pr lsid imm t0) := by
  intro _ _
  show decodeWord (mkL 0x34 pr lsid imm t0) = _
  refine (decodeWord_of_rowOf (r := .ldI32) ((rowOf_34 _ (mkL_ne_zero _ _ _ _ _ (by decide)) (major_mkL ..)).trans ?_)).trans (congrArg Except.ok ?_)
  · simp [decodeLocal, wholePr, wholeNone, onlyXop0, onlyReg, bitsAt_ofNat]
  · show Instr.ldI32 _ _ _ _ = _
    simp [bitsAt_ofNat]
theorem ldN32 (pr : BitVec 2) (lsid : BitVec 5) (imm : BitVec 9) (t0 : BitVec 9) : Statement (.ldN32 pr lsid imm t0) := by
  intro _ _
  show decodeWord (mkL 0x35 pr lsid imm t0) = _
  refine (decodeWord_of_rowOf (r := .ldN32) ((rowOf_35 _ (mkL_ne_zero _ _ _ _ _ (by decide)) (major_mkL ..)).trans ?_)).trans (congrArg Except.ok ?_)
  · simp [decodeLocal, wholePr, wholeNone, onlyXop0, onlyReg, bitsAt_ofNat]
  · show Instr.ldN32 _ _ _ _ = _
    simp [bitsAt_ofNat]
theorem ld64 (pr : BitVec 2) (lsid : BitVec 5) (imm : BitVec 9) (t0 : BitVec 9) : Statement (.ld64 pr lsid imm t0) := by
  intro _ _
  show decodeWord (mkL 0x36 pr lsid imm t0) = _
  refine (decodeWord_of_rowOf (r := .ld64) ((rowOf_36 _ (mkL_ne_zero _ _ _ _ _ (by decide)) (major_mkL ..)).trans ?_)).trans (congrArg Except.ok ?_)
  · simp [decodeLocal, wholePr, wholeNone, onlyXop0, onlyReg, bitsAt_ofNat]
  · show Instr.ld64 _ _ _ _ = _
    simp [bitsAt_ofNat]
theorem ldv (pr : BitVec 2) (lsid : BitVec 5) (imm : BitVec 9) (t0 : BitVec 9) : Statement (.ldv pr lsid imm t0) := by
  intro _ _
  show decodeWord (mkL 0x37 pr lsid imm t0) = _
  refine (decodeWord_of_rowOf (r := .ldv) ((rowOf_37 _ (mkL_ne_zero _ _ _ _ _ (by decide)) (major_mkL ..)).trans ?_)).trans (congrArg Except.ok ?_)
  · simp [decodeLocal, wholePr, wholeNone, onlyXop0, onlyReg, bitsAt_ofNat]
  · show Instr.ldv _ _ _ _ = _
    simp [bitsAt_ofNat]
theorem ldc (pr : BitVec 2) (lsid : BitVec 5) (imm : BitVec 9) (t0 : BitVec 9) : Statement (.ldc pr lsid imm t0) := by
  intro _ _
  show decodeWord (mkL 0x38 pr lsid imm t0) = _
  refine (decodeWord_of_rowOf (r := .ldc) ((rowOf_38 _ (mkL_ne_zero _ _ _ _ _ (by decide)) (major_mkL ..)).trans ?_)).trans (congrArg Except.ok ?_)
  · simp [decodeLocal, wholePr, wholeNone, onlyXop0, onlyReg, bitsAt_ofNat]
  · show Instr.ldc _ _ _ _ = _
    simp [bitsAt_ofNat]
theorem vgather (pr : BitVec 2) (lsid : BitVec 5) (imm : BitVec 9) (t0 : BitVec 9) : Statement (.vgather pr lsid imm t0) := by
  intro _ _
  show decodeWord (mkL 0x39 pr lsid imm t0) = _
  refine (decodeWord_of_rowOf (r := .vgather) ((rowOf_39 _ (mkL_ne_zero _ _ _ _ _ (by decide)) (major_mkL ..)).trans ?_)).trans (congrArg Except.ok ?_)
  · simp [decodeLocal, wholePr, wholeNone, onlyXop0, onlyReg, bitsAt_ofNat]
  · show Instr.vgather _ _ _ _ = _
    simp [bitsAt_ofNat]
theorem st8 (pr : BitVec 2) (lsid : BitVec 5) (imm : BitVec 18) : Statement (.st8 pr lsid imm) := by
  intro _ _
  show decodeWord (mkS 0x3A pr lsid imm) = _
  refine (decodeWord_of_rowOf (r := .st8) ((rowOf_3A _ (mkS_ne_zero _ _ _ _ (by decide)) (major_mkS ..)).trans ?_)).trans (congrArg Except.ok ?_)
  · simp [decodeLocal, wholePr, wholeNone, onlyXop0, onlyReg, bitsAt_ofNat]
  · show Instr.st8 _ _ _ = _
    simp [bitsAt_ofNat]
theorem st16 (pr : BitVec 2) (lsid : BitVec 5) (imm : BitVec 18) : Statement (.st16 pr lsid imm) := by
  intro _ _
  show decodeWord (mkS 0x3B pr lsid imm) = _
  refine (decodeWord_of_rowOf (r := .st16) ((rowOf_3B _ (mkS_ne_zero _ _ _ _ (by decide)) (major_mkS ..)).trans ?_)).trans (congrArg Except.ok ?_)
  · simp [decodeLocal, wholePr, wholeNone, onlyXop0, onlyReg, bitsAt_ofNat]
  · show Instr.st16 _ _ _ = _
    simp [bitsAt_ofNat]
theorem st32 (pr : BitVec 2) (lsid : BitVec 5) (imm : BitVec 18) : Statement (.st32 pr lsid imm) := by
  intro _ _
  show decodeWord (mkS 0x3C pr lsid imm) = _
  refine (decodeWord_of_rowOf (r := .st32) ((rowOf_3C _ (mkS_ne_zero _ _ _ _ (by decide)) (major_mkS ..)).trans ?_)).trans (congrArg Except.ok ?_)
  · simp [decodeLocal, wholePr, wholeNone, onlyXop0, onlyReg, bitsAt_ofNat]
  · show Instr.st32 _ _ _ = _
    simp [bitsAt_ofNat]
theorem st64 (pr : BitVec 2) (lsid : BitVec 5) (imm : BitVec 18) : Statement (.st64 pr lsid imm) := by
  intro _ _
  show decodeWord (mkS 0x3D pr lsid imm) = _
  refine (decodeWord_of_rowOf (r := .st64) ((rowOf_3D _ (mkS_ne_zero _ _ _ _ (by decide)) (major_mkS ..)).trans ?_)).trans (congrArg Except.ok ?_)
  · simp [decodeLocal, wholePr, wholeNone, onlyXop0, onlyReg, bitsAt_ofNat]
  · show Instr.st64 _ _ _ = _
    simp [bitsAt_ofNat]
theorem stv (pr : BitVec 2) (lsid : BitVec 5) (imm : BitVec 18) : Statement (.stv pr lsid imm) := by
  intro _ _
  show decodeWord (mkS 0x3E pr lsid imm) = _
  refine (decodeWord_of_rowOf (r := .stv) ((rowOf_3E _ (mkS_ne_zero _ _ _ _ (by decide)) (major_mkS ..)).trans ?_)).trans (congrArg Except.ok ?_)
  · simp [decodeLocal, wholePr, wholeNone, onlyXop0, onlyReg, bitsAt_ofNat]
  · show Instr.stv _ _ _ = _
    simp [bitsAt_ofNat]
theorem stc (pr : BitVec 2) (lsid : BitVec 5) (imm : BitVec 18) : Statement (.stc pr lsid imm) := by
  intro _ _
  show decodeWord (mkS 0x3F pr lsid imm) = _
  refine (decodeWord_of_rowOf (r := .stc) ((rowOf_3F _ (mkS_ne_zero _ _ _ _ (by decide)) (major_mkS ..)).trans ?_)).trans (congrArg Except.ok ?_)
  · simp [decodeLocal, wholePr, wholeNone, onlyXop0, onlyReg, bitsAt_ofNat]
  · show Instr.stc _ _ _ = _
    simp [bitsAt_ofNat]
theorem vscatter (pr : BitVec 2) (lsid : BitVec 5) (imm : BitVec 18) : Statement (.vscatter pr lsid imm) := by
  intro _ _
  show decodeWord (mkS 0x40 pr lsid imm) = _
  refine (decodeWord_of_rowOf (r := .vscatter) ((rowOf_40 _ (mkS_ne_zero _ _ _ _ (by decide)) (major_mkS ..)).trans ?_)).trans (congrArg Except.ok ?_)
  · simp [decodeLocal, wholePr, wholeNone, onlyXop0, onlyReg, bitsAt_ofNat]
  · show Instr.vscatter _ _ _ = _
    simp [bitsAt_ofNat]
theorem qld (pr : BitVec 2) (reg : BitVec 6) (width : BitVec 5) (off : BitVec 12) : Statement (.qld pr reg width off) := by
  intro hw _
  change (wholeOk pr && decide (width.toNat < 9)) = true at hw
  simp [wholeOk, below] at hw
  show decodeWord (mkW 0x41 pr reg width off) = _
  refine (decodeWord_of_rowOf (r := .qld) ((rowOf_41 _ (mkW_ne_zero _ _ _ _ _ (by decide)) (major_mkW ..)).trans ?_)).trans (congrArg Except.ok ?_)
  · simp [decodeQueued, wholePr, wholeNone, onlyXop0, onlyReg, bitsAt_ofNat, hw]
  · show Instr.qld _ _ _ _ = _
    simp [bitsAt_ofNat]
theorem qst (pr : BitVec 2) (width : BitVec 5) (imm : BitVec 18) : Statement (.qst pr width imm) := by
  intro hw _
  change (wholeOk pr && [0, 2, 4, 6, 7, 8].contains width.toNat) = true at hw
  simp [wholeOk, below] at hw
  show decodeWord (mkS 0x42 pr width imm) = _
  refine (decodeWord_of_rowOf (r := .qst) ((rowOf_42 _ (mkS_ne_zero _ _ _ _ (by decide)) (major_mkS ..)).trans ?_)).trans (congrArg Except.ok ?_)
  · simp [decodeQueued, wholePr, wholeNone, onlyXop0, onlyReg, bitsAt_ofNat, hw]
  · show Instr.qst _ _ _ = _
    simp [bitsAt_ofNat]
theorem aad (pr : BitVec 2) (reg : BitVec 6) (w : BitVec 2) (scope : BitVec 2) (order : BitVec 2) : Statement (.aad pr reg w scope order) := by
  intro hw _
  change (wholeOk pr) = true at hw
  simp [wholeOk, below] at hw
  show decodeWord (mkW 0x43 pr reg 0 (w ++ scope ++ order ++ (0 : BitVec 6))) = _
  refine (decodeWord_of_rowOf (r := .aad) ((rowOf_43 _ (mkW_ne_zero _ _ _ _ _ (by decide)) (major_mkW ..)).trans ?_)).trans (congrArg Except.ok ?_)
  · simp [decodeQueued, wholePr, wholeNone, onlyXop0, onlyReg, bits_aux_mkW, aux_low, aux_order, aux_scope, aux_width, hw]
  · show Instr.aad _ _ _ _ _ = _
    simp [bits_aux_mkW, aux_low, aux_order, aux_scope, aux_width]
theorem aswp (pr : BitVec 2) (reg : BitVec 6) (w : BitVec 1) (scope : BitVec 2) (order : BitVec 2) : Statement (.aswp pr reg w scope order) := by
  intro hw _
  change (wholeOk pr) = true at hw
  simp [wholeOk, below] at hw
  show decodeWord (mkW 0x43 pr reg 1 ((0 : BitVec 1) ++ w ++ scope ++ order ++ (0 : BitVec 6))) = _
  refine (decodeWord_of_rowOf (r := .aswp) ((rowOf_43 _ (mkW_ne_zero _ _ _ _ _ (by decide)) (major_mkW ..)).trans ?_)).trans (congrArg Except.ok ?_)
  · simp [decodeQueued, wholePr, wholeNone, onlyXop0, onlyReg, bits_aux_mkW, aux1_low, aux1_order, aux1_scope, aux1_width, aux1_top, hw]
  · show Instr.aswp _ _ _ _ _ = _
    simp [bits_aux_mkW, aux1_low, aux1_order, aux1_scope, aux1_width, aux1_top]
theorem acas (pr : BitVec 2) (reg : BitVec 6) (w : BitVec 1) (scope : BitVec 2) (order : BitVec 2) : Statement (.acas pr reg w scope order) := by
  intro hw _
  change (wholeOk pr) = true at hw
  simp [wholeOk, below] at hw
  show decodeWord (mkW 0x43 pr reg 2 ((0 : BitVec 1) ++ w ++ scope ++ order ++ (0 : BitVec 6))) = _
  refine (decodeWord_of_rowOf (r := .acas) ((rowOf_43 _ (mkW_ne_zero _ _ _ _ _ (by decide)) (major_mkW ..)).trans ?_)).trans (congrArg Except.ok ?_)
  · simp [decodeQueued, wholePr, wholeNone, onlyXop0, onlyReg, bits_aux_mkW, aux1_low, aux1_order, aux1_scope, aux1_width, aux1_top, hw]
  · show Instr.acas _ _ _ _ _ = _
    simp [bits_aux_mkW, aux1_low, aux1_order, aux1_scope, aux1_width, aux1_top]
theorem amin (pr : BitVec 2) (reg : BitVec 6) (w : BitVec 1) (scope : BitVec 2) (order : BitVec 2) : Statement (.amin pr reg w scope order) := by
  intro hw _
  change (wholeOk pr) = true at hw
  simp [wholeOk, below] at hw
  show decodeWord (mkW 0x43 pr reg 3 ((0 : BitVec 1) ++ w ++ scope ++ order ++ (0 : BitVec 6))) = _
  refine (decodeWord_of_rowOf (r := .amin) ((rowOf_43 _ (mkW_ne_zero _ _ _ _ _ (by decide)) (major_mkW ..)).trans ?_)).trans (congrArg Except.ok ?_)
  · simp [decodeQueued, wholePr, wholeNone, onlyXop0, onlyReg, bits_aux_mkW, aux1_low, aux1_order, aux1_scope, aux1_width, aux1_top, hw]
  · show Instr.amin _ _ _ _ _ = _
    simp [bits_aux_mkW, aux1_low, aux1_order, aux1_scope, aux1_width, aux1_top]
theorem amax (pr : BitVec 2) (reg : BitVec 6) (w : BitVec 1) (scope : BitVec 2) (order : BitVec 2) : Statement (.amax pr reg w scope order) := by
  intro hw _
  change (wholeOk pr) = true at hw
  simp [wholeOk, below] at hw
  show decodeWord (mkW 0x43 pr reg 4 ((0 : BitVec 1) ++ w ++ scope ++ order ++ (0 : BitVec 6))) = _
  refine (decodeWord_of_rowOf (r := .amax) ((rowOf_43 _ (mkW_ne_zero _ _ _ _ _ (by decide)) (major_mkW ..)).trans ?_)).trans (congrArg Except.ok ?_)
  · simp [decodeQueued, wholePr, wholeNone, onlyXop0, onlyReg, bits_aux_mkW, aux1_low, aux1_order, aux1_scope, aux1_width, aux1_top, hw]
  · show Instr.amax _ _ _ _ _ = _
    simp [bits_aux_mkW, aux1_low, aux1_order, aux1_scope, aux1_width, aux1_top]
theorem aminn (pr : BitVec 2) (reg : BitVec 6) (w : BitVec 1) (scope : BitVec 2) (order : BitVec 2) : Statement (.aminn pr reg w scope order) := by
  intro hw _
  change (wholeOk pr) = true at hw
  simp [wholeOk, below] at hw
  show decodeWord (mkW 0x43 pr reg 5 ((0 : BitVec 1) ++ w ++ scope ++ order ++ (0 : BitVec 6))) = _
  refine (decodeWord_of_rowOf (r := .aminn) ((rowOf_43 _ (mkW_ne_zero _ _ _ _ _ (by decide)) (major_mkW ..)).trans ?_)).trans (congrArg Except.ok ?_)
  · simp [decodeQueued, wholePr, wholeNone, onlyXop0, onlyReg, bits_aux_mkW, aux1_low, aux1_order, aux1_scope, aux1_width, aux1_top, hw]
  · show Instr.aminn _ _ _ _ _ = _
    simp [bits_aux_mkW, aux1_low, aux1_order, aux1_scope, aux1_width, aux1_top]
theorem amaxn (pr : BitVec 2) (reg : BitVec 6) (w : BitVec 1) (scope : BitVec 2) (order : BitVec 2) : Statement (.amaxn pr reg w scope order) := by
  intro hw _
  change (wholeOk pr) = true at hw
  simp [wholeOk, below] at hw
  show decodeWord (mkW 0x43 pr reg 6 ((0 : BitVec 1) ++ w ++ scope ++ order ++ (0 : BitVec 6))) = _
  refine (decodeWord_of_rowOf (r := .amaxn) ((rowOf_43 _ (mkW_ne_zero _ _ _ _ _ (by decide)) (major_mkW ..)).trans ?_)).trans (congrArg Except.ok ?_)
  · simp [decodeQueued, wholePr, wholeNone, onlyXop0, onlyReg, bits_aux_mkW, aux1_low, aux1_order, aux1_scope, aux1_width, aux1_top, hw]
  · show Instr.amaxn _ _ _ _ _ = _
    simp [bits_aux_mkW, aux1_low, aux1_order, aux1_scope, aux1_width, aux1_top]
theorem aand (pr : BitVec 2) (reg : BitVec 6) (w : BitVec 1) (scope : BitVec 2) (order : BitVec 2) : Statement (.aand pr reg w scope order) := by
  intro hw _
  change (wholeOk pr) = true at hw
  simp [wholeOk, below] at hw
  show decodeWord (mkW 0x43 pr reg 7 ((0 : BitVec 1) ++ w ++ scope ++ order ++ (0 : BitVec 6))) = _
  refine (decodeWord_of_rowOf (r := .aand) ((rowOf_43 _ (mkW_ne_zero _ _ _ _ _ (by decide)) (major_mkW ..)).trans ?_)).trans (congrArg Except.ok ?_)
  · simp [decodeQueued, wholePr, wholeNone, onlyXop0, onlyReg, bits_aux_mkW, aux1_low, aux1_order, aux1_scope, aux1_width, aux1_top, hw]
  · show Instr.aand _ _ _ _ _ = _
    simp [bits_aux_mkW, aux1_low, aux1_order, aux1_scope, aux1_width, aux1_top]
theorem aor (pr : BitVec 2) (reg : BitVec 6) (w : BitVec 1) (scope : BitVec 2) (order : BitVec 2) : Statement (.aor pr reg w scope order) := by
  intro hw _
  change (wholeOk pr) = true at hw
  simp [wholeOk, below] at hw
  show decodeWord (mkW 0x43 pr reg 8 ((0 : BitVec 1) ++ w ++ scope ++ order ++ (0 : BitVec 6))) = _
  refine (decodeWord_of_rowOf (r := .aor) ((rowOf_43 _ (mkW_ne_zero _ _ _ _ _ (by decide)) (major_mkW ..)).trans ?_)).trans (congrArg Except.ok ?_)
  · simp [decodeQueued, wholePr, wholeNone, onlyXop0, onlyReg, bits_aux_mkW, aux1_low, aux1_order, aux1_scope, aux1_width, aux1_top, hw]
  · show Instr.aor _ _ _ _ _ = _
    simp [bits_aux_mkW, aux1_low, aux1_order, aux1_scope, aux1_width, aux1_top]
theorem axor (pr : BitVec 2) (reg : BitVec 6) (w : BitVec 1) (scope : BitVec 2) (order : BitVec 2) : Statement (.axor pr reg w scope order) := by
  intro hw _
  change (wholeOk pr) = true at hw
  simp [wholeOk, below] at hw
  show decodeWord (mkW 0x43 pr reg 9 ((0 : BitVec 1) ++ w ++ scope ++ order ++ (0 : BitVec 6))) = _
  refine (decodeWord_of_rowOf (r := .axor) ((rowOf_43 _ (mkW_ne_zero _ _ _ _ _ (by decide)) (major_mkW ..)).trans ?_)).trans (congrArg Except.ok ?_)
  · simp [decodeQueued, wholePr, wholeNone, onlyXop0, onlyReg, bits_aux_mkW, aux1_low, aux1_order, aux1_scope, aux1_width, aux1_top, hw]
  · show Instr.axor _ _ _ _ _ = _
    simp [bits_aux_mkW, aux1_low, aux1_order, aux1_scope, aux1_width, aux1_top]
theorem fenceAcq (pr : BitVec 2) (scope : BitVec 2) : Statement (.fenceAcq pr scope) := by
  intro hw _
  change (wholeOk pr) = true at hw
  simp [wholeOk, below] at hw
  show decodeWord (mkT 0x44 pr ((1 : BitVec 2) ++ (0 : BitVec 1) ++ scope) noTarget noTarget) = _
  refine (decodeWord_of_rowOf (r := .fenceAcq) ((rowOf_44 _ (mkT_ne_zero _ _ _ _ _ (by decide)) (major_mkT ..)).trans ?_)).trans (congrArg Except.ok ?_)
  · rcases bv2_cases scope with rfl | rfl | rfl | rfl <;> simp [decodeFence, wholePr, wholeNone, onlyXop0, onlyReg, bits_xop_mkT, bits_op_mkT, bitsAt_ofNat, hw]
  · show Instr.fenceAcq _ _ = _
    rcases bv2_cases scope with rfl | rfl | rfl | rfl <;> simp [bits_xop_mkT, bits_op_mkT, bitsAt_ofNat]
theorem fenceRel (pr : BitVec 2) (scope : BitVec 2) : Statement (.fenceRel pr scope) := by
  intro hw _
  change (wholeOk pr) = true at hw
  simp [wholeOk, below] at hw
  show decodeWord (mkT 0x44 pr ((2 : BitVec 2) ++ (0 : BitVec 1) ++ scope) noTarget noTarget) = _
  refine (decodeWord_of_rowOf (r := .fenceRel) ((rowOf_44 _ (mkT_ne_zero _ _ _ _ _ (by decide)) (major_mkT ..)).trans ?_)).trans (congrArg Except.ok ?_)
  · rcases bv2_cases scope with rfl | rfl | rfl | rfl <;> simp [decodeFence, wholePr, wholeNone, onlyXop0, onlyReg, bits_xop_mkT, bits_op_mkT, bitsAt_ofNat, hw]
  · show Instr.fenceRel _ _ = _
    rcases bv2_cases scope with rfl | rfl | rfl | rfl <;> simp [bits_xop_mkT, bits_op_mkT, bitsAt_ofNat]
theorem fenceFull (pr : BitVec 2) (scope : BitVec 2) : Statement (.fenceFull pr scope) := by
  intro hw _
  change (wholeOk pr) = true at hw
  simp [wholeOk, below] at hw
  show decodeWord (mkT 0x44 pr ((3 : BitVec 2) ++ (0 : BitVec 1) ++ scope) noTarget noTarget) = _
  refine (decodeWord_of_rowOf (r := .fenceFull) ((rowOf_44 _ (mkT_ne_zero _ _ _ _ _ (by decide)) (major_mkT ..)).trans ?_)).trans (congrArg Except.ok ?_)
  · rcases bv2_cases scope with rfl | rfl | rfl | rfl <;> simp [decodeFence, wholePr, wholeNone, onlyXop0, onlyReg, bits_xop_mkT, bits_op_mkT, bitsAt_ofNat, hw]
  · show Instr.fenceFull _ _ = _
    rcases bv2_cases scope with rfl | rfl | rfl | rfl <;> simp [bits_xop_mkT, bits_op_mkT, bitsAt_ofNat]
theorem vadd (w : BitVec 1) (pr : BitVec 2) (t1 : BitVec 9) (t0 : BitVec 9) : Statement (.vadd w pr t1 t0) := by
  intro _ _
  show decodeWord (mkT ((0x28 : BitVec 6) ++ w) pr 0 t1 t0) = _
  rcases bv1_cases w with rfl | rfl
  · refine (decodeWord_of_rowOf (r := .vadd) ((rowOf_50 _ (mkT_ne_zero _ _ _ _ _ (by decide)) (major_mkT ..)).trans ?_)).trans (congrArg Except.ok ?_)
    · simp [decodeFloat, wholePr, wholeNone, onlyXop0, onlyReg, bits_xop_mkT, bits_op_mkT, bitsAt_ofNat]
    · show Instr.vadd _ _ _ _ = _
      simp [bits_xop_mkT, bits_op_mkT, bitsAt_ofNat]
  · refine (decodeWord_of_rowOf (r := .vadd) ((rowOf_51 _ (mkT_ne_zero _ _ _ _ _ (by decide)) (major_mkT ..)).trans ?_)).trans (congrArg Except.ok ?_)
    · simp [decodeFloat, wholePr, wholeNone, onlyXop0, onlyReg, bits_xop_mkT, bits_op_mkT, bitsAt_ofNat]
    · show Instr.vadd _ _ _ _ = _
      simp [bits_xop_mkT, bits_op_mkT, bitsAt_ofNat]
theorem vsub (w : BitVec 1) (pr : BitVec 2) (t1 : BitVec 9) (t0 : BitVec 9) : Statement (.vsub w pr t1 t0) := by
  intro _ _
  show decodeWord (mkT ((0x28 : BitVec 6) ++ w) pr 1 t1 t0) = _
  rcases bv1_cases w with rfl | rfl
  · refine (decodeWord_of_rowOf (r := .vsub) ((rowOf_50 _ (mkT_ne_zero _ _ _ _ _ (by decide)) (major_mkT ..)).trans ?_)).trans (congrArg Except.ok ?_)
    · simp [decodeFloat, wholePr, wholeNone, onlyXop0, onlyReg, bits_xop_mkT, bits_op_mkT, bitsAt_ofNat]
    · show Instr.vsub _ _ _ _ = _
      simp [bits_xop_mkT, bits_op_mkT, bitsAt_ofNat]
  · refine (decodeWord_of_rowOf (r := .vsub) ((rowOf_51 _ (mkT_ne_zero _ _ _ _ _ (by decide)) (major_mkT ..)).trans ?_)).trans (congrArg Except.ok ?_)
    · simp [decodeFloat, wholePr, wholeNone, onlyXop0, onlyReg, bits_xop_mkT, bits_op_mkT, bitsAt_ofNat]
    · show Instr.vsub _ _ _ _ = _
      simp [bits_xop_mkT, bits_op_mkT, bitsAt_ofNat]
theorem vmul (w : BitVec 1) (pr : BitVec 2) (t1 : BitVec 9) (t0 : BitVec 9) : Statement (.vmul w pr t1 t0) := by
  intro _ _
  show decodeWord (mkT ((0x28 : BitVec 6) ++ w) pr 2 t1 t0) = _
  rcases bv1_cases w with rfl | rfl
  · refine (decodeWord_of_rowOf (r := .vmul) ((rowOf_50 _ (mkT_ne_zero _ _ _ _ _ (by decide)) (major_mkT ..)).trans ?_)).trans (congrArg Except.ok ?_)
    · simp [decodeFloat, wholePr, wholeNone, onlyXop0, onlyReg, bits_xop_mkT, bits_op_mkT, bitsAt_ofNat]
    · show Instr.vmul _ _ _ _ = _
      simp [bits_xop_mkT, bits_op_mkT, bitsAt_ofNat]
  · refine (decodeWord_of_rowOf (r := .vmul) ((rowOf_51 _ (mkT_ne_zero _ _ _ _ _ (by decide)) (major_mkT ..)).trans ?_)).trans (congrArg Except.ok ?_)
    · simp [decodeFloat, wholePr, wholeNone, onlyXop0, onlyReg, bits_xop_mkT, bits_op_mkT, bitsAt_ofNat]
    · show Instr.vmul _ _ _ _ = _
      simp [bits_xop_mkT, bits_op_mkT, bitsAt_ofNat]
theorem vdiv (w : BitVec 1) (pr : BitVec 2) (t1 : BitVec 9) (t0 : BitVec 9) : Statement (.vdiv w pr t1 t0) := by
  intro _ _
  show decodeWord (mkT ((0x28 : BitVec 6) ++ w) pr 3 t1 t0) = _
  rcases bv1_cases w with rfl | rfl
  · refine (decodeWord_of_rowOf (r := .vdiv) ((rowOf_50 _ (mkT_ne_zero _ _ _ _ _ (by decide)) (major_mkT ..)).trans ?_)).trans (congrArg Except.ok ?_)
    · simp [decodeFloat, wholePr, wholeNone, onlyXop0, onlyReg, bits_xop_mkT, bits_op_mkT, bitsAt_ofNat]
    · show Instr.vdiv _ _ _ _ = _
      simp [bits_xop_mkT, bits_op_mkT, bitsAt_ofNat]
  · refine (decodeWord_of_rowOf (r := .vdiv) ((rowOf_51 _ (mkT_ne_zero _ _ _ _ _ (by decide)) (major_mkT ..)).trans ?_)).trans (congrArg Except.ok ?_)
    · simp [decodeFloat, wholePr, wholeNone, onlyXop0, onlyReg, bits_xop_mkT, bits_op_mkT, bitsAt_ofNat]
    · show Instr.vdiv _ _ _ _ = _
      simp [bits_xop_mkT, bits_op_mkT, bitsAt_ofNat]
theorem vmin (w : BitVec 1) (pr : BitVec 2) (t1 : BitVec 9) (t0 : BitVec 9) : Statement (.vmin w pr t1 t0) := by
  intro _ _
  show decodeWord (mkT ((0x28 : BitVec 6) ++ w) pr 4 t1 t0) = _
  rcases bv1_cases w with rfl | rfl
  · refine (decodeWord_of_rowOf (r := .vmin) ((rowOf_50 _ (mkT_ne_zero _ _ _ _ _ (by decide)) (major_mkT ..)).trans ?_)).trans (congrArg Except.ok ?_)
    · simp [decodeFloat, wholePr, wholeNone, onlyXop0, onlyReg, bits_xop_mkT, bits_op_mkT, bitsAt_ofNat]
    · show Instr.vmin _ _ _ _ = _
      simp [bits_xop_mkT, bits_op_mkT, bitsAt_ofNat]
  · refine (decodeWord_of_rowOf (r := .vmin) ((rowOf_51 _ (mkT_ne_zero _ _ _ _ _ (by decide)) (major_mkT ..)).trans ?_)).trans (congrArg Except.ok ?_)
    · simp [decodeFloat, wholePr, wholeNone, onlyXop0, onlyReg, bits_xop_mkT, bits_op_mkT, bitsAt_ofNat]
    · show Instr.vmin _ _ _ _ = _
      simp [bits_xop_mkT, bits_op_mkT, bitsAt_ofNat]
theorem vmax (w : BitVec 1) (pr : BitVec 2) (t1 : BitVec 9) (t0 : BitVec 9) : Statement (.vmax w pr t1 t0) := by
  intro _ _
  show decodeWord (mkT ((0x28 : BitVec 6) ++ w) pr 5 t1 t0) = _
  rcases bv1_cases w with rfl | rfl
  · refine (decodeWord_of_rowOf (r := .vmax) ((rowOf_50 _ (mkT_ne_zero _ _ _ _ _ (by decide)) (major_mkT ..)).trans ?_)).trans (congrArg Except.ok ?_)
    · simp [decodeFloat, wholePr, wholeNone, onlyXop0, onlyReg, bits_xop_mkT, bits_op_mkT, bitsAt_ofNat]
    · show Instr.vmax _ _ _ _ = _
      simp [bits_xop_mkT, bits_op_mkT, bitsAt_ofNat]
  · refine (decodeWord_of_rowOf (r := .vmax) ((rowOf_51 _ (mkT_ne_zero _ _ _ _ _ (by decide)) (major_mkT ..)).trans ?_)).trans (congrArg Except.ok ?_)
    · simp [decodeFloat, wholePr, wholeNone, onlyXop0, onlyReg, bits_xop_mkT, bits_op_mkT, bitsAt_ofNat]
    · show Instr.vmax _ _ _ _ = _
      simp [bits_xop_mkT, bits_op_mkT, bitsAt_ofNat]
theorem vabs (w : BitVec 1) (pr : BitVec 2) (t1 : BitVec 9) (t0 : BitVec 9) : Statement (.vabs w pr t1 t0) := by
  intro _ _
  show decodeWord (mkT ((0x28 : BitVec 6) ++ w) pr 6 t1 t0) = _
  rcases bv1_cases w with rfl | rfl
  · refine (decodeWord_of_rowOf (r := .vabs) ((rowOf_50 _ (mkT_ne_zero _ _ _ _ _ (by decide)) (major_mkT ..)).trans ?_)).trans (congrArg Except.ok ?_)
    · simp [decodeFloat, wholePr, wholeNone, onlyXop0, onlyReg, bits_xop_mkT, bits_op_mkT, bitsAt_ofNat]
    · show Instr.vabs _ _ _ _ = _
      simp [bits_xop_mkT, bits_op_mkT, bitsAt_ofNat]
  · refine (decodeWord_of_rowOf (r := .vabs) ((rowOf_51 _ (mkT_ne_zero _ _ _ _ _ (by decide)) (major_mkT ..)).trans ?_)).trans (congrArg Except.ok ?_)
    · simp [decodeFloat, wholePr, wholeNone, onlyXop0, onlyReg, bits_xop_mkT, bits_op_mkT, bitsAt_ofNat]
    · show Instr.vabs _ _ _ _ = _
      simp [bits_xop_mkT, bits_op_mkT, bitsAt_ofNat]
theorem vneg (w : BitVec 1) (pr : BitVec 2) (t1 : BitVec 9) (t0 : BitVec 9) : Statement (.vneg w pr t1 t0) := by
  intro _ _
  show decodeWord (mkT ((0x28 : BitVec 6) ++ w) pr 7 t1 t0) = _
  rcases bv1_cases w with rfl | rfl
  · refine (decodeWord_of_rowOf (r := .vneg) ((rowOf_50 _ (mkT_ne_zero _ _ _ _ _ (by decide)) (major_mkT ..)).trans ?_)).trans (congrArg Except.ok ?_)
    · simp [decodeFloat, wholePr, wholeNone, onlyXop0, onlyReg, bits_xop_mkT, bits_op_mkT, bitsAt_ofNat]
    · show Instr.vneg _ _ _ _ = _
      simp [bits_xop_mkT, bits_op_mkT, bitsAt_ofNat]
  · refine (decodeWord_of_rowOf (r := .vneg) ((rowOf_51 _ (mkT_ne_zero _ _ _ _ _ (by decide)) (major_mkT ..)).trans ?_)).trans (congrArg Except.ok ?_)
    · simp [decodeFloat, wholePr, wholeNone, onlyXop0, onlyReg, bits_xop_mkT, bits_op_mkT, bitsAt_ofNat]
    · show Instr.vneg _ _ _ _ = _
      simp [bits_xop_mkT, bits_op_mkT, bitsAt_ofNat]
theorem vsqrt (w : BitVec 1) (pr : BitVec 2) (t1 : BitVec 9) (t0 : BitVec 9) : Statement (.vsqrt w pr t1 t0) := by
  intro _ _
  show decodeWord (mkT ((0x28 : BitVec 6) ++ w) pr 8 t1 t0) = _
  rcases bv1_cases w with rfl | rfl
  · refine (decodeWord_of_rowOf (r := .vsqrt) ((rowOf_50 _ (mkT_ne_zero _ _ _ _ _ (by decide)) (major_mkT ..)).trans ?_)).trans (congrArg Except.ok ?_)
    · simp [decodeFloat, wholePr, wholeNone, onlyXop0, onlyReg, bits_xop_mkT, bits_op_mkT, bitsAt_ofNat]
    · show Instr.vsqrt _ _ _ _ = _
      simp [bits_xop_mkT, bits_op_mkT, bitsAt_ofNat]
  · refine (decodeWord_of_rowOf (r := .vsqrt) ((rowOf_51 _ (mkT_ne_zero _ _ _ _ _ (by decide)) (major_mkT ..)).trans ?_)).trans (congrArg Except.ok ?_)
    · simp [decodeFloat, wholePr, wholeNone, onlyXop0, onlyReg, bits_xop_mkT, bits_op_mkT, bitsAt_ofNat]
    · show Instr.vsqrt _ _ _ _ = _
      simp [bits_xop_mkT, bits_op_mkT, bitsAt_ofNat]
theorem vrcp (w : BitVec 1) (pr : BitVec 2) (t1 : BitVec 9) (t0 : BitVec 9) : Statement (.vrcp w pr t1 t0) := by
  intro _ _
  show decodeWord (mkT ((0x28 : BitVec 6) ++ w) pr 9 t1 t0) = _
  rcases bv1_cases w with rfl | rfl
  · refine (decodeWord_of_rowOf (r := .vrcp) ((rowOf_50 _ (mkT_ne_zero _ _ _ _ _ (by decide)) (major_mkT ..)).trans ?_)).trans (congrArg Except.ok ?_)
    · simp [decodeFloat, wholePr, wholeNone, onlyXop0, onlyReg, bits_xop_mkT, bits_op_mkT, bitsAt_ofNat]
    · show Instr.vrcp _ _ _ _ = _
      simp [bits_xop_mkT, bits_op_mkT, bitsAt_ofNat]
  · refine (decodeWord_of_rowOf (r := .vrcp) ((rowOf_51 _ (mkT_ne_zero _ _ _ _ _ (by decide)) (major_mkT ..)).trans ?_)).trans (congrArg Except.ok ?_)
    · simp [decodeFloat, wholePr, wholeNone, onlyXop0, onlyReg, bits_xop_mkT, bits_op_mkT, bitsAt_ofNat]
    · show Instr.vrcp _ _ _ _ = _
      simp [bits_xop_mkT, bits_op_mkT, bitsAt_ofNat]
theorem vrsq (w : BitVec 1) (pr : BitVec 2) (t1 : BitVec 9) (t0 : BitVec 9) : Statement (.vrsq w pr t1 t0) := by
  intro _ _
  show decodeWord (mkT ((0x28 : BitVec 6) ++ w) pr 10 t1 t0) = _
  rcases bv1_cases w with rfl | rfl
  · refine (decodeWord_of_rowOf (r := .vrsq) ((rowOf_50 _ (mkT_ne_zero _ _ _ _ _ (by decide)) (major_mkT ..)).trans ?_)).trans (congrArg Except.ok ?_)
    · simp [decodeFloat, wholePr, wholeNone, onlyXop0, onlyReg, bits_xop_mkT, bits_op_mkT, bitsAt_ofNat]
    · show Instr.vrsq _ _ _ _ = _
      simp [bits_xop_mkT, bits_op_mkT, bitsAt_ofNat]
  · refine (decodeWord_of_rowOf (r := .vrsq) ((rowOf_51 _ (mkT_ne_zero _ _ _ _ _ (by decide)) (major_mkT ..)).trans ?_)).trans (congrArg Except.ok ?_)
    · simp [decodeFloat, wholePr, wholeNone, onlyXop0, onlyReg, bits_xop_mkT, bits_op_mkT, bitsAt_ofNat]
    · show Instr.vrsq _ _ _ _ = _
      simp [bits_xop_mkT, bits_op_mkT, bitsAt_ofNat]
theorem vexp2 (w : BitVec 1) (pr : BitVec 2) (t1 : BitVec 9) (t0 : BitVec 9) : Statement (.vexp2 w pr t1 t0) := by
  intro _ _
  show decodeWord (mkT ((0x28 : BitVec 6) ++ w) pr 11 t1 t0) = _
  rcases bv1_cases w with rfl | rfl
  · refine (decodeWord_of_rowOf (r := .vexp2) ((rowOf_50 _ (mkT_ne_zero _ _ _ _ _ (by decide)) (major_mkT ..)).trans ?_)).trans (congrArg Except.ok ?_)
    · simp [decodeFloat, wholePr, wholeNone, onlyXop0, onlyReg, bits_xop_mkT, bits_op_mkT, bitsAt_ofNat]
    · show Instr.vexp2 _ _ _ _ = _
      simp [bits_xop_mkT, bits_op_mkT, bitsAt_ofNat]
  · refine (decodeWord_of_rowOf (r := .vexp2) ((rowOf_51 _ (mkT_ne_zero _ _ _ _ _ (by decide)) (major_mkT ..)).trans ?_)).trans (congrArg Except.ok ?_)
    · simp [decodeFloat, wholePr, wholeNone, onlyXop0, onlyReg, bits_xop_mkT, bits_op_mkT, bitsAt_ofNat]
    · show Instr.vexp2 _ _ _ _ = _
      simp [bits_xop_mkT, bits_op_mkT, bitsAt_ofNat]
theorem vlog2 (w : BitVec 1) (pr : BitVec 2) (t1 : BitVec 9) (t0 : BitVec 9) : Statement (.vlog2 w pr t1 t0) := by
  intro _ _
  show decodeWord (mkT ((0x28 : BitVec 6) ++ w) pr 12 t1 t0) = _
  rcases bv1_cases w with rfl | rfl
  · refine (decodeWord_of_rowOf (r := .vlog2) ((rowOf_50 _ (mkT_ne_zero _ _ _ _ _ (by decide)) (major_mkT ..)).trans ?_)).trans (congrArg Except.ok ?_)
    · simp [decodeFloat, wholePr, wholeNone, onlyXop0, onlyReg, bits_xop_mkT, bits_op_mkT, bitsAt_ofNat]
    · show Instr.vlog2 _ _ _ _ = _
      simp [bits_xop_mkT, bits_op_mkT, bitsAt_ofNat]
  · refine (decodeWord_of_rowOf (r := .vlog2) ((rowOf_51 _ (mkT_ne_zero _ _ _ _ _ (by decide)) (major_mkT ..)).trans ?_)).trans (congrArg Except.ok ?_)
    · simp [decodeFloat, wholePr, wholeNone, onlyXop0, onlyReg, bits_xop_mkT, bits_op_mkT, bitsAt_ofNat]
    · show Instr.vlog2 _ _ _ _ = _
      simp [bits_xop_mkT, bits_op_mkT, bitsAt_ofNat]
theorem vtanh (w : BitVec 1) (pr : BitVec 2) (t1 : BitVec 9) (t0 : BitVec 9) : Statement (.vtanh w pr t1 t0) := by
  intro _ _
  show decodeWord (mkT ((0x28 : BitVec 6) ++ w) pr 13 t1 t0) = _
  rcases bv1_cases w with rfl | rfl
  · refine (decodeWord_of_rowOf (r := .vtanh) ((rowOf_50 _ (mkT_ne_zero _ _ _ _ _ (by decide)) (major_mkT ..)).trans ?_)).trans (congrArg Except.ok ?_)
    · simp [decodeFloat, wholePr, wholeNone, onlyXop0, onlyReg, bits_xop_mkT, bits_op_mkT, bitsAt_ofNat]
    · show Instr.vtanh _ _ _ _ = _
      simp [bits_xop_mkT, bits_op_mkT, bitsAt_ofNat]
  · refine (decodeWord_of_rowOf (r := .vtanh) ((rowOf_51 _ (mkT_ne_zero _ _ _ _ _ (by decide)) (major_mkT ..)).trans ?_)).trans (congrArg Except.ok ?_)
    · simp [decodeFloat, wholePr, wholeNone, onlyXop0, onlyReg, bits_xop_mkT, bits_op_mkT, bitsAt_ofNat]
    · show Instr.vtanh _ _ _ _ = _
      simp [bits_xop_mkT, bits_op_mkT, bitsAt_ofNat]
theorem vsin (w : BitVec 1) (pr : BitVec 2) (t1 : BitVec 9) (t0 : BitVec 9) : Statement (.vsin w pr t1 t0) := by
  intro _ _
  show decodeWord (mkT ((0x28 : BitVec 6) ++ w) pr 14 t1 t0) = _
  rcases bv1_cases w with rfl | rfl
  · refine (decodeWord_of_rowOf (r := .vsin) ((rowOf_50 _ (mkT_ne_zero _ _ _ _ _ (by decide)) (major_mkT ..)).trans ?_)).trans (congrArg Except.ok ?_)
    · simp [decodeFloat, wholePr, wholeNone, onlyXop0, onlyReg, bits_xop_mkT, bits_op_mkT, bitsAt_ofNat]
    · show Instr.vsin _ _ _ _ = _
      simp [bits_xop_mkT, bits_op_mkT, bitsAt_ofNat]
  · refine (decodeWord_of_rowOf (r := .vsin) ((rowOf_51 _ (mkT_ne_zero _ _ _ _ _ (by decide)) (major_mkT ..)).trans ?_)).trans (congrArg Except.ok ?_)
    · simp [decodeFloat, wholePr, wholeNone, onlyXop0, onlyReg, bits_xop_mkT, bits_op_mkT, bitsAt_ofNat]
    · show Instr.vsin _ _ _ _ = _
      simp [bits_xop_mkT, bits_op_mkT, bitsAt_ofNat]
theorem vcos (w : BitVec 1) (pr : BitVec 2) (t1 : BitVec 9) (t0 : BitVec 9) : Statement (.vcos w pr t1 t0) := by
  intro _ _
  show decodeWord (mkT ((0x28 : BitVec 6) ++ w) pr 15 t1 t0) = _
  rcases bv1_cases w with rfl | rfl
  · refine (decodeWord_of_rowOf (r := .vcos) ((rowOf_50 _ (mkT_ne_zero _ _ _ _ _ (by decide)) (major_mkT ..)).trans ?_)).trans (congrArg Except.ok ?_)
    · simp [decodeFloat, wholePr, wholeNone, onlyXop0, onlyReg, bits_xop_mkT, bits_op_mkT, bitsAt_ofNat]
    · show Instr.vcos _ _ _ _ = _
      simp [bits_xop_mkT, bits_op_mkT, bitsAt_ofNat]
  · refine (decodeWord_of_rowOf (r := .vcos) ((rowOf_51 _ (mkT_ne_zero _ _ _ _ _ (by decide)) (major_mkT ..)).trans ?_)).trans (congrArg Except.ok ?_)
    · simp [decodeFloat, wholePr, wholeNone, onlyXop0, onlyReg, bits_xop_mkT, bits_op_mkT, bitsAt_ofNat]
    · show Instr.vcos _ _ _ _ = _
      simp [bits_xop_mkT, bits_op_mkT, bitsAt_ofNat]
theorem vfloor (w : BitVec 1) (pr : BitVec 2) (t1 : BitVec 9) (t0 : BitVec 9) : Statement (.vfloor w pr t1 t0) := by
  intro _ _
  show decodeWord (mkT ((0x28 : BitVec 6) ++ w) pr 16 t1 t0) = _
  rcases bv1_cases w with rfl | rfl
  · refine (decodeWord_of_rowOf (r := .vfloor) ((rowOf_50 _ (mkT_ne_zero _ _ _ _ _ (by decide)) (major_mkT ..)).trans ?_)).trans (congrArg Except.ok ?_)
    · simp [decodeFloat, wholePr, wholeNone, onlyXop0, onlyReg, bits_xop_mkT, bits_op_mkT, bitsAt_ofNat]
    · show Instr.vfloor _ _ _ _ = _
      simp [bits_xop_mkT, bits_op_mkT, bitsAt_ofNat]
  · refine (decodeWord_of_rowOf (r := .vfloor) ((rowOf_51 _ (mkT_ne_zero _ _ _ _ _ (by decide)) (major_mkT ..)).trans ?_)).trans (congrArg Except.ok ?_)
    · simp [decodeFloat, wholePr, wholeNone, onlyXop0, onlyReg, bits_xop_mkT, bits_op_mkT, bitsAt_ofNat]
    · show Instr.vfloor _ _ _ _ = _
      simp [bits_xop_mkT, bits_op_mkT, bitsAt_ofNat]
theorem vceil (w : BitVec 1) (pr : BitVec 2) (t1 : BitVec 9) (t0 : BitVec 9) : Statement (.vceil w pr t1 t0) := by
  intro _ _
  show decodeWord (mkT ((0x28 : BitVec 6) ++ w) pr 17 t1 t0) = _
  rcases bv1_cases w with rfl | rfl
  · refine (decodeWord_of_rowOf (r := .vceil) ((rowOf_50 _ (mkT_ne_zero _ _ _ _ _ (by decide)) (major_mkT ..)).trans ?_)).trans (congrArg Except.ok ?_)
    · simp [decodeFloat, wholePr, wholeNone, onlyXop0, onlyReg, bits_xop_mkT, bits_op_mkT, bitsAt_ofNat]
    · show Instr.vceil _ _ _ _ = _
      simp [bits_xop_mkT, bits_op_mkT, bitsAt_ofNat]
  · refine (decodeWord_of_rowOf (r := .vceil) ((rowOf_51 _ (mkT_ne_zero _ _ _ _ _ (by decide)) (major_mkT ..)).trans ?_)).trans (congrArg Except.ok ?_)
    · simp [decodeFloat, wholePr, wholeNone, onlyXop0, onlyReg, bits_xop_mkT, bits_op_mkT, bitsAt_ofNat]
    · show Instr.vceil _ _ _ _ = _
      simp [bits_xop_mkT, bits_op_mkT, bitsAt_ofNat]
theorem vrint (w : BitVec 1) (pr : BitVec 2) (t1 : BitVec 9) (t0 : BitVec 9) : Statement (.vrint w pr t1 t0) := by
  intro _ _
  show decodeWord (mkT ((0x28 : BitVec 6) ++ w) pr 18 t1 t0) = _
  rcases bv1_cases w with rfl | rfl
  · refine (decodeWord_of_rowOf (r := .vrint) ((rowOf_50 _ (mkT_ne_zero _ _ _ _ _ (by decide)) (major_mkT ..)).trans ?_)).trans (congrArg Except.ok ?_)
    · simp [decodeFloat, wholePr, wholeNone, onlyXop0, onlyReg, bits_xop_mkT, bits_op_mkT, bitsAt_ofNat]
    · show Instr.vrint _ _ _ _ = _
      simp [bits_xop_mkT, bits_op_mkT, bitsAt_ofNat]
  · refine (decodeWord_of_rowOf (r := .vrint) ((rowOf_51 _ (mkT_ne_zero _ _ _ _ _ (by decide)) (major_mkT ..)).trans ?_)).trans (congrArg Except.ok ?_)
    · simp [decodeFloat, wholePr, wholeNone, onlyXop0, onlyReg, bits_xop_mkT, bits_op_mkT, bitsAt_ofNat]
    · show Instr.vrint _ _ _ _ = _
      simp [bits_xop_mkT, bits_op_mkT, bitsAt_ofNat]
theorem vclass (w : BitVec 1) (pr : BitVec 2) (t1 : BitVec 9) (t0 : BitVec 9) : Statement (.vclass w pr t1 t0) := by
  intro _ _
  show decodeWord (mkT ((0x28 : BitVec 6) ++ w) pr 19 t1 t0) = _
  rcases bv1_cases w with rfl | rfl
  · refine (decodeWord_of_rowOf (r := .vclass) ((rowOf_50 _ (mkT_ne_zero _ _ _ _ _ (by decide)) (major_mkT ..)).trans ?_)).trans (congrArg Except.ok ?_)
    · simp [decodeFloat, wholePr, wholeNone, onlyXop0, onlyReg, bits_xop_mkT, bits_op_mkT, bitsAt_ofNat]
    · show Instr.vclass _ _ _ _ = _
      simp [bits_xop_mkT, bits_op_mkT, bitsAt_ofNat]
  · refine (decodeWord_of_rowOf (r := .vclass) ((rowOf_51 _ (mkT_ne_zero _ _ _ _ _ (by decide)) (major_mkT ..)).trans ?_)).trans (congrArg Except.ok ?_)
    · simp [decodeFloat, wholePr, wholeNone, onlyXop0, onlyReg, bits_xop_mkT, bits_op_mkT, bitsAt_ofNat]
    · show Instr.vclass _ _ _ _ = _
      simp [bits_xop_mkT, bits_op_mkT, bitsAt_ofNat]
theorem vaddF16 (pr : BitVec 2) (w : BitVec 1) (t1 : BitVec 9) (t0 : BitVec 9) : Statement (.vaddF16 pr w t1 t0) := by
  intro _ _
  show decodeWord (mkT 0x52 pr (w ++ (0 : BitVec 4)) t1 t0) = _
  refine (decodeWord_of_rowOf (r := .vaddF16) ((rowOf_52 _ (mkT_ne_zero _ _ _ _ _ (by decide)) (major_mkT ..)).trans ?_)).trans (congrArg Except.ok ?_)
  · rcases bv1_cases w with rfl | rfl <;> simp [decodeHalf, wholePr, wholeNone, onlyXop0, onlyReg, bits_xop_mkT, bits_op_mkT, bitsAt_ofNat]
  · show Instr.vaddF16 _ _ _ _ = _
    rcases bv1_cases w with rfl | rfl <;> simp [bits_xop_mkT, bits_op_mkT, bitsAt_ofNat]
theorem vsubF16 (pr : BitVec 2) (w : BitVec 1) (t1 : BitVec 9) (t0 : BitVec 9) : Statement (.vsubF16 pr w t1 t0) := by
  intro _ _
  show decodeWord (mkT 0x52 pr (w ++ (1 : BitVec 4)) t1 t0) = _
  refine (decodeWord_of_rowOf (r := .vsubF16) ((rowOf_52 _ (mkT_ne_zero _ _ _ _ _ (by decide)) (major_mkT ..)).trans ?_)).trans (congrArg Except.ok ?_)
  · rcases bv1_cases w with rfl | rfl <;> simp [decodeHalf, wholePr, wholeNone, onlyXop0, onlyReg, bits_xop_mkT, bits_op_mkT, bitsAt_ofNat]
  · show Instr.vsubF16 _ _ _ _ = _
    rcases bv1_cases w with rfl | rfl <;> simp [bits_xop_mkT, bits_op_mkT, bitsAt_ofNat]
theorem vmulF16 (pr : BitVec 2) (w : BitVec 1) (t1 : BitVec 9) (t0 : BitVec 9) : Statement (.vmulF16 pr w t1 t0) := by
  intro _ _
  show decodeWord (mkT 0x52 pr (w ++ (2 : BitVec 4)) t1 t0) = _
  refine (decodeWord_of_rowOf (r := .vmulF16) ((rowOf_52 _ (mkT_ne_zero _ _ _ _ _ (by decide)) (major_mkT ..)).trans ?_)).trans (congrArg Except.ok ?_)
  · rcases bv1_cases w with rfl | rfl <;> simp [decodeHalf, wholePr, wholeNone, onlyXop0, onlyReg, bits_xop_mkT, bits_op_mkT, bitsAt_ofNat]
  · show Instr.vmulF16 _ _ _ _ = _
    rcases bv1_cases w with rfl | rfl <;> simp [bits_xop_mkT, bits_op_mkT, bitsAt_ofNat]
theorem vdivF16 (pr : BitVec 2) (w : BitVec 1) (t1 : BitVec 9) (t0 : BitVec 9) : Statement (.vdivF16 pr w t1 t0) := by
  intro _ _
  show decodeWord (mkT 0x52 pr (w ++ (3 : BitVec 4)) t1 t0) = _
  refine (decodeWord_of_rowOf (r := .vdivF16) ((rowOf_52 _ (mkT_ne_zero _ _ _ _ _ (by decide)) (major_mkT ..)).trans ?_)).trans (congrArg Except.ok ?_)
  · rcases bv1_cases w with rfl | rfl <;> simp [decodeHalf, wholePr, wholeNone, onlyXop0, onlyReg, bits_xop_mkT, bits_op_mkT, bitsAt_ofNat]
  · show Instr.vdivF16 _ _ _ _ = _
    rcases bv1_cases w with rfl | rfl <;> simp [bits_xop_mkT, bits_op_mkT, bitsAt_ofNat]
theorem vminF16 (pr : BitVec 2) (w : BitVec 1) (t1 : BitVec 9) (t0 : BitVec 9) : Statement (.vminF16 pr w t1 t0) := by
  intro _ _
  show decodeWord (mkT 0x52 pr (w ++ (4 : BitVec 4)) t1 t0) = _
  refine (decodeWord_of_rowOf (r := .vminF16) ((rowOf_52 _ (mkT_ne_zero _ _ _ _ _ (by decide)) (major_mkT ..)).trans ?_)).trans (congrArg Except.ok ?_)
  · rcases bv1_cases w with rfl | rfl <;> simp [decodeHalf, wholePr, wholeNone, onlyXop0, onlyReg, bits_xop_mkT, bits_op_mkT, bitsAt_ofNat]
  · show Instr.vminF16 _ _ _ _ = _
    rcases bv1_cases w with rfl | rfl <;> simp [bits_xop_mkT, bits_op_mkT, bitsAt_ofNat]
theorem vmaxF16 (pr : BitVec 2) (w : BitVec 1) (t1 : BitVec 9) (t0 : BitVec 9) : Statement (.vmaxF16 pr w t1 t0) := by
  intro _ _
  show decodeWord (mkT 0x52 pr (w ++ (5 : BitVec 4)) t1 t0) = _
  refine (decodeWord_of_rowOf (r := .vmaxF16) ((rowOf_52 _ (mkT_ne_zero _ _ _ _ _ (by decide)) (major_mkT ..)).trans ?_)).trans (congrArg Except.ok ?_)
  · rcases bv1_cases w with rfl | rfl <;> simp [decodeHalf, wholePr, wholeNone, onlyXop0, onlyReg, bits_xop_mkT, bits_op_mkT, bitsAt_ofNat]
  · show Instr.vmaxF16 _ _ _ _ = _
    rcases bv1_cases w with rfl | rfl <;> simp [bits_xop_mkT, bits_op_mkT, bitsAt_ofNat]
theorem vabsF16 (pr : BitVec 2) (w : BitVec 1) (t1 : BitVec 9) (t0 : BitVec 9) : Statement (.vabsF16 pr w t1 t0) := by
  intro _ _
  show decodeWord (mkT 0x52 pr (w ++ (6 : BitVec 4)) t1 t0) = _
  refine (decodeWord_of_rowOf (r := .vabsF16) ((rowOf_52 _ (mkT_ne_zero _ _ _ _ _ (by decide)) (major_mkT ..)).trans ?_)).trans (congrArg Except.ok ?_)
  · rcases bv1_cases w with rfl | rfl <;> simp [decodeHalf, wholePr, wholeNone, onlyXop0, onlyReg, bits_xop_mkT, bits_op_mkT, bitsAt_ofNat]
  · show Instr.vabsF16 _ _ _ _ = _
    rcases bv1_cases w with rfl | rfl <;> simp [bits_xop_mkT, bits_op_mkT, bitsAt_ofNat]
theorem vnegF16 (pr : BitVec 2) (w : BitVec 1) (t1 : BitVec 9) (t0 : BitVec 9) : Statement (.vnegF16 pr w t1 t0) := by
  intro _ _
  show decodeWord (mkT 0x52 pr (w ++ (7 : BitVec 4)) t1 t0) = _
  refine (decodeWord_of_rowOf (r := .vnegF16) ((rowOf_52 _ (mkT_ne_zero _ _ _ _ _ (by decide)) (major_mkT ..)).trans ?_)).trans (congrArg Except.ok ?_)
  · rcases bv1_cases w with rfl | rfl <;> simp [decodeHalf, wholePr, wholeNone, onlyXop0, onlyReg, bits_xop_mkT, bits_op_mkT, bitsAt_ofNat]
  · show Instr.vnegF16 _ _ _ _ = _
    rcases bv1_cases w with rfl | rfl <;> simp [bits_xop_mkT, bits_op_mkT, bitsAt_ofNat]
theorem vsqrtF16 (pr : BitVec 2) (w : BitVec 1) (t1 : BitVec 9) (t0 : BitVec 9) : Statement (.vsqrtF16 pr w t1 t0) := by
  intro _ _
  show decodeWord (mkT 0x52 pr (w ++ (8 : BitVec 4)) t1 t0) = _
  refine (decodeWord_of_rowOf (r := .vsqrtF16) ((rowOf_52 _ (mkT_ne_zero _ _ _ _ _ (by decide)) (major_mkT ..)).trans ?_)).trans (congrArg Except.ok ?_)
  · rcases bv1_cases w with rfl | rfl <;> simp [decodeHalf, wholePr, wholeNone, onlyXop0, onlyReg, bits_xop_mkT, bits_op_mkT, bitsAt_ofNat]
  · show Instr.vsqrtF16 _ _ _ _ = _
    rcases bv1_cases w with rfl | rfl <;> simp [bits_xop_mkT, bits_op_mkT, bitsAt_ofNat]
theorem vrcpF16 (pr : BitVec 2) (w : BitVec 1) (t1 : BitVec 9) (t0 : BitVec 9) : Statement (.vrcpF16 pr w t1 t0) := by
  intro _ _
  show decodeWord (mkT 0x52 pr (w ++ (9 : BitVec 4)) t1 t0) = _
  refine (decodeWord_of_rowOf (r := .vrcpF16) ((rowOf_52 _ (mkT_ne_zero _ _ _ _ _ (by decide)) (major_mkT ..)).trans ?_)).trans (congrArg Except.ok ?_)
  · rcases bv1_cases w with rfl | rfl <;> simp [decodeHalf, wholePr, wholeNone, onlyXop0, onlyReg, bits_xop_mkT, bits_op_mkT, bitsAt_ofNat]
  · show Instr.vrcpF16 _ _ _ _ = _
    rcases bv1_cases w with rfl | rfl <;> simp [bits_xop_mkT, bits_op_mkT, bitsAt_ofNat]
theorem vrsqF16 (pr : BitVec 2) (w : BitVec 1) (t1 : BitVec 9) (t0 : BitVec 9) : Statement (.vrsqF16 pr w t1 t0) := by
  intro _ _
  show decodeWord (mkT 0x52 pr (w ++ (10 : BitVec 4)) t1 t0) = _
  refine (decodeWord_of_rowOf (r := .vrsqF16) ((rowOf_52 _ (mkT_ne_zero _ _ _ _ _ (by decide)) (major_mkT ..)).trans ?_)).trans (congrArg Except.ok ?_)
  · rcases bv1_cases w with rfl | rfl <;> simp [decodeHalf, wholePr, wholeNone, onlyXop0, onlyReg, bits_xop_mkT, bits_op_mkT, bitsAt_ofNat]
  · show Instr.vrsqF16 _ _ _ _ = _
    rcases bv1_cases w with rfl | rfl <;> simp [bits_xop_mkT, bits_op_mkT, bitsAt_ofNat]
theorem vexp2F16 (pr : BitVec 2) (w : BitVec 1) (t1 : BitVec 9) (t0 : BitVec 9) : Statement (.vexp2F16 pr w t1 t0) := by
  intro _ _
  show decodeWord (mkT 0x52 pr (w ++ (11 : BitVec 4)) t1 t0) = _
  refine (decodeWord_of_rowOf (r := .vexp2F16) ((rowOf_52 _ (mkT_ne_zero _ _ _ _ _ (by decide)) (major_mkT ..)).trans ?_)).trans (congrArg Except.ok ?_)
  · rcases bv1_cases w with rfl | rfl <;> simp [decodeHalf, wholePr, wholeNone, onlyXop0, onlyReg, bits_xop_mkT, bits_op_mkT, bitsAt_ofNat]
  · show Instr.vexp2F16 _ _ _ _ = _
    rcases bv1_cases w with rfl | rfl <;> simp [bits_xop_mkT, bits_op_mkT, bitsAt_ofNat]
theorem vlog2F16 (pr : BitVec 2) (w : BitVec 1) (t1 : BitVec 9) (t0 : BitVec 9) : Statement (.vlog2F16 pr w t1 t0) := by
  intro _ _
  show decodeWord (mkT 0x52 pr (w ++ (12 : BitVec 4)) t1 t0) = _
  refine (decodeWord_of_rowOf (r := .vlog2F16) ((rowOf_52 _ (mkT_ne_zero _ _ _ _ _ (by decide)) (major_mkT ..)).trans ?_)).trans (congrArg Except.ok ?_)
  · rcases bv1_cases w with rfl | rfl <;> simp [decodeHalf, wholePr, wholeNone, onlyXop0, onlyReg, bits_xop_mkT, bits_op_mkT, bitsAt_ofNat]
  · show Instr.vlog2F16 _ _ _ _ = _
    rcases bv1_cases w with rfl | rfl <;> simp [bits_xop_mkT, bits_op_mkT, bitsAt_ofNat]
theorem vtanhF16 (pr : BitVec 2) (w : BitVec 1) (t1 : BitVec 9) (t0 : BitVec 9) : Statement (.vtanhF16 pr w t1 t0) := by
  intro _ _
  show decodeWord (mkT 0x52 pr (w ++ (13 : BitVec 4)) t1 t0) = _
  refine (decodeWord_of_rowOf (r := .vtanhF16) ((rowOf_52 _ (mkT_ne_zero _ _ _ _ _ (by decide)) (major_mkT ..)).trans ?_)).trans (congrArg Except.ok ?_)
  · rcases bv1_cases w with rfl | rfl <;> simp [decodeHalf, wholePr, wholeNone, onlyXop0, onlyReg, bits_xop_mkT, bits_op_mkT, bitsAt_ofNat]
  · show Instr.vtanhF16 _ _ _ _ = _
    rcases bv1_cases w with rfl | rfl <;> simp [bits_xop_mkT, bits_op_mkT, bitsAt_ofNat]
theorem vsinF16 (pr : BitVec 2) (w : BitVec 1) (t1 : BitVec 9) (t0 : BitVec 9) : Statement (.vsinF16 pr w t1 t0) := by
  intro _ _
  show decodeWord (mkT 0x52 pr (w ++ (14 : BitVec 4)) t1 t0) = _
  refine (decodeWord_of_rowOf (r := .vsinF16) ((rowOf_52 _ (mkT_ne_zero _ _ _ _ _ (by decide)) (major_mkT ..)).trans ?_)).trans (congrArg Except.ok ?_)
  · rcases bv1_cases w with rfl | rfl <;> simp [decodeHalf, wholePr, wholeNone, onlyXop0, onlyReg, bits_xop_mkT, bits_op_mkT, bitsAt_ofNat]
  · show Instr.vsinF16 _ _ _ _ = _
    rcases bv1_cases w with rfl | rfl <;> simp [bits_xop_mkT, bits_op_mkT, bitsAt_ofNat]
theorem vcosF16 (pr : BitVec 2) (w : BitVec 1) (t1 : BitVec 9) (t0 : BitVec 9) : Statement (.vcosF16 pr w t1 t0) := by
  intro _ _
  show decodeWord (mkT 0x52 pr (w ++ (15 : BitVec 4)) t1 t0) = _
  refine (decodeWord_of_rowOf (r := .vcosF16) ((rowOf_52 _ (mkT_ne_zero _ _ _ _ _ (by decide)) (major_mkT ..)).trans ?_)).trans (congrArg Except.ok ?_)
  · rcases bv1_cases w with rfl | rfl <;> simp [decodeHalf, wholePr, wholeNone, onlyXop0, onlyReg, bits_xop_mkT, bits_op_mkT, bitsAt_ofNat]
  · show Instr.vcosF16 _ _ _ _ = _
    rcases bv1_cases w with rfl | rfl <;> simp [bits_xop_mkT, bits_op_mkT, bitsAt_ofNat]
theorem vaddI32 (pr : BitVec 2) (n : BitVec 1) (t1 : BitVec 9) (t0 : BitVec 9) : Statement (.vaddI32 pr n t1 t0) := by
  intro _ _
  show decodeWord (mkT 0x53 pr (n ++ (0 : BitVec 4)) t1 t0) = _
  refine (decodeWord_of_rowOf (r := .vaddI32) ((rowOf_53 _ (mkT_ne_zero _ _ _ _ _ (by decide)) (major_mkT ..)).trans ?_)).trans (congrArg Except.ok ?_)
  · rcases bv1_cases n with rfl | rfl <;> simp [decodeInt32, wholePr, wholeNone, onlyXop0, onlyReg, bits_xop_mkT, bits_op_mkT, bitsAt_ofNat]
  · show Instr.vaddI32 _ _ _ _ = _
    rcases bv1_cases n with rfl | rfl <;> simp [bits_xop_mkT, bits_op_mkT, bitsAt_ofNat]
theorem vsubI32 (pr : BitVec 2) (n : BitVec 1) (t1 : BitVec 9) (t0 : BitVec 9) : Statement (.vsubI32 pr n t1 t0) := by
  intro _ _
  show decodeWord (mkT 0x53 pr (n ++ (1 : BitVec 4)) t1 t0) = _
  refine (decodeWord_of_rowOf (r := .vsubI32) ((rowOf_53 _ (mkT_ne_zero _ _ _ _ _ (by decide)) (major_mkT ..)).trans ?_)).trans (congrArg Except.ok ?_)
  · rcases bv1_cases n with rfl | rfl <;> simp [decodeInt32, wholePr, wholeNone, onlyXop0, onlyReg, bits_xop_mkT, bits_op_mkT, bitsAt_ofNat]
  · show Instr.vsubI32 _ _ _ _ = _
    rcases bv1_cases n with rfl | rfl <;> simp [bits_xop_mkT, bits_op_mkT, bitsAt_ofNat]
theorem vmulI32 (pr : BitVec 2) (n : BitVec 1) (t1 : BitVec 9) (t0 : BitVec 9) : Statement (.vmulI32 pr n t1 t0) := by
  intro _ _
  show decodeWord (mkT 0x53 pr (n ++ (2 : BitVec 4)) t1 t0) = _
  refine (decodeWord_of_rowOf (r := .vmulI32) ((rowOf_53 _ (mkT_ne_zero _ _ _ _ _ (by decide)) (major_mkT ..)).trans ?_)).trans (congrArg Except.ok ?_)
  · rcases bv1_cases n with rfl | rfl <;> simp [decodeInt32, wholePr, wholeNone, onlyXop0, onlyReg, bits_xop_mkT, bits_op_mkT, bitsAt_ofNat]
  · show Instr.vmulI32 _ _ _ _ = _
    rcases bv1_cases n with rfl | rfl <;> simp [bits_xop_mkT, bits_op_mkT, bitsAt_ofNat]
theorem vmulhI32 (pr : BitVec 2) (n : BitVec 1) (t1 : BitVec 9) (t0 : BitVec 9) : Statement (.vmulhI32 pr n t1 t0) := by
  intro _ _
  show decodeWord (mkT 0x53 pr (n ++ (3 : BitVec 4)) t1 t0) = _
  refine (decodeWord_of_rowOf (r := .vmulhI32) ((rowOf_53 _ (mkT_ne_zero _ _ _ _ _ (by decide)) (major_mkT ..)).trans ?_)).trans (congrArg Except.ok ?_)
  · rcases bv1_cases n with rfl | rfl <;> simp [decodeInt32, wholePr, wholeNone, onlyXop0, onlyReg, bits_xop_mkT, bits_op_mkT, bitsAt_ofNat]
  · show Instr.vmulhI32 _ _ _ _ = _
    rcases bv1_cases n with rfl | rfl <;> simp [bits_xop_mkT, bits_op_mkT, bitsAt_ofNat]
theorem vminI32 (pr : BitVec 2) (n : BitVec 1) (t1 : BitVec 9) (t0 : BitVec 9) : Statement (.vminI32 pr n t1 t0) := by
  intro _ _
  show decodeWord (mkT 0x53 pr (n ++ (4 : BitVec 4)) t1 t0) = _
  refine (decodeWord_of_rowOf (r := .vminI32) ((rowOf_53 _ (mkT_ne_zero _ _ _ _ _ (by decide)) (major_mkT ..)).trans ?_)).trans (congrArg Except.ok ?_)
  · rcases bv1_cases n with rfl | rfl <;> simp [decodeInt32, wholePr, wholeNone, onlyXop0, onlyReg, bits_xop_mkT, bits_op_mkT, bitsAt_ofNat]
  · show Instr.vminI32 _ _ _ _ = _
    rcases bv1_cases n with rfl | rfl <;> simp [bits_xop_mkT, bits_op_mkT, bitsAt_ofNat]
theorem vmaxI32 (pr : BitVec 2) (n : BitVec 1) (t1 : BitVec 9) (t0 : BitVec 9) : Statement (.vmaxI32 pr n t1 t0) := by
  intro _ _
  show decodeWord (mkT 0x53 pr (n ++ (5 : BitVec 4)) t1 t0) = _
  refine (decodeWord_of_rowOf (r := .vmaxI32) ((rowOf_53 _ (mkT_ne_zero _ _ _ _ _ (by decide)) (major_mkT ..)).trans ?_)).trans (congrArg Except.ok ?_)
  · rcases bv1_cases n with rfl | rfl <;> simp [decodeInt32, wholePr, wholeNone, onlyXop0, onlyReg, bits_xop_mkT, bits_op_mkT, bitsAt_ofNat]
  · show Instr.vmaxI32 _ _ _ _ = _
    rcases bv1_cases n with rfl | rfl <;> simp [bits_xop_mkT, bits_op_mkT, bitsAt_ofNat]
theorem vabsI32 (pr : BitVec 2) (t1 : BitVec 9) (t0 : BitVec 9) : Statement (.vabsI32 pr t1 t0) := by
  intro _ _
  show decodeWord (mkT 0x53 pr 6 t1 t0) = _
  refine (decodeWord_of_rowOf (r := .vabsI32) ((rowOf_53 _ (mkT_ne_zero _ _ _ _ _ (by decide)) (major_mkT ..)).trans ?_)).trans (congrArg Except.ok ?_)
  · simp [decodeInt32, wholePr, wholeNone, onlyXop0, onlyReg, bits_xop_mkT, bits_op_mkT, bitsAt_ofNat]
  · show Instr.vabsI32 _ _ _ = _
    simp [bits_xop_mkT, bits_op_mkT, bitsAt_ofNat]
theorem vnegI32 (pr : BitVec 2) (t1 : BitVec 9) (t0 : BitVec 9) : Statement (.vnegI32 pr t1 t0) := by
  intro _ _
  show decodeWord (mkT 0x53 pr 7 t1 t0) = _
  refine (decodeWord_of_rowOf (r := .vnegI32) ((rowOf_53 _ (mkT_ne_zero _ _ _ _ _ (by decide)) (major_mkT ..)).trans ?_)).trans (congrArg Except.ok ?_)
  · simp [decodeInt32, wholePr, wholeNone, onlyXop0, onlyReg, bits_xop_mkT, bits_op_mkT, bitsAt_ofNat]
  · show Instr.vnegI32 _ _ _ = _
    simp [bits_xop_mkT, bits_op_mkT, bitsAt_ofNat]
theorem vandI32 (pr : BitVec 2) (t1 : BitVec 9) (t0 : BitVec 9) : Statement (.vandI32 pr t1 t0) := by
  intro _ _
  show decodeWord (mkT 0x53 pr 8 t1 t0) = _
  refine (decodeWord_of_rowOf (r := .vandI32) ((rowOf_53 _ (mkT_ne_zero _ _ _ _ _ (by decide)) (major_mkT ..)).trans ?_)).trans (congrArg Except.ok ?_)
  · simp [decodeInt32, wholePr, wholeNone, onlyXop0, onlyReg, bits_xop_mkT, bits_op_mkT, bitsAt_ofNat]
  · show Instr.vandI32 _ _ _ = _
    simp [bits_xop_mkT, bits_op_mkT, bitsAt_ofNat]
theorem vorI32 (pr : BitVec 2) (t1 : BitVec 9) (t0 : BitVec 9) : Statement (.vorI32 pr t1 t0) := by
  intro _ _
  show decodeWord (mkT 0x53 pr 9 t1 t0) = _
  refine (decodeWord_of_rowOf (r := .vorI32) ((rowOf_53 _ (mkT_ne_zero _ _ _ _ _ (by decide)) (major_mkT ..)).trans ?_)).trans (congrArg Except.ok ?_)
  · simp [decodeInt32, wholePr, wholeNone, onlyXop0, onlyReg, bits_xop_mkT, bits_op_mkT, bitsAt_ofNat]
  · show Instr.vorI32 _ _ _ = _
    simp [bits_xop_mkT, bits_op_mkT, bitsAt_ofNat]
theorem vxorI32 (pr : BitVec 2) (t1 : BitVec 9) (t0 : BitVec 9) : Statement (.vxorI32 pr t1 t0) := by
  intro _ _
  show decodeWord (mkT 0x53 pr 10 t1 t0) = _
  refine (decodeWord_of_rowOf (r := .vxorI32) ((rowOf_53 _ (mkT_ne_zero _ _ _ _ _ (by decide)) (major_mkT ..)).trans ?_)).trans (congrArg Except.ok ?_)
  · simp [decodeInt32, wholePr, wholeNone, onlyXop0, onlyReg, bits_xop_mkT, bits_op_mkT, bitsAt_ofNat]
  · show Instr.vxorI32 _ _ _ = _
    simp [bits_xop_mkT, bits_op_mkT, bitsAt_ofNat]
theorem vshlI32 (pr : BitVec 2) (n : BitVec 1) (t1 : BitVec 9) (t0 : BitVec 9) : Statement (.vshlI32 pr n t1 t0) := by
  intro _ _
  show decodeWord (mkT 0x53 pr (n ++ (11 : BitVec 4)) t1 t0) = _
  refine (decodeWord_of_rowOf (r := .vshlI32) ((rowOf_53 _ (mkT_ne_zero _ _ _ _ _ (by decide)) (major_mkT ..)).trans ?_)).trans (congrArg Except.ok ?_)
  · rcases bv1_cases n with rfl | rfl <;> simp [decodeInt32, wholePr, wholeNone, onlyXop0, onlyReg, bits_xop_mkT, bits_op_mkT, bitsAt_ofNat]
  · show Instr.vshlI32 _ _ _ _ = _
    rcases bv1_cases n with rfl | rfl <;> simp [bits_xop_mkT, bits_op_mkT, bitsAt_ofNat]
theorem vshrI32 (pr : BitVec 2) (t1 : BitVec 9) (t0 : BitVec 9) : Statement (.vshrI32 pr t1 t0) := by
  intro _ _
  show decodeWord (mkT 0x53 pr 12 t1 t0) = _
  refine (decodeWord_of_rowOf (r := .vshrI32) ((rowOf_53 _ (mkT_ne_zero _ _ _ _ _ (by decide)) (major_mkT ..)).trans ?_)).trans (congrArg Except.ok ?_)
  · simp [decodeInt32, wholePr, wholeNone, onlyXop0, onlyReg, bits_xop_mkT, bits_op_mkT, bitsAt_ofNat]
  · show Instr.vshrI32 _ _ _ = _
    simp [bits_xop_mkT, bits_op_mkT, bitsAt_ofNat]
theorem vsraI32 (pr : BitVec 2) (t1 : BitVec 9) (t0 : BitVec 9) : Statement (.vsraI32 pr t1 t0) := by
  intro _ _
  show decodeWord (mkT 0x53 pr 13 t1 t0) = _
  refine (decodeWord_of_rowOf (r := .vsraI32) ((rowOf_53 _ (mkT_ne_zero _ _ _ _ _ (by decide)) (major_mkT ..)).trans ?_)).trans (congrArg Except.ok ?_)
  · simp [decodeInt32, wholePr, wholeNone, onlyXop0, onlyReg, bits_xop_mkT, bits_op_mkT, bitsAt_ofNat]
  · show Instr.vsraI32 _ _ _ = _
    simp [bits_xop_mkT, bits_op_mkT, bitsAt_ofNat]
theorem vaddI16 (w : BitVec 1) (pr : BitVec 2) (n : BitVec 1) (t1 : BitVec 9) (t0 : BitVec 9) : Statement (.vaddI16 w pr n t1 t0) := by
  intro _ _
  show decodeWord (mkT ((0x2A : BitVec 6) ++ w) pr (n ++ (0 : BitVec 4)) t1 t0) = _
  rcases bv1_cases w with rfl | rfl
  · refine (decodeWord_of_rowOf (r := .vaddI16) ((rowOf_54 _ (mkT_ne_zero _ _ _ _ _ (by decide)) (major_mkT ..)).trans ?_)).trans (congrArg Except.ok ?_)
    · rcases bv1_cases n with rfl | rfl <;> simp [decodeInt16, wholePr, wholeNone, onlyXop0, onlyReg, bits_xop_mkT, bits_op_mkT, bitsAt_ofNat]
    · show Instr.vaddI16 _ _ _ _ _ = _
      rcases bv1_cases n with rfl | rfl <;> simp [bits_xop_mkT, bits_op_mkT, bitsAt_ofNat]
  · refine (decodeWord_of_rowOf (r := .vaddI16) ((rowOf_55 _ (mkT_ne_zero _ _ _ _ _ (by decide)) (major_mkT ..)).trans ?_)).trans (congrArg Except.ok ?_)
    · rcases bv1_cases n with rfl | rfl <;> simp [decodeInt16, wholePr, wholeNone, onlyXop0, onlyReg, bits_xop_mkT, bits_op_mkT, bitsAt_ofNat]
    · show Instr.vaddI16 _ _ _ _ _ = _
      rcases bv1_cases n with rfl | rfl <;> simp [bits_xop_mkT, bits_op_mkT, bitsAt_ofNat]
theorem vsubI16 (w : BitVec 1) (pr : BitVec 2) (n : BitVec 1) (t1 : BitVec 9) (t0 : BitVec 9) : Statement (.vsubI16 w pr n t1 t0) := by
  intro _ _
  show decodeWord (mkT ((0x2A : BitVec 6) ++ w) pr (n ++ (1 : BitVec 4)) t1 t0) = _
  rcases bv1_cases w with rfl | rfl
  · refine (decodeWord_of_rowOf (r := .vsubI16) ((rowOf_54 _ (mkT_ne_zero _ _ _ _ _ (by decide)) (major_mkT ..)).trans ?_)).trans (congrArg Except.ok ?_)
    · rcases bv1_cases n with rfl | rfl <;> simp [decodeInt16, wholePr, wholeNone, onlyXop0, onlyReg, bits_xop_mkT, bits_op_mkT, bitsAt_ofNat]
    · show Instr.vsubI16 _ _ _ _ _ = _
      rcases bv1_cases n with rfl | rfl <;> simp [bits_xop_mkT, bits_op_mkT, bitsAt_ofNat]
  · refine (decodeWord_of_rowOf (r := .vsubI16) ((rowOf_55 _ (mkT_ne_zero _ _ _ _ _ (by decide)) (major_mkT ..)).trans ?_)).trans (congrArg Except.ok ?_)
    · rcases bv1_cases n with rfl | rfl <;> simp [decodeInt16, wholePr, wholeNone, onlyXop0, onlyReg, bits_xop_mkT, bits_op_mkT, bitsAt_ofNat]
    · show Instr.vsubI16 _ _ _ _ _ = _
      rcases bv1_cases n with rfl | rfl <;> simp [bits_xop_mkT, bits_op_mkT, bitsAt_ofNat]
theorem vmulI16 (w : BitVec 1) (pr : BitVec 2) (n : BitVec 1) (t1 : BitVec 9) (t0 : BitVec 9) : Statement (.vmulI16 w pr n t1 t0) := by
  intro _ _
  show decodeWord (mkT ((0x2A : BitVec 6) ++ w) pr (n ++ (2 : BitVec 4)) t1 t0) = _
  rcases bv1_cases w with rfl | rfl
  · refine (decodeWord_of_rowOf (r := .vmulI16) ((rowOf_54 _ (mkT_ne_zero _ _ _ _ _ (by decide)) (major_mkT ..)).trans ?_)).trans (congrArg Except.ok ?_)
    · rcases bv1_cases n with rfl | rfl <;> simp [decodeInt16, wholePr, wholeNone, onlyXop0, onlyReg, bits_xop_mkT, bits_op_mkT, bitsAt_ofNat]
    · show Instr.vmulI16 _ _ _ _ _ = _
      rcases bv1_cases n with rfl | rfl <;> simp [bits_xop_mkT, bits_op_mkT, bitsAt_ofNat]
  · refine (decodeWord_of_rowOf (r := .vmulI16) ((rowOf_55 _ (mkT_ne_zero _ _ _ _ _ (by decide)) (major_mkT ..)).trans ?_)).trans (congrArg Except.ok ?_)
    · rcases bv1_cases n with rfl | rfl <;> simp [decodeInt16, wholePr, wholeNone, onlyXop0, onlyReg, bits_xop_mkT, bits_op_mkT, bitsAt_ofNat]
    · show Instr.vmulI16 _ _ _ _ _ = _
      rcases bv1_cases n with rfl | rfl <;> simp [bits_xop_mkT, bits_op_mkT, bitsAt_ofNat]
theorem vmulhI16 (w : BitVec 1) (pr : BitVec 2) (n : BitVec 1) (t1 : BitVec 9) (t0 : BitVec 9) : Statement (.vmulhI16 w pr n t1 t0) := by
  intro _ _
  show decodeWord (mkT ((0x2A : BitVec 6) ++ w) pr (n ++ (3 : BitVec 4)) t1 t0) = _
  rcases bv1_cases w with rfl | rfl
  · refine (decodeWord_of_rowOf (r := .vmulhI16) ((rowOf_54 _ (mkT_ne_zero _ _ _ _ _ (by decide)) (major_mkT ..)).trans ?_)).trans (congrArg Except.ok ?_)
    · rcases bv1_cases n with rfl | rfl <;> simp [decodeInt16, wholePr, wholeNone, onlyXop0, onlyReg, bits_xop_mkT, bits_op_mkT, bitsAt_ofNat]
    · show Instr.vmulhI16 _ _ _ _ _ = _
      rcases bv1_cases n with rfl | rfl <;> simp [bits_xop_mkT, bits_op_mkT, bitsAt_ofNat]
  · refine (decodeWord_of_rowOf (r := .vmulhI16) ((rowOf_55 _ (mkT_ne_zero _ _ _ _ _ (by decide)) (major_mkT ..)).trans ?_)).trans (congrArg Except.ok ?_)
    · rcases bv1_cases n with rfl | rfl <;> simp [decodeInt16, wholePr, wholeNone, onlyXop0, onlyReg, bits_xop_mkT, bits_op_mkT, bitsAt_ofNat]
    · show Instr.vmulhI16 _ _ _ _ _ = _
      rcases bv1_cases n with rfl | rfl <;> simp [bits_xop_mkT, bits_op_mkT, bitsAt_ofNat]
theorem vminI16 (w : BitVec 1) (pr : BitVec 2) (n : BitVec 1) (t1 : BitVec 9) (t0 : BitVec 9) : Statement (.vminI16 w pr n t1 t0) := by
  intro _ _
  show decodeWord (mkT ((0x2A : BitVec 6) ++ w) pr (n ++ (4 : BitVec 4)) t1 t0) = _
  rcases bv1_cases w with rfl | rfl
  · refine (decodeWord_of_rowOf (r := .vminI16) ((rowOf_54 _ (mkT_ne_zero _ _ _ _ _ (by decide)) (major_mkT ..)).trans ?_)).trans (congrArg Except.ok ?_)
    · rcases bv1_cases n with rfl | rfl <;> simp [decodeInt16, wholePr, wholeNone, onlyXop0, onlyReg, bits_xop_mkT, bits_op_mkT, bitsAt_ofNat]
    · show Instr.vminI16 _ _ _ _ _ = _
      rcases bv1_cases n with rfl | rfl <;> simp [bits_xop_mkT, bits_op_mkT, bitsAt_ofNat]
  · refine (decodeWord_of_rowOf (r := .vminI16) ((rowOf_55 _ (mkT_ne_zero _ _ _ _ _ (by decide)) (major_mkT ..)).trans ?_)).trans (congrArg Except.ok ?_)
    · rcases bv1_cases n with rfl | rfl <;> simp [decodeInt16, wholePr, wholeNone, onlyXop0, onlyReg, bits_xop_mkT, bits_op_mkT, bitsAt_ofNat]
    · show Instr.vminI16 _ _ _ _ _ = _
      rcases bv1_cases n with rfl | rfl <;> simp [bits_xop_mkT, bits_op_mkT, bitsAt_ofNat]
theorem vmaxI16 (w : BitVec 1) (pr : BitVec 2) (n : BitVec 1) (t1 : BitVec 9) (t0 : BitVec 9) : Statement (.vmaxI16 w pr n t1 t0) := by
  intro _ _
  show decodeWord (mkT ((0x2A : BitVec 6) ++ w) pr (n ++ (5 : BitVec 4)) t1 t0) = _
  rcases bv1_cases w with rfl | rfl
  · refine (decodeWord_of_rowOf (r := .vmaxI16) ((rowOf_54 _ (mkT_ne_zero _ _ _ _ _ (by decide)) (major_mkT ..)).trans ?_)).trans (congrArg Except.ok ?_)
    · rcases bv1_cases n with rfl | rfl <;> simp [decodeInt16, wholePr, wholeNone, onlyXop0, onlyReg, bits_xop_mkT, bits_op_mkT, bitsAt_ofNat]
    · show Instr.vmaxI16 _ _ _ _ _ = _
      rcases bv1_cases n with rfl | rfl <;> simp [bits_xop_mkT, bits_op_mkT, bitsAt_ofNat]
  · refine (decodeWord_of_rowOf (r := .vmaxI16) ((rowOf_55 _ (mkT_ne_zero _ _ _ _ _ (by decide)) (major_mkT ..)).trans ?_)).trans (congrArg Except.ok ?_)
    · rcases bv1_cases n with rfl | rfl <;> simp [decodeInt16, wholePr, wholeNone, onlyXop0, onlyReg, bits_xop_mkT, bits_op_mkT, bitsAt_ofNat]
    · show Instr.vmaxI16 _ _ _ _ _ = _
      rcases bv1_cases n with rfl | rfl <;> simp [bits_xop_mkT, bits_op_mkT, bitsAt_ofNat]
theorem vabsI16 (w : BitVec 1) (pr : BitVec 2) (t1 : BitVec 9) (t0 : BitVec 9) : Statement (.vabsI16 w pr t1 t0) := by
  intro _ _
  show decodeWord (mkT ((0x2A : BitVec 6) ++ w) pr 6 t1 t0) = _
  rcases bv1_cases w with rfl | rfl
  · refine (decodeWord_of_rowOf (r := .vabsI16) ((rowOf_54 _ (mkT_ne_zero _ _ _ _ _ (by decide)) (major_mkT ..)).trans ?_)).trans (congrArg Except.ok ?_)
    · simp [decodeInt16, wholePr, wholeNone, onlyXop0, onlyReg, bits_xop_mkT, bits_op_mkT, bitsAt_ofNat]
    · show Instr.vabsI16 _ _ _ _ = _
      simp [bits_xop_mkT, bits_op_mkT, bitsAt_ofNat]
  · refine (decodeWord_of_rowOf (r := .vabsI16) ((rowOf_55 _ (mkT_ne_zero _ _ _ _ _ (by decide)) (major_mkT ..)).trans ?_)).trans (congrArg Except.ok ?_)
    · simp [decodeInt16, wholePr, wholeNone, onlyXop0, onlyReg, bits_xop_mkT, bits_op_mkT, bitsAt_ofNat]
    · show Instr.vabsI16 _ _ _ _ = _
      simp [bits_xop_mkT, bits_op_mkT, bitsAt_ofNat]
theorem vnegI16 (w : BitVec 1) (pr : BitVec 2) (t1 : BitVec 9) (t0 : BitVec 9) : Statement (.vnegI16 w pr t1 t0) := by
  intro _ _
  show decodeWord (mkT ((0x2A : BitVec 6) ++ w) pr 7 t1 t0) = _
  rcases bv1_cases w with rfl | rfl
  · refine (decodeWord_of_rowOf (r := .vnegI16) ((rowOf_54 _ (mkT_ne_zero _ _ _ _ _ (by decide)) (major_mkT ..)).trans ?_)).trans (congrArg Except.ok ?_)
    · simp [decodeInt16, wholePr, wholeNone, onlyXop0, onlyReg, bits_xop_mkT, bits_op_mkT, bitsAt_ofNat]
    · show Instr.vnegI16 _ _ _ _ = _
      simp [bits_xop_mkT, bits_op_mkT, bitsAt_ofNat]
  · refine (decodeWord_of_rowOf (r := .vnegI16) ((rowOf_55 _ (mkT_ne_zero _ _ _ _ _ (by decide)) (major_mkT ..)).trans ?_)).trans (congrArg Except.ok ?_)
    · simp [decodeInt16, wholePr, wholeNone, onlyXop0, onlyReg, bits_xop_mkT, bits_op_mkT, bitsAt_ofNat]
    · show Instr.vnegI16 _ _ _ _ = _
      simp [bits_xop_mkT, bits_op_mkT, bitsAt_ofNat]
theorem vandI16 (w : BitVec 1) (pr : BitVec 2) (t1 : BitVec 9) (t0 : BitVec 9) : Statement (.vandI16 w pr t1 t0) := by
  intro _ _
  show decodeWord (mkT ((0x2A : BitVec 6) ++ w) pr 8 t1 t0) = _
  rcases bv1_cases w with rfl | rfl
  · refine (decodeWord_of_rowOf (r := .vandI16) ((rowOf_54 _ (mkT_ne_zero _ _ _ _ _ (by decide)) (major_mkT ..)).trans ?_)).trans (congrArg Except.ok ?_)
    · simp [decodeInt16, wholePr, wholeNone, onlyXop0, onlyReg, bits_xop_mkT, bits_op_mkT, bitsAt_ofNat]
    · show Instr.vandI16 _ _ _ _ = _
      simp [bits_xop_mkT, bits_op_mkT, bitsAt_ofNat]
  · refine (decodeWord_of_rowOf (r := .vandI16) ((rowOf_55 _ (mkT_ne_zero _ _ _ _ _ (by decide)) (major_mkT ..)).trans ?_)).trans (congrArg Except.ok ?_)
    · simp [decodeInt16, wholePr, wholeNone, onlyXop0, onlyReg, bits_xop_mkT, bits_op_mkT, bitsAt_ofNat]
    · show Instr.vandI16 _ _ _ _ = _
      simp [bits_xop_mkT, bits_op_mkT, bitsAt_ofNat]
theorem vorI16 (w : BitVec 1) (pr : BitVec 2) (t1 : BitVec 9) (t0 : BitVec 9) : Statement (.vorI16 w pr t1 t0) := by
  intro _ _
  show decodeWord (mkT ((0x2A : BitVec 6) ++ w) pr 9 t1 t0) = _
  rcases bv1_cases w with rfl | rfl
  · refine (decodeWord_of_rowOf (r := .vorI16) ((rowOf_54 _ (mkT_ne_zero _ _ _ _ _ (by decide)) (major_mkT ..)).trans ?_)).trans (congrArg Except.ok ?_)
    · simp [decodeInt16, wholePr, wholeNone, onlyXop0, onlyReg, bits_xop_mkT, bits_op_mkT, bitsAt_ofNat]
    · show Instr.vorI16 _ _ _ _ = _
      simp [bits_xop_mkT, bits_op_mkT, bitsAt_ofNat]
  · refine (decodeWord_of_rowOf (r := .vorI16) ((rowOf_55 _ (mkT_ne_zero _ _ _ _ _ (by decide)) (major_mkT ..)).trans ?_)).trans (congrArg Except.ok ?_)
    · simp [decodeInt16, wholePr, wholeNone, onlyXop0, onlyReg, bits_xop_mkT, bits_op_mkT, bitsAt_ofNat]
    · show Instr.vorI16 _ _ _ _ = _
      simp [bits_xop_mkT, bits_op_mkT, bitsAt_ofNat]
theorem vxorI16 (w : BitVec 1) (pr : BitVec 2) (t1 : BitVec 9) (t0 : BitVec 9) : Statement (.vxorI16 w pr t1 t0) := by
  intro _ _
  show decodeWord (mkT ((0x2A : BitVec 6) ++ w) pr 10 t1 t0) = _
  rcases bv1_cases w with rfl | rfl
  · refine (decodeWord_of_rowOf (r := .vxorI16) ((rowOf_54 _ (mkT_ne_zero _ _ _ _ _ (by decide)) (major_mkT ..)).trans ?_)).trans (congrArg Except.ok ?_)
    · simp [decodeInt16, wholePr, wholeNone, onlyXop0, onlyReg, bits_xop_mkT, bits_op_mkT, bitsAt_ofNat]
    · show Instr.vxorI16 _ _ _ _ = _
      simp [bits_xop_mkT, bits_op_mkT, bitsAt_ofNat]
  · refine (decodeWord_of_rowOf (r := .vxorI16) ((rowOf_55 _ (mkT_ne_zero _ _ _ _ _ (by decide)) (major_mkT ..)).trans ?_)).trans (congrArg Except.ok ?_)
    · simp [decodeInt16, wholePr, wholeNone, onlyXop0, onlyReg, bits_xop_mkT, bits_op_mkT, bitsAt_ofNat]
    · show Instr.vxorI16 _ _ _ _ = _
      simp [bits_xop_mkT, bits_op_mkT, bitsAt_ofNat]
theorem vshlI16 (w : BitVec 1) (pr : BitVec 2) (n : BitVec 1) (t1 : BitVec 9) (t0 : BitVec 9) : Statement (.vshlI16 w pr n t1 t0) := by
  intro _ _
  show decodeWord (mkT ((0x2A : BitVec 6) ++ w) pr (n ++ (11 : BitVec 4)) t1 t0) = _
  rcases bv1_cases w with rfl | rfl
  · refine (decodeWord_of_rowOf (r := .vshlI16) ((rowOf_54 _ (mkT_ne_zero _ _ _ _ _ (by decide)) (major_mkT ..)).trans ?_)).trans (congrArg Except.ok ?_)
    · rcases bv1_cases n with rfl | rfl <;> simp [decodeInt16, wholePr, wholeNone, onlyXop0, onlyReg, bits_xop_mkT, bits_op_mkT, bitsAt_ofNat]
    · show Instr.vshlI16 _ _ _ _ _ = _
      rcases bv1_cases n with rfl | rfl <;> simp [bits_xop_mkT, bits_op_mkT, bitsAt_ofNat]
  · refine (decodeWord_of_rowOf (r := .vshlI16) ((rowOf_55 _ (mkT_ne_zero _ _ _ _ _ (by decide)) (major_mkT ..)).trans ?_)).trans (congrArg Except.ok ?_)
    · rcases bv1_cases n with rfl | rfl <;> simp [decodeInt16, wholePr, wholeNone, onlyXop0, onlyReg, bits_xop_mkT, bits_op_mkT, bitsAt_ofNat]
    · show Instr.vshlI16 _ _ _ _ _ = _
      rcases bv1_cases n with rfl | rfl <;> simp [bits_xop_mkT, bits_op_mkT, bitsAt_ofNat]
theorem vshrI16 (w : BitVec 1) (pr : BitVec 2) (t1 : BitVec 9) (t0 : BitVec 9) : Statement (.vshrI16 w pr t1 t0) := by
  intro _ _
  show decodeWord (mkT ((0x2A : BitVec 6) ++ w) pr 12 t1 t0) = _
  rcases bv1_cases w with rfl | rfl
  · refine (decodeWord_of_rowOf (r := .vshrI16) ((rowOf_54 _ (mkT_ne_zero _ _ _ _ _ (by decide)) (major_mkT ..)).trans ?_)).trans (congrArg Except.ok ?_)
    · simp [decodeInt16, wholePr, wholeNone, onlyXop0, onlyReg, bits_xop_mkT, bits_op_mkT, bitsAt_ofNat]
    · show Instr.vshrI16 _ _ _ _ = _
      simp [bits_xop_mkT, bits_op_mkT, bitsAt_ofNat]
  · refine (decodeWord_of_rowOf (r := .vshrI16) ((rowOf_55 _ (mkT_ne_zero _ _ _ _ _ (by decide)) (major_mkT ..)).trans ?_)).trans (congrArg Except.ok ?_)
    · simp [decodeInt16, wholePr, wholeNone, onlyXop0, onlyReg, bits_xop_mkT, bits_op_mkT, bitsAt_ofNat]
    · show Instr.vshrI16 _ _ _ _ = _
      simp [bits_xop_mkT, bits_op_mkT, bitsAt_ofNat]
theorem vsraI16 (w : BitVec 1) (pr : BitVec 2) (t1 : BitVec 9) (t0 : BitVec 9) : Statement (.vsraI16 w pr t1 t0) := by
  intro _ _
  show decodeWord (mkT ((0x2A : BitVec 6) ++ w) pr 13 t1 t0) = _
  rcases bv1_cases w with rfl | rfl
  · refine (decodeWord_of_rowOf (r := .vsraI16) ((rowOf_54 _ (mkT_ne_zero _ _ _ _ _ (by decide)) (major_mkT ..)).trans ?_)).trans (congrArg Except.ok ?_)
    · simp [decodeInt16, wholePr, wholeNone, onlyXop0, onlyReg, bits_xop_mkT, bits_op_mkT, bitsAt_ofNat]
    · show Instr.vsraI16 _ _ _ _ = _
      simp [bits_xop_mkT, bits_op_mkT, bitsAt_ofNat]
  · refine (decodeWord_of_rowOf (r := .vsraI16) ((rowOf_55 _ (mkT_ne_zero _ _ _ _ _ (by decide)) (major_mkT ..)).trans ?_)).trans (congrArg Except.ok ?_)
    · simp [decodeInt16, wholePr, wholeNone, onlyXop0, onlyReg, bits_xop_mkT, bits_op_mkT, bitsAt_ofNat]
    · show Instr.vsraI16 _ _ _ _ = _
      simp [bits_xop_mkT, bits_op_mkT, bitsAt_ofNat]
theorem vfma (pr : BitVec 2) (w : BitVec 2) (t1 : BitVec 9) (t0 : BitVec 9) : Statement (.vfma pr w t1 t0) := by
  intro _ _
  show decodeWord (mkT 0x56 pr ((0 : BitVec 1) ++ w ++ (0 : BitVec 2)) t1 t0) = _
  refine (decodeWord_of_rowOf (r := .vfma) ((rowOf_56 _ (mkT_ne_zero _ _ _ _ _ (by decide)) (major_mkT ..)).trans ?_)).trans (congrArg Except.ok ?_)
  · rcases bv2_cases w with rfl | rfl | rfl | rfl <;> simp [decodeFma, wholePr, wholeNone, onlyXop0, onlyReg, bits_xop_mkT, bits_op_mkT, bitsAt_ofNat]
  · show Instr.vfma _ _ _ _ = _
    rcases bv2_cases w with rfl | rfl | rfl | rfl <;> simp [bits_xop_mkT, bits_op_mkT, bitsAt_ofNat]
theorem vfms (pr : BitVec 2) (w : BitVec 2) (t1 : BitVec 9) (t0 : BitVec 9) : Statement (.vfms pr w t1 t0) := by
  intro _ _
  show decodeWord (mkT 0x56 pr ((0 : BitVec 1) ++ w ++ (1 : BitVec 2)) t1 t0) = _
  refine (decodeWord_of_rowOf (r := .vfms) ((rowOf_56 _ (mkT_ne_zero _ _ _ _ _ (by decide)) (major_mkT ..)).trans ?_)).trans (congrArg Except.ok ?_)
  · rcases bv2_cases w with rfl | rfl | rfl | rfl <;> simp [decodeFma, wholePr, wholeNone, onlyXop0, onlyReg, bits_xop_mkT, bits_op_mkT, bitsAt_ofNat]
  · show Instr.vfms _ _ _ _ = _
    rcases bv2_cases w with rfl | rfl | rfl | rfl <;> simp [bits_xop_mkT, bits_op_mkT, bitsAt_ofNat]
theorem vnfma (pr : BitVec 2) (w : BitVec 2) (t1 : BitVec 9) (t0 : BitVec 9) : Statement (.vnfma pr w t1 t0) := by
  intro _ _
  show decodeWord (mkT 0x56 pr ((0 : BitVec 1) ++ w ++ (2 : BitVec 2)) t1 t0) = _
  refine (decodeWord_of_rowOf (r := .vnfma) ((rowOf_56 _ (mkT_ne_zero _ _ _ _ _ (by decide)) (major_mkT ..)).trans ?_)).trans (congrArg Except.ok ?_)
  · rcases bv2_cases w with rfl | rfl | rfl | rfl <;> simp [decodeFma, wholePr, wholeNone, onlyXop0, onlyReg, bits_xop_mkT, bits_op_mkT, bitsAt_ofNat]
  · show Instr.vnfma _ _ _ _ = _
    rcases bv2_cases w with rfl | rfl | rfl | rfl <;> simp [bits_xop_mkT, bits_op_mkT, bitsAt_ofNat]
theorem vnfms (pr : BitVec 2) (w : BitVec 2) (t1 : BitVec 9) (t0 : BitVec 9) : Statement (.vnfms pr w t1 t0) := by
  intro _ _
  show decodeWord (mkT 0x56 pr ((0 : BitVec 1) ++ w ++ (3 : BitVec 2)) t1 t0) = _
  refine (decodeWord_of_rowOf (r := .vnfms) ((rowOf_56 _ (mkT_ne_zero _ _ _ _ _ (by decide)) (major_mkT ..)).trans ?_)).trans (congrArg Except.ok ?_)
  · rcases bv2_cases w with rfl | rfl | rfl | rfl <;> simp [decodeFma, wholePr, wholeNone, onlyXop0, onlyReg, bits_xop_mkT, bits_op_mkT, bitsAt_ofNat]
  · show Instr.vnfms _ _ _ _ = _
    rcases bv2_cases w with rfl | rfl | rfl | rfl <;> simp [bits_xop_mkT, bits_op_mkT, bitsAt_ofNat]
theorem vcmpEq (pr : BitVec 2) (w : BitVec 3) (t1 : BitVec 9) (t0 : BitVec 9) : Statement (.vcmpEq pr w t1 t0) := by
  intro _ _
  show decodeWord (mkT 0x57 pr (w ++ (0 : BitVec 2)) t1 t0) = _
  refine (decodeWord_of_rowOf (r := .vcmpEq) ((rowOf_57 _ (mkT_ne_zero _ _ _ _ _ (by decide)) (major_mkT ..)).trans ?_)).trans (congrArg Except.ok ?_)
  · rcases bv3_cases w with rfl | rfl | rfl | rfl | rfl | rfl | rfl | rfl <;> simp [decodeVcmp, wholePr, wholeNone, onlyXop0, onlyReg, bits_xop_mkT, bits_op_mkT, bitsAt_ofNat]
  · show Instr.vcmpEq _ _ _ _ = _
    rcases bv3_cases w with rfl | rfl | rfl | rfl | rfl | rfl | rfl | rfl <;> simp [bits_xop_mkT, bits_op_mkT, bitsAt_ofNat]
theorem vcmpNe (pr : BitVec 2) (w : BitVec 3) (t1 : BitVec 9) (t0 : BitVec 9) : Statement (.vcmpNe pr w t1 t0) := by
  intro _ _
  show decodeWord (mkT 0x57 pr (w ++ (1 : BitVec 2)) t1 t0) = _
  refine (decodeWord_of_rowOf (r := .vcmpNe) ((rowOf_57 _ (mkT_ne_zero _ _ _ _ _ (by decide)) (major_mkT ..)).trans ?_)).trans (congrArg Except.ok ?_)
  · rcases bv3_cases w with rfl | rfl | rfl | rfl | rfl | rfl | rfl | rfl <;> simp [decodeVcmp, wholePr, wholeNone, onlyXop0, onlyReg, bits_xop_mkT, bits_op_mkT, bitsAt_ofNat]
  · show Instr.vcmpNe _ _ _ _ = _
    rcases bv3_cases w with rfl | rfl | rfl | rfl | rfl | rfl | rfl | rfl <;> simp [bits_xop_mkT, bits_op_mkT, bitsAt_ofNat]
theorem vcmpLt (pr : BitVec 2) (w : BitVec 3) (t1 : BitVec 9) (t0 : BitVec 9) : Statement (.vcmpLt pr w t1 t0) := by
  intro _ _
  show decodeWord (mkT 0x57 pr (w ++ (2 : BitVec 2)) t1 t0) = _
  refine (decodeWord_of_rowOf (r := .vcmpLt) ((rowOf_57 _ (mkT_ne_zero _ _ _ _ _ (by decide)) (major_mkT ..)).trans ?_)).trans (congrArg Except.ok ?_)
  · rcases bv3_cases w with rfl | rfl | rfl | rfl | rfl | rfl | rfl | rfl <;> simp [decodeVcmp, wholePr, wholeNone, onlyXop0, onlyReg, bits_xop_mkT, bits_op_mkT, bitsAt_ofNat]
  · show Instr.vcmpLt _ _ _ _ = _
    rcases bv3_cases w with rfl | rfl | rfl | rfl | rfl | rfl | rfl | rfl <;> simp [bits_xop_mkT, bits_op_mkT, bitsAt_ofNat]
theorem vcmpLe (pr : BitVec 2) (w : BitVec 3) (t1 : BitVec 9) (t0 : BitVec 9) : Statement (.vcmpLe pr w t1 t0) := by
  intro _ _
  show decodeWord (mkT 0x57 pr (w ++ (3 : BitVec 2)) t1 t0) = _
  refine (decodeWord_of_rowOf (r := .vcmpLe) ((rowOf_57 _ (mkT_ne_zero _ _ _ _ _ (by decide)) (major_mkT ..)).trans ?_)).trans (congrArg Except.ok ?_)
  · rcases bv3_cases w with rfl | rfl | rfl | rfl | rfl | rfl | rfl | rfl <;> simp [decodeVcmp, wholePr, wholeNone, onlyXop0, onlyReg, bits_xop_mkT, bits_op_mkT, bitsAt_ofNat]
  · show Instr.vcmpLe _ _ _ _ = _
    rcases bv3_cases w with rfl | rfl | rfl | rfl | rfl | rfl | rfl | rfl <;> simp [bits_xop_mkT, bits_op_mkT, bitsAt_ofNat]
theorem vcvtF32F64 (pr : BitVec 2) (t1 : BitVec 9) (t0 : BitVec 9) : Statement (.vcvtF32F64 pr t1 t0) := by
  intro _ _
  show decodeWord (mkT 0x58 pr 0 t1 t0) = _
  refine (decodeWord_of_rowOf (r := .vcvtF32F64) ((rowOf_58 _ (mkT_ne_zero _ _ _ _ _ (by decide)) (major_mkT ..)).trans ?_)).trans (congrArg Except.ok ?_)
  · simp [decodeVcvt, wholePr, wholeNone, onlyXop0, onlyReg, bits_xop_mkT, bits_op_mkT, bitsAt_ofNat]
  · show Instr.vcvtF32F64 _ _ _ = _
    simp [bits_xop_mkT, bits_op_mkT, bitsAt_ofNat]
theorem vcvtF64F32 (pr : BitVec 2) (t1 : BitVec 9) (t0 : BitVec 9) : Statement (.vcvtF64F32 pr t1 t0) := by
  intro _ _
  show decodeWord (mkT 0x58 pr 1 t1 t0) = _
  refine (decodeWord_of_rowOf (r := .vcvtF64F32) ((rowOf_58 _ (mkT_ne_zero _ _ _ _ _ (by decide)) (major_mkT ..)).trans ?_)).trans (congrArg Except.ok ?_)
  · simp [decodeVcvt, wholePr, wholeNone, onlyXop0, onlyReg, bits_xop_mkT, bits_op_mkT, bitsAt_ofNat]
  · show Instr.vcvtF64F32 _ _ _ = _
    simp [bits_xop_mkT, bits_op_mkT, bitsAt_ofNat]
theorem vcvtF16F32 (pr : BitVec 2) (t1 : BitVec 9) (t0 : BitVec 9) : Statement (.vcvtF16F32 pr t1 t0) := by
  intro _ _
  show decodeWord (mkT 0x58 pr 2 t1 t0) = _
  refine (decodeWord_of_rowOf (r := .vcvtF16F32) ((rowOf_58 _ (mkT_ne_zero _ _ _ _ _ (by decide)) (major_mkT ..)).trans ?_)).trans (congrArg Except.ok ?_)
  · simp [decodeVcvt, wholePr, wholeNone, onlyXop0, onlyReg, bits_xop_mkT, bits_op_mkT, bitsAt_ofNat]
  · show Instr.vcvtF16F32 _ _ _ = _
    simp [bits_xop_mkT, bits_op_mkT, bitsAt_ofNat]
theorem vcvtF32F16 (pr : BitVec 2) (t1 : BitVec 9) (t0 : BitVec 9) : Statement (.vcvtF32F16 pr t1 t0) := by
  intro _ _
  show decodeWord (mkT 0x58 pr 3 t1 t0) = _
  refine (decodeWord_of_rowOf (r := .vcvtF32F16) ((rowOf_58 _ (mkT_ne_zero _ _ _ _ _ (by decide)) (major_mkT ..)).trans ?_)).trans (congrArg Except.ok ?_)
  · simp [decodeVcvt, wholePr, wholeNone, onlyXop0, onlyReg, bits_xop_mkT, bits_op_mkT, bitsAt_ofNat]
  · show Instr.vcvtF32F16 _ _ _ = _
    simp [bits_xop_mkT, bits_op_mkT, bitsAt_ofNat]
theorem vcvtBf16F32 (pr : BitVec 2) (t1 : BitVec 9) (t0 : BitVec 9) : Statement (.vcvtBf16F32 pr t1 t0) := by
  intro _ _
  show decodeWord (mkT 0x58 pr 4 t1 t0) = _
  refine (decodeWord_of_rowOf (r := .vcvtBf16F32) ((rowOf_58 _ (mkT_ne_zero _ _ _ _ _ (by decide)) (major_mkT ..)).trans ?_)).trans (congrArg Except.ok ?_)
  · simp [decodeVcvt, wholePr, wholeNone, onlyXop0, onlyReg, bits_xop_mkT, bits_op_mkT, bitsAt_ofNat]
  · show Instr.vcvtBf16F32 _ _ _ = _
    simp [bits_xop_mkT, bits_op_mkT, bitsAt_ofNat]
theorem vcvtF32Bf16 (pr : BitVec 2) (t1 : BitVec 9) (t0 : BitVec 9) : Statement (.vcvtF32Bf16 pr t1 t0) := by
  intro _ _
  show decodeWord (mkT 0x58 pr 5 t1 t0) = _
  refine (decodeWord_of_rowOf (r := .vcvtF32Bf16) ((rowOf_58 _ (mkT_ne_zero _ _ _ _ _ (by decide)) (major_mkT ..)).trans ?_)).trans (congrArg Except.ok ?_)
  · simp [decodeVcvt, wholePr, wholeNone, onlyXop0, onlyReg, bits_xop_mkT, bits_op_mkT, bitsAt_ofNat]
  · show Instr.vcvtF32Bf16 _ _ _ = _
    simp [bits_xop_mkT, bits_op_mkT, bitsAt_ofNat]
theorem vcvtE4m3F32 (pr : BitVec 2) (t1 : BitVec 9) (t0 : BitVec 9) : Statement (.vcvtE4m3F32 pr t1 t0) := by
  intro _ _
  show decodeWord (mkT 0x58 pr 6 t1 t0) = _
  refine (decodeWord_of_rowOf (r := .vcvtE4m3F32) ((rowOf_58 _ (mkT_ne_zero _ _ _ _ _ (by decide)) (major_mkT ..)).trans ?_)).trans (congrArg Except.ok ?_)
  · simp [decodeVcvt, wholePr, wholeNone, onlyXop0, onlyReg, bits_xop_mkT, bits_op_mkT, bitsAt_ofNat]
  · show Instr.vcvtE4m3F32 _ _ _ = _
    simp [bits_xop_mkT, bits_op_mkT, bitsAt_ofNat]
theorem vcvtE5m2F32 (pr : BitVec 2) (t1 : BitVec 9) (t0 : BitVec 9) : Statement (.vcvtE5m2F32 pr t1 t0) := by
  intro _ _
  show decodeWord (mkT 0x58 pr 7 t1 t0) = _
  refine (decodeWord_of_rowOf (r := .vcvtE5m2F32) ((rowOf_58 _ (mkT_ne_zero _ _ _ _ _ (by decide)) (major_mkT ..)).trans ?_)).trans (congrArg Except.ok ?_)
  · simp [decodeVcvt, wholePr, wholeNone, onlyXop0, onlyReg, bits_xop_mkT, bits_op_mkT, bitsAt_ofNat]
  · show Instr.vcvtE5m2F32 _ _ _ = _
    simp [bits_xop_mkT, bits_op_mkT, bitsAt_ofNat]
theorem vcvtE4m3F32Nosat (pr : BitVec 2) (t1 : BitVec 9) (t0 : BitVec 9) : Statement (.vcvtE4m3F32Nosat pr t1 t0) := by
  intro _ _
  show decodeWord (mkT 0x58 pr 8 t1 t0) = _
  refine (decodeWord_of_rowOf (r := .vcvtE4m3F32Nosat) ((rowOf_58 _ (mkT_ne_zero _ _ _ _ _ (by decide)) (major_mkT ..)).trans ?_)).trans (congrArg Except.ok ?_)
  · simp [decodeVcvt, wholePr, wholeNone, onlyXop0, onlyReg, bits_xop_mkT, bits_op_mkT, bitsAt_ofNat]
  · show Instr.vcvtE4m3F32Nosat _ _ _ = _
    simp [bits_xop_mkT, bits_op_mkT, bitsAt_ofNat]
theorem vcvtE5m2F32Nosat (pr : BitVec 2) (t1 : BitVec 9) (t0 : BitVec 9) : Statement (.vcvtE5m2F32Nosat pr t1 t0) := by
  intro _ _
  show decodeWord (mkT 0x58 pr 9 t1 t0) = _
  refine (decodeWord_of_rowOf (r := .vcvtE5m2F32Nosat) ((rowOf_58 _ (mkT_ne_zero _ _ _ _ _ (by decide)) (major_mkT ..)).trans ?_)).trans (congrArg Except.ok ?_)
  · simp [decodeVcvt, wholePr, wholeNone, onlyXop0, onlyReg, bits_xop_mkT, bits_op_mkT, bitsAt_ofNat]
  · show Instr.vcvtE5m2F32Nosat _ _ _ = _
    simp [bits_xop_mkT, bits_op_mkT, bitsAt_ofNat]
theorem vcvtF32E4m3 (pr : BitVec 2) (t1 : BitVec 9) (t0 : BitVec 9) : Statement (.vcvtF32E4m3 pr t1 t0) := by
  intro _ _
  show decodeWord (mkT 0x58 pr 10 t1 t0) = _
  refine (decodeWord_of_rowOf (r := .vcvtF32E4m3) ((rowOf_58 _ (mkT_ne_zero _ _ _ _ _ (by decide)) (major_mkT ..)).trans ?_)).trans (congrArg Except.ok ?_)
  · simp [decodeVcvt, wholePr, wholeNone, onlyXop0, onlyReg, bits_xop_mkT, bits_op_mkT, bitsAt_ofNat]
  · show Instr.vcvtF32E4m3 _ _ _ = _
    simp [bits_xop_mkT, bits_op_mkT, bitsAt_ofNat]
theorem vcvtF32E5m2 (pr : BitVec 2) (t1 : BitVec 9) (t0 : BitVec 9) : Statement (.vcvtF32E5m2 pr t1 t0) := by
  intro _ _
  show decodeWord (mkT 0x58 pr 11 t1 t0) = _
  refine (decodeWord_of_rowOf (r := .vcvtF32E5m2) ((rowOf_58 _ (mkT_ne_zero _ _ _ _ _ (by decide)) (major_mkT ..)).trans ?_)).trans (congrArg Except.ok ?_)
  · simp [decodeVcvt, wholePr, wholeNone, onlyXop0, onlyReg, bits_xop_mkT, bits_op_mkT, bitsAt_ofNat]
  · show Instr.vcvtF32E5m2 _ _ _ = _
    simp [bits_xop_mkT, bits_op_mkT, bitsAt_ofNat]
theorem vcvtI32F32 (pr : BitVec 2) (t1 : BitVec 9) (t0 : BitVec 9) : Statement (.vcvtI32F32 pr t1 t0) := by
  intro _ _
  show decodeWord (mkT 0x58 pr 12 t1 t0) = _
  refine (decodeWord_of_rowOf (r := .vcvtI32F32) ((rowOf_58 _ (mkT_ne_zero _ _ _ _ _ (by decide)) (major_mkT ..)).trans ?_)).trans (congrArg Except.ok ?_)
  · simp [decodeVcvt, wholePr, wholeNone, onlyXop0, onlyReg, bits_xop_mkT, bits_op_mkT, bitsAt_ofNat]
  · show Instr.vcvtI32F32 _ _ _ = _
    simp [bits_xop_mkT, bits_op_mkT, bitsAt_ofNat]
theorem vcvtN32F32 (pr : BitVec 2) (t1 : BitVec 9) (t0 : BitVec 9) : Statement (.vcvtN32F32 pr t1 t0) := by
  intro _ _
  show decodeWord (mkT 0x58 pr 13 t1 t0) = _
  refine (decodeWord_of_rowOf (r := .vcvtN32F32) ((rowOf_58 _ (mkT_ne_zero _ _ _ _ _ (by decide)) (major_mkT ..)).trans ?_)).trans (congrArg Except.ok ?_)
  · simp [decodeVcvt, wholePr, wholeNone, onlyXop0, onlyReg, bits_xop_mkT, bits_op_mkT, bitsAt_ofNat]
  · show Instr.vcvtN32F32 _ _ _ = _
    simp [bits_xop_mkT, bits_op_mkT, bitsAt_ofNat]
theorem vcvtF32I32 (pr : BitVec 2) (t1 : BitVec 9) (t0 : BitVec 9) : Statement (.vcvtF32I32 pr t1 t0) := by
  intro _ _
  show decodeWord (mkT 0x58 pr 14 t1 t0) = _
  refine (decodeWord_of_rowOf (r := .vcvtF32I32) ((rowOf_58 _ (mkT_ne_zero _ _ _ _ _ (by decide)) (major_mkT ..)).trans ?_)).trans (congrArg Except.ok ?_)
  · simp [decodeVcvt, wholePr, wholeNone, onlyXop0, onlyReg, bits_xop_mkT, bits_op_mkT, bitsAt_ofNat]
  · show Instr.vcvtF32I32 _ _ _ = _
    simp [bits_xop_mkT, bits_op_mkT, bitsAt_ofNat]
theorem vcvtF32N32 (pr : BitVec 2) (t1 : BitVec 9) (t0 : BitVec 9) : Statement (.vcvtF32N32 pr t1 t0) := by
  intro _ _
  show decodeWord (mkT 0x58 pr 15 t1 t0) = _
  refine (decodeWord_of_rowOf (r := .vcvtF32N32) ((rowOf_58 _ (mkT_ne_zero _ _ _ _ _ (by decide)) (major_mkT ..)).trans ?_)).trans (congrArg Except.ok ?_)
  · simp [decodeVcvt, wholePr, wholeNone, onlyXop0, onlyReg, bits_xop_mkT, bits_op_mkT, bitsAt_ofNat]
  · show Instr.vcvtF32N32 _ _ _ = _
    simp [bits_xop_mkT, bits_op_mkT, bitsAt_ofNat]
theorem vcvtI64F64 (pr : BitVec 2) (t1 : BitVec 9) (t0 : BitVec 9) : Statement (.vcvtI64F64 pr t1 t0) := by
  intro _ _
  show decodeWord (mkT 0x58 pr 16 t1 t0) = _
  refine (decodeWord_of_rowOf (r := .vcvtI64F64) ((rowOf_58 _ (mkT_ne_zero _ _ _ _ _ (by decide)) (major_mkT ..)).trans ?_)).trans (congrArg Except.ok ?_)
  · simp [decodeVcvt, wholePr, wholeNone, onlyXop0, onlyReg, bits_xop_mkT, bits_op_mkT, bitsAt_ofNat]
  · show Instr.vcvtI64F64 _ _ _ = _
    simp [bits_xop_mkT, bits_op_mkT, bitsAt_ofNat]
theorem vcvtN64F64 (pr : BitVec 2) (t1 : BitVec 9) (t0 : BitVec 9) : Statement (.vcvtN64F64 pr t1 t0) := by
  intro _ _
  show decodeWord (mkT 0x58 pr 17 t1 t0) = _
  refine (decodeWord_of_rowOf (r := .vcvtN64F64) ((rowOf_58 _ (mkT_ne_zero _ _ _ _ _ (by decide)) (major_mkT ..)).trans ?_)).trans (congrArg Except.ok ?_)
  · simp [decodeVcvt, wholePr, wholeNone, onlyXop0, onlyReg, bits_xop_mkT, bits_op_mkT, bitsAt_ofNat]
  · show Instr.vcvtN64F64 _ _ _ = _
    simp [bits_xop_mkT, bits_op_mkT, bitsAt_ofNat]
theorem vcvtF64I64 (pr : BitVec 2) (t1 : BitVec 9) (t0 : BitVec 9) : Statement (.vcvtF64I64 pr t1 t0) := by
  intro _ _
  show decodeWord (mkT 0x58 pr 18 t1 t0) = _
  refine (decodeWord_of_rowOf (r := .vcvtF64I64) ((rowOf_58 _ (mkT_ne_zero _ _ _ _ _ (by decide)) (major_mkT ..)).trans ?_)).trans (congrArg Except.ok ?_)
  · simp [decodeVcvt, wholePr, wholeNone, onlyXop0, onlyReg, bits_xop_mkT, bits_op_mkT, bitsAt_ofNat]
  · show Instr.vcvtF64I64 _ _ _ = _
    simp [bits_xop_mkT, bits_op_mkT, bitsAt_ofNat]
theorem vcvtF64N64 (pr : BitVec 2) (t1 : BitVec 9) (t0 : BitVec 9) : Statement (.vcvtF64N64 pr t1 t0) := by
  intro _ _
  show decodeWord (mkT 0x58 pr 19 t1 t0) = _
  refine (decodeWord_of_rowOf (r := .vcvtF64N64) ((rowOf_58 _ (mkT_ne_zero _ _ _ _ _ (by decide)) (major_mkT ..)).trans ?_)).trans (congrArg Except.ok ?_)
  · simp [decodeVcvt, wholePr, wholeNone, onlyXop0, onlyReg, bits_xop_mkT, bits_op_mkT, bitsAt_ofNat]
  · show Instr.vcvtF64N64 _ _ _ = _
    simp [bits_xop_mkT, bits_op_mkT, bitsAt_ofNat]
theorem vcvtI16I32 (pr : BitVec 2) (t1 : BitVec 9) (t0 : BitVec 9) : Statement (.vcvtI16I32 pr t1 t0) := by
  intro _ _
  show decodeWord (mkT 0x58 pr 20 t1 t0) = _
  refine (decodeWord_of_rowOf (r := .vcvtI16I32) ((rowOf_58 _ (mkT_ne_zero _ _ _ _ _ (by decide)) (major_mkT ..)).trans ?_)).trans (congrArg Except.ok ?_)
  · simp [decodeVcvt, wholePr, wholeNone, onlyXop0, onlyReg, bits_xop_mkT, bits_op_mkT, bitsAt_ofNat]
  · show Instr.vcvtI16I32 _ _ _ = _
    simp [bits_xop_mkT, bits_op_mkT, bitsAt_ofNat]
theorem vcvtI8I32 (pr : BitVec 2) (t1 : BitVec 9) (t0 : BitVec 9) : Statement (.vcvtI8I32 pr t1 t0) := by
  intro _ _
  show decodeWord (mkT 0x58 pr 21 t1 t0) = _
  refine (decodeWord_of_rowOf (r := .vcvtI8I32) ((rowOf_58 _ (mkT_ne_zero _ _ _ _ _ (by decide)) (major_mkT ..)).trans ?_)).trans (congrArg Except.ok ?_)
  · simp [decodeVcvt, wholePr, wholeNone, onlyXop0, onlyReg, bits_xop_mkT, bits_op_mkT, bitsAt_ofNat]
  · show Instr.vcvtI8I32 _ _ _ = _
    simp [bits_xop_mkT, bits_op_mkT, bitsAt_ofNat]
theorem vcvtI32I16 (pr : BitVec 2) (t1 : BitVec 9) (t0 : BitVec 9) : Statement (.vcvtI32I16 pr t1 t0) := by
  intro _ _
  show decodeWord (mkT 0x58 pr 22 t1 t0) = _
  refine (decodeWord_of_rowOf (r := .vcvtI32I16) ((rowOf_58 _ (mkT_ne_zero _ _ _ _ _ (by decide)) (major_mkT ..)).trans ?_)).trans (congrArg Except.ok ?_)
  · simp [decodeVcvt, wholePr, wholeNone, onlyXop0, onlyReg, bits_xop_mkT, bits_op_mkT, bitsAt_ofNat]
  · show Instr.vcvtI32I16 _ _ _ = _
    simp [bits_xop_mkT, bits_op_mkT, bitsAt_ofNat]
theorem vcvtI32I8 (pr : BitVec 2) (t1 : BitVec 9) (t0 : BitVec 9) : Statement (.vcvtI32I8 pr t1 t0) := by
  intro _ _
  show decodeWord (mkT 0x58 pr 23 t1 t0) = _
  refine (decodeWord_of_rowOf (r := .vcvtI32I8) ((rowOf_58 _ (mkT_ne_zero _ _ _ _ _ (by decide)) (major_mkT ..)).trans ?_)).trans (congrArg Except.ok ?_)
  · simp [decodeVcvt, wholePr, wholeNone, onlyXop0, onlyReg, bits_xop_mkT, bits_op_mkT, bitsAt_ofNat]
  · show Instr.vcvtI32I8 _ _ _ = _
    simp [bits_xop_mkT, bits_op_mkT, bitsAt_ofNat]
theorem vshuf (pr : BitVec 2) (w : BitVec 1) (t1 : BitVec 9) (t0 : BitVec 9) : Statement (.vshuf pr w t1 t0) := by
  intro _ _
  show decodeWord (mkT 0x59 pr (w ++ (0 : BitVec 4)) t1 t0) = _
  refine (decodeWord_of_rowOf (r := .vshuf) ((rowOf_59 _ (mkT_ne_zero _ _ _ _ _ (by decide)) (major_mkT ..)).trans ?_)).trans (congrArg Except.ok ?_)
  · rcases bv1_cases w with rfl | rfl <;> simp [decodePermute, wholePr, wholeNone, onlyXop0, onlyReg, bits_xop_mkT, bits_op_mkT, bitsAt_ofNat]
  · show Instr.vshuf _ _ _ _ = _
    rcases bv1_cases w with rfl | rfl <;> simp [bits_xop_mkT, bits_op_mkT, bitsAt_ofNat]
theorem vbcast (pr : BitVec 2) (w : BitVec 1) (t1 : BitVec 9) (t0 : BitVec 9) : Statement (.vbcast pr w t1 t0) := by
  intro _ _
  show decodeWord (mkT 0x59 pr (w ++ (1 : BitVec 4)) t1 t0) = _
  refine (decodeWord_of_rowOf (r := .vbcast) ((rowOf_59 _ (mkT_ne_zero _ _ _ _ _ (by decide)) (major_mkT ..)).trans ?_)).trans (congrArg Except.ok ?_)
  · rcases bv1_cases w with rfl | rfl <;> simp [decodePermute, wholePr, wholeNone, onlyXop0, onlyReg, bits_xop_mkT, bits_op_mkT, bitsAt_ofNat]
  · show Instr.vbcast _ _ _ _ = _
    rcases bv1_cases w with rfl | rfl <;> simp [bits_xop_mkT, bits_op_mkT, bitsAt_ofNat]
theorem vrot (pr : BitVec 2) (w : BitVec 1) (t1 : BitVec 9) (t0 : BitVec 9) : Statement (.vrot pr w t1 t0) := by
  intro _ _
  show decodeWord (mkT 0x59 pr (w ++ (2 : BitVec 4)) t1 t0) = _
  refine (decodeWord_of_rowOf (r := .vrot) ((rowOf_59 _ (mkT_ne_zero _ _ _ _ _ (by decide)) (major_mkT ..)).trans ?_)).trans (congrArg Except.ok ?_)
  · rcases bv1_cases w with rfl | rfl <;> simp [decodePermute, wholePr, wholeNone, onlyXop0, onlyReg, bits_xop_mkT, bits_op_mkT, bitsAt_ofNat]
  · show Instr.vrot _ _ _ _ = _
    rcases bv1_cases w with rfl | rfl <;> simp [bits_xop_mkT, bits_op_mkT, bitsAt_ofNat]
theorem viota (pr : BitVec 2) (w : BitVec 1) (t1 : BitVec 9) (t0 : BitVec 9) : Statement (.viota pr w t1 t0) := by
  intro _ _
  show decodeWord (mkT 0x59 pr (w ++ (3 : BitVec 4)) t1 t0) = _
  refine (decodeWord_of_rowOf (r := .viota) ((rowOf_59 _ (mkT_ne_zero _ _ _ _ _ (by decide)) (major_mkT ..)).trans ?_)).trans (congrArg Except.ok ?_)
  · rcases bv1_cases w with rfl | rfl <;> simp [decodePermute, wholePr, wholeNone, onlyXop0, onlyReg, bits_xop_mkT, bits_op_mkT, bitsAt_ofNat]
  · show Instr.viota _ _ _ _ = _
    rcases bv1_cases w with rfl | rfl <;> simp [bits_xop_mkT, bits_op_mkT, bitsAt_ofNat]
theorem vcomp (pr : BitVec 2) (w : BitVec 1) (t1 : BitVec 9) (t0 : BitVec 9) : Statement (.vcomp pr w t1 t0) := by
  intro _ _
  show decodeWord (mkT 0x59 pr (w ++ (4 : BitVec 4)) t1 t0) = _
  refine (decodeWord_of_rowOf (r := .vcomp) ((rowOf_59 _ (mkT_ne_zero _ _ _ _ _ (by decide)) (major_mkT ..)).trans ?_)).trans (congrArg Except.ok ?_)
  · rcases bv1_cases w with rfl | rfl <;> simp [decodePermute, wholePr, wholeNone, onlyXop0, onlyReg, bits_xop_mkT, bits_op_mkT, bitsAt_ofNat]
  · show Instr.vcomp _ _ _ _ = _
    rcases bv1_cases w with rfl | rfl <;> simp [bits_xop_mkT, bits_op_mkT, bitsAt_ofNat]
theorem vexpand (pr : BitVec 2) (w : BitVec 1) (t1 : BitVec 9) (t0 : BitVec 9) : Statement (.vexpand pr w t1 t0) := by
  intro _ _
  show decodeWord (mkT 0x59 pr (w ++ (5 : BitVec 4)) t1 t0) = _
  refine (decodeWord_of_rowOf (r := .vexpand) ((rowOf_59 _ (mkT_ne_zero _ _ _ _ _ (by decide)) (major_mkT ..)).trans ?_)).trans (congrArg Except.ok ?_)
  · rcases bv1_cases w with rfl | rfl <;> simp [decodePermute, wholePr, wholeNone, onlyXop0, onlyReg, bits_xop_mkT, bits_op_mkT, bitsAt_ofNat]
  · show Instr.vexpand _ _ _ _ = _
    rcases bv1_cases w with rfl | rfl <;> simp [bits_xop_mkT, bits_op_mkT, bitsAt_ofNat]
theorem vzip (pr : BitVec 2) (w : BitVec 1) (t1 : BitVec 9) (t0 : BitVec 9) : Statement (.vzip pr w t1 t0) := by
  intro _ _
  show decodeWord (mkT 0x59 pr (w ++ (6 : BitVec 4)) t1 t0) = _
  refine (decodeWord_of_rowOf (r := .vzip) ((rowOf_59 _ (mkT_ne_zero _ _ _ _ _ (by decide)) (major_mkT ..)).trans ?_)).trans (congrArg Except.ok ?_)
  · rcases bv1_cases w with rfl | rfl <;> simp [decodePermute, wholePr, wholeNone, onlyXop0, onlyReg, bits_xop_mkT, bits_op_mkT, bitsAt_ofNat]
  · show Instr.vzip _ _ _ _ = _
    rcases bv1_cases w with rfl | rfl <;> simp [bits_xop_mkT, bits_op_mkT, bitsAt_ofNat]
theorem vunzip (pr : BitVec 2) (w : BitVec 1) (t1 : BitVec 9) (t0 : BitVec 9) : Statement (.vunzip pr w t1 t0) := by
  intro _ _
  show decodeWord (mkT 0x59 pr (w ++ (7 : BitVec 4)) t1 t0) = _
  refine (decodeWord_of_rowOf (r := .vunzip) ((rowOf_59 _ (mkT_ne_zero _ _ _ _ _ (by decide)) (major_mkT ..)).trans ?_)).trans (congrArg Except.ok ?_)
  · rcases bv1_cases w with rfl | rfl <;> simp [decodePermute, wholePr, wholeNone, onlyXop0, onlyReg, bits_xop_mkT, bits_op_mkT, bitsAt_ofNat]
  · show Instr.vunzip _ _ _ _ = _
    rcases bv1_cases w with rfl | rfl <;> simp [bits_xop_mkT, bits_op_mkT, bitsAt_ofNat]
theorem vnz (pr : BitVec 2) (w : BitVec 1) (t1 : BitVec 9) (t0 : BitVec 9) : Statement (.vnz pr w t1 t0) := by
  intro _ _
  show decodeWord (mkT 0x59 pr (w ++ (8 : BitVec 4)) t1 t0) = _
  refine (decodeWord_of_rowOf (r := .vnz) ((rowOf_59 _ (mkT_ne_zero _ _ _ _ _ (by decide)) (major_mkT ..)).trans ?_)).trans (congrArg Except.ok ?_)
  · rcases bv1_cases w with rfl | rfl <;> simp [decodePermute, wholePr, wholeNone, onlyXop0, onlyReg, bits_xop_mkT, bits_op_mkT, bitsAt_ofNat]
  · show Instr.vnz _ _ _ _ = _
    rcases bv1_cases w with rfl | rfl <;> simp [bits_xop_mkT, bits_op_mkT, bitsAt_ofNat]
theorem vnzi (pr : BitVec 2) (w : BitVec 1) (t1 : BitVec 9) (t0 : BitVec 9) : Statement (.vnzi pr w t1 t0) := by
  intro _ _
  show decodeWord (mkT 0x59 pr (w ++ (9 : BitVec 4)) t1 t0) = _
  refine (decodeWord_of_rowOf (r := .vnzi) ((rowOf_59 _ (mkT_ne_zero _ _ _ _ _ (by decide)) (major_mkT ..)).trans ?_)).trans (congrArg Except.ok ?_)
  · rcases bv1_cases w with rfl | rfl <;> simp [decodePermute, wholePr, wholeNone, onlyXop0, onlyReg, bits_xop_mkT, bits_op_mkT, bitsAt_ofNat]
  · show Instr.vnzi _ _ _ _ = _
    rcases bv1_cases w with rfl | rfl <;> simp [bits_xop_mkT, bits_op_mkT, bitsAt_ofNat]
theorem vins (pr : BitVec 2) (w : BitVec 1) (t1 : BitVec 9) (t0 : BitVec 9) : Statement (.vins pr w t1 t0) := by
  intro _ _
  show decodeWord (mkT 0x59 pr (w ++ (10 : BitVec 4)) t1 t0) = _
  refine (decodeWord_of_rowOf (r := .vins) ((rowOf_59 _ (mkT_ne_zero _ _ _ _ _ (by decide)) (major_mkT ..)).trans ?_)).trans (congrArg Except.ok ?_)
  · rcases bv1_cases w with rfl | rfl <;> simp [decodePermute, wholePr, wholeNone, onlyXop0, onlyReg, bits_xop_mkT, bits_op_mkT, bitsAt_ofNat]
  · show Instr.vins _ _ _ _ = _
    rcases bv1_cases w with rfl | rfl <;> simp [bits_xop_mkT, bits_op_mkT, bitsAt_ofNat]
theorem vext (pr : BitVec 2) (w : BitVec 1) (t1 : BitVec 9) (t0 : BitVec 9) : Statement (.vext pr w t1 t0) := by
  intro _ _
  show decodeWord (mkT 0x59 pr (w ++ (11 : BitVec 4)) t1 t0) = _
  refine (decodeWord_of_rowOf (r := .vext) ((rowOf_59 _ (mkT_ne_zero _ _ _ _ _ (by decide)) (major_mkT ..)).trans ?_)).trans (congrArg Except.ok ?_)
  · rcases bv1_cases w with rfl | rfl <;> simp [decodePermute, wholePr, wholeNone, onlyXop0, onlyReg, bits_xop_mkT, bits_op_mkT, bitsAt_ofNat]
  · show Instr.vext _ _ _ _ = _
    rcases bv1_cases w with rfl | rfl <;> simp [bits_xop_mkT, bits_op_mkT, bitsAt_ofNat]
theorem vredAdd (pr : BitVec 2) (w : BitVec 2) (t1 : BitVec 9) (t0 : BitVec 9) : Statement (.vredAdd pr w t1 t0) := by
  intro _ _
  show decodeWord (mkT 0x5A pr (w ++ (0 : BitVec 3)) t1 t0) = _
  refine (decodeWord_of_rowOf (r := .vredAdd) ((rowOf_5A _ (mkT_ne_zero _ _ _ _ _ (by decide)) (major_mkT ..)).trans ?_)).trans (congrArg Except.ok ?_)
  · rcases bv2_cases w with rfl | rfl | rfl | rfl <;> simp [decodeVred, wholePr, wholeNone, onlyXop0, onlyReg, bits_xop_mkT, bits_op_mkT, bitsAt_ofNat]
  · show Instr.vredAdd _ _ _ _ = _
    rcases bv2_cases w with rfl | rfl | rfl | rfl <;> simp [bits_xop_mkT, bits_op_mkT, bitsAt_ofNat]
theorem vredMax (pr : BitVec 2) (w : BitVec 2) (t1 : BitVec 9) (t0 : BitVec 9) : Statement (.vredMax pr w t1 t0) := by
  intro _ _
  show decodeWord (mkT 0x5A pr (w ++ (1 : BitVec 3)) t1 t0) = _
  refine (decodeWord_of_rowOf (r := .vredMax) ((rowOf_5A _ (mkT_ne_zero _ _ _ _ _ (by decide)) (major_mkT ..)).trans ?_)).trans (congrArg Except.ok ?_)
  · rcases bv2_cases w with rfl | rfl | rfl | rfl <;> simp [decodeVred, wholePr, wholeNone, onlyXop0, onlyReg, bits_xop_mkT, bits_op_mkT, bitsAt_ofNat]
  · show Instr.vredMax _ _ _ _ = _
    rcases bv2_cases w with rfl | rfl | rfl | rfl <;> simp [bits_xop_mkT, bits_op_mkT, bitsAt_ofNat]
theorem vredMin (pr : BitVec 2) (w : BitVec 2) (t1 : BitVec 9) (t0 : BitVec 9) : Statement (.vredMin pr w t1 t0) := by
  intro _ _
  show decodeWord (mkT 0x5A pr (w ++ (2 : BitVec 3)) t1 t0) = _
  refine (decodeWord_of_rowOf (r := .vredMin) ((rowOf_5A _ (mkT_ne_zero _ _ _ _ _ (by decide)) (major_mkT ..)).trans ?_)).trans (congrArg Except.ok ?_)
  · rcases bv2_cases w with rfl | rfl | rfl | rfl <;> simp [decodeVred, wholePr, wholeNone, onlyXop0, onlyReg, bits_xop_mkT, bits_op_mkT, bitsAt_ofNat]
  · show Instr.vredMin _ _ _ _ = _
    rcases bv2_cases w with rfl | rfl | rfl | rfl <;> simp [bits_xop_mkT, bits_op_mkT, bitsAt_ofNat]
theorem vredMaxn (pr : BitVec 2) (w : BitVec 2) (t1 : BitVec 9) (t0 : BitVec 9) : Statement (.vredMaxn pr w t1 t0) := by
  intro hw _
  change (bitAt w 1) = true at hw
  show decodeWord (mkT 0x5A pr (w ++ (3 : BitVec 3)) t1 t0) = _
  refine (decodeWord_of_rowOf (r := .vredMaxn) ((rowOf_5A _ (mkT_ne_zero _ _ _ _ _ (by decide)) (major_mkT ..)).trans ?_)).trans (congrArg Except.ok ?_)
  · rcases bv2_cases w with rfl | rfl | rfl | rfl <;> first | exact absurd hw (by decide) | simp [decodeVred, wholePr, wholeNone, onlyXop0, onlyReg, bits_xop_mkT, bits_op_mkT, bitsAt_ofNat, hw]
  · show Instr.vredMaxn _ _ _ _ = _
    rcases bv2_cases w with rfl | rfl | rfl | rfl <;> simp [bits_xop_mkT, bits_op_mkT, bitsAt_ofNat]
theorem vredMinn (pr : BitVec 2) (w : BitVec 2) (t1 : BitVec 9) (t0 : BitVec 9) : Statement (.vredMinn pr w t1 t0) := by
  intro hw _
  change (bitAt w 1) = true at hw
  show decodeWord (mkT 0x5A pr (w ++ (4 : BitVec 3)) t1 t0) = _
  refine (decodeWord_of_rowOf (r := .vredMinn) ((rowOf_5A _ (mkT_ne_zero _ _ _ _ _ (by decide)) (major_mkT ..)).trans ?_)).trans (congrArg Except.ok ?_)
  · rcases bv2_cases w with rfl | rfl | rfl | rfl <;> first | exact absurd hw (by decide) | simp [decodeVred, wholePr, wholeNone, onlyXop0, onlyReg, bits_xop_mkT, bits_op_mkT, bitsAt_ofNat, hw]
  · show Instr.vredMinn _ _ _ _ = _
    rcases bv2_cases w with rfl | rfl | rfl | rfl <;> simp [bits_xop_mkT, bits_op_mkT, bitsAt_ofNat]
theorem vredAnd (pr : BitVec 2) (w : BitVec 2) (t1 : BitVec 9) (t0 : BitVec 9) : Statement (.vredAnd pr w t1 t0) := by
  intro hw _
  change (bitAt w 1) = true at hw
  show decodeWord (mkT 0x5A pr (w ++ (5 : BitVec 3)) t1 t0) = _
  refine (decodeWord_of_rowOf (r := .vredAnd) ((rowOf_5A _ (mkT_ne_zero _ _ _ _ _ (by decide)) (major_mkT ..)).trans ?_)).trans (congrArg Except.ok ?_)
  · rcases bv2_cases w with rfl | rfl | rfl | rfl <;> first | exact absurd hw (by decide) | simp [decodeVred, wholePr, wholeNone, onlyXop0, onlyReg, bits_xop_mkT, bits_op_mkT, bitsAt_ofNat, hw]
  · show Instr.vredAnd _ _ _ _ = _
    rcases bv2_cases w with rfl | rfl | rfl | rfl <;> simp [bits_xop_mkT, bits_op_mkT, bitsAt_ofNat]
theorem vredOr (pr : BitVec 2) (w : BitVec 2) (t1 : BitVec 9) (t0 : BitVec 9) : Statement (.vredOr pr w t1 t0) := by
  intro hw _
  change (bitAt w 1) = true at hw
  show decodeWord (mkT 0x5A pr (w ++ (6 : BitVec 3)) t1 t0) = _
  refine (decodeWord_of_rowOf (r := .vredOr) ((rowOf_5A _ (mkT_ne_zero _ _ _ _ _ (by decide)) (major_mkT ..)).trans ?_)).trans (congrArg Except.ok ?_)
  · rcases bv2_cases w with rfl | rfl | rfl | rfl <;> first | exact absurd hw (by decide) | simp [decodeVred, wholePr, wholeNone, onlyXop0, onlyReg, bits_xop_mkT, bits_op_mkT, bitsAt_ofNat, hw]
  · show Instr.vredOr _ _ _ _ = _
    rcases bv2_cases w with rfl | rfl | rfl | rfl <;> simp [bits_xop_mkT, bits_op_mkT, bitsAt_ofNat]
theorem vredXor (pr : BitVec 2) (w : BitVec 2) (t1 : BitVec 9) (t0 : BitVec 9) : Statement (.vredXor pr w t1 t0) := by
  intro hw _
  change (bitAt w 1) = true at hw
  show decodeWord (mkT 0x5A pr (w ++ (7 : BitVec 3)) t1 t0) = _
  refine (decodeWord_of_rowOf (r := .vredXor) ((rowOf_5A _ (mkT_ne_zero _ _ _ _ _ (by decide)) (major_mkT ..)).trans ?_)).trans (congrArg Except.ok ?_)
  · rcases bv2_cases w with rfl | rfl | rfl | rfl <;> first | exact absurd hw (by decide) | simp [decodeVred, wholePr, wholeNone, onlyXop0, onlyReg, bits_xop_mkT, bits_op_mkT, bitsAt_ofNat, hw]
  · show Instr.vredXor _ _ _ _ = _
    rcases bv2_cases w with rfl | rfl | rfl | rfl <;> simp [bits_xop_mkT, bits_op_mkT, bitsAt_ofNat]
theorem vsel (pr : BitVec 2) (t1 : BitVec 9) (t0 : BitVec 9) : Statement (.vsel pr t1 t0) := by
  intro _ _
  show decodeWord (mkT 0x5B pr 0 t1 t0) = _
  refine (decodeWord_of_rowOf (r := .vsel) ((rowOf_5B _ (mkT_ne_zero _ _ _ _ _ (by decide)) (major_mkT ..)).trans ?_)).trans (congrArg Except.ok ?_)
  · simp [wholePr, wholeNone, onlyXop0, onlyReg, bits_xop_mkT, bits_op_mkT, bitsAt_ofNat]
  · show Instr.vsel _ _ _ = _
    simp [bits_xop_mkT, bits_op_mkT, bitsAt_ofNat]
theorem vqhdr (pr : BitVec 2) (t1 : BitVec 9) (t0 : BitVec 9) : Statement (.vqhdr pr t1 t0) := by
  intro _ _
  show decodeWord (mkT 0x5C pr 0 t1 t0) = _
  refine (decodeWord_of_rowOf (r := .vqhdr) ((rowOf_5C _ (mkT_ne_zero _ _ _ _ _ (by decide)) (major_mkT ..)).trans ?_)).trans (congrArg Except.ok ?_)
  · simp [decodeFblock, wholePr, wholeNone, onlyXop0, onlyReg, bits_xop_mkT, bits_op_mkT, bitsAt_ofNat]
  · show Instr.vqhdr _ _ _ = _
    simp [bits_xop_mkT, bits_op_mkT, bitsAt_ofNat]
theorem vqpk (pr : BitVec 2) (t1 : BitVec 9) (t0 : BitVec 9) : Statement (.vqpk pr t1 t0) := by
  intro _ _
  show decodeWord (mkT 0x5C pr 1 t1 t0) = _
  refine (decodeWord_of_rowOf (r := .vqpk) ((rowOf_5C _ (mkT_ne_zero _ _ _ _ _ (by decide)) (major_mkT ..)).trans ?_)).trans (congrArg Except.ok ?_)
  · simp [decodeFblock, wholePr, wholeNone, onlyXop0, onlyReg, bits_xop_mkT, bits_op_mkT, bitsAt_ofNat]
  · show Instr.vqpk _ _ _ = _
    simp [bits_xop_mkT, bits_op_mkT, bitsAt_ofNat]
theorem vdq (pr : BitVec 2) (t1 : BitVec 9) (t0 : BitVec 9) : Statement (.vdq pr t1 t0) := by
  intro _ _
  show decodeWord (mkT 0x5C pr 2 t1 t0) = _
  refine (decodeWord_of_rowOf (r := .vdq) ((rowOf_5C _ (mkT_ne_zero _ _ _ _ _ (by decide)) (major_mkT ..)).trans ?_)).trans (congrArg Except.ok ?_)
  · simp [decodeFblock, wholePr, wholeNone, onlyXop0, onlyReg, bits_xop_mkT, bits_op_mkT, bitsAt_ofNat]
  · show Instr.vdq _ _ _ = _
    simp [bits_xop_mkT, bits_op_mkT, bitsAt_ofNat]
theorem vbaq (pr : BitVec 2) (t1 : BitVec 9) (t0 : BitVec 9) : Statement (.vbaq pr t1 t0) := by
  intro _ _
  show decodeWord (mkT 0x5C pr 3 t1 t0) = _
  refine (decodeWord_of_rowOf (r := .vbaq) ((rowOf_5C _ (mkT_ne_zero _ _ _ _ _ (by decide)) (major_mkT ..)).trans ?_)).trans (congrArg Except.ok ?_)
  · simp [decodeFblock, wholePr, wholeNone, onlyXop0, onlyReg, bits_xop_mkT, bits_op_mkT, bitsAt_ofNat]
  · show Instr.vbaq _ _ _ = _
    simp [bits_xop_mkT, bits_op_mkT, bitsAt_ofNat]
theorem vbmax (pr : BitVec 2) (t1 : BitVec 9) (t0 : BitVec 9) : Statement (.vbmax pr t1 t0) := by
  intro _ _
  show decodeWord (mkT 0x5C pr 4 t1 t0) = _
  refine (decodeWord_of_rowOf (r := .vbmax) ((rowOf_5C _ (mkT_ne_zero _ _ _ _ _ (by decide)) (major_mkT ..)).trans ?_)).trans (congrArg Except.ok ?_)
  · simp [decodeFblock, wholePr, wholeNone, onlyXop0, onlyReg, bits_xop_mkT, bits_op_mkT, bitsAt_ofNat]
  · show Instr.vbmax _ _ _ = _
    simp [bits_xop_mkT, bits_op_mkT, bitsAt_ofNat]
theorem vbfmt (pr : BitVec 2) (t1 : BitVec 9) (t0 : BitVec 9) : Statement (.vbfmt pr t1 t0) := by
  intro _ _
  show decodeWord (mkT 0x5C pr 5 t1 t0) = _
  refine (decodeWord_of_rowOf (r := .vbfmt) ((rowOf_5C _ (mkT_ne_zero _ _ _ _ _ (by decide)) (major_mkT ..)).trans ?_)).trans (congrArg Except.ok ?_)
  · simp [decodeFblock, wholePr, wholeNone, onlyXop0, onlyReg, bits_xop_mkT, bits_op_mkT, bitsAt_ofNat]
  · show Instr.vbfmt _ _ _ = _
    simp [bits_xop_mkT, bits_op_mkT, bitsAt_ofNat]
theorem osmStep (pr : BitVec 2) (t1 : BitVec 9) (t0 : BitVec 9) : Statement (.osmStep pr t1 t0) := by
  intro _ _
  show decodeWord (mkT 0x5D pr 0 t1 t0) = _
  refine (decodeWord_of_rowOf (r := .osmStep) ((rowOf_5D _ (mkT_ne_zero _ _ _ _ _ (by decide)) (major_mkT ..)).trans ?_)).trans (congrArg Except.ok ?_)
  · simp [decodeOsm, wholePr, wholeNone, onlyXop0, onlyReg, bits_xop_mkT, bits_op_mkT, bitsAt_ofNat]
  · show Instr.osmStep _ _ _ = _
    simp [bits_xop_mkT, bits_op_mkT, bitsAt_ofNat]
theorem osmNorm (pr : BitVec 2) (t1 : BitVec 9) (t0 : BitVec 9) : Statement (.osmNorm pr t1 t0) := by
  intro _ _
  show decodeWord (mkT 0x5D pr 1 t1 t0) = _
  refine (decodeWord_of_rowOf (r := .osmNorm) ((rowOf_5D _ (mkT_ne_zero _ _ _ _ _ (by decide)) (major_mkT ..)).trans ?_)).trans (congrArg Except.ok ?_)
  · simp [decodeOsm, wholePr, wholeNone, onlyXop0, onlyReg, bits_xop_mkT, bits_op_mkT, bitsAt_ofNat]
  · show Instr.osmNorm _ _ _ = _
    simp [bits_xop_mkT, bits_op_mkT, bitsAt_ofNat]
theorem ctrNew (pr : BitVec 2) (t1 : BitVec 9) (t0 : BitVec 9) : Statement (.ctrNew pr t1 t0) := by
  intro hw _
  change (wholeOk pr) = true at hw
  simp [wholeOk, below] at hw
  show decodeWord (mkT 0x70 pr 0 t1 t0) = _
  refine (decodeWord_of_rowOf (r := .ctrNew) ((rowOf_70 _ (mkT_ne_zero _ _ _ _ _ (by decide)) (major_mkT ..)).trans ?_)).trans (congrArg Except.ok ?_)
  · simp [decodeCounter, wholePr, wholeNone, onlyXop0, onlyReg, bits_xop_mkT, bits_op_mkT, bitsAt_ofNat, hw]
  · show Instr.ctrNew _ _ _ = _
    simp [bits_xop_mkT, bits_op_mkT, bitsAt_ofNat]
theorem ctrDec (pr : BitVec 2) : Statement (.ctrDec pr) := by
  intro hw _
  change (wholeOk pr) = true at hw
  simp [wholeOk, below] at hw
  show decodeWord (mkT 0x70 pr 1 noTarget noTarget) = _
  refine (decodeWord_of_rowOf (r := .ctrDec) ((rowOf_70 _ (mkT_ne_zero _ _ _ _ _ (by decide)) (major_mkT ..)).trans ?_)).trans (congrArg Except.ok ?_)
  · simp [decodeCounter, wholePr, wholeNone, onlyXop0, onlyReg, bits_xop_mkT, bits_op_mkT, bitsAt_ofNat, hw]
  · exact congrArg Instr.ctrDec (prOf_mkT ..)
theorem ctrBind (pr : BitVec 2) : Statement (.ctrBind pr) := by
  intro hw _
  change (wholeOk pr) = true at hw
  simp [wholeOk, below] at hw
  show decodeWord (mkT 0x70 pr 2 noTarget noTarget) = _
  refine (decodeWord_of_rowOf (r := .ctrBind) ((rowOf_70 _ (mkT_ne_zero _ _ _ _ _ (by decide)) (major_mkT ..)).trans ?_)).trans (congrArg Except.ok ?_)
  · simp [decodeCounter, wholePr, wholeNone, onlyXop0, onlyReg, bits_xop_mkT, bits_op_mkT, bitsAt_ofNat, hw]
  · exact congrArg Instr.ctrBind (prOf_mkT ..)
theorem ctrSplit (pr : BitVec 2) : Statement (.ctrSplit pr) := by
  intro hw _
  change (wholeOk pr) = true at hw
  simp [wholeOk, below] at hw
  show decodeWord (mkT 0x70 pr 3 noTarget noTarget) = _
  refine (decodeWord_of_rowOf (r := .ctrSplit) ((rowOf_70 _ (mkT_ne_zero _ _ _ _ _ (by decide)) (major_mkT ..)).trans ?_)).trans (congrArg Except.ok ?_)
  · simp [decodeCounter, wholePr, wholeNone, onlyXop0, onlyReg, bits_xop_mkT, bits_op_mkT, bitsAt_ofNat, hw]
  · exact congrArg Instr.ctrSplit (prOf_mkT ..)
theorem ctrStat (pr : BitVec 2) (t1 : BitVec 9) (t0 : BitVec 9) : Statement (.ctrStat pr t1 t0) := by
  intro hw _
  change (wholeOk pr) = true at hw
  simp [wholeOk, below] at hw
  show decodeWord (mkT 0x70 pr 4 t1 t0) = _
  refine (decodeWord_of_rowOf (r := .ctrStat) ((rowOf_70 _ (mkT_ne_zero _ _ _ _ _ (by decide)) (major_mkT ..)).trans ?_)).trans (congrArg Except.ok ?_)
  · simp [decodeCounter, wholePr, wholeNone, onlyXop0, onlyReg, bits_xop_mkT, bits_op_mkT, bitsAt_ofNat, hw]
  · show Instr.ctrStat _ _ _ = _
    simp [bits_xop_mkT, bits_op_mkT, bitsAt_ofNat]
theorem rarm (pr : BitVec 2) : Statement (.rarm pr) := by
  intro hw _
  change (wholeOk pr) = true at hw
  simp [wholeOk, below] at hw
  show decodeWord (mkT 0x70 pr 5 noTarget noTarget) = _
  refine (decodeWord_of_rowOf (r := .rarm) ((rowOf_70 _ (mkT_ne_zero _ _ _ _ _ (by decide)) (major_mkT ..)).trans ?_)).trans (congrArg Except.ok ?_)
  · simp [decodeCounter, wholePr, wholeNone, onlyXop0, onlyReg, bits_xop_mkT, bits_op_mkT, bitsAt_ofNat, hw]
  · exact congrArg Instr.rarm (prOf_mkT ..)
theorem invoke (pr : BitVec 2) (t1 : BitVec 9) (t0 : BitVec 9) : Statement (.invoke pr t1 t0) := by
  intro hw _
  change (wholeOk pr) = true at hw
  simp [wholeOk, below] at hw
  show decodeWord (mkT 0x71 pr 0 t1 t0) = _
  refine (decodeWord_of_rowOf (r := .invoke) ((rowOf_71 _ (mkT_ne_zero _ _ _ _ _ (by decide)) (major_mkT ..)).trans ?_)).trans (congrArg Except.ok ?_)
  · simp [decodeInvoke, wholePr, wholeNone, onlyXop0, onlyReg, bits_xop_mkT, bits_op_mkT, bitsAt_ofNat, hw]
  · show Instr.invoke _ _ _ = _
    simp [bits_xop_mkT, bits_op_mkT, bitsAt_ofNat]
theorem invokec (pr : BitVec 2) (t1 : BitVec 9) (t0 : BitVec 9) : Statement (.invokec pr t1 t0) := by
  intro hw _
  change (wholeOk pr) = true at hw
  simp [wholeOk, below] at hw
  show decodeWord (mkT 0x71 pr 1 t1 t0) = _
  refine (decodeWord_of_rowOf (r := .invokec) ((rowOf_71 _ (mkT_ne_zero _ _ _ _ _ (by decide)) (major_mkT ..)).trans ?_)).trans (congrArg Except.ok ?_)
  · simp [decodeInvoke, wholePr, wholeNone, onlyXop0, onlyReg, bits_xop_mkT, bits_op_mkT, bitsAt_ofNat, hw]
  · show Instr.invokec _ _ _ = _
    simp [bits_xop_mkT, bits_op_mkT, bitsAt_ofNat]
theorem fulfil (pr : BitVec 2) : Statement (.fulfil pr) := by
  intro hw _
  change (wholeOk pr) = true at hw
  simp [wholeOk, below] at hw
  show decodeWord (mkT 0x72 pr 0 noTarget noTarget) = _
  refine (decodeWord_of_rowOf (r := .fulfil) ((rowOf_72 _ (mkT_ne_zero _ _ _ _ _ (by decide)) (major_mkT ..)).trans ?_)).trans (congrArg Except.ok ?_)
  · simp [decodeSettle, wholePr, wholeNone, onlyXop0, onlyReg, bits_xop_mkT, bits_op_mkT, bitsAt_ofNat, hw]
  · exact congrArg Instr.fulfil (prOf_mkT ..)
theorem brk (pr : BitVec 2) : Statement (.brk pr) := by
  intro hw _
  change (wholeOk pr) = true at hw
  simp [wholeOk, below] at hw
  show decodeWord (mkT 0x72 pr 1 noTarget noTarget) = _
  refine (decodeWord_of_rowOf (r := .brk) ((rowOf_72 _ (mkT_ne_zero _ _ _ _ _ (by decide)) (major_mkT ..)).trans ?_)).trans (congrArg Except.ok ?_)
  · simp [decodeSettle, wholePr, wholeNone, onlyXop0, onlyReg, bits_xop_mkT, bits_op_mkT, bitsAt_ofNat, hw]
  · exact congrArg Instr.brk (prOf_mkT ..)
theorem wait (pr : BitVec 2) (reg : BitVec 6) : Statement (.wait pr reg) := by
  intro hw _
  change (wholeOk pr) = true at hw
  simp [wholeOk, below] at hw
  show decodeWord (mkW 0x73 pr reg 0 0) = _
  refine (decodeWord_of_rowOf (r := .wait) ((rowOf_73 _ (mkW_ne_zero _ _ _ _ _ (by decide)) (major_mkW ..)).trans ?_)).trans (congrArg Except.ok ?_)
  · simp [decodeWait, wholePr, wholeNone, onlyXop0, onlyReg, bitsAt_ofNat, hw]
  · show Instr.wait _ _ = _
    simp [bitsAt_ofNat]
theorem waitSt (pr : BitVec 2) (reg : BitVec 6) : Statement (.waitSt pr reg) := by
  intro hw _
  change (wholeOk pr) = true at hw
  simp [wholeOk, below] at hw
  show decodeWord (mkW 0x73 pr reg 1 0) = _
  refine (decodeWord_of_rowOf (r := .waitSt) ((rowOf_73 _ (mkW_ne_zero _ _ _ _ _ (by decide)) (major_mkW ..)).trans ?_)).trans (congrArg Except.ok ?_)
  · simp [decodeWait, wholePr, wholeNone, onlyXop0, onlyReg, bitsAt_ofNat, hw]
  · show Instr.waitSt _ _ = _
    simp [bitsAt_ofNat]
theorem send (pr : BitVec 2) (t1 : BitVec 9) (t0 : BitVec 9) : Statement (.send pr t1 t0) := by
  intro hw _
  change (wholeOk pr) = true at hw
  simp [wholeOk, below] at hw
  show decodeWord (mkT 0x74 pr 0 t1 t0) = _
  refine (decodeWord_of_rowOf (r := .send) ((rowOf_74 _ (mkT_ne_zero _ _ _ _ _ (by decide)) (major_mkT ..)).trans ?_)).trans (congrArg Except.ok ?_)
  · simp [decodeSend, wholePr, wholeNone, onlyXop0, onlyReg, bits_xop_mkT, bits_op_mkT, bitsAt_ofNat, hw]
  · show Instr.send _ _ _ = _
    simp [bits_xop_mkT, bits_op_mkT, bitsAt_ofNat]
theorem sendw (pr : BitVec 2) (reg : BitVec 6) : Statement (.sendw pr reg) := by
  intro hw _
  change (wholeOk pr) = true at hw
  simp [wholeOk, below] at hw
  show decodeWord (mkW 0x75 pr reg 0 0) = _
  refine (decodeWord_of_rowOf (r := .sendw) ((rowOf_75 _ (mkW_ne_zero _ _ _ _ _ (by decide)) (major_mkW ..)).trans ?_)).trans (congrArg Except.ok ?_)
  · simp [wholePr, wholeNone, onlyXop0, onlyReg, bitsAt_ofNat, hw]
  · show Instr.sendw _ _ = _
    simp [bitsAt_ofNat]
theorem qnew (pr : BitVec 2) (t1 : BitVec 9) (t0 : BitVec 9) : Statement (.qnew pr t1 t0) := by
  intro hw _
  change (wholeOk pr) = true at hw
  simp [wholeOk, below] at hw
  show decodeWord (mkT 0x76 pr 0 t1 t0) = _
  refine (decodeWord_of_rowOf (r := .qnew) ((rowOf_76 _ (mkT_ne_zero _ _ _ _ _ (by decide)) (major_mkT ..)).trans ?_)).trans (congrArg Except.ok ?_)
  · simp [decodeQueue, wholePr, wholeNone, onlyXop0, onlyReg, bits_xop_mkT, bits_op_mkT, bitsAt_ofNat, hw]
  · show Instr.qnew _ _ _ = _
    simp [bits_xop_mkT, bits_op_mkT, bitsAt_ofNat]
theorem qbind (pr : BitVec 2) : Statement (.qbind pr) := by
  intro hw _
  change (wholeOk pr) = true at hw
  simp [wholeOk, below] at hw
  show decodeWord (mkT 0x76 pr 1 noTarget noTarget) = _
  refine (decodeWord_of_rowOf (r := .qbind) ((rowOf_76 _ (mkT_ne_zero _ _ _ _ _ (by decide)) (major_mkT ..)).trans ?_)).trans (congrArg Except.ok ?_)
  · simp [decodeQueue, wholePr, wholeNone, onlyXop0, onlyReg, bits_xop_mkT, bits_op_mkT, bitsAt_ofNat, hw]
  · exact congrArg Instr.qbind (prOf_mkT ..)
theorem qunbind (pr : BitVec 2) : Statement (.qunbind pr) := by
  intro hw _
  change (wholeOk pr) = true at hw
  simp [wholeOk, below] at hw
  show decodeWord (mkT 0x76 pr 2 noTarget noTarget) = _
  refine (decodeWord_of_rowOf (r := .qunbind) ((rowOf_76 _ (mkT_ne_zero _ _ _ _ _ (by decide)) (major_mkT ..)).trans ?_)).trans (congrArg Except.ok ?_)
  · simp [decodeQueue, wholePr, wholeNone, onlyXop0, onlyReg, bits_xop_mkT, bits_op_mkT, bitsAt_ofNat, hw]
  · exact congrArg Instr.qunbind (prOf_mkT ..)
theorem spawn (pr : BitVec 2) : Statement (.spawn pr) := by
  intro hw _
  change (wholeOk pr) = true at hw
  simp [wholeOk, below] at hw
  show decodeWord (mkT 0x77 pr 0 noTarget noTarget) = _
  refine (decodeWord_of_rowOf (r := .spawn) ((rowOf_77 _ (mkT_ne_zero _ _ _ _ _ (by decide)) (major_mkT ..)).trans ?_)).trans (congrArg Except.ok ?_)
  · simp [decodeSpawn, wholePr, wholeNone, onlyXop0, onlyReg, bits_xop_mkT, bits_op_mkT, bitsAt_ofNat, hw]
  · exact congrArg Instr.spawn (prOf_mkT ..)
theorem launch (pr : BitVec 2) (t1 : BitVec 9) (t0 : BitVec 9) : Statement (.launch pr t1 t0) := by
  intro hw _
  change (wholeOk pr) = true at hw
  simp [wholeOk, below] at hw
  show decodeWord (mkT 0x78 pr 0 t1 t0) = _
  refine (decodeWord_of_rowOf (r := .launch) ((rowOf_78 _ (mkT_ne_zero _ _ _ _ _ (by decide)) (major_mkT ..)).trans ?_)).trans (congrArg Except.ok ?_)
  · simp [decodeLaunch, wholePr, wholeNone, onlyXop0, onlyReg, bits_xop_mkT, bits_op_mkT, bitsAt_ofNat, hw]
  · show Instr.launch _ _ _ = _
    simp [bits_xop_mkT, bits_op_mkT, bitsAt_ofNat]
theorem cpy (pr : BitVec 2) : Statement (.cpy pr) := by
  intro hw _
  change (wholeOk pr) = true at hw
  simp [wholeOk, below] at hw
  show decodeWord (mkT 0x79 pr 0 noTarget noTarget) = _
  refine (decodeWord_of_rowOf (r := .cpy) ((rowOf_79 _ (mkT_ne_zero _ _ _ _ _ (by decide)) (major_mkT ..)).trans ?_)).trans (congrArg Except.ok ?_)
  · simp [decodeCpy, wholePr, wholeNone, onlyXop0, onlyReg, bits_xop_mkT, bits_op_mkT, bitsAt_ofNat, hw]
  · exact congrArg Instr.cpy (prOf_mkT ..)
theorem tile (pr : BitVec 2) : Statement (.tile pr) := by
  intro hw _
  change (wholeOk pr) = true at hw
  simp [wholeOk, below] at hw
  show decodeWord (mkT 0x7A pr 0 noTarget noTarget) = _
  refine (decodeWord_of_rowOf (r := .tile) ((rowOf_7A _ (mkT_ne_zero _ _ _ _ _ (by decide)) (major_mkT ..)).trans ?_)).trans (congrArg Except.ok ?_)
  · simp [decodeTile, wholePr, wholeNone, onlyXop0, onlyReg, bits_xop_mkT, bits_op_mkT, bitsAt_ofNat, hw]
  · exact congrArg Instr.tile (prOf_mkT ..)
theorem feedA (pr : BitVec 2) : Statement (.feedA pr) := by
  intro hw _
  change (wholeOk pr) = true at hw
  simp [wholeOk, below] at hw
  show decodeWord (mkT 0x7B pr 0 noTarget noTarget) = _
  refine (decodeWord_of_rowOf (r := .feedA) ((rowOf_7B _ (mkT_ne_zero _ _ _ _ _ (by decide)) (major_mkT ..)).trans ?_)).trans (congrArg Except.ok ?_)
  · simp [decodeFeed, wholePr, wholeNone, onlyXop0, onlyReg, bits_xop_mkT, bits_op_mkT, bitsAt_ofNat, hw]
  · exact congrArg Instr.feedA (prOf_mkT ..)
theorem feedB (pr : BitVec 2) : Statement (.feedB pr) := by
  intro hw _
  change (wholeOk pr) = true at hw
  simp [wholeOk, below] at hw
  show decodeWord (mkT 0x7B pr 1 noTarget noTarget) = _
  refine (decodeWord_of_rowOf (r := .feedB) ((rowOf_7B _ (mkT_ne_zero _ _ _ _ _ (by decide)) (major_mkT ..)).trans ?_)).trans (congrArg Except.ok ?_)
  · simp [decodeFeed, wholePr, wholeNone, onlyXop0, onlyReg, bits_xop_mkT, bits_op_mkT, bitsAt_ofNat, hw]
  · exact congrArg Instr.feedB (prOf_mkT ..)
theorem mma (pr : BitVec 2) : Statement (.mma pr) := by
  intro hw _
  change (wholeOk pr) = true at hw
  simp [wholeOk, below] at hw
  show decodeWord (mkT 0x7C pr 0 noTarget noTarget) = _
  refine (decodeWord_of_rowOf (r := .mma) ((rowOf_7C _ (mkT_ne_zero _ _ _ _ _ (by decide)) (major_mkT ..)).trans ?_)).trans (congrArg Except.ok ?_)
  · simp [decodeMatrix, wholePr, wholeNone, onlyXop0, onlyReg, bits_xop_mkT, bits_op_mkT, bitsAt_ofNat, hw]
  · exact congrArg Instr.mma (prOf_mkT ..)
theorem mzero (pr : BitVec 2) : Statement (.mzero pr) := by
  intro hw _
  change (wholeOk pr) = true at hw
  simp [wholeOk, below] at hw
  show decodeWord (mkT 0x7C pr 1 noTarget noTarget) = _
  refine (decodeWord_of_rowOf (r := .mzero) ((rowOf_7C _ (mkT_ne_zero _ _ _ _ _ (by decide)) (major_mkT ..)).trans ?_)).trans (congrArg Except.ok ?_)
  · simp [decodeMatrix, wholePr, wholeNone, onlyXop0, onlyReg, bits_xop_mkT, bits_op_mkT, bitsAt_ofNat, hw]
  · exact congrArg Instr.mzero (prOf_mkT ..)
theorem mstat (pr : BitVec 2) (t1 : BitVec 9) (t0 : BitVec 9) : Statement (.mstat pr t1 t0) := by
  intro hw _
  change (wholeOk pr) = true at hw
  simp [wholeOk, below] at hw
  show decodeWord (mkT 0x7C pr 2 t1 t0) = _
  refine (decodeWord_of_rowOf (r := .mstat) ((rowOf_7C _ (mkT_ne_zero _ _ _ _ _ (by decide)) (major_mkT ..)).trans ?_)).trans (congrArg Except.ok ?_)
  · simp [decodeMatrix, wholePr, wholeNone, onlyXop0, onlyReg, bits_xop_mkT, bits_op_mkT, bitsAt_ofNat, hw]
  · show Instr.mstat _ _ _ = _
    simp [bits_xop_mkT, bits_op_mkT, bitsAt_ofNat]
theorem trap (pr : BitVec 2) : Statement (.trap pr) := by
  intro hw _
  change (wholeOk pr) = true at hw
  simp [wholeOk, below] at hw
  show decodeWord (mkT 0x7D pr 0 noTarget noTarget) = _
  refine (decodeWord_of_rowOf (r := .trap) ((rowOf_7D _ (mkT_ne_zero _ _ _ _ _ (by decide)) (major_mkT ..)).trans ?_)).trans (congrArg Except.ok ?_)
  · simp [decodeSystem, wholePr, wholeNone, onlyXop0, onlyReg, bits_xop_mkT, bits_op_mkT, bitsAt_ofNat, hw]
  · exact congrArg Instr.trap (prOf_mkT ..)
theorem isync (pr : BitVec 2) : Statement (.isync pr) := by
  intro hw _
  change (wholeOk pr) = true at hw
  simp [wholeOk, below] at hw
  show decodeWord (mkT 0x7D pr 1 noTarget noTarget) = _
  refine (decodeWord_of_rowOf (r := .isync) ((rowOf_7D _ (mkT_ne_zero _ _ _ _ _ (by decide)) (major_mkT ..)).trans ?_)).trans (congrArg Except.ok ?_)
  · simp [decodeSystem, wholePr, wholeNone, onlyXop0, onlyReg, bits_xop_mkT, bits_op_mkT, bitsAt_ofNat, hw]
  · exact congrArg Instr.isync (prOf_mkT ..)
theorem sysRd (pr : BitVec 2) (t1 : BitVec 9) (t0 : BitVec 9) : Statement (.sysRd pr t1 t0) := by
  intro hw _
  change (wholeOk pr) = true at hw
  simp [wholeOk, below] at hw
  show decodeWord (mkT 0x7D pr 2 t1 t0) = _
  refine (decodeWord_of_rowOf (r := .sysRd) ((rowOf_7D _ (mkT_ne_zero _ _ _ _ _ (by decide)) (major_mkT ..)).trans ?_)).trans (congrArg Except.ok ?_)
  · simp [decodeSystem, wholePr, wholeNone, onlyXop0, onlyReg, bits_xop_mkT, bits_op_mkT, bitsAt_ofNat, hw]
  · show Instr.sysRd _ _ _ = _
    simp [bits_xop_mkT, bits_op_mkT, bitsAt_ofNat]
theorem sysWr (pr : BitVec 2) : Statement (.sysWr pr) := by
  intro hw _
  change (wholeOk pr) = true at hw
  simp [wholeOk, below] at hw
  show decodeWord (mkT 0x7D pr 3 noTarget noTarget) = _
  refine (decodeWord_of_rowOf (r := .sysWr) ((rowOf_7D _ (mkT_ne_zero _ _ _ _ _ (by decide)) (major_mkT ..)).trans ?_)).trans (congrArg Except.ok ?_)
  · simp [decodeSystem, wholePr, wholeNone, onlyXop0, onlyReg, bits_xop_mkT, bits_op_mkT, bitsAt_ofNat, hw]
  · exact congrArg Instr.sysWr (prOf_mkT ..)
theorem cusTake (pr : BitVec 2) (t1 : BitVec 9) (t0 : BitVec 9) : Statement (.cusTake pr t1 t0) := by
  intro hw _
  change (wholeOk pr) = true at hw
  simp [wholeOk, below] at hw
  show decodeWord (mkT 0x7D pr 4 t1 t0) = _
  refine (decodeWord_of_rowOf (r := .cusTake) ((rowOf_7D _ (mkT_ne_zero _ _ _ _ _ (by decide)) (major_mkT ..)).trans ?_)).trans (congrArg Except.ok ?_)
  · simp [decodeSystem, wholePr, wholeNone, onlyXop0, onlyReg, bits_xop_mkT, bits_op_mkT, bitsAt_ofNat, hw]
  · show Instr.cusTake _ _ _ = _
    simp [bits_xop_mkT, bits_op_mkT, bitsAt_ofNat]
theorem cusResume (pr : BitVec 2) : Statement (.cusResume pr) := by
  intro hw _
  change (wholeOk pr) = true at hw
  simp [wholeOk, below] at hw
  show decodeWord (mkT 0x7D pr 5 noTarget noTarget) = _
  refine (decodeWord_of_rowOf (r := .cusResume) ((rowOf_7D _ (mkT_ne_zero _ _ _ _ _ (by decide)) (major_mkT ..)).trans ?_)).trans (congrArg Except.ok ?_)
  · simp [decodeSystem, wholePr, wholeNone, onlyXop0, onlyReg, bits_xop_mkT, bits_op_mkT, bitsAt_ofNat, hw]
  · exact congrArg Instr.cusResume (prOf_mkT ..)
theorem cusGive (pr : BitVec 2) : Statement (.cusGive pr) := by
  intro hw _
  change (wholeOk pr) = true at hw
  simp [wholeOk, below] at hw
  show decodeWord (mkT 0x7D pr 6 noTarget noTarget) = _
  refine (decodeWord_of_rowOf (r := .cusGive) ((rowOf_7D _ (mkT_ne_zero _ _ _ _ _ (by decide)) (major_mkT ..)).trans ?_)).trans (congrArg Except.ok ?_)
  · simp [decodeSystem, wholePr, wholeNone, onlyXop0, onlyReg, bits_xop_mkT, bits_op_mkT, bitsAt_ofNat, hw]
  · exact congrArg Instr.cusGive (prOf_mkT ..)
theorem cusBreak (pr : BitVec 2) : Statement (.cusBreak pr) := by
  intro hw _
  change (wholeOk pr) = true at hw
  simp [wholeOk, below] at hw
  show decodeWord (mkT 0x7D pr 7 noTarget noTarget) = _
  refine (decodeWord_of_rowOf (r := .cusBreak) ((rowOf_7D _ (mkT_ne_zero _ _ _ _ _ (by decide)) (major_mkT ..)).trans ?_)).trans (congrArg Except.ok ?_)
  · simp [decodeSystem, wholePr, wholeNone, onlyXop0, onlyReg, bits_xop_mkT, bits_op_mkT, bitsAt_ofNat, hw]
  · exact congrArg Instr.cusBreak (prOf_mkT ..)
theorem stnMap (pr : BitVec 2) : Statement (.stnMap pr) := by
  intro hw _
  change (wholeOk pr) = true at hw
  simp [wholeOk, below] at hw
  show decodeWord (mkT 0x7D pr 8 noTarget noTarget) = _
  refine (decodeWord_of_rowOf (r := .stnMap) ((rowOf_7D _ (mkT_ne_zero _ _ _ _ _ (by decide)) (major_mkT ..)).trans ?_)).trans (congrArg Except.ok ?_)
  · simp [decodeSystem, wholePr, wholeNone, onlyXop0, onlyReg, bits_xop_mkT, bits_op_mkT, bitsAt_ofNat, hw]
  · exact congrArg Instr.stnMap (prOf_mkT ..)
theorem stnInv (pr : BitVec 2) : Statement (.stnInv pr) := by
  intro hw _
  change (wholeOk pr) = true at hw
  simp [wholeOk, below] at hw
  show decodeWord (mkT 0x7D pr 9 noTarget noTarget) = _
  refine (decodeWord_of_rowOf (r := .stnInv) ((rowOf_7D _ (mkT_ne_zero _ _ _ _ _ (by decide)) (major_mkT ..)).trans ?_)).trans (congrArg Except.ok ?_)
  · simp [decodeSystem, wholePr, wholeNone, onlyXop0, onlyReg, bits_xop_mkT, bits_op_mkT, bitsAt_ofNat, hw]
  · exact congrArg Instr.stnInv (prOf_mkT ..)
theorem stnReplay (pr : BitVec 2) : Statement (.stnReplay pr) := by
  intro hw _
  change (wholeOk pr) = true at hw
  simp [wholeOk, below] at hw
  show decodeWord (mkT 0x7D pr 10 noTarget noTarget) = _
  refine (decodeWord_of_rowOf (r := .stnReplay) ((rowOf_7D _ (mkT_ne_zero _ _ _ _ _ (by decide)) (major_mkT ..)).trans ?_)).trans (congrArg Except.ok ?_)
  · simp [decodeSystem, wholePr, wholeNone, onlyXop0, onlyReg, bits_xop_mkT, bits_op_mkT, bitsAt_ofNat, hw]
  · exact congrArg Instr.stnReplay (prOf_mkT ..)
theorem lodgeNew (pr : BitVec 2) : Statement (.lodgeNew pr) := by
  intro hw _
  change (wholeOk pr) = true at hw
  simp [wholeOk, below] at hw
  show decodeWord (mkT 0x7D pr 11 noTarget noTarget) = _
  refine (decodeWord_of_rowOf (r := .lodgeNew) ((rowOf_7D _ (mkT_ne_zero _ _ _ _ _ (by decide)) (major_mkT ..)).trans ?_)).trans (congrArg Except.ok ?_)
  · simp [decodeSystem, wholePr, wholeNone, onlyXop0, onlyReg, bits_xop_mkT, bits_op_mkT, bitsAt_ofNat, hw]
  · exact congrArg Instr.lodgeNew (prOf_mkT ..)
theorem lodgeEnd (pr : BitVec 2) : Statement (.lodgeEnd pr) := by
  intro hw _
  change (wholeOk pr) = true at hw
  simp [wholeOk, below] at hw
  show decodeWord (mkT 0x7D pr 12 noTarget noTarget) = _
  refine (decodeWord_of_rowOf (r := .lodgeEnd) ((rowOf_7D _ (mkT_ne_zero _ _ _ _ _ (by decide)) (major_mkT ..)).trans ?_)).trans (congrArg Except.ok ?_)
  · simp [decodeSystem, wholePr, wholeNone, onlyXop0, onlyReg, bits_xop_mkT, bits_op_mkT, bitsAt_ofNat, hw]
  · exact congrArg Instr.lodgeEnd (prOf_mkT ..)
theorem migrate (pr : BitVec 2) : Statement (.migrate pr) := by
  intro hw _
  change (wholeOk pr) = true at hw
  simp [wholeOk, below] at hw
  show decodeWord (mkT 0x7D pr 13 noTarget noTarget) = _
  refine (decodeWord_of_rowOf (r := .migrate) ((rowOf_7D _ (mkT_ne_zero _ _ _ _ _ (by decide)) (major_mkT ..)).trans ?_)).trans (congrArg Except.ok ?_)
  · simp [decodeSystem, wholePr, wholeNone, onlyXop0, onlyReg, bits_xop_mkT, bits_op_mkT, bitsAt_ofNat, hw]
  · exact congrArg Instr.migrate (prOf_mkT ..)
theorem shadowSave (pr : BitVec 2) : Statement (.shadowSave pr) := by
  intro hw _
  change (wholeOk pr) = true at hw
  simp [wholeOk, below] at hw
  show decodeWord (mkT 0x7D pr 14 noTarget noTarget) = _
  refine (decodeWord_of_rowOf (r := .shadowSave) ((rowOf_7D _ (mkT_ne_zero _ _ _ _ _ (by decide)) (major_mkT ..)).trans ?_)).trans (congrArg Except.ok ?_)
  · simp [decodeSystem, wholePr, wholeNone, onlyXop0, onlyReg, bits_xop_mkT, bits_op_mkT, bitsAt_ofNat, hw]
  · exact congrArg Instr.shadowSave (prOf_mkT ..)
theorem shadowLoad (pr : BitVec 2) : Statement (.shadowLoad pr) := by
  intro hw _
  change (wholeOk pr) = true at hw
  simp [wholeOk, below] at hw
  show decodeWord (mkT 0x7D pr 15 noTarget noTarget) = _
  refine (decodeWord_of_rowOf (r := .shadowLoad) ((rowOf_7D _ (mkT_ne_zero _ _ _ _ _ (by decide)) (major_mkT ..)).trans ?_)).trans (congrArg Except.ok ?_)
  · simp [decodeSystem, wholePr, wholeNone, onlyXop0, onlyReg, bits_xop_mkT, bits_op_mkT, bitsAt_ofNat, hw]
  · exact congrArg Instr.shadowLoad (prOf_mkT ..)
theorem testRun (pr : BitVec 2) : Statement (.testRun pr) := by
  intro hw _
  change (wholeOk pr) = true at hw
  simp [wholeOk, below] at hw
  show decodeWord (mkT 0x7D pr 16 noTarget noTarget) = _
  refine (decodeWord_of_rowOf (r := .testRun) ((rowOf_7D _ (mkT_ne_zero _ _ _ _ _ (by decide)) (major_mkT ..)).trans ?_)).trans (congrArg Except.ok ?_)
  · simp [decodeSystem, wholePr, wholeNone, onlyXop0, onlyReg, bits_xop_mkT, bits_op_mkT, bitsAt_ofNat, hw]
  · exact congrArg Instr.testRun (prOf_mkT ..)
theorem statSum (pr : BitVec 2) : Statement (.statSum pr) := by
  intro hw _
  change (wholeOk pr) = true at hw
  simp [wholeOk, below] at hw
  show decodeWord (mkT 0x7D pr 17 noTarget noTarget) = _
  refine (decodeWord_of_rowOf (r := .statSum) ((rowOf_7D _ (mkT_ne_zero _ _ _ _ _ (by decide)) (major_mkT ..)).trans ?_)).trans (congrArg Except.ok ?_)
  · simp [decodeSystem, wholePr, wholeNone, onlyXop0, onlyReg, bits_xop_mkT, bits_op_mkT, bitsAt_ofNat, hw]
  · exact congrArg Instr.statSum (prOf_mkT ..)
theorem engineCancel (pr : BitVec 2) : Statement (.engineCancel pr) := by
  intro hw _
  change (wholeOk pr) = true at hw
  simp [wholeOk, below] at hw
  show decodeWord (mkT 0x7D pr 18 noTarget noTarget) = _
  refine (decodeWord_of_rowOf (r := .engineCancel) ((rowOf_7D _ (mkT_ne_zero _ _ _ _ _ (by decide)) (major_mkT ..)).trans ?_)).trans (congrArg Except.ok ?_)
  · simp [decodeSystem, wholePr, wholeNone, onlyXop0, onlyReg, bits_xop_mkT, bits_op_mkT, bitsAt_ofNat, hw]
  · exact congrArg Instr.engineCancel (prOf_mkT ..)

end Laws.RoundTrip

end Sys2Proof
end

