-- ==== Sys2Proof/Safety.lean ====
section
/-! DEFINITION. What counts as a safe state and a safe run, and the terms in which statements speak of the instruction that fires:
where it stands, what has reached it, and what its firing leaves. -/

namespace Sys2Proof.Machine

/-- The canonical form of the part's memories and of the host's (log 4). -/
def State.memoryOk (s : State) : Bool := Memory.wf s.hbm && Memory.wf s.far && Memory.wf s.host

/-- An outcome that is a next state. -/
def goesOn : Host.Outcome State Fault Refusal → Bool
  | .next _ => true
  | .fault _ => false
  | .refused _ => false

/-- A run of `n` steps that meets no fault and no refusal. -/
def SafeRun (n : Nat) (s : State) : Prop := goesOn (Sys2Proof.core.run n s) = true

end Sys2Proof.Machine

namespace Sys2Proof.Claims
open Sys2Proof.Machine

/-! ## The instruction that fires -/

/-- The slot, the block, the index and the word of the instruction that fires. -/
def slotOf (s : State) : Slot := s.slot s.here.1 s.here.2.1
def blkOf (s : State) : Blk := (slotOf s).blk
def indexOf (s : State) : Nat := s.here.2.2
def wordOf (s : State) : W32 := (blkOf s).words[indexOf s]?.getD 0
/-- The logical number of the core that fires, and its lodging (R43). -/
def logicalOf (s : State) : Nat := (s.core s.here.1).logicalNo
def lodgingOf (s : State) : Nat := (s.core s.here.1).lodging

/-- What has reached operand slot `q` (R53): 0 is L, 1 is R, 2 is X, 3 is P. -/
def opnd (s : State) (q : Nat) : Option Value := mapGet (blkOf s).slots (4 * indexOf s + q)

/-- The instruction at `here` may fire once its operands are there: its block is admitted, it has not fired, the activity is not in
custody and its core is not gated (R65, R72, R338). -/
structure MayFire (s : State) : Prop where
  admitted : (blkOf s).phase = 2
  free : (slotOf s).custody.state = 0
  powered : (s.core s.here.1).gated = false
  inBlock : indexOf s < (blkOf s).words.length
  unfired : mapGet (blkOf s).fired (indexOf s) = 0

/-- A value has reached slot `q`, and it is no null token. -/
structure Given (s : State) (q : Nat) (v : Value) : Prop where
  arrived : opnd s q = some v
  real : v.null = false

/-- The four predicate modes of R56 and R57: the instruction runs, on the lanes of a mask. -/
inductive Runs (s : State) : BitVec 2 → BitVec 16 → Prop where
  | always : Runs s 0 0xFFFF#16
  | masked (p : Value) (h : Given s 3 p) (d : p.tag = .data) (v : bitAt p.valid 0 = true) :
      Runs s 1 (bitsAt p.bits 0 16 &&& p.valid)
  | maskNull (p : Value) (h : Given s 3 p) (d : p.tag = .data) (v : bitAt p.valid 0 = false) : Runs s 1 0#16
  | onTrue (p : Value) (h : Given s 3 p) (d : p.tag = .data) (v : bitAt p.valid 0 = true) (x : p.lane 0 ≠ 0) :
      Runs s 2 0xFFFF#16
  | onFalse (p : Value) (h : Given s 3 p) (d : p.tag = .data) (v : bitAt p.valid 0 = true) (x : p.lane 0 = 0) :
      Runs s 3 0xFFFF#16

/-! ## What a firing leaves -/

/-- The instruction at `here` has fired: it is marked, its events wait for the commit, `v0` and `v1` go to the targets (R54, R179). -/
def fired (s : State) (t1 t0 : BitVec 9) (v0 v1 : Value) (evs : List Nat) : State :=
  let r := s.here.1
  let k := s.here.2.1
  let s := s.mark r k (indexOf s) 1
  let s := s.updBlk r k fun b => { b with evs := evs.eraseDups.foldl (fun m e => mapUpd m e (· + 1)) b.evs }
  (s.send r k t0 v0).send r k t1 v1
/-- One value for both targets. -/
def answers (s : State) (t1 t0 : BitVec 9) (v : Value) (evs : List Nat) : State := fired s t1 t0 v v evs
/-- Fired, with nothing for any target. -/
def done (s : State) : State := fired s noTarget noTarget nullToken nullToken []
/-- The block keeps an act for its commit (R66). -/
def keep (s : State) (a : Act) : State :=
  s.updBlk s.here.1 s.here.2.1 fun b => { b with acts := mapSet b.acts (indexOf s) (some a) }
/-- The block asks a home a question for its commit (R267). -/
def asks (s : State) (a : Ask) : State := s.updBlk s.here.1 s.here.2.1 fun b => { b with asks := mapSet b.asks (indexOf s) a }
/-- A register of the block completes (R65). -/
def completes (s : State) (reg : Nat) (d : RegDone) : State :=
  s.updBlk s.here.1 s.here.2.1 fun b => { b with regDone := mapSet b.regDone reg d }
/-- The block's exit has fired (R125). -/
def leaves (s : State) (e : Exit) : State := s.updBlk s.here.1 s.here.2.1 fun b => { b with exits := [(indexOf s, e)] }
/-- A store of the block is done (R61, R152). -/
def stores (s : State) (lsid : Nat) (w : LsWrite) : State :=
  s.updBlk s.here.1 s.here.2.1 fun b => { b with lsids' := mapSet b.lsids' lsid w }
/-- The instruction at `here` faults: its block is aborted and its activity enters custody (R72, R295). -/
def traps (s : State) (t : Trap) : State := s.takeTrap s.here.1 s.here.2.1 t (BitVec.ofNat 32 (indexOf s)) 0

/-! ## Values -/

/-- BROKEN when an operand is, DATA otherwise (R33). -/
def tagOf (vs : List Value) : Tag := if vs.any (fun v => v.tag == .broken) then .broken else .data
/-- Lanes 0 and 1 of a value are valid. -/
def scalarOk (v : Value) : Bool := bitAt v.valid 0 && bitAt v.valid 1
/-- Lanes 0 to 3 of a value are valid: a whole capability (R32). -/
def capOk (v : Value) : Bool := bitsAt v.valid 0 4 == 0xF#4
/-- A scalar result (R55, R117): lanes 0 and 1 hold it and are null when lane 0 or 1 of any operand is; the others are zero; masked
lanes are null. -/
def scalar (m : BitVec 16) (vs : List Value) (x : Word) : Value :=
  { bits := x.setWidth 512, valid := (if vs.all scalarOk then 0xFFFF#16 else 0xFFFC#16) &&& m, tag := tagOf vs, null := false }
/-- A null result raises no event (R179). -/
def raised (m : BitVec 16) (vs : List Value) (evs : List Nat) : List Nat :=
  if vs.all scalarOk && bitsAt m 0 2 != 0#2 then evs else []
/-- The saturation bit of the modifier in front of the instruction (R62, R135). -/
def satOf (s : State) : Bool := bitAt (modOf (blkOf s).words (indexOf s)) 3
/-- A context as the meanings of instructions see it: operands L, R and X, and the lanes that are not masked. -/
def ctxOf (s : State) (row : Row) (l r t : Value) (m : BitVec 16) : Ctx :=
  { s := s, core := s.here.1, slot := s.here.2.1, idx := indexOf s, row := row, word := wordOf s, x := slotOf s, l := l, r := r, t := t,
    mask := m }

/-! ## Predicates and null tokens (R56 to R58) -/

/-- The operands of a word of row `r` have arrived, its predicate too, and a load waits for no store (R54, R60). -/
structure Arrived (s : State) (r : Row) (w : W32) : Prop where
  word : wordOf s = w
  data : ∀ q, q < r.arity → (opnd s q).isSome = true
  predicate : predOf r w = 0 ∨ (opnd s 3).isSome = true
  stores : r.isLoad = true → ∀ j, j < (bitsAt w 18 5).toNat → bitAt (blkOf s).storeMask j = true → (mapGet (blkOf s).lsids' j).done = true
/-- The rows that the predicate and null rules speak of: those that fire (R62), whose operands are L, R and X in order and which wait
for no port word (R121) and no reserved record (R306). -/
def plainRow (r : Row) : Bool :=
  r.fmt != .x && r != .port && r != .read && r != .cusTake && r != .cusResume && r != .cusGive && r != .cusBreak
/-- What a null token does beside passing on (R58): a landing effect or WRITE completes its register, which keeps its value; a store
completes its LSID; everything else does nothing. -/
def nullEffect (s : State) (r : Row) (w : W32) : State :=
  if r.completes && r != .call then completes s (wReg w).toNat .null
  else if r.isStore then stores s (lsidOf w).toNat { (default : LsWrite) with done := true, since := s.cycle }
  else s
/-- A null token has reached a data slot of a word of row `r`. -/
def nullIn (s : State) (r : Row) : Bool := (List.range r.arity).any fun q => (opnd s q).any fun v => v.null
/-- The target fields of a word: t1 and t0, none where the format holds none (R53). -/
def target1 (r : Row) (w : W32) : BitVec 9 := if r.noResult = false ∧ r.fmt = .t then bitsAt w 9 9 else 0x1FF
def target0 (r : Row) (w : W32) : BitVec 9 := if r.noResult = false ∧ (r.fmt = .t ∨ r.fmt = .i ∨ r.fmt = .l) then bitsAt w 0 9 else 0x1FF


end Sys2Proof.Claims
end

