-- ==== Sys2Proof/Certificates/Slice0/Obligations.lean ====
section
/-! DEFINITION. The statements for the provers, by chapter of the spec, and the terms they share. -/

namespace Sys2Proof.Claims
open Sys2Proof.Machine

/-! ## Scalar results (R134 to R141) -/

/-- An operation of the width that bit `w` selects, 64 or 32; a 32-bit result is sign-extended (R134). -/
def ofWidth (w : BitVec 1) (f : (n : Nat) → BitVec n → BitVec n → BitVec n) (a b : Value) : Word :=
  if w = 1 then (f 32 (a.scalar.setWidth 32) (b.scalar.setWidth 32)).signExtend 64 else f 64 a.scalar b.scalar
/-- The exact result of an operation of that width. -/
def exactOf {α : Type} (w : BitVec 1) (f : (n : Nat) → BitVec n → BitVec n → α) (a b : Value) : α :=
  if w = 1 then f 32 (a.scalar.setWidth 32) (b.scalar.setWidth 32) else f 64 a.scalar b.scalar
/-- Whether an exact result is clamped (R135): saturation, and outside the signed range of `n` bits. -/
def clamps (sat : Bool) (n : Nat) (z : Int) : Bool := sat && (decide (z < -2 ^ (n - 1)) || decide (2 ^ (n - 1) - 1 < z))
/-- An exact result as `n` bits: clamped, or wrapped (R135). -/
def narrowed (sat : Bool) (n : Nat) (z : Int) : BitVec n :=
  BitVec.ofInt n (if clamps sat n z then (if z < 0 then -2 ^ (n - 1) else 2 ^ (n - 1) - 1) else z)
/-- The event of a clamped result. -/
def clampEvent (sat : Bool) (n : Nat) (z : Int) : List Nat := if clamps sat n z then [4] else []
/-- A two-operand scalar instruction: what it answers for operands `a` and `b`, and the events it raises. -/
def TwoOperand (mk : BitVec 1 → BitVec 2 → BitVec 9 → BitVec 9 → Instr) (f : (n : Nat) → BitVec n → BitVec n → BitVec n)
    (ev : (n : Nat) → BitVec n → BitVec n → List Nat) : Prop :=
  ∀ (s : State) (w : BitVec 1) (pr : BitVec 2) (t1 t0 : BitVec 9) (m : BitVec 16) (a b : Value), MayFire s → Runs s pr m →
    Given s 0 a → Given s 1 b →
    exec (mk w pr t1 t0) s = .next (answers s t1 t0 (scalar m [a, b] (ofWidth w f a b)) (raised m [a, b] (exactOf w ev a b)))
/-- The same for an instruction that the saturation bit clamps; `z` is its exact result (R135). -/
def Saturating (mk : BitVec 1 → BitVec 2 → BitVec 9 → BitVec 9 → Instr) (z : (n : Nat) → BitVec n → BitVec n → Int)
    (ev : (n : Nat) → BitVec n → BitVec n → List Nat) : Prop :=
  ∀ (s : State) (w : BitVec 1) (pr : BitVec 2) (t1 t0 : BitVec 9) (m : BitVec 16) (a b : Value), MayFire s → Runs s pr m →
    Given s 0 a → Given s 1 b →
    exec (mk w pr t1 t0) s = .next (answers s t1 t0 (scalar m [a, b] (ofWidth w (fun n x y => narrowed (satOf s) n (z n x y)) a b))
      (raised m [a, b] (exactOf w (fun n x y => ev n x y ++ clampEvent (satOf s) n (z n x y)) a b)))
def noEvent : (n : Nat) → BitVec n → BitVec n → List Nat := fun _ _ _ => []
/-- A division by zero counts event 1 (R136). -/
def zeroEvent : (n : Nat) → BitVec n → BitVec n → List Nat := fun _ _ b => if b = 0 then [1] else []
/-- A one-operand instruction: some `x` with `R a x` is its result. -/
def OneOperand (mk : BitVec 2 → BitVec 9 → BitVec 9 → Instr) (R : Word → Word → Prop) : Prop :=
  ∀ (s : State) (pr : BitVec 2) (t1 t0 : BitVec 9) (m : BitVec 16) (a : Value), MayFire s → Runs s pr m → Given s 0 a →
    ∃ x, R a.scalar x ∧ exec (mk pr t1 t0) s = .next (answers s t1 t0 (scalar m [a] x) [])
/-- A compare of the width that bit `w` selects: the scalar 1 when the relation holds, 0 otherwise (R138). -/
def Compares (mk : BitVec 1 → BitVec 2 → BitVec 9 → BitVec 9 → Instr) (R : (n : Nat) → BitVec n → BitVec n → Bool) : Prop :=
  ∀ (s : State) (w : BitVec 1) (pr : BitVec 2) (t1 t0 : BitVec 9) (m : BitVec 16) (a b : Value), MayFire s → Runs s pr m →
    Given s 0 a → Given s 1 b →
    exec (mk w pr t1 t0) s = .next (answers s t1 t0 (scalar m [a, b] (if exactOf w R a b then 1 else 0)) [])
/-- The predicate mask of a value: bits 15 to 0 of lane 0 (R139). -/
def maskOf (v : Value) : BitVec 16 := v.bits.setWidth 16
/-- A one-mask instruction: some `x` with `R m x` is its result. -/
def OneMask (mk : BitVec 2 → BitVec 9 → BitVec 9 → Instr) (R : BitVec 16 → Word → Prop) : Prop :=
  ∀ (s : State) (pr : BitVec 2) (t1 t0 : BitVec 9) (m : BitVec 16) (a : Value), MayFire s → Runs s pr m → Given s 0 a →
    ∃ x, R (maskOf a) x ∧ exec (mk pr t1 t0) s = .next (answers s t1 t0 (scalar m [a] x) [])
/-- A two-mask instruction. -/
def TwoMask (mk : BitVec 2 → BitVec 9 → BitVec 9 → Instr) (f : BitVec 16 → BitVec 16 → BitVec 16) : Prop :=
  ∀ (s : State) (pr : BitVec 2) (t1 t0 : BitVec 9) (m : BitVec 16) (a b : Value), MayFire s → Runs s pr m → Given s 0 a →
    Given s 1 b →
    exec (mk pr t1 t0) s = .next (answers s t1 t0 (scalar m [a, b] ((f (maskOf a) (maskOf b)).setWidth 64)) [])
/-- The major opcode of an instruction's word (R52). -/
def majorOf (i : Instr) : BitVec 7 := bitsAt (encode i) 25 7
/-- The payload of the wide EXT in front of the instruction, if there is one (R62, R63). -/
def widePayload (s : State) : Option (BitVec 23) :=
  match (blkOf s).words[indexOf s - 1]? with
  | some w => if 0 < indexOf s ∧ bitsAt w 25 7 = 1#7 ∧ bitsAt w 23 2 = 0#2 then some (bitsAt w 0 23) else none
  | none => none
/-- The immediate as a 64-bit word, sign-extended (R63, R64). -/
def signedImm {n : Nat} (s : State) (imm : BitVec n) : Word :=
  match widePayload s with
  | some p => (p ++ imm).signExtend 64
  | none => imm.signExtend 64
/-- The immediate as a 64-bit word, zero-extended. -/
def naturalImm {n : Nat} (s : State) (imm : BitVec n) : Word :=
  match widePayload s with
  | some p => (p ++ imm).setWidth 64
  | none => imm.setWidth 64
/-- An instruction with one operand and an immediate, and the events it raises. -/
def WithImm (mk : BitVec 2 → BitVec 14 → BitVec 9 → Instr) (f : State → BitVec 14 → Word → Word) (ev : State → BitVec 14 → Word → List Nat) : Prop :=
  ∀ (s : State) (pr : BitVec 2) (imm : BitVec 14) (t0 : BitVec 9) (m : BitVec 16) (a : Value), MayFire s → Runs s pr m →
    Given s 0 a →
    exec (mk pr imm t0) s = .next (answers s noTarget t0 (scalar m [a] (f s imm a.scalar)) (raised m [a] (ev s imm a.scalar)))

end Sys2Proof.Claims

open Sys2Proof Sys2Proof.Machine Sys2Proof.Claims

/-- R134 and R135: the 64-bit and 32-bit arithmetic, logic, shift, rotate and minimum and maximum operations of majors 0x10
(64-bit) and 0x11 (32-bit) answer their result for every operand, predicate mode and target; ADD, SUB and SHL clamp under saturation with
event 4; SEL answers L where its third operand is not zero and R otherwise, DATA, or BROKEN when any of the three is. That a result that the
mask makes null raises no event is read by inference (log 25). -/
def Obligations.ScalarArithmeticResults : Prop :=
  Saturating .add (fun _ a b => a.toInt + b.toInt) noEvent ∧
  Saturating .sub (fun _ a b => a.toInt - b.toInt) noEvent ∧
  Saturating .shl (fun n a b => a.toInt * 2 ^ (b.toNat % n)) noEvent ∧
  TwoOperand .and (fun _ a b => a &&& b) noEvent ∧
  TwoOperand .or (fun _ a b => a ||| b) noEvent ∧
  TwoOperand .xor (fun _ a b => a ^^^ b) noEvent ∧
  TwoOperand .andn (fun _ a b => a &&& ~~~b) noEvent ∧
  TwoOperand .shr (fun n a b => a >>> (b.toNat % n)) noEvent ∧
  TwoOperand .sra (fun n a b => a.sshiftRight (b.toNat % n)) noEvent ∧
  TwoOperand .rol (fun n a b => a.rotateLeft (b.toNat % n)) noEvent ∧
  TwoOperand .min (fun _ a b => if a.toInt ≤ b.toInt then a else b) noEvent ∧
  TwoOperand .max (fun _ a b => if a.toInt ≤ b.toInt then b else a) noEvent ∧
  TwoOperand .minn (fun _ a b => if a.toNat ≤ b.toNat then a else b) noEvent ∧
  TwoOperand .maxn (fun _ a b => if a.toNat ≤ b.toNat then b else a) noEvent ∧
  (∀ (s : State) (w : BitVec 1) (pr : BitVec 2) (t1 t0 : BitVec 9) (m : BitVec 16) (a b c : Value), MayFire s → Runs s pr m →
    Given s 0 a → Given s 1 b → Given s 2 c →
    exec (.sel w pr t1 t0) s = .next (answers s t1 t0
      (scalar m [a, b, c] (ofWidth w (fun _ x y => if exactOf w (fun k z _ => decide (z = 0#k)) c c then y else x) a b)) [])) ∧
  ∀ w pr t1 t0, ∀ i ∈ [Instr.add w pr t1 t0, .sub w pr t1 t0, .and w pr t1 t0, .or w pr t1 t0, .xor w pr t1 t0, .andn w pr t1 t0, .shl w pr t1 t0,
    .shr w pr t1 t0, .sra w pr t1 t0, .rol w pr t1 t0, .min w pr t1 t0, .max w pr t1 t0, .minn w pr t1 t0, .maxn w pr t1 t0, .sel w pr t1 t0],
    majorOf i = if w = 1 then 0x11 else 0x10

/-- R135 and R136: products, quotients and remainders with the fixed edge cases of division by zero and of the one overflow. That a result that
the mask makes null raises no event is read by inference (log 25). -/
def Obligations.MultiplyDivideResults : Prop :=
  Saturating (fun w pr => .mul pr w) (fun _ a b => a.toInt * b.toInt) noEvent ∧
  TwoOperand (fun w pr => .mulh pr w) (fun n a b => BitVec.ofInt n (a.toInt * b.toInt / 2 ^ n)) noEvent ∧
  TwoOperand (fun w pr => .mulhn pr w) (fun n a b => BitVec.ofNat n (a.toNat * b.toNat / 2 ^ n)) noEvent ∧
  Saturating (fun w pr => .div pr w) (fun _ a b => if b = 0 then -1 else a.toInt.tdiv b.toInt) zeroEvent ∧
  TwoOperand (fun w pr => .divn pr w) (fun n a b => if b = 0 then BitVec.allOnes n else a / b) zeroEvent ∧
  TwoOperand (fun w pr => .rem pr w) (fun n a b => if b = 0 then a else BitVec.ofInt n (a.toInt - b.toInt * a.toInt.tdiv b.toInt)) zeroEvent ∧
  TwoOperand (fun w pr => .remn pr w) (fun n a b => if b = 0 then a else BitVec.ofNat n (a.toNat - b.toNat * (a.toNat / b.toNat))) zeroEvent ∧
  ∀ pr w t1 t0, ∀ i ∈ [Instr.mul pr w t1 t0, .mulh pr w t1 t0, .mulhn pr w t1 t0, .div pr w t1 t0, .divn pr w t1 t0, .rem pr w t1 t0,
    .remn pr w t1 t0], majorOf i = 0x12 ∧ (bitsAt (encode i) 21 1 : BitVec 1) = w

/-- R137: the one-operand bit instructions. -/
def Obligations.BitInstructionResults : Prop :=
  OneOperand .clz (fun a x => ∃ k, k ≤ 64 ∧ x = BitVec.ofNat 64 k ∧ (∀ i, 64 - k ≤ i → bitAt a i = false) ∧ (k < 64 → bitAt a (63 - k) = true)) ∧
  OneOperand .ctz (fun a x => ∃ k, k ≤ 64 ∧ x = BitVec.ofNat 64 k ∧ (∀ i, i < k → bitAt a i = false) ∧ (k < 64 → bitAt a k = true)) ∧
  OneOperand .pop (fun a x => x = BitVec.ofNat 64 ((List.range 64).countP fun i => bitAt a i)) ∧
  OneOperand .sext8 (fun a x => x = (a.setWidth 8).signExtend 64) ∧
  OneOperand .sext16 (fun a x => x = (a.setWidth 16).signExtend 64) ∧
  OneOperand .sext32 (fun a x => x = (a.setWidth 32).signExtend 64) ∧
  OneOperand .zext8 (fun a x => x = a &&& 0xFF) ∧
  OneOperand .zext16 (fun a x => x = a &&& 0xFFFF) ∧
  OneOperand .zext32 (fun a x => x = a &&& 0xFFFFFFFF) ∧
  OneOperand .brev (fun a x => ∀ i, i < 64 → bitAt x i = bitAt a (63 - i)) ∧
  OneOperand .bswap (fun a x => ∀ i j, i < 8 → j < 8 → bitAt x (8 * i + j) = bitAt a (8 * (7 - i) + j)) ∧
  ∀ pr t1 t0, ∀ i ∈ [Instr.clz pr t1 t0, .ctz pr t1 t0, .pop pr t1 t0, .sext8 pr t1 t0, .sext16 pr t1 t0, .sext32 pr t1 t0, .zext8 pr t1 t0,
    .zext16 pr t1 t0, .zext32 pr t1 t0, .brev pr t1 t0, .bswap pr t1 t0], majorOf i = 0x13

/-- R138: the compares yield the scalar 1 when their relation holds and 0 otherwise. -/
def Obligations.CompareResults : Prop :=
  Compares (fun w pr => .teq pr w) (fun _ a b => a == b) ∧
  Compares (fun w pr => .tne pr w) (fun _ a b => a != b) ∧
  Compares (fun w pr => .tlt pr w) (fun _ a b => a.slt b) ∧
  Compares (fun w pr => .tle pr w) (fun _ a b => a.sle b) ∧
  Compares (fun w pr => .tltn pr w) (fun _ a b => a.ult b) ∧
  Compares (fun w pr => .tlen pr w) (fun _ a b => a.ule b) ∧
  (∀ (s : State) (pr : BitVec 2) (t1 t0 : BitVec 9) (m : BitVec 16) (a b : Value), MayFire s → Runs s pr m → Given s 0 a → Given s 1 b →
    exec (.tbit pr t1 t0) s =
      .next (answers s t1 t0 (scalar m [a, b] (if bitAt a.scalar (b.scalar.toNat % 64) then 1 else 0)) [])) ∧
  ∀ pr w t1 t0, ∀ i ∈ [Instr.teq pr w t1 t0, .tne pr w t1 t0, .tlt pr w t1 t0, .tle pr w t1 t0, .tltn pr w t1 t0, .tlen pr w t1 t0, .tbit pr t1 t0],
    majorOf i = 0x14

/-- R139: the predicate mask instructions, of major 0x15, answer the masks, counts and indexes of bits 15 to 0 of lane 0. -/
def Obligations.PredicateMaskResults : Prop :=
  TwoMask .pand (fun a b => a &&& b) ∧
  TwoMask .por (fun a b => a ||| b) ∧
  TwoMask .pxor (fun a b => a ^^^ b) ∧
  OneMask .pnot (fun a x => x = (~~~a).setWidth 64) ∧
  OneMask .pany (fun a x => x = if a ≠ 0 then 1 else 0) ∧
  OneMask .pall (fun a x => x = if a = 0xFFFF then 1 else 0) ∧
  OneMask .pcnt (fun a x => x = BitVec.ofNat 64 ((List.range 16).countP fun i => bitAt a i)) ∧
  OneMask .pfirst (fun a x => ∃ k, k ≤ 16 ∧ x = BitVec.ofNat 64 k ∧ (∀ i, i < k → bitAt a i = false) ∧ (k < 16 → bitAt a k = true)) ∧
  ∀ pr t1 t0, ∀ i ∈ [Instr.pand pr t1 t0, .por pr t1 t0, .pxor pr t1 t0, .pnot pr t1 t0, .pany pr t1 t0, .pall pr t1 t0, .pcnt pr t1 t0,
    .pfirst pr t1 t0], majorOf i = 0x15

/-- R140 and R141: the immediate instructions, with the immediate that a wide EXT extends, and ADDI, ADDIW, SHLI and MULI clamped
under saturation. That a result that the mask makes null raises no event is read by inference (log 25). -/
def Obligations.ImmediateResults : Prop :=
  WithImm .addi (fun s k a => narrowed (satOf s) 64 (a.toInt + (signedImm s k).toInt))
    (fun s k a => clampEvent (satOf s) 64 (a.toInt + (signedImm s k).toInt)) ∧
  WithImm .addiw
    (fun s k a => (narrowed (satOf s) 32 ((a.setWidth 32).toInt + ((signedImm s k).setWidth 32).toInt)).signExtend 64)
    (fun s k a => clampEvent (satOf s) 32 ((a.setWidth 32).toInt + ((signedImm s k).setWidth 32).toInt)) ∧
  WithImm .andi (fun s k a => a &&& naturalImm s k) (fun _ _ _ => []) ∧
  WithImm .ori (fun s k a => a ||| naturalImm s k) (fun _ _ _ => []) ∧
  WithImm .xori (fun s k a => a ^^^ naturalImm s k) (fun _ _ _ => []) ∧
  WithImm .shli (fun s k a => narrowed (satOf s) 64 (a.toInt * 2 ^ (k.toNat % 64)))
    (fun s k a => clampEvent (satOf s) 64 (a.toInt * 2 ^ (k.toNat % 64))) ∧
  WithImm .shri (fun _ k a => a >>> (k.toNat % 64)) (fun _ _ _ => []) ∧
  WithImm .srai (fun _ k a => a.sshiftRight (k.toNat % 64)) (fun _ _ _ => []) ∧
  WithImm .muli (fun s k a => narrowed (satOf s) 64 (a.toInt * (signedImm s k).toInt))
    (fun s k a => clampEvent (satOf s) 64 (a.toInt * (signedImm s k).toInt)) ∧
  WithImm .teqi (fun s k a => if a = signedImm s k then 1 else 0) (fun _ _ _ => []) ∧
  WithImm .tnei (fun s k a => if a = signedImm s k then 0 else 1) (fun _ _ _ => []) ∧
  WithImm .tlti (fun s k a => if a.toInt < (signedImm s k).toInt then 1 else 0) (fun _ _ _ => []) ∧
  WithImm .tlei (fun s k a => if a.toInt ≤ (signedImm s k).toInt then 1 else 0) (fun _ _ _ => []) ∧
  WithImm .tltni (fun s k a => if a.toNat < (signedImm s k).toNat then 1 else 0) (fun _ _ _ => []) ∧
  (∀ (s : State) (pr : BitVec 2) (imm : BitVec 14) (t0 : BitVec 9) (m : BitVec 16), MayFire s → Runs s pr m →
    exec (.movi pr imm t0) s = .next (answers s noTarget t0 (scalar m [] (signedImm s imm)) []) ∧
    exec (.movif pr imm t0) s = .next (answers s noTarget t0
      (scalar m [] ((match widePayload s with | some p => (p ++ imm).setWidth 32 | none => imm.setWidth 32 <<< 18 : W32).setWidth 64)) [])) ∧
  ∀ pr imm t0, [Instr.addi pr imm t0, .addiw pr imm t0, .andi pr imm t0, .ori pr imm t0, .xori pr imm t0, .shli pr imm t0, .shri pr imm t0,
    .srai pr imm t0, .muli pr imm t0, .teqi pr imm t0, .tnei pr imm t0, .tlti pr imm t0, .tlei pr imm t0, .tltni pr imm t0, .movi pr imm t0,
    .movif pr imm t0].map majorOf = (List.range 16).map fun n => BitVec.ofNat 7 (0x18 + n)
namespace Sys2Proof.Claims
open Sys2Proof.Machine

/-! ## Operands read whole (R32, R471) -/

/-- A capability with all of its lanes has reached slot `q`: of kind `k`, with every permission of `ps` (R37). -/
structure Capability (s : State) (q k : Nat) (ps : List Nat) (v : Value) : Prop where
  given : Given s q v
  whole : capOk v = true
  tagged : v.tag = .cap
  kind : capKind v.cap = k
  permits : ∀ p ∈ ps, capHas v.cap p = true
/-- A scalar with both of its lanes has reached slot `q`, and it is not BROKEN. -/
structure Number (s : State) (q : Nat) (v : Value) : Prop where
  given : Given s q v
  whole : scalarOk v = true
  usable : v.tag ≠ .broken
/-- A computed target has reached L: a whole capability, or a whole scalar of another tag (R126, R471). -/
structure TargetOperand (s : State) (v : Value) : Prop where
  given : Given s 0 v
  whole : scalarOk v = true
  cap : v.tag = .cap → capOk v = true
/-- The lanes that the predicate leaves (R56). -/
def lanesOf (m : BitVec 16) (v : Value) : Value := { v with valid := v.valid &&& m }
/-- The address of the block that fires, moved by an offset in units of 64 bytes (R50, R125). -/
def blockFrom (s : State) (off : Word) : Word := (slotOf s).pc + 64 * off
/-- A DATA scalar with every lane valid. -/
def plain (x : Word) : Value := { bits := x.setWidth 512, valid := 0xFFFF, tag := .data, null := false }
/-- The address of the unit that follows the block that fires (R127): 16 bytes of header, 8 more of a region block, 4 of each word,
in whole units of 64 bytes. -/
def followingUnit (s : State) : Word :=
  (slotOf s).pc + BitVec.ofNat 64 ((16 + (if (blkOf s).region then 8 else 0) + 4 * (blkOf s).words.length + 63) / 64 * 64)

end Sys2Proof.Claims

open Sys2Proof Sys2Proof.Machine Sys2Proof.Claims

/-- R120, R121, R35, R36, R450: READ answers the register as at admission with every lane valid and the register's tag; PORT answers the head
word of a neighbour's queue as DATA, or the oldest entry of the inbox, whose words with a corrected error it repairs, and marks it to be
popped; a queue whose neighbour lies outside the lodging or has its core disabled is empty, and on an empty queue PORT.trap faults
EMPTY_READ and PORT.park waits. That a waiting PORT is a step that changes nothing is the model's choice (log 16). -/
def Obligations.RegisterAndPortReads : Prop :=
  (∀ (s : State) (e : BitVec 1) (reg : BitVec 6) (t1 t0 : BitVec 9), MayFire s →
    let g := mapGet (blkOf s).regs reg.toNat
    g.poison = 0 → g.corr = 0 →
    exec (.read e reg t1 t0) s = .next (answers s t1 t0 { bits := g.bits, valid := 0xFFFF, tag := g.tag, null := false } [])) ∧
  (∀ (s : State) (e : BitVec 1) (reg : BitVec 6) (t1 t0 : BitVec 9) (w : V512) (t : Word) (ws : List (V512 × Word)), MayFire s →
    reg.toNat < 4 → (s.portTo s.here.1 reg.toNat).isSome = true → (mapGet (s.core s.here.1).ports reg.toNat).words = (w, t) :: ws →
    exec (.port e reg t1 t0) s =
      .next (answers (s.updBlk s.here.1 s.here.2.1 fun b => { b with pops := (reg.toNat :: b.pops).eraseDups }) t1 t0
        { bits := w, valid := 0xFFFF, tag := .data, null := false } [])) ∧
  (∀ (s : State) (e : BitVec 1) (t1 t0 : BitVec 9), MayFire s →
    let h := numBytes (s.core s.here.1).s.bytes 0xF000 8
    0 < qCount h → (s.core s.here.1).s.poison = [] →
    exec (.port e 4 t1 t0) s =
      .next (answers ((s.repairInbox s.here.1).updBlk s.here.1 s.here.2.1 fun b => { b with pops := (4 :: b.pops).eraseDups }) t1 t0
        (entryValue ((s.core s.here.1).qEntry 0xF000 (qHead h))) [])) ∧
  (∀ (s : State) (reg : BitVec 6) (t1 t0 : BitVec 9), MayFire s →
    (reg.toNat < 4 ∧ (s.portTo s.here.1 reg.toNat = none ∨ (mapGet (s.core s.here.1).ports reg.toNat).words = []) ∨
      reg = 4 ∧ qCount (numBytes (s.core s.here.1).s.bytes 0xF000 8) = 0) →
    exec (.port 0 reg t1 t0) s = .next (traps s { code := 0x05, lo := reg.setWidth 64, hi := 0 }) ∧
    exec (.port 1 reg t1 t0) s = .next s)

/-- R59, R122, R123, R124: NULL sends null tokens, MOV passes its value with masked lanes null, WRITE completes its register with it,
WPORT keeps the word for the commit's push with null lanes zero. -/
def Obligations.MovesAndWrites : Prop :=
  ∀ (s : State) (pr : BitVec 2) (m : BitVec 16), MayFire s → Runs s pr m →
    (∀ t1 t0, exec (.null pr t1 t0) s = .next (answers s t1 t0 nullToken [])) ∧
    (∀ t1 t0 a, Given s 0 a → exec (.mov pr t1 t0) s = .next (answers s t1 t0 (lanesOf m a) [])) ∧
    (∀ (reg : BitVec 6) a, Given s 0 a → (a.tag = .cap → capOk (lanesOf m a) = true) → mapGet (blkOf s).regDone reg.toNat = .no →
      exec (.write pr reg) s = .next (done (completes s reg.toNat (.value (lanesOf m a))))) ∧
    (∀ (reg : BitVec 6) a q, Given s 0 a → a.tag ≠ .broken → s.portTo s.here.1 reg.toNat = some q →
      exec (.wport pr reg) s = .next (done (keep s (.push reg.toNat
        (ofLanes fun i => if bitAt (lanesOf m a).valid i then a.lane i else 0)))))

/-- R125 to R132: each exit records where the block leads, and SLEEP its cycle, when the block has no exit yet. -/
def Obligations.ExitsFire : Prop :=
  ∀ (s : State) (pr : BitVec 2), MayFire s → Runs s pr 0xFFFF#16 → (blkOf s).exits = [] →
    (∀ off, exec (.bro pr off) s = .next (done (leaves s (.jump (blockFrom s (signedImm s off)))))) ∧
    (∀ (reg : BitVec 6) off, mapGet (blkOf s).regDone reg.toNat = .no →
      exec (.call pr reg off) s =
        .next (done (completes (leaves s (.jump (blockFrom s (signedImm s off)))) reg.toNat (.value (plain (followingUnit s)))))) ∧
    (∀ t, TargetOperand s t → exec (.brc pr) s = .next (done (leaves s (.computed t none))) ∧
      exec (.ret pr) s = .next (done (leaves s (.computed t none)))) ∧
    (∀ (reg : BitVec 6) t, TargetOperand s t → mapGet (blkOf s).regDone reg.toNat = .no →
      exec (.callc pr reg) s = .next (done (completes (leaves s (.computed t (some reg.toNat))) reg.toNat .link))) ∧
    exec (.exit pr) s = .next (done (leaves s .exit)) ∧
    (∀ off, exec (.yield pr off) s = .next (done (leaves s (.yield (blockFrom s (signedImm s off)))))) ∧
    (∀ e k w, Capability s 0 12 [118] e → Number s 1 k → Number s 2 w →
      exec (.handoff pr) s = .next (done (asks (leaves s (.handoff e.cap k.scalar w.scalar)) (.entry e.cap)))) ∧
    (∀ t, Number s 0 t → exec (.sleep pr) s = .next (done (keep s (.sleep t.scalar))))

/-- R36, R57, R67, R72, R122, R123: where WRITE and WPORT fault, where a second exit that fires in a block, HANDOFF among them, faults
MULTI_EXIT, and, on every word that reads a predicate, that one tagged CAP faults TAG and one tagged BROKEN faults BROKEN_USE. That a
predicate does so where its lane 0 is null, or beside a null token in a data slot, is the model's choice (log 55). -/
def Obligations.WriteExitAndPredicateFaults : Prop :=
  (∀ (s : State) (pr : BitVec 2) (m : BitVec 16) (reg : BitVec 6) (a : Value), MayFire s → Runs s pr m → Given s 0 a →
    (a.tag = .cap → capOk (lanesOf m a) = false → exec (.write pr reg) s = .next (traps s (trapCap 0x07 a.cap))) ∧
    (a.tag = .data → mapGet (blkOf s).regDone reg.toNat ≠ .no → exec (.write pr reg) s = .next (traps s (trap 0x02))) ∧
    (a.tag = .broken → exec (.wport pr reg) s = .next (traps s (trap 0x06))) ∧
    (a.tag ≠ .broken → s.portTo s.here.1 reg.toNat = none → exec (.wport pr reg) s = .next (traps s (trap 0x1C)))) ∧
  (∀ (s : State) (pr : BitVec 2), MayFire s → Runs s pr 0xFFFF#16 → (blkOf s).exits ≠ [] →
    (∀ off, exec (.bro pr off) s = .next (traps s (trap 0x03))) ∧
    (∀ reg off, exec (.call pr reg off) s = .next (traps s (trap 0x03))) ∧
    (∀ t, TargetOperand s t → exec (.brc pr) s = .next (traps s (trap 0x03)) ∧ exec (.ret pr) s = .next (traps s (trap 0x03))) ∧
    (∀ reg t, TargetOperand s t → exec (.callc pr reg) s = .next (traps s (trap 0x03))) ∧
    exec (.exit pr) s = .next (traps s (trap 0x03)) ∧
    (∀ off, exec (.yield pr off) s = .next (traps s (trap 0x03))) ∧
    (∀ e k w, Capability s 0 12 [118] e → Number s 1 k → Number s 2 w → exec (.handoff pr) s = .next (traps s (trap 0x03)))) ∧
  (∀ (s : State) (r : Row) (w : W32) (p : Value), MayFire s → Arrived s r w → plainRow r = true → predOf r w ≠ 0 → Given s 3 p →
       (p.tag = .cap → exec (build r w) s = .next (traps s (trapCap 0x07 p.cap))) ∧
       (p.tag = .broken → exec (build r w) s = .next (traps s (trap 0x06))))

/-- R56, R62: EXT never fires and changes nothing wherever it is met; and over the whole instruction set, a word predicated on a condition
that does not hold has no effect but to be marked so: it sends nothing, raises nothing and completes nothing, but that a store which a
null token has reached completes its LSID (R61; that it passes no null token on is the model's choice, log 55). -/
def Obligations.NothingFiresWithoutCause : Prop :=
  (
   (∀ (s : State) payload, exec (.extWide payload) s = .next s) ∧
   (∀ (s : State) long cls, exec (.extHint long cls) s = .next s) ∧
   (∀ (s : State) scope sat round, exec (.extModifier scope sat round) s = .next s)) ∧
  (
   ∀ (s : State) (r : Row) (w : W32) (p : Value), MayFire s → Arrived s r w → plainRow r = true → 2 ≤ predOf r w → Given s 3 p →
     p.tag = .data → bitAt p.valid 0 = true → (predOf r w = 2 ↔ p.lane 0 = 0) →
     exec (build r w) s = .next ((if r.isStore && nullIn s r then nullEffect s r w else s).mark s.here.1 s.here.2.1 (indexOf s) 2))

/-- R57, R58: over the whole instruction set, a word whose predicate is a null token, or is null in lane 0 under modes 10 and 11, or that
runs with a null token in a data slot, passes null tokens to its targets, whatever else has reached it, and does beside that only what the table
of R58 says; that a nulled CALL leaves its register incomplete, and that a null token in a data slot waits for the predicate, are the model's
choice (log 55). -/
def Obligations.NullTokensPassOn : Prop :=
  ∀ (s : State) (r : Row) (w : W32), MayFire s → wordOf s = w → plainRow r = true →
    (r.completes = true → r ≠ .call → mapGet (blkOf s).regDone (wReg w).toNat = .no) →
    (predOf r w ≠ 0 ∧ (∃ p, opnd s 3 = some p ∧ (p.null = true ∨ 2 ≤ predOf r w ∧ p.tag = .data ∧ bitAt p.valid 0 = false)) ∨
      (∃ m, Runs s (BitVec.ofNat 2 (predOf r w)) m) ∧ ∃ q a, q < r.arity ∧ opnd s q = some a ∧ a.null = true) →
    exec (build r w) s = .next (fired (nullEffect s r w) (target1 r w) (target0 r w) nullToken nullToken [])


namespace Sys2Proof.Claims
open Sys2Proof.Machine

/-! ## Capability operations (R142 to R145, R428) -/

/-- A whole capability in L, of a kind that `kinds` allows. -/
structure CapIn (s : State) (kinds : Nat → Bool) (v : Value) : Prop where
  given : Given s 0 v
  whole : capOk v = true
  tagged : v.tag = .cap
  allowed : kinds (bitsAt v.bits 124 4).toNat = true
/-- A right operand: any value with lanes 0 to 3 valid and not BROKEN, read as its low 64 bits (R142). -/
structure RightIn (s : State) (v : Value) : Prop where
  given : Given s 1 v
  whole : capOk v = true
  usable : v.tag ≠ .broken
/-- Kinds with bounds and an address that may move, and every kind (R142). -/
def boundedKinds (k : Nat) : Bool := (1 ≤ k && k ≤ 5) || k == 10 || k == 11
def allKinds (k : Nat) : Bool := k ≤ 12
/-- The instruction runs on a steward core (R423). -/
def stewardMode (s : State) : Prop := 4096 ≤ s.here.1 ∧ s.here.1 < 4128
/-- A capability as a result: bits 511 to 128 zero, masked lanes null (R142). -/
def capOut (m : BitVec 16) (c : Cap) (tag : Tag := .cap) : Value := { bits := c.setWidth 512, valid := m, tag := tag, null := false }
/-- A DATA scalar as a result. -/
def numOut (m : BitVec 16) (x : Word) : Value := { bits := x.setWidth 512, valid := m, tag := .data, null := false }
/-- A capability with another address. -/
def readdressed (c : Cap) (a : Word) : Cap := (bitsAt c 64 64 : BitVec 64) ++ a
/-- The exponent of a capability, and the size of the region that its address may not leave (R39, R41). -/
def expOf (c : Cap) : Nat := (bitsAt c 90 6).toNat
def sameRegion (c : Cap) (a : Word) : Prop := a.toNat / 2 ^ (expOf c + 13) = (bitsAt c 0 64).toNat / 2 ^ (expOf c + 13)
/-- Base and length of a capability (R39). -/
def baseOf (c : Cap) : Nat :=
  (bitsAt c 0 64).toNat / 2 ^ (expOf c + 13) * 2 ^ (expOf c + 13) + (bitsAt c 77 13).toNat * 2 ^ expOf c
def lengthOf (c : Cap) : Nat := (bitsAt c 64 13).toNat * 2 ^ expOf c
/-- The bounds `[lo, hi)` rounded out to multiples of 2^E, and the test of R40 and R144 on them. -/
def down (e n : Nat) : Nat := n / 2 ^ e * 2 ^ e
def up (e n : Nat) : Nat := (n + 2 ^ e - 1) / 2 ^ e * 2 ^ e
def fits (e lo hi : Nat) : Prop :=
  e ≤ 51 ∧ (up e hi - down e lo) / 2 ^ e ≤ 0x1FFF ∧ up e hi ≤ down (e + 13) lo + 2 ^ (e + 13)
/-- The capability whose bounds are `[lo, hi)` rounded out at the exponent `e` (R144). -/
def bounded (c : Cap) (e lo hi : Nat) : Cap :=
  (bitsAt c 96 32 : BitVec 32) ++ BitVec.ofNat 6 e ++ BitVec.ofNat 13 ((down e lo - down (e + 13) lo) / 2 ^ e)
    ++ BitVec.ofNat 13 ((up e hi - down e lo) / 2 ^ e) ++ (bitsAt c 0 64 : BitVec 64)
/-- The exponent `e` is the least at which the `n` bytes from the address fit (R40, R144). -/
structure LeastFit (c : Cap) (n e : Nat) : Prop where
  fit : fits e (bitsAt c 0 64).toNat ((bitsAt c 0 64).toNat + n)
  least : ∀ e', e' < e → ¬ fits e' (bitsAt c 0 64).toNat ((bitsAt c 0 64).toNat + n)
/-- CSETB and CSETBX succeed with the exponent `e`: the least that fits, within the source's bounds outside steward mode, and exact
for CSETBX. -/
structure SetsBounds (s : State) (exact : Bool) (c : Cap) (n e : Nat) : Prop where
  ends : (bitsAt c 0 64).toNat + n ≤ 2 ^ 64 - 1
  fit : fits e (bitsAt c 0 64).toNat ((bitsAt c 0 64).toNat + n)
  least : ∀ e', e' < e → ¬ fits e' (bitsAt c 0 64).toNat ((bitsAt c 0 64).toNat + n)
  within : stewardMode s ∨
    (baseOf c ≤ down e (bitsAt c 0 64).toNat ∧ up e ((bitsAt c 0 64).toNat + n) ≤ baseOf c + lengthOf c)
  tight : exact = true →
    down e (bitsAt c 0 64).toNat = (bitsAt c 0 64).toNat ∧ up e ((bitsAt c 0 64).toNat + n) = (bitsAt c 0 64).toNat + n
/-- The capability operations with two operands, and with one. -/
def capPairs : List (BitVec 2 → BitVec 9 → BitVec 9 → Instr) := [.cadd, .cseta, .csetb, .csetbx, .cperm, .cseal, .cunseal, .csub, .ceq]
def capSingles : List (BitVec 2 → BitVec 9 → BitVec 9 → Instr) := [.cgeta, .cgetb, .cgetl, .cgetp, .cgetk, .ctagt, .cclr]
/-- A scalar read from a capability of any kind. -/
def Reads (mk : BitVec 2 → BitVec 9 → BitVec 9 → Instr) (f : Cap → Word) : Prop :=
  ∀ (s : State) (pr : BitVec 2) (t1 t0 : BitVec 9) (m : BitVec 16) (a : Value), MayFire s → Runs s pr m → CapIn s allKinds a →
    exec (mk pr t1 t0) s = .next (answers s t1 t0 (numOut m (f a.cap)) [])

end Sys2Proof.Claims

open Sys2Proof Sys2Proof.Machine Sys2Proof.Claims

/-- R40, R41, R143, R144, R428: CADD, CADDI and CSETA move a capability's address; leaving the region clears the tag, except for CSETA in
steward mode, which also takes every kind from 1 to 12. CSETB and CSETBX answer the smallest representable bounds that enclose the window
asked for, and fault BOUNDS where the window ends past the last address, starts below the source's base or ends past its limit, or would do so
once it is rounded out, and where no exponent represents it; CSETBX faults BOUNDS where the window would have to be rounded at all. -/
def Obligations.CapabilityAddressesAndBounds : Prop :=
  (
   ∀ (s : State) (pr : BitVec 2) (t1 t0 : BitVec 9) (m : BitVec 16) (a b : Value), MayFire s → Runs s pr m → RightIn s b →
     (CapIn s boundedKinds a →
       (sameRegion a.cap (a.scalar + b.scalar) →
         exec (.cadd pr t1 t0) s = .next (answers s t1 t0 (capOut m (readdressed a.cap (a.scalar + b.scalar))) [])) ∧
       (¬ sameRegion a.cap (a.scalar + b.scalar) →
         exec (.cadd pr t1 t0) s = .next (answers s t1 t0 (capOut m (readdressed a.cap (a.scalar + b.scalar)) .data) [])) ∧
       (sameRegion a.cap b.scalar → exec (.cseta pr t1 t0) s = .next (answers s t1 t0 (capOut m (readdressed a.cap b.scalar)) [])) ∧
       (¬ stewardMode s → ¬ sameRegion a.cap b.scalar →
         exec (.cseta pr t1 t0) s = .next (answers s t1 t0 (capOut m (readdressed a.cap b.scalar) .data) []))) ∧
     (stewardMode s → CapIn s (fun k => 1 ≤ k && k ≤ 12) a →
       exec (.cseta pr t1 t0) s = .next (answers s t1 t0 (capOut m (readdressed a.cap b.scalar)) []))) ∧
  (
   ∀ (s : State) (pr : BitVec 2) (imm : BitVec 14) (t0 : BitVec 9) (m : BitVec 16) (a : Value), MayFire s → Runs s pr m → CapIn s boundedKinds a →
     (sameRegion a.cap (a.scalar + signedImm s imm) →
       exec (.caddi pr imm t0) s = .next (answers s noTarget t0 (capOut m (readdressed a.cap (a.scalar + signedImm s imm))) [])) ∧
     (¬ sameRegion a.cap (a.scalar + signedImm s imm) →
       exec (.caddi pr imm t0) s = .next (answers s noTarget t0 (capOut m (readdressed a.cap (a.scalar + signedImm s imm)) .data) []))) ∧
  (
   ∀ (s : State) (pr : BitVec 2) (t1 t0 : BitVec 9) (m : BitVec 16) (a b : Value), MayFire s → Runs s pr m → CapIn s boundedKinds a →
     RightIn s b →
     (∀ e, SetsBounds s false a.cap b.scalar.toNat e →
       exec (.csetb pr t1 t0) s =
         .next (answers s t1 t0 (capOut m (bounded a.cap e a.scalar.toNat (a.scalar.toNat + b.scalar.toNat))) [])) ∧
     (∀ e, SetsBounds s true a.cap b.scalar.toNat e →
       exec (.csetbx pr t1 t0) s =
         .next (answers s t1 t0 (capOut m (bounded a.cap e a.scalar.toNat (a.scalar.toNat + b.scalar.toNat))) [])) ∧
     (2 ^ 64 - 1 < a.scalar.toNat + b.scalar.toNat →
       exec (.csetb pr t1 t0) s = .next (traps s (trapCap 0x08 a.cap)) ∧ exec (.csetbx pr t1 t0) s = .next (traps s (trapCap 0x08 a.cap))) ∧
     (¬ stewardMode s → (a.scalar.toNat < baseOf a.cap ∨ baseOf a.cap + lengthOf a.cap < a.scalar.toNat + b.scalar.toNat) →
       exec (.csetb pr t1 t0) s = .next (traps s (trapCap 0x08 a.cap)) ∧ exec (.csetbx pr t1 t0) s = .next (traps s (trapCap 0x08 a.cap))) ∧
     ((∀ e, ¬ fits e a.scalar.toNat (a.scalar.toNat + b.scalar.toNat)) →
       exec (.csetb pr t1 t0) s = .next (traps s (trapCap 0x08 a.cap)) ∧ exec (.csetbx pr t1 t0) s = .next (traps s (trapCap 0x08 a.cap))) ∧
     (∀ e, LeastFit a.cap b.scalar.toNat e →
       (¬ stewardMode s → (down e a.scalar.toNat < baseOf a.cap ∨ baseOf a.cap + lengthOf a.cap < up e (a.scalar.toNat + b.scalar.toNat)) →
         exec (.csetb pr t1 t0) s = .next (traps s (trapCap 0x08 a.cap)) ∧ exec (.csetbx pr t1 t0) s = .next (traps s (trapCap 0x08 a.cap))) ∧
       ((down e a.scalar.toNat ≠ a.scalar.toNat ∨ up e (a.scalar.toNat + b.scalar.toNat) ≠ a.scalar.toNat + b.scalar.toNat) →
         exec (.csetbx pr t1 t0) s = .next (traps s (trapCap 0x08 a.cap)))))

/-- R143, R145, R428: CPERM only takes permissions away, but in steward mode it sets permissions, space and kind; CSEAL makes a sealed
entry of a code capability; CUNSEAL makes a capability on the 32 bytes of the descriptor. -/
def Obligations.CapabilityPermissionsAndSeals : Prop :=
  ∀ (s : State) (pr : BitVec 2) (t1 t0 : BitVec 9) (m : BitVec 16) (a b : Value), MayFire s → Runs s pr m → RightIn s b →
    (CapIn s allKinds a → ¬ stewardMode s →
      exec (.cperm pr t1 t0) s = .next (answers s t1 t0 (capOut m
        ((bitsAt a.cap 124 4 : BitVec 4) ++ ((bitsAt a.cap 112 12 : BitVec 12) &&& b.scalar.setWidth 12) ++ (bitsAt a.cap 0 112 : BitVec 112))) [])) ∧
    (CapIn s allKinds a → stewardMode s → (bitsAt b.scalar 28 4).toNat < 13 →
      exec (.cperm pr t1 t0) s = .next (answers s t1 t0 (capOut m
        ((if (bitsAt b.scalar 28 4 : BitVec 4) = 0 then (bitsAt a.cap 124 4 : BitVec 4) else bitsAt b.scalar 28 4)
          ++ (bitsAt b.scalar 0 12 : BitVec 12) ++ (bitsAt b.scalar 12 16 : BitVec 16) ++ (bitsAt a.cap 0 96 : BitVec 96))) [])) ∧
    (CapIn s (· == 11) a → bitAt a.cap 119 = true → b.tag = .cap → bitAt b.cap 112 = true → a.scalar.toNat % 32 = 0 →
      baseOf a.cap ≤ a.scalar.toNat → a.scalar.toNat + 32 ≤ baseOf a.cap + lengthOf a.cap →
      exec (.cseal pr t1 t0) s = .next (answers s t1 t0 (capOut m
        (12#4 ++ (if bitAt a.cap 113 then 0x042#12 else 0x040#12) ++ (bitsAt a.cap 0 112 : BitVec 112))) [])) ∧
    (CapIn s (· == 12) a → b.tag = .cap → bitAt b.cap 112 = true → a.scalar.toNat % 32 = 0 →
      exec (.cunseal pr t1 t0) s = .next (answers s t1 t0 (capOut m
        (11#4 ++ 0x800#12 ++ (bitsAt a.cap 96 16 : BitVec 16) ++ 0#6 ++ BitVec.ofNat 13 (a.scalar.toNat % 2 ^ 13) ++ 32#13 ++ a.scalar)) []))

/-- R33, R39, R142, R143: the fields of a capability, its tag, differences and equality, as DATA scalars; CCLR answers the same bits as DATA.
A capability operation with a BROKEN operand answers BROKEN and never faults; the bits are any (log 23). Where an operand of one that makes
a capability has a null lane in 0 to 3, lanes 0 to 3 of the result are null.
The scalar readers, CSUB, CEQ and CTAGT null the same lanes, and CCLR nulls them together. That a null lane counts whatever the tag is a reading
(log 26). -/
def Obligations.CapabilityFieldsAndNulls : Prop :=
  (
   Reads .cgeta (fun c => bitsAt c 0 64) ∧
   Reads .cgetb (fun c => if boundedKinds (bitsAt c 124 4).toNat ∨ (bitsAt c 124 4).toNat = 12 then BitVec.ofNat 64 (baseOf c) else 0) ∧
   Reads .cgetl (fun c => if boundedKinds (bitsAt c 124 4).toNat ∨ (bitsAt c 124 4).toNat = 12 then BitVec.ofNat 64 (lengthOf c) else 0) ∧
   Reads .cgetp (fun c => (bitsAt c 112 12 : BitVec 12).setWidth 64) ∧
   Reads .cgetk (fun c => (bitsAt c 124 4 : BitVec 4).setWidth 64) ∧
   ∀ (s : State) (pr : BitVec 2) (t1 t0 : BitVec 9) (m : BitVec 16) (a b : Value), MayFire s → Runs s pr m → Given s 0 a → capOk a = true →
     a.tag ≠ .broken →
     exec (.ctagt pr t1 t0) s = .next (answers s t1 t0 (numOut m (if a.tag = .cap then 1 else 0)) []) ∧
     exec (.cclr pr t1 t0) s = .next (answers s t1 t0 { bits := a.bits, valid := a.valid &&& m, tag := .data, null := false } []) ∧
     (RightIn s b →
       exec (.csub pr t1 t0) s = .next (answers s t1 t0 (numOut m (a.scalar - b.scalar)) []) ∧
       exec (.ceq pr t1 t0) s = .next (answers s t1 t0 (numOut m (if a.tag = b.tag ∧ a.cap = b.cap then 1 else 0)) []))) ∧
  (
   (∀ mk, mk ∈ capPairs → ∀ (s : State) (pr : BitVec 2) (t1 t0 : BitVec 9) (m : BitVec 16) (a b : Value), MayFire s → Runs s pr m →
     Given s 0 a → Given s 1 b → (a.tag = .broken ∨ b.tag = .broken) →
     ∃ x, exec (mk pr t1 t0) s = .next (answers s t1 t0
       { bits := x, valid := (if capOk a && capOk b then 0xFFFF#16 else 0xFFF0#16) &&& m, tag := .broken, null := false } [])) ∧
   (∀ mk, mk ∈ capSingles → ∀ (s : State) (pr : BitVec 2) (t1 t0 : BitVec 9) (m : BitVec 16) (a : Value), MayFire s → Runs s pr m →
     Given s 0 a → a.tag = .broken → capOk a = true → a.valid = 0xFFFF →
     ∃ x, exec (mk pr t1 t0) s = .next (answers s t1 t0 { bits := x, valid := m, tag := .broken, null := false } [])) ∧
   (∀ (s : State) (pr : BitVec 2) (t1 t0 : BitVec 9) (m : BitVec 16) (a b : Value), MayFire s → Runs s pr m → Given s 0 a → Given s 1 b →
     a.tag = .cap → b.tag ≠ .broken → (capOk a = true → boundedKinds (capKind a.cap) = true) → (capOk a && capOk b) = false →
     ∀ mk, mk ∈ ([.cadd, .cseta, .csetb, .csetbx, .cperm] : List (BitVec 2 → BitVec 9 → BitVec 9 → Instr)) →
     exec (mk pr t1 t0) s = .next (answers s t1 t0 { bits := 0, valid := 0xFFF0 &&& m, tag := .cap, null := false } [])) ∧
   (∀ (s : State) (pr : BitVec 2) (t1 t0 : BitVec 9) (m : BitVec 16) (a b : Value), MayFire s → Runs s pr m → Given s 0 a → Given s 1 b →
     a.tag = .cap → capOk a = false → b.tag = .cap → (capOk b = true → bitAt b.cap 112 = true) →
     exec (.cseal pr t1 t0) s = .next (answers s t1 t0 { bits := 0, valid := 0xFFF0 &&& m, tag := .cap, null := false } []) ∧
     exec (.cunseal pr t1 t0) s = .next (answers s t1 t0 { bits := 0, valid := 0xFFF0 &&& m, tag := .cap, null := false } [])) ∧
   (∀ (s : State) (pr : BitVec 2) (t1 t0 : BitVec 9) (m : BitVec 16) (a b : Value), MayFire s → Runs s pr m → Given s 0 a → Given s 1 b →
     a.tag ≠ .broken → b.tag ≠ .broken → (capOk a && capOk b) = false →
     exec (.csub pr t1 t0) s = .next (answers s t1 t0 { bits := 0, valid := 0xFFF0 &&& m, tag := .data, null := false } []) ∧
     exec (.ceq pr t1 t0) s = .next (answers s t1 t0 { bits := 0, valid := 0xFFF0 &&& m, tag := .data, null := false } [])) ∧
   (∀ (s : State) (pr : BitVec 2) (t1 t0 : BitVec 9) (m : BitVec 16) (a : Value), MayFire s → Runs s pr m → Given s 0 a →
     (a.tag = .broken → ∀ imm : BitVec 14, ∃ x, exec (.caddi pr imm t0) s = .next (answers s noTarget t0
       { bits := x, valid := (if capOk a then 0xFFFF#16 else 0xFFF0#16) &&& m, tag := .broken, null := false } [])) ∧
     (a.tag = .cap → capOk a = false →
       (∀ imm : BitVec 14, exec (.caddi pr imm t0) s = .next (answers s noTarget t0 { bits := 0, valid := 0xFFF0 &&& m, tag := .cap, null := false } [])) ∧
       ∀ mk, mk ∈ ([.cgeta, .cgetb, .cgetl, .cgetp, .cgetk] : List (BitVec 2 → BitVec 9 → BitVec 9 → Instr)) →
         exec (mk pr t1 t0) s = .next (answers s t1 t0 { bits := 0, valid := 0xFFF0 &&& m, tag := .data, null := false } [])) ∧
     (a.tag ≠ .broken → capOk a = false →
       exec (.ctagt pr t1 t0) s = .next (answers s t1 t0 { bits := 0, valid := 0xFFF0 &&& m, tag := .data, null := false } []))) ∧
   (∀ (s : State) (pr : BitVec 2) (t1 t0 : BitVec 9) (m : BitVec 16) (a : Value), MayFire s → Runs s pr m → Given s 0 a →
     a.tag ≠ .broken → capOk a = false →
     exec (.cclr pr t1 t0) s = .next (answers s t1 t0 { bits := a.bits, valid := a.valid &&& 0xFFF0 &&& m, tag := .data, null := false } [])))

/-- R142, R145: a DATA value where a capability is required faults TAG, and so does a kind that the operation does not take; sealing
without the exec or seal permission faults PERM, an unaligned address ALIGN and one outside the bounds BOUNDS. The kind is asked for
whatever lanes of R are null, and before R's permission (R119); that a DATA operand faults whatever of its own lanes are null is a reading
(log 26). -/
def Obligations.CapabilityFaults : Prop :=
  (∀ (s : State) (pr : BitVec 2) (t1 t0 : BitVec 9) (m : BitVec 16) (a : Value), MayFire s → Runs s pr m → Given s 0 a →
    (a.tag = .data →
      (∀ mk, mk ∈ ([.cgeta, .cgetb, .cgetl, .cgetp, .cgetk] : List (BitVec 2 → BitVec 9 → BitVec 9 → Instr)) →
        exec (mk pr t1 t0) s = .next (traps s (trapCap 0x07 a.cap))) ∧
      ∀ imm : BitVec 14, exec (.caddi pr imm t0) s = .next (traps s (trapCap 0x07 a.cap))) ∧
    (CapIn s (fun k => !boundedKinds k) a → ∀ imm : BitVec 14, exec (.caddi pr imm t0) s = .next (traps s (trapCap 0x07 a.cap)))) ∧
  ∀ (s : State) (pr : BitVec 2) (t1 t0 : BitVec 9) (m : BitVec 16) (a b : Value), MayFire s → Runs s pr m → Given s 0 a → Given s 1 b →
    b.tag ≠ .broken →
    (a.tag = .data →
      ∀ mk, mk ∈ ([.cadd, .cseta, .csetb, .csetbx, .cperm, .cseal, .cunseal] : List (BitVec 2 → BitVec 9 → BitVec 9 → Instr)) → exec (mk pr t1 t0) s = .next (traps s (trapCap 0x07 a.cap))) ∧
    (CapIn s (· != 11) a → exec (.cseal pr t1 t0) s = .next (traps s (trapCap 0x07 a.cap))) ∧
    (CapIn s (· != 12) a → exec (.cunseal pr t1 t0) s = .next (traps s (trapCap 0x07 a.cap))) ∧
    (CapIn s (fun k => !boundedKinds k) a →
      ∀ mk, mk ∈ ([.cadd, .csetb, .csetbx] : List (BitVec 2 → BitVec 9 → BitVec 9 → Instr)) →
      exec (mk pr t1 t0) s = .next (traps s (trapCap 0x07 a.cap))) ∧
    (CapIn s (· == 11) a → b.tag = .cap → capOk b = true →
      (bitAt a.cap 119 = false → exec (.cseal pr t1 t0) s = .next (traps s (trapCap 0x09 a.cap))) ∧
      (bitAt a.cap 119 = true → bitAt b.cap 112 = false → exec (.cseal pr t1 t0) s = .next (traps s (trapCap 0x09 b.cap))) ∧
      (bitAt a.cap 119 = true → bitAt b.cap 112 = true → a.scalar.toNat % 32 ≠ 0 →
        exec (.cseal pr t1 t0) s = .next (traps s { code := 0x0B, lo := a.scalar, hi := 32 })) ∧
      (bitAt a.cap 119 = true → bitAt b.cap 112 = true → a.scalar.toNat % 32 = 0 → a.scalar.toNat < baseOf a.cap →
        exec (.cseal pr t1 t0) s = .next (traps s (trapCap 0x08 a.cap))))

namespace Sys2Proof.Claims
open Sys2Proof.Machine

/-! ## Local loads and stores (R146 to R153) -/

/-- The stores of R23 by the kind of their capability, and the bytes of each. -/
def storeKind : Sto → BitVec 4 | .w => 2 | .a => 3 | .c => 4 | .s => 5
def storeSize : Sto → Nat | .w => 192 * 1024 | .a => 128 * 1024 | .c => 128 * 1024 | .s => 64 * 1024
/-- The offset that a local address names within its store (R23). -/
def offsetOf (a : Word) : Nat := a.toNat % 2 ^ 52
/-- An access of `n` bytes at `a` that R147 lets through: of store `k`, with permission `perm`, on the core that fires, aligned to
`align`, within the bounds, the store and the part of S that programs may use (R26). -/
structure Local (s : State) (v : Value) (k : Sto) (perm align n : Nat) (a : Word) : Prop where
  given : Given s 0 v
  whole : capOk v = true
  tagged : v.tag = .cap
  kind : bitsAt v.cap 124 4 = storeKind k
  permits : bitAt v.cap perm = true
  core : a.toNat / 2 ^ 52 = logicalOf s
  aligned : a.toNat % align = 0
  low : baseOf v.cap ≤ a.toNat
  high : a.toNat + n ≤ baseOf v.cap + lengthOf v.cap
  inside : offsetOf a + n ≤ if k = .s then 0xC000 else storeSize k
/-- The same, of bytes that lie in no lot unit still to be read back (R346). -/
structure LocalNow (s : State) (v : Value) (k : Sto) (perm align n : Nat) (a : Word) : Prop extends Local s v k perm align n a where
  near : s.lotAway s.here.1 k (offsetOf a) n = false
/-- The address of a local access: the capability's, moved by the offset times the scale (R146). -/
def localAddress {n : Nat} (s : State) (v : Value) (imm : BitVec n) (scale : Nat) : Word :=
  v.scalar + signedImm s imm * BitVec.ofNat 64 scale
/-- The byte that a load behind `lsid` stores sees at an offset (R27, R60): the highest store below it that writes the byte, else the
local store. -/
def byteSeen (s : State) (k : Sto) (off : Nat) : Nat → Byte
  | 0 => mapGet ((s.core s.here.1).store k).bytes off
  | j + 1 =>
    let w := mapGet (blkOf s).lsids' j
    match (if w.sto = k then w.bytes.find? fun e => e.1 == off else none) with
    | some e => e.2
    | none => byteSeen s k off j
/-- The number that the bytes at `[off, off + n)` spell (R4). -/
def numberSeen (s : State) (k : Sto) (lsid : BitVec 5) (off n : Nat) : Nat :=
  natOfBytes ((List.range n).map fun i => byteSeen s k (off + i) lsid.toNat)
/-- The tag bit that the load sees for the granule of an offset (R34, R60). -/
def tagSeen (s : State) (k : Sto) (g : Nat) : Nat → Bool
  | 0 => (k = .a ∨ k = .s) && mapGet ((s.core s.here.1).store k).tags g
  | j + 1 =>
    let w := mapGet (blkOf s).lsids' j
    match w.tag with
    | some (h, t) => if w.sto = k ∧ h = g then t else tagSeen s k g j
    | none => if w.sto = k ∧ (w.bytes.any fun e => e.1 / 16 == g) then false else tagSeen s k g j
/-- Every store that the load waits for is done (R60). -/
structure StoresBelow (s : State) (lsid : BitVec 5) : Prop where
  word : bitsAt (wordOf s) 18 5 = lsid
  stores : ∀ j, j < lsid.toNat → bitAt (blkOf s).storeMask j = true → (mapGet (blkOf s).lsids' j).done = true
/-- The same, and no word of a local store has an error (R450). -/
structure Readable (s : State) (k : Sto) (lsid : BitVec 5) : Prop extends StoresBelow s lsid where
  good : ((s.core s.here.1).store k).poison = [] ∧ ((s.core s.here.1).store k).corr = []
/-- A value whose lanes are all zero, those of `ok` valid. -/
def blank (ok : BitVec 16) : Value := { bits := 0, valid := ok, tag := .data, null := false }
/-- A store's LSID that writes nothing is done (R61). -/
def storesNothing (s : State) (lsid : BitVec 5) : State := stores s lsid.toNat { (default : LsWrite) with done := true, since := s.cycle }
/-- The scalar loads and stores, and the bytes of each (R146, R151). -/
def scalarLoads : List ((BitVec 2 → BitVec 5 → BitVec 9 → BitVec 9 → Instr) × Nat) :=
  [(.ldI8, 1), (.ldN8, 1), (.ldI16, 2), (.ldN16, 2), (.ldI32, 4), (.ldN32, 4), (.ld64, 8)]
def scalarStores : List ((BitVec 2 → BitVec 5 → BitVec 18 → Instr) × Nat) := [(.st8, 1), (.st16, 2), (.st32, 4), (.st64, 8)]
/-- A scalar load of `n` bytes, its value `f` of the number read. -/
def LoadsScalar (mk : BitVec 2 → BitVec 5 → BitVec 9 → BitVec 9 → Instr) (n : Nat) (f : Nat → Word) : Prop :=
  ∀ (s : State) (pr : BitVec 2) (lsid : BitVec 5) (imm t0 : BitVec 9) (m : BitVec 16) (v : Value) (k : Sto), MayFire s → Runs s pr m →
    bitsAt m 0 2 = 3#2 → LocalNow s v k 123 n n (localAddress s v imm n) → Readable s k lsid →
    exec (mk pr lsid imm t0) s =
      .next (answers s noTarget t0 (numOut m (f (numberSeen s k lsid (offsetOf (localAddress s v imm n)) n))) [])
/-- A scalar store of `n` bytes: its LSID is done, its bytes wait for the commit. -/
def StoresScalar (mk : BitVec 2 → BitVec 5 → BitVec 18 → Instr) (n : Nat) : Prop :=
  ∀ (s : State) (pr : BitVec 2) (lsid : BitVec 5) (imm : BitVec 18) (m : BitVec 16) (v x : Value) (k : Sto), MayFire s → Runs s pr m →
    bitsAt m 0 2 = 3#2 → k ≠ .w → LocalNow s v k 122 n n (localAddress s v imm n) → Number s 1 x →
    exec (mk pr lsid imm) s = .next (done (stores s lsid.toNat
      { done := true, since := s.cycle, sto := k, tag := none,
        bytes := (List.range n).map fun i => (offsetOf (localAddress s v imm n) + i, bitsAt x.bits (8 * i) 8) }))
/-- The bytes of the valid lanes among the first `n`, from an offset. -/
def laneStores (v : V512) (ok : BitVec 16) (off n : Nat) : List (Nat × Byte) :=
  (List.range n).filterMap fun i => if bitAt ok (i / 4) then some (off + i, bitsAt v (8 * i) 8) else none
/-- The address of lane `l` of a gather or scatter (R149, R153). -/
def laneAddress {n : Nat} (s : State) (v idx : Value) (imm : BitVec n) (l : Nat) : Word :=
  localAddress s v imm 64 + 4 * (idx.lane l).setWidth 64

end Sys2Proof.Claims

open Sys2Proof Sys2Proof.Machine Sys2Proof.Claims

/-- R27, R60, R146, R147: the scalar loads answer the bytes at the address, sign- or zero-extended, as the stores of lower LSID in the
block left them; one whose address has a null lane, or with lane 0 or 1 masked, reads nothing (R150).
That a mask nulls lanes 2 to 15 too is a reading (log 24), and that what a load that reads nothing answers is DATA is the model's choice (log 58). -/
def Obligations.ScalarLoads : Prop :=
  LoadsScalar .ldI8 1 (fun x => (BitVec.ofNat 8 x).signExtend 64) ∧
  LoadsScalar .ldN8 1 (fun x => BitVec.ofNat 64 x) ∧
  LoadsScalar .ldI16 2 (fun x => (BitVec.ofNat 16 x).signExtend 64) ∧
  LoadsScalar .ldN16 2 (fun x => BitVec.ofNat 64 x) ∧
  LoadsScalar .ldI32 4 (fun x => (BitVec.ofNat 32 x).signExtend 64) ∧
  LoadsScalar .ldN32 4 (fun x => BitVec.ofNat 64 x) ∧
  LoadsScalar .ld64 8 (fun x => BitVec.ofNat 64 x) ∧
  ∀ e ∈ scalarLoads, ∀ (s : State) (pr : BitVec 2) (lsid : BitVec 5) (imm t0 : BitVec 9) (m : BitVec 16) (v : Value), MayFire s → Runs s pr m →
    Given s 0 v → StoresBelow s lsid →
    (capOk v = false → exec (e.1 pr lsid imm t0) s = .next (answers s noTarget t0 (blank 0) [])) ∧
    (capOk v = true → bitsAt m 0 2 ≠ 3#2 → exec (e.1 pr lsid imm t0) s = .next (answers s noTarget t0 (blank (0xFFFC &&& m)) []))

/-- R146 to R150: LDV answers 64 bytes as lanes, LDC a granule as CAP when its tag bit is set, VGATHER one word for each lane of the index
vector; one whose address has a null lane, or whose lanes are all masked or null, reads nothing. That load-cap is needed only where the tag bit is set
is the model's choice (log 27), and that what a load that reads nothing answers is DATA too (log 58). -/
def Obligations.VectorLoads : Prop :=
  ∀ (s : State) (pr : BitVec 2) (lsid : BitVec 5) (imm t0 : BitVec 9) (m : BitVec 16) (v : Value) (k : Sto), MayFire s → Runs s pr m →
    Readable s k lsid →
    (m ≠ 0 → LocalNow s v k 123 64 64 (localAddress s v imm 64) →
      exec (.ldv pr lsid imm t0) s = .next (answers s noTarget t0
        { bits := BitVec.ofNat 512 (numberSeen s k lsid (offsetOf (localAddress s v imm 64)) 64), valid := m, tag := .data, null := false } [])) ∧
    (m &&& 15 ≠ 0 → LocalNow s v k 123 16 16 (localAddress s v imm 16) →
      (tagSeen s k (offsetOf (localAddress s v imm 16) / 16) lsid.toNat = true → bitAt v.cap 121 = true) →
      exec (.ldc pr lsid imm t0) s = .next (answers s noTarget t0
        { bits := BitVec.ofNat 512 (numberSeen s k lsid (offsetOf (localAddress s v imm 16)) 16), valid := m,
          tag := if tagSeen s k (offsetOf (localAddress s v imm 16) / 16) lsid.toNat then .cap else .data, null := false } [])) ∧
    (∀ idx, Given s 1 idx → idx.tag ≠ .broken → m &&& idx.valid ≠ 0 →
      (∀ l, l < 16 → bitAt (m &&& idx.valid) l = true → LocalNow s v k 123 4 4 (laneAddress s v idx imm l)) →
      exec (.vgather pr lsid imm t0) s = .next (answers s noTarget t0
        { bits := ofLanes fun l => if bitAt (m &&& idx.valid) l then
            BitVec.ofNat 32 (numberSeen s k lsid (offsetOf (laneAddress s v idx imm l)) 4) else 0,
          valid := m &&& idx.valid, tag := .data, null := false } [])) ∧
    (Given s 0 v →
      (capOk v = false ∨ m = 0 → exec (.ldv pr lsid imm t0) s = .next (answers s noTarget t0 (blank 0) [])) ∧
      (capOk v = false → exec (.ldc pr lsid imm t0) s = .next (answers s noTarget t0 (blank 0) [])) ∧
      (capOk v = true → m &&& 15 = 0 → exec (.ldc pr lsid imm t0) s = .next (answers s noTarget t0 (blank (0xFFF0 &&& m)) [])) ∧
      (∀ idx, Given s 1 idx → capOk v = false ∨ m &&& idx.valid = 0 →
        exec (.vgather pr lsid imm t0) s = .next (answers s noTarget t0 (blank 0) [])))

/-- R23, R151, R152: the scalar stores complete their LSID with the bytes that the commit will write; one whose address has a null lane, or whose value
has lanes 0 and 1 null, completes it and writes nothing. That one of the two lanes is enough, and that a masked lane counts, is the model's choice
(log 58). -/
def Obligations.ScalarStores : Prop :=
  StoresScalar .st8 1 ∧ StoresScalar .st16 2 ∧ StoresScalar .st32 4 ∧ StoresScalar .st64 8 ∧
  ∀ e ∈ scalarStores, ∀ (s : State) (pr : BitVec 2) (lsid : BitVec 5) (imm : BitVec 18) (m : BitVec 16) (v x : Value), MayFire s → Runs s pr m →
    Given s 0 v → Given s 1 x → capOk v = false ∨ bitsAt (x.valid &&& m) 0 2 ≠ 3#2 →
    exec (e.1 pr lsid imm) s = .next (done (storesNothing s lsid))

/-- R151 to R153: STV writes the bytes of its valid lanes; STC the granule with its tag bit, set for a CAP value (with store-cap); VSCATTER
one word for each lane, a higher lane over a lower one; one whose address has a null lane, or whose lanes are all null or masked,
completes its LSID and writes nothing. -/
def Obligations.VectorStores : Prop :=
  ∀ (s : State) (pr : BitVec 2) (lsid : BitVec 5) (imm : BitVec 18) (m : BitVec 16) (v x : Value) (k : Sto), MayFire s → Runs s pr m →
    k ≠ .w → Given s 1 x → x.tag ≠ .broken →
    (x.valid &&& m ≠ 0 → LocalNow s v k 122 64 64 (localAddress s v imm 64) →
      exec (.stv pr lsid imm) s = .next (done (stores s lsid.toNat
        { done := true, since := s.cycle, sto := k, bytes := laneStores x.bits (x.valid &&& m) (offsetOf (localAddress s v imm 64)) 64, tag := none }))) ∧
    (k ≠ .c → x.valid &&& m &&& 15 ≠ 0 → (x.tag = .cap → x.valid &&& m &&& 15 = 15 ∧ bitAt v.cap 120 = true) →
      LocalNow s v k 122 16 16 (localAddress s v imm 16) →
      exec (.stc pr lsid imm) s = .next (done (stores s lsid.toNat
        { done := true, since := s.cycle, sto := k, bytes := laneStores x.bits (x.valid &&& m) (offsetOf (localAddress s v imm 16)) 16,
          tag := some (offsetOf (localAddress s v imm 16) / 16, decide (x.tag = .cap)) }))) ∧
    (∀ y, Given s 2 y → y.tag ≠ .broken → m &&& x.valid &&& y.valid ≠ 0 →
      (∀ l, l < 16 → bitAt (m &&& x.valid &&& y.valid) l = true → LocalNow s v k 122 4 4 (laneAddress s v x imm l)) →
      exec (.vscatter pr lsid imm) s = .next (done (stores s lsid.toNat
        { done := true, since := s.cycle, sto := k, tag := none,
          bytes := ((List.range 16).reverse.filter fun l => bitAt (m &&& x.valid &&& y.valid) l).flatMap fun l =>
            (List.range 4).map fun i => (offsetOf (laneAddress s v x imm l) + i, bitsAt y.bits (32 * l + 8 * i) 8) }))) ∧
    (Given s 0 v →
      (capOk v = false ∨ x.valid &&& m = 0 → exec (.stv pr lsid imm) s = .next (done (storesNothing s lsid))) ∧
      (capOk v = false ∨ x.valid &&& m &&& 15 = 0 → exec (.stc pr lsid imm) s = .next (done (storesNothing s lsid))) ∧
      (∀ y, Given s 2 y → capOk v = false ∨ m &&& x.valid &&& y.valid = 0 → exec (.vscatter pr lsid imm) s = .next (done (storesNothing s lsid))))

/-- R119, R147, R148, R152: the faults of the scalar loads and stores, in their order, and those that LDC and STC have beside them. That LDC asks for
load-cap only where the tag bit is set is the model's choice (log 27). -/
def Obligations.LocalAccessFaults : Prop :=
  ∀ (s : State) (pr : BitVec 2) (lsid : BitVec 5) (imm9 t0 : BitVec 9) (imm18 : BitVec 18) (m : BitVec 16) (v x : Value) (k : Sto),
    MayFire s → Runs s pr m → Given s 0 v → capOk v = true → Readable s k lsid →
    (bitsAt m 0 2 = 3#2 → Number s 1 x →
     (∀ l ∈ scalarLoads, ∀ st ∈ scalarStores,
      let a := localAddress s v imm9 l.2
      let b := localAddress s v imm18 st.2
      let load := exec (l.1 pr lsid imm9 t0) s
      let store := exec (st.1 pr lsid imm18) s
      (v.tag = .broken → load = .next (traps s (trap 0x06)) ∧ store = .next (traps s (trap 0x06))) ∧
      (v.tag = .data → load = .next (traps s (trapCap 0x07 v.cap)) ∧ store = .next (traps s (trapCap 0x07 v.cap))) ∧
      (v.tag = .cap → (bitsAt v.cap 124 4).toNat ∉ [2, 3, 4, 5] →
        load = .next (traps s (trapCap 0x07 v.cap)) ∧ store = .next (traps s (trapCap 0x07 v.cap))) ∧
      (v.tag = .cap → bitsAt v.cap 124 4 = storeKind k →
        (bitAt v.cap 123 = false → load = .next (traps s (trapCap 0x09 v.cap))) ∧
        (a.toNat / 2 ^ 52 ≠ logicalOf s → load = .next (traps s (trapCap 0x09 v.cap))) ∧
        (bitAt v.cap 123 = true → a.toNat / 2 ^ 52 = logicalOf s →
          (a.toNat % l.2 ≠ 0 → load = .next (traps s { code := 0x0B, lo := a, hi := BitVec.ofNat 64 l.2 })) ∧
          (a.toNat % l.2 = 0 → (a.toNat < baseOf v.cap ∨ baseOf v.cap + lengthOf v.cap < a.toNat + l.2) →
            load = .next (traps s (trapCap 0x08 v.cap)))) ∧
        (k = .w → store = .next (traps s (trapCap 0x0A v.cap))) ∧
        (k ≠ .w →
          (bitAt v.cap 122 = false → store = .next (traps s (trapCap 0x09 v.cap))) ∧
          (b.toNat / 2 ^ 52 ≠ logicalOf s → store = .next (traps s (trapCap 0x09 v.cap))) ∧
          (bitAt v.cap 122 = true → b.toNat / 2 ^ 52 = logicalOf s →
            (b.toNat % st.2 ≠ 0 → store = .next (traps s { code := 0x0B, lo := b, hi := BitVec.ofNat 64 st.2 })) ∧
            (b.toNat % st.2 = 0 → (b.toNat < baseOf v.cap ∨ baseOf v.cap + lengthOf v.cap < b.toNat + st.2) →
              store = .next (traps s (trapCap 0x08 v.cap)))))))) ∧
    (v.tag = .cap → bitsAt v.cap 124 4 = storeKind k →
     (m &&& 15 ≠ 0 → bitAt v.cap 121 = false →
        tagSeen s k (offsetOf (localAddress s v imm9 16) / 16) lsid.toNat = true →
        exec (.ldc pr lsid imm9 t0) s = .next (traps s (trapCap 0x09 v.cap))) ∧
     (Given s 1 x →
      (x.tag = .cap → x.valid &&& m &&& 15 ≠ 0 → x.valid &&& m &&& 15 ≠ 15 → exec (.stc pr lsid imm18) s = .next (traps s (trapCap 0x07 x.cap))) ∧
      (x.tag ≠ .broken → x.valid &&& m &&& 15 = 15 → k = .w ∨ k = .c → exec (.stc pr lsid imm18) s = .next (traps s (trapCap 0x0A v.cap))) ∧
      (x.tag = .cap → x.valid &&& m &&& 15 = 15 → k = .a ∨ k = .s → bitAt v.cap 120 = false →
        exec (.stc pr lsid imm18) s = .next (traps s (trapCap 0x09 v.cap)))))

namespace Sys2Proof.Claims
open Sys2Proof.Machine

/-! ## Queued memory instructions (R104 to R107, R289 to R293) -/

/-- The bytes of a width code (R104). -/
def bytesOfCode (w : BitVec 5) : Nat := [1, 1, 2, 2, 4, 4, 8, 64, 16].getD w.toNat 0
/-- An access of `n` bytes at `a` that R289 lets through. -/
structure Queued (s : State) (v : Value) (kinds : List Nat) (perms : List Nat) (n : Nat) (a : Word) : Prop where
  given : Given s 0 v
  whole : capOk v = true
  tagged : v.tag = .cap
  kind : (bitsAt v.cap 124 4).toNat ∈ kinds
  permits : ∀ p ∈ perms, bitAt v.cap p = true
  core : 2 ≤ (bitsAt v.cap 124 4).toNat → (bitsAt v.cap 124 4).toNat ≤ 5 → (s.router (lodgingOf s) (a.toNat / 2 ^ 52)).isSome = true
  aligned : a.toNat % n = 0
  low : baseOf v.cap ≤ a.toNat
  high : a.toNat + n ≤ baseOf v.cap + lengthOf v.cap
  inside : ∀ k, bitsAt v.cap 124 4 = storeKind k → offsetOf a + n ≤ if k = .s then 0xC000 else storeSize k
/-- What a capability and an address name (R289). -/
def placeOf (v : Value) (a : Word) : MemAddr := { kind := (bitsAt v.cap 124 4).toNat, space := (bitsAt v.cap 96 16).toNat, va := a }
/-- A landing effect has fired: its register completes with a pending landing, its request waits for the commit (R58, R66). -/
def lands (s : State) (reg : BitVec 6) (e : Eff) : State :=
  done (keep (completes s reg.toNat (.landing (indexOf s) 0 false)) (.effect e))
/-- The faults of a queued access of `n` bytes at `a` through `v`, in their order (R119, R289): `kinds` may make it, and `wrong` are the
stores that do not allow it. -/
def QueuedFaults (s : State) (v : Value) (kinds wrong perms : List Nat) (n : Nat) (a : Word) (out : Out) : Prop :=
  (v.tag = .broken → out = .next (traps s (trap 0x06))) ∧
  (v.tag = .data → out = .next (traps s (trapCap 0x07 v.cap))) ∧
  (v.tag = .cap →
    ((bitsAt v.cap 124 4).toNat ∉ kinds → (bitsAt v.cap 124 4).toNat ∉ wrong → out = .next (traps s (trapCap 0x07 v.cap))) ∧
    ((bitsAt v.cap 124 4).toNat ∈ wrong → out = .next (traps s (trapCap 0x0A v.cap))) ∧
    ((bitsAt v.cap 124 4).toNat ∈ kinds → (∃ p ∈ perms, bitAt v.cap p = false) → out = .next (traps s (trapCap 0x09 v.cap))) ∧
    ((bitsAt v.cap 124 4).toNat ∈ kinds → (∀ p ∈ perms, bitAt v.cap p = true) →
      let here := 2 ≤ (bitsAt v.cap 124 4).toNat ∧ (bitsAt v.cap 124 4).toNat ≤ 5
      let stands := here → (s.router (lodgingOf s) (a.toNat / 2 ^ 52)).isSome = true
      (¬ stands → out = .next (traps s { code := 0x1C, lo := BitVec.ofNat 64 (a.toNat / 2 ^ 52), hi := 0 })) ∧
      (stands → a.toNat % n ≠ 0 → out = .next (traps s { code := 0x0B, lo := a, hi := BitVec.ofNat 64 n })) ∧
      (stands → a.toNat % n = 0 → (a.toNat < baseOf v.cap ∨ baseOf v.cap + lengthOf v.cap < a.toNat + n) →
        out = .next (traps s (trapCap 0x08 v.cap)))))
/-- The atomics of one operand beside the address, whose width bit `w` says 4 or 8 bytes (R106). -/
def atomics : List (BitVec 2 → BitVec 6 → BitVec 1 → BitVec 2 → BitVec 2 → Instr) := [.aswp, .amin, .amax, .aminn, .amaxn, .aand, .aor, .axor]
/-- An atomic of number `op` (R106, R292): its value, and for ACAS its comparand, land in a request that leaves at the commit. -/
def Atomic (mk : BitVec 2 → BitVec 6 → BitVec 1 → BitVec 2 → BitVec 2 → Instr) (op : Nat) : Prop :=
  ∀ (s : State) (pr : BitVec 2) (reg : BitVec 6) (w : BitVec 1) (scope order : BitVec 2) (v x : Value), MayFire s →
    Runs s pr 0xFFFF#16 → Queued s v [1, 10, 5] [123, 122] (if w = 0 then 4 else 8) v.scalar → Number s 1 x →
    mapGet (blkOf s).regDone reg.toNat = .no →
    exec (mk pr reg w scope order) s = .next (lands s reg
      (.mem (some reg.toNat) (placeOf v v.scalar) (.amo op w.toNat order.toNat scope.toNat x.scalar x.scalar)))

end Sys2Proof.Claims

open Sys2Proof Sys2Proof.Machine Sys2Proof.Claims

/-- R104, R289 to R291: a queued load marks its register and keeps its request for the commit; a queued store keeps the bytes of its
valid lanes, and for QST.C the tag bit; and the faults of queued loads, stores and atomics in their order, a BROKEN value's and that of a capability
only partly stored among them. Null values as in log 28; that a scalar store with one of lanes 0 and 1 null issues nothing is the model's choice
(log 70). -/
def Obligations.QueuedLoadsAndStores : Prop :=
  (∀ (s : State) (pr : BitVec 2) (v x : Value), MayFire s → Runs s pr 0xFFFF#16 → Given s 0 v → capOk v = true →
    (∀ (reg : BitVec 6) (w : BitVec 5) (off : BitVec 12), w.toNat ≤ 8 →
      QueuedFaults s v [1, 10, 2, 3, 4, 5] [] [123] (bytesOfCode w) (v.scalar + off.signExtend 64 * BitVec.ofNat 64 (bytesOfCode w))
        (exec (.qld pr reg w off) s)) ∧
    (Given s 1 x → ∀ (w : BitVec 5) (imm : BitVec 18), w.toNat ≤ 8 →
      let out := exec (.qst pr w imm) s
      let kind := (bitsAt v.cap 124 4).toNat
      (x.tag = .broken → out = .next (traps s (trap 0x06))) ∧
      (w.toNat = 8 → v.tag = .cap → kind ∈ [1, 10, 2, 3, 4, 5] → x.tag = .cap → x.valid &&& 15 ≠ 0 → x.valid &&& 15 ≠ 15 →
        out = .next (traps s (trapCap 0x07 x.cap))) ∧
      (x.tag = .data ∨ x.tag = .cap ∧ (w.toNat < 8 ∨ x.valid &&& 15 = 15) →
        (w.toNat = 8 → v.tag = .cap → kind = 10 → out = .next (traps s (trapCap 0x09 v.cap))) ∧
        (¬ (w.toNat = 8 ∧ v.tag = .cap ∧ kind = 10) →
          QueuedFaults s v (if w.toNat = 8 then [1, 3, 5] else [1, 10, 3, 4, 5]) (if w.toNat = 8 then [2, 4] else [2])
            (if w.toNat = 8 ∧ x.tag = .cap then [122, 120] else [122]) (bytesOfCode w)
            (v.scalar + signedImm s imm * BitVec.ofNat 64 (bytesOfCode w)) out))) ∧
    (Given s 1 x → scalarOk x = true → ∀ (reg : BitVec 6) (scope order : BitVec 2),
      (∀ mk ∈ atomics, ∀ w : BitVec 1,
        (x.tag = .broken → exec (mk pr reg w scope order) s = .next (traps s (trap 0x06))) ∧
        (x.tag ≠ .broken → QueuedFaults s v [1, 10, 5] [2, 3, 4] [123, 122] (if w = 0 then 4 else 8) v.scalar (exec (mk pr reg w scope order) s))) ∧
      (∀ w : BitVec 2,
        (x.tag = .broken → exec (.aad pr reg w scope order) s = .next (traps s (trap 0x06))) ∧
        (x.tag ≠ .broken →
          QueuedFaults s v [1, 10, 5] [2, 3, 4] [123, 122] (if w.toNat % 2 = 0 then 4 else 8) v.scalar (exec (.aad pr reg w scope order) s))) ∧
      (∀ (w : BitVec 1) (y : Value), Given s 2 y → scalarOk y = true →
        (x.tag = .broken ∨ y.tag = .broken → exec (.acas pr reg w scope order) s = .next (traps s (trap 0x06))) ∧
        (x.tag ≠ .broken → y.tag ≠ .broken →
          QueuedFaults s v [1, 10, 5] [2, 3, 4] [123, 122] (if w = 0 then 4 else 8) v.scalar (exec (.acas pr reg w scope order) s))))) ∧
  ∀ (s : State) (pr : BitVec 2) (w : BitVec 5) (v : Value), MayFire s → Runs s pr 0xFFFF#16 → w.toNat ≤ 8 →
    (∀ (reg : BitVec 6) (off : BitVec 12),
      let a := v.scalar + off.signExtend 64 * BitVec.ofNat 64 (bytesOfCode w)
      Queued s v [1, 10, 2, 3, 4, 5] [123] (bytesOfCode w) a → mapGet (blkOf s).regDone reg.toNat = .no →
      exec (.qld pr reg w off) s = .next (lands s reg (.mem (some reg.toNat) (placeOf v a) (.load w.toNat (bitAt v.cap 121))))) ∧
    (∀ (imm : BitVec 18) (x : Value),
      let a := v.scalar + signedImm s imm * BitVec.ofNat 64 (bytesOfCode w)
      Given s 1 x → x.tag ≠ .broken → (w.toNat < 7 → bitsAt x.valid 0 2 = 3#2) → (w.toNat = 7 → x.valid ≠ 0) →
      (w.toNat = 8 → x.valid &&& 15 ≠ 0 ∧ (x.tag = .cap → x.valid &&& 15 = 15)) →
      Queued s v (if w.toNat = 8 then [1, 3, 5] else [1, 10, 3, 4, 5]) (if w.toNat = 8 ∧ x.tag = .cap then [122, 120] else [122])
        (bytesOfCode w) a →
      exec (.qst pr w imm) s = .next (done (keep s (.effect (.mem none (placeOf v a) (.store
        ((List.range (bytesOfCode w)).map fun i => if bitAt x.valid (i / 4) then some (bitsAt x.bits (8 * i) 8) else none)
        (if w.toNat = 8 then some (decide (x.tag = .cap)) else none))))))) ∧
    (∀ (imm : BitVec 18) (x : Value),
      let a := v.scalar + signedImm s imm * BitVec.ofNat 64 (bytesOfCode w)
      Given s 1 x → x.tag = .data → w.toNat < 7 → bitsAt x.valid 0 2 ≠ 3#2 → Queued s v [1, 10, 3, 4, 5] [122] (bytesOfCode w) a →
      exec (.qst pr w imm) s = .next (done s))

/-- R106, R107, R292, R293: every atomic instruction, integer and floating, marks its register and keeps its request for the commit; a fence
keeps what it holds, and its scope. -/
def Obligations.AtomicsAndFencesFire : Prop :=
  (
   (∀ (s : State) (pr : BitVec 2) (reg : BitVec 6) (w scope order : BitVec 2) (v x : Value), MayFire s → Runs s pr 0xFFFF#16 →
     Queued s v [1, 10, 5] [123, 122] (if w.toNat % 2 = 0 then 4 else 8) v.scalar → Number s 1 x → mapGet (blkOf s).regDone reg.toNat = .no →
     exec (.aad pr reg w scope order) s = .next (lands s reg
       (.mem (some reg.toNat) (placeOf v v.scalar) (.amo 0 w.toNat order.toNat scope.toNat x.scalar x.scalar)))) ∧
   Atomic .aswp 1 ∧ Atomic .amin 3 ∧ Atomic .amax 4 ∧ Atomic .aminn 5 ∧ Atomic .amaxn 6 ∧ Atomic .aand 7 ∧ Atomic .aor 8 ∧ Atomic .axor 9 ∧
   (∀ (s : State) (pr : BitVec 2) (reg : BitVec 6) (w : BitVec 1) (scope order : BitVec 2) (v e x : Value), MayFire s →
     Runs s pr 0xFFFF#16 → Queued s v [1, 10, 5] [123, 122] (if w = 0 then 4 else 8) v.scalar → Number s 1 e → Number s 2 x →
     mapGet (blkOf s).regDone reg.toNat = .no →
     exec (.acas pr reg w scope order) s = .next (lands s reg
       (.mem (some reg.toNat) (placeOf v v.scalar) (.amo 2 w.toNat order.toNat scope.toNat x.scalar e.scalar))))) ∧
  (
   ∀ (s : State) (pr scope : BitVec 2), MayFire s → Runs s pr 0xFFFF#16 →
     exec (.fenceAcq pr scope) s = .next (done (keep s (.effect (.fence true false scope.toNat)))) ∧
     exec (.fenceRel pr scope) s = .next (done (keep s (.effect (.fence false true scope.toNat)))) ∧
     exec (.fenceFull pr scope) s = .next (done (keep s (.effect (.fence true true scope.toNat)))))

namespace Sys2Proof.Claims
open Sys2Proof.Machine

/-! ## Vector values (R180 to R183) -/

/-- Whether element `k` of width `w` is not null (R180). -/
def elemLive (w : Nat) (valid : BitVec 16) (k : Nat) : Bool :=
  if w = 64 then bitAt valid (2 * k) && bitAt valid (2 * k + 1) else bitAt valid (k * w / 32)
/-- The lanes that hold no null element: with 64-bit elements, those whose pair is valid too (R180). -/
def wholeElems (w : Nat) (valid : BitVec 16) : BitVec 16 :=
  if w = 64 then valid &&& ((valid >>> 1) &&& 0x5555 ||| (valid <<< 1) &&& 0xAAAA) else valid
/-- Element `k` of a value. -/
def el (w : Nat) (v : Value) (k : Nat) : BitVec w := bitsAt v.bits (w * k) w
/-- The lanes valid in all operands and not masked. -/
def liveLanes (m : BitVec 16) (vs : List Value) : BitVec 16 := vs.foldr (fun v x => v.valid &&& x) m
/-- An instruction on elements of width `w`: element `k` of the result is `(f k).1` where element `k` of every operand is live; the
other lanes are null; a live element raises `(f k).2` (R56, R179 to R181). -/
def Elements (i : Instr) (s : State) (t1 t0 : BitVec 9) (m : BitVec 16) (vs : List Value) (w : Nat) (f : Nat → Nat × List Nat) : Prop :=
  ∃ bits, exec i s = .next (answers s t1 t0
      { bits := bits, valid := wholeElems w (liveLanes m vs), tag := tagOf vs, null := false }
      ((List.range (512 / w)).flatMap fun k => if elemLive w (liveLanes m vs) k then (f k).2 else [])) ∧
    ∀ k, k < 512 / w → elemLive w (liveLanes m vs) k = true → (bitsAt bits (w * k) w : BitVec w) = BitVec.ofNat w (f k).1
/-- The rounding mode in effect (R165), and the draw of element `k` in mode SR (R169). -/
def modeOf (s : State) : Nat := effMode (blkOf s).words (indexOf s) (blkOf s).round
def drawOf (s : State) (k : Nat) : Nat :=
  if modeOf s = 5 then
    (seedAfter (drawsBelow (blkOf s).words (blkOf s).round (indexOf s) + k + 1) (blkOf s).seed).toNat
  else 0
/-- Numbers that elements stand for (R155 to R157). -/
def num (f : Fmt) (v : Value) (k : Nat) : FNum := f.decode (el f.w v k).toNat
/-- A floating instruction on the elements of one, two or three operands, in a format. -/
def FloatOne (mk : BitVec 2 → BitVec 9 → BitVec 9 → Instr) (f : Fmt) (op : State → Nat → Value → Nat × List Nat) : Prop :=
  ∀ (s : State) (pr : BitVec 2) (t1 t0 : BitVec 9) (m : BitVec 16) (a : Value), MayFire s → Runs s pr m → Given s 0 a →
    Elements (mk pr t1 t0) s t1 t0 m [a] f.w fun k => op s k a
def FloatTwo (mk : BitVec 2 → BitVec 9 → BitVec 9 → Instr) (f : Fmt) (op : State → Nat → Value → Value → Nat × List Nat) : Prop :=
  ∀ (s : State) (pr : BitVec 2) (t1 t0 : BitVec 9) (m : BitVec 16) (a b : Value), MayFire s → Runs s pr m → Given s 0 a → Given s 1 b →
    Elements (mk pr t1 t0) s t1 t0 m [a, b] f.w fun k => op s k a b
def FloatThree (mk : BitVec 2 → BitVec 9 → BitVec 9 → Instr) (f : Fmt) (op : State → Nat → Value → Value → Value → Nat × List Nat) : Prop :=
  ∀ (s : State) (pr : BitVec 2) (t1 t0 : BitVec 9) (m : BitVec 16) (a b c : Value), MayFire s → Runs s pr m → Given s 0 a → Given s 1 b →
    Given s 2 c → Elements (mk pr t1 t0) s t1 t0 m [a, b, c] f.w fun k => op s k a b c
/-- Both formats of a floating family: f32 and f64, or f16 and bf16 (R108). -/
def wide (w : BitVec 1) : Fmt := if w = 1 then f64 else f32
def half (w : BitVec 1) : Fmt := if w = 1 then bf16 else f16
/-- An integer instruction on elements of width `n`. -/
def IntTwo (mk : BitVec 2 → BitVec 9 → BitVec 9 → Instr) (n : Nat) (f : State → BitVec n → BitVec n → BitVec n × List Nat) : Prop :=
  ∀ (s : State) (pr : BitVec 2) (t1 t0 : BitVec 9) (m : BitVec 16) (a b : Value), MayFire s → Runs s pr m → Given s 0 a → Given s 1 b →
    Elements (mk pr t1 t0) s t1 t0 m [a, b] n fun k => ((f s (el n a k) (el n b k)).1.toNat, (f s (el n a k) (el n b k)).2)
def IntOne (mk : BitVec 2 → BitVec 9 → BitVec 9 → Instr) (n : Nat) (f : State → BitVec n → BitVec n × List Nat) : Prop :=
  ∀ (s : State) (pr : BitVec 2) (t1 t0 : BitVec 9) (m : BitVec 16) (a : Value), MayFire s → Runs s pr m → Given s 0 a →
    Elements (mk pr t1 t0) s t1 t0 m [a] n fun k => ((f s (el n a k)).1.toNat, (f s (el n a k)).2)
/-- An element as a number, natural when bit `nat` is set (R187). -/
def asInt {n : Nat} (nat : BitVec 1) (x : BitVec n) : Int := if nat = 1 then x.toNat else x.toInt
/-- The range of the elements, and an exact result brought into it under saturation, with event 4 (R187). -/
def lowest (nat : BitVec 1) (n : Nat) : Int := if nat = 1 then 0 else -2 ^ (n - 1)
def highest (nat : BitVec 1) (n : Nat) : Int := if nat = 1 then 2 ^ n - 1 else 2 ^ (n - 1) - 1
def intoRange (nat : BitVec 1) (n : Nat) (s : State) (z : Int) : BitVec n × List Nat :=
  if satOf s = true ∧ z < lowest nat n then (BitVec.ofInt n (lowest nat n), [4])
  else if satOf s = true ∧ highest nat n < z then (BitVec.ofInt n (highest nat n), [4])
  else (BitVec.ofInt n z, [])
/-- The fourteen operations of R187 for one width, and whether it is the 32-bit family or another. -/
structure IntFamily (n : Nat) (add sub mul mulh min max shl : BitVec 1 → BitVec 2 → BitVec 9 → BitVec 9 → Instr)
    (and or xor shr sra abs neg : BitVec 2 → BitVec 9 → BitVec 9 → Instr) : Prop where
  add : ∀ k, IntTwo (add k) n fun s x y => intoRange k n s (asInt k x + asInt k y)
  sub : ∀ k, IntTwo (sub k) n fun s x y => intoRange k n s (asInt k x - asInt k y)
  mul : ∀ k, IntTwo (mul k) n fun s x y => intoRange k n s (asInt k x * asInt k y)
  mulh : ∀ k, IntTwo (mulh k) n fun _ x y => (BitVec.ofInt n (asInt k x * asInt k y / 2 ^ n), [])
  min : ∀ k, IntTwo (min k) n fun _ x y => (if asInt k x ≤ asInt k y then x else y, [])
  max : ∀ k, IntTwo (max k) n fun _ x y => (if asInt k x ≤ asInt k y then y else x, [])
  shl : ∀ k, IntTwo (shl k) n fun s x y => intoRange k n s (asInt k x * 2 ^ (y.toNat % n))
  and : IntTwo and n fun _ x y => (x &&& y, [])
  or : IntTwo or n fun _ x y => (x ||| y, [])
  xor : IntTwo xor n fun _ x y => (x ^^^ y, [])
  shr : IntTwo shr n fun _ x y => (x >>> (y.toNat % n), [])
  sra : IntTwo sra n fun _ x y => (x.sshiftRight (y.toNat % n), [])
  abs : IntOne abs n fun s x => intoRange 0 n s x.toInt.natAbs
  neg : IntOne neg n fun s x => intoRange 0 n s (-x.toInt)

end Sys2Proof.Claims

open Sys2Proof Sys2Proof.Machine Sys2Proof.Claims

/-- R163, R165, R167, R185, R188: the floating arithmetic of every format answers, element by element, the operation on the numbers of
the operands, rounded once in the mode in effect. Masked elements count as null and raise no event (log 25). -/
def Obligations.FloatingArithmetic : Prop :=
  (∀ w, FloatTwo (.vadd w) (wide w) fun s k a b => (wide w).addNum (modeOf s) (drawOf s k) (num (wide w) a k) (num (wide w) b k)) ∧
  (∀ w, FloatTwo (.vsub w) (wide w) fun s k a b => (wide w).addNum (modeOf s) (drawOf s k) (num (wide w) a k) (num (wide w) b k).neg) ∧
  (∀ w, FloatTwo (.vmul w) (wide w) fun s k a b => (wide w).mulNum (modeOf s) (drawOf s k) (num (wide w) a k) (num (wide w) b k)) ∧
  (∀ w, FloatTwo (.vdiv w) (wide w) fun s k a b => (wide w).divNum (modeOf s) (drawOf s k) (num (wide w) a k) (num (wide w) b k)) ∧
  (∀ w, FloatOne (.vsqrt w) (wide w) fun s k a => (wide w).sqrtNum (modeOf s) (drawOf s k) (num (wide w) a k)) ∧
  (∀ w, FloatOne (.vrcp w) (wide w) fun s k a => (wide w).divNum (modeOf s) (drawOf s k) oneNum (num (wide w) a k)) ∧
  (∀ w, FloatOne (.vrsq w) (wide w) fun s k a => (wide w).rsqNum (modeOf s) (drawOf s k) (num (wide w) a k)) ∧
  (∀ w, FloatTwo (fun pr => .vaddF16 pr w) (half w) fun s k a b => (half w).addNum (modeOf s) (drawOf s k) (num (half w) a k) (num (half w) b k)) ∧
  (∀ w, FloatTwo (fun pr => .vsubF16 pr w) (half w) fun s k a b => (half w).addNum (modeOf s) (drawOf s k) (num (half w) a k) (num (half w) b k).neg) ∧
  (∀ w, FloatTwo (fun pr => .vmulF16 pr w) (half w) fun s k a b => (half w).mulNum (modeOf s) (drawOf s k) (num (half w) a k) (num (half w) b k)) ∧
  (∀ w, FloatTwo (fun pr => .vdivF16 pr w) (half w) fun s k a b => (half w).divNum (modeOf s) (drawOf s k) (num (half w) a k) (num (half w) b k)) ∧
  (∀ w, FloatOne (fun pr => .vsqrtF16 pr w) (half w) fun s k a => (half w).sqrtNum (modeOf s) (drawOf s k) (num (half w) a k)) ∧
  (∀ w, FloatOne (fun pr => .vrcpF16 pr w) (half w) fun s k a => (half w).divNum (modeOf s) (drawOf s k) oneNum (num (half w) a k)) ∧
  (∀ w, FloatOne (fun pr => .vrsqF16 pr w) (half w) fun s k a => (half w).rsqNum (modeOf s) (drawOf s k) (num (half w) a k)) ∧
  (∀ w, let f := if w = 0 then f32 else if w = 1 then f64 else if w = 2 then f16 else bf16
    FloatThree (fun pr => .vfma pr w) f (fun s k a b c => f.fma (modeOf s) (drawOf s k) (num f a k) (num f b k) (num f c k) false false) ∧
    FloatThree (fun pr => .vfms pr w) f (fun s k a b c => f.fma (modeOf s) (drawOf s k) (num f a k) (num f b k) (num f c k) false true) ∧
    FloatThree (fun pr => .vnfma pr w) f (fun s k a b c => f.fma (modeOf s) (drawOf s k) (num f a k) (num f b k) (num f c k) true false) ∧
    FloatThree (fun pr => .vnfms pr w) f (fun s k a b c => f.fma (modeOf s) (drawOf s k) (num f a k) (num f b k) (num f c k) true true))

/-- R162, R185, R186: minimum, maximum, sign, class and integral-value operations of the floating formats; VABS and VNEG change the sign
bit only, NaN payloads kept; VFLOOR and VCEIL take their own modes. Masked elements count as null and raise no event
(log 25). -/
def Obligations.FloatingSelections : Prop :=
  (∀ w, FloatTwo (.vmin w) (wide w) fun _ k a b => (wide w).minMax false (el (wide w).w a k).toNat (el (wide w).w b k).toNat) ∧
  (∀ w, FloatTwo (.vmax w) (wide w) fun _ k a b => (wide w).minMax true (el (wide w).w a k).toNat (el (wide w).w b k).toNat) ∧
  (∀ w, FloatTwo (fun pr => .vminF16 pr w) (half w) fun _ k a b => (half w).minMax false (el (half w).w a k).toNat (el (half w).w b k).toNat) ∧
  (∀ w, FloatTwo (fun pr => .vmaxF16 pr w) (half w) fun _ k a b => (half w).minMax true (el (half w).w a k).toNat (el (half w).w b k).toNat) ∧
  (∀ w, FloatOne (.vabs w) (wide w) fun _ k a => ((el (wide w).w a k &&& ~~~ BitVec.twoPow (wide w).w ((wide w).w - 1)).toNat, [])) ∧
  (∀ w, FloatOne (fun pr => .vabsF16 pr w) (half w) fun _ k a => ((el (half w).w a k &&& ~~~ BitVec.twoPow (half w).w ((half w).w - 1)).toNat, [])) ∧
  (∀ w, FloatOne (.vneg w) (wide w) fun _ k a => ((el (wide w).w a k ^^^ BitVec.twoPow (wide w).w ((wide w).w - 1)).toNat, [])) ∧
  (∀ w, FloatOne (fun pr => .vnegF16 pr w) (half w) fun _ k a => ((el (half w).w a k ^^^ BitVec.twoPow (half w).w ((half w).w - 1)).toNat, [])) ∧
  (∀ w, FloatOne (.vfloor w) (wide w) fun _ k a => (wide w).integral 4 0 (el (wide w).w a k).toNat) ∧
  (∀ w, FloatOne (.vceil w) (wide w) fun _ k a => (wide w).integral 3 0 (el (wide w).w a k).toNat) ∧
  (∀ w, FloatOne (.vrint w) (wide w) fun s k a => (wide w).integral (modeOf s) (drawOf s k) (el (wide w).w a k).toNat) ∧
  (∀ w, FloatOne (.vclass w) (wide w) fun _ k a => ((wide w).classOf (el (wide w).w a k).toNat, []))

/-- R185, R204 to R206: the transcendental operations of every format answer element by element.
The precision is that of log 14; masked elements count as null and raise no event (log 25). -/
def Obligations.FloatingFunctions : Prop :=
  (∀ w, FloatOne (.vexp2 w) (wide w) fun s k a => (wide w).transc 11 (modeOf s) (drawOf s k) (num (wide w) a k)) ∧
  (∀ w, FloatOne (.vlog2 w) (wide w) fun s k a => (wide w).transc 12 (modeOf s) (drawOf s k) (num (wide w) a k)) ∧
  (∀ w, FloatOne (.vtanh w) (wide w) fun s k a => (wide w).transc 13 (modeOf s) (drawOf s k) (num (wide w) a k)) ∧
  (∀ w, FloatOne (.vsin w) (wide w) fun s k a => (wide w).transc 14 (modeOf s) (drawOf s k) (num (wide w) a k)) ∧
  (∀ w, FloatOne (.vcos w) (wide w) fun s k a => (wide w).transc 15 (modeOf s) (drawOf s k) (num (wide w) a k)) ∧
  (∀ w, FloatOne (fun pr => .vexp2F16 pr w) (half w) fun s k a => (half w).transc 11 (modeOf s) (drawOf s k) (num (half w) a k)) ∧
  (∀ w, FloatOne (fun pr => .vlog2F16 pr w) (half w) fun s k a => (half w).transc 12 (modeOf s) (drawOf s k) (num (half w) a k)) ∧
  (∀ w, FloatOne (fun pr => .vtanhF16 pr w) (half w) fun s k a => (half w).transc 13 (modeOf s) (drawOf s k) (num (half w) a k)) ∧
  (∀ w, FloatOne (fun pr => .vsinF16 pr w) (half w) fun s k a => (half w).transc 14 (modeOf s) (drawOf s k) (num (half w) a k)) ∧
  (∀ w, FloatOne (fun pr => .vcosF16 pr w) (half w) fun s k a => (half w).transc 15 (modeOf s) (drawOf s k) (num (half w) a k))

/-- R187: the integer families of 32, 16 and 8 bits, signed and natural, wrapping or saturating with event 4. Masked elements count
as null and raise no event (log 25). -/
def Obligations.VectorIntegerResults : Prop :=
  IntFamily 32 (fun k pr => .vaddI32 pr k) (fun k pr => .vsubI32 pr k) (fun k pr => .vmulI32 pr k) (fun k pr => .vmulhI32 pr k)
    (fun k pr => .vminI32 pr k) (fun k pr => .vmaxI32 pr k) (fun k pr => .vshlI32 pr k) .vandI32 .vorI32 .vxorI32 .vshrI32 .vsraI32
    .vabsI32 .vnegI32 ∧
  IntFamily 16 (fun k pr => .vaddI16 0 pr k) (fun k pr => .vsubI16 0 pr k) (fun k pr => .vmulI16 0 pr k) (fun k pr => .vmulhI16 0 pr k)
    (fun k pr => .vminI16 0 pr k) (fun k pr => .vmaxI16 0 pr k) (fun k pr => .vshlI16 0 pr k) (.vandI16 0) (.vorI16 0) (.vxorI16 0)
    (.vshrI16 0) (.vsraI16 0) (.vabsI16 0) (.vnegI16 0) ∧
  IntFamily 8 (fun k pr => .vaddI16 1 pr k) (fun k pr => .vsubI16 1 pr k) (fun k pr => .vmulI16 1 pr k) (fun k pr => .vmulhI16 1 pr k)
    (fun k pr => .vminI16 1 pr k) (fun k pr => .vmaxI16 1 pr k) (fun k pr => .vshlI16 1 pr k) (.vandI16 1) (.vorI16 1) (.vxorI16 1)
    (.vshrI16 1) (.vsraI16 1) (.vabsI16 1) (.vnegI16 1)

namespace Sys2Proof.Claims
open Sys2Proof.Machine

/-! ## Compares, select, conversions, permutes, reductions (R189 to R195) -/

/-- How two elements of a compare stand (R189): none for a NaN among floating ones; and whether one of them signals. -/
def order (w : BitVec 3) (k : Nat) (a b : Value) : Option Ordering :=
  match w.toNat with
  | 0 => floats f32 | 1 => floats f64 | 2 => floats f16 | 3 => floats bf16
  | 4 => some (compare (el 32 a k).toInt (el 32 b k).toInt) | 5 => some (compare (el 32 a k).toNat (el 32 b k).toNat)
  | 6 => some (compare (el 16 a k).toInt (el 16 b k).toInt) | _ => some (compare (el 16 a k).toNat (el 16 b k).toNat)
where floats (f : Fmt) : Option Ordering := if (num f a k).isNan || (num f b k).isNan then none else some ((num f a k).cmp (num f b k))
def orderWidth (w : BitVec 3) : Nat := [32, 64, 16, 16, 32, 32, 16, 16].getD w.toNat 16
/-- A compare: bit `k` of the mask, or bits 2k and 2k + 1 with 64-bit elements, says whether the relation holds of live elements; the
other bits are 0; the result has every lane valid, and some events. -/
def VectorCompares (mk : BitVec 2 → BitVec 3 → BitVec 9 → BitVec 9 → Instr) (holds : Option Ordering → Bool) : Prop :=
  ∀ (s : State) (pr : BitVec 2) (w : BitVec 3) (t1 t0 : BitVec 9) (m : BitVec 16) (a b : Value), MayFire s → Runs s pr m → Given s 0 a →
    Given s 1 b →
    ∃ bits evs, exec (mk pr w t1 t0) s = .next (answers s t1 t0 { bits := bits, valid := 0xFFFF, tag := tagOf [a, b], null := false } evs) ∧
      ∀ i, i < 512 → bitAt bits i =
        (let k := if orderWidth w = 64 then i / 2 else i
         decide (k < 512 / orderWidth w) && elemLive (orderWidth w) (liveLanes m [a, b]) k && holds (order w k a b))
/-- A conversion of `n` elements of width `ws` into elements of width `wd` from position 0, the rest zero: lane `l` is valid where it is
not masked and no null element is written into it (R180, R191). -/
def Converts (mk : BitVec 2 → BitVec 9 → BitVec 9 → Instr) (ws wd n : Nat) (f : State → Nat → Nat → Nat × List Nat) : Prop :=
  ∀ (s : State) (pr : BitVec 2) (t1 t0 : BitVec 9) (m : BitVec 16) (a : Value), MayFire s → Runs s pr m → Given s 0 a →
    let src := if ws = wd then a.valid &&& m else a.valid
    ∃ bits valid, exec (mk pr t1 t0) s = .next (answers s t1 t0 { bits := bits, valid := valid, tag := tagOf [a], null := false }
        ((List.range n).flatMap fun k => if elemLive wd valid k then (f s k (el ws a k).toNat).2 else [])) ∧
      (∀ l, l < 16 → (bitAt valid l = true ↔ bitAt m l = true ∧
        ∀ k, k < n → (if wd = 64 then k = l / 2 else k * wd / 32 = l) → elemLive ws src k = true)) ∧
      (∀ k, k < n → elemLive ws src k = true → (bitsAt bits (wd * k) wd : BitVec wd) = BitVec.ofNat wd (f s k (el ws a k).toNat).1) ∧
      (∀ k, n ≤ k → k < 512 / wd → (bitsAt bits (wd * k) wd : BitVec wd) = 0)
/-- A conversion between floating formats, into an integer, and from one. -/
def toFloat (d f : Fmt) (o : Over) (s : State) (k x : Nat) : Nat × List Nat := d.convert f o (modeOf s) (drawOf s k) x
def toInt (f : Fmt) (nat : Bool) (w : Nat) (s : State) (k x : Nat) : Nat × List Nat := f.toInteger nat w (modeOf s) (drawOf s k) x
def fromInt (d : Fmt) (nat : Bool) (w : Nat) (s : State) (k x : Nat) : Nat × List Nat := d.fromInteger nat w (modeOf s) (drawOf s k) x
/-- A permute on elements of width 32, or 64 when `w` is set: element `e` of the result and whether it is valid (R192). -/
def permuteWidth (w : BitVec 1) : Nat := if w = 1 then 64 else 32
def Permutes (i : Instr) (s : State) (t1 t0 : BitVec 9) (m : BitVec 16) (vs : List Value) (w : BitVec 1)
    (out : Nat → BitVec (permuteWidth w) × Bool) : Prop :=
  ∃ bits valid, exec i s = .next (answers s t1 t0 { bits := bits, valid := valid, tag := tagOf vs, null := false } []) ∧
    (∀ l, l < 16 → bitAt valid l = (bitAt m l && (out (l * 32 / permuteWidth w)).2)) ∧
    (∀ e, e < 512 / permuteWidth w → (out e).2 = true → bitsAt bits (permuteWidth w * e) (permuteWidth w) = (out e).1)
/-- An element with its validity. -/
def cell (w : Nat) (v : Value) (k : Nat) : BitVec w × Bool := (el w v k, elemLive w v.valid k)
/-- The elements whose mask bit is 1, and those with any bit set, in increasing order (R192). -/
def picked (w : Nat) (m : Value) (n : Nat) : List Nat := (List.range n).filter fun e => bitAt (m.lane 0) (e * w / 32)
def nonZeros (w : Nat) (v : Value) : List Nat := (List.range (512 / w)).filter fun e => elemLive w v.valid e && el w v e != 0

end Sys2Proof.Claims

open Sys2Proof Sys2Proof.Machine Sys2Proof.Claims

/-- R189, R190: the vector compares answer a bit mask, 0 for null elements, with every lane valid; VSEL takes lane i of L where bit i of the mask in
lane 0 of X is set, of R where it is not, and is null as a whole where that lane is null. That a masked element of a compare counts as null and the
result keeps every lane valid is read by inference (log 25). -/
def Obligations.VectorComparesAndSelect : Prop :=
  VectorCompares .vcmpEq (fun r => r == some .eq) ∧
  VectorCompares .vcmpNe (fun r => r != some .eq) ∧
  VectorCompares .vcmpLt (fun r => r == some .lt) ∧
  VectorCompares .vcmpLe (fun r => r == some .lt || r == some .eq) ∧
  (∀ (s : State) (pr : BitVec 2) (t1 t0 : BitVec 9) (m : BitVec 16) (a b c : Value), MayFire s → Runs s pr m → Given s 0 a → Given s 1 b →
    Given s 2 c →
    (bitAt c.valid 0 = true → ∃ bits valid,
      exec (.vsel pr t1 t0) s = .next (answers s t1 t0 { bits := bits, valid := valid, tag := tagOf [a, b, c], null := false } []) ∧
      ∀ l, l < 16 → (bitsAt bits (32 * l) 32 : W32) = (if bitAt (c.lane 0) l then a.lane l else b.lane l) ∧
        bitAt valid l = (bitAt m l && bitAt (if bitAt (c.lane 0) l then a.valid else b.valid) l)) ∧
    (bitAt c.valid 0 = false →
      exec (.vsel pr t1 t0) s = .next (answers s t1 t0 { bits := 0, valid := 0, tag := tagOf [a, b, c], null := false } []))) ∧
  ∀ pr t1 t0, majorOf (.vsel pr t1 t0) = 0x5B

/-- R168, R171, R191: the conversions, each from its source elements to its destination positions, the rest zero. Masked elements raise
no event (log 25). -/
def Obligations.VectorConversions : Prop :=
  Converts .vcvtF32F64 64 32 8 (toFloat f32 f64 .plain) ∧ Converts .vcvtF64F32 32 64 8 (toFloat f64 f32 .plain) ∧
  Converts .vcvtF16F32 32 16 16 (toFloat f16 f32 .plain) ∧ Converts .vcvtF32F16 16 32 16 (toFloat f32 f16 .plain) ∧
  Converts .vcvtBf16F32 32 16 16 (toFloat bf16 f32 .plain) ∧ Converts .vcvtF32Bf16 16 32 16 (toFloat f32 bf16 .plain) ∧
  Converts .vcvtE4m3F32 32 8 16 (toFloat e4m3 f32 .saturate) ∧ Converts .vcvtE5m2F32 32 8 16 (toFloat e5m2 f32 .saturate) ∧
  Converts .vcvtE4m3F32Nosat 32 8 16 (toFloat e4m3 f32 .plain) ∧ Converts .vcvtE5m2F32Nosat 32 8 16 (toFloat e5m2 f32 .plain) ∧
  Converts .vcvtF32E4m3 8 32 16 (toFloat f32 e4m3 .plain) ∧ Converts .vcvtF32E5m2 8 32 16 (toFloat f32 e5m2 .plain) ∧
  Converts .vcvtI32F32 32 32 16 (toInt f32 false 32) ∧ Converts .vcvtN32F32 32 32 16 (toInt f32 true 32) ∧
  Converts .vcvtF32I32 32 32 16 (fromInt f32 false 32) ∧ Converts .vcvtF32N32 32 32 16 (fromInt f32 true 32) ∧
  Converts .vcvtI64F64 64 64 8 (toInt f64 false 64) ∧ Converts .vcvtN64F64 64 64 8 (toInt f64 true 64) ∧
  Converts .vcvtF64I64 64 64 8 (fromInt f64 false 64) ∧ Converts .vcvtF64N64 64 64 8 (fromInt f64 true 64) ∧
  Converts .vcvtI16I32 32 16 16 (fun s _ x => ((narrowed (satOf s) 16 (BitVec.ofNat 32 x).toInt).toNat, clampEvent (satOf s) 16 (BitVec.ofNat 32 x).toInt)) ∧
  Converts .vcvtI8I32 32 8 16 (fun s _ x => ((narrowed (satOf s) 8 (BitVec.ofNat 32 x).toInt).toNat, clampEvent (satOf s) 8 (BitVec.ofNat 32 x).toInt)) ∧
  Converts .vcvtI32I16 16 32 16 (fun _ _ x => (((BitVec.ofNat 16 x).signExtend 32).toNat, [])) ∧
  Converts .vcvtI32I8 8 32 16 (fun _ _ x => (((BitVec.ofNat 8 x).signExtend 32).toNat, []))

namespace Sys2Proof.Claims
open Sys2Proof.Machine

/-- The elements of L that a reduction takes, `unit` in the place of null and masked ones (R194). -/
def taken (w : Nat) (unit : BitVec w) (v : Value) (m : BitVec 16) : List (BitVec w) :=
  (List.range (512 / w)).map fun k => if elemLive w (v.valid &&& m) k then el w v k else unit
/-- A scalar result of a reduction: null where every element is (R194), and its masked lanes null (R56). -/
def reduced (w : Nat) (v : Value) (m : BitVec 16) (x : Word) : Value :=
  let some_ := (List.range (512 / w)).any fun k => elemLive w (v.valid &&& m) k
  { bits := if some_ then x.setWidth 512 else 0, valid := (if some_ then 0xFFFF else 0xFFFC) &&& m, tag := tagOf [v], null := false }
/-- An integer reduction of 32-bit and 64-bit elements (R194): a fold from its unit, a 32-bit one sign-extended. -/
def ReducesInts (mk : BitVec 2 → BitVec 2 → BitVec 9 → BitVec 9 → Instr) (unit : (n : Nat) → BitVec n) (f : (n : Nat) → BitVec n → BitVec n → BitVec n) : Prop :=
  ∀ (s : State) (pr : BitVec 2) (t1 t0 : BitVec 9) (m : BitVec 16) (a : Value), MayFire s → Runs s pr m → Given s 0 a →
    exec (mk pr 2 t1 t0) s = .next (answers s t1 t0 (reduced 32 a m (((taken 32 (unit 32) a m).foldl (f 32) (unit 32)).signExtend 64)) []) ∧
    exec (mk pr 3 t1 t0) s = .next (answers s t1 t0 (reduced 64 a m ((taken 64 (unit 64) a m).foldl (f 64) (unit 64))) [])
/-- A floating reduction (R194, R195): what `f` makes of the elements, and its events. -/
def ReducesFloats (mk : BitVec 2 → BitVec 2 → BitVec 9 → BitVec 9 → Instr) (unit : Fmt → Nat) (f : Fmt → State → List Nat → Nat × List Nat) : Prop :=
  ∀ (s : State) (pr : BitVec 2) (w : BitVec 1) (t1 t0 : BitVec 9) (m : BitVec 16) (a : Value), MayFire s → Runs s pr m → Given s 0 a →
    (∃ k, k < 512 / (wide w).w ∧ elemLive (wide w).w (a.valid &&& m) k = true) →
    let r := f (wide w) s ((taken (wide w).w (BitVec.ofNat _ (unit (wide w))) a m).map BitVec.toNat)
    exec (mk pr (w.setWidth 2) t1 t0) s = .next (answers s t1 t0 (reduced (wide w).w a m (BitVec.ofNat 64 r.1)) r.2)

end Sys2Proof.Claims

open Sys2Proof Sys2Proof.Machine Sys2Proof.Claims

/-- R192 to R195: the permutes move whole elements with their validity; VEXT answers one as a scalar. Integer reductions fold the elements
that are live; a null scalar operand makes every lane null; floating sums go up a fixed tree of pairs, floating maxima and minima from
element 0 on; where every element is null the result is null. Masked elements count as null (log 25). -/
def Obligations.VectorPermutesAndReductions : Prop :=
  (
   ∀ (s : State) (pr : BitVec 2) (w : BitVec 1) (t1 t0 : BitVec 9) (m : BitVec 16) (a b c : Value), MayFire s → Runs s pr m → Given s 0 a →
     let n := 512 / permuteWidth w
     let z : BitVec (permuteWidth w) × Bool := (0, true)
     let width := permuteWidth w
     Permutes (.vbcast pr w t1 t0) s t1 t0 m [a] w (fun _ => cell _ a 0) ∧
     Permutes (.vunzip pr w t1 t0) s t1 t0 m [a] w (fun e => if e < n / 2 then cell _ a (2 * e) else cell _ a (2 * (e - n / 2) + 1)) ∧
     Permutes (.vnz pr w t1 t0) s t1 t0 m [a] w
       (fun e => match (nonZeros width a)[e]? with | some k => (el _ a k, true) | none => z) ∧
     Permutes (.vnzi pr w t1 t0) s t1 t0 m [a] w
       (fun e => match (nonZeros width a)[e]? with | some k => (BitVec.ofNat _ k, true) | none => (BitVec.allOnes _, true)) ∧
     (scalarOk a = true → Permutes (.viota pr w t1 t0) s t1 t0 m [a] w (fun e => (BitVec.ofNat _ (a.scalar.toNat + e), true))) ∧
     (Given s 1 b →
       Permutes (.vshuf pr w t1 t0) s t1 t0 m [a, b] w
         (fun e => if elemLive width b.valid e then cell _ a ((el width b e).toNat % n) else (0, false)) ∧
       Permutes (.vzip pr w t1 t0) s t1 t0 m [a, b] w (fun e => if e % 2 = 0 then cell _ a (e / 2) else cell _ b (e / 2)) ∧
       (scalarOk b = true → Permutes (.vrot pr w t1 t0) s t1 t0 m [a, b] w (fun e => cell _ a ((e + b.scalar.toNat) % n))) ∧
       (bitAt b.valid 0 = true →
         Permutes (.vcomp pr w t1 t0) s t1 t0 m [a, b] w (fun e => match (picked width b n)[e]? with | some k => cell _ a k | none => z) ∧
         Permutes (.vexpand pr w t1 t0) s t1 t0 m [a, b] w
           (fun e => if bitAt (b.lane 0) (e * width / 32) then cell _ a (picked width b e).length else z)) ∧
       (scalarOk b = true → exec (.vext pr w t1 t0) s = .next (answers s t1 t0
         { bits := ((el width a (b.scalar.toNat % n)).signExtend 64).setWidth 512,
           valid := (if elemLive width (a.valid &&& m) (b.scalar.toNat % n) then 0xFFFF else 0xFFFC) &&& m, tag := tagOf [a, b], null := false } [])) ∧
       (scalarOk b = false → Permutes (.vrot pr w t1 t0) s t1 t0 m [a, b] w (fun _ => (0, false)) ∧
         Permutes (.vext pr w t1 t0) s t1 t0 m [a, b] w (fun _ => (0, false))) ∧
       (Given s 2 c → scalarOk c = false → Permutes (.vins pr w t1 t0) s t1 t0 m [a, b, c] w (fun _ => (0, false))) ∧
       (Given s 2 c → scalarOk c = true → Permutes (.vins pr w t1 t0) s t1 t0 m [a, b, c] w
         (fun e => if e = c.scalar.toNat % n then cell _ b 0 else cell _ a e)))) ∧
  (
   ReducesInts .vredAdd (fun _ => 0) (fun _ x y => x + y) ∧
   ReducesInts .vredMax (fun n => BitVec.intMin n) (fun _ x y => if x.toInt ≤ y.toInt then y else x) ∧
   ReducesInts .vredMin (fun n => BitVec.intMax n) (fun _ x y => if x.toInt ≤ y.toInt then x else y) ∧
   ReducesInts .vredMaxn (fun _ => 0) (fun _ x y => if x.toNat ≤ y.toNat then y else x) ∧
   ReducesInts .vredMinn (fun n => BitVec.allOnes n) (fun _ x y => if x.toNat ≤ y.toNat then x else y) ∧
   ReducesInts .vredAnd (fun n => BitVec.allOnes n) (fun _ x y => x &&& y) ∧
   ReducesInts .vredOr (fun _ => 0) (fun _ x y => x ||| y) ∧
   ReducesInts .vredXor (fun _ => 0) (fun _ x y => x ^^^ y) ∧
   ReducesFloats .vredAdd (fun f => 2 ^ (f.w - 1)) (fun f s xs => addTree f (modeOf s) (drawOf s) (if f.w = 32 then 4 else 3) xs 0) ∧
   ReducesFloats .vredMax (fun f => f.sign true f.infCode) (fun f _ xs => foldMinMax f true xs) ∧
   ReducesFloats .vredMin (fun f => f.infCode) (fun f _ xs => foldMinMax f false xs))

namespace Sys2Proof.Claims
open Sys2Proof.Machine

/-! ## Format blocks and online softmax (R158 to R161, R196 to R206) -/

/-- A format block in slot `q`: every lane valid (R196). -/
structure BlockIn (s : State) (q : Nat) (v : Value) : Prop where
  given : Given s q v
  whole : v.valid = 0xFFFF
/-- A scalar operand of a format-block instruction: lane 0 valid (R196). -/
structure LaneIn (s : State) (q : Nat) (v : Value) : Prop where
  given : Given s q v
  first : bitAt v.valid 0 = true
/-- A result with every lane valid but the masked ones. -/
def full (m : BitVec 16) (vs : List Value) (bits : V512) : Value := { bits := bits, valid := m, tag := tagOf vs, null := false }
/-- Scale and codes of a list of values in a format, drawn as the instruction that fires draws (R201, R203). -/
def requantised (s : State) (code : Nat) (t : ElTy) (vs : List FNum) : V512 × List Nat :=
  (ctxOf s .vbaq default default default 0xFFFF).requant code t vs
/-- Element by element, the exact sums of two blocks, requantised to the type of one of them (R201). -/
def summed (s : State) (code : Nat) (t : ElTy) (h g : Hdr) (a b : V512) : V512 × List Nat :=
  let vs := (List.range t.count).map fun k => sumEls (modeOf s) (plusZero t.width (h.value a k)) (plusZero t.width (g.value b k))
  ((requantised s code t (vs.map Prod.fst)).1, (vs.map Prod.snd).flatten ++ (requantised s code t (vs.map Prod.fst)).2)
/-- The largest magnitude of a block's finite elements, rounded up to f32; infinity where it holds one (R202). -/
def largestIn (h : Hdr) (t : ElTy) (b : V512) : Nat :=
  (List.range t.count).foldl (fun m k => match h.value b k with
    | .nan _ => m
    | .inf _ => f32.infCode
    | .fin _ x e => Nat.max m (f32.round 3 0 .plain { neg := false, m := x, e := e }).1) 0
/-- The lanes that are not those of row `r` (R205). -/
def otherRows (r : Nat) : BitVec 16 := ~~~ (BitVec.ofNat 16 (3 * 4 ^ r))
/-- An element as f32 (R200). -/
def dequantised (s : State) (l : Nat) (v : FNum) : Nat × List Nat :=
  match v with
  | .nan sig => (f32.nan, if sig then [0] else [])
  | .inf neg => (f32.sign neg f32.infCode, [])
  | .fin neg m e => f32.round (modeOf s) (drawOf s l) .plain { neg := neg, m := m, e := e }

end Sys2Proof.Claims

open Sys2Proof Sys2Proof.Machine Sys2Proof.Claims

/-- R159 to R161, R196 to R202: VQHDR makes the header with the smallest scale that fits; VQPK quantises one group of sixteen and leaves the
rest of the block as it was; a zero block stays, a poison block stays with an invalid event. VDQ answers one group of sixteen as f32, VBMAX
the larger of a running maximum and the block's largest magnitude.
Masked lanes and null elements as in logs 24 and 25. -/
def Obligations.BlockConversions : Prop :=
  (
   ∀ (s : State) (pr : BitVec 2) (t1 t0 : BitVec 9) (m : BitVec 16) (a b c : Value), MayFire s → Runs s pr m →
     (LaneIn s 0 a → LaneIn s 1 b →
       (∀ code t n x e, fmtOperand b = .ok (code, some t) → f32.decode (a.bits.toNat % 2 ^ 31) = .fin n x e →
         exec (.vqhdr pr t1 t0) s =
           .next (answers s t1 t0 (full m [a, b] (packBlock code t (scaleFor code t { neg := false, m := x, e := e }) [])) [])) ∧
       (∀ code t, fmtOperand b = .ok (code, some t) → 0x7F800000 ≤ a.bits.toNat % 2 ^ 31 →
         exec (.vqhdr pr t1 t0) s = .next (answers s t1 t0 (full m [a, b] 0xFF) [0]))) ∧
     (BlockIn s 0 a → Given s 1 b → LaneIn s 2 c →
       (hdrOf a.bits = .ok .zero → exec (.vqpk pr t1 t0) s = .next (answers s t1 t0 (full m [a, b, c] a.bits) [])) ∧
       (hdrOf a.bits = .ok .poison → exec (.vqpk pr t1 t0) s = .next (answers s t1 t0 (full m [a, b, c] a.bits) [0])) ∧
       (∀ code t sc, hdrOf a.bits = .ok (.real code t sc) → groupOperand c < t.groups →
         let live := fun k => k / 16 = groupOperand c ∧ k < t.count ∧ bitAt (b.valid &&& m) (k % 16) = true
         let q := fun k => t.quant (modeOf s) (drawOf s (k % 16)) ((f32.decode (b.lane (k % 16)).toNat).shift (-sc))
         ∃ bits evs, exec (.vqpk pr t1 t0) s = .next (answers s t1 t0 (full m [a, b, c] bits) evs) ∧
           (bitsAt bits 0 16 : BitVec 16) = bitsAt a.bits 0 16 ∧
           (∀ k, k < t.count → live k → rawEl bits t k = (q k).1 % 2 ^ t.width) ∧
           (∀ k, k < t.count → ¬ live k → rawEl bits t k = rawEl a.bits t k) ∧
           ∀ e, e ∈ evs ↔ ∃ k, live k ∧ e ∈ (q k).2))) ∧
  (
   ∀ (s : State) (pr : BitVec 2) (t1 t0 : BitVec 9) (m : BitVec 16) (a b : Value), MayFire s → Runs s pr m → BlockIn s 0 a → LaneIn s 1 b →
     (hdrOf a.bits = .ok .zero →
       exec (.vdq pr t1 t0) s = .next (answers s t1 t0 (full m [a, b] 0) []) ∧
       exec (.vbmax pr t1 t0) s = .next (answers s t1 t0 (full m [a, b] (BitVec.ofNat 512 (f32.minMax true (b.lane 0).toNat 0).1))
         (f32.minMax true (b.lane 0).toNat 0).2)) ∧
     (hdrOf a.bits = .ok .poison →
       exec (.vdq pr t1 t0) s = .next (answers s t1 t0 (full m [a, b] (ofLanes fun _ => 0x7FC00000)) [0]) ∧
       exec (.vbmax pr t1 t0) s = .next (answers s t1 t0 (full m [a, b] 0x7FC00000) [0])) ∧
     (∀ code t sc, hdrOf a.bits = .ok (.real code t sc) →
       (groupOperand b < t.groups →
         let live := fun l => 16 * groupOperand b + l < t.count
         let x := fun l => dequantised s l ((Hdr.real code t sc).value a.bits (16 * groupOperand b + l))
         ∃ bits, exec (.vdq pr t1 t0) s = .next (answers s t1 t0 (full m [a, b] bits)
             ((List.range 16).flatMap fun l => if live l then (x l).2 else [])) ∧
           ∀ l, l < 16 → (bitsAt bits (32 * l) 32 : W32) = if live l then BitVec.ofNat 32 (x l).1 else 0) ∧
       exec (.vbmax pr t1 t0) s = .next (answers s t1 t0
         (full m [a, b] (BitVec.ofNat 512 (f32.minMax true (b.lane 0).toNat (largestIn (.real code t sc) t a.bits)).1))
         (f32.minMax true (b.lane 0).toNat (largestIn (.real code t sc) t a.bits)).2)))

/-- R196, R201, R203: VBAQ adds two blocks exactly and requantises to the type of the left one, or of the right where the left is zero; VBFMT
requantises a block to another type; poison stays poison, and two zero blocks add to one. -/
def Obligations.BlockArithmetic : Prop :=
  ∀ (s : State) (pr : BitVec 2) (t1 t0 : BitVec 9) (m : BitVec 16) (a b : Value) (g h : Hdr), MayFire s → Runs s pr m → BlockIn s 0 a →
    hdrOf a.bits = .ok h →
    (BlockIn s 1 b → hdrOf b.bits = .ok g →
      ((h = .poison ∨ g = .poison) → exec (.vbaq pr t1 t0) s = .next (answers s t1 t0 (full m [a, b] 0xFF) [0])) ∧
      (h = .zero → g = .zero → exec (.vbaq pr t1 t0) s = .next (answers s t1 t0 (full m [a, b] 0) [])) ∧
      (∀ code t sc, h = .real code t sc → (g = .zero ∨ ∃ code' u sc', g = .real code' u sc' ∧ u.width = t.width) →
        exec (.vbaq pr t1 t0) s =
          .next (answers s t1 t0 (full m [a, b] (summed s code t h g a.bits b.bits).1) (summed s code t h g a.bits b.bits).2)) ∧
      (∀ code t sc, g = .real code t sc → h = .zero →
        exec (.vbaq pr t1 t0) s =
          .next (answers s t1 t0 (full m [a, b] (summed s code t h g a.bits b.bits).1) (summed s code t h g a.bits b.bits).2))) ∧
    (LaneIn s 1 b → ∀ code ty, fmtOperand b = .ok (code, ty) →
      (h = .poison → exec (.vbfmt pr t1 t0) s = .next (answers s t1 t0 (full m [a, b] 0xFF) [0])) ∧
      (h = .zero → exec (.vbfmt pr t1 t0) s = .next (answers s t1 t0 (full m [a, b] (if code = 0xFF then 0xFF else 0)) [])) ∧
      (∀ t c u sc, ty = some t → h = .real c u sc →
        let r := requantised s code t ((List.range (min t.count u.count)).map (h.value a.bits))
        exec (.vbfmt pr t1 t0) s = .next (answers s t1 t0 (full m [a, b] r.1) r.2)))

/-- R196, R204 to R206: OSM.STEP replaces lanes 2r and 2r + 1 of the state by the new maximum and sum and leaves the other rows as they
were; OSM.NORM answers one quotient for each live lane of its values; where lane 2r or 2r + 1 is null, STEP nulls both and NORM every lane.
Masked elements are as in log 25; that a mask nulls of STEP's result the row's two lanes alone is read by inference (log 24), and that a null row
operand nulls every lane is the model's choice (log 70). -/
def Obligations.OnlineSoftmax : Prop :=
  ∀ (s : State) (pr : BitVec 2) (t1 t0 : BitVec 9) (m : BitVec 16) (a b c : Value) (r : Nat), MayFire s → Runs s pr m → Given s 0 a →
    Given s 1 b → Given s 2 c →
    (scalarOk c = false →
      exec (.osmStep pr t1 t0) s = .next (answers s t1 t0 (full 0 [a, b, c] 0) []) ∧
      exec (.osmNorm pr t1 t0) s = .next (answers s t1 t0 (full 0 [a, b, c] 0) [])) ∧
    (scalarOk c = true → c.scalar = BitVec.ofNat 64 r → r ≤ 7 → (bitAt a.valid (2 * r) && bitAt a.valid (2 * r + 1)) = false →
      exec (.osmStep pr t1 t0) s = .next (answers s t1 t0 (full (a.valid &&& otherRows r) [a, b, c] a.bits) []) ∧
      exec (.osmNorm pr t1 t0) s = .next (answers s t1 t0 (full 0 [a, b, c] 0) [])) ∧
    (scalarOk c = true → c.scalar = BitVec.ofNat 64 r → r ≤ 7 → bitAt a.valid (2 * r) = true → bitAt a.valid (2 * r + 1) = true →
    (let xs := ((List.range 16).filter fun j => bitAt (b.valid &&& m) j).map fun j => (b.lane j).toNat
     let new := osmRow (a.lane (2 * r)).toNat (a.lane (2 * r + 1)).toNat xs
     ∃ bits, exec (.osmStep pr t1 t0) s = .next (answers s t1 t0 (full (a.valid &&& (m ||| otherRows r)) [a, b, c] bits) new.2.2) ∧
       (bitsAt bits (64 * r) 32 : W32) = BitVec.ofNat 32 new.1 ∧ (bitsAt bits (64 * r + 32) 32 : W32) = BitVec.ofNat 32 new.2.1 ∧
       ∀ l, l < 16 → l / 2 ≠ r → (bitsAt bits (32 * l) 32 : W32) = a.lane l) ∧
    (let x := fun j => osmQuot (f32.decode (b.lane j).toNat) (f32.decode (a.lane (2 * r)).toNat) (f32.decode (a.lane (2 * r + 1)).toNat)
     ∃ bits, exec (.osmNorm pr t1 t0) s = .next (answers s t1 t0 (full (b.valid &&& m) [a, b, c] bits)
         ((List.range 16).flatMap fun j => if bitAt (b.valid &&& m) j then (x j).2 else [])) ∧
       ∀ j, j < 16 → bitAt (b.valid &&& m) j = true → (bitsAt bits (32 * j) 32 : W32) = BitVec.ofNat 32 (x j).1))

/-- R160, R196, R199, R201, R204: an unlisted format code faults FORMAT, blocks of two widths FORMAT_PAIR, a group or row past the last
SHAPE; a block with a null lane gives a result with every lane null. -/
def Obligations.BlockFaults : Prop :=
  ∀ (s : State) (pr : BitVec 2) (t1 t0 : BitVec 9) (m : BitVec 16) (a b c : Value), MayFire s → Runs s pr m → Given s 0 a → Given s 1 b →
    (a.valid = 0xFFFF → LaneIn s 1 b → (a.bits.toNat % 256) ∉ [0, 0x10, 0x20, 0x21, 0x22, 0x30, 0x31, 0xFF] →
      exec (.vdq pr t1 t0) s = .next (traps s (trap 0x16)) ∧ exec (.vbmax pr t1 t0) s = .next (traps s (trap 0x16)) ∧
      exec (.vbfmt pr t1 t0) s = .next (traps s (trap 0x16))) ∧
    (a.valid = 0xFFFF → b.valid = 0xFFFF → ∀ x t y x' u y', hdrOf a.bits = .ok (.real x t y) → hdrOf b.bits = .ok (.real x' u y') →
      t.width ≠ u.width → exec (.vbaq pr t1 t0) s = .next (traps s (trap 0x17))) ∧
    (a.valid = 0xFFFF → LaneIn s 1 b → ∀ x t y, hdrOf a.bits = .ok (.real x t y) → t.groups ≤ groupOperand b →
      exec (.vdq pr t1 t0) s = .next (traps s (trap 0x18))) ∧
    (Given s 2 c → scalarOk c = true → 7 < c.scalar.toNat →
      exec (.osmStep pr t1 t0) s = .next (traps s (trap 0x18)) ∧ exec (.osmNorm pr t1 t0) s = .next (traps s (trap 0x18))) ∧
    (a.valid ≠ 0xFFFF →
      exec (.vdq pr t1 t0) s = .next (answers s t1 t0 (full 0 [a, b] 0) []) ∧
      exec (.vbmax pr t1 t0) s = .next (answers s t1 t0 (full 0 [a, b] 0) []) ∧
      exec (.vbaq pr t1 t0) s = .next (answers s t1 t0 (full 0 [a, b] 0) []) ∧
      exec (.vbfmt pr t1 t0) s = .next (answers s t1 t0 (full 0 [a, b] 0) []))

namespace Sys2Proof.Claims
open Sys2Proof.Machine

/-! ## Counters, claims, waits and queues (R207, R211, R229, R243 to R288) -/

/-- The scope of the instruction, as R105 codes it: the modifier's, else dev (R62, R266). -/
def scopeOf (s : State) : Nat :=
  match (bitsAt (modOf (blkOf s).words (indexOf s)) 4 2).toNat with | 1 => 0 | 2 => 1 | 3 => 3 | _ => 2
/-- The logical core of a local address (R23). -/
def coreOf (a : Word) : Nat := a.toNat / 2 ^ 52
/-- A logical core of the lodging that fires (R43). -/
def InLodging (s : State) (core : Nat) : Prop := (s.router (lodgingOf s) core).isSome = true
/-- A capability on an object of the lodging: its kind, one of the permissions of `ps`, a core of the lodging (R43). -/
structure Object (s : State) (q kind : Nat) (ps : List Nat) (v : Value) : Prop where
  capability : Capability s q kind [] v
  permits : ∃ p ∈ ps, bitAt v.cap p = true
  core : InLodging s (coreOf v.scalar)
/-- A capability without bounds: its kind, its permissions [123:112], its address (R37). -/
def objectCap (kind : BitVec 4) (perms : BitVec 12) (a : Word) : Value :=
  { bits := (kind ++ perms ++ 0#48 ++ a).setWidth 512, valid := 0xFFFF, tag := .cap, null := false }
/-- The instruction has fired; its values travel with the answer of a home (R267). -/
def awaits (s : State) : State := s.mark s.here.1 s.here.2.1 (indexOf s) 1
/-- A second question of the instruction. -/
def asksToo (s : State) (a : Ask) : State :=
  s.updBlk s.here.1 s.here.2.1 fun b => { b with asks := mapSet b.asks (128 + indexOf s) a }
/-- A 64-byte argument has reached slot `q`: not BROKEN, a CAP one with all of lanes 0 to 3 or none (R14). -/
structure Argument (s : State) (q : Nat) (v : Value) : Prop where
  given : Given s q v
  usable : v.tag ≠ .broken
  whole : v.tag = .cap → bitsAt v.valid 0 4 = 0xF#4 ∨ bitsAt v.valid 0 4 = 0#4
/-- Its null lanes travel as zeros (R14). -/
def filled (v : Value) : Value :=
  { v with bits := ofLanes (fun i => if bitAt v.valid i then v.lane i else 0), valid := 0xFFFF }
/-- A claim number's fields (R38). -/
def deviceOf (n : Word) : Nat := n.toNat / 2 ^ 44
def homeOf (n : Word) : Nat := n.toNat / 2 ^ 32 % 2 ^ 12
/-- A claim capability that a claim instruction may use: a claim of this device is homed on a core of the lodging (R38, R43). -/
structure ClaimCap (s : State) (q perm : Nat) (v : Value) : Prop where
  capability : Capability s q 8 [perm] v
  core : deviceOf v.scalar = s.fuses.device → InLodging s (homeOf v.scalar)
/-- Entry `j` of the claim table of the core that fires may be reused: settled, with no waiter and no held invocation, be it one whose descriptor is
being read (R256, R472). -/
def reusable (s : State) (j : Nat) : Bool :=
  let k := mapGet (s.core s.here.1).claims j
  2 ≤ k.state && k.invs.isEmpty && k.waiters.isEmpty && !s.holdsInvocation s.here.1 j k
/-- Entry `i` of the claim table of the core that fires is the one reserved: the lowest FREE one, or with none FREE the reusable one
settled earliest, the lowest of those (R256). -/
def Reserved (s : State) (i : Nat) : Prop :=
  let k := fun j => mapGet (s.core s.here.1).claims j
  i < 256 ∧ (((k i).state = 0 ∧ ∀ j < i, (k j).state ≠ 0) ∨
    ((∀ j < 256, (k j).state ≠ 0) ∧ reusable s i = true ∧
      ∀ j < 256, reusable s j = true → (k i).settled < (k j).settled ∨ (k i).settled = (k j).settled ∧ i ≤ j))
/-- No entry is FREE or reusable. -/
def NoneReserved (s : State) : Prop :=
  ∀ j < 256, (mapGet (s.core s.here.1).claims j).state ≠ 0 ∧ reusable s j = false
/-- The rank that a rank operand means: 0 is BELOW, one under the lowest rank held (R241). -/
def rankMeant (s : State) (r : Nat) : Nat := if r = 0 then (slotOf s).obs.rankMin - 1 else r
/-- The generation that a reservation gives entry `i`: one more, 1 after 0xFFFFFF (R256). -/
def nextGen (s : State) (i : Nat) : Nat :=
  let g := (mapGet (s.core s.here.1).claims i).gen
  if 0xFFFFFF ≤ g then 1 else g + 1
/-- Entry `i` reserved for a claim of rank `r` (R256). -/
def reserves (s : State) (i r : Nat) (heldAt : Word) : State :=
  let k : Claim := { (default : Claim) with
    state := 1, heldAt := heldAt, rank := r, chain := r, gen := nextGen s i, lodging := lodgingOf s, launch := (slotOf s).launch }
  s.updCore s.here.1 fun c => { c with claims := mapSet c.claims i k }
/-- The number of the claim at entry `i`, once reserved (R38). -/
def claimNo (s : State) (i : Nat) : Word :=
  BitVec.ofNat 64 (s.fuses.device * 2 ^ 44 + logicalOf s * 2 ^ 32 + i * 2 ^ 24 + nextGen s i)
/-- The core that an invocation word names is one the entry can start on: of the lodging, or of the 32 of Oxkan for its service entry
used outside lodging 0, which asks for the global permission (R236, R277, R444). -/
def StartsOn (s : State) (e : Cap) (core : Nat) : Prop :=
  if lodgingOf s ≠ 0 ∧ capSpace e = 0xFFFF then bitAt e 113 = true ∧ core < 32 else InLodging s core

/-- Every router of the route from the core that fires to router `r` lists its lodging and lodging `owner`, as its own or in its guest
list, whose bit 0 is always set (R45, R331, R332). Which routers lie between a steward's router and another is the model's choice (log 56). -/
def Listed (s : State) (r owner : Nat) : Prop :=
  ∀ q ∈ route s.here.1 r, ∀ l ∈ [lodgingOf s, owner], l = 0 ∨ (s.core q).lodging = l ∨ bitAt (mapGet s.guests q) l = true
/-- Where a queue capability leads: address bits [51:48] 0xF name a host reply queue, 0xE a queue of a peer, 0xD a live collective, and
the rest a queue of the lodging, or of the lodging that granted it when the capability is global (R45, R282, R416, R417), also while that
lodging is switched out (R347). That a global capability that no lodging granted leads to a queue of the own lodging is read by inference (log 21). -/
inductive Leads (s : State) (q : Cap) : QDest → Prop where
  | reply (h : numAt q 48 4 = 0xF) : Leads s q (.reply (lodgingOf s) (numAt q 0 8))
  | peer (h : numAt q 48 4 = 0xE) : Leads s q (.peer (numAt q 28 20) (numAt q 52 12) (numAt q 0 16))
  | collective (h : numAt q 48 4 = 0xD) (live : (mapGet s.colls (numAt q 0 8)).live = true) : Leads s q (.coll (numAt q 0 8) 0)
  | queue (r : Nat) (h : numAt q 48 4 < 0xD) (own : bitAt q 113 = true → s.grants.find? (fun g => g.1 == lodgingOf s && g.2.2 == bitsAt q 0 64) = none)
      (at' : s.router (lodgingOf s) (numAt q 52 12) = some r)
      (listed : (s.lodging (lodgingOf s)).out = true ∨ Listed s r (lodgingOf s)) :
      Leads s q (.queue r (numAt q 0 52) (lodgingOf s))
  | granted (g : Nat × Nat × Word) (r : Nat) (h : numAt q 48 4 < 0xD) (any : bitAt q 113 = true)
      (grant : s.grants.find? (fun g => g.1 == lodgingOf s && g.2.2 == bitsAt q 0 64) = some g)
      (at' : s.router g.2.1 (numAt q 52 12) = some r)
      (listed : (s.lodging g.2.1).out = true ∨ Listed s r g.2.1) :
      Leads s q (.queue r (numAt q 0 52) g.2.1)
  | away (g : Nat × Nat × Word) (h : numAt q 48 4 < 0xD) (any : bitAt q 113 = true)
      (grant : s.grants.find? (fun g => g.1 == lodgingOf s && g.2.2 == bitsAt q 0 64) = some g)
      (at' : s.router g.2.1 (numAt q 52 12) = none) (image : (s.savedCore g.2.1 (numAt q 52 12)).isSome = true) :
      Leads s q (.queue (awayRouter g.2.1 (numAt q 52 12)) (numAt q 0 52) g.2.1)
/-- A message that a queue capability lets through: a CAP one needs store-cap and a queue of this device (R283). -/
structure Sendable (s : State) (q x : Value) (d : QDest) : Prop where
  queue : Capability s 0 6 [117] q
  message : Given s 1 x
  usable : x.tag ≠ .broken
  tagged : x.tag = .cap → bitAt q.cap 120 = true ∧ numAt q.cap 48 4 < 0xD
  leads : Leads s q.cap d
/-- The message as it travels to a logical core: null lanes zero, with its tag and its sender (R283). -/
def messageOf (s : State) (core : Nat) (x : Value) : Msg :=
  { data := (filled x).bits, cap := decide (x.tag = .cap), core := logicalOf s, lodging := lodgingOf s, toCore := core }

end Sys2Proof.Claims

open Sys2Proof Sys2Proof.Machine Sys2Proof.Claims

/-- R211, R272 to R276: CTR.NEW answers the counter's capability and keeps its creation for the commit; CTR.DEC, CTR.BIND, CTR.SPLIT and
RARM keep theirs; CTR.STAT asks the counter's home, whose answer brings its value.
Questions as in log 9. -/
def Obligations.CountersAndReceiptsFire : Prop :=
  ∀ (s : State) (pr : BitVec 2) (m : BitVec 16), MayFire s → Runs s pr m →
    (∀ t1 t0 v n k, Local s v .s 122 16 16 v.scalar → Number s 1 n → Number s 2 k →
      exec (.ctrNew pr t1 t0) s =
        .next (answers (keep s (.ctrNew (offsetOf v.scalar) n.scalar k.scalar (scopeOf s))) t1 t0 (objectCap 7 0x018 v.scalar) [])) ∧
    (∀ v n, Object s 0 7 [115] v → Number s 1 n →
      exec (.ctrDec pr) s = .next (done (keep s (.ctrDec v.scalar n.scalar (scopeOf s))))) ∧
    (∀ v e w, Object s 0 7 [115] v → Capability s 1 12 [118] e → Number s 2 w →
      exec (.ctrBind pr) s =
        .next (done (asksToo (asks (keep s (.ctrBind v.scalar e.cap w.scalar)) (.bindInfo v.scalar)) (.entry e.cap)))) ∧
    (∀ i j n, Number s 0 i → Number s 1 j → Number s 2 n →
      exec (.ctrSplit pr) s = .next (done (keep s (.ctrSplit i.scalar j.scalar n.scalar)))) ∧
    (∀ t1 t0 v, Object s 0 7 [116, 115] v → exec (.ctrStat pr t1 t0) s = .next (awaits (asks s (.stat v.scalar)))) ∧
    (∀ v n, Local s v .s 122 16 16 v.scalar → Number s 1 n →
      exec (.rarm pr) s = .next (done (keep s (.rarm (offsetOf v.scalar) n.scalar))))

/-- R229, R245, R279, R280: FULFIL and BREAK keep the settling of a claim for the commit; WAIT and WAIT.st mark their register and keep
the wait, asking the home of every object but a receipt for its rank. -/
def Obligations.ClaimsAndWaitsFire : Prop :=
  ∀ (s : State) (pr : BitVec 2) (m : BitVec 16), MayFire s → Runs s pr m →
    (∀ c x, ClaimCap s 0 115 c → Given s 1 x → (x.tag = .cap → bitsAt x.valid 0 4 = 0xF#4 ∨ bitsAt x.valid 0 4 = 0#4) →
      (deviceOf c.scalar ≠ s.fuses.device → x.tag ≠ .cap) →
      exec (.fulfil pr) s = .next (done (keep s (.fulfil c.scalar (filled x) (scopeOf s))))) ∧
    (∀ c n, ClaimCap s 0 115 c → Number s 1 n → exec (.brk pr) s = .next (done (keep s (.brk c.scalar n.scalar (scopeOf s))))) ∧
    (∀ (reg : BitVec 6) (v : Value), mapGet (blkOf s).regDone reg.toNat = .no →
      let marked := fun ranked => completes s reg.toNat (.landing (indexOf s) 0 ranked)
      (Local s v .s 123 16 16 v.scalar →
        exec (.wait pr reg) s = .next (done (keep (marked false) (.wait false 5 v.scalar))) ∧
        exec (.waitSt pr reg) s = .next (done (keep (marked false) (.wait true 5 v.scalar)))) ∧
      (∀ kind, (kind = 7 ∧ Object s 0 7 [116] v) ∨ (kind = 8 ∧ ClaimCap s 0 116 v) ∨ (kind = 6 ∧ Object s 0 6 [116] v) →
        exec (.wait pr reg) s = .next (done (asks (keep (marked true) (.wait false kind v.scalar)) (.rank kind v.scalar))) ∧
        exec (.waitSt pr reg) s = .next (done (asks (keep (marked true) (.wait true kind v.scalar)) (.rank kind v.scalar)))))

/-- R281 to R285: SEND asks the queue for a place, and its answer brings the predicate; SENDW marks its register and asks the queue's
rank; QNEW answers the capability of a queue in S, or of a core's inbox; QBIND and QUNBIND keep their act for the commit.
Questions as in log 9. Where a global capability without an acceptance leads (log 21) and which routers of a steward's route must list both lodgings
(log 56) are the model's choice. -/
def Obligations.QueuesFire : Prop :=
  ∀ (s : State) (pr : BitVec 2) (m : BitVec 16), MayFire s → Runs s pr m →
    (∀ t1 t0 q x d, Sendable s q x d → exec (.send pr t1 t0) s = .next (awaits (asks (keep s (.send d (messageOf s (numAt q.cap 52 12) x) false)) (.place d)))) ∧
    (∀ (reg : BitVec 6) q x d, Sendable s q x d → mapGet (blkOf s).regDone reg.toNat = .no →
      exec (.sendw pr reg) s =
        .next (done (asks (keep (completes s reg.toNat (.landing (indexOf s) 0 true)) (.sendw d (messageOf s (numAt q.cap 52 12) x))) (.rank 6 q.scalar)))) ∧
    (∀ t1 t0 v w, Number s 1 w → bitAt w.scalar 20 = false →
      Local s v .s 122 64 (64 + 64 * 2 ^ numAt w.scalar 16 4) v.scalar →
      exec (.qnew pr t1 t0) s = .next (answers (keep s (.qnew (offsetOf v.scalar) w.scalar)) t1 t0 (objectCap 6 0x130 v.scalar) [])) ∧
    (∀ t1 t0 v w, Number s 1 w → bitAt w.scalar 20 = true → Capability s 0 5 [] v → InLodging s (coreOf v.scalar) →
      exec (.qnew pr t1 t0) s = .next (answers (keep s (.qnew 0xF000 w.scalar)) t1 t0
        (objectCap 6 0x020 (BitVec.ofNat 64 (coreOf v.scalar * 2 ^ 52 + 0xF000))) [])) ∧
    (∀ q e, Capability s 0 6 [116] q → Capability s 1 12 [118] e →
      exec (.qbind pr) s = .next (done (asks (keep s (.qbind q.scalar e.cap)) (.entry e.cap)))) ∧
    (∀ q, Capability s 0 6 [116] q → exec (.qunbind pr) s = .next (done (keep s (.qunbind q.scalar))))

/-- R256, R277, R278, R287, R288: INVOKE and INVOKEC reserve an entry of the claim table and keep the start for the commit. INVOKE answers
the claim and 1, or with no entry to reserve the null claim and 0; INVOKEC's answer comes with the target claim's home. SPAWN keeps the start
of an activity on a core of its launch's rectangle; LAUNCH asks for a pending entry, and its answer brings the predicate.
The entry reserved is the lowest free one (log 35). -/
def Obligations.StartsFire : Prop :=
  (
   (∀ (s : State) (pr : BitVec 2) (m : BitVec 16) (t1 t0 : BitVec 9) (e x w : Value), MayFire s → Runs s pr m →
     Capability s 0 12 [118] e → Argument s 1 x → Number s 2 w → StartsOn s e.cap (numAt w.scalar 16 12) →
     (NoneReserved s → exec (.invoke pr t1 t0) s =
       .next (fired (keep s (.invoke e.cap (filled x) w.scalar none)) t1 t0 (objectCap 0 0 0) (plain 0) [])) ∧
     (∀ i, Reserved s i → exec (.invoke pr t1 t0) s =
       .next (fired (asks (keep (reserves s i (rankMeant s (numAt w.scalar 0 16)) 0) (.invoke e.cap (filled x) w.scalar (some i))) (.entry e.cap))
         t1 t0 (objectCap 8 0x050 (claimNo s i)) (plain 1) []))) ∧
   (∀ (s : State) (pr : BitVec 2) (m : BitVec 16) (t1 t0 : BitVec 9) (c x w : Value), MayFire s → Runs s pr m →
     Capability s 0 8 [118] c → Argument s 1 x → Number s 2 w → InLodging s (numAt w.scalar 16 12) →
     (deviceOf c.scalar = s.fuses.device → InLodging s (homeOf c.scalar)) →
     (deviceOf c.scalar ≠ s.fuses.device → x.tag ≠ .cap) →
     (NoneReserved s → exec (.invokec pr t1 t0) s =
       .next (awaits (asks (keep s (.invokec c.scalar (filled x) w.scalar none)) (.place2 c.scalar)))) ∧
     (∀ i, Reserved s i → exec (.invokec pr t1 t0) s =
       .next (awaits (asks (keep (reserves s i (rankMeant s (numAt w.scalar 0 16)) c.scalar) (.invokec c.scalar (filled x) w.scalar (some i)))
         (.place2 c.scalar)))))) ∧
  (
   ∀ (s : State) (pr : BitVec 2) (m : BitVec 16), MayFire s → Runs s pr m →
     (∀ (e x w : Value) (r : Nat), Capability s 0 12 [118] e → Argument s 1 x → Number s 2 w →
       s.router (lodgingOf s) (numAt w.scalar 0 12) = some r → r < 4096 → numAt w.scalar 0 12 ∈ (slotOf s).rect.cores →
       exec (.spawn pr) s = .next (done (asks (keep s (.spawn e.cap (filled x) w.scalar)) (.entry e.cap)))) ∧
     (∀ (t1 t0 : BitVec 9) (v : Value), Local s v .s 123 64 64 v.scalar →
       exec (.launch pr t1 t0) s = .next (awaits (asks (keep s (.launch (offsetOf v.scalar) false)) .pending))))

/-- R43, R119, R212: where the instructions of this group fault when they fire: a wrong kind TAG, a missing permission PERM, a core
outside the lodging LODGING, before a missing permission of WAIT's object, a misaligned receipt ALIGN, a BROKEN argument BROKEN_USE. -/
def Obligations.SynchronisationFaults : Prop :=
  ∀ (s : State) (pr : BitVec 2) (m : BitVec 16) (v : Value), MayFire s → Runs s pr m → Given s 0 v → capOk v = true →
    (v.tag = .cap → capKind v.cap ≠ 8 → ∀ x, Number s 1 x → exec (.brk pr) s = .next (traps s (trapCap 0x07 v.cap))) ∧
    (v.tag = .cap → capKind v.cap = 8 → bitAt v.cap 115 = false → ∀ x, Number s 1 x →
      exec (.brk pr) s = .next (traps s (trapCap 0x09 v.cap))) ∧
    (v.tag = .cap → capKind v.cap = 7 → bitAt v.cap 115 = true → s.router (lodgingOf s) (coreOf v.scalar) = none → ∀ x, Number s 1 x →
      exec (.ctrDec pr) s = .next (traps s { code := 0x1C, lo := BitVec.ofNat 64 (coreOf v.scalar), hi := 0 })) ∧
    (v.tag = .cap → capKind v.cap = 5 → bitAt v.cap 122 = true → coreOf v.scalar = logicalOf s → v.scalar.toNat % 16 ≠ 0 →
      ∀ x, Number s 1 x → exec (.rarm pr) s = .next (traps s { code := 0x0B, lo := v.scalar, hi := 16 })) ∧
    (∀ x w t1 t0, Given s 1 x → x.tag = .broken → Number s 2 w → v.tag = .cap → exec (.invoke pr t1 t0) s = .next (traps s (trap 0x06))) ∧
    (∀ reg, v.tag = .cap → capKind v.cap = 5 ∨ capKind v.cap = 6 ∨ capKind v.cap = 7 → s.router (lodgingOf s) (coreOf v.scalar) = none →
      exec (.wait pr reg) s = .next (traps s { code := 0x1C, lo := BitVec.ofNat 64 (coreOf v.scalar), hi := 0 }) ∧
      exec (.waitSt pr reg) s = .next (traps s { code := 0x1C, lo := BitVec.ofNat 64 (coreOf v.scalar), hi := 0 })) ∧
    (∀ reg, v.tag = .cap → capKind v.cap ≠ 5 ∧ capKind v.cap ≠ 6 ∧ capKind v.cap ≠ 7 ∧ capKind v.cap ≠ 8 →
      exec (.wait pr reg) s = .next (traps s (trapCap 0x07 v.cap)) ∧ exec (.waitSt pr reg) s = .next (traps s (trapCap 0x07 v.cap)))
namespace Sys2Proof.Claims
open Sys2Proof.Machine

/-! ## Engines (R212 to R228, R442) and the system group (R301 to R310, R429 to R443) -/

/-- A capability that an engine command may use: its kind, its permissions, the engine permission and a core of the lodging where it
names a local store or a C tile (R212). -/
structure EngineCap (s : State) (q : Nat) (kinds ps : List Nat) (v : Value) : Prop where
  given : Given s q v
  whole : capOk v = true
  tagged : v.tag = .cap
  kind : capKind v.cap ∈ kinds
  permits : ∀ p ∈ ps, bitAt v.cap p = true
  engine : capKind v.cap ∈ [2, 3, 4, 5, 9] → bitAt v.cap 114 = true ∧ InLodging s (coreOf v.scalar)
/-- The `n` bytes at `a` lie within a capability's bounds, within its store and outside the reserved part of S (R23, R26, R39). -/
structure RangeIn (v : Value) (a n : Nat) : Prop where
  low : baseOf v.cap ≤ a
  high : a + n ≤ baseOf v.cap + lengthOf v.cap
  inside : ∀ k, bitsAt v.cap 124 4 = storeKind k → a % 2 ^ 52 + n ≤ if k = .s then 0xC000 else storeSize k
/-- A receipt on the core that fires, aligned to 16 bytes, or to 64 for TILE (R212, R219). -/
structure Receipt (s : State) (q align : Nat) (v : Value) : Prop where
  capability : EngineCap s q [5] [122] v
  core : coreOf v.scalar = logicalOf s
  aligned : v.scalar.toNat % align = 0
  range : RangeIn v v.scalar.toNat align
/-- What a capability and its own address name. -/
def placeAt (v : Value) : MemAddr := placeOf v v.scalar
/-- The command of a CPY of `n` bytes: one row; tags travel with load-cap and store-cap (R216, R217). -/
def copyOf (s : State) (src dst : Value) (n receipt : Nat) : PorterCmd :=
  { (default : PorterCmd) with
    act := { core := s.here.1, slot := s.here.2.1, gen := (slotOf s).gen }, lodging := lodgingOf s, src := placeAt src, dst := placeAt dst,
    srcStride := n, dstStride := n, rowBytes := n, rows := 1, zero := false, tags := bitAt src.cap 121 && bitAt dst.cap 120,
    receipt := receipt }
/-- A window that FEED.a or FEED.b may fill from: of the A or the W store, in whole 64-byte units, on a core with a matrix unit (R222). -/
structure Window (s : State) (kind : Nat) (v : Value) (r : Nat) : Prop where
  capability : EngineCap s 0 [kind] [123] v
  unit : s.router (lodgingOf s) (coreOf v.scalar) = some r ∧ r < 4096
  aligned : v.scalar.toNat % 64 = 0 ∧ (baseOf v.cap + lengthOf v.cap) % 64 = 0
  order : v.scalar.toNat ≤ baseOf v.cap + lengthOf v.cap
  range : RangeIn v v.scalar.toNat (baseOf v.cap + lengthOf v.cap - v.scalar.toNat)
/-- The length of a window. -/
def windowSize (v : Value) : Nat := baseOf v.cap + lengthOf v.cap - v.scalar.toNat
/-- A C tile that MMA or MZERO may write: tile `t` of a C window with load and store, or of a C tile capability whose space field has
bit `t`, on a core with a matrix unit; its offset in C (R224, R225). -/
structure CTile (s : State) (v : Value) (t off r : Nat) : Prop where
  capability : EngineCap s 0 [4, 9] [] v
  unit : s.router (lodgingOf s) (coreOf v.scalar) = some r ∧ r < 4096
  window : capKind v.cap = 4 → bitAt v.cap 123 = true ∧ bitAt v.cap 122 = true ∧ (v.scalar.toNat + 0x2000 * t) % 0x2000 = 0 ∧
    RangeIn v (v.scalar.toNat + 0x2000 * t) 0x2000 ∧ off = (v.scalar.toNat + 0x2000 * t) % 2 ^ 52
  tile : capKind v.cap = 9 → bitAt v.cap (96 + t) = true ∧ off = 0x2000 * t
/-- The operands of MMA and MZERO: a tile, the word that describes the command, a receipt (R224). -/
structure Tile (s : State) (v w x : Value) (off r : Nat) : Prop where
  tile : CTile s v (numAt w.scalar 16 4) off r
  word : Number s 1 w
  receipt : Receipt s 2 16 x
  zeros : numAt w.scalar 20 44 = 0 ∧ numAt w.scalar 13 3 = 0
/-- The command of MMA or MZERO as it waits for its commit. -/
def matrixOf (s : State) (isMma : Bool) (w x : Value) (off r : Nat) : MxCmd :=
  { (default : MxCmd) with
    core := r, isMma := isMma, tile := numAt w.scalar 16 4, off := off, zero := bitAt w.scalar 12, steps := numAt w.scalar 0 12,
    rcore := s.here.1, receipt := offsetOf x.scalar }
/-- MSTAT's word by the unit's state: fblocks in the feeds, commands in the queue, and what the head does (R228). -/
def unitWord (c : Core) (head : Nat) : Word :=
  BitVec.ofNat 64 (head + c.bFeed.length * 2 ^ 16 + c.aFeed.length * 2 ^ 8 + c.mx.length)

/-- The entry of `s.ob` as SYS.RD shows it (R239). -/
def entryBits (custodial : Bool) (e : Ob) : BitVec 128 :=
  if e.held then e.object ++ 1#1 ++ BitVec.ofBool custodial ++ (if e.isCount then 2#2 else 1#2) ++ 0#12 ++ BitVec.ofNat 16 e.rank ++ BitVec.ofNat 32 e.mult
  else 0
/-- Words that SYS.WR may write in user mode (R303). -/
def writableWord (n : Nat) : Prop := n = 6 ∨ n = 7 ∨ 0x20 ≤ n ∧ n ≤ 0x2F
/-- The words of R303 and R429. -/
def knownWord (n : Nat) : Prop := n ≤ 9 ∨ 0x10 ≤ n ∧ n ≤ 0x30 ∨ 0x40 ≤ n ∧ n ≤ 0x42

/-- Slot `q` holds the address of the custody record of slot `k` of router `r`, a core of the lodging that the activity serves, and no
other block has reserved it (R306). -/
structure Record (s : State) (q : Nat) (v : Value) (r k : Nat) : Prop where
  number : Number s q v
  core : s.router (slotOf s).serve.toNat (coreOf v.scalar) = some r
  offset : offsetOf v.scalar = 0xE000 + 0x80 * k
  slot : k < s.slotCount r
  free : (s.slot r k).custody.reserved = 0 ∨ (s.slot r k).custody.reserved = 8 * s.here.1 + s.here.2.1 + 1
/-- The record is reserved until the block commits (R306). -/
def reservesRecord (s : State) (r k : Nat) : State :=
  s.updSlot r k fun x => { x with custody := { x.custody with reserved := 8 * s.here.1 + s.here.2.1 + 1 } }

end Sys2Proof.Claims

open Sys2Proof Sys2Proof.Machine Sys2Proof.Claims

/-- R212 to R228: CPY, TILE, FEED.a, FEED.b, MMA and MZERO keep their command and its receipt for the commit. MSTAT answers the state of the
core's own matrix unit: idle; a head that waits for leave, if it has not been cancelled; an MZERO that runs; an MMA that runs, with the
block-steps left and whether its feeds starve it. -/
def Obligations.EngineInstructionsFire : Prop :=
  (
   ∀ (s : State) (pr : BitVec 2) (m : BitVec 16), MayFire s → Runs s pr m →
     (∀ v d x, EngineCap s 0 [1, 10, 2, 3, 4, 5] [123] v → EngineCap s 1 [1, 10, 2, 3, 5] [122] d → Receipt s 2 16 x →
       d.scalar.toNat ≤ baseOf d.cap + lengthOf d.cap → v.scalar.toNat % 16 = 0 → d.scalar.toNat % 16 = 0 → windowSize d % 16 = 0 →
       RangeIn v v.scalar.toNat (windowSize d) → RangeIn d d.scalar.toNat (windowSize d) →
       exec (.cpy pr) s = .next (done (keep s (.engine (.porter (copyOf s v d (windowSize d) (offsetOf x.scalar))) (offsetOf x.scalar))))) ∧
     (∀ v d x, EngineCap s 0 [1, 10, 2, 3, 4, 5] [123] v → EngineCap s 1 [1, 10, 2, 3, 5] [122] d → Receipt s 2 64 x →
       exec (.tile pr) s = .next (done (keep s (.tile v.cap d.cap (offsetOf x.scalar))))) ∧
     (∀ v r, Window s 3 v r → exec (.feedA pr) s =
       .next (done (keep s (.effect (.feed r false (offsetOf v.scalar) (offsetOf v.scalar + windowSize v)))))) ∧
     (∀ v r, Window s 2 v r → exec (.feedB pr) s =
       .next (done (keep s (.effect (.feed r true (offsetOf v.scalar) (offsetOf v.scalar + windowSize v)))))) ∧
     (∀ v w x off r, Tile s v w x off r → numAt w.scalar 0 12 ≠ 0 → exec (.mma pr) s =
       .next (done (keep s (.engine (.matrix (matrixOf s true w x off r)) (offsetOf x.scalar))))) ∧
     (∀ v w x off r, Tile s v w x off r → numAt w.scalar 0 12 = 0 → bitAt w.scalar 12 = false → exec (.mzero pr) s =
       .next (done (keep s (.engine (.matrix (matrixOf s false w x off r)) (offsetOf x.scalar)))))) ∧
  (
   ∀ (s : State) (pr : BitVec 2) (m : BitVec 16) (t1 t0 : BitVec 9) (v : Value), MayFire s → Runs s pr m → EngineCap s 0 [4, 9] [] v →
     coreOf v.scalar = logicalOf s → (∃ r, s.router (lodgingOf s) (coreOf v.scalar) = some r ∧ r < 4096) →
     let c := s.core s.here.1
     let answered := fun n => exec (.mstat pr t1 t0) s = .next (answers s t1 t0 (plain (unitWord c n)) [])
     (c.mx = [] → answered 0) ∧
     (∀ h q, c.mx = h :: q →
       (h.isMma = true → h.leave ≠ 2 → answered (if h.code = 0 then 2 ^ 25 else 0)) ∧
       (h.isMma = false → answered (2 ^ 24)) ∧
       (h.isMma = true → h.leave = 2 →
         answered ((h.steps - h.done) * 2 ^ 28 +
           (if h.done < h.steps ∧ h.code = 0 ∧ (c.aFeed.length < 64 ∨ c.bFeed.length < 32) then 2 ^ 26 else 0) + 2 ^ 24))))

/-- R212, R213: the faults of an engine command, in their order: TAG of any operand before STORE_CLASS, before PERM, before ALIGN, before
BOUNDS; a core outside the lodging faults LODGING, with or without the permissions; SHAPE of MMA and MZERO comes last.
That SHAPE stands last is a reading (log 29). -/
def Obligations.EngineFaults : Prop :=
  ∀ (s : State) (pr : BitVec 2) (m : BitVec 16) (v d x : Value), MayFire s → Runs s pr m →
    (EngineCap s 0 [1, 10, 2, 3, 4, 5] [123] v → Given s 1 d → capOk d = true → d.tag = .cap → Receipt s 2 16 x →
      (capKind d.cap ∉ [1, 10, 2, 3, 4, 5] → exec (.cpy pr) s = .next (traps s (trapCap 0x07 d.cap))) ∧
      (capKind d.cap = 4 → exec (.cpy pr) s = .next (traps s (trapCap 0x0A d.cap))) ∧
      (capKind d.cap ∈ [1, 10, 2, 3, 5] → (capKind d.cap ∉ [1, 10] → InLodging s (coreOf d.scalar)) → bitAt d.cap 122 = false →
        exec (.cpy pr) s = .next (traps s (trapCap 0x09 d.cap))) ∧
      (capKind d.cap ∈ [2, 3, 5] → s.router (lodgingOf s) (coreOf d.scalar) = none →
        exec (.cpy pr) s = .next (traps s { code := 0x1C, lo := BitVec.ofNat 64 (coreOf d.scalar), hi := 0 })) ∧
      (EngineCap s 1 [1, 10, 2, 3, 5] [122] d → v.scalar.toNat % 16 ≠ 0 →
        exec (.cpy pr) s = .next (traps s { code := 0x0B, lo := v.scalar, hi := 16 })) ∧
      (EngineCap s 1 [1, 10, 2, 3, 5] [122] d → v.scalar.toNat % 16 = 0 → d.scalar.toNat % 16 = 0 → windowSize d % 16 = 0 →
        v.scalar.toNat < baseOf v.cap → exec (.cpy pr) s = .next (traps s (trapCap 0x08 v.cap)))) ∧
    (capKind v.cap = 2 → Given s 0 v → capOk v = true → v.tag = .cap →
      exec (.feedA pr) s = .next (traps s (trapCap 0x0A v.cap))) ∧
    (∀ w off r, Tile s v w x off r →
      (numAt w.scalar 0 12 = 0 → exec (.mma pr) s = .next (traps s (trap 0x18))) ∧
      (numAt w.scalar 0 12 ≠ 0 ∨ bitAt w.scalar 12 = true → exec (.mzero pr) s = .next (traps s (trap 0x18))))

/-- R301, R302, R305, R442: TRAP, ISYNC, SYS.WR and STAT.SUM keep their act for the commit. -/
def Obligations.SystemGroupFires : Prop :=
  ∀ (s : State) (pr : BitVec 2) (m : BitVec 16), MayFire s → Runs s pr m →
    (∀ v, Number s 0 v → exec (.trap pr) s = .next (done (keep s (.trap v.scalar)))) ∧
    exec (.isync pr) s = .next (done (keep s .isync)) ∧
    (∀ v x, Number s 0 v → Number s 1 x →
      (writableWord v.scalar.toNat → exec (.sysWr pr) s = .next (done (keep s (.sysWr v.scalar.toNat x.scalar)))) ∧
      (v.scalar.toNat = 0x40 → stewardMode s → exec (.sysWr pr) s = .next (done (keep s (.sysWr 0x40 x.scalar)))) ∧
      (knownWord v.scalar.toNat → ¬ writableWord v.scalar.toNat → (v.scalar.toNat = 0x40 → ¬ stewardMode s) →
        exec (.sysWr pr) s = .next (traps s { code := 0x09, lo := v.scalar, hi := 0 })) ∧
      (¬ knownWord v.scalar.toNat → exec (.sysWr pr) s = .next (traps s (trap 0x18)))) ∧
    (∀ v x, Given s 0 v → capOk v = true → v.tag = .cap → capKind v.cap = 1 ∨ capKind v.cap = 5 → bitAt v.cap 122 = true →
      (capKind v.cap = 5 → InLodging s (coreOf v.scalar)) → v.scalar.toNat % 64 = 0 → RangeIn v v.scalar.toNat 64 → Receipt s 1 16 x →
      exec (.statSum pr) s =
        .next (done (keep s (.engine (.statSum (placeAt v) (offsetOf x.scalar) [] (slotOf s).rect) (offsetOf x.scalar)))))

/-- R239, R303, R304, R429: SYS.RD answers every state word, `s.cycle` and `s.ev` as they stand and the others as at the block's admission; an
unknown number faults SHAPE, a steward word PERM outside steward mode. -/
def Obligations.StateWordsRead : Prop :=
  ∀ (s : State) (pr : BitVec 2) (m : BitVec 16) (t1 t0 : BitVec 9) (v : Value), MayFire s → Runs s pr m → Number s 0 v →
    let n := v.scalar.toNat
    let c := s.core s.here.1
    let answered := fun x => exec (.sysRd pr t1 t0) s = .next (answers s t1 t0 (lanesOf m (plain x)) [])
    (n = 0x00 → answered s.cycle) ∧
    (n = 0x01 → answered (BitVec.ofNat 64 (logicalOf s))) ∧
    (n = 0x02 → answered (BitVec.ofNat 64 s.here.1)) ∧
    (n = 0x03 → answered (BitVec.ofNat 64 s.here.2.1)) ∧
    (n = 0x04 → answered ((slotOf s).launch.setWidth 64)) ∧
    (n = 0x05 → answered (BitVec.ofNat 64 (lodgingOf s))) ∧
    (n = 0x06 → answered (blkOf s).round) ∧
    (n = 0x07 → answered ((blkOf s).seed.setWidth 64)) ∧
    (n = 0x08 → answered (BitVec.ofNat 64 (blkOf s).obs.rankMin)) ∧
    (n = 0x09 → answered (BitVec.ofNat 64 (blkOf s).obs.heldMask)) ∧
    (∀ i, i < 16 → n = 0x20 + i → answered ((mapGet c.ev i).setWidth 64)) ∧
    (∀ i, i < 16 → n = 0x10 + i → exec (.sysRd pr t1 t0) s = .next (answers s t1 t0 (lanesOf m
      { bits := (entryBits (blkOf s).obs.custodial (mapGet (blkOf s).obs.ents i)).setWidth 512, valid := 0xFFFF, tag := .data, null := false }) [])) ∧
    (n = 0x30 → exec (.sysRd pr t1 t0) s = .next (answers s t1 t0 (lanesOf m
      { bits := (blkOf s).service.setWidth 512, valid := 0xFFFF, tag := .cap, null := false }) [])) ∧
    (stewardMode s →
      (n = 0x40 → answered ((slotOf s).serve.setWidth 64)) ∧
      (n = 0x41 → answered ((slotOf s).image.setWidth 64)) ∧
      (n = 0x42 → answered (blkOf s).switch)) ∧
    (0x40 ≤ n → n ≤ 0x42 → ¬ stewardMode s → exec (.sysRd pr t1 t0) s = .next (traps s { code := 0x09, lo := v.scalar, hi := 0 })) ∧
    (¬ knownWord n → exec (.sysRd pr t1 t0) s = .next (traps s (trap 0x18)))

/-- R306 to R310: on a steward core the CUS instructions reserve the records they name and keep their act for the commit; CUS.TAKE answers
the record's state word and one entry of the held set.
The record stays reserved (log 30). -/
def Obligations.CustodyInstructionsFire : Prop :=
  ∀ (s : State) (pr : BitVec 2) (m : BitVec 16) (v : Value) (r k : Nat), MayFire s → Runs s pr m → stewardMode s → Record s 0 v r k →
    (∀ t1 t0 j, Number s 1 j → j.scalar.toNat < 16 →
      let y := s.slot r k
      exec (.cusTake pr t1 t0) s = .next (answers (keep (reservesRecord s r k) (.cusTake r k)) t1 t0 (lanesOf m
        { bits := (BitVec.ofNat 64 (y.custody.state * 2 ^ 62 + y.custody.held.toNat) ++
            entryBits y.obs.custodial (mapGet y.obs.ents j.scalar.toNat)).setWidth 512, valid := 0xFFFF, tag := .data, null := false }) [])) ∧
    (∀ a, Number s 1 a → exec (.cusResume pr) s = .next (done (keep (reservesRecord s r k) (.cusResume r k a.scalar)))) ∧
    (∀ g e, Number s 1 g → 1 ≤ g.scalar.toNat → g.scalar.toNat < 2 ^ 16 → Capability s 2 12 [118] e →
      exec (.cusGive pr) s = .next (done (asks (keep (reservesRecord s r k) (.cusGive r k g.scalar e r k)) (.entry e.cap)))) ∧
    (∀ g d q j, Number s 1 g → 1 ≤ g.scalar.toNat → g.scalar.toNat < 2 ^ 16 → Record s 2 d q j → d.tag = .data →
      exec (.cusGive pr) s = .next (done (keep (reservesRecord (reservesRecord s r k) q j) (.cusGive r k g.scalar d q j)))) ∧
    (∀ b f, Number s 1 b → Number s 2 f → numAt b.scalar 0 8 ≠ 0 → f.scalar.toNat ≤ 1 →
      exec (.cusBreak pr) s = .next (done (keep (reservesRecord s r k) (.cusBreak r k b.scalar f.scalar))))

/-- R116, R431 to R443: on a steward core the instructions of the device keep their act for the commit, or the SHAPE fault of the commit where
a field is out of its range; outside steward mode every one of them faults PERM, its operands given and none BROKEN.
What is checked at the commit follows log 29. -/
def Obligations.StewardInstructions : Prop :=
  (
   ∀ (s : State) (pr : BitVec 2) (m : BitVec 16), MayFire s → Runs s pr m → stewardMode s →
     (∀ l a e, Number s 0 l → Number s 1 a → Number s 2 e →
       exec (.stnMap pr) s = .next (done (keep s (if numAt l.scalar 18 46 = 0 ∧ numAt l.scalar 16 2 ≠ 3 ∧ numAt l.scalar 0 16 ≠ 0 ∧
           (e.scalar.toNat < 2 ^ 63 ∨ s.mapEntryOk (numAt l.scalar 16 2) e.scalar.toNat = true)
         then .effect (.stnMap (numAt l.scalar 0 16) (numAt l.scalar 16 2) a.scalar e.scalar) else .shape))) ∧
       exec (.stnInv pr) s = .next (done (keep s (if numAt l.scalar 16 48 = 0 ∧ numAt l.scalar 0 16 ≠ 0 ∧ 1 ≤ e.scalar.toNat ∧ e.scalar.toNat ≤ 2 ^ 48
         then .effect (.stnInv (numAt l.scalar 0 16) a.scalar.toNat e.scalar.toNat) else .shape)))) ∧
     (∀ l f, Number s 0 l → Number s 1 f →
       exec (.stnReplay pr) s = .next (done (keep s (if numAt l.scalar 17 47 = 0 ∧ numAt l.scalar 0 16 ≠ 0 ∧ numAt f.scalar 0 8 < 64
         then .effect (.stnReplay (numAt f.scalar 0 8) (numAt l.scalar 0 16) (numAt f.scalar 19 29) (bitAt l.scalar 16)) else .shape))) ∧
       exec (.lodgeEnd pr) s = .next (done (keep s (if 1 ≤ l.scalar.toNat ∧ l.scalar.toNat ≤ 255 ∧ numAt f.scalar 0 8 ≠ 0
         then .effect (.lodgeEnd l.scalar.toNat (bitsAt f.scalar 0 8)) else .shape)))) ∧
     (∀ a x, Local s a .s 123 128 128 a.scalar → Receipt s 1 16 x →
       exec (.lodgeNew pr) s = .next (done (keep s (.lodgeNew (offsetOf a.scalar) (offsetOf x.scalar))))) ∧
     (∀ l t x, Number s 0 l → Number s 1 t → Receipt s 2 16 x → (s.router (slotOf s).serve.toNat l.scalar.toNat).isSome = true →
       exec (.migrate pr) s = .next (done (keep s
         (.engine (.migrate (slotOf s).serve.toNat l.scalar.toNat t.scalar.toNat (offsetOf x.scalar)) (offsetOf x.scalar))))) ∧
     (∀ l d x, Number s 0 l → Receipt s 2 16 x →
       (Capability s 1 1 [122] d → exec (.shadowSave pr) s = .next (done (keep s
         (.engine (.shadowSave l.scalar.toNat (placeAt d) (windowSize d) (offsetOf x.scalar)) (offsetOf x.scalar))))) ∧
       (Capability s 1 1 [123] d → exec (.shadowLoad pr) s = .next (done (keep s
         (.engine (.shadowLoad (numAt l.scalar 0 16, numAt l.scalar 16 16, numAt l.scalar 32 16, numAt l.scalar 48 16) (placeAt d)
           (offsetOf x.scalar)) (offsetOf x.scalar)))))) ∧
     (∀ u n x, Number s 0 u → Number s 1 n → Receipt s 2 16 x →
       exec (.testRun pr) s = .next (done (keep s
         (if numAt u.scalar 17 47 = 0 ∧ numAt u.scalar 13 4 < 8 ∧ numAt u.scalar 0 13 < 4144 ∧ n.scalar.toNat < 256
          then .engine (.testRun (numAt u.scalar 0 13) (numAt u.scalar 13 4) n.scalar.toNat (offsetOf x.scalar)) (offsetOf x.scalar)
          else .shape)))) ∧
     (∀ a c r, Number s 0 a → Number s 1 c → s.router (slotOf s).serve.toNat (coreOf a.scalar) = some r →
       exec (.engineCancel pr) s = .next (done (keep s (if offsetOf a.scalar % 16 = 0 ∧ numAt c.scalar 0 8 ≠ 0
         then .effect (.cancel r (offsetOf a.scalar) (bitsAt c.scalar 0 8)) else .shape))))) ∧
  (
   ∀ (s : State) (pr : BitVec 2) (m : BitVec 16), MayFire s → Runs s pr m → ¬ stewardMode s →
     (∀ q, q < 3 → ∃ v, Given s q v ∧ capOk v = true ∧ v.tag ≠ .broken) →
     ∀ i ∈ [Instr.cusTake pr 0x1FF 0x1FF, .cusResume pr, .cusGive pr, .cusBreak pr, .stnMap pr, .stnInv pr, .stnReplay pr, .lodgeNew pr,
         .lodgeEnd pr, .migrate pr, .shadowSave pr, .shadowLoad pr, .testRun pr, .engineCancel pr],
       exec i s = .next (traps s (trap 0x09)))
namespace Sys2Proof.Claims
open Sys2Proof.Machine

/-! ## The part's own steps (R35, R66 to R73, R214 to R263, R318 to R472) -/

/-- Request `id` is under way, as `q`, at stage `st`. -/
structure Standing (s : State) (id : Nat) (q : Req) (st : Stage) : Prop where
  there : s.req id = some q
  stage : q.stage = st
/-- Request `id` stands at its home at byte `off` of router `r`'s S store, and may be taken there. -/
structure Comes (s : State) (id : Nat) (q : Req) (r off : Nat) : Prop where
  there : s.req id = some q
  stage : ∃ sto, q.stage = .ready (.loc r sto off)
  free : s.barred q = false
/-- A well-formed queue of a core that no handler serves and nothing waits for; the inbox has its 64 places. -/
structure Plain (s : State) (r off : Nat) : Prop where
  good : qBad (s.sByte r off 8) = false
  unbound : qBound (s.sByte r off 8) = false
  idle : mapGet (s.core r).waiters off = []
  inbox : off = 0xF000 → qLog (s.sByte r off 8) = 6
/-- A message has entered a queue: the header counts it, and the entry behind the last one holds its 64 bytes and its tag (R283). -/
structure Entered (s t : State) (r off : Nat) (m : Msg) : Prop where
  header : t.sByte r off 8 = qWord (qRank (s.sByte r off 8)) (qLog (s.sByte r off 8)) false (qHead (s.sByte r off 8)) (qCount (s.sByte r off 8) + 1)
  entry : (t.core r).qEntry off ((qHead (s.sByte r off 8) + qCount (s.sByte r off 8)) % 2 ^ qLog (s.sByte r off 8)) = (m.data, m.cap)
/-- A start as its core's ring takes it (R324). -/
def onRing (c : Core) (st : Start) : Start := { st with seq := c.nextSeq, place := c.freePlace, unit := c.freeUnits st.units }
/-- The block of a slot has no act for its commit, no store, no pop, no event; its one exit is a jump; every register that it writes has
been given a value, or a null token: what the commit has to do is to write registers and to jump. -/
structure PlainBlock (s : State) (r k : Nat) (a : Word) : Prop where
  runs : s.runs r k = true
  complete : s.complete r k = true
  notWaiting : (s.slot r k).blk.waiting = false
  single : (s.slot r k).redundant = false ∧ (s.slot r k).twin = none
  acts : (s.slot r k).blk.acts = []
  stores : (s.slot r k).blk.lsids' = []
  pops : (s.slot r k).blk.pops = []
  events : (s.slot r k).blk.evs = []
  exit : ∃ i, (s.slot r k).blk.exits = [(i, .jump a)]
  keys : ((s.slot r k).blk.regDone.map Prod.fst).Pairwise (· < ·)
  values : ∀ e ∈ (s.slot r k).blk.regDone, e.2 = .null ∨ ∃ v, e.2 = .value v

end Sys2Proof.Claims

open Sys2Proof Sys2Proof.Machine Sys2Proof.Claims

/-- R35, R49, R51, R65 to R68, R129, R132, R297, R326, R329: the life of a block on a core: its fetch and decoding, its admission, its
commit, what ages, expires or is stuck, the arrival of a port word, the start of an activity, and a trap record that waited for a place. A
block that only writes registers and jumps commits: its registers take their values, the others stay, the activity goes on at the target.
Completion as in log 6, admission as in log 32, fetches as in log 31; an activity that serves a call of Oxkan by itself (log 19) fetches no block. -/
def Obligations.BlockEvents : Prop :=
  ∀ (s : State) (r k : Nat),
    let x := s.slot r k
    let b := x.blk
    (∀ bs, s.runs r k = true → x.native = false → b.phase = 0 → s.fetch r k 16 = .ok bs →
      (∀ h, header bs = some h →
        (∀ all, s.fetch r k h.bytes = .ok all → exec (.blockFetch r k) s = .next (s.decodeBytes r k h all)) ∧
        (∀ later, s.fetch r k h.bytes = .wait later → exec (.blockFetch r k) s = .next later) ∧
        (∀ t, s.fetch r k h.bytes = .trap t → exec (.blockFetch r k) s = .next ((s.dropLines r (.fetch k)).takeTrap r k t noIndex 0))) ∧
      (header bs = none → exec (.blockFetch r k) s = .next ((s.dropLines r (.fetch k)).takeTrap r k (trap 0x02) noIndex 0))) ∧
    (s.runs r k = true → x.native = false → b.phase = 0 →
      (∀ later, s.fetch r k 16 = .wait later → exec (.blockFetch r k) s = .next later) ∧
      (∀ t, s.fetch r k 16 = .trap t → exec (.blockFetch r k) s = .next ((s.dropLines r (.fetch k)).takeTrap r k t noIndex 0))) ∧
    (s.runs r k = true → b.phase = 1 → s.mayAdmit x = true → x.deferred = none → x.poisoned = false → x.admitFault = none →
      x.parked = false → x.emptyRead = none → (∀ g ∈ b.livesL, (mapGet x.regs g).poison = 0) →
      exec (.blockAdmission r k) s = .next (s.updSlot r k fun y => y.admitted s.cycle s.service (s.switchWord r))) ∧
    (∀ a, PlainBlock s r k a → ∃ t, exec (.blockCommit r k) s = .next t ∧
      (t.slot r k).pc = a ∧ (t.slot r k).blk = default ∧ (t.slot r k).obs = x.obs ∧
      ∀ g, mapGet (t.slot r k).regs g = match mapGet b.regDone g with | .value v => writeReg (mapGet x.regs g) v | _ => mapGet x.regs g) ∧
    (s.runs r k = true → s.complete r k = true → b.waiting = true →
      exec (.commitWait r k) s = .next ((s.updBlk r k fun b => { b with waiting := false }).commit r k)) ∧
    (s.runs r k = true → b.phase = 2 → b.awayAt = 0 → b.admitted.toNat + b.away + 2 ^ 20 ≤ s.cycle.toNat → s.complete r k = false →
      exec (.blockStuck r k) s = .next (s.takeTrap r k (trap 0x04) noIndex 0)) ∧
    (x.yielded = true → x.yieldAt.toNat + 64 ≤ s.cycle.toNat →
      exec (.yieldTimeout r k) s = .next (s.updSlot r k fun y => { y with yielded := false, yieldFor := [] })) ∧
    (x.sleep ≠ 0 → x.sleep.toNat ≤ s.cycle.toNat → exec (.sleepExpiry r k) s = .next (s.updSlot r k fun y => { y with sleep := 0 })) ∧
    (∀ i, b.phase = 2 → s.canFire r b i = true → s.readySince r b i + 512 ≤ s.cycle.toNat →
      exec (.instructionAged r k i) s = .next (s.updBlk r k fun b => { b with aged := mapSet b.aged i true })) ∧
    (∀ cls i, (mapGet (s.core r).favSince cls).toNat + 64 ≤ s.cycle.toNat → i < 8 → s.readyIn r ((mapGet (s.core r).favoured cls + 1 + i) % 8) cls = true →
      (∀ j < i, s.readyIn r ((mapGet (s.core r).favoured cls + 1 + j) % 8) cls = false) →
      exec (.favouredSlotMove r cls) s =
        .next (s.updCore r fun c => { c with
          favoured := mapSet c.favoured cls ((mapGet (s.core r).favoured cls + 1 + i) % 8), favSince := mapSet c.favSince cls s.cycle })) ∧
    (∀ port w ws, (mapGet (s.core r).ports port).coming = w :: ws → (mapGet (s.core r).ports port).words.length < 8 →
      exec (.portWordArrival r port) s = .next (s.updCore r fun c =>
        { c with ports := mapSet c.ports port { words := (mapGet (s.core r).ports port).words ++ [(w, s.cycle)], coming := ws } })) ∧
    (∀ i st t, (s.core r).gated = false → (s.core r).off = false → (s.core r).resume = [] → (s.core r).ringHead = some i →
      (s.core r).ring[i]? = some st →
      (s.updCore r fun c => c.takeRing i).begin r (s.onNewImage r st) = some t → exec (.ringStart r) s = .next t) ∧
    (∀ t, k < 8 → x.custody.unwritten = true → x.custody.state ≠ 0 →
      s.writeTrap x.custody.record.lodging x.custody.record.bits x.custody.record.core = some t →
      exec (.trapRecordWrite r k) s = .next (t.updSlot r k fun x => { x with custody := { x.custody with unwritten := false } }))

/-- R363, R385 to R398, R410, R411, R422, R434: a request leaves its queue, is translated at its station or waits there for a walk or the host,
is performed at its home, and its response lands; answers of the host, and of homes to questions, arrive.
Readings: logs 36 and 40. -/
def Obligations.MemoryEvents : Prop :=
  ∀ (s : State) (id : Nat) (q : Req),
    (Standing s id q .queued → s.frozen q = false → s.orderHeld q = false → s.placeHeld q = false → s.hasPlace q = true →
      exec (.outboundDepart id) s = .next (s.depart q) ∧
      (∀ reg a op, q.eff = .mem reg a op → a.kind = 1 → exec (.outboundDepart id) s = .next (s.leaves q .station))) ∧
    (∀ a op l, Standing s id q .station → q.mem = some (a, op) → s.behind q a = false → (s.station (q.station a)).full = false →
      let fits := (s.space a.space).fits a.kind q.lodging (isSteward q.act.core)
      let outstanding := (s.station (q.station a)).faults.any fun f => f.space == a.space && f.page == a.page
      (fits = false ∨ s.peerAllowed q = false → exec (.stationRequest id) s =
        .next (s.answer id (.fail 0x11 a.va (BitVec.ofNat 64 a.space)))) ∧
      (fits = true → s.peerAllowed q = true → outstanding = true → exec (.stationRequest id) s = .next (s.parkReq q a op.access false)) ∧
      (fits = true → s.peerAllowed q = true → outstanding = false → (s.station (q.station a)).find a.space a.va = some l →
        (l.allows op.access = true → exec (.stationRequest id) s = .next (s.setStage q.id (.ready (l.at a.va)))) ∧
        (l.allows op.access = false → (s.space a.space).type ≠ 2 → exec (.stationRequest id) s =
          .next (s.answer q.id (.fail 0x11 a.va (BitVec.ofNat 64 a.space)))) ∧
        (l.allows op.access = false → (s.space a.space).type = 2 → exec (.stationRequest id) s =
          .next ((s.askPage (q.station a) (s.space a.space).pasid (a.va.toNat / 4096)).setStage id .page)))) ∧
    (∀ a op, Standing s id q .station → q.mem = some (a, op) → (s.station (q.station a)).full = true → exec (.stationRequest id) s = .next s) ∧
    (∀ a access, s.req id = some q → q.asks = some (a, access) → id ∈ (s.station (q.station a)).walks →
      let joined := s.reqs.filter fun p => p.stage == .walking && p.asksPage (q.station a) a.space a.page
      exec (.walkComplete id) s = .next
        (((joined.foldl State.walked s).updStation (q.station a) fun t => { t with walks := t.walks.filter (· != id) }).refill (q.station a) 513)) ∧
    (∀ n (e : FaultEntry), e.slot = none →
      let l := s.lodging (s.space e.space).lodging
      let (t, f) := s.placeRecord n e
      (mapGet l.busySlots l.nextFault = true → t = s ∧ f = e) ∧
      (mapGet l.busySlots l.nextFault = false → f = { e with slot := some l.nextFault } ∧ ∀ r, s.router 0 (addrCore (capAddr l.faultQueue)) = some r →
        (t.station n).msgs = (s.station n).msgs ++ [(r, addrOff (capAddr l.faultQueue),
          { data := (capWithAddr l.faultRing (capAddr l.faultRing + BitVec.ofNat 64 (32 * l.nextFault))).zeroExtend 512, cap := true, core := 0xFFF,
            lodging := (s.space e.space).lodging, toCore := 0 })])) ∧
    (∀ n i r off m t, (s.station n).msgs[i]? = some (r, off, m) → s.tryDeliver r off m = some t →
      exec (.faultMessageSend n i) s = .next (t.updStation n fun y => { y with msgs := y.msgs.eraseIdx i })) ∧
    (∀ a op pa size rd wr, Standing s id q .walking → q.mem = some (a, op) → (s.space a.space).type = 2 → pageSize size = true →
      let l := s.hostLeaf a pa size rd wr
      (l.allows op.access = true → exec (.atsTranslationCompletion id pa size rd wr) s =
        .next ((s.updStation (q.station a) fun t => t.keep l).setStage q.id (.ready (.host (pa / size * size + a.va.toNat % size) (s.space a.space).mode)))) ∧
      (l.allows op.access = false → exec (.atsTranslationCompletion id pa size rd wr) s =
        .next (((if rd || wr then s.updStation (q.station a) fun t => t.keep l else s).askPage (q.station a) (s.space a.space).pasid
          (a.va.toNat / 4096)).setStage id .page))) ∧
    (∀ n pasid page w own, (s.station n).pages.find? (fun p => !p.2.2.1) = some (pasid, page, w, own) →
      mapGet s.promised n < s.credits / 64 →
      exec (.pageRequestSend n pasid page) s = .next (({ s with
          hostOut := s.hostOut ++ [.pageRequest pasid page]
          promised := mapUpd s.promised n (· + 1), pageWait := s.pageWait.filter (· != (n, pasid, page)) } : State).updStation n fun t =>
        { t with pages := t.pages.map fun p => if p.1 == pasid && p.2.1 == page then (pasid, page, true, true) else p })) ∧
    (∀ pasid page code, exec (.priResponse pasid page code) s =
      .next ((s.stations.find? fun e => e.2.pages.any fun p => p.1 == pasid && p.2.1 == page && p.2.2.1).elim s fun e => s.pageAnswered e.1 e.2 pasid page code)) ∧
    (∀ pasid va len tag, exec (.atsInvalidationRequest pasid va len tag) s =
      .next (if s.boot = 2 then s else s.invalidate tag fun l => (s.space l.space).type == 2 && (s.space l.space).pasid == pasid && l.meets va len)) ∧
    (∀ n tag ids, ((s.station n).invals.find? fun e => e.1 == tag) = some (tag, ids) →
      (∀ i ∈ ids, ∀ p, s.req i = some p → p.stage.isDone = true) →
      let t := s.updStation n fun t => { t with invals := t.invals.filter fun e => e.1 != tag }
      ((∃ e ∈ t.stations, ∃ i ∈ e.2.invals, i.1 = tag) → exec (.stationInvalidationAnswer n tag) s = .next t) ∧
      ((∀ e ∈ t.stations, ∀ i ∈ e.2.invals, i.1 ≠ tag) → exec (.stationInvalidationAnswer n tag) s =
        .next (if tag < 32 then { t with hostOut := t.hostOut ++ [.invalidated tag] } else t.answer (tag - 32) .ack))) ∧
    (∀ a op p, Standing s id q (.ready p) → s.barred q = false → q.mem = some (a, op) → s.overlapped q = false → s.strongHeld q = false →
      exec (.homePerform id) s = .next (s.performMem q a op p)) ∧
    (∀ p r k a, Standing s id q (.ready p) → s.barred q = false → q.eff = .cusResume r k a → exec (.homePerform id) s = .next (s.answer id .ack)) ∧
    (∀ v rank reg a op, Standing s id q (.done (.val v rank)) → q.eff = .mem reg a op → (s.lodging q.lodging).phase ≠ 8 →
      s.awaited id = true → exec (.responseArrival id) s = .next ((s.dropReq id).land id (landed v rank))) ∧
    (∀ a op p o w order scope v e, Standing s id q (.host p) → q.mem = some (a, op) → op = .amo o w order scope v e →
      exec (.atomicopCompletion id true) s = .next (s.amoAt q a p o w v e)) ∧
    (∀ a op p, Standing s id q (.host p) → q.mem = some (a, op) →
      exec (.completionTimeout id) s = .next (s.answer id (.fail 0x1A a.va 0))) ∧
    (∀ r k i kind o, (s.slot r k).blk.phase = 2 → s.runs r k = true → mapGet (s.slot r k).blk.asks i = .rank kind o →
      s.askAway (s.core r).lodging (.rank kind o) = false → s.peerQuestion r k i = none → s.askHeld r k i = false →
      (s.askBad r k i = true → exec (.remoteAnswer r k i) s = .next (s.consumeBad r k (i % 128) Sto.s.unitNo)) ∧
      (s.askBad r k i = false →
        let t := s.repairAsk r k i
        exec (.remoteAnswer r k i) s = .next (t.answered r k i (t.rankAnswer r k (i % 128) kind o)))) ∧
    (∀ r k i d kind o, (s.slot r k).blk.phase = 2 → s.runs r k = true → s.askAway (s.core r).lodging (mapGet (s.slot r k).blk.asks i) = false →
      s.peerQuestion r k i = some (d, kind, o) →
      ((∀ p ∈ s.reqs, p.act = deviceAct r → p.eff.asksFor k i kind = false) →
        exec (.remoteAnswer r k i) s = .next (s.issue (deviceAct r) (s.core r).lodging 0 0 0 (.query d k i kind o) .queued)) ∧
      (∀ p a, (s.reqs.find? fun q => q.act == deviceAct r && q.eff.asksFor k i kind) = some p → p.stage = .done a →
        exec (.remoteAnswer r k i) s = .next ((s.dropReq p.id).peerTold r k i kind a.told.1 a.told.2)))

/-- R214 to R227, R336, R470: engine commands at work: leave is granted within the die's budget, counted while it is waited for, and given
back at a halt; the porter moves units; feeds fill; the matrix unit takes commands, steps, zeroes tiles and starves; commands end.
Readings: log 39. -/
def Obligations.EngineEvents : Prop :=
  ∀ (s : State) (r : Nat),
    let c := s.core r
    (∀ die w, (s.leaveWait.find? fun w => w.1 == die) = some w → (s.core w.2.1).gated = false → (s.core w.2.1).asker w.2.2.1 = true →
      mapGet s.leave die + w.2.2.2 ≤ s.fuses.leave →
      exec (.leaveGrant die) s = .next (({ s with
        leaveWait := s.leaveWait.filter fun v => !(v.1 == w.1 && v.2.1 == w.2.1 && v.2.2.1 == w.2.2.1),
        leave := mapUpd s.leave die (· + w.2.2.2) } : State).updCore w.2.1 fun c => c.granted w.2.2.1 s.cycle)) ∧
    (c.gated = false → c.awaitsLeave = true → c.leaveWait.toNat + 1024 ≤ s.cycle.toNat →
      exec (.leaveWaitCount r) s = .next ((s.updCore r fun c => { c with leaveWait := c.leaveWait + 1024 }).count r 15 1)) ∧
    (∀ cmd p o, (c.porter.find? fun p => p.id == cmd) = some p → s.unitBack r cmd = none → s.lotAway r .s p.receipt 16 = false → p.code = 0 →
      p.stopped = false → p.leave ≠ 1 → c.gated = false → p.asked = 0 → (p.next s.cycle)[Config.pick s.tick % (p.next s.cycle).length]? = some o →
      s.strongWaits r p o = false → exec (.engineUnits r cmd) s = .next (s.porterUnit r p o)) ∧
    (∀ cmd p, (c.porter.find? fun p => p.id == cmd) = some p → p.code = 0 → p.rowBytes * p.rows ≤ p.done → p.flying = [] → c.gated = false →
      s.receiptAway r cmd = false → p.stopped = false → p.leave ≠ 1 → exec (.engineEnd r cmd) s = .next (s.endPorter r p)) ∧
    (∀ cmd p, (c.porter.find? fun p => p.id == cmd) = some p → c.gated = true → p.stopped = false → p.atBoundary s.cycle = true → p.leave = 0 →
      exec (.engineChunkStop r cmd) s = .next (((({ s with leaveWait := s.leaveWait.filter fun w => !(w.2.1 == r && w.2.2.1 == cmd) } : State).receiptCursor
        r p.receipt p.done).updPorter r cmd fun p =>
          { p with stopped := true, leave := Nat.min p.leave 1, chunkDone := p.done, told := p.told ++ p.ahead, ahead := [] }).enginesStopped c.lodging)) ∧
    (∀ id q m off sto, Standing s id q (.ready (.loc r sto off)) → q.eff = .matrix m → s.markerHeld q = false → c.mx.length < 16 →
      (∀ p ∈ s.reqs.takeWhile (fun p => p.id != id), p.act.core = q.act.core → p.stage.isDone = false → ∀ x, p.eff = .matrix x → x.core ≠ r) →
      exec (.matrixCommandAccept id) s = .next (((s.updCore r fun c => { c with mx := c.mx ++ [m] }).headAsks r).answer id .ack)) ∧
    (∀ m, c.stepping = some m → 64 ≤ c.aFeed.length → 32 ≤ c.bFeed.length → s.tileAway r m = false → exec (.blockStep r) s = .next (s.blockStep r m)) ∧
    (∀ m rest, c.mx = m :: rest → c.gated = false → m.isMma = false → m.code = 0 → s.tileAway r m = false →
      exec (.mzeroComplete r) s = .next
        (((s.writeAt 0 (.loc r .c m.off) (List.replicate 0x2000 (some 0)) false).receiptUnits m.rcore m.receipt 1).endMx r { m with done := 1 })) ∧
    (∀ m, c.stepping = some m → (c.aFeed.length < 64 ∨ c.bFeed.length < 32) → c.feedAway = 0 → m.starveFrom.toNat + 2 ^ 20 ≤ s.cycle.toNat →
      exec (.engineStarved r) s = .next (s.updMx r m.id fun x => { x with code := 0x1D })) ∧
    (∀ lo hi rest, c.aQueue = (lo, hi) :: rest → c.gated = false → c.aFeed.length < 128 → s.lotAway r .a lo 64 = false → lo + 64 < hi →
      exec (.feedFblockEnter r false) s = .next (((if c.a.bad lo 64 then s.noteError r Sto.a.unitNo else s).repairStore r .a lo 64).updCore r fun k =>
        { k with aFeed := k.aFeed ++ [(wordOfBytes 512 (bytesAt c.a.bytes lo 64), c.a.bad lo 64)], aQueue := (lo + 64, hi) :: rest }))

/-- R229, R254 to R263, R275, R280, R283, R334: what arrives at its home is applied there: a counter's discharge, a bind, an invocation, a
settlement, a message, and a wait that asks again. Each such step completes, and this is what it leaves.
Readings: logs 35 and 37. -/
def Obligations.HomeArrivals : Prop :=
  ∀ (s : State) (id : Nat) (q : Req) (r off : Nat),
    let w := s.sByte r off 8
    let acked : State → Prop := fun t => t.req id = some { q with stage := .done .ack }
    (∀ c n scope broken, Comes s id q r off → s.strays q r = false → q.eff = .discharge c n scope broken → s.overlapped q = false →
      n < ctrLeft w ∨ (ctrBound w = false ∧ mapGet (s.core r).waiters off = []) →
      ∃ t, exec (.counterDischarge id) s = .next t ∧ acked t ∧
        t.sByte r off 8 = ctrWord (ctrRank w) (ctrScope w) (ctrWaitable w) (ctrFired w) (ctrBroken w || broken || decide (ctrLeft w < n)) (ctrBound w)
          (ctrLeft w - n) ∧
        (∀ a, a < off ∨ off + 8 ≤ a → mapGet (t.core r).s.bytes a = mapGet (s.core r).s.bytes a) ∧
        ∀ k, k ≠ r → (∀ p ∈ s.twinsOf r .s off 8, p.1 ≠ k) → t.core k = s.core k) ∧
    (∀ c b, Comes s id q r off → s.strays q r = false → q.eff = .bind c b → s.overlapped q = false → (s.lodging q.lodging).ending = 0 →
      (ctrBound w = false → ctrLeft w ≠ 0 → mapGet (s.core r).waiters off = [] →
        ∃ t, exec (.bindArrival id) s = .next t ∧ acked t ∧
          t.sByte r off 8 = ctrWord (ctrRank w) (ctrScope w) false (ctrFired w) (ctrBroken w) true (ctrLeft w) ∧
          t.sByte r (off + 8) 8 = (capAddr b.entry).toNat ∧ mapGet (t.core r).binds off = b.keep (mapGet (s.core r).binds off)) ∧
      (ctrBound w = true →
        ∃ t, exec (.bindArrival id) s = .next t ∧ acked t ∧ (b.run = none → t.cores = s.cores) ∧
          ∀ e ∈ b.escrow, ∃ p ∈ t.reqs, p.eff = breakEff 0x18 e ∧ p.lodging = q.lodging)) ∧
    (∀ n i k, Comes s id q r off → s.strays q r = false → q.eff = .invokec n i → q.act.slot ≠ 99 → s.invocationHeld q n r = false →
      (s.lodging i.lodging).ending = 0 → s.claimHome q.lodging n = some (r, k) →
      let x := mapGet (s.core r).claims k
      (x.state = 1 → ∃ t, exec (.invocationArrival id) s = .next t ∧ acked t ∧
        mapGet (t.core r).claims k = { x with invs := x.invs ++ [i], reserved := x.reserved - 1 }) ∧
      (x.state = 3 → ∃ t, exec (.invocationArrival id) s = .next t ∧ acked t ∧
        (∃ p ∈ t.reqs, p.eff = .settle i.claim (dataValue 0) x.code 2) ∧ ∀ e ∈ i.obs, ∃ p ∈ t.reqs, p.eff = breakEff x.code e)) ∧
    (∀ n v code scope, Comes s id q r off → s.strays q r = false → q.eff = .settle n v code scope →
      let does := fun t => (code = 0 → exec (.claimFulfilment id) s = .next t) ∧ (code ≠ 0 → exec (.claimBreak id) s = .next t)
      (∀ k, s.claimHome q.lodging n = some (r, k) →
        let x := mapGet (s.core r).claims k
        x.state = 1 → (code = 0 → v.tag ≠ .broken) → x.invs = [] → id ∉ x.waiters →
        ∃ t, does t ∧ acked t ∧ (mapGet (t.core r).claims k).state = (if code = 0 then 2 else 3) ∧ (mapGet (t.core r).claims k).code = code ∧
          (code = 0 → (mapGet (t.core r).claims k).value = v) ∧ (mapGet (t.core r).claims k).waiters = [] ∧
          ∀ w ∈ x.waiters, ∀ p, s.req w = some p →
            t.req w = some { p with stage := .done (.val (claimLanding (code == 0) v code (s.isSt w)) x.rank) }) ∧
      (s.claimHome q.lodging n = none → s.router q.lodging (claimCore n) = some r → does ((s.count r 14 1).answer id .ack))) ∧
    (∀ d qoff owner m, Comes s id q r off → q.eff = .message (.queue d qoff owner) m none → s.messageHeld q = false → (s.preceded q fun p => p.dest == q.dest) = false →
      (s.core r).lodging = owner → (s.lodging owner).out = false → q.act.slot ≠ 99 → s.routeListed q.act.core r q.lodging owner = true →
      Plain s r qoff → ∃ t, exec (.queueMessageArrival id) s = .next t ∧ acked t ∧ Entered s t r qoff m ∧
        mapGet (t.core r).places qoff = mapGet (s.core r).places qoff - 1) ∧
    (∀ reg st o, Standing s id q .waiting → q.eff = .waitObj reg st 8 o →
      (s.cycle.toNat < q.since.toNat + 1024 → exec (.claimWaiterPoll id) s = .next s) ∧
      (∀ k j, q.since.toNat + 1024 ≤ s.cycle.toNat → s.barred q = false → s.recorded q 8 o = false → s.asksBefore q 8 o = false →
        s.claimHome q.lodging o = some (k, j) →
        let x := mapGet (s.core k).claims j
        (x.state = 2 ∨ x.state = 3 → exec (.claimWaiterPoll id) s =
          .next (s.answer id (.val (claimLanding (x.state == 2) x.value x.code st) x.rank))) ∧
        (x.state = 1 → x.waiters.length < 16 → (s.core k).claimWaiters < 256 →
          ∃ t, exec (.claimWaiterPoll id) s = .next t ∧ mapGet (t.core k).claims j = { x with waiters := x.waiters ++ [id] } ∧
            t.req id = some { q with since := s.cycle }))) ∧
    (∀ reg st o, Standing s id q .waiting → q.eff = .waitObj reg st 7 o →
      (s.cycle.toNat < q.since.toNat + 1024 → exec (.objectWaiterPoll id) s = .next s) ∧
      (∀ k, q.since.toNat + 1024 ≤ s.cycle.toNat → s.barred q = false → s.recorded q 7 o = false → s.asksBefore q 7 o = false →
        s.router q.lodging (addrCore o) = some k →
        let x := s.sByte k (addrOff o) 8
        ctrBad x = false →
        (ctrBound x = true ∨ ctrLeft x = 0 → exec (.objectWaiterPoll id) s = .next (s.answer id (.val (counterValue x st) (ctrRank x)))) ∧
        (ctrBound x = false → ctrLeft x ≠ 0 → (s.core k).objectWaiters < 64 →
          ∃ t, exec (.objectWaiterPoll id) s = .next t ∧ mapGet (t.core k).waiters (addrOff o) = mapGet (s.core k).waiters (addrOff o) ++ [id] ∧
            t.req id = some { q with since := s.cycle })))

/-- R284, R318 to R327, R347, R419: what waits at its core, at the desk or at a relay comes to its turn: retries take free ring places, the desk
places or ages a launch, a start reaches its core, requests that a core keeps go again, a staged entry passes. Each such step completes, and
this is what it leaves.
Readings: logs 35, 38, 43 and 62. -/
def Obligations.TurnsAtCoresAndDesk : Prop :=
  ∀ (s : State) (id : Nat) (q : Req) (r : Nat),
    let c := s.core r
    ((c.ringFree 2 = false → exec (.handlerRetry r) s = .next s) ∧
      (∀ st, s.retries r = [] → c.arrivals = [st] → c.ringFree st.units = true →
        ∃ t, exec (.handlerRetry r) s = .next t ∧ (t.core r).arrivals = [] ∧ (t.core r).ring = c.ring ++ [onRing c st]) ∧
      (∀ n off, s.firstRetry r = some (n, off, false) → c.ringFree 2 = true → (∀ e ∈ s.retries r, n ≤ e.1) →
        let b := mapGet c.binds off
        b.order = n → b.retries = true →
        ∃ t, exec (.handlerRetry r) s = .next t ∧ ∃ st ∈ (t.core r).ring, st.kind = 2 ∧ st.entry = b.entry ∧ st.desc = b.desc ∧ st.obs = b.escrow ∧
          st.counter = localAddr c.logicalNo off ∧ st.broken = ctrBroken (s.sByte r off 8)) ∧
      (∀ n off, s.firstRetry r = some (n, off, true) → c.ringFree 2 = true → (∀ e ∈ s.retries r, n ≤ e.1) →
        let b := mapGet c.binds off
        let h := s.sByte r off 8
        b.bound = true → qBound h = true → 0 < qCount h → (mapGet c.stamps (qRing off + 64 * qHead h)).1 = n →
        ∃ t, exec (.handlerRetry r) s = .next t ∧ ∃ st ∈ (t.core r).ring, st.kind = 3 ∧ st.entry = b.entry ∧ st.desc = b.desc ∧
          (st.g0, st.g0cap) = c.qEntry off (qHead h))) ∧
    (∀ j l rect, j < 256 → s.deskPick ((s.deskNext + 1 + j) % 256) = some (l, rect) → (∀ i, i < j → s.deskPick ((s.deskNext + 1 + i) % 256) = none) →
      ∃ t, exec .deskDecision s = .next t ∧ t.deskNext = l.lodging ∧ (∀ d ∈ t.desk, d.lodging = l.lodging → d.num ≠ l.num) ∧
        mapGet t.pending l.die = mapGet s.pending l.die - 1 ∧
        ∀ k ∈ s.rectCores l.lodging rect, ∃ st ∈ (t.core k).ring, st.kind = 0 ∧ st.launch = l.num ∧ st.entry = l.entry ∧ st.rect = s.areaOf l.lodging rect ∧
          st.g0 = l.arg.zeroExtend 512) ∧
    ((∀ n, n < 256 → s.deskPick n = none) → exec .deskDecision s = .next s) ∧
    (∀ n queue l, s.deskHead n queue = some l →
      (l.since.toNat + 65536 ≤ s.cycle.toNat → exec (.launchAged n queue) s =
        .next { s with desk := s.desk.map fun d => if d.lodging == l.lodging && d.num == l.num then { d with aged := true } else d }) ∧
      (s.cycle.toNat < l.since.toNat + 65536 → exec (.launchAged n queue) s = .next s)) ∧
    (∀ st off, Comes s id q r off → q.eff = .spawn r st → s.strays q r = false → (s.lodging st.lodging).ending = 0 →
      (s.preceded q fun p => (match p.start with | some (r', _) => r' == r | none => false)) = false →
      (c.arrivals = [] → s.retrying r = false → c.ringFree st.units = true →
        ∃ t, exec (.startArrival id) s = .next t ∧ t.req id = some { q with stage := .done .ack } ∧ (t.core r).ring = c.ring ++ [onRing c st]) ∧
      (c.arrivals ≠ [] → c.arrivals.length < 16 →
        ∃ t, exec (.startArrival id) s = .next t ∧ t.req id = some { q with stage := .done .ack } ∧ (t.core r).arrivals = c.arrivals ++ [st] ∧
          (t.core r).ring = c.ring) ∧
      (16 ≤ c.arrivals.length → exec (.startArrival id) s = .next (s.updReq id fun p => { p with stage := .buffered, since := s.cycle }))) ∧
    (∀ st, Standing s id q .buffered → q.eff = .spawn r st ∨ q.eff = .invoke r st →
      (q.since.toNat + 1024 ≤ s.cycle.toNat → exec (.arrivalResend id) s =
        .next (s.updReq id fun p => { p with stage := .ready (.loc r .s 0), since := s.cycle })) ∧
      (s.cycle.toNat < q.since.toNat + 1024 → exec (.arrivalResend id) s = .next s)) ∧
    (∀ off owner m reg, Standing s id q .buffered → q.eff = .message (.queue r off owner) m (some reg) →
      (q.since.toNat + 1024 ≤ s.cycle.toNat → exec (.sendwResend id) s =
        .next (s.updReq id fun p => { p with stage := .ready (.loc r .s off), since := s.cycle })) ∧
      (s.cycle.toNat < q.since.toNat + 1024 → exec (.sendwResend id) s = .next s)) ∧
    (∀ coll i req m dev off,
      let k := mapGet s.colls coll
      let j := i % k.blocks % k.relays.length
      (c.staged.find? fun e => e.1 == coll && k.live && k.expects (e.2.1 % k.blocks % k.relays.length) == e.2.1) = some (coll, i, req, m) →
      k.relays[j]? = some (dev, r, off) → s.qFree r off = true → Plain s r off →
      ∃ t, exec (.collectiveEntryPass r coll) s = .next t ∧ Entered s t r off m ∧
        mapGet (mapGet t.colls coll).passed j = mapGet k.passed j + 1 ∧ (∀ x ∈ (t.core r).staged, x.1 = coll → x.2.2.1 ≠ req))

/-- R401 to R414, R467, R468: the host port and the links: accepted writes of a session become requests, the rest are discarded and counted;
the host reads zeros; a session is bound; a reply entry is written while there is a credit; a flit in order is delivered; a link fails.
Choices: logs 10, 12, 13, 41, 42 (an entry of a reply queue waits for credit) and 67 (link control: acknowledging, asking again). -/
def Obligations.PortEvents : Prop :=
  ∀ (s : State) (n : Nat),
    let e := mapGet s.sessions n
    let accepted := fun (seq kind : Nat) (p : BitVec 320) =>
      ({ s with sessions := mapSet s.sessions n { e with last := seq, unanswered := e.unanswered + bit1 (kind != 4 && kind != 5) } } : State).issue
        (deviceAct 4096) 0 0 0 0 (.inlet n seq kind p) (.ready (.loc 4096 .s 0))
    (∀ seq (p : BitVec 320), e.known = true → s.boot ≠ 2 → e.last < seq → seq < 2 ^ 32 →
      exec (.inletCredit n seq p) s = .next (accepted seq 4 p) ∧ exec (.inletAgent n seq p) s = .next (accepted seq 5 p) ∧
      (e.unanswered < 64 →
        exec (.inletLaunch n seq p) s = .next (accepted seq 1 p) ∧ exec (.inletWindow n seq p) s = .next (accepted seq 2 p) ∧
        exec (.inletPost n seq p) s = .next (accepted seq 3 p) ∧ exec (.inletCall n seq p) s = .next (accepted seq 6 p) ∧
        ∀ kind : BitVec 8, kind = 0 ∨ 6 < kind.toNat → exec (.inletUnknownKind n seq kind p) s = .next (accepted seq kind.toNat p))) ∧
    (∀ seq (p : BitVec 320), e.known = true → s.boot ≠ 2 → seq ≤ e.last ∨ 2 ^ 32 ≤ seq →
      exec (.inletLaunch n seq p) s = .next { s with sessions := mapUpd s.sessions n fun e => { e with dropped := e.dropped + 1 } }) ∧
    (e.known = true → s.boot ≠ 2 →
      exec (.inletWriteDiscarded n) s = .next { s with sessions := mapUpd s.sessions n fun e => { e with dropped := e.dropped + 1 } }) ∧
    (∀ offset, (offset < 65536 → s.boot ≠ 2 → exec (.inletRead offset) s = .next { s with hostOut := s.hostOut ++ [.completion offset 0] }) ∧
      (65536 ≤ offset ∨ s.boot = 2 → exec (.inletRead offset) s = .next s)) ∧
    (∀ offset posted data,
      let at' := fun (o k : Nat) => natOfBytes ((data.drop o).take k)
      let nonce := BitVec.ofNat 64 (at' 0 8)
      offset < 65536 → 8 ≤ data.length → at' 4 2 = n →
      (posted = false ∨ data.length ≠ 64 ∨ offset % 64 ≠ 0 ∨ at' 7 1 ≠ 0 → s.outside (.tlp offset posted data) = s.dropWrite n) ∧
      (posted = true → data.length = 64 → offset % 64 = 0 → at' 7 1 = 0 →
        s.outside (.tlp offset posted data) =
          match Config.opened e.inletKey (e.inletSalt ++ nonce) nonce (BitVec.ofNat 320 (at' 8 40)) (BitVec.ofNat 128 (at' 48 16)) with
          | some p => s.inletWrite n (at' 0 4) (at' 6 1) p
          | none => s.dropWrite n)) ∧
    (∀ l a b, l ≠ 0 → (s.lodging l).live = true ∨ (s.lodging l).out = true → (s.lodging l).session = n → s.boot ≠ 2 →
      let p := mapGet s.spdm s.speaking
      (p.phase = 2 → exec (.sessionBindRequest l n a b) s = .next { s with
        sessions := mapSet s.sessions n { (default : Session) with
          known := true, lodging := l, unanswered := s.unwritten l n, inletSalt := a, replySalt := b,
          inletKey := Config.hkdfExpand p.secret (keyLabel "hjelton inlet"), replyKey := Config.hkdfExpand p.secret (keyLabel "hjelton reply") }
        hostOut := s.hostOut ++ [.bound n a b] }) ∧
      (p.phase ≠ 2 → exec (.sessionBindRequest l n a b) s = .next s)) ∧
    (∀ l kind sender body rest,
      let g := s.lodging l
      let y := mapGet g.replies n
      let bytes := replyEntry (mapGet s.sessions g.session).replyKey (mapGet s.sessions g.session).replySalt kind sender y.seq body
      let at' := g.replyAt y ((y.seq - 1) % 2 ^ y.k)
      y.waiting = (kind, sender, 0, body) :: rest → y.isSet = true → y.credits ≠ 0 → kind ≠ 1 → s.req 0 = none →
      (y.begun = false → exec (.replyEntryWrite l n) s = .next (({ s with host := writeBytes s.host (at' + 8) (bytes.drop 8) } : State).updLodging l fun l =>
        { l with replies := mapSet l.replies n { y with begun := true } })) ∧
      (y.begun = true → exec (.replyEntryWrite l n) s = .next (({ s with host := writeBytes s.host at' (bytes.take 8) } : State).updLodging l fun l =>
        { l with replies := mapSet l.replies n { y with credits := y.credits - 1, seq := y.seq + 1, waiting := rest, begun := false } }))) ∧
    (∀ flit : Flit, flit.dest.toNat = s.fuses.device → flit.link < s.fuses.links → mapGet s.failedLinks flit.link = false → flit.slots.length ≤ 3 →
      let k := (flit.source.toNat, flit.plane.toNat)
      let p := s.pair k
      (flitOk flit = false → exec (.flitReceive flit) s = .next (s.tellSender k.1 k.2 true)) ∧
      (∀ e plane m, flitOk flit = true → flit.plane = 3 → flit.slots = [e] → e.body = .ack plane m → exec (.flitReceive flit) s =
        .next (s.setPair { s.pair (k.1, plane) with unacked := (s.pair (k.1, plane)).unacked.filter fun e => m ≤ e.1 })) ∧
      (∀ e plane m, flitOk flit = true → flit.plane = 3 → flit.slots = [e] → e.body = .replay plane m → exec (.flitReceive flit) s =
        .next (s.resend k.1 plane m)) ∧
      (flitOk flit = true → flit.plane ≠ 3 → flit.seq.toNat = p.next % 2 ^ 16 → exec (.flitReceive flit) s = .next
        ((((s.setPair { p with next := p.next + 1 }).deliverFlit k.1 flit.link flit.slots).drainPair k flit.link 64).tellSender k.1 k.2 false))) ∧
    (∃ t, exec (.linkFailure n) s = .next t ∧ t.failedLinks = mapSet s.failedLinks n true ∧ t.pairs = s.pairs ∧ t.reqs = s.reqs ∧ t.cores = s.cores) ∧
    (∀ index,
      let table : Measurement := { digest := Config.sha256 (s.lodgingTable.flatMap (bytesOf 32)), version := 0, counts := none }
      (s.boot = 1 → exec (.spdmRequest 0x80) s = .next { s with
        measures := mapSet s.measures 0x80 table
        hostOut := s.hostOut ++ [.measured 0x80 (mapGet (mapSet s.measures 0x80 table) 0x80) (Config.signed 0x80 (mapGet (mapSet s.measures 0x80 table) 0x80))] }) ∧
      (index ≠ 0x80 → s.boot ≠ 2 → exec (.spdmRequest index) s = .next { s with
        hostOut := s.hostOut ++ [.measured index (mapGet s.measures index) (Config.signed index (mapGet s.measures index))] }) ∧
      (s.boot = 2 → exec (.spdmRequest index) s = .next { s with hostOut := s.hostOut ++ [.failed] }))

/-- R339 to R357: the lodging's steps: draining, requests held, images swapped, lots read back, a migrated core resumed, markers flushed, the
watchdogs, and the end.
Readings: logs 18, 44 and 45. -/
def Obligations.LodgingEvents : Prop :=
  ∀ (s : State) (n : Nat),
    let l := s.lodging n
    (∃ t, exec (.drainReduction n) s = .next t ∧ t.reqs = s.reqs ∧ t.cores = s.cores ∧ (t.lodging n).drainTotal = l.sent ∧
      (t.lodging n).drainZero = (if s.flying n = 0 then (if l.drainTotal = l.sent then l.drainZero + 1 else 1) else 0) ∧
      (s.flying n ≠ 0 → (t.lodging n).phase = if l.phase = 1 ∧ s.enginesRun n = false then 2 else l.phase) ∧
      (s.flying n = 0 → 0 < l.drainZero → l.drainTotal = l.sent → l.phase = 2 → (t.lodging n).phase = 3)) ∧
    (∀ id q, s.req id = some q → q.lodging = n → l.gated = true → q.stage ≠ .queued → l.gateCycle.toNat + 32768 ≤ s.cycle.toNat →
      exec (.requestHeld id) s = .next (s.updReq id fun q => { q with held := true })) ∧
    (∀ i r pa, l.map[i]? = some r → l.saveAddr = some pa → l.phase = 3 → i ∉ l.done → (s.core r).lodging = n → (s.core r).logical = i + 1 →
      s.image pa n i = none →
      let t := ((s.saveImage n i r pa).wrote n i).saveUnits n 1
      exec (.imageSwap n i) s = .next (if (t.lodging n).done.length = l.map.length then t.saved n pa else t)) ∧
    (∀ r kind k unit, stoOfKind kind = some k → mapGet ((s.core r).store k).saved unit ≠ 0 →
      ∃ t, exec (.lotReadback r kind unit) s = .next t ∧ mapGet ((t.core r).store k).saved unit = 0 ∧ (∀ x, x ≠ unit →
        mapGet ((t.core r).store k).saved x = mapGet ((s.core r).store k).saved x) ∧ ((t.core r).store k).bytes = ((s.core r).store k).bytes) ∧
    (∀ i sender r, s.router n i = some r →
      (∀ q ∈ s.reqs, q.act.core = sender → q.lodging = n → q.via ≠ 0 → ∀ d k o, q.stage = .ready (.loc d k o) → d ≠ r) →
      exec (.flushMarker n i sender) s = .next (s.updLodging n fun l => { l with markers := l.markers.erase (i, sender) })) ∧
    (∀ i target rcore receipt r, l.migrating = some (i, target, rcore, receipt) → l.map[i]? = some r → (s.core r).enginesRun = false →
      (∀ p ∈ s.pairedWith r, (s.core p).enginesRun = false) →
      ∃ t, exec (.migrationResume n i) s = .next t ∧ (t.lodging n).map = l.map.set i target ∧ (t.lodging n).migrating = none) ∧
    (l.live = true → 1 ≤ l.phase → l.phase ≤ 4 → l.watch = 0 → l.gateCycle.toNat + lodgingLimit ≤ s.cycle.toNat →
      exec (.lodgingWatchdog n) s = .next ((s.updLodging n fun l => { l with watch := s.cycle.toNat + 1 }).serviceRec 2
        ((l.map.head?).getD 0) n (l.saveAddr.getD 0) l.progress)) ∧
    (l.live = true → l.ending = 0 → l.watch ≠ 0 → l.changedAt.toNat < l.watch → l.watch + deviceLimit ≤ s.cycle.toNat + 1 →
      exec (.deviceWatchdog n) s = .next ((s.serviceRec 3 ((l.map.head?).getD 0) n (l.saveAddr.getD 0)
        (if l.saveAddr.isSome then l.progress else 0)).endLodging n 0x1F)) ∧
    (l.ending ≠ 0 → l.live = true → (∀ q ∈ s.reqs, q.lodging = n → ∃ k j m reg, q.eff = .message (.reply k j) m reg) →
      (∀ r ∈ l.map, (s.core r).lodging = n → (s.core r).porter = [] ∧ (s.core r).mx = []) →
      exec (.lodgeEndComplete n) s = .next (s.lodgeGone n))

/-- R441, R442, R449 to R466: the platform's steps: a word scrubbed, a unit that fails, a round of sums, a test pattern, the firmware's
switch and hand-over, and the reset, which keeps the host's memory and the fuses.
Choices: logs 2, 47 and 49. -/
def Obligations.PlatformEvents : Prop :=
  ∀ (s : State) (r : Nat),
    (∀ kind k word, stoOfKind kind = some k → mapGet ((s.core r).store k).corr word = true → exec (.scrubVisit r kind word) s =
      .next ((s.updCore r fun c => c.setStore k { c.store k with corr := mapSet (c.store k).corr word false }).count r 9 1)) ∧
    (∀ unit a b, (mapGet (s.core r).errors unit).length = 65 → (mapGet (s.core r).errors unit).head? = some a →
      (mapGet (s.core r).errors unit).getLast? = some b → b.toNat - a.toNat ≤ 2 ^ 30 →
      exec (.unitFailure r unit) s = .next ((s.updCore r fun c => { c with errors := mapSet c.errors unit [] }).failUnit r unit 0xFF)) ∧
    (∀ unit set n req q core u p receipt, (s.tests.find? fun t => t.1 == r) = some (r, unit, set, n, req) → s.req req = some q →
      q.eff = .testRun core u p receipt → exec (.testPatternEnd r false) s =
        .next ((({ s with tests := s.tests.filter fun (t : Nat × Nat × Nat × Nat × Nat) => t.2.2.2.2 != req } : State).receiptEnd q.act.core receipt 0x1B n
          |>.answer req .ack).failUnit r unit unit)) ∧
    (∀ lodging launch round id q d rc counts rect,
      (s.sums.filter fun e => e.1 == lodging && e.2.1 == launch && e.2.2.1 == round) = [(lodging, launch, round, r, id)] →
      Standing s id q .waiting → q.eff = .statSum d rc counts rect → s.areaCores lodging rect = [r] →
      exec (.statSumRound lodging launch round) s = .next { s with
        sums := s.sums.filter fun e => !(e == (lodging, launch, round, r, id))
        reqs := s.reqs.map fun p => if p.id = id then p.summed (sumOf [counts]) else p }) ∧
    (∀ id q d rc counts rect p at' leaf, Standing s id q (.ready p) → q.eff = .statSum d rc counts rect → s.barred q = false →
      s.sumPlace q d = .ok at' leaf → (∀ n, at' ≠ .peer n) →
      exec (.homePerform id) s = .next
        ((((s.writeAt d.space at' ((sumBytes counts).map some) false).receiptUnits q.act.core rc 1).receiptEnd q.act.core rc 0 1).answer id .ack)) ∧
    (∀ q, isSteward r = true → s.boot = 1 → (s.core r).switching = 0 → q ∈ stewardCores → (s.core q).switching ≠ 0 →
      let u : State := if r = 4096 then { s with sessions := mapEach s.sessions (fun e => e.known) fun e => { e with before := e.last } } else s
      exec (.firmwareSwitch r) s = .next (u.updCore r fun c => { c with
        switching := 1, switchAt := s.cycle,
        binds := mapEach c.binds (fun b => b.bound) fun b =>
          { b with entry := (Config.movedEntry s.newImage b.entry).1, desc := (Config.movedEntry s.newImage b.entry).2 } })) ∧
    (∀ k, (s.core r).switching ≠ 0 → (s.core r).switchAt.toNat + handoverAfter ≤ s.cycle.toNat →
      let u := s.updCore r fun c => { c with switching := 2 }
      let t := if (s.core r).switching = 1 ∧ r = 4096 then u.failCalls else u
      t.oldRuns r k = false → exec (.firmwareHandover r k) s = .next t.switched) ∧
    (∃ t, exec .reset s = .next t ∧ t.host = s.host ∧ t.fuses = s.fuses ∧ t.far = [] ∧ (∀ c j, (t.slot c j).live = false) ∧
      t.reqs = [] ∧ t.sessions = [])
namespace Sys2Proof.Claims
open Sys2Proof.Machine

/-! ## The whole machine -/

/-- What a firing leaves as it was in every slot: the activity, its registers, its held set, its block's address, its floating-point
state (R54, R66: effects wait for the commit; R72: an aborted block has none). -/
structure SlotKept (x y : Slot) : Prop where
  activity : y.live = x.live ∧ y.gen = x.gen ∧ y.launch = x.launch ∧ y.rect = x.rect ∧ y.kind = x.kind ∧ y.serve = x.serve
  code : y.code = x.code ∧ y.pc = x.pc ∧ y.cls = x.cls ∧ y.link = x.link ∧ y.sleep = x.sleep
  registers : ∀ g, (mapGet y.regs g).bits = (mapGet x.regs g).bits ∧ (mapGet y.regs g).tag = (mapGet x.regs g).tag ∧
    (mapGet y.regs g).req = (mapGet x.regs g).req
  held : y.obs.ents = x.obs.ents
  rounding : y.round = x.round ∧ y.seed = x.seed
/-- An open region starts again, once (R454): at its first block, with the registers that it began with; the activity and its held set stay. -/
structure RegionRestarts (x y : Slot) : Prop where
  due : x.retried = true ∧ x.region.isOpen = true ∧ x.region.restarted = false
  start : y.pc = x.region.first ∧ y.blk = default
  saved : y.regs = x.region.saved.foldl (fun m e => mapSet m e.1 e.2) x.regs
  activity : y.live = x.live ∧ y.gen = x.gen ∧ y.obs.ents = x.obs.ents
  once : y.region = { x.region with restarted := true, again := true }
/-- A byte of an S store that the delivery of a trap record may write: one of the trap queue's header and ring, or of its core's run ring, which the
handler of a bound queue enters (R262, R285, R297, R324). -/
def trapByte (s : State) (lodging c a : Nat) : Prop :=
  ∃ off, s.trapQueue lodging = some (c, off) ∧
    (off ≤ a ∧ a < off + 8 ∨ qRing off ≤ a ∧ a < qRing off + 64 * 2 ^ qLog (s.sByte c off 8) ∨ ringOff ≤ a ∧ a < ringOff + 4096)

end Sys2Proof.Claims

open Sys2Proof Sys2Proof.Machine Sys2Proof.Claims

/-- R54, R65, R328, R329, R460, log 1: the step whose turn fires an index of an admitted block is exec of the instruction that its word decodes to, at
that place, when the keeper allows it (it is ready, and the first of its pipe), and else nothing; a turn of the keeper fires the first ready
instruction of a pipe. The turn is taken off the schedule and its cycles pass. A turn that is one of the part's own steps is exec of that step. On a
redundant activity a firing, an admission and an answer are made on both copies (R460, log 48). -/
def Obligations.StepRunsTheDecodedInstruction : Prop :=
  ∀ (s : State) (d : Nat) (rest : List (Nat × Turn)),
    let passed : State := { s with schedule := rest, cycle := s.cycle + BitVec.ofNat 64 d, tick := s.tick + 1 }
    let both := fun (core slot idx : Nat) (f : State → Out) (o : Out) =>
      o = passed.both core slot idx f ∧ ((s.slot core slot).twin = none → o = f passed)
    (∀ (core slot idx : Nat) (w : W32) (i : Instr), (s.slot core slot).blk.phase = 2 → (s.slot core slot).blk.words[idx]? = some w → decodeWord w = .ok i →
      let fires := both core slot idx (fun t => exec i { t with here := (core, slot, idx) }) (step s)
      (s.schedule = (d, .fire core slot idx) :: rest → passed.kept core slot idx = true → fires) ∧
      (∀ pipe, s.schedule = (d, .keep core pipe) :: rest → passed.firstOf core (passed.readyOf core pipe) = some (slot, idx) → fires)) ∧
    (∀ core slot idx, s.schedule = (d, .fire core slot idx) :: rest → passed.kept core slot idx = false → step s = .next passed) ∧
    (∀ core pipe, s.schedule = (d, .keep core pipe) :: rest → passed.readyOf core pipe = [] → step s = .next passed) ∧
    (∀ i : Instr, s.schedule = (d, .event i) :: rest → encode i = 0 → (∀ core slot, i ≠ .blockAdmission core slot) →
      (∀ core slot idx, i ≠ .remoteAnswer core slot idx) → step s = exec i passed) ∧
    (∀ core slot, s.schedule = (d, .event (.blockAdmission core slot)) :: rest → both core slot 0 (exec (.blockAdmission core slot)) (step s)) ∧
    (∀ core slot idx, s.schedule = (d, .event (.remoteAnswer core slot idx)) :: rest →
      both core slot (idx % 128) (exec (.remoteAnswer core slot idx)) (step s))

/-- R46, R52, R62, R98 to R116: words that the spec writes out decode to the instructions that it says, and reserved ones to none. -/
def Obligations.WordsOfTheSpecDecode : Prop :=
  decodeTableWord 32 0x02000003 = some (.extWide 3) ∧
  decodeTableWord 32 0x05FFFE05 = some (.read 1 63 0x1FF 0x005) ∧
  decodeTableWord 32 0x0E020903 = some (.mov 0 0x104 0x103) ∧
  decodeTableWord 32 0x0D83FE05 = some (.null 3 0x1FF 0x005) ∧
  decodeTableWord 32 0x08080000 = some (.write 0 4) ∧
  decodeTableWord 32 0x10000001 = some (.bro 0 1) ∧
  decodeTableWord 32 0x347FFE03 = some (.andi 0 0x3FFF 0x003) ∧
  decodeTableWord 32 0x3A000C85 = some (.shli 0 6 0x085) ∧
  decodeTableWord 32 0x4600C802 = some (.tlti 0 100 0x002) ∧
  decodeTableWord 32 0x6C000003 = some (.ld64 0 0 0 0x003) ∧
  decodeTableWord 32 0x86280E80 = some (.aad 0 20 3 2 2) ∧
  decodeTableWord 32 0x884BFFFF = some (.fenceRel 0 2) ∧
  decodeTableWord 32 0xB407FE09 = some (.vredMax 0 0 0x1FF 0x009) ∧
  decodeTableWord 32 0xE017FFFF = some (.rarm 0) ∧
  decodeTableWord 32 0xE6100000 = some (.wait 0 8) ∧
  decodeTableWord 32 0xF203FFFF = some (.cpy 0) ∧
  decodeTableWord 32 0xF803FFFF = some (.mma 0) ∧
  (∀ w ∈ [0x86281E80, 0x86280E81, 0x885BFFFF, 0xB41FFE09, 0xFC000000], decodeTableWord 32 w = none)

/-- R46, R52, R97 to R116: every well-formed instruction that has a word is what its word decodes to, with every operand at every value. -/
def Obligations.EveryInstructionDecodesBack : Prop := ∀ i : Instr, WellFormed i = true → encode i ≠ 0 → decodeWord (encode i) = .ok i

/-- R466, logs 2 to 4: at reset no core holds an activity, every register is zero DATA, no memory lists a byte, no request is under way, no
lodging is live, and the boot ROM's step is the one turn scheduled; the memories have their canonical form. Zero for what the spec gives no
reset value is the model's choice (log 3). -/
def Obligations.ResetState : Prop :=
  (∀ r k, (State.reset.slot r k).live = false ∧ ∀ g, mapGet (State.reset.slot r k).regs g = default) ∧
  (∀ g : Reg, g = default → g.bits = 0 ∧ g.tag = .data) ∧
  State.reset.hbm = [] ∧ State.reset.far = [] ∧ State.reset.host = [] ∧ State.reset.reqs = [] ∧ State.reset.cycle = 0 ∧ State.reset.boot = 0 ∧
  (∀ n, (State.reset.lodging n).live = false) ∧ State.reset.schedule = [(0, .event .reset)] ∧ State.reset.memoryOk = true

/-- The memories keep their canonical form (log 4): every step, of every instruction and of every part of the machine, from every state that
has it, answers a next state that has it. No step faults and none is refused. -/
def Obligations.EveryStepGoesOnAndKeepsMemoriesCanonical : Prop :=
  ∀ s : State, s.memoryOk = true → ∃ t, step s = .next t ∧ t.memoryOk = true

/-- R72, R295, R297, R299, R300, R308: taking a trap aborts the block, writes the trap record, freezes what the activity holds and leaves its
registers, its address and every memory as they were; event 10 counts it. CUS.TAKE marks the record as taken; the return from custody
clears the custodial bit and the record, and the activity goes on at the address given, or at the trapped block for 0. Readings: log 50. -/
def Obligations.TrapAndReturn : Prop :=
  ∀ (s : State) (r k : Nat),
    let x := s.slot r k
    let c := s.core r
    (∀ (t : Trap) (index : W32) (flags : Nat),
      let u := s.takeTrap r k t index flags
      let y := u.slot r k
      SlotKept x y ∧ y.blk = default ∧ y.obs.custodial = true ∧ y.custody.state = 1 ∧ y.custody.held = BitVec.ofNat 16 x.obs.heldMask ∧
      y.custody.record = {
        code := BitVec.ofNat 8 t.code, flags := flags, index := index, block := x.pc, cycle := s.cycle, core := c.logicalNo, slot := k,
        lodging := c.lodging, launch := x.launch, lo := t.lo, hi := t.hi, ended := false } ∧
      (s.trapQueue c.lodging = none → y.custody.unwritten = true) ∧
      ((∀ q j, x.twin = some (q, j) → q ≠ r) → (mapGet (u.core r).ev 10).toNat = Nat.min ((mapGet c.ev 10).toNat + 1) 0xFFFFFFFF) ∧
      u.hbm = s.hbm ∧ u.far = s.far ∧ u.host = s.host) ∧
    (∀ me : ActId,
      let y := (s.custodyAct me (.cusTake r k)).slot r k
      y.custody = { x.custody with state := 2, taker := me, reserved := 0 } ∧ y.regs = x.regs ∧ y.obs = x.obs ∧ y.pc = x.pc ∧ y.live = x.live) ∧
    (∀ (me : ActId) (a : Word),
      let y := (s.custodyAct me (.cusResume r k a)).slot r k
      y.custody = default ∧ y.obs = { x.obs with custodial := false } ∧ y.blk = default ∧ y.regs = x.regs ∧ y.live = x.live ∧
      y.pc = if a = 0 then x.custody.record.block else a)

/-- R54, R66, R72, R454: what the firing of a word leaves unchanged, whether it completes, waits or faults: every memory, the W, A and C
stores and their tags, the clock, the fuses, the schedule, and in every slot the activity, its registers, its held set and its address;
the S stores too, where the block goes on, and else but for the bytes of the trap queue into which the trap's record goes, and of its
core's run ring (a core with redundant activities, whose store port mirrors what it writes, is left out of the second). A load that
consumes an uncorrectable error for the second time restarts its open region, whose live-in registers and address come back (R454). A
faulting firing takes the trap in the same step (log 8), and one that waits changes nothing (log 16). -/
def Obligations.FiringFrame : Prop :=
  ∀ (s t : State) (r : Row) (w : W32), plainRow r = true → exec (build r w) s = .next t →
    t.hbm = s.hbm ∧ t.hbmTags = s.hbmTags ∧ t.far = s.far ∧ t.host = s.host ∧ t.cycle = s.cycle ∧ t.fuses = s.fuses ∧ t.schedule = s.schedule ∧
    t.colls = s.colls ∧ t.keys = s.keys ∧
    (∀ c k, SlotKept (s.slot c k) (t.slot c k) ∨ ((c, k) = (s.here.1, s.here.2.1) ∧ r.isLoad = true ∧ RegionRestarts (s.slot c k) (t.slot c k))) ∧
    (∀ c, (t.core c).w.bytes = (s.core c).w.bytes ∧ (t.core c).a.bytes = (s.core c).a.bytes ∧ (t.core c).c.bytes = (s.core c).c.bytes ∧
      (t.core c).w.tags = (s.core c).w.tags ∧ (t.core c).a.tags = (s.core c).a.tags ∧ (t.core c).ports = (s.core c).ports ∧
      (t.core c).mx = (s.core c).mx ∧ (t.core c).porter = (s.core c).porter) ∧
    ((t.slot s.here.1 s.here.2.1).blk.phase = 2 → ∀ c, (t.core c).s.bytes = (s.core c).s.bytes ∧ (t.core c).s.tags = (s.core c).s.tags) ∧
    (let n := (s.core s.here.1).lodging
     (∀ q off, s.trapQueue n = some (q, off) → ∀ e ∈ (s.core q).slots, e.2.twin = none) →
     ∀ c a, ¬ trapByte s n c a → mapGet (t.core c).s.bytes a = mapGet (s.core c).s.bytes a)
end

