-- ==== Sys2Proof/Laws/Fire.lean ====
section
/-! SUPPORT. What firing an instruction does, once for all of them: from what has reached it, what its own effect is. -/

namespace Sys2Proof.Claims
open Sys2Proof.Machine

/-- What a form has in its slots, the ones it does not read at their default. -/
def seen (s : State) (f : Form) : Ctx :=
  ctxOf s f.row ((opnd s 0).getD default) ((opnd s 1).getD default) ((opnd s 2).getD default) allLanes

/-- An instruction all of whose operands have arrived is ready (R54, R60). -/
theorem ready_of {f : Form} (get : Nat → Option Value) (below : Bool) (a0 : f.arity < 1 ∨ (get 0).isSome) (a1 : f.arity < 2 ∨ (get 1).isSome)
    (a2 : f.arity < 3 ∨ (get 2).isSome) (ap : f.pr = 0 ∨ (get 3).isSome) (al : f.row.isLoad = false ∨ below = true) : f.ready get below = true := by
  have h : ((f.pr == 0 || (get 3).isSome) && (decide (f.arity < 1) || (get 0).isSome) && (decide (f.arity < 2) || (get 1).isSome)
      && (decide (f.arity < 3) || (get 2).isSome) && (!f.row.isLoad || below)) = true := by
    simp only [Bool.and_eq_true, Bool.or_eq_true, beq_iff_eq, decide_eq_true_eq, Bool.not_eq_true']
    exact ⟨⟨⟨⟨ap, a0⟩, a1⟩, a2⟩, al⟩
  unfold Form.ready
  simp only [h, Bool.true_or]
theorem ctx_eq {s : State} (f : Form) (h : MayFire s) (a0 : f.arity < 1 ∨ (opnd s 0).isSome) (a1 : f.arity < 2 ∨ (opnd s 1).isSome)
    (a2 : f.arity < 3 ∨ (opnd s 2).isSome) (ap : f.pr = 0 ∨ (opnd s 3).isSome)
    (al : f.row.isLoad = false ∨ storesDone (blkOf s) (lsidOf (wordOf s)).toNat = true) :
    s.ctx f = some (seen s f, (opnd s 3).getD default) := by
  refine if_pos ⟨h.admitted, h.free, ?_, h.inBlock, h.unfired, ?_⟩
  · have := h.powered
    show (!(s.core s.here.1).gated) = true
    simp [this]
  · exact ready_of (opnd s) _ a0 a1 a2 ap al

/-- R56 and R57: the predicate lets the instruction run on the lanes of the mask. -/
theorem readPred_eq {s : State} {pr : BitVec 2} {m : BitVec 16} (h : Runs s pr m) :
    (pr.toNat = 0 ∨ (opnd s 3).isSome) ∧ readPred pr.toNat ((opnd s 3).getD default) = .run m := by
  cases h with
  | always => exact ⟨.inl rfl, rfl⟩
  | masked p h d v => exact ⟨.inr (by simp [h.arrived]), by simp [h.arrived, readPred, h.real, d, v]⟩
  | maskNull p h d v => exact ⟨.inr (by simp [h.arrived]), by simp [h.arrived, readPred, h.real, d, v]⟩
  | onTrue p h d v x => exact ⟨.inr (by simp [h.arrived]), by simp [h.arrived, readPred, h.real, d, v]; exact if_neg x⟩
  | onFalse p h d v x => exact ⟨.inr (by simp [h.arrived]), by simp [h.arrived, readPred, h.real, d, v, x]; rfl⟩

/-- The phase of the block that fires, through the update of a block. -/
theorem finish_eq (s s' : State) (f : Form) (row : Row) (l r t v0 v1 : Value) (m : BitVec 16) (evs : List Nat) (hh : s'.here = s.here)
    (hp : (blkOf s').phase = 2) :
    (ctxOf s row l r t m).finish f { s := s', v0 := v0, v1 := v1, evs := evs } = fired s' f.t1 f.t0 v0 v1 evs := by
  have e1 : s.here.1 = s'.here.1 := by rw [hh]
  have e2 : s.here.2.1 = s'.here.2.1 := by rw [hh]
  have e3 : indexOf s = indexOf s' := by unfold indexOf; rw [hh]
  have hp' : (s'.slot s'.here.1 s'.here.2.1).blk.phase = 2 := hp
  unfold Ctx.finish fired ctxOf
  simp only [e1, e2, e3, hp', bne_self_eq_false, Bool.false_eq_true, if_false]

/-- An operand that counts as no null token (R58, R471). -/
structure Whole (s : State) (f : Form) : Prop where
  l : f.arity < 1 ∨ ∃ v, opnd s 0 = some v ∧ v.null = false ∧ (f.wl = 0 ∨ v.validTo f.wl = true)
  r : f.arity < 2 ∨ ∃ v, opnd s 1 = some v ∧ v.null = false ∧ (f.wr = 0 ∨ v.validTo f.wr = true)
  x : f.arity < 3 ∨ ∃ v, opnd s 2 = some v ∧ v.null = false ∧ (f.wx = 0 ∨ v.validTo f.wx = true)
  give : (f.row == .cusGive) = false ∨ targetNull ((opnd s 2).getD default) = false

/-- FIRING (R54 to R58, R471): an instruction whose operands have arrived, whose predicate lets it run and whose whole operands are
neither null nor BROKEN does what its own effect does, or waits for a lot unit (R346). -/
theorem fire_run {s : State} {f : Form} {pr : BitVec 2} {m : BitVec 16} (onNull : Ctx → State) (act : Ctx → Except Trap Fired)
    (h : MayFire s) (hr : Runs s pr m) (hpr : f.pr = pr.toNat) (hw : Whole s f)
    (hb : f.brokenWhole ((opnd s 0).getD default) ((opnd s 1).getD default) ((opnd s 2).getD default) = false)
    (al : f.row.isLoad = false ∨ storesDone (blkOf s) (lsidOf (wordOf s)).toNat = true) :
    s.fire f onNull act =
      match act { seen s f with mask := m } with
      | .error t => .next (if t.code = tAway then s.waitsAway s.here.1 s.here.2.1 else traps s t)
      | .ok x => .next ((seen s f).finish f x) := by
  have hp := readPred_eq hr
  have c := ctx_eq f h (hw.l.imp id (fun ⟨v, hv, _⟩ => by simp [hv])) (hw.r.imp id (fun ⟨v, hv, _⟩ => by simp [hv]))
    (hw.x.imp id (fun ⟨v, hv, _⟩ => by simp [hv])) (by rw [hpr]; exact hp.1) al
  unfold State.fire
  rw [c]
  simp only
  rw [hpr, hp.2]
  simp only
  have n0 : nullOperand f.arity 0 f.wl ((opnd s 0).getD default) = false := by
    rcases hw.l with a | ⟨v, hv, hn, hl⟩
    · simp [nullOperand]; omega
    · rcases hl with hl | hl <;> simp [nullOperand, hv, hn, hl]
  have n1 : nullOperand f.arity 1 f.wr ((opnd s 1).getD default) = false := by
    rcases hw.r with a | ⟨v, hv, hn, hl⟩
    · simp [nullOperand]; omega
    · rcases hl with hl | hl <;> simp [nullOperand, hv, hn, hl]
  have n2 : nullOperand f.arity 2 f.wx ((opnd s 2).getD default) = false := by
    rcases hw.x with a | ⟨v, hv, hn, hl⟩
    · simp [nullOperand]; omega
    · rcases hl with hl | hl <;> simp [nullOperand, hv, hn, hl]
  have e : f.nullData (seen s f) = false := by
    show f.nullOf ((opnd s 0).getD default) ((opnd s 1).getD default) ((opnd s 2).getD default) = false
    have g : (f.row == .cusGive && targetNull ((opnd s 2).getD default)) = false := by rcases hw.give with h | h <;> simp [h]
    unfold Form.nullOf; simp only [n0, n1, n2, g, Bool.or_self]
  have b : f.brokenWhole (seen s f).l (seen s f).r (seen s f).t = false := hb
  rw [e, b]
  simp only [Bool.false_eq_true, if_false]
  cases act { seen s f with mask := m } <;> rfl

end Sys2Proof.Claims
end

