-- ==== Sys2Proof/Laws/Forms.lean ====
section
/-! SUPPORT. How every word takes its operands: each meaning is one firing, in the form that the tables of R52 to R58 give its row. -/

namespace Sys2Proof.Claims
open Sys2Proof.Machine

/-- A form is the one of a row's words. -/
structure Fits (f : Form) (r : Row) (w : W32) : Prop where
  row : f.row = r
  arity : f.arity = r.arity
  pr : f.pr = predOf r w
  t1 : f.t1 = target1 r w
  t0 : f.t0 = target0 r w
/-- What a null token does beside passing on, as a firing sees it. -/
def nullOf (r : Row) (w : W32) (c : Ctx) : State :=
  if r.completes && r != .call then nullLanding (wReg w).toNat c
  else if r.isStore then nullStore (lsidOf w).toNat c else c.s

/-- What holds of every firing of a row's form holds of exec on the row's words. -/
theorem exec_fires (r : Row) (w : W32) (s : State) (h : plainRow r = true) {P : Out → Prop}
    (now : ∀ f n act, Fits f r w → (∀ c, n c = nullOf r w c) → P (s.fire f n act))
    (later : ∀ f act, Fits f r w → (∀ c, nullOf r w c = c.s) → P (s.fireLater f act)) : P (exec (build r w) s) := by
  cases r with
  | extWide => exact absurd h (by decide)
  | extHint => exact absurd h (by decide)
  | extModifier => exact absurd h (by decide)
  | read => exact absurd h (by decide)
  | port => exact absurd h (by decide)
  | write => show P (execWrite _ _ s); unfold execWrite; exact now _ _ _ ⟨rfl, rfl, rfl, rfl, rfl⟩ fun _ => rfl
  | wport => show P (execWport _ _ s); unfold execWport; exact now _ _ _ ⟨rfl, rfl, rfl, rfl, rfl⟩ fun _ => rfl
  | null => show P (execNull _ _ _ s); unfold execNull; exact now _ _ _ ⟨rfl, rfl, rfl, rfl, rfl⟩ fun _ => rfl
  | mov => show P (execMov _ _ _ s); unfold execMov; exact now _ _ _ ⟨rfl, rfl, rfl, rfl, rfl⟩ fun _ => rfl
  | bro => show P (execBro _ _ s); unfold execBro; exact now _ _ _ ⟨rfl, rfl, rfl, rfl, rfl⟩ fun _ => rfl
  | call => show P (execCall _ _ _ s); unfold execCall; exact now _ _ _ ⟨rfl, rfl, rfl, rfl, rfl⟩ fun _ => rfl
  | brc => show P (execBrc _ s); unfold execBrc; exact now _ _ _ ⟨rfl, rfl, rfl, rfl, rfl⟩ fun _ => rfl
  | ret => show P (execRet _ s); unfold execRet; exact now _ _ _ ⟨rfl, rfl, rfl, rfl, rfl⟩ fun _ => rfl
  | callc => show P (execCallc _ _ s); unfold execCallc; exact now _ _ _ ⟨rfl, rfl, rfl, rfl, rfl⟩ fun _ => rfl
  | exit => show P (execExit _ s); unfold execExit; exact now _ _ _ ⟨rfl, rfl, rfl, rfl, rfl⟩ fun _ => rfl
  | yield => show P (execYield _ _ s); unfold execYield; exact now _ _ _ ⟨rfl, rfl, rfl, rfl, rfl⟩ fun _ => rfl
  | handoff => show P (execHandoff _ s); unfold execHandoff; exact now _ _ _ ⟨rfl, rfl, rfl, rfl, rfl⟩ fun _ => rfl
  | sleep => show P (execSleep _ s); unfold execSleep; exact now _ _ _ ⟨rfl, rfl, rfl, rfl, rfl⟩ fun _ => rfl
  | add => show P (execAdd _ _ _ _ s); unfold execAdd; exact now _ _ _ ⟨rfl, rfl, rfl, rfl, rfl⟩ fun _ => rfl
  | sub => show P (execSub _ _ _ _ s); unfold execSub; exact now _ _ _ ⟨rfl, rfl, rfl, rfl, rfl⟩ fun _ => rfl
  | and => show P (execAnd _ _ _ _ s); unfold execAnd; exact now _ _ _ ⟨rfl, rfl, rfl, rfl, rfl⟩ fun _ => rfl
  | or => show P (execOr _ _ _ _ s); unfold execOr; exact now _ _ _ ⟨rfl, rfl, rfl, rfl, rfl⟩ fun _ => rfl
  | xor => show P (execXor _ _ _ _ s); unfold execXor; exact now _ _ _ ⟨rfl, rfl, rfl, rfl, rfl⟩ fun _ => rfl
  | andn => show P (execAndn _ _ _ _ s); unfold execAndn; exact now _ _ _ ⟨rfl, rfl, rfl, rfl, rfl⟩ fun _ => rfl
  | shl => show P (execShl _ _ _ _ s); unfold execShl; exact now _ _ _ ⟨rfl, rfl, rfl, rfl, rfl⟩ fun _ => rfl
  | shr => show P (execShr _ _ _ _ s); unfold execShr; exact now _ _ _ ⟨rfl, rfl, rfl, rfl, rfl⟩ fun _ => rfl
  | sra => show P (execSra _ _ _ _ s); unfold execSra; exact now _ _ _ ⟨rfl, rfl, rfl, rfl, rfl⟩ fun _ => rfl
  | rol => show P (execRol _ _ _ _ s); unfold execRol; exact now _ _ _ ⟨rfl, rfl, rfl, rfl, rfl⟩ fun _ => rfl
  | min => show P (execMin _ _ _ _ s); unfold execMin; exact now _ _ _ ⟨rfl, rfl, rfl, rfl, rfl⟩ fun _ => rfl
  | max => show P (execMax _ _ _ _ s); unfold execMax; exact now _ _ _ ⟨rfl, rfl, rfl, rfl, rfl⟩ fun _ => rfl
  | minn => show P (execMinn _ _ _ _ s); unfold execMinn; exact now _ _ _ ⟨rfl, rfl, rfl, rfl, rfl⟩ fun _ => rfl
  | maxn => show P (execMaxn _ _ _ _ s); unfold execMaxn; exact now _ _ _ ⟨rfl, rfl, rfl, rfl, rfl⟩ fun _ => rfl
  | sel => show P (execSel _ _ _ _ s); unfold execSel; exact now _ _ _ ⟨rfl, rfl, rfl, rfl, rfl⟩ fun _ => rfl
  | mul => show P (execMul _ _ _ _ s); unfold execMul; exact now _ _ _ ⟨rfl, rfl, rfl, rfl, rfl⟩ fun _ => rfl
  | mulh => show P (execMulh _ _ _ _ s); unfold execMulh; exact now _ _ _ ⟨rfl, rfl, rfl, rfl, rfl⟩ fun _ => rfl
  | mulhn => show P (execMulhn _ _ _ _ s); unfold execMulhn; exact now _ _ _ ⟨rfl, rfl, rfl, rfl, rfl⟩ fun _ => rfl
  | div => show P (execDiv _ _ _ _ s); unfold execDiv; exact now _ _ _ ⟨rfl, rfl, rfl, rfl, rfl⟩ fun _ => rfl
  | divn => show P (execDivn _ _ _ _ s); unfold execDivn; exact now _ _ _ ⟨rfl, rfl, rfl, rfl, rfl⟩ fun _ => rfl
  | rem => show P (execRem _ _ _ _ s); unfold execRem; exact now _ _ _ ⟨rfl, rfl, rfl, rfl, rfl⟩ fun _ => rfl
  | remn => show P (execRemn _ _ _ _ s); unfold execRemn; exact now _ _ _ ⟨rfl, rfl, rfl, rfl, rfl⟩ fun _ => rfl
  | clz => show P (execClz _ _ _ s); unfold execClz; exact now _ _ _ ⟨rfl, rfl, rfl, rfl, rfl⟩ fun _ => rfl
  | ctz => show P (execCtz _ _ _ s); unfold execCtz; exact now _ _ _ ⟨rfl, rfl, rfl, rfl, rfl⟩ fun _ => rfl
  | pop => show P (execPop _ _ _ s); unfold execPop; exact now _ _ _ ⟨rfl, rfl, rfl, rfl, rfl⟩ fun _ => rfl
  | sext8 => show P (execSext8 _ _ _ s); unfold execSext8; exact now _ _ _ ⟨rfl, rfl, rfl, rfl, rfl⟩ fun _ => rfl
  | sext16 => show P (execSext16 _ _ _ s); unfold execSext16; exact now _ _ _ ⟨rfl, rfl, rfl, rfl, rfl⟩ fun _ => rfl
  | sext32 => show P (execSext32 _ _ _ s); unfold execSext32; exact now _ _ _ ⟨rfl, rfl, rfl, rfl, rfl⟩ fun _ => rfl
  | zext8 => show P (execZext8 _ _ _ s); unfold execZext8; exact now _ _ _ ⟨rfl, rfl, rfl, rfl, rfl⟩ fun _ => rfl
  | zext16 => show P (execZext16 _ _ _ s); unfold execZext16; exact now _ _ _ ⟨rfl, rfl, rfl, rfl, rfl⟩ fun _ => rfl
  | zext32 => show P (execZext32 _ _ _ s); unfold execZext32; exact now _ _ _ ⟨rfl, rfl, rfl, rfl, rfl⟩ fun _ => rfl
  | brev => show P (execBrev _ _ _ s); unfold execBrev; exact now _ _ _ ⟨rfl, rfl, rfl, rfl, rfl⟩ fun _ => rfl
  | bswap => show P (execBswap _ _ _ s); unfold execBswap; exact now _ _ _ ⟨rfl, rfl, rfl, rfl, rfl⟩ fun _ => rfl
  | teq => show P (execTeq _ _ _ _ s); unfold execTeq; exact now _ _ _ ⟨rfl, rfl, rfl, rfl, rfl⟩ fun _ => rfl
  | tne => show P (execTne _ _ _ _ s); unfold execTne; exact now _ _ _ ⟨rfl, rfl, rfl, rfl, rfl⟩ fun _ => rfl
  | tlt => show P (execTlt _ _ _ _ s); unfold execTlt; exact now _ _ _ ⟨rfl, rfl, rfl, rfl, rfl⟩ fun _ => rfl
  | tle => show P (execTle _ _ _ _ s); unfold execTle; exact now _ _ _ ⟨rfl, rfl, rfl, rfl, rfl⟩ fun _ => rfl
  | tltn => show P (execTltn _ _ _ _ s); unfold execTltn; exact now _ _ _ ⟨rfl, rfl, rfl, rfl, rfl⟩ fun _ => rfl
  | tlen => show P (execTlen _ _ _ _ s); unfold execTlen; exact now _ _ _ ⟨rfl, rfl, rfl, rfl, rfl⟩ fun _ => rfl
  | tbit => show P (execTbit _ _ _ s); unfold execTbit; exact now _ _ _ ⟨rfl, rfl, rfl, rfl, rfl⟩ fun _ => rfl
  | pand => show P (execPand _ _ _ s); unfold execPand; exact now _ _ _ ⟨rfl, rfl, rfl, rfl, rfl⟩ fun _ => rfl
  | por => show P (execPor _ _ _ s); unfold execPor; exact now _ _ _ ⟨rfl, rfl, rfl, rfl, rfl⟩ fun _ => rfl
  | pxor => show P (execPxor _ _ _ s); unfold execPxor; exact now _ _ _ ⟨rfl, rfl, rfl, rfl, rfl⟩ fun _ => rfl
  | pnot => show P (execPnot _ _ _ s); unfold execPnot; exact now _ _ _ ⟨rfl, rfl, rfl, rfl, rfl⟩ fun _ => rfl
  | pany => show P (execPany _ _ _ s); unfold execPany; exact now _ _ _ ⟨rfl, rfl, rfl, rfl, rfl⟩ fun _ => rfl
  | pall => show P (execPall _ _ _ s); unfold execPall; exact now _ _ _ ⟨rfl, rfl, rfl, rfl, rfl⟩ fun _ => rfl
  | pcnt => show P (execPcnt _ _ _ s); unfold execPcnt; exact now _ _ _ ⟨rfl, rfl, rfl, rfl, rfl⟩ fun _ => rfl
  | pfirst => show P (execPfirst _ _ _ s); unfold execPfirst; exact now _ _ _ ⟨rfl, rfl, rfl, rfl, rfl⟩ fun _ => rfl
  | addi => show P (execAddi _ _ _ s); unfold execAddi; exact now _ _ _ ⟨rfl, rfl, rfl, rfl, rfl⟩ fun _ => rfl
  | addiw => show P (execAddiw _ _ _ s); unfold execAddiw; exact now _ _ _ ⟨rfl, rfl, rfl, rfl, rfl⟩ fun _ => rfl
  | andi => show P (execAndi _ _ _ s); unfold execAndi; exact now _ _ _ ⟨rfl, rfl, rfl, rfl, rfl⟩ fun _ => rfl
  | ori => show P (execOri _ _ _ s); unfold execOri; exact now _ _ _ ⟨rfl, rfl, rfl, rfl, rfl⟩ fun _ => rfl
  | xori => show P (execXori _ _ _ s); unfold execXori; exact now _ _ _ ⟨rfl, rfl, rfl, rfl, rfl⟩ fun _ => rfl
  | shli => show P (execShli _ _ _ s); unfold execShli; exact now _ _ _ ⟨rfl, rfl, rfl, rfl, rfl⟩ fun _ => rfl
  | shri => show P (execShri _ _ _ s); unfold execShri; exact now _ _ _ ⟨rfl, rfl, rfl, rfl, rfl⟩ fun _ => rfl
  | srai => show P (execSrai _ _ _ s); unfold execSrai; exact now _ _ _ ⟨rfl, rfl, rfl, rfl, rfl⟩ fun _ => rfl
  | muli => show P (execMuli _ _ _ s); unfold execMuli; exact now _ _ _ ⟨rfl, rfl, rfl, rfl, rfl⟩ fun _ => rfl
  | teqi => show P (execTeqi _ _ _ s); unfold execTeqi; exact now _ _ _ ⟨rfl, rfl, rfl, rfl, rfl⟩ fun _ => rfl
  | tnei => show P (execTnei _ _ _ s); unfold execTnei; exact now _ _ _ ⟨rfl, rfl, rfl, rfl, rfl⟩ fun _ => rfl
  | tlti => show P (execTlti _ _ _ s); unfold execTlti; exact now _ _ _ ⟨rfl, rfl, rfl, rfl, rfl⟩ fun _ => rfl
  | tlei => show P (execTlei _ _ _ s); unfold execTlei; exact now _ _ _ ⟨rfl, rfl, rfl, rfl, rfl⟩ fun _ => rfl
  | tltni => show P (execTltni _ _ _ s); unfold execTltni; exact now _ _ _ ⟨rfl, rfl, rfl, rfl, rfl⟩ fun _ => rfl
  | movi => show P (execMovi _ _ _ s); unfold execMovi; exact now _ _ _ ⟨rfl, rfl, rfl, rfl, rfl⟩ fun _ => rfl
  | movif => show P (execMovif _ _ _ s); unfold execMovif; exact now _ _ _ ⟨rfl, rfl, rfl, rfl, rfl⟩ fun _ => rfl
  | cadd => show P (execCadd _ _ _ s); unfold execCadd; exact now _ _ _ ⟨rfl, rfl, rfl, rfl, rfl⟩ fun _ => rfl
  | cseta => show P (execCseta _ _ _ s); unfold execCseta; exact now _ _ _ ⟨rfl, rfl, rfl, rfl, rfl⟩ fun _ => rfl
  | csetb => show P (execCsetb _ _ _ s); unfold execCsetb; exact now _ _ _ ⟨rfl, rfl, rfl, rfl, rfl⟩ fun _ => rfl
  | csetbx => show P (execCsetbx _ _ _ s); unfold execCsetbx; exact now _ _ _ ⟨rfl, rfl, rfl, rfl, rfl⟩ fun _ => rfl
  | cperm => show P (execCperm _ _ _ s); unfold execCperm; exact now _ _ _ ⟨rfl, rfl, rfl, rfl, rfl⟩ fun _ => rfl
  | cseal => show P (execCseal _ _ _ s); unfold execCseal; exact now _ _ _ ⟨rfl, rfl, rfl, rfl, rfl⟩ fun _ => rfl
  | cunseal => show P (execCunseal _ _ _ s); unfold execCunseal; exact now _ _ _ ⟨rfl, rfl, rfl, rfl, rfl⟩ fun _ => rfl
  | cgeta => show P (execCgeta _ _ _ s); unfold execCgeta; exact now _ _ _ ⟨rfl, rfl, rfl, rfl, rfl⟩ fun _ => rfl
  | cgetb => show P (execCgetb _ _ _ s); unfold execCgetb; exact now _ _ _ ⟨rfl, rfl, rfl, rfl, rfl⟩ fun _ => rfl
  | cgetl => show P (execCgetl _ _ _ s); unfold execCgetl; exact now _ _ _ ⟨rfl, rfl, rfl, rfl, rfl⟩ fun _ => rfl
  | cgetp => show P (execCgetp _ _ _ s); unfold execCgetp; exact now _ _ _ ⟨rfl, rfl, rfl, rfl, rfl⟩ fun _ => rfl
  | cgetk => show P (execCgetk _ _ _ s); unfold execCgetk; exact now _ _ _ ⟨rfl, rfl, rfl, rfl, rfl⟩ fun _ => rfl
  | ctagt => show P (execCtagt _ _ _ s); unfold execCtagt; exact now _ _ _ ⟨rfl, rfl, rfl, rfl, rfl⟩ fun _ => rfl
  | csub => show P (execCsub _ _ _ s); unfold execCsub; exact now _ _ _ ⟨rfl, rfl, rfl, rfl, rfl⟩ fun _ => rfl
  | ceq => show P (execCeq _ _ _ s); unfold execCeq; exact now _ _ _ ⟨rfl, rfl, rfl, rfl, rfl⟩ fun _ => rfl
  | cclr => show P (execCclr _ _ _ s); unfold execCclr; exact now _ _ _ ⟨rfl, rfl, rfl, rfl, rfl⟩ fun _ => rfl
  | caddi => show P (execCaddi _ _ _ s); unfold execCaddi; exact now _ _ _ ⟨rfl, rfl, rfl, rfl, rfl⟩ fun _ => rfl
  | ldI8 => show P (execLdI8 _ _ _ _ s); unfold execLdI8; exact now _ _ _ ⟨rfl, rfl, rfl, rfl, rfl⟩ fun _ => rfl
  | ldN8 => show P (execLdN8 _ _ _ _ s); unfold execLdN8; exact now _ _ _ ⟨rfl, rfl, rfl, rfl, rfl⟩ fun _ => rfl
  | ldI16 => show P (execLdI16 _ _ _ _ s); unfold execLdI16; exact now _ _ _ ⟨rfl, rfl, rfl, rfl, rfl⟩ fun _ => rfl
  | ldN16 => show P (execLdN16 _ _ _ _ s); unfold execLdN16; exact now _ _ _ ⟨rfl, rfl, rfl, rfl, rfl⟩ fun _ => rfl
  | ldI32 => show P (execLdI32 _ _ _ _ s); unfold execLdI32; exact now _ _ _ ⟨rfl, rfl, rfl, rfl, rfl⟩ fun _ => rfl
  | ldN32 => show P (execLdN32 _ _ _ _ s); unfold execLdN32; exact now _ _ _ ⟨rfl, rfl, rfl, rfl, rfl⟩ fun _ => rfl
  | ld64 => show P (execLd64 _ _ _ _ s); unfold execLd64; exact now _ _ _ ⟨rfl, rfl, rfl, rfl, rfl⟩ fun _ => rfl
  | ldv => show P (execLdv _ _ _ _ s); unfold execLdv; exact now _ _ _ ⟨rfl, rfl, rfl, rfl, rfl⟩ fun _ => rfl
  | ldc => show P (execLdc _ _ _ _ s); unfold execLdc; exact now _ _ _ ⟨rfl, rfl, rfl, rfl, rfl⟩ fun _ => rfl
  | vgather => show P (execVgather _ _ _ _ s); unfold execVgather; exact now _ _ _ ⟨rfl, rfl, rfl, rfl, rfl⟩ fun _ => rfl
  | st8 => show P (execSt8 _ _ _ s); unfold execSt8; exact now _ _ _ ⟨rfl, rfl, rfl, rfl, rfl⟩ fun _ => rfl
  | st16 => show P (execSt16 _ _ _ s); unfold execSt16; exact now _ _ _ ⟨rfl, rfl, rfl, rfl, rfl⟩ fun _ => rfl
  | st32 => show P (execSt32 _ _ _ s); unfold execSt32; exact now _ _ _ ⟨rfl, rfl, rfl, rfl, rfl⟩ fun _ => rfl
  | st64 => show P (execSt64 _ _ _ s); unfold execSt64; exact now _ _ _ ⟨rfl, rfl, rfl, rfl, rfl⟩ fun _ => rfl
  | stv => show P (execStv _ _ _ s); unfold execStv; exact now _ _ _ ⟨rfl, rfl, rfl, rfl, rfl⟩ fun _ => rfl
  | stc => show P (execStc _ _ _ s); unfold execStc; exact now _ _ _ ⟨rfl, rfl, rfl, rfl, rfl⟩ fun _ => rfl
  | vscatter => show P (execVscatter _ _ _ s); unfold execVscatter; exact now _ _ _ ⟨rfl, rfl, rfl, rfl, rfl⟩ fun _ => rfl
  | qld => show P (execQld _ _ _ _ s); unfold execQld; exact now _ _ _ ⟨rfl, rfl, rfl, rfl, rfl⟩ fun _ => rfl
  | qst => show P (execQst _ _ _ s); unfold execQst; exact now _ _ _ ⟨rfl, rfl, rfl, rfl, rfl⟩ fun _ => rfl
  | aad => show P (execAad _ _ _ _ _ s); unfold execAad; exact now _ _ _ ⟨rfl, rfl, rfl, rfl, rfl⟩ fun _ => rfl
  | aswp => show P (execAswp _ _ _ _ _ s); unfold execAswp; exact now _ _ _ ⟨rfl, rfl, rfl, rfl, rfl⟩ fun _ => rfl
  | acas => show P (execAcas _ _ _ _ _ s); unfold execAcas; exact now _ _ _ ⟨rfl, rfl, rfl, rfl, rfl⟩ fun _ => rfl
  | amin => show P (execAmin _ _ _ _ _ s); unfold execAmin; exact now _ _ _ ⟨rfl, rfl, rfl, rfl, rfl⟩ fun _ => rfl
  | amax => show P (execAmax _ _ _ _ _ s); unfold execAmax; exact now _ _ _ ⟨rfl, rfl, rfl, rfl, rfl⟩ fun _ => rfl
  | aminn => show P (execAminn _ _ _ _ _ s); unfold execAminn; exact now _ _ _ ⟨rfl, rfl, rfl, rfl, rfl⟩ fun _ => rfl
  | amaxn => show P (execAmaxn _ _ _ _ _ s); unfold execAmaxn; exact now _ _ _ ⟨rfl, rfl, rfl, rfl, rfl⟩ fun _ => rfl
  | aand => show P (execAand _ _ _ _ _ s); unfold execAand; exact now _ _ _ ⟨rfl, rfl, rfl, rfl, rfl⟩ fun _ => rfl
  | aor => show P (execAor _ _ _ _ _ s); unfold execAor; exact now _ _ _ ⟨rfl, rfl, rfl, rfl, rfl⟩ fun _ => rfl
  | axor => show P (execAxor _ _ _ _ _ s); unfold execAxor; exact now _ _ _ ⟨rfl, rfl, rfl, rfl, rfl⟩ fun _ => rfl
  | fenceAcq => show P (execFenceAcq _ _ s); unfold execFenceAcq; exact now _ _ _ ⟨rfl, rfl, rfl, rfl, rfl⟩ fun _ => rfl
  | fenceRel => show P (execFenceRel _ _ s); unfold execFenceRel; exact now _ _ _ ⟨rfl, rfl, rfl, rfl, rfl⟩ fun _ => rfl
  | fenceFull => show P (execFenceFull _ _ s); unfold execFenceFull; exact now _ _ _ ⟨rfl, rfl, rfl, rfl, rfl⟩ fun _ => rfl
  | vadd => show P (execVadd _ _ _ _ s); unfold execVadd; exact now _ _ _ ⟨rfl, rfl, rfl, rfl, rfl⟩ fun _ => rfl
  | vsub => show P (execVsub _ _ _ _ s); unfold execVsub; exact now _ _ _ ⟨rfl, rfl, rfl, rfl, rfl⟩ fun _ => rfl
  | vmul => show P (execVmul _ _ _ _ s); unfold execVmul; exact now _ _ _ ⟨rfl, rfl, rfl, rfl, rfl⟩ fun _ => rfl
  | vdiv => show P (execVdiv _ _ _ _ s); unfold execVdiv; exact now _ _ _ ⟨rfl, rfl, rfl, rfl, rfl⟩ fun _ => rfl
  | vmin => show P (execVmin _ _ _ _ s); unfold execVmin; exact now _ _ _ ⟨rfl, rfl, rfl, rfl, rfl⟩ fun _ => rfl
  | vmax => show P (execVmax _ _ _ _ s); unfold execVmax; exact now _ _ _ ⟨rfl, rfl, rfl, rfl, rfl⟩ fun _ => rfl
  | vabs => show P (execVabs _ _ _ _ s); unfold execVabs; exact now _ _ _ ⟨rfl, rfl, rfl, rfl, rfl⟩ fun _ => rfl
  | vneg => show P (execVneg _ _ _ _ s); unfold execVneg; exact now _ _ _ ⟨rfl, rfl, rfl, rfl, rfl⟩ fun _ => rfl
  | vsqrt => show P (execVsqrt _ _ _ _ s); unfold execVsqrt; exact now _ _ _ ⟨rfl, rfl, rfl, rfl, rfl⟩ fun _ => rfl
  | vrcp => show P (execVrcp _ _ _ _ s); unfold execVrcp; exact now _ _ _ ⟨rfl, rfl, rfl, rfl, rfl⟩ fun _ => rfl
  | vrsq => show P (execVrsq _ _ _ _ s); unfold execVrsq; exact now _ _ _ ⟨rfl, rfl, rfl, rfl, rfl⟩ fun _ => rfl
  | vexp2 => show P (execVexp2 _ _ _ _ s); unfold execVexp2; exact now _ _ _ ⟨rfl, rfl, rfl, rfl, rfl⟩ fun _ => rfl
  | vlog2 => show P (execVlog2 _ _ _ _ s); unfold execVlog2; exact now _ _ _ ⟨rfl, rfl, rfl, rfl, rfl⟩ fun _ => rfl
  | vtanh => show P (execVtanh _ _ _ _ s); unfold execVtanh; exact now _ _ _ ⟨rfl, rfl, rfl, rfl, rfl⟩ fun _ => rfl
  | vsin => show P (execVsin _ _ _ _ s); unfold execVsin; exact now _ _ _ ⟨rfl, rfl, rfl, rfl, rfl⟩ fun _ => rfl
  | vcos => show P (execVcos _ _ _ _ s); unfold execVcos; exact now _ _ _ ⟨rfl, rfl, rfl, rfl, rfl⟩ fun _ => rfl
  | vfloor => show P (execVfloor _ _ _ _ s); unfold execVfloor; exact now _ _ _ ⟨rfl, rfl, rfl, rfl, rfl⟩ fun _ => rfl
  | vceil => show P (execVceil _ _ _ _ s); unfold execVceil; exact now _ _ _ ⟨rfl, rfl, rfl, rfl, rfl⟩ fun _ => rfl
  | vrint => show P (execVrint _ _ _ _ s); unfold execVrint; exact now _ _ _ ⟨rfl, rfl, rfl, rfl, rfl⟩ fun _ => rfl
  | vclass => show P (execVclass _ _ _ _ s); unfold execVclass; exact now _ _ _ ⟨rfl, rfl, rfl, rfl, rfl⟩ fun _ => rfl
  | vaddF16 => show P (execVaddF16 _ _ _ _ s); unfold execVaddF16; exact now _ _ _ ⟨rfl, rfl, rfl, rfl, rfl⟩ fun _ => rfl
  | vsubF16 => show P (execVsubF16 _ _ _ _ s); unfold execVsubF16; exact now _ _ _ ⟨rfl, rfl, rfl, rfl, rfl⟩ fun _ => rfl
  | vmulF16 => show P (execVmulF16 _ _ _ _ s); unfold execVmulF16; exact now _ _ _ ⟨rfl, rfl, rfl, rfl, rfl⟩ fun _ => rfl
  | vdivF16 => show P (execVdivF16 _ _ _ _ s); unfold execVdivF16; exact now _ _ _ ⟨rfl, rfl, rfl, rfl, rfl⟩ fun _ => rfl
  | vminF16 => show P (execVminF16 _ _ _ _ s); unfold execVminF16; exact now _ _ _ ⟨rfl, rfl, rfl, rfl, rfl⟩ fun _ => rfl
  | vmaxF16 => show P (execVmaxF16 _ _ _ _ s); unfold execVmaxF16; exact now _ _ _ ⟨rfl, rfl, rfl, rfl, rfl⟩ fun _ => rfl
  | vabsF16 => show P (execVabsF16 _ _ _ _ s); unfold execVabsF16; exact now _ _ _ ⟨rfl, rfl, rfl, rfl, rfl⟩ fun _ => rfl
  | vnegF16 => show P (execVnegF16 _ _ _ _ s); unfold execVnegF16; exact now _ _ _ ⟨rfl, rfl, rfl, rfl, rfl⟩ fun _ => rfl
  | vsqrtF16 => show P (execVsqrtF16 _ _ _ _ s); unfold execVsqrtF16; exact now _ _ _ ⟨rfl, rfl, rfl, rfl, rfl⟩ fun _ => rfl
  | vrcpF16 => show P (execVrcpF16 _ _ _ _ s); unfold execVrcpF16; exact now _ _ _ ⟨rfl, rfl, rfl, rfl, rfl⟩ fun _ => rfl
  | vrsqF16 => show P (execVrsqF16 _ _ _ _ s); unfold execVrsqF16; exact now _ _ _ ⟨rfl, rfl, rfl, rfl, rfl⟩ fun _ => rfl
  | vexp2F16 => show P (execVexp2F16 _ _ _ _ s); unfold execVexp2F16; exact now _ _ _ ⟨rfl, rfl, rfl, rfl, rfl⟩ fun _ => rfl
  | vlog2F16 => show P (execVlog2F16 _ _ _ _ s); unfold execVlog2F16; exact now _ _ _ ⟨rfl, rfl, rfl, rfl, rfl⟩ fun _ => rfl
  | vtanhF16 => show P (execVtanhF16 _ _ _ _ s); unfold execVtanhF16; exact now _ _ _ ⟨rfl, rfl, rfl, rfl, rfl⟩ fun _ => rfl
  | vsinF16 => show P (execVsinF16 _ _ _ _ s); unfold execVsinF16; exact now _ _ _ ⟨rfl, rfl, rfl, rfl, rfl⟩ fun _ => rfl
  | vcosF16 => show P (execVcosF16 _ _ _ _ s); unfold execVcosF16; exact now _ _ _ ⟨rfl, rfl, rfl, rfl, rfl⟩ fun _ => rfl
  | vaddI32 => show P (execVaddI32 _ _ _ _ s); unfold execVaddI32; exact now _ _ _ ⟨rfl, rfl, rfl, rfl, rfl⟩ fun _ => rfl
  | vsubI32 => show P (execVsubI32 _ _ _ _ s); unfold execVsubI32; exact now _ _ _ ⟨rfl, rfl, rfl, rfl, rfl⟩ fun _ => rfl
  | vmulI32 => show P (execVmulI32 _ _ _ _ s); unfold execVmulI32; exact now _ _ _ ⟨rfl, rfl, rfl, rfl, rfl⟩ fun _ => rfl
  | vmulhI32 => show P (execVmulhI32 _ _ _ _ s); unfold execVmulhI32; exact now _ _ _ ⟨rfl, rfl, rfl, rfl, rfl⟩ fun _ => rfl
  | vminI32 => show P (execVminI32 _ _ _ _ s); unfold execVminI32; exact now _ _ _ ⟨rfl, rfl, rfl, rfl, rfl⟩ fun _ => rfl
  | vmaxI32 => show P (execVmaxI32 _ _ _ _ s); unfold execVmaxI32; exact now _ _ _ ⟨rfl, rfl, rfl, rfl, rfl⟩ fun _ => rfl
  | vabsI32 => show P (execVabsI32 _ _ _ s); unfold execVabsI32; exact now _ _ _ ⟨rfl, rfl, rfl, rfl, rfl⟩ fun _ => rfl
  | vnegI32 => show P (execVnegI32 _ _ _ s); unfold execVnegI32; exact now _ _ _ ⟨rfl, rfl, rfl, rfl, rfl⟩ fun _ => rfl
  | vandI32 => show P (execVandI32 _ _ _ s); unfold execVandI32; exact now _ _ _ ⟨rfl, rfl, rfl, rfl, rfl⟩ fun _ => rfl
  | vorI32 => show P (execVorI32 _ _ _ s); unfold execVorI32; exact now _ _ _ ⟨rfl, rfl, rfl, rfl, rfl⟩ fun _ => rfl
  | vxorI32 => show P (execVxorI32 _ _ _ s); unfold execVxorI32; exact now _ _ _ ⟨rfl, rfl, rfl, rfl, rfl⟩ fun _ => rfl
  | vshlI32 => show P (execVshlI32 _ _ _ _ s); unfold execVshlI32; exact now _ _ _ ⟨rfl, rfl, rfl, rfl, rfl⟩ fun _ => rfl
  | vshrI32 => show P (execVshrI32 _ _ _ s); unfold execVshrI32; exact now _ _ _ ⟨rfl, rfl, rfl, rfl, rfl⟩ fun _ => rfl
  | vsraI32 => show P (execVsraI32 _ _ _ s); unfold execVsraI32; exact now _ _ _ ⟨rfl, rfl, rfl, rfl, rfl⟩ fun _ => rfl
  | vaddI16 => show P (execVaddI16 _ _ _ _ _ s); unfold execVaddI16; exact now _ _ _ ⟨rfl, rfl, rfl, rfl, rfl⟩ fun _ => rfl
  | vsubI16 => show P (execVsubI16 _ _ _ _ _ s); unfold execVsubI16; exact now _ _ _ ⟨rfl, rfl, rfl, rfl, rfl⟩ fun _ => rfl
  | vmulI16 => show P (execVmulI16 _ _ _ _ _ s); unfold execVmulI16; exact now _ _ _ ⟨rfl, rfl, rfl, rfl, rfl⟩ fun _ => rfl
  | vmulhI16 => show P (execVmulhI16 _ _ _ _ _ s); unfold execVmulhI16; exact now _ _ _ ⟨rfl, rfl, rfl, rfl, rfl⟩ fun _ => rfl
  | vminI16 => show P (execVminI16 _ _ _ _ _ s); unfold execVminI16; exact now _ _ _ ⟨rfl, rfl, rfl, rfl, rfl⟩ fun _ => rfl
  | vmaxI16 => show P (execVmaxI16 _ _ _ _ _ s); unfold execVmaxI16; exact now _ _ _ ⟨rfl, rfl, rfl, rfl, rfl⟩ fun _ => rfl
  | vabsI16 => show P (execVabsI16 _ _ _ _ s); unfold execVabsI16; exact now _ _ _ ⟨rfl, rfl, rfl, rfl, rfl⟩ fun _ => rfl
  | vnegI16 => show P (execVnegI16 _ _ _ _ s); unfold execVnegI16; exact now _ _ _ ⟨rfl, rfl, rfl, rfl, rfl⟩ fun _ => rfl
  | vandI16 => show P (execVandI16 _ _ _ _ s); unfold execVandI16; exact now _ _ _ ⟨rfl, rfl, rfl, rfl, rfl⟩ fun _ => rfl
  | vorI16 => show P (execVorI16 _ _ _ _ s); unfold execVorI16; exact now _ _ _ ⟨rfl, rfl, rfl, rfl, rfl⟩ fun _ => rfl
  | vxorI16 => show P (execVxorI16 _ _ _ _ s); unfold execVxorI16; exact now _ _ _ ⟨rfl, rfl, rfl, rfl, rfl⟩ fun _ => rfl
  | vshlI16 => show P (execVshlI16 _ _ _ _ _ s); unfold execVshlI16; exact now _ _ _ ⟨rfl, rfl, rfl, rfl, rfl⟩ fun _ => rfl
  | vshrI16 => show P (execVshrI16 _ _ _ _ s); unfold execVshrI16; exact now _ _ _ ⟨rfl, rfl, rfl, rfl, rfl⟩ fun _ => rfl
  | vsraI16 => show P (execVsraI16 _ _ _ _ s); unfold execVsraI16; exact now _ _ _ ⟨rfl, rfl, rfl, rfl, rfl⟩ fun _ => rfl
  | vfma => show P (execVfma _ _ _ _ s); unfold execVfma; exact now _ _ _ ⟨rfl, rfl, rfl, rfl, rfl⟩ fun _ => rfl
  | vfms => show P (execVfms _ _ _ _ s); unfold execVfms; exact now _ _ _ ⟨rfl, rfl, rfl, rfl, rfl⟩ fun _ => rfl
  | vnfma => show P (execVnfma _ _ _ _ s); unfold execVnfma; exact now _ _ _ ⟨rfl, rfl, rfl, rfl, rfl⟩ fun _ => rfl
  | vnfms => show P (execVnfms _ _ _ _ s); unfold execVnfms; exact now _ _ _ ⟨rfl, rfl, rfl, rfl, rfl⟩ fun _ => rfl
  | vcmpEq => show P (execVcmpEq _ _ _ _ s); unfold execVcmpEq; exact now _ _ _ ⟨rfl, rfl, rfl, rfl, rfl⟩ fun _ => rfl
  | vcmpNe => show P (execVcmpNe _ _ _ _ s); unfold execVcmpNe; exact now _ _ _ ⟨rfl, rfl, rfl, rfl, rfl⟩ fun _ => rfl
  | vcmpLt => show P (execVcmpLt _ _ _ _ s); unfold execVcmpLt; exact now _ _ _ ⟨rfl, rfl, rfl, rfl, rfl⟩ fun _ => rfl
  | vcmpLe => show P (execVcmpLe _ _ _ _ s); unfold execVcmpLe; exact now _ _ _ ⟨rfl, rfl, rfl, rfl, rfl⟩ fun _ => rfl
  | vcvtF32F64 => show P (execVcvtF32F64 _ _ _ s); unfold execVcvtF32F64; exact now _ _ _ ⟨rfl, rfl, rfl, rfl, rfl⟩ fun _ => rfl
  | vcvtF64F32 => show P (execVcvtF64F32 _ _ _ s); unfold execVcvtF64F32; exact now _ _ _ ⟨rfl, rfl, rfl, rfl, rfl⟩ fun _ => rfl
  | vcvtF16F32 => show P (execVcvtF16F32 _ _ _ s); unfold execVcvtF16F32; exact now _ _ _ ⟨rfl, rfl, rfl, rfl, rfl⟩ fun _ => rfl
  | vcvtF32F16 => show P (execVcvtF32F16 _ _ _ s); unfold execVcvtF32F16; exact now _ _ _ ⟨rfl, rfl, rfl, rfl, rfl⟩ fun _ => rfl
  | vcvtBf16F32 => show P (execVcvtBf16F32 _ _ _ s); unfold execVcvtBf16F32; exact now _ _ _ ⟨rfl, rfl, rfl, rfl, rfl⟩ fun _ => rfl
  | vcvtF32Bf16 => show P (execVcvtF32Bf16 _ _ _ s); unfold execVcvtF32Bf16; exact now _ _ _ ⟨rfl, rfl, rfl, rfl, rfl⟩ fun _ => rfl
  | vcvtE4m3F32 => show P (execVcvtE4m3F32 _ _ _ s); unfold execVcvtE4m3F32; exact now _ _ _ ⟨rfl, rfl, rfl, rfl, rfl⟩ fun _ => rfl
  | vcvtE5m2F32 => show P (execVcvtE5m2F32 _ _ _ s); unfold execVcvtE5m2F32; exact now _ _ _ ⟨rfl, rfl, rfl, rfl, rfl⟩ fun _ => rfl
  | vcvtE4m3F32Nosat => show P (execVcvtE4m3F32Nosat _ _ _ s); unfold execVcvtE4m3F32Nosat; exact now _ _ _ ⟨rfl, rfl, rfl, rfl, rfl⟩ fun _ => rfl
  | vcvtE5m2F32Nosat => show P (execVcvtE5m2F32Nosat _ _ _ s); unfold execVcvtE5m2F32Nosat; exact now _ _ _ ⟨rfl, rfl, rfl, rfl, rfl⟩ fun _ => rfl
  | vcvtF32E4m3 => show P (execVcvtF32E4m3 _ _ _ s); unfold execVcvtF32E4m3; exact now _ _ _ ⟨rfl, rfl, rfl, rfl, rfl⟩ fun _ => rfl
  | vcvtF32E5m2 => show P (execVcvtF32E5m2 _ _ _ s); unfold execVcvtF32E5m2; exact now _ _ _ ⟨rfl, rfl, rfl, rfl, rfl⟩ fun _ => rfl
  | vcvtI32F32 => show P (execVcvtI32F32 _ _ _ s); unfold execVcvtI32F32; exact now _ _ _ ⟨rfl, rfl, rfl, rfl, rfl⟩ fun _ => rfl
  | vcvtN32F32 => show P (execVcvtN32F32 _ _ _ s); unfold execVcvtN32F32; exact now _ _ _ ⟨rfl, rfl, rfl, rfl, rfl⟩ fun _ => rfl
  | vcvtF32I32 => show P (execVcvtF32I32 _ _ _ s); unfold execVcvtF32I32; exact now _ _ _ ⟨rfl, rfl, rfl, rfl, rfl⟩ fun _ => rfl
  | vcvtF32N32 => show P (execVcvtF32N32 _ _ _ s); unfold execVcvtF32N32; exact now _ _ _ ⟨rfl, rfl, rfl, rfl, rfl⟩ fun _ => rfl
  | vcvtI64F64 => show P (execVcvtI64F64 _ _ _ s); unfold execVcvtI64F64; exact now _ _ _ ⟨rfl, rfl, rfl, rfl, rfl⟩ fun _ => rfl
  | vcvtN64F64 => show P (execVcvtN64F64 _ _ _ s); unfold execVcvtN64F64; exact now _ _ _ ⟨rfl, rfl, rfl, rfl, rfl⟩ fun _ => rfl
  | vcvtF64I64 => show P (execVcvtF64I64 _ _ _ s); unfold execVcvtF64I64; exact now _ _ _ ⟨rfl, rfl, rfl, rfl, rfl⟩ fun _ => rfl
  | vcvtF64N64 => show P (execVcvtF64N64 _ _ _ s); unfold execVcvtF64N64; exact now _ _ _ ⟨rfl, rfl, rfl, rfl, rfl⟩ fun _ => rfl
  | vcvtI16I32 => show P (execVcvtI16I32 _ _ _ s); unfold execVcvtI16I32; exact now _ _ _ ⟨rfl, rfl, rfl, rfl, rfl⟩ fun _ => rfl
  | vcvtI8I32 => show P (execVcvtI8I32 _ _ _ s); unfold execVcvtI8I32; exact now _ _ _ ⟨rfl, rfl, rfl, rfl, rfl⟩ fun _ => rfl
  | vcvtI32I16 => show P (execVcvtI32I16 _ _ _ s); unfold execVcvtI32I16; exact now _ _ _ ⟨rfl, rfl, rfl, rfl, rfl⟩ fun _ => rfl
  | vcvtI32I8 => show P (execVcvtI32I8 _ _ _ s); unfold execVcvtI32I8; exact now _ _ _ ⟨rfl, rfl, rfl, rfl, rfl⟩ fun _ => rfl
  | vshuf => show P (execVshuf _ _ _ _ s); unfold execVshuf; exact now _ _ _ ⟨rfl, rfl, rfl, rfl, rfl⟩ fun _ => rfl
  | vbcast => show P (execVbcast _ _ _ _ s); unfold execVbcast; exact now _ _ _ ⟨rfl, rfl, rfl, rfl, rfl⟩ fun _ => rfl
  | vrot => show P (execVrot _ _ _ _ s); unfold execVrot; exact now _ _ _ ⟨rfl, rfl, rfl, rfl, rfl⟩ fun _ => rfl
  | viota => show P (execViota _ _ _ _ s); unfold execViota; exact now _ _ _ ⟨rfl, rfl, rfl, rfl, rfl⟩ fun _ => rfl
  | vcomp => show P (execVcomp _ _ _ _ s); unfold execVcomp; exact now _ _ _ ⟨rfl, rfl, rfl, rfl, rfl⟩ fun _ => rfl
  | vexpand => show P (execVexpand _ _ _ _ s); unfold execVexpand; exact now _ _ _ ⟨rfl, rfl, rfl, rfl, rfl⟩ fun _ => rfl
  | vzip => show P (execVzip _ _ _ _ s); unfold execVzip; exact now _ _ _ ⟨rfl, rfl, rfl, rfl, rfl⟩ fun _ => rfl
  | vunzip => show P (execVunzip _ _ _ _ s); unfold execVunzip; exact now _ _ _ ⟨rfl, rfl, rfl, rfl, rfl⟩ fun _ => rfl
  | vnz => show P (execVnz _ _ _ _ s); unfold execVnz; exact now _ _ _ ⟨rfl, rfl, rfl, rfl, rfl⟩ fun _ => rfl
  | vnzi => show P (execVnzi _ _ _ _ s); unfold execVnzi; exact now _ _ _ ⟨rfl, rfl, rfl, rfl, rfl⟩ fun _ => rfl
  | vins => show P (execVins _ _ _ _ s); unfold execVins; exact now _ _ _ ⟨rfl, rfl, rfl, rfl, rfl⟩ fun _ => rfl
  | vext => show P (execVext _ _ _ _ s); unfold execVext; exact now _ _ _ ⟨rfl, rfl, rfl, rfl, rfl⟩ fun _ => rfl
  | vredAdd => show P (execVredAdd _ _ _ _ s); unfold execVredAdd; exact now _ _ _ ⟨rfl, rfl, rfl, rfl, rfl⟩ fun _ => rfl
  | vredMax => show P (execVredMax _ _ _ _ s); unfold execVredMax; exact now _ _ _ ⟨rfl, rfl, rfl, rfl, rfl⟩ fun _ => rfl
  | vredMin => show P (execVredMin _ _ _ _ s); unfold execVredMin; exact now _ _ _ ⟨rfl, rfl, rfl, rfl, rfl⟩ fun _ => rfl
  | vredMaxn => show P (execVredMaxn _ _ _ _ s); unfold execVredMaxn; exact now _ _ _ ⟨rfl, rfl, rfl, rfl, rfl⟩ fun _ => rfl
  | vredMinn => show P (execVredMinn _ _ _ _ s); unfold execVredMinn; exact now _ _ _ ⟨rfl, rfl, rfl, rfl, rfl⟩ fun _ => rfl
  | vredAnd => show P (execVredAnd _ _ _ _ s); unfold execVredAnd; exact now _ _ _ ⟨rfl, rfl, rfl, rfl, rfl⟩ fun _ => rfl
  | vredOr => show P (execVredOr _ _ _ _ s); unfold execVredOr; exact now _ _ _ ⟨rfl, rfl, rfl, rfl, rfl⟩ fun _ => rfl
  | vredXor => show P (execVredXor _ _ _ _ s); unfold execVredXor; exact now _ _ _ ⟨rfl, rfl, rfl, rfl, rfl⟩ fun _ => rfl
  | vsel => show P (execVsel _ _ _ s); unfold execVsel; exact now _ _ _ ⟨rfl, rfl, rfl, rfl, rfl⟩ fun _ => rfl
  | vqhdr => show P (execVqhdr _ _ _ s); unfold execVqhdr; exact now _ _ _ ⟨rfl, rfl, rfl, rfl, rfl⟩ fun _ => rfl
  | vqpk => show P (execVqpk _ _ _ s); unfold execVqpk; exact now _ _ _ ⟨rfl, rfl, rfl, rfl, rfl⟩ fun _ => rfl
  | vdq => show P (execVdq _ _ _ s); unfold execVdq; exact now _ _ _ ⟨rfl, rfl, rfl, rfl, rfl⟩ fun _ => rfl
  | vbaq => show P (execVbaq _ _ _ s); unfold execVbaq; exact now _ _ _ ⟨rfl, rfl, rfl, rfl, rfl⟩ fun _ => rfl
  | vbmax => show P (execVbmax _ _ _ s); unfold execVbmax; exact now _ _ _ ⟨rfl, rfl, rfl, rfl, rfl⟩ fun _ => rfl
  | vbfmt => show P (execVbfmt _ _ _ s); unfold execVbfmt; exact now _ _ _ ⟨rfl, rfl, rfl, rfl, rfl⟩ fun _ => rfl
  | osmStep => show P (execOsmStep _ _ _ s); unfold execOsmStep; exact now _ _ _ ⟨rfl, rfl, rfl, rfl, rfl⟩ fun _ => rfl
  | osmNorm => show P (execOsmNorm _ _ _ s); unfold execOsmNorm; exact now _ _ _ ⟨rfl, rfl, rfl, rfl, rfl⟩ fun _ => rfl
  | ctrNew => show P (execCtrNew _ _ _ s); unfold execCtrNew; exact now _ _ _ ⟨rfl, rfl, rfl, rfl, rfl⟩ fun _ => rfl
  | ctrDec => show P (execCtrDec _ s); unfold execCtrDec; exact now _ _ _ ⟨rfl, rfl, rfl, rfl, rfl⟩ fun _ => rfl
  | ctrBind => show P (execCtrBind _ s); unfold execCtrBind; exact now _ _ _ ⟨rfl, rfl, rfl, rfl, rfl⟩ fun _ => rfl
  | ctrSplit => show P (execCtrSplit _ s); unfold execCtrSplit; exact now _ _ _ ⟨rfl, rfl, rfl, rfl, rfl⟩ fun _ => rfl
  | ctrStat => show P (execCtrStat _ _ _ s); unfold execCtrStat; exact later _ _ ⟨rfl, rfl, rfl, rfl, rfl⟩ fun _ => rfl
  | rarm => show P (execRarm _ s); unfold execRarm; exact now _ _ _ ⟨rfl, rfl, rfl, rfl, rfl⟩ fun _ => rfl
  | invoke => show P (execInvoke _ _ _ s); unfold execInvoke; exact now _ _ _ ⟨rfl, rfl, rfl, rfl, rfl⟩ fun _ => rfl
  | invokec => show P (execInvokec _ _ _ s); unfold execInvokec; exact later _ _ ⟨rfl, rfl, rfl, rfl, rfl⟩ fun _ => rfl
  | fulfil => show P (execFulfil _ s); unfold execFulfil; exact now _ _ _ ⟨rfl, rfl, rfl, rfl, rfl⟩ fun _ => rfl
  | brk => show P (execBrk _ s); unfold execBrk; exact now _ _ _ ⟨rfl, rfl, rfl, rfl, rfl⟩ fun _ => rfl
  | wait => show P (execWait _ _ s); unfold execWait; exact now _ _ _ ⟨rfl, rfl, rfl, rfl, rfl⟩ fun _ => rfl
  | waitSt => show P (execWaitSt _ _ s); unfold execWaitSt; exact now _ _ _ ⟨rfl, rfl, rfl, rfl, rfl⟩ fun _ => rfl
  | send => show P (execSend _ _ _ s); unfold execSend; exact later _ _ ⟨rfl, rfl, rfl, rfl, rfl⟩ fun _ => rfl
  | sendw => show P (execSendw _ _ s); unfold execSendw; exact now _ _ _ ⟨rfl, rfl, rfl, rfl, rfl⟩ fun _ => rfl
  | qnew => show P (execQnew _ _ _ s); unfold execQnew; exact now _ _ _ ⟨rfl, rfl, rfl, rfl, rfl⟩ fun _ => rfl
  | qbind => show P (execQbind _ s); unfold execQbind; exact now _ _ _ ⟨rfl, rfl, rfl, rfl, rfl⟩ fun _ => rfl
  | qunbind => show P (execQunbind _ s); unfold execQunbind; exact now _ _ _ ⟨rfl, rfl, rfl, rfl, rfl⟩ fun _ => rfl
  | spawn => show P (execSpawn _ s); unfold execSpawn; exact now _ _ _ ⟨rfl, rfl, rfl, rfl, rfl⟩ fun _ => rfl
  | launch => show P (execLaunch _ _ _ s); unfold execLaunch; exact later _ _ ⟨rfl, rfl, rfl, rfl, rfl⟩ fun _ => rfl
  | cpy => show P (execCpy _ s); unfold execCpy; exact now _ _ _ ⟨rfl, rfl, rfl, rfl, rfl⟩ fun _ => rfl
  | tile => show P (execTile _ s); unfold execTile; exact now _ _ _ ⟨rfl, rfl, rfl, rfl, rfl⟩ fun _ => rfl
  | feedA => show P (execFeedA _ s); unfold execFeedA; exact now _ _ _ ⟨rfl, rfl, rfl, rfl, rfl⟩ fun _ => rfl
  | feedB => show P (execFeedB _ s); unfold execFeedB; exact now _ _ _ ⟨rfl, rfl, rfl, rfl, rfl⟩ fun _ => rfl
  | mma => show P (execMma _ s); unfold execMma; exact now _ _ _ ⟨rfl, rfl, rfl, rfl, rfl⟩ fun _ => rfl
  | mzero => show P (execMzero _ s); unfold execMzero; exact now _ _ _ ⟨rfl, rfl, rfl, rfl, rfl⟩ fun _ => rfl
  | mstat => show P (execMstat _ _ _ s); unfold execMstat; exact now _ _ _ ⟨rfl, rfl, rfl, rfl, rfl⟩ fun _ => rfl
  | trap => show P (execTrap _ s); unfold execTrap; exact now _ _ _ ⟨rfl, rfl, rfl, rfl, rfl⟩ fun _ => rfl
  | isync => show P (execIsync _ s); unfold execIsync; exact now _ _ _ ⟨rfl, rfl, rfl, rfl, rfl⟩ fun _ => rfl
  | sysRd => show P (execSysRd _ _ _ s); unfold execSysRd; exact now _ _ _ ⟨rfl, rfl, rfl, rfl, rfl⟩ fun _ => rfl
  | sysWr => show P (execSysWr _ s); unfold execSysWr; exact now _ _ _ ⟨rfl, rfl, rfl, rfl, rfl⟩ fun _ => rfl
  | cusTake => exact absurd h (by decide)
  | cusResume => exact absurd h (by decide)
  | cusGive => exact absurd h (by decide)
  | cusBreak => exact absurd h (by decide)
  | stnMap => show P (execStnMap _ s); unfold execStnMap; exact now _ _ _ ⟨rfl, rfl, rfl, rfl, rfl⟩ fun _ => rfl
  | stnInv => show P (execStnInv _ s); unfold execStnInv; exact now _ _ _ ⟨rfl, rfl, rfl, rfl, rfl⟩ fun _ => rfl
  | stnReplay => show P (execStnReplay _ s); unfold execStnReplay; exact now _ _ _ ⟨rfl, rfl, rfl, rfl, rfl⟩ fun _ => rfl
  | lodgeNew => show P (execLodgeNew _ s); unfold execLodgeNew; exact now _ _ _ ⟨rfl, rfl, rfl, rfl, rfl⟩ fun _ => rfl
  | lodgeEnd => show P (execLodgeEnd _ s); unfold execLodgeEnd; exact now _ _ _ ⟨rfl, rfl, rfl, rfl, rfl⟩ fun _ => rfl
  | migrate => show P (execMigrate _ s); unfold execMigrate; exact now _ _ _ ⟨rfl, rfl, rfl, rfl, rfl⟩ fun _ => rfl
  | shadowSave => show P (execShadowSave _ s); unfold execShadowSave; exact now _ _ _ ⟨rfl, rfl, rfl, rfl, rfl⟩ fun _ => rfl
  | shadowLoad => show P (execShadowLoad _ s); unfold execShadowLoad; exact now _ _ _ ⟨rfl, rfl, rfl, rfl, rfl⟩ fun _ => rfl
  | testRun => show P (execTestRun _ s); unfold execTestRun; exact now _ _ _ ⟨rfl, rfl, rfl, rfl, rfl⟩ fun _ => rfl
  | statSum => show P (execStatSum _ s); unfold execStatSum; exact now _ _ _ ⟨rfl, rfl, rfl, rfl, rfl⟩ fun _ => rfl
  | engineCancel => show P (execEngineCancel _ s); unfold execEngineCancel; exact now _ _ _ ⟨rfl, rfl, rfl, rfl, rfl⟩ fun _ => rfl

end Sys2Proof.Claims
end

