-- ==== Sys2Proof/Laws/Memory.lean ====
section
/-! SUPPORT. Sparse maps and memories: what is read after a write, and that every operation keeps the canonical form (log 4). -/

namespace Sys2Proof
variable {α : Type}

/-! ## Read after write -/

theorem mapGet_mapIns_same [Inhabited α] (m : Map α) (k : Nat) (x : α) : mapGet (mapIns m k x) k = x := by
  induction m with
  | nil => simp [mapIns, mapGet]
  | cons e m ih =>
    obtain ⟨j, v⟩ := e
    unfold mapIns
    split
    · simp [mapGet]
    · split
      · simp [mapGet]
      · simp [mapGet, *]

theorem mapGet_mapIns_other [Inhabited α] (m : Map α) {k j : Nat} (x : α) (h : j ≠ k) : mapGet (mapIns m k x) j = mapGet m j := by
  induction m with
  | nil => simp [mapIns, mapGet, Ne.symm h]
  | cons e m ih =>
    obtain ⟨i, v⟩ := e
    unfold mapIns
    split
    · rename_i hi; subst hi; simp [mapGet, Ne.symm h]
    · split
      · simp [mapGet, Ne.symm h]
      · simp [mapGet, ih]

theorem mapGet_mapDel_same [Inhabited α] (m : Map α) (k : Nat) : mapGet (mapDel m k) k = default := by
  induction m with
  | nil => rfl
  | cons e m ih =>
    obtain ⟨j, v⟩ := e
    unfold mapDel
    split
    · exact ih
    · simp [mapGet, *]

theorem mapGet_mapDel_other [Inhabited α] (m : Map α) {k j : Nat} (h : j ≠ k) : mapGet (mapDel m k) j = mapGet m j := by
  induction m with
  | nil => rfl
  | cons e m ih =>
    obtain ⟨i, v⟩ := e
    unfold mapDel
    split
    · rename_i hi; subst hi; simp [mapGet, Ne.symm h, ih]
    · simp [mapGet, ih]

/-- A key reads what it was set to. -/
@[simp] theorem mapGet_mapSet_same [Inhabited α] [DecidableEq α] (m : Map α) (k : Nat) (x : α) : mapGet (mapSet m k x) k = x := by
  unfold mapSet
  split
  · rename_i h; rw [h]; exact mapGet_mapDel_same m k
  · exact mapGet_mapIns_same m k x
/-- Every other key reads what it did. -/
theorem mapGet_mapSet_other [Inhabited α] [DecidableEq α] (m : Map α) {k j : Nat} (x : α) (h : j ≠ k) :
    mapGet (mapSet m k x) j = mapGet m j := by
  unfold mapSet
  split
  · exact mapGet_mapDel_other m h
  · exact mapGet_mapIns_other m x h
theorem mapGet_mapSet [Inhabited α] [DecidableEq α] (m : Map α) (k j : Nat) (x : α) :
    mapGet (mapSet m k x) j = if j = k then x else mapGet m j := by
  split
  · subst j; exact mapGet_mapSet_same m k x
  · exact mapGet_mapSet_other m x ‹_›
@[simp] theorem mapGet_mapUpd_same [Inhabited α] [DecidableEq α] (m : Map α) (k : Nat) (f : α → α) :
    mapGet (mapUpd m k f) k = f (mapGet m k) := mapGet_mapSet_same ..
theorem mapGet_mapUpd_other [Inhabited α] [DecidableEq α] (m : Map α) {k j : Nat} (f : α → α) (h : j ≠ k) :
    mapGet (mapUpd m k f) j = mapGet m j := mapGet_mapSet_other _ _ h
@[simp] theorem mapGet_nil [Inhabited α] (k : Nat) : mapGet ([] : Map α) k = default := rfl

/-! ## The canonical form -/

theorem mapOkFrom_weaken [Inhabited α] [DecidableEq α] {a b : Option Nat} {m : Map α}
    (h : ∀ x, a = some x → ∃ y, b = some y ∧ x ≤ y) (hm : mapOkFrom b m = true) : mapOkFrom a m = true := by
  cases m with
  | nil => rfl
  | cons e m =>
    obtain ⟨j, v⟩ := e
    cases a with
    | none =>
      unfold mapOkFrom at hm ⊢
      simp only [Bool.and_eq_true] at hm ⊢
      exact ⟨⟨trivial, hm.1.2⟩, hm.2⟩
    | some x =>
      obtain ⟨y, rfl, hxy⟩ := h x rfl
      unfold mapOkFrom at hm ⊢
      simp only [Bool.and_eq_true, decide_eq_true_eq] at hm ⊢
      exact ⟨⟨by omega, hm.1.2⟩, hm.2⟩

theorem mapOkFrom_cons [Inhabited α] [DecidableEq α] (lo : Option Nat) (j : Nat) (v : α) (m : Map α) :
    mapOkFrom lo ((j, v) :: m) = true ↔ (∀ l, lo = some l → l < j) ∧ v ≠ default ∧ mapOkFrom (some j) m = true := by
  cases lo <;> simp [mapOkFrom, and_assoc]

theorem mapOkFrom_filter [Inhabited α] [DecidableEq α] (p : Nat × α → Bool) (lo : Option Nat) (m : Map α) (h : mapOkFrom lo m = true) :
    mapOkFrom lo (m.filter p) = true := by
  induction m generalizing lo with
  | nil => rfl
  | cons e m ih =>
    obtain ⟨j, v⟩ := e
    rw [mapOkFrom_cons] at h
    rw [List.filter_cons]
    split
    · rw [mapOkFrom_cons]; exact ⟨h.1, h.2.1, ih _ h.2.2⟩
    · exact mapOkFrom_weaken (fun x hx => ⟨j, rfl, Nat.le_of_lt (h.1 x hx)⟩) (ih _ h.2.2)

theorem mapOkFrom_mapDel [Inhabited α] [DecidableEq α] (lo : Option Nat) (m : Map α) (k : Nat) (h : mapOkFrom lo m = true) :
    mapOkFrom lo (mapDel m k) = true := by
  induction m generalizing lo with
  | nil => rfl
  | cons e m ih =>
    obtain ⟨j, v⟩ := e
    rw [mapOkFrom_cons] at h
    unfold mapDel
    split
    · exact mapOkFrom_weaken (fun x hx => ⟨j, rfl, Nat.le_of_lt (h.1 x hx)⟩) (ih _ h.2.2)
    · rw [mapOkFrom_cons]; exact ⟨h.1, h.2.1, ih _ h.2.2⟩

theorem mapOkFrom_mapIns [Inhabited α] [DecidableEq α] (lo : Option Nat) (m : Map α) (k : Nat) (x : α) (hx : x ≠ default)
    (hk : ∀ l, lo = some l → l < k) (h : mapOkFrom lo m = true) : mapOkFrom lo (mapIns m k x) = true := by
  induction m generalizing lo with
  | nil => unfold mapIns; rw [mapOkFrom_cons]; exact ⟨hk, hx, rfl⟩
  | cons e m ih =>
    obtain ⟨j, v⟩ := e
    rw [mapOkFrom_cons] at h
    unfold mapIns
    split
    · rename_i hj; subst hj; rw [mapOkFrom_cons]; exact ⟨hk, hx, h.2.2⟩
    · split
      · rw [mapOkFrom_cons]; refine ⟨hk, hx, ?_⟩
        rw [mapOkFrom_cons]; exact ⟨fun l hl => by cases hl; assumption, h.2.1, h.2.2⟩
      · rw [mapOkFrom_cons]; exact ⟨h.1, h.2.1, ih _ (fun l hl => by cases hl; omega) h.2.2⟩

theorem mapOk_mapSet [Inhabited α] [DecidableEq α] (m : Map α) (k : Nat) (x : α) (h : mapOk m = true) : mapOk (mapSet m k x) = true := by
  unfold mapSet
  split
  · exact mapOkFrom_mapDel _ _ _ h
  · exact mapOkFrom_mapIns _ _ _ _ ‹_› (fun _ h => by cases h) h
theorem mapOk_mapUpd [Inhabited α] [DecidableEq α] (m : Map α) (k : Nat) (f : α → α) (h : mapOk m = true) : mapOk (mapUpd m k f) = true :=
  mapOk_mapSet _ _ _ h
theorem mapOk_filter [Inhabited α] [DecidableEq α] (m : Map α) (p : Nat × α → Bool) (h : mapOk m = true) : mapOk (m.filter p) = true :=
  mapOkFrom_filter _ _ _ h
theorem mapOk_mapClear [Inhabited α] [DecidableEq α] (m : Map α) (lo hi : Nat) (h : mapOk m = true) : mapOk (mapClear m lo hi) = true :=
  mapOkFrom_filter _ _ _ h

/-! ## Bytes -/

@[simp] theorem wf_nil : Memory.wf [] = true := rfl
theorem wf_writeBytes (m : Memory) (a : Nat) (bs : List Byte) (h : Memory.wf m = true) : Memory.wf (writeBytes m a bs) = true := by
  induction bs generalizing m a with
  | nil => exact h
  | cons b bs ih => exact ih _ _ (mapOk_mapSet _ _ _ h)
theorem wf_writeMasked (m : Memory) (a : Nat) (bs : List (Option Byte)) (h : Memory.wf m = true) : Memory.wf (writeMasked m a bs) = true := by
  induction bs generalizing m a with
  | nil => exact h
  | cons b bs ih =>
    cases b with
    | none => exact ih _ _ h
    | some b => exact ih _ _ (mapOk_mapSet _ _ _ h)
theorem wf_putNum (m : Memory) (a n v : Nat) (h : Memory.wf m = true) : Memory.wf (putNum m a n v) = true := wf_writeBytes _ _ _ h

/-- A byte outside the bytes written reads as it did; one of them reads what was written. -/
theorem mapGet_writeMasked (m : Memory) (a : Nat) (bs : List (Option Byte)) (i : Nat) :
    mapGet (writeMasked m a bs) i = if a ≤ i then ((bs[i - a]?).getD none).getD (mapGet m i) else mapGet m i := by
  induction bs generalizing m a with
  | nil => simp [writeMasked]
  | cons b bs ih =>
    by_cases hi : i = a
    · subst hi
      cases b with
      | none => simp [writeMasked, ih]
      | some b => simp [writeMasked, ih]
    · cases b with
      | none =>
        simp only [writeMasked, ih]
        by_cases h : a ≤ i
        · rw [if_pos (by omega), if_pos h, show i - a = (i - (a + 1)) + 1 by omega, List.getElem?_cons_succ]
        · rw [if_neg (by omega), if_neg h]
      | some b =>
        simp only [writeMasked, ih, mapGet_mapSet, if_neg hi]
        by_cases h : a ≤ i
        · rw [if_pos (by omega), if_pos h, show i - a = (i - (a + 1)) + 1 by omega, List.getElem?_cons_succ]
        · rw [if_neg (by omega), if_neg h]
theorem mapGet_writeBytes (m : Memory) (a : Nat) (bs : List Byte) (i : Nat) :
    mapGet (writeBytes m a bs) i = if a ≤ i then (bs[i - a]?).getD (mapGet m i) else mapGet m i := by
  induction bs generalizing m a with
  | nil => simp [writeBytes]
  | cons b bs ih =>
    simp only [writeBytes, ih, mapGet_mapSet]
    by_cases hi : i = a
    · subst hi; simp
    · simp only [if_neg hi]
      by_cases h : a ≤ i
      · rw [if_pos (by omega), if_pos h, show i - a = (i - (a + 1)) + 1 by omega, List.getElem?_cons_succ]
      · rw [if_neg (by omega), if_neg h]

end Sys2Proof
end

