-- ==== Sys2Proof/Laws/State.lean ====
section
/-! SUPPORT. What each update of the state leaves in each field, each core and each slot: so that no proof unfolds a record update. -/

namespace Sys2Proof.Machine

/-! ## Cores and slots: what is read after a write -/

@[simp] theorem core_setCore_same (s : State) (r : Nat) (c : Core) : (s.setCore r c).core r = c := mapGet_mapSet_same ..
theorem core_setCore_other (s : State) {r q : Nat} (c : Core) (h : q ≠ r) : (s.setCore r c).core q = s.core q := mapGet_mapSet_other _ _ h
theorem core_setCore (s : State) (r q : Nat) (c : Core) : (s.setCore r c).core q = if q = r then c else s.core q := mapGet_mapSet ..
@[simp] theorem core_updCore_same (s : State) (r : Nat) (f : Core → Core) : (s.updCore r f).core r = f (s.core r) := core_setCore_same ..
theorem core_updCore_other (s : State) {r q : Nat} (f : Core → Core) (h : q ≠ r) : (s.updCore r f).core q = s.core q :=
  core_setCore_other _ _ h
theorem core_updCore (s : State) (r q : Nat) (f : Core → Core) : (s.updCore r f).core q = if q = r then f (s.core r) else s.core q :=
  core_setCore ..
/-- An update of a core that leaves a part of it as it was. -/
theorem core_updCore_keeps {β : Type} (s : State) (r q : Nat) (f : Core → Core) (p : Core → β) (h : p (f (s.core r)) = p (s.core r)) :
    p ((s.updCore r f).core q) = p (s.core q) := by
  rw [core_updCore]; split
  · subst q; exact h
  · rfl
@[simp] theorem slot_setSlot_same (s : State) (r k : Nat) (x : Slot) : (s.setSlot r k x).slot r k = x := by
  simp [State.slot, State.setSlot]
theorem slot_setSlot (s : State) (r k c j : Nat) (x : Slot) :
    (s.setSlot r k x).slot c j = if c = r ∧ j = k then x else s.slot c j := by
  simp only [State.slot, State.setSlot, core_updCore]
  by_cases h : c = r
  · subst h; simp only [↓reduceIte, mapGet_mapSet, true_and]
  · simp [h]
@[simp] theorem slot_updSlot_same (s : State) (r k : Nat) (f : Slot → Slot) : (s.updSlot r k f).slot r k = f (s.slot r k) :=
  slot_setSlot_same ..
theorem slot_updSlot (s : State) (r k c j : Nat) (f : Slot → Slot) :
    (s.updSlot r k f).slot c j = if c = r ∧ j = k then f (s.slot r k) else s.slot c j := slot_setSlot ..
/-- An update of a slot that leaves a part of it as it was. -/
theorem slot_updSlot_keeps {β : Type} (s : State) (r k c j : Nat) (f : Slot → Slot) (p : Slot → β) (h : p (f (s.slot r k)) = p (s.slot r k)) :
    p ((s.updSlot r k f).slot c j) = p (s.slot c j) := by
  rw [slot_updSlot]; split
  · rename_i e; obtain ⟨rfl, rfl⟩ := e; exact h
  · rfl
@[simp] theorem slot_updBlk_same (s : State) (r k : Nat) (f : Blk → Blk) :
    (s.updBlk r k f).slot r k = { s.slot r k with blk := f (s.slot r k).blk } := slot_updSlot_same ..
/-- An update of a core that leaves its slots as they were. -/
theorem slot_updCore (s : State) (r : Nat) (f : Core → Core) (h : (f (s.core r)).slots = (s.core r).slots) (c k : Nat) :
    (s.updCore r f).slot c k = s.slot c k := by
  simp only [State.slot]; rw [core_updCore_keeps s r c f Core.slots h]
@[simp] theorem lodging_updLodging_same (s : State) (n : Nat) (f : Lodging → Lodging) : (s.updLodging n f).lodging n = f (s.lodging n) :=
  mapGet_mapUpd_same ..
theorem lodging_updLodging_other (s : State) {n m : Nat} (f : Lodging → Lodging) (h : m ≠ n) : (s.updLodging n f).lodging m = s.lodging m :=
  mapGet_mapUpd_other _ _ h
/-- Bytes put into the S stores of some cores change nothing else of any core. -/
theorem get_putAll (ws : List (Nat × Nat)) (bs : List Byte) (tag : Bool) (j : Nat) : ∀ cs : Map Core, ∃ x, mapGet (putAll cs ws bs tag) j = { mapGet cs j with s := x } := by
  induction ws with
  | nil => exact fun cs => ⟨_, rfl⟩
  | cons e ws ih =>
    intro cs
    obtain ⟨x, h⟩ := ih (mapUpd cs e.1 fun c => { c with s := let l := c.s.put e.2 bs; if tag then l.setTag (e.2 / 16) true else l })
    refine ⟨x, h.trans ?_⟩
    by_cases hj : j = e.1
    · subst hj; rw [mapGet_mapUpd_same]
    · rw [mapGet_mapUpd_other _ _ hj]
theorem core_storeS (s : State) (r off : Nat) (bs : List Byte) (tag : Bool) (j : Nat) : ∃ x, (s.storeS r off bs tag).core j = { s.core j with s := x } := get_putAll ..
@[simp] theorem slot_storeS (s : State) (r off : Nat) (bs : List Byte) (tag : Bool) (c j : Nat) : (s.storeS r off bs tag).slot c j = s.slot c j := by
  obtain ⟨x, h⟩ := core_storeS s r off bs tag c; simp only [State.slot, h]

/-! ## Fields, update by update -/


@[simp] theorem setCore_cycle (s : State) (r : Nat) (c : Core) : (s.setCore r c).cycle = s.cycle := rfl
@[simp] theorem setCore_hbm (s : State) (r : Nat) (c : Core) : (s.setCore r c).hbm = s.hbm := rfl
@[simp] theorem setCore_hbmTags (s : State) (r : Nat) (c : Core) : (s.setCore r c).hbmTags = s.hbmTags := rfl
@[simp] theorem setCore_hbmPoison (s : State) (r : Nat) (c : Core) : (s.setCore r c).hbmPoison = s.hbmPoison := rfl
@[simp] theorem setCore_hbmCorrected (s : State) (r : Nat) (c : Core) : (s.setCore r c).hbmCorrected = s.hbmCorrected := rfl
@[simp] theorem setCore_hbmKeys (s : State) (r : Nat) (c : Core) : (s.setCore r c).hbmKeys = s.hbmKeys := rfl
@[simp] theorem setCore_far (s : State) (r : Nat) (c : Core) : (s.setCore r c).far = s.far := rfl
@[simp] theorem setCore_farPoison (s : State) (r : Nat) (c : Core) : (s.setCore r c).farPoison = s.farPoison := rfl
@[simp] theorem setCore_farKeys (s : State) (r : Nat) (c : Core) : (s.setCore r c).farKeys = s.farKeys := rfl
@[simp] theorem setCore_host (s : State) (r : Nat) (c : Core) : (s.setCore r c).host = s.host := rfl
@[simp] theorem setCore_hostPoison (s : State) (r : Nat) (c : Core) : (s.setCore r c).hostPoison = s.hostPoison := rfl
@[simp] theorem setCore_hostOut (s : State) (r : Nat) (c : Core) : (s.setCore r c).hostOut = s.hostOut := rfl
@[simp] theorem setCore_reqs (s : State) (r : Nat) (c : Core) : (s.setCore r c).reqs = s.reqs := rfl
@[simp] theorem setCore_stations (s : State) (r : Nat) (c : Core) : (s.setCore r c).stations = s.stations := rfl
@[simp] theorem setCore_credits (s : State) (r : Nat) (c : Core) : (s.setCore r c).credits = s.credits := rfl
@[simp] theorem setCore_promised (s : State) (r : Nat) (c : Core) : (s.setCore r c).promised = s.promised := rfl
@[simp] theorem setCore_pageWait (s : State) (r : Nat) (c : Core) : (s.setCore r c).pageWait = s.pageWait := rfl
@[simp] theorem setCore_desk (s : State) (r : Nat) (c : Core) : (s.setCore r c).desk = s.desk := rfl
@[simp] theorem setCore_deskNext (s : State) (r : Nat) (c : Core) : (s.setCore r c).deskNext = s.deskNext := rfl
@[simp] theorem setCore_pending (s : State) (r : Nat) (c : Core) : (s.setCore r c).pending = s.pending := rfl
@[simp] theorem setCore_leave (s : State) (r : Nat) (c : Core) : (s.setCore r c).leave = s.leave := rfl
@[simp] theorem setCore_leaveWait (s : State) (r : Nat) (c : Core) : (s.setCore r c).leaveWait = s.leaveWait := rfl
@[simp] theorem setCore_lodgings (s : State) (r : Nat) (c : Core) : (s.setCore r c).lodgings = s.lodgings := rfl
@[simp] theorem setCore_guests (s : State) (r : Nat) (c : Core) : (s.setCore r c).guests = s.guests := rfl
@[simp] theorem setCore_saves (s : State) (r : Nat) (c : Core) : (s.setCore r c).saves = s.saves := rfl
@[simp] theorem setCore_sessions (s : State) (r : Nat) (c : Core) : (s.setCore r c).sessions = s.sessions := rfl
@[simp] theorem setCore_windows (s : State) (r : Nat) (c : Core) : (s.setCore r c).windows = s.windows := rfl
@[simp] theorem setCore_spdm (s : State) (r : Nat) (c : Core) : (s.setCore r c).spdm = s.spdm := rfl
@[simp] theorem setCore_speaking (s : State) (r : Nat) (c : Core) : (s.setCore r c).speaking = s.speaking := rfl
@[simp] theorem setCore_ide (s : State) (r : Nat) (c : Core) : (s.setCore r c).ide = s.ide := rfl
@[simp] theorem setCore_bar0 (s : State) (r : Nat) (c : Core) : (s.setCore r c).bar0 = s.bar0 := rfl
@[simp] theorem setCore_agentReqs (s : State) (r : Nat) (c : Core) : (s.setCore r c).agentReqs = s.agentReqs := rfl
@[simp] theorem setCore_nextAgent (s : State) (r : Nat) (c : Core) : (s.setCore r c).nextAgent = s.nextAgent := rfl
@[simp] theorem setCore_colls (s : State) (r : Nat) (c : Core) : (s.setCore r c).colls = s.colls := rfl
@[simp] theorem setCore_routes (s : State) (r : Nat) (c : Core) : (s.setCore r c).routes = s.routes := rfl
@[simp] theorem setCore_failedLinks (s : State) (r : Nat) (c : Core) : (s.setCore r c).failedLinks = s.failedLinks := rfl
@[simp] theorem setCore_pairs (s : State) (r : Nat) (c : Core) : (s.setCore r c).pairs = s.pairs := rfl
@[simp] theorem setCore_linkOut (s : State) (r : Nat) (c : Core) : (s.setCore r c).linkOut = s.linkOut := rfl
@[simp] theorem setCore_offers (s : State) (r : Nat) (c : Core) : (s.setCore r c).offers = s.offers := rfl
@[simp] theorem setCore_accepts (s : State) (r : Nat) (c : Core) : (s.setCore r c).accepts = s.accepts := rfl
@[simp] theorem setCore_grants (s : State) (r : Nat) (c : Core) : (s.setCore r c).grants = s.grants := rfl
@[simp] theorem setCore_keys (s : State) (r : Nat) (c : Core) : (s.setCore r c).keys = s.keys := rfl
@[simp] theorem setCore_fuses (s : State) (r : Nat) (c : Core) : (s.setCore r c).fuses = s.fuses := rfl
@[simp] theorem setCore_boot (s : State) (r : Nat) (c : Core) : (s.setCore r c).boot = s.boot := rfl
@[simp] theorem setCore_imageVersion (s : State) (r : Nat) (c : Core) : (s.setCore r c).imageVersion = s.imageVersion := rfl
@[simp] theorem setCore_newImage (s : State) (r : Nat) (c : Core) : (s.setCore r c).newImage = s.newImage := rfl
@[simp] theorem setCore_accepted (s : State) (r : Nat) (c : Core) : (s.setCore r c).accepted = s.accepted := rfl
@[simp] theorem setCore_service (s : State) (r : Nat) (c : Core) : (s.setCore r c).service = s.service := rfl
@[simp] theorem setCore_measures (s : State) (r : Nat) (c : Core) : (s.setCore r c).measures = s.measures := rfl
@[simp] theorem setCore_svcQueue (s : State) (r : Nat) (c : Core) : (s.setCore r c).svcQueue = s.svcQueue := rfl
@[simp] theorem setCore_tests (s : State) (r : Nat) (c : Core) : (s.setCore r c).tests = s.tests := rfl
@[simp] theorem setCore_sums (s : State) (r : Nat) (c : Core) : (s.setCore r c).sums = s.sums := rfl
@[simp] theorem setCore_residue (s : State) (r : Nat) (c : Core) : (s.setCore r c).residue = s.residue := rfl
@[simp] theorem setCore_nextReq (s : State) (r : Nat) (c : Core) : (s.setCore r c).nextReq = s.nextReq := rfl
@[simp] theorem setCore_schedule (s : State) (r : Nat) (c : Core) : (s.setCore r c).schedule = s.schedule := rfl
@[simp] theorem setCore_tick (s : State) (r : Nat) (c : Core) : (s.setCore r c).tick = s.tick := rfl
@[simp] theorem setCore_here (s : State) (r : Nat) (c : Core) : (s.setCore r c).here = s.here := rfl

@[simp] theorem updCore_cycle (s : State) (r : Nat) (f : Core → Core) : (s.updCore r f).cycle = s.cycle := rfl
@[simp] theorem updCore_hbm (s : State) (r : Nat) (f : Core → Core) : (s.updCore r f).hbm = s.hbm := rfl
@[simp] theorem updCore_hbmTags (s : State) (r : Nat) (f : Core → Core) : (s.updCore r f).hbmTags = s.hbmTags := rfl
@[simp] theorem updCore_hbmPoison (s : State) (r : Nat) (f : Core → Core) : (s.updCore r f).hbmPoison = s.hbmPoison := rfl
@[simp] theorem updCore_hbmCorrected (s : State) (r : Nat) (f : Core → Core) : (s.updCore r f).hbmCorrected = s.hbmCorrected := rfl
@[simp] theorem updCore_hbmKeys (s : State) (r : Nat) (f : Core → Core) : (s.updCore r f).hbmKeys = s.hbmKeys := rfl
@[simp] theorem updCore_far (s : State) (r : Nat) (f : Core → Core) : (s.updCore r f).far = s.far := rfl
@[simp] theorem updCore_farPoison (s : State) (r : Nat) (f : Core → Core) : (s.updCore r f).farPoison = s.farPoison := rfl
@[simp] theorem updCore_farKeys (s : State) (r : Nat) (f : Core → Core) : (s.updCore r f).farKeys = s.farKeys := rfl
@[simp] theorem updCore_host (s : State) (r : Nat) (f : Core → Core) : (s.updCore r f).host = s.host := rfl
@[simp] theorem updCore_hostPoison (s : State) (r : Nat) (f : Core → Core) : (s.updCore r f).hostPoison = s.hostPoison := rfl
@[simp] theorem updCore_hostOut (s : State) (r : Nat) (f : Core → Core) : (s.updCore r f).hostOut = s.hostOut := rfl
@[simp] theorem updCore_reqs (s : State) (r : Nat) (f : Core → Core) : (s.updCore r f).reqs = s.reqs := rfl
@[simp] theorem updCore_stations (s : State) (r : Nat) (f : Core → Core) : (s.updCore r f).stations = s.stations := rfl
@[simp] theorem updCore_credits (s : State) (r : Nat) (f : Core → Core) : (s.updCore r f).credits = s.credits := rfl
@[simp] theorem updCore_promised (s : State) (r : Nat) (f : Core → Core) : (s.updCore r f).promised = s.promised := rfl
@[simp] theorem updCore_pageWait (s : State) (r : Nat) (f : Core → Core) : (s.updCore r f).pageWait = s.pageWait := rfl
@[simp] theorem updCore_desk (s : State) (r : Nat) (f : Core → Core) : (s.updCore r f).desk = s.desk := rfl
@[simp] theorem updCore_deskNext (s : State) (r : Nat) (f : Core → Core) : (s.updCore r f).deskNext = s.deskNext := rfl
@[simp] theorem updCore_pending (s : State) (r : Nat) (f : Core → Core) : (s.updCore r f).pending = s.pending := rfl
@[simp] theorem updCore_leave (s : State) (r : Nat) (f : Core → Core) : (s.updCore r f).leave = s.leave := rfl
@[simp] theorem updCore_leaveWait (s : State) (r : Nat) (f : Core → Core) : (s.updCore r f).leaveWait = s.leaveWait := rfl
@[simp] theorem updCore_lodgings (s : State) (r : Nat) (f : Core → Core) : (s.updCore r f).lodgings = s.lodgings := rfl
@[simp] theorem updCore_guests (s : State) (r : Nat) (f : Core → Core) : (s.updCore r f).guests = s.guests := rfl
@[simp] theorem updCore_saves (s : State) (r : Nat) (f : Core → Core) : (s.updCore r f).saves = s.saves := rfl
@[simp] theorem updCore_sessions (s : State) (r : Nat) (f : Core → Core) : (s.updCore r f).sessions = s.sessions := rfl
@[simp] theorem updCore_windows (s : State) (r : Nat) (f : Core → Core) : (s.updCore r f).windows = s.windows := rfl
@[simp] theorem updCore_spdm (s : State) (r : Nat) (f : Core → Core) : (s.updCore r f).spdm = s.spdm := rfl
@[simp] theorem updCore_speaking (s : State) (r : Nat) (f : Core → Core) : (s.updCore r f).speaking = s.speaking := rfl
@[simp] theorem updCore_ide (s : State) (r : Nat) (f : Core → Core) : (s.updCore r f).ide = s.ide := rfl
@[simp] theorem updCore_bar0 (s : State) (r : Nat) (f : Core → Core) : (s.updCore r f).bar0 = s.bar0 := rfl
@[simp] theorem updCore_agentReqs (s : State) (r : Nat) (f : Core → Core) : (s.updCore r f).agentReqs = s.agentReqs := rfl
@[simp] theorem updCore_nextAgent (s : State) (r : Nat) (f : Core → Core) : (s.updCore r f).nextAgent = s.nextAgent := rfl
@[simp] theorem updCore_colls (s : State) (r : Nat) (f : Core → Core) : (s.updCore r f).colls = s.colls := rfl
@[simp] theorem updCore_routes (s : State) (r : Nat) (f : Core → Core) : (s.updCore r f).routes = s.routes := rfl
@[simp] theorem updCore_failedLinks (s : State) (r : Nat) (f : Core → Core) : (s.updCore r f).failedLinks = s.failedLinks := rfl
@[simp] theorem updCore_pairs (s : State) (r : Nat) (f : Core → Core) : (s.updCore r f).pairs = s.pairs := rfl
@[simp] theorem updCore_linkOut (s : State) (r : Nat) (f : Core → Core) : (s.updCore r f).linkOut = s.linkOut := rfl
@[simp] theorem updCore_offers (s : State) (r : Nat) (f : Core → Core) : (s.updCore r f).offers = s.offers := rfl
@[simp] theorem updCore_accepts (s : State) (r : Nat) (f : Core → Core) : (s.updCore r f).accepts = s.accepts := rfl
@[simp] theorem updCore_grants (s : State) (r : Nat) (f : Core → Core) : (s.updCore r f).grants = s.grants := rfl
@[simp] theorem updCore_keys (s : State) (r : Nat) (f : Core → Core) : (s.updCore r f).keys = s.keys := rfl
@[simp] theorem updCore_fuses (s : State) (r : Nat) (f : Core → Core) : (s.updCore r f).fuses = s.fuses := rfl
@[simp] theorem updCore_boot (s : State) (r : Nat) (f : Core → Core) : (s.updCore r f).boot = s.boot := rfl
@[simp] theorem updCore_imageVersion (s : State) (r : Nat) (f : Core → Core) : (s.updCore r f).imageVersion = s.imageVersion := rfl
@[simp] theorem updCore_newImage (s : State) (r : Nat) (f : Core → Core) : (s.updCore r f).newImage = s.newImage := rfl
@[simp] theorem updCore_accepted (s : State) (r : Nat) (f : Core → Core) : (s.updCore r f).accepted = s.accepted := rfl
@[simp] theorem updCore_service (s : State) (r : Nat) (f : Core → Core) : (s.updCore r f).service = s.service := rfl
@[simp] theorem updCore_measures (s : State) (r : Nat) (f : Core → Core) : (s.updCore r f).measures = s.measures := rfl
@[simp] theorem updCore_svcQueue (s : State) (r : Nat) (f : Core → Core) : (s.updCore r f).svcQueue = s.svcQueue := rfl
@[simp] theorem updCore_tests (s : State) (r : Nat) (f : Core → Core) : (s.updCore r f).tests = s.tests := rfl
@[simp] theorem updCore_sums (s : State) (r : Nat) (f : Core → Core) : (s.updCore r f).sums = s.sums := rfl
@[simp] theorem updCore_residue (s : State) (r : Nat) (f : Core → Core) : (s.updCore r f).residue = s.residue := rfl
@[simp] theorem updCore_nextReq (s : State) (r : Nat) (f : Core → Core) : (s.updCore r f).nextReq = s.nextReq := rfl
@[simp] theorem updCore_schedule (s : State) (r : Nat) (f : Core → Core) : (s.updCore r f).schedule = s.schedule := rfl
@[simp] theorem updCore_tick (s : State) (r : Nat) (f : Core → Core) : (s.updCore r f).tick = s.tick := rfl
@[simp] theorem updCore_here (s : State) (r : Nat) (f : Core → Core) : (s.updCore r f).here = s.here := rfl

@[simp] theorem setSlot_cycle (s : State) (r k : Nat) (x : Slot) : (s.setSlot r k x).cycle = s.cycle := rfl
@[simp] theorem setSlot_hbm (s : State) (r k : Nat) (x : Slot) : (s.setSlot r k x).hbm = s.hbm := rfl
@[simp] theorem setSlot_hbmTags (s : State) (r k : Nat) (x : Slot) : (s.setSlot r k x).hbmTags = s.hbmTags := rfl
@[simp] theorem setSlot_hbmPoison (s : State) (r k : Nat) (x : Slot) : (s.setSlot r k x).hbmPoison = s.hbmPoison := rfl
@[simp] theorem setSlot_hbmCorrected (s : State) (r k : Nat) (x : Slot) : (s.setSlot r k x).hbmCorrected = s.hbmCorrected := rfl
@[simp] theorem setSlot_hbmKeys (s : State) (r k : Nat) (x : Slot) : (s.setSlot r k x).hbmKeys = s.hbmKeys := rfl
@[simp] theorem setSlot_far (s : State) (r k : Nat) (x : Slot) : (s.setSlot r k x).far = s.far := rfl
@[simp] theorem setSlot_farPoison (s : State) (r k : Nat) (x : Slot) : (s.setSlot r k x).farPoison = s.farPoison := rfl
@[simp] theorem setSlot_farKeys (s : State) (r k : Nat) (x : Slot) : (s.setSlot r k x).farKeys = s.farKeys := rfl
@[simp] theorem setSlot_host (s : State) (r k : Nat) (x : Slot) : (s.setSlot r k x).host = s.host := rfl
@[simp] theorem setSlot_hostPoison (s : State) (r k : Nat) (x : Slot) : (s.setSlot r k x).hostPoison = s.hostPoison := rfl
@[simp] theorem setSlot_hostOut (s : State) (r k : Nat) (x : Slot) : (s.setSlot r k x).hostOut = s.hostOut := rfl
@[simp] theorem setSlot_reqs (s : State) (r k : Nat) (x : Slot) : (s.setSlot r k x).reqs = s.reqs := rfl
@[simp] theorem setSlot_stations (s : State) (r k : Nat) (x : Slot) : (s.setSlot r k x).stations = s.stations := rfl
@[simp] theorem setSlot_credits (s : State) (r k : Nat) (x : Slot) : (s.setSlot r k x).credits = s.credits := rfl
@[simp] theorem setSlot_promised (s : State) (r k : Nat) (x : Slot) : (s.setSlot r k x).promised = s.promised := rfl
@[simp] theorem setSlot_pageWait (s : State) (r k : Nat) (x : Slot) : (s.setSlot r k x).pageWait = s.pageWait := rfl
@[simp] theorem setSlot_desk (s : State) (r k : Nat) (x : Slot) : (s.setSlot r k x).desk = s.desk := rfl
@[simp] theorem setSlot_deskNext (s : State) (r k : Nat) (x : Slot) : (s.setSlot r k x).deskNext = s.deskNext := rfl
@[simp] theorem setSlot_pending (s : State) (r k : Nat) (x : Slot) : (s.setSlot r k x).pending = s.pending := rfl
@[simp] theorem setSlot_leave (s : State) (r k : Nat) (x : Slot) : (s.setSlot r k x).leave = s.leave := rfl
@[simp] theorem setSlot_leaveWait (s : State) (r k : Nat) (x : Slot) : (s.setSlot r k x).leaveWait = s.leaveWait := rfl
@[simp] theorem setSlot_lodgings (s : State) (r k : Nat) (x : Slot) : (s.setSlot r k x).lodgings = s.lodgings := rfl
@[simp] theorem setSlot_guests (s : State) (r k : Nat) (x : Slot) : (s.setSlot r k x).guests = s.guests := rfl
@[simp] theorem setSlot_saves (s : State) (r k : Nat) (x : Slot) : (s.setSlot r k x).saves = s.saves := rfl
@[simp] theorem setSlot_sessions (s : State) (r k : Nat) (x : Slot) : (s.setSlot r k x).sessions = s.sessions := rfl
@[simp] theorem setSlot_windows (s : State) (r k : Nat) (x : Slot) : (s.setSlot r k x).windows = s.windows := rfl
@[simp] theorem setSlot_spdm (s : State) (r k : Nat) (x : Slot) : (s.setSlot r k x).spdm = s.spdm := rfl
@[simp] theorem setSlot_speaking (s : State) (r k : Nat) (x : Slot) : (s.setSlot r k x).speaking = s.speaking := rfl
@[simp] theorem setSlot_ide (s : State) (r k : Nat) (x : Slot) : (s.setSlot r k x).ide = s.ide := rfl
@[simp] theorem setSlot_bar0 (s : State) (r k : Nat) (x : Slot) : (s.setSlot r k x).bar0 = s.bar0 := rfl
@[simp] theorem setSlot_agentReqs (s : State) (r k : Nat) (x : Slot) : (s.setSlot r k x).agentReqs = s.agentReqs := rfl
@[simp] theorem setSlot_nextAgent (s : State) (r k : Nat) (x : Slot) : (s.setSlot r k x).nextAgent = s.nextAgent := rfl
@[simp] theorem setSlot_colls (s : State) (r k : Nat) (x : Slot) : (s.setSlot r k x).colls = s.colls := rfl
@[simp] theorem setSlot_routes (s : State) (r k : Nat) (x : Slot) : (s.setSlot r k x).routes = s.routes := rfl
@[simp] theorem setSlot_failedLinks (s : State) (r k : Nat) (x : Slot) : (s.setSlot r k x).failedLinks = s.failedLinks := rfl
@[simp] theorem setSlot_pairs (s : State) (r k : Nat) (x : Slot) : (s.setSlot r k x).pairs = s.pairs := rfl
@[simp] theorem setSlot_linkOut (s : State) (r k : Nat) (x : Slot) : (s.setSlot r k x).linkOut = s.linkOut := rfl
@[simp] theorem setSlot_offers (s : State) (r k : Nat) (x : Slot) : (s.setSlot r k x).offers = s.offers := rfl
@[simp] theorem setSlot_accepts (s : State) (r k : Nat) (x : Slot) : (s.setSlot r k x).accepts = s.accepts := rfl
@[simp] theorem setSlot_grants (s : State) (r k : Nat) (x : Slot) : (s.setSlot r k x).grants = s.grants := rfl
@[simp] theorem setSlot_keys (s : State) (r k : Nat) (x : Slot) : (s.setSlot r k x).keys = s.keys := rfl
@[simp] theorem setSlot_fuses (s : State) (r k : Nat) (x : Slot) : (s.setSlot r k x).fuses = s.fuses := rfl
@[simp] theorem setSlot_boot (s : State) (r k : Nat) (x : Slot) : (s.setSlot r k x).boot = s.boot := rfl
@[simp] theorem setSlot_imageVersion (s : State) (r k : Nat) (x : Slot) : (s.setSlot r k x).imageVersion = s.imageVersion := rfl
@[simp] theorem setSlot_newImage (s : State) (r k : Nat) (x : Slot) : (s.setSlot r k x).newImage = s.newImage := rfl
@[simp] theorem setSlot_accepted (s : State) (r k : Nat) (x : Slot) : (s.setSlot r k x).accepted = s.accepted := rfl
@[simp] theorem setSlot_service (s : State) (r k : Nat) (x : Slot) : (s.setSlot r k x).service = s.service := rfl
@[simp] theorem setSlot_measures (s : State) (r k : Nat) (x : Slot) : (s.setSlot r k x).measures = s.measures := rfl
@[simp] theorem setSlot_svcQueue (s : State) (r k : Nat) (x : Slot) : (s.setSlot r k x).svcQueue = s.svcQueue := rfl
@[simp] theorem setSlot_tests (s : State) (r k : Nat) (x : Slot) : (s.setSlot r k x).tests = s.tests := rfl
@[simp] theorem setSlot_sums (s : State) (r k : Nat) (x : Slot) : (s.setSlot r k x).sums = s.sums := rfl
@[simp] theorem setSlot_residue (s : State) (r k : Nat) (x : Slot) : (s.setSlot r k x).residue = s.residue := rfl
@[simp] theorem setSlot_nextReq (s : State) (r k : Nat) (x : Slot) : (s.setSlot r k x).nextReq = s.nextReq := rfl
@[simp] theorem setSlot_schedule (s : State) (r k : Nat) (x : Slot) : (s.setSlot r k x).schedule = s.schedule := rfl
@[simp] theorem setSlot_tick (s : State) (r k : Nat) (x : Slot) : (s.setSlot r k x).tick = s.tick := rfl
@[simp] theorem setSlot_here (s : State) (r k : Nat) (x : Slot) : (s.setSlot r k x).here = s.here := rfl

@[simp] theorem updSlot_cycle (s : State) (r k : Nat) (f : Slot → Slot) : (s.updSlot r k f).cycle = s.cycle := rfl
@[simp] theorem updSlot_hbm (s : State) (r k : Nat) (f : Slot → Slot) : (s.updSlot r k f).hbm = s.hbm := rfl
@[simp] theorem updSlot_hbmTags (s : State) (r k : Nat) (f : Slot → Slot) : (s.updSlot r k f).hbmTags = s.hbmTags := rfl
@[simp] theorem updSlot_hbmPoison (s : State) (r k : Nat) (f : Slot → Slot) : (s.updSlot r k f).hbmPoison = s.hbmPoison := rfl
@[simp] theorem updSlot_hbmCorrected (s : State) (r k : Nat) (f : Slot → Slot) : (s.updSlot r k f).hbmCorrected = s.hbmCorrected := rfl
@[simp] theorem updSlot_hbmKeys (s : State) (r k : Nat) (f : Slot → Slot) : (s.updSlot r k f).hbmKeys = s.hbmKeys := rfl
@[simp] theorem updSlot_far (s : State) (r k : Nat) (f : Slot → Slot) : (s.updSlot r k f).far = s.far := rfl
@[simp] theorem updSlot_farPoison (s : State) (r k : Nat) (f : Slot → Slot) : (s.updSlot r k f).farPoison = s.farPoison := rfl
@[simp] theorem updSlot_farKeys (s : State) (r k : Nat) (f : Slot → Slot) : (s.updSlot r k f).farKeys = s.farKeys := rfl
@[simp] theorem updSlot_host (s : State) (r k : Nat) (f : Slot → Slot) : (s.updSlot r k f).host = s.host := rfl
@[simp] theorem updSlot_hostPoison (s : State) (r k : Nat) (f : Slot → Slot) : (s.updSlot r k f).hostPoison = s.hostPoison := rfl
@[simp] theorem updSlot_hostOut (s : State) (r k : Nat) (f : Slot → Slot) : (s.updSlot r k f).hostOut = s.hostOut := rfl
@[simp] theorem updSlot_reqs (s : State) (r k : Nat) (f : Slot → Slot) : (s.updSlot r k f).reqs = s.reqs := rfl
@[simp] theorem updSlot_stations (s : State) (r k : Nat) (f : Slot → Slot) : (s.updSlot r k f).stations = s.stations := rfl
@[simp] theorem updSlot_credits (s : State) (r k : Nat) (f : Slot → Slot) : (s.updSlot r k f).credits = s.credits := rfl
@[simp] theorem updSlot_promised (s : State) (r k : Nat) (f : Slot → Slot) : (s.updSlot r k f).promised = s.promised := rfl
@[simp] theorem updSlot_pageWait (s : State) (r k : Nat) (f : Slot → Slot) : (s.updSlot r k f).pageWait = s.pageWait := rfl
@[simp] theorem updSlot_desk (s : State) (r k : Nat) (f : Slot → Slot) : (s.updSlot r k f).desk = s.desk := rfl
@[simp] theorem updSlot_deskNext (s : State) (r k : Nat) (f : Slot → Slot) : (s.updSlot r k f).deskNext = s.deskNext := rfl
@[simp] theorem updSlot_pending (s : State) (r k : Nat) (f : Slot → Slot) : (s.updSlot r k f).pending = s.pending := rfl
@[simp] theorem updSlot_leave (s : State) (r k : Nat) (f : Slot → Slot) : (s.updSlot r k f).leave = s.leave := rfl
@[simp] theorem updSlot_leaveWait (s : State) (r k : Nat) (f : Slot → Slot) : (s.updSlot r k f).leaveWait = s.leaveWait := rfl
@[simp] theorem updSlot_lodgings (s : State) (r k : Nat) (f : Slot → Slot) : (s.updSlot r k f).lodgings = s.lodgings := rfl
@[simp] theorem updSlot_guests (s : State) (r k : Nat) (f : Slot → Slot) : (s.updSlot r k f).guests = s.guests := rfl
@[simp] theorem updSlot_saves (s : State) (r k : Nat) (f : Slot → Slot) : (s.updSlot r k f).saves = s.saves := rfl
@[simp] theorem updSlot_sessions (s : State) (r k : Nat) (f : Slot → Slot) : (s.updSlot r k f).sessions = s.sessions := rfl
@[simp] theorem updSlot_windows (s : State) (r k : Nat) (f : Slot → Slot) : (s.updSlot r k f).windows = s.windows := rfl
@[simp] theorem updSlot_spdm (s : State) (r k : Nat) (f : Slot → Slot) : (s.updSlot r k f).spdm = s.spdm := rfl
@[simp] theorem updSlot_speaking (s : State) (r k : Nat) (f : Slot → Slot) : (s.updSlot r k f).speaking = s.speaking := rfl
@[simp] theorem updSlot_ide (s : State) (r k : Nat) (f : Slot → Slot) : (s.updSlot r k f).ide = s.ide := rfl
@[simp] theorem updSlot_bar0 (s : State) (r k : Nat) (f : Slot → Slot) : (s.updSlot r k f).bar0 = s.bar0 := rfl
@[simp] theorem updSlot_agentReqs (s : State) (r k : Nat) (f : Slot → Slot) : (s.updSlot r k f).agentReqs = s.agentReqs := rfl
@[simp] theorem updSlot_nextAgent (s : State) (r k : Nat) (f : Slot → Slot) : (s.updSlot r k f).nextAgent = s.nextAgent := rfl
@[simp] theorem updSlot_colls (s : State) (r k : Nat) (f : Slot → Slot) : (s.updSlot r k f).colls = s.colls := rfl
@[simp] theorem updSlot_routes (s : State) (r k : Nat) (f : Slot → Slot) : (s.updSlot r k f).routes = s.routes := rfl
@[simp] theorem updSlot_failedLinks (s : State) (r k : Nat) (f : Slot → Slot) : (s.updSlot r k f).failedLinks = s.failedLinks := rfl
@[simp] theorem updSlot_pairs (s : State) (r k : Nat) (f : Slot → Slot) : (s.updSlot r k f).pairs = s.pairs := rfl
@[simp] theorem updSlot_linkOut (s : State) (r k : Nat) (f : Slot → Slot) : (s.updSlot r k f).linkOut = s.linkOut := rfl
@[simp] theorem updSlot_offers (s : State) (r k : Nat) (f : Slot → Slot) : (s.updSlot r k f).offers = s.offers := rfl
@[simp] theorem updSlot_accepts (s : State) (r k : Nat) (f : Slot → Slot) : (s.updSlot r k f).accepts = s.accepts := rfl
@[simp] theorem updSlot_grants (s : State) (r k : Nat) (f : Slot → Slot) : (s.updSlot r k f).grants = s.grants := rfl
@[simp] theorem updSlot_keys (s : State) (r k : Nat) (f : Slot → Slot) : (s.updSlot r k f).keys = s.keys := rfl
@[simp] theorem updSlot_fuses (s : State) (r k : Nat) (f : Slot → Slot) : (s.updSlot r k f).fuses = s.fuses := rfl
@[simp] theorem updSlot_boot (s : State) (r k : Nat) (f : Slot → Slot) : (s.updSlot r k f).boot = s.boot := rfl
@[simp] theorem updSlot_imageVersion (s : State) (r k : Nat) (f : Slot → Slot) : (s.updSlot r k f).imageVersion = s.imageVersion := rfl
@[simp] theorem updSlot_newImage (s : State) (r k : Nat) (f : Slot → Slot) : (s.updSlot r k f).newImage = s.newImage := rfl
@[simp] theorem updSlot_accepted (s : State) (r k : Nat) (f : Slot → Slot) : (s.updSlot r k f).accepted = s.accepted := rfl
@[simp] theorem updSlot_service (s : State) (r k : Nat) (f : Slot → Slot) : (s.updSlot r k f).service = s.service := rfl
@[simp] theorem updSlot_measures (s : State) (r k : Nat) (f : Slot → Slot) : (s.updSlot r k f).measures = s.measures := rfl
@[simp] theorem updSlot_svcQueue (s : State) (r k : Nat) (f : Slot → Slot) : (s.updSlot r k f).svcQueue = s.svcQueue := rfl
@[simp] theorem updSlot_tests (s : State) (r k : Nat) (f : Slot → Slot) : (s.updSlot r k f).tests = s.tests := rfl
@[simp] theorem updSlot_sums (s : State) (r k : Nat) (f : Slot → Slot) : (s.updSlot r k f).sums = s.sums := rfl
@[simp] theorem updSlot_residue (s : State) (r k : Nat) (f : Slot → Slot) : (s.updSlot r k f).residue = s.residue := rfl
@[simp] theorem updSlot_nextReq (s : State) (r k : Nat) (f : Slot → Slot) : (s.updSlot r k f).nextReq = s.nextReq := rfl
@[simp] theorem updSlot_schedule (s : State) (r k : Nat) (f : Slot → Slot) : (s.updSlot r k f).schedule = s.schedule := rfl
@[simp] theorem updSlot_tick (s : State) (r k : Nat) (f : Slot → Slot) : (s.updSlot r k f).tick = s.tick := rfl
@[simp] theorem updSlot_here (s : State) (r k : Nat) (f : Slot → Slot) : (s.updSlot r k f).here = s.here := rfl

@[simp] theorem updBlk_cycle (s : State) (r k : Nat) (f : Blk → Blk) : (s.updBlk r k f).cycle = s.cycle := rfl
@[simp] theorem updBlk_hbm (s : State) (r k : Nat) (f : Blk → Blk) : (s.updBlk r k f).hbm = s.hbm := rfl
@[simp] theorem updBlk_hbmTags (s : State) (r k : Nat) (f : Blk → Blk) : (s.updBlk r k f).hbmTags = s.hbmTags := rfl
@[simp] theorem updBlk_hbmPoison (s : State) (r k : Nat) (f : Blk → Blk) : (s.updBlk r k f).hbmPoison = s.hbmPoison := rfl
@[simp] theorem updBlk_hbmCorrected (s : State) (r k : Nat) (f : Blk → Blk) : (s.updBlk r k f).hbmCorrected = s.hbmCorrected := rfl
@[simp] theorem updBlk_hbmKeys (s : State) (r k : Nat) (f : Blk → Blk) : (s.updBlk r k f).hbmKeys = s.hbmKeys := rfl
@[simp] theorem updBlk_far (s : State) (r k : Nat) (f : Blk → Blk) : (s.updBlk r k f).far = s.far := rfl
@[simp] theorem updBlk_farPoison (s : State) (r k : Nat) (f : Blk → Blk) : (s.updBlk r k f).farPoison = s.farPoison := rfl
@[simp] theorem updBlk_farKeys (s : State) (r k : Nat) (f : Blk → Blk) : (s.updBlk r k f).farKeys = s.farKeys := rfl
@[simp] theorem updBlk_host (s : State) (r k : Nat) (f : Blk → Blk) : (s.updBlk r k f).host = s.host := rfl
@[simp] theorem updBlk_hostPoison (s : State) (r k : Nat) (f : Blk → Blk) : (s.updBlk r k f).hostPoison = s.hostPoison := rfl
@[simp] theorem updBlk_hostOut (s : State) (r k : Nat) (f : Blk → Blk) : (s.updBlk r k f).hostOut = s.hostOut := rfl
@[simp] theorem updBlk_reqs (s : State) (r k : Nat) (f : Blk → Blk) : (s.updBlk r k f).reqs = s.reqs := rfl
@[simp] theorem updBlk_stations (s : State) (r k : Nat) (f : Blk → Blk) : (s.updBlk r k f).stations = s.stations := rfl
@[simp] theorem updBlk_credits (s : State) (r k : Nat) (f : Blk → Blk) : (s.updBlk r k f).credits = s.credits := rfl
@[simp] theorem updBlk_promised (s : State) (r k : Nat) (f : Blk → Blk) : (s.updBlk r k f).promised = s.promised := rfl
@[simp] theorem updBlk_pageWait (s : State) (r k : Nat) (f : Blk → Blk) : (s.updBlk r k f).pageWait = s.pageWait := rfl
@[simp] theorem updBlk_desk (s : State) (r k : Nat) (f : Blk → Blk) : (s.updBlk r k f).desk = s.desk := rfl
@[simp] theorem updBlk_deskNext (s : State) (r k : Nat) (f : Blk → Blk) : (s.updBlk r k f).deskNext = s.deskNext := rfl
@[simp] theorem updBlk_pending (s : State) (r k : Nat) (f : Blk → Blk) : (s.updBlk r k f).pending = s.pending := rfl
@[simp] theorem updBlk_leave (s : State) (r k : Nat) (f : Blk → Blk) : (s.updBlk r k f).leave = s.leave := rfl
@[simp] theorem updBlk_leaveWait (s : State) (r k : Nat) (f : Blk → Blk) : (s.updBlk r k f).leaveWait = s.leaveWait := rfl
@[simp] theorem updBlk_lodgings (s : State) (r k : Nat) (f : Blk → Blk) : (s.updBlk r k f).lodgings = s.lodgings := rfl
@[simp] theorem updBlk_guests (s : State) (r k : Nat) (f : Blk → Blk) : (s.updBlk r k f).guests = s.guests := rfl
@[simp] theorem updBlk_saves (s : State) (r k : Nat) (f : Blk → Blk) : (s.updBlk r k f).saves = s.saves := rfl
@[simp] theorem updBlk_sessions (s : State) (r k : Nat) (f : Blk → Blk) : (s.updBlk r k f).sessions = s.sessions := rfl
@[simp] theorem updBlk_windows (s : State) (r k : Nat) (f : Blk → Blk) : (s.updBlk r k f).windows = s.windows := rfl
@[simp] theorem updBlk_spdm (s : State) (r k : Nat) (f : Blk → Blk) : (s.updBlk r k f).spdm = s.spdm := rfl
@[simp] theorem updBlk_speaking (s : State) (r k : Nat) (f : Blk → Blk) : (s.updBlk r k f).speaking = s.speaking := rfl
@[simp] theorem updBlk_ide (s : State) (r k : Nat) (f : Blk → Blk) : (s.updBlk r k f).ide = s.ide := rfl
@[simp] theorem updBlk_bar0 (s : State) (r k : Nat) (f : Blk → Blk) : (s.updBlk r k f).bar0 = s.bar0 := rfl
@[simp] theorem updBlk_agentReqs (s : State) (r k : Nat) (f : Blk → Blk) : (s.updBlk r k f).agentReqs = s.agentReqs := rfl
@[simp] theorem updBlk_nextAgent (s : State) (r k : Nat) (f : Blk → Blk) : (s.updBlk r k f).nextAgent = s.nextAgent := rfl
@[simp] theorem updBlk_colls (s : State) (r k : Nat) (f : Blk → Blk) : (s.updBlk r k f).colls = s.colls := rfl
@[simp] theorem updBlk_routes (s : State) (r k : Nat) (f : Blk → Blk) : (s.updBlk r k f).routes = s.routes := rfl
@[simp] theorem updBlk_failedLinks (s : State) (r k : Nat) (f : Blk → Blk) : (s.updBlk r k f).failedLinks = s.failedLinks := rfl
@[simp] theorem updBlk_pairs (s : State) (r k : Nat) (f : Blk → Blk) : (s.updBlk r k f).pairs = s.pairs := rfl
@[simp] theorem updBlk_linkOut (s : State) (r k : Nat) (f : Blk → Blk) : (s.updBlk r k f).linkOut = s.linkOut := rfl
@[simp] theorem updBlk_offers (s : State) (r k : Nat) (f : Blk → Blk) : (s.updBlk r k f).offers = s.offers := rfl
@[simp] theorem updBlk_accepts (s : State) (r k : Nat) (f : Blk → Blk) : (s.updBlk r k f).accepts = s.accepts := rfl
@[simp] theorem updBlk_grants (s : State) (r k : Nat) (f : Blk → Blk) : (s.updBlk r k f).grants = s.grants := rfl
@[simp] theorem updBlk_keys (s : State) (r k : Nat) (f : Blk → Blk) : (s.updBlk r k f).keys = s.keys := rfl
@[simp] theorem updBlk_fuses (s : State) (r k : Nat) (f : Blk → Blk) : (s.updBlk r k f).fuses = s.fuses := rfl
@[simp] theorem updBlk_boot (s : State) (r k : Nat) (f : Blk → Blk) : (s.updBlk r k f).boot = s.boot := rfl
@[simp] theorem updBlk_imageVersion (s : State) (r k : Nat) (f : Blk → Blk) : (s.updBlk r k f).imageVersion = s.imageVersion := rfl
@[simp] theorem updBlk_newImage (s : State) (r k : Nat) (f : Blk → Blk) : (s.updBlk r k f).newImage = s.newImage := rfl
@[simp] theorem updBlk_accepted (s : State) (r k : Nat) (f : Blk → Blk) : (s.updBlk r k f).accepted = s.accepted := rfl
@[simp] theorem updBlk_service (s : State) (r k : Nat) (f : Blk → Blk) : (s.updBlk r k f).service = s.service := rfl
@[simp] theorem updBlk_measures (s : State) (r k : Nat) (f : Blk → Blk) : (s.updBlk r k f).measures = s.measures := rfl
@[simp] theorem updBlk_svcQueue (s : State) (r k : Nat) (f : Blk → Blk) : (s.updBlk r k f).svcQueue = s.svcQueue := rfl
@[simp] theorem updBlk_tests (s : State) (r k : Nat) (f : Blk → Blk) : (s.updBlk r k f).tests = s.tests := rfl
@[simp] theorem updBlk_sums (s : State) (r k : Nat) (f : Blk → Blk) : (s.updBlk r k f).sums = s.sums := rfl
@[simp] theorem updBlk_residue (s : State) (r k : Nat) (f : Blk → Blk) : (s.updBlk r k f).residue = s.residue := rfl
@[simp] theorem updBlk_nextReq (s : State) (r k : Nat) (f : Blk → Blk) : (s.updBlk r k f).nextReq = s.nextReq := rfl
@[simp] theorem updBlk_schedule (s : State) (r k : Nat) (f : Blk → Blk) : (s.updBlk r k f).schedule = s.schedule := rfl
@[simp] theorem updBlk_tick (s : State) (r k : Nat) (f : Blk → Blk) : (s.updBlk r k f).tick = s.tick := rfl
@[simp] theorem updBlk_here (s : State) (r k : Nat) (f : Blk → Blk) : (s.updBlk r k f).here = s.here := rfl

@[simp] theorem count_cycle (s : State) (r e n : Nat) : (s.count r e n).cycle = s.cycle := rfl
@[simp] theorem count_hbm (s : State) (r e n : Nat) : (s.count r e n).hbm = s.hbm := rfl
@[simp] theorem count_hbmTags (s : State) (r e n : Nat) : (s.count r e n).hbmTags = s.hbmTags := rfl
@[simp] theorem count_hbmPoison (s : State) (r e n : Nat) : (s.count r e n).hbmPoison = s.hbmPoison := rfl
@[simp] theorem count_hbmCorrected (s : State) (r e n : Nat) : (s.count r e n).hbmCorrected = s.hbmCorrected := rfl
@[simp] theorem count_hbmKeys (s : State) (r e n : Nat) : (s.count r e n).hbmKeys = s.hbmKeys := rfl
@[simp] theorem count_far (s : State) (r e n : Nat) : (s.count r e n).far = s.far := rfl
@[simp] theorem count_farPoison (s : State) (r e n : Nat) : (s.count r e n).farPoison = s.farPoison := rfl
@[simp] theorem count_farKeys (s : State) (r e n : Nat) : (s.count r e n).farKeys = s.farKeys := rfl
@[simp] theorem count_host (s : State) (r e n : Nat) : (s.count r e n).host = s.host := rfl
@[simp] theorem count_hostPoison (s : State) (r e n : Nat) : (s.count r e n).hostPoison = s.hostPoison := rfl
@[simp] theorem count_hostOut (s : State) (r e n : Nat) : (s.count r e n).hostOut = s.hostOut := rfl
@[simp] theorem count_reqs (s : State) (r e n : Nat) : (s.count r e n).reqs = s.reqs := rfl
@[simp] theorem count_stations (s : State) (r e n : Nat) : (s.count r e n).stations = s.stations := rfl
@[simp] theorem count_credits (s : State) (r e n : Nat) : (s.count r e n).credits = s.credits := rfl
@[simp] theorem count_promised (s : State) (r e n : Nat) : (s.count r e n).promised = s.promised := rfl
@[simp] theorem count_pageWait (s : State) (r e n : Nat) : (s.count r e n).pageWait = s.pageWait := rfl
@[simp] theorem count_desk (s : State) (r e n : Nat) : (s.count r e n).desk = s.desk := rfl
@[simp] theorem count_deskNext (s : State) (r e n : Nat) : (s.count r e n).deskNext = s.deskNext := rfl
@[simp] theorem count_pending (s : State) (r e n : Nat) : (s.count r e n).pending = s.pending := rfl
@[simp] theorem count_leave (s : State) (r e n : Nat) : (s.count r e n).leave = s.leave := rfl
@[simp] theorem count_leaveWait (s : State) (r e n : Nat) : (s.count r e n).leaveWait = s.leaveWait := rfl
@[simp] theorem count_lodgings (s : State) (r e n : Nat) : (s.count r e n).lodgings = s.lodgings := rfl
@[simp] theorem count_guests (s : State) (r e n : Nat) : (s.count r e n).guests = s.guests := rfl
@[simp] theorem count_saves (s : State) (r e n : Nat) : (s.count r e n).saves = s.saves := rfl
@[simp] theorem count_sessions (s : State) (r e n : Nat) : (s.count r e n).sessions = s.sessions := rfl
@[simp] theorem count_windows (s : State) (r e n : Nat) : (s.count r e n).windows = s.windows := rfl
@[simp] theorem count_spdm (s : State) (r e n : Nat) : (s.count r e n).spdm = s.spdm := rfl
@[simp] theorem count_speaking (s : State) (r e n : Nat) : (s.count r e n).speaking = s.speaking := rfl
@[simp] theorem count_ide (s : State) (r e n : Nat) : (s.count r e n).ide = s.ide := rfl
@[simp] theorem count_bar0 (s : State) (r e n : Nat) : (s.count r e n).bar0 = s.bar0 := rfl
@[simp] theorem count_agentReqs (s : State) (r e n : Nat) : (s.count r e n).agentReqs = s.agentReqs := rfl
@[simp] theorem count_nextAgent (s : State) (r e n : Nat) : (s.count r e n).nextAgent = s.nextAgent := rfl
@[simp] theorem count_colls (s : State) (r e n : Nat) : (s.count r e n).colls = s.colls := rfl
@[simp] theorem count_routes (s : State) (r e n : Nat) : (s.count r e n).routes = s.routes := rfl
@[simp] theorem count_failedLinks (s : State) (r e n : Nat) : (s.count r e n).failedLinks = s.failedLinks := rfl
@[simp] theorem count_pairs (s : State) (r e n : Nat) : (s.count r e n).pairs = s.pairs := rfl
@[simp] theorem count_linkOut (s : State) (r e n : Nat) : (s.count r e n).linkOut = s.linkOut := rfl
@[simp] theorem count_offers (s : State) (r e n : Nat) : (s.count r e n).offers = s.offers := rfl
@[simp] theorem count_accepts (s : State) (r e n : Nat) : (s.count r e n).accepts = s.accepts := rfl
@[simp] theorem count_grants (s : State) (r e n : Nat) : (s.count r e n).grants = s.grants := rfl
@[simp] theorem count_keys (s : State) (r e n : Nat) : (s.count r e n).keys = s.keys := rfl
@[simp] theorem count_fuses (s : State) (r e n : Nat) : (s.count r e n).fuses = s.fuses := rfl
@[simp] theorem count_boot (s : State) (r e n : Nat) : (s.count r e n).boot = s.boot := rfl
@[simp] theorem count_imageVersion (s : State) (r e n : Nat) : (s.count r e n).imageVersion = s.imageVersion := rfl
@[simp] theorem count_newImage (s : State) (r e n : Nat) : (s.count r e n).newImage = s.newImage := rfl
@[simp] theorem count_accepted (s : State) (r e n : Nat) : (s.count r e n).accepted = s.accepted := rfl
@[simp] theorem count_service (s : State) (r e n : Nat) : (s.count r e n).service = s.service := rfl
@[simp] theorem count_measures (s : State) (r e n : Nat) : (s.count r e n).measures = s.measures := rfl
@[simp] theorem count_svcQueue (s : State) (r e n : Nat) : (s.count r e n).svcQueue = s.svcQueue := rfl
@[simp] theorem count_tests (s : State) (r e n : Nat) : (s.count r e n).tests = s.tests := rfl
@[simp] theorem count_sums (s : State) (r e n : Nat) : (s.count r e n).sums = s.sums := rfl
@[simp] theorem count_residue (s : State) (r e n : Nat) : (s.count r e n).residue = s.residue := rfl
@[simp] theorem count_nextReq (s : State) (r e n : Nat) : (s.count r e n).nextReq = s.nextReq := rfl
@[simp] theorem count_schedule (s : State) (r e n : Nat) : (s.count r e n).schedule = s.schedule := rfl
@[simp] theorem count_tick (s : State) (r e n : Nat) : (s.count r e n).tick = s.tick := rfl
@[simp] theorem count_here (s : State) (r e n : Nat) : (s.count r e n).here = s.here := rfl

@[simp] theorem noteError_cycle (s : State) (r unit : Nat) : (s.noteError r unit).cycle = s.cycle := rfl
@[simp] theorem noteError_hbm (s : State) (r unit : Nat) : (s.noteError r unit).hbm = s.hbm := rfl
@[simp] theorem noteError_hbmTags (s : State) (r unit : Nat) : (s.noteError r unit).hbmTags = s.hbmTags := rfl
@[simp] theorem noteError_hbmPoison (s : State) (r unit : Nat) : (s.noteError r unit).hbmPoison = s.hbmPoison := rfl
@[simp] theorem noteError_hbmCorrected (s : State) (r unit : Nat) : (s.noteError r unit).hbmCorrected = s.hbmCorrected := rfl
@[simp] theorem noteError_hbmKeys (s : State) (r unit : Nat) : (s.noteError r unit).hbmKeys = s.hbmKeys := rfl
@[simp] theorem noteError_far (s : State) (r unit : Nat) : (s.noteError r unit).far = s.far := rfl
@[simp] theorem noteError_farPoison (s : State) (r unit : Nat) : (s.noteError r unit).farPoison = s.farPoison := rfl
@[simp] theorem noteError_farKeys (s : State) (r unit : Nat) : (s.noteError r unit).farKeys = s.farKeys := rfl
@[simp] theorem noteError_host (s : State) (r unit : Nat) : (s.noteError r unit).host = s.host := rfl
@[simp] theorem noteError_hostPoison (s : State) (r unit : Nat) : (s.noteError r unit).hostPoison = s.hostPoison := rfl
@[simp] theorem noteError_hostOut (s : State) (r unit : Nat) : (s.noteError r unit).hostOut = s.hostOut := rfl
@[simp] theorem noteError_reqs (s : State) (r unit : Nat) : (s.noteError r unit).reqs = s.reqs := rfl
@[simp] theorem noteError_stations (s : State) (r unit : Nat) : (s.noteError r unit).stations = s.stations := rfl
@[simp] theorem noteError_credits (s : State) (r unit : Nat) : (s.noteError r unit).credits = s.credits := rfl
@[simp] theorem noteError_promised (s : State) (r unit : Nat) : (s.noteError r unit).promised = s.promised := rfl
@[simp] theorem noteError_pageWait (s : State) (r unit : Nat) : (s.noteError r unit).pageWait = s.pageWait := rfl
@[simp] theorem noteError_desk (s : State) (r unit : Nat) : (s.noteError r unit).desk = s.desk := rfl
@[simp] theorem noteError_deskNext (s : State) (r unit : Nat) : (s.noteError r unit).deskNext = s.deskNext := rfl
@[simp] theorem noteError_pending (s : State) (r unit : Nat) : (s.noteError r unit).pending = s.pending := rfl
@[simp] theorem noteError_leave (s : State) (r unit : Nat) : (s.noteError r unit).leave = s.leave := rfl
@[simp] theorem noteError_leaveWait (s : State) (r unit : Nat) : (s.noteError r unit).leaveWait = s.leaveWait := rfl
@[simp] theorem noteError_lodgings (s : State) (r unit : Nat) : (s.noteError r unit).lodgings = s.lodgings := rfl
@[simp] theorem noteError_guests (s : State) (r unit : Nat) : (s.noteError r unit).guests = s.guests := rfl
@[simp] theorem noteError_saves (s : State) (r unit : Nat) : (s.noteError r unit).saves = s.saves := rfl
@[simp] theorem noteError_sessions (s : State) (r unit : Nat) : (s.noteError r unit).sessions = s.sessions := rfl
@[simp] theorem noteError_windows (s : State) (r unit : Nat) : (s.noteError r unit).windows = s.windows := rfl
@[simp] theorem noteError_spdm (s : State) (r unit : Nat) : (s.noteError r unit).spdm = s.spdm := rfl
@[simp] theorem noteError_speaking (s : State) (r unit : Nat) : (s.noteError r unit).speaking = s.speaking := rfl
@[simp] theorem noteError_ide (s : State) (r unit : Nat) : (s.noteError r unit).ide = s.ide := rfl
@[simp] theorem noteError_bar0 (s : State) (r unit : Nat) : (s.noteError r unit).bar0 = s.bar0 := rfl
@[simp] theorem noteError_agentReqs (s : State) (r unit : Nat) : (s.noteError r unit).agentReqs = s.agentReqs := rfl
@[simp] theorem noteError_nextAgent (s : State) (r unit : Nat) : (s.noteError r unit).nextAgent = s.nextAgent := rfl
@[simp] theorem noteError_colls (s : State) (r unit : Nat) : (s.noteError r unit).colls = s.colls := rfl
@[simp] theorem noteError_routes (s : State) (r unit : Nat) : (s.noteError r unit).routes = s.routes := rfl
@[simp] theorem noteError_failedLinks (s : State) (r unit : Nat) : (s.noteError r unit).failedLinks = s.failedLinks := rfl
@[simp] theorem noteError_pairs (s : State) (r unit : Nat) : (s.noteError r unit).pairs = s.pairs := rfl
@[simp] theorem noteError_linkOut (s : State) (r unit : Nat) : (s.noteError r unit).linkOut = s.linkOut := rfl
@[simp] theorem noteError_offers (s : State) (r unit : Nat) : (s.noteError r unit).offers = s.offers := rfl
@[simp] theorem noteError_accepts (s : State) (r unit : Nat) : (s.noteError r unit).accepts = s.accepts := rfl
@[simp] theorem noteError_grants (s : State) (r unit : Nat) : (s.noteError r unit).grants = s.grants := rfl
@[simp] theorem noteError_keys (s : State) (r unit : Nat) : (s.noteError r unit).keys = s.keys := rfl
@[simp] theorem noteError_fuses (s : State) (r unit : Nat) : (s.noteError r unit).fuses = s.fuses := rfl
@[simp] theorem noteError_boot (s : State) (r unit : Nat) : (s.noteError r unit).boot = s.boot := rfl
@[simp] theorem noteError_imageVersion (s : State) (r unit : Nat) : (s.noteError r unit).imageVersion = s.imageVersion := rfl
@[simp] theorem noteError_newImage (s : State) (r unit : Nat) : (s.noteError r unit).newImage = s.newImage := rfl
@[simp] theorem noteError_accepted (s : State) (r unit : Nat) : (s.noteError r unit).accepted = s.accepted := rfl
@[simp] theorem noteError_service (s : State) (r unit : Nat) : (s.noteError r unit).service = s.service := rfl
@[simp] theorem noteError_measures (s : State) (r unit : Nat) : (s.noteError r unit).measures = s.measures := rfl
@[simp] theorem noteError_svcQueue (s : State) (r unit : Nat) : (s.noteError r unit).svcQueue = s.svcQueue := rfl
@[simp] theorem noteError_tests (s : State) (r unit : Nat) : (s.noteError r unit).tests = s.tests := rfl
@[simp] theorem noteError_sums (s : State) (r unit : Nat) : (s.noteError r unit).sums = s.sums := rfl
@[simp] theorem noteError_residue (s : State) (r unit : Nat) : (s.noteError r unit).residue = s.residue := rfl
@[simp] theorem noteError_nextReq (s : State) (r unit : Nat) : (s.noteError r unit).nextReq = s.nextReq := rfl
@[simp] theorem noteError_schedule (s : State) (r unit : Nat) : (s.noteError r unit).schedule = s.schedule := rfl
@[simp] theorem noteError_tick (s : State) (r unit : Nat) : (s.noteError r unit).tick = s.tick := rfl
@[simp] theorem noteError_here (s : State) (r unit : Nat) : (s.noteError r unit).here = s.here := rfl

@[simp] theorem storeS_cycle (s : State) (r off : Nat) (bs : List Byte) : (s.storeS r off bs).cycle = s.cycle := rfl
@[simp] theorem storeS_hbm (s : State) (r off : Nat) (bs : List Byte) : (s.storeS r off bs).hbm = s.hbm := rfl
@[simp] theorem storeS_hbmTags (s : State) (r off : Nat) (bs : List Byte) : (s.storeS r off bs).hbmTags = s.hbmTags := rfl
@[simp] theorem storeS_hbmPoison (s : State) (r off : Nat) (bs : List Byte) : (s.storeS r off bs).hbmPoison = s.hbmPoison := rfl
@[simp] theorem storeS_hbmCorrected (s : State) (r off : Nat) (bs : List Byte) : (s.storeS r off bs).hbmCorrected = s.hbmCorrected := rfl
@[simp] theorem storeS_hbmKeys (s : State) (r off : Nat) (bs : List Byte) : (s.storeS r off bs).hbmKeys = s.hbmKeys := rfl
@[simp] theorem storeS_far (s : State) (r off : Nat) (bs : List Byte) : (s.storeS r off bs).far = s.far := rfl
@[simp] theorem storeS_farPoison (s : State) (r off : Nat) (bs : List Byte) : (s.storeS r off bs).farPoison = s.farPoison := rfl
@[simp] theorem storeS_farKeys (s : State) (r off : Nat) (bs : List Byte) : (s.storeS r off bs).farKeys = s.farKeys := rfl
@[simp] theorem storeS_host (s : State) (r off : Nat) (bs : List Byte) : (s.storeS r off bs).host = s.host := rfl
@[simp] theorem storeS_hostPoison (s : State) (r off : Nat) (bs : List Byte) : (s.storeS r off bs).hostPoison = s.hostPoison := rfl
@[simp] theorem storeS_hostOut (s : State) (r off : Nat) (bs : List Byte) : (s.storeS r off bs).hostOut = s.hostOut := rfl
@[simp] theorem storeS_reqs (s : State) (r off : Nat) (bs : List Byte) : (s.storeS r off bs).reqs = s.reqs := rfl
@[simp] theorem storeS_stations (s : State) (r off : Nat) (bs : List Byte) : (s.storeS r off bs).stations = s.stations := rfl
@[simp] theorem storeS_credits (s : State) (r off : Nat) (bs : List Byte) : (s.storeS r off bs).credits = s.credits := rfl
@[simp] theorem storeS_promised (s : State) (r off : Nat) (bs : List Byte) : (s.storeS r off bs).promised = s.promised := rfl
@[simp] theorem storeS_pageWait (s : State) (r off : Nat) (bs : List Byte) : (s.storeS r off bs).pageWait = s.pageWait := rfl
@[simp] theorem storeS_desk (s : State) (r off : Nat) (bs : List Byte) : (s.storeS r off bs).desk = s.desk := rfl
@[simp] theorem storeS_deskNext (s : State) (r off : Nat) (bs : List Byte) : (s.storeS r off bs).deskNext = s.deskNext := rfl
@[simp] theorem storeS_pending (s : State) (r off : Nat) (bs : List Byte) : (s.storeS r off bs).pending = s.pending := rfl
@[simp] theorem storeS_leave (s : State) (r off : Nat) (bs : List Byte) : (s.storeS r off bs).leave = s.leave := rfl
@[simp] theorem storeS_leaveWait (s : State) (r off : Nat) (bs : List Byte) : (s.storeS r off bs).leaveWait = s.leaveWait := rfl
@[simp] theorem storeS_lodgings (s : State) (r off : Nat) (bs : List Byte) : (s.storeS r off bs).lodgings = s.lodgings := rfl
@[simp] theorem storeS_guests (s : State) (r off : Nat) (bs : List Byte) : (s.storeS r off bs).guests = s.guests := rfl
@[simp] theorem storeS_saves (s : State) (r off : Nat) (bs : List Byte) : (s.storeS r off bs).saves = s.saves := rfl
@[simp] theorem storeS_sessions (s : State) (r off : Nat) (bs : List Byte) : (s.storeS r off bs).sessions = s.sessions := rfl
@[simp] theorem storeS_windows (s : State) (r off : Nat) (bs : List Byte) : (s.storeS r off bs).windows = s.windows := rfl
@[simp] theorem storeS_spdm (s : State) (r off : Nat) (bs : List Byte) : (s.storeS r off bs).spdm = s.spdm := rfl
@[simp] theorem storeS_speaking (s : State) (r off : Nat) (bs : List Byte) : (s.storeS r off bs).speaking = s.speaking := rfl
@[simp] theorem storeS_ide (s : State) (r off : Nat) (bs : List Byte) : (s.storeS r off bs).ide = s.ide := rfl
@[simp] theorem storeS_bar0 (s : State) (r off : Nat) (bs : List Byte) : (s.storeS r off bs).bar0 = s.bar0 := rfl
@[simp] theorem storeS_agentReqs (s : State) (r off : Nat) (bs : List Byte) : (s.storeS r off bs).agentReqs = s.agentReqs := rfl
@[simp] theorem storeS_nextAgent (s : State) (r off : Nat) (bs : List Byte) : (s.storeS r off bs).nextAgent = s.nextAgent := rfl
@[simp] theorem storeS_colls (s : State) (r off : Nat) (bs : List Byte) : (s.storeS r off bs).colls = s.colls := rfl
@[simp] theorem storeS_routes (s : State) (r off : Nat) (bs : List Byte) : (s.storeS r off bs).routes = s.routes := rfl
@[simp] theorem storeS_failedLinks (s : State) (r off : Nat) (bs : List Byte) : (s.storeS r off bs).failedLinks = s.failedLinks := rfl
@[simp] theorem storeS_pairs (s : State) (r off : Nat) (bs : List Byte) : (s.storeS r off bs).pairs = s.pairs := rfl
@[simp] theorem storeS_linkOut (s : State) (r off : Nat) (bs : List Byte) : (s.storeS r off bs).linkOut = s.linkOut := rfl
@[simp] theorem storeS_offers (s : State) (r off : Nat) (bs : List Byte) : (s.storeS r off bs).offers = s.offers := rfl
@[simp] theorem storeS_accepts (s : State) (r off : Nat) (bs : List Byte) : (s.storeS r off bs).accepts = s.accepts := rfl
@[simp] theorem storeS_grants (s : State) (r off : Nat) (bs : List Byte) : (s.storeS r off bs).grants = s.grants := rfl
@[simp] theorem storeS_keys (s : State) (r off : Nat) (bs : List Byte) : (s.storeS r off bs).keys = s.keys := rfl
@[simp] theorem storeS_fuses (s : State) (r off : Nat) (bs : List Byte) : (s.storeS r off bs).fuses = s.fuses := rfl
@[simp] theorem storeS_boot (s : State) (r off : Nat) (bs : List Byte) : (s.storeS r off bs).boot = s.boot := rfl
@[simp] theorem storeS_imageVersion (s : State) (r off : Nat) (bs : List Byte) : (s.storeS r off bs).imageVersion = s.imageVersion := rfl
@[simp] theorem storeS_newImage (s : State) (r off : Nat) (bs : List Byte) : (s.storeS r off bs).newImage = s.newImage := rfl
@[simp] theorem storeS_accepted (s : State) (r off : Nat) (bs : List Byte) : (s.storeS r off bs).accepted = s.accepted := rfl
@[simp] theorem storeS_service (s : State) (r off : Nat) (bs : List Byte) : (s.storeS r off bs).service = s.service := rfl
@[simp] theorem storeS_measures (s : State) (r off : Nat) (bs : List Byte) : (s.storeS r off bs).measures = s.measures := rfl
@[simp] theorem storeS_svcQueue (s : State) (r off : Nat) (bs : List Byte) : (s.storeS r off bs).svcQueue = s.svcQueue := rfl
@[simp] theorem storeS_tests (s : State) (r off : Nat) (bs : List Byte) : (s.storeS r off bs).tests = s.tests := rfl
@[simp] theorem storeS_sums (s : State) (r off : Nat) (bs : List Byte) : (s.storeS r off bs).sums = s.sums := rfl
@[simp] theorem storeS_residue (s : State) (r off : Nat) (bs : List Byte) : (s.storeS r off bs).residue = s.residue := rfl
@[simp] theorem storeS_nextReq (s : State) (r off : Nat) (bs : List Byte) : (s.storeS r off bs).nextReq = s.nextReq := rfl
@[simp] theorem storeS_schedule (s : State) (r off : Nat) (bs : List Byte) : (s.storeS r off bs).schedule = s.schedule := rfl
@[simp] theorem storeS_tick (s : State) (r off : Nat) (bs : List Byte) : (s.storeS r off bs).tick = s.tick := rfl
@[simp] theorem storeS_here (s : State) (r off : Nat) (bs : List Byte) : (s.storeS r off bs).here = s.here := rfl

@[simp] theorem putS_cycle (s : State) (r off n v : Nat) : (s.putS r off n v).cycle = s.cycle := rfl
@[simp] theorem putS_hbm (s : State) (r off n v : Nat) : (s.putS r off n v).hbm = s.hbm := rfl
@[simp] theorem putS_hbmTags (s : State) (r off n v : Nat) : (s.putS r off n v).hbmTags = s.hbmTags := rfl
@[simp] theorem putS_hbmPoison (s : State) (r off n v : Nat) : (s.putS r off n v).hbmPoison = s.hbmPoison := rfl
@[simp] theorem putS_hbmCorrected (s : State) (r off n v : Nat) : (s.putS r off n v).hbmCorrected = s.hbmCorrected := rfl
@[simp] theorem putS_hbmKeys (s : State) (r off n v : Nat) : (s.putS r off n v).hbmKeys = s.hbmKeys := rfl
@[simp] theorem putS_far (s : State) (r off n v : Nat) : (s.putS r off n v).far = s.far := rfl
@[simp] theorem putS_farPoison (s : State) (r off n v : Nat) : (s.putS r off n v).farPoison = s.farPoison := rfl
@[simp] theorem putS_farKeys (s : State) (r off n v : Nat) : (s.putS r off n v).farKeys = s.farKeys := rfl
@[simp] theorem putS_host (s : State) (r off n v : Nat) : (s.putS r off n v).host = s.host := rfl
@[simp] theorem putS_hostPoison (s : State) (r off n v : Nat) : (s.putS r off n v).hostPoison = s.hostPoison := rfl
@[simp] theorem putS_hostOut (s : State) (r off n v : Nat) : (s.putS r off n v).hostOut = s.hostOut := rfl
@[simp] theorem putS_reqs (s : State) (r off n v : Nat) : (s.putS r off n v).reqs = s.reqs := rfl
@[simp] theorem putS_stations (s : State) (r off n v : Nat) : (s.putS r off n v).stations = s.stations := rfl
@[simp] theorem putS_credits (s : State) (r off n v : Nat) : (s.putS r off n v).credits = s.credits := rfl
@[simp] theorem putS_promised (s : State) (r off n v : Nat) : (s.putS r off n v).promised = s.promised := rfl
@[simp] theorem putS_pageWait (s : State) (r off n v : Nat) : (s.putS r off n v).pageWait = s.pageWait := rfl
@[simp] theorem putS_desk (s : State) (r off n v : Nat) : (s.putS r off n v).desk = s.desk := rfl
@[simp] theorem putS_deskNext (s : State) (r off n v : Nat) : (s.putS r off n v).deskNext = s.deskNext := rfl
@[simp] theorem putS_pending (s : State) (r off n v : Nat) : (s.putS r off n v).pending = s.pending := rfl
@[simp] theorem putS_leave (s : State) (r off n v : Nat) : (s.putS r off n v).leave = s.leave := rfl
@[simp] theorem putS_leaveWait (s : State) (r off n v : Nat) : (s.putS r off n v).leaveWait = s.leaveWait := rfl
@[simp] theorem putS_lodgings (s : State) (r off n v : Nat) : (s.putS r off n v).lodgings = s.lodgings := rfl
@[simp] theorem putS_guests (s : State) (r off n v : Nat) : (s.putS r off n v).guests = s.guests := rfl
@[simp] theorem putS_saves (s : State) (r off n v : Nat) : (s.putS r off n v).saves = s.saves := rfl
@[simp] theorem putS_sessions (s : State) (r off n v : Nat) : (s.putS r off n v).sessions = s.sessions := rfl
@[simp] theorem putS_windows (s : State) (r off n v : Nat) : (s.putS r off n v).windows = s.windows := rfl
@[simp] theorem putS_spdm (s : State) (r off n v : Nat) : (s.putS r off n v).spdm = s.spdm := rfl
@[simp] theorem putS_speaking (s : State) (r off n v : Nat) : (s.putS r off n v).speaking = s.speaking := rfl
@[simp] theorem putS_ide (s : State) (r off n v : Nat) : (s.putS r off n v).ide = s.ide := rfl
@[simp] theorem putS_bar0 (s : State) (r off n v : Nat) : (s.putS r off n v).bar0 = s.bar0 := rfl
@[simp] theorem putS_agentReqs (s : State) (r off n v : Nat) : (s.putS r off n v).agentReqs = s.agentReqs := rfl
@[simp] theorem putS_nextAgent (s : State) (r off n v : Nat) : (s.putS r off n v).nextAgent = s.nextAgent := rfl
@[simp] theorem putS_colls (s : State) (r off n v : Nat) : (s.putS r off n v).colls = s.colls := rfl
@[simp] theorem putS_routes (s : State) (r off n v : Nat) : (s.putS r off n v).routes = s.routes := rfl
@[simp] theorem putS_failedLinks (s : State) (r off n v : Nat) : (s.putS r off n v).failedLinks = s.failedLinks := rfl
@[simp] theorem putS_pairs (s : State) (r off n v : Nat) : (s.putS r off n v).pairs = s.pairs := rfl
@[simp] theorem putS_linkOut (s : State) (r off n v : Nat) : (s.putS r off n v).linkOut = s.linkOut := rfl
@[simp] theorem putS_offers (s : State) (r off n v : Nat) : (s.putS r off n v).offers = s.offers := rfl
@[simp] theorem putS_accepts (s : State) (r off n v : Nat) : (s.putS r off n v).accepts = s.accepts := rfl
@[simp] theorem putS_grants (s : State) (r off n v : Nat) : (s.putS r off n v).grants = s.grants := rfl
@[simp] theorem putS_keys (s : State) (r off n v : Nat) : (s.putS r off n v).keys = s.keys := rfl
@[simp] theorem putS_fuses (s : State) (r off n v : Nat) : (s.putS r off n v).fuses = s.fuses := rfl
@[simp] theorem putS_boot (s : State) (r off n v : Nat) : (s.putS r off n v).boot = s.boot := rfl
@[simp] theorem putS_imageVersion (s : State) (r off n v : Nat) : (s.putS r off n v).imageVersion = s.imageVersion := rfl
@[simp] theorem putS_newImage (s : State) (r off n v : Nat) : (s.putS r off n v).newImage = s.newImage := rfl
@[simp] theorem putS_accepted (s : State) (r off n v : Nat) : (s.putS r off n v).accepted = s.accepted := rfl
@[simp] theorem putS_service (s : State) (r off n v : Nat) : (s.putS r off n v).service = s.service := rfl
@[simp] theorem putS_measures (s : State) (r off n v : Nat) : (s.putS r off n v).measures = s.measures := rfl
@[simp] theorem putS_svcQueue (s : State) (r off n v : Nat) : (s.putS r off n v).svcQueue = s.svcQueue := rfl
@[simp] theorem putS_tests (s : State) (r off n v : Nat) : (s.putS r off n v).tests = s.tests := rfl
@[simp] theorem putS_sums (s : State) (r off n v : Nat) : (s.putS r off n v).sums = s.sums := rfl
@[simp] theorem putS_residue (s : State) (r off n v : Nat) : (s.putS r off n v).residue = s.residue := rfl
@[simp] theorem putS_nextReq (s : State) (r off n v : Nat) : (s.putS r off n v).nextReq = s.nextReq := rfl
@[simp] theorem putS_schedule (s : State) (r off n v : Nat) : (s.putS r off n v).schedule = s.schedule := rfl
@[simp] theorem putS_tick (s : State) (r off n v : Nat) : (s.putS r off n v).tick = s.tick := rfl
@[simp] theorem putS_here (s : State) (r off n v : Nat) : (s.putS r off n v).here = s.here := rfl

@[simp] theorem qPop_cycle (s : State) (r off : Nat) : (s.qPop r off).cycle = s.cycle := rfl
@[simp] theorem qPop_hbm (s : State) (r off : Nat) : (s.qPop r off).hbm = s.hbm := rfl
@[simp] theorem qPop_hbmTags (s : State) (r off : Nat) : (s.qPop r off).hbmTags = s.hbmTags := rfl
@[simp] theorem qPop_hbmPoison (s : State) (r off : Nat) : (s.qPop r off).hbmPoison = s.hbmPoison := rfl
@[simp] theorem qPop_hbmCorrected (s : State) (r off : Nat) : (s.qPop r off).hbmCorrected = s.hbmCorrected := rfl
@[simp] theorem qPop_hbmKeys (s : State) (r off : Nat) : (s.qPop r off).hbmKeys = s.hbmKeys := rfl
@[simp] theorem qPop_far (s : State) (r off : Nat) : (s.qPop r off).far = s.far := rfl
@[simp] theorem qPop_farPoison (s : State) (r off : Nat) : (s.qPop r off).farPoison = s.farPoison := rfl
@[simp] theorem qPop_farKeys (s : State) (r off : Nat) : (s.qPop r off).farKeys = s.farKeys := rfl
@[simp] theorem qPop_host (s : State) (r off : Nat) : (s.qPop r off).host = s.host := rfl
@[simp] theorem qPop_hostPoison (s : State) (r off : Nat) : (s.qPop r off).hostPoison = s.hostPoison := rfl
@[simp] theorem qPop_hostOut (s : State) (r off : Nat) : (s.qPop r off).hostOut = s.hostOut := rfl
@[simp] theorem qPop_reqs (s : State) (r off : Nat) : (s.qPop r off).reqs = s.reqs := rfl
@[simp] theorem qPop_stations (s : State) (r off : Nat) : (s.qPop r off).stations = s.stations := rfl
@[simp] theorem qPop_credits (s : State) (r off : Nat) : (s.qPop r off).credits = s.credits := rfl
@[simp] theorem qPop_promised (s : State) (r off : Nat) : (s.qPop r off).promised = s.promised := rfl
@[simp] theorem qPop_pageWait (s : State) (r off : Nat) : (s.qPop r off).pageWait = s.pageWait := rfl
@[simp] theorem qPop_desk (s : State) (r off : Nat) : (s.qPop r off).desk = s.desk := rfl
@[simp] theorem qPop_deskNext (s : State) (r off : Nat) : (s.qPop r off).deskNext = s.deskNext := rfl
@[simp] theorem qPop_pending (s : State) (r off : Nat) : (s.qPop r off).pending = s.pending := rfl
@[simp] theorem qPop_leave (s : State) (r off : Nat) : (s.qPop r off).leave = s.leave := rfl
@[simp] theorem qPop_leaveWait (s : State) (r off : Nat) : (s.qPop r off).leaveWait = s.leaveWait := rfl
@[simp] theorem qPop_lodgings (s : State) (r off : Nat) : (s.qPop r off).lodgings = s.lodgings := rfl
@[simp] theorem qPop_guests (s : State) (r off : Nat) : (s.qPop r off).guests = s.guests := rfl
@[simp] theorem qPop_saves (s : State) (r off : Nat) : (s.qPop r off).saves = s.saves := rfl
@[simp] theorem qPop_sessions (s : State) (r off : Nat) : (s.qPop r off).sessions = s.sessions := rfl
@[simp] theorem qPop_windows (s : State) (r off : Nat) : (s.qPop r off).windows = s.windows := rfl
@[simp] theorem qPop_spdm (s : State) (r off : Nat) : (s.qPop r off).spdm = s.spdm := rfl
@[simp] theorem qPop_speaking (s : State) (r off : Nat) : (s.qPop r off).speaking = s.speaking := rfl
@[simp] theorem qPop_ide (s : State) (r off : Nat) : (s.qPop r off).ide = s.ide := rfl
@[simp] theorem qPop_bar0 (s : State) (r off : Nat) : (s.qPop r off).bar0 = s.bar0 := rfl
@[simp] theorem qPop_agentReqs (s : State) (r off : Nat) : (s.qPop r off).agentReqs = s.agentReqs := rfl
@[simp] theorem qPop_nextAgent (s : State) (r off : Nat) : (s.qPop r off).nextAgent = s.nextAgent := rfl
@[simp] theorem qPop_colls (s : State) (r off : Nat) : (s.qPop r off).colls = s.colls := rfl
@[simp] theorem qPop_routes (s : State) (r off : Nat) : (s.qPop r off).routes = s.routes := rfl
@[simp] theorem qPop_failedLinks (s : State) (r off : Nat) : (s.qPop r off).failedLinks = s.failedLinks := rfl
@[simp] theorem qPop_pairs (s : State) (r off : Nat) : (s.qPop r off).pairs = s.pairs := rfl
@[simp] theorem qPop_linkOut (s : State) (r off : Nat) : (s.qPop r off).linkOut = s.linkOut := rfl
@[simp] theorem qPop_offers (s : State) (r off : Nat) : (s.qPop r off).offers = s.offers := rfl
@[simp] theorem qPop_accepts (s : State) (r off : Nat) : (s.qPop r off).accepts = s.accepts := rfl
@[simp] theorem qPop_grants (s : State) (r off : Nat) : (s.qPop r off).grants = s.grants := rfl
@[simp] theorem qPop_keys (s : State) (r off : Nat) : (s.qPop r off).keys = s.keys := rfl
@[simp] theorem qPop_fuses (s : State) (r off : Nat) : (s.qPop r off).fuses = s.fuses := rfl
@[simp] theorem qPop_boot (s : State) (r off : Nat) : (s.qPop r off).boot = s.boot := rfl
@[simp] theorem qPop_imageVersion (s : State) (r off : Nat) : (s.qPop r off).imageVersion = s.imageVersion := rfl
@[simp] theorem qPop_newImage (s : State) (r off : Nat) : (s.qPop r off).newImage = s.newImage := rfl
@[simp] theorem qPop_accepted (s : State) (r off : Nat) : (s.qPop r off).accepted = s.accepted := rfl
@[simp] theorem qPop_service (s : State) (r off : Nat) : (s.qPop r off).service = s.service := rfl
@[simp] theorem qPop_measures (s : State) (r off : Nat) : (s.qPop r off).measures = s.measures := rfl
@[simp] theorem qPop_svcQueue (s : State) (r off : Nat) : (s.qPop r off).svcQueue = s.svcQueue := rfl
@[simp] theorem qPop_tests (s : State) (r off : Nat) : (s.qPop r off).tests = s.tests := rfl
@[simp] theorem qPop_sums (s : State) (r off : Nat) : (s.qPop r off).sums = s.sums := rfl
@[simp] theorem qPop_residue (s : State) (r off : Nat) : (s.qPop r off).residue = s.residue := rfl
@[simp] theorem qPop_nextReq (s : State) (r off : Nat) : (s.qPop r off).nextReq = s.nextReq := rfl
@[simp] theorem qPop_schedule (s : State) (r off : Nat) : (s.qPop r off).schedule = s.schedule := rfl
@[simp] theorem qPop_tick (s : State) (r off : Nat) : (s.qPop r off).tick = s.tick := rfl
@[simp] theorem qPop_here (s : State) (r off : Nat) : (s.qPop r off).here = s.here := rfl

@[simp] theorem updLodging_cycle (s : State) (n : Nat) (f : Lodging → Lodging) : (s.updLodging n f).cycle = s.cycle := rfl
@[simp] theorem updLodging_cores (s : State) (n : Nat) (f : Lodging → Lodging) : (s.updLodging n f).cores = s.cores := rfl
@[simp] theorem updLodging_hbm (s : State) (n : Nat) (f : Lodging → Lodging) : (s.updLodging n f).hbm = s.hbm := rfl
@[simp] theorem updLodging_hbmTags (s : State) (n : Nat) (f : Lodging → Lodging) : (s.updLodging n f).hbmTags = s.hbmTags := rfl
@[simp] theorem updLodging_hbmPoison (s : State) (n : Nat) (f : Lodging → Lodging) : (s.updLodging n f).hbmPoison = s.hbmPoison := rfl
@[simp] theorem updLodging_hbmCorrected (s : State) (n : Nat) (f : Lodging → Lodging) : (s.updLodging n f).hbmCorrected = s.hbmCorrected := rfl
@[simp] theorem updLodging_hbmKeys (s : State) (n : Nat) (f : Lodging → Lodging) : (s.updLodging n f).hbmKeys = s.hbmKeys := rfl
@[simp] theorem updLodging_far (s : State) (n : Nat) (f : Lodging → Lodging) : (s.updLodging n f).far = s.far := rfl
@[simp] theorem updLodging_farPoison (s : State) (n : Nat) (f : Lodging → Lodging) : (s.updLodging n f).farPoison = s.farPoison := rfl
@[simp] theorem updLodging_farKeys (s : State) (n : Nat) (f : Lodging → Lodging) : (s.updLodging n f).farKeys = s.farKeys := rfl
@[simp] theorem updLodging_host (s : State) (n : Nat) (f : Lodging → Lodging) : (s.updLodging n f).host = s.host := rfl
@[simp] theorem updLodging_hostPoison (s : State) (n : Nat) (f : Lodging → Lodging) : (s.updLodging n f).hostPoison = s.hostPoison := rfl
@[simp] theorem updLodging_hostOut (s : State) (n : Nat) (f : Lodging → Lodging) : (s.updLodging n f).hostOut = s.hostOut := rfl
@[simp] theorem updLodging_reqs (s : State) (n : Nat) (f : Lodging → Lodging) : (s.updLodging n f).reqs = s.reqs := rfl
@[simp] theorem updLodging_stations (s : State) (n : Nat) (f : Lodging → Lodging) : (s.updLodging n f).stations = s.stations := rfl
@[simp] theorem updLodging_credits (s : State) (n : Nat) (f : Lodging → Lodging) : (s.updLodging n f).credits = s.credits := rfl
@[simp] theorem updLodging_promised (s : State) (n : Nat) (f : Lodging → Lodging) : (s.updLodging n f).promised = s.promised := rfl
@[simp] theorem updLodging_pageWait (s : State) (n : Nat) (f : Lodging → Lodging) : (s.updLodging n f).pageWait = s.pageWait := rfl
@[simp] theorem updLodging_desk (s : State) (n : Nat) (f : Lodging → Lodging) : (s.updLodging n f).desk = s.desk := rfl
@[simp] theorem updLodging_deskNext (s : State) (n : Nat) (f : Lodging → Lodging) : (s.updLodging n f).deskNext = s.deskNext := rfl
@[simp] theorem updLodging_pending (s : State) (n : Nat) (f : Lodging → Lodging) : (s.updLodging n f).pending = s.pending := rfl
@[simp] theorem updLodging_leave (s : State) (n : Nat) (f : Lodging → Lodging) : (s.updLodging n f).leave = s.leave := rfl
@[simp] theorem updLodging_leaveWait (s : State) (n : Nat) (f : Lodging → Lodging) : (s.updLodging n f).leaveWait = s.leaveWait := rfl
@[simp] theorem updLodging_guests (s : State) (n : Nat) (f : Lodging → Lodging) : (s.updLodging n f).guests = s.guests := rfl
@[simp] theorem updLodging_saves (s : State) (n : Nat) (f : Lodging → Lodging) : (s.updLodging n f).saves = s.saves := rfl
@[simp] theorem updLodging_sessions (s : State) (n : Nat) (f : Lodging → Lodging) : (s.updLodging n f).sessions = s.sessions := rfl
@[simp] theorem updLodging_windows (s : State) (n : Nat) (f : Lodging → Lodging) : (s.updLodging n f).windows = s.windows := rfl
@[simp] theorem updLodging_spdm (s : State) (n : Nat) (f : Lodging → Lodging) : (s.updLodging n f).spdm = s.spdm := rfl
@[simp] theorem updLodging_speaking (s : State) (n : Nat) (f : Lodging → Lodging) : (s.updLodging n f).speaking = s.speaking := rfl
@[simp] theorem updLodging_ide (s : State) (n : Nat) (f : Lodging → Lodging) : (s.updLodging n f).ide = s.ide := rfl
@[simp] theorem updLodging_bar0 (s : State) (n : Nat) (f : Lodging → Lodging) : (s.updLodging n f).bar0 = s.bar0 := rfl
@[simp] theorem updLodging_agentReqs (s : State) (n : Nat) (f : Lodging → Lodging) : (s.updLodging n f).agentReqs = s.agentReqs := rfl
@[simp] theorem updLodging_nextAgent (s : State) (n : Nat) (f : Lodging → Lodging) : (s.updLodging n f).nextAgent = s.nextAgent := rfl
@[simp] theorem updLodging_colls (s : State) (n : Nat) (f : Lodging → Lodging) : (s.updLodging n f).colls = s.colls := rfl
@[simp] theorem updLodging_routes (s : State) (n : Nat) (f : Lodging → Lodging) : (s.updLodging n f).routes = s.routes := rfl
@[simp] theorem updLodging_failedLinks (s : State) (n : Nat) (f : Lodging → Lodging) : (s.updLodging n f).failedLinks = s.failedLinks := rfl
@[simp] theorem updLodging_pairs (s : State) (n : Nat) (f : Lodging → Lodging) : (s.updLodging n f).pairs = s.pairs := rfl
@[simp] theorem updLodging_linkOut (s : State) (n : Nat) (f : Lodging → Lodging) : (s.updLodging n f).linkOut = s.linkOut := rfl
@[simp] theorem updLodging_offers (s : State) (n : Nat) (f : Lodging → Lodging) : (s.updLodging n f).offers = s.offers := rfl
@[simp] theorem updLodging_accepts (s : State) (n : Nat) (f : Lodging → Lodging) : (s.updLodging n f).accepts = s.accepts := rfl
@[simp] theorem updLodging_grants (s : State) (n : Nat) (f : Lodging → Lodging) : (s.updLodging n f).grants = s.grants := rfl
@[simp] theorem updLodging_keys (s : State) (n : Nat) (f : Lodging → Lodging) : (s.updLodging n f).keys = s.keys := rfl
@[simp] theorem updLodging_fuses (s : State) (n : Nat) (f : Lodging → Lodging) : (s.updLodging n f).fuses = s.fuses := rfl
@[simp] theorem updLodging_boot (s : State) (n : Nat) (f : Lodging → Lodging) : (s.updLodging n f).boot = s.boot := rfl
@[simp] theorem updLodging_imageVersion (s : State) (n : Nat) (f : Lodging → Lodging) : (s.updLodging n f).imageVersion = s.imageVersion := rfl
@[simp] theorem updLodging_newImage (s : State) (n : Nat) (f : Lodging → Lodging) : (s.updLodging n f).newImage = s.newImage := rfl
@[simp] theorem updLodging_accepted (s : State) (n : Nat) (f : Lodging → Lodging) : (s.updLodging n f).accepted = s.accepted := rfl
@[simp] theorem updLodging_service (s : State) (n : Nat) (f : Lodging → Lodging) : (s.updLodging n f).service = s.service := rfl
@[simp] theorem updLodging_measures (s : State) (n : Nat) (f : Lodging → Lodging) : (s.updLodging n f).measures = s.measures := rfl
@[simp] theorem updLodging_svcQueue (s : State) (n : Nat) (f : Lodging → Lodging) : (s.updLodging n f).svcQueue = s.svcQueue := rfl
@[simp] theorem updLodging_tests (s : State) (n : Nat) (f : Lodging → Lodging) : (s.updLodging n f).tests = s.tests := rfl
@[simp] theorem updLodging_sums (s : State) (n : Nat) (f : Lodging → Lodging) : (s.updLodging n f).sums = s.sums := rfl
@[simp] theorem updLodging_residue (s : State) (n : Nat) (f : Lodging → Lodging) : (s.updLodging n f).residue = s.residue := rfl
@[simp] theorem updLodging_nextReq (s : State) (n : Nat) (f : Lodging → Lodging) : (s.updLodging n f).nextReq = s.nextReq := rfl
@[simp] theorem updLodging_schedule (s : State) (n : Nat) (f : Lodging → Lodging) : (s.updLodging n f).schedule = s.schedule := rfl
@[simp] theorem updLodging_tick (s : State) (n : Nat) (f : Lodging → Lodging) : (s.updLodging n f).tick = s.tick := rfl
@[simp] theorem updLodging_here (s : State) (n : Nat) (f : Lodging → Lodging) : (s.updLodging n f).here = s.here := rfl

@[simp] theorem issue_cycle (s : State) (a : ActId) (l : Nat) (n : W32) (b : Word) (i : Nat) (e : Eff) (st : Stage) : (s.issue a l n b i e st).cycle = s.cycle := rfl
@[simp] theorem issue_cores (s : State) (a : ActId) (l : Nat) (n : W32) (b : Word) (i : Nat) (e : Eff) (st : Stage) : (s.issue a l n b i e st).cores = s.cores := rfl
@[simp] theorem issue_hbm (s : State) (a : ActId) (l : Nat) (n : W32) (b : Word) (i : Nat) (e : Eff) (st : Stage) : (s.issue a l n b i e st).hbm = s.hbm := rfl
@[simp] theorem issue_hbmTags (s : State) (a : ActId) (l : Nat) (n : W32) (b : Word) (i : Nat) (e : Eff) (st : Stage) : (s.issue a l n b i e st).hbmTags = s.hbmTags := rfl
@[simp] theorem issue_hbmPoison (s : State) (a : ActId) (l : Nat) (n : W32) (b : Word) (i : Nat) (e : Eff) (st : Stage) : (s.issue a l n b i e st).hbmPoison = s.hbmPoison := rfl
@[simp] theorem issue_hbmCorrected (s : State) (a : ActId) (l : Nat) (n : W32) (b : Word) (i : Nat) (e : Eff) (st : Stage) : (s.issue a l n b i e st).hbmCorrected = s.hbmCorrected := rfl
@[simp] theorem issue_hbmKeys (s : State) (a : ActId) (l : Nat) (n : W32) (b : Word) (i : Nat) (e : Eff) (st : Stage) : (s.issue a l n b i e st).hbmKeys = s.hbmKeys := rfl
@[simp] theorem issue_far (s : State) (a : ActId) (l : Nat) (n : W32) (b : Word) (i : Nat) (e : Eff) (st : Stage) : (s.issue a l n b i e st).far = s.far := rfl
@[simp] theorem issue_farPoison (s : State) (a : ActId) (l : Nat) (n : W32) (b : Word) (i : Nat) (e : Eff) (st : Stage) : (s.issue a l n b i e st).farPoison = s.farPoison := rfl
@[simp] theorem issue_farKeys (s : State) (a : ActId) (l : Nat) (n : W32) (b : Word) (i : Nat) (e : Eff) (st : Stage) : (s.issue a l n b i e st).farKeys = s.farKeys := rfl
@[simp] theorem issue_host (s : State) (a : ActId) (l : Nat) (n : W32) (b : Word) (i : Nat) (e : Eff) (st : Stage) : (s.issue a l n b i e st).host = s.host := rfl
@[simp] theorem issue_hostPoison (s : State) (a : ActId) (l : Nat) (n : W32) (b : Word) (i : Nat) (e : Eff) (st : Stage) : (s.issue a l n b i e st).hostPoison = s.hostPoison := rfl
@[simp] theorem issue_hostOut (s : State) (a : ActId) (l : Nat) (n : W32) (b : Word) (i : Nat) (e : Eff) (st : Stage) : (s.issue a l n b i e st).hostOut = s.hostOut := rfl
@[simp] theorem issue_stations (s : State) (a : ActId) (l : Nat) (n : W32) (b : Word) (i : Nat) (e : Eff) (st : Stage) : (s.issue a l n b i e st).stations = s.stations := rfl
@[simp] theorem issue_credits (s : State) (a : ActId) (l : Nat) (n : W32) (b : Word) (i : Nat) (e : Eff) (st : Stage) : (s.issue a l n b i e st).credits = s.credits := rfl
@[simp] theorem issue_promised (s : State) (a : ActId) (l : Nat) (n : W32) (b : Word) (i : Nat) (e : Eff) (st : Stage) : (s.issue a l n b i e st).promised = s.promised := rfl
@[simp] theorem issue_pageWait (s : State) (a : ActId) (l : Nat) (n : W32) (b : Word) (i : Nat) (e : Eff) (st : Stage) : (s.issue a l n b i e st).pageWait = s.pageWait := rfl
@[simp] theorem issue_desk (s : State) (a : ActId) (l : Nat) (n : W32) (b : Word) (i : Nat) (e : Eff) (st : Stage) : (s.issue a l n b i e st).desk = s.desk := rfl
@[simp] theorem issue_deskNext (s : State) (a : ActId) (l : Nat) (n : W32) (b : Word) (i : Nat) (e : Eff) (st : Stage) : (s.issue a l n b i e st).deskNext = s.deskNext := rfl
@[simp] theorem issue_pending (s : State) (a : ActId) (l : Nat) (n : W32) (b : Word) (i : Nat) (e : Eff) (st : Stage) : (s.issue a l n b i e st).pending = s.pending := rfl
@[simp] theorem issue_leave (s : State) (a : ActId) (l : Nat) (n : W32) (b : Word) (i : Nat) (e : Eff) (st : Stage) : (s.issue a l n b i e st).leave = s.leave := rfl
@[simp] theorem issue_leaveWait (s : State) (a : ActId) (l : Nat) (n : W32) (b : Word) (i : Nat) (e : Eff) (st : Stage) : (s.issue a l n b i e st).leaveWait = s.leaveWait := rfl
@[simp] theorem issue_lodgings (s : State) (a : ActId) (l : Nat) (n : W32) (b : Word) (i : Nat) (e : Eff) (st : Stage) : (s.issue a l n b i e st).lodgings = s.lodgings := rfl
@[simp] theorem issue_guests (s : State) (a : ActId) (l : Nat) (n : W32) (b : Word) (i : Nat) (e : Eff) (st : Stage) : (s.issue a l n b i e st).guests = s.guests := rfl
@[simp] theorem issue_saves (s : State) (a : ActId) (l : Nat) (n : W32) (b : Word) (i : Nat) (e : Eff) (st : Stage) : (s.issue a l n b i e st).saves = s.saves := rfl
@[simp] theorem issue_sessions (s : State) (a : ActId) (l : Nat) (n : W32) (b : Word) (i : Nat) (e : Eff) (st : Stage) : (s.issue a l n b i e st).sessions = s.sessions := rfl
@[simp] theorem issue_windows (s : State) (a : ActId) (l : Nat) (n : W32) (b : Word) (i : Nat) (e : Eff) (st : Stage) : (s.issue a l n b i e st).windows = s.windows := rfl
@[simp] theorem issue_spdm (s : State) (a : ActId) (l : Nat) (n : W32) (b : Word) (i : Nat) (e : Eff) (st : Stage) : (s.issue a l n b i e st).spdm = s.spdm := rfl
@[simp] theorem issue_speaking (s : State) (a : ActId) (l : Nat) (n : W32) (b : Word) (i : Nat) (e : Eff) (st : Stage) : (s.issue a l n b i e st).speaking = s.speaking := rfl
@[simp] theorem issue_ide (s : State) (a : ActId) (l : Nat) (n : W32) (b : Word) (i : Nat) (e : Eff) (st : Stage) : (s.issue a l n b i e st).ide = s.ide := rfl
@[simp] theorem issue_bar0 (s : State) (a : ActId) (l : Nat) (n : W32) (b : Word) (i : Nat) (e : Eff) (st : Stage) : (s.issue a l n b i e st).bar0 = s.bar0 := rfl
@[simp] theorem issue_agentReqs (s : State) (a : ActId) (l : Nat) (n : W32) (b : Word) (i : Nat) (e : Eff) (st : Stage) : (s.issue a l n b i e st).agentReqs = s.agentReqs := rfl
@[simp] theorem issue_nextAgent (s : State) (a : ActId) (l : Nat) (n : W32) (b : Word) (i : Nat) (e : Eff) (st : Stage) : (s.issue a l n b i e st).nextAgent = s.nextAgent := rfl
@[simp] theorem issue_colls (s : State) (a : ActId) (l : Nat) (n : W32) (b : Word) (i : Nat) (e : Eff) (st : Stage) : (s.issue a l n b i e st).colls = s.colls := rfl
@[simp] theorem issue_routes (s : State) (a : ActId) (l : Nat) (n : W32) (b : Word) (i : Nat) (e : Eff) (st : Stage) : (s.issue a l n b i e st).routes = s.routes := rfl
@[simp] theorem issue_failedLinks (s : State) (a : ActId) (l : Nat) (n : W32) (b : Word) (i : Nat) (e : Eff) (st : Stage) : (s.issue a l n b i e st).failedLinks = s.failedLinks := rfl
@[simp] theorem issue_pairs (s : State) (a : ActId) (l : Nat) (n : W32) (b : Word) (i : Nat) (e : Eff) (st : Stage) : (s.issue a l n b i e st).pairs = s.pairs := rfl
@[simp] theorem issue_linkOut (s : State) (a : ActId) (l : Nat) (n : W32) (b : Word) (i : Nat) (e : Eff) (st : Stage) : (s.issue a l n b i e st).linkOut = s.linkOut := rfl
@[simp] theorem issue_offers (s : State) (a : ActId) (l : Nat) (n : W32) (b : Word) (i : Nat) (e : Eff) (st : Stage) : (s.issue a l n b i e st).offers = s.offers := rfl
@[simp] theorem issue_accepts (s : State) (a : ActId) (l : Nat) (n : W32) (b : Word) (i : Nat) (e : Eff) (st : Stage) : (s.issue a l n b i e st).accepts = s.accepts := rfl
@[simp] theorem issue_grants (s : State) (a : ActId) (l : Nat) (n : W32) (b : Word) (i : Nat) (e : Eff) (st : Stage) : (s.issue a l n b i e st).grants = s.grants := rfl
@[simp] theorem issue_keys (s : State) (a : ActId) (l : Nat) (n : W32) (b : Word) (i : Nat) (e : Eff) (st : Stage) : (s.issue a l n b i e st).keys = s.keys := rfl
@[simp] theorem issue_fuses (s : State) (a : ActId) (l : Nat) (n : W32) (b : Word) (i : Nat) (e : Eff) (st : Stage) : (s.issue a l n b i e st).fuses = s.fuses := rfl
@[simp] theorem issue_boot (s : State) (a : ActId) (l : Nat) (n : W32) (b : Word) (i : Nat) (e : Eff) (st : Stage) : (s.issue a l n b i e st).boot = s.boot := rfl
@[simp] theorem issue_imageVersion (s : State) (a : ActId) (l : Nat) (n : W32) (b : Word) (i : Nat) (e : Eff) (st : Stage) : (s.issue a l n b i e st).imageVersion = s.imageVersion := rfl
@[simp] theorem issue_newImage (s : State) (a : ActId) (l : Nat) (n : W32) (b : Word) (i : Nat) (e : Eff) (st : Stage) : (s.issue a l n b i e st).newImage = s.newImage := rfl
@[simp] theorem issue_accepted (s : State) (a : ActId) (l : Nat) (n : W32) (b : Word) (i : Nat) (e : Eff) (st : Stage) : (s.issue a l n b i e st).accepted = s.accepted := rfl
@[simp] theorem issue_service (s : State) (a : ActId) (l : Nat) (n : W32) (b : Word) (i : Nat) (e : Eff) (st : Stage) : (s.issue a l n b i e st).service = s.service := rfl
@[simp] theorem issue_measures (s : State) (a : ActId) (l : Nat) (n : W32) (b : Word) (i : Nat) (e : Eff) (st : Stage) : (s.issue a l n b i e st).measures = s.measures := rfl
@[simp] theorem issue_svcQueue (s : State) (a : ActId) (l : Nat) (n : W32) (b : Word) (i : Nat) (e : Eff) (st : Stage) : (s.issue a l n b i e st).svcQueue = s.svcQueue := rfl
@[simp] theorem issue_tests (s : State) (a : ActId) (l : Nat) (n : W32) (b : Word) (i : Nat) (e : Eff) (st : Stage) : (s.issue a l n b i e st).tests = s.tests := rfl
@[simp] theorem issue_sums (s : State) (a : ActId) (l : Nat) (n : W32) (b : Word) (i : Nat) (e : Eff) (st : Stage) : (s.issue a l n b i e st).sums = s.sums := rfl
@[simp] theorem issue_residue (s : State) (a : ActId) (l : Nat) (n : W32) (b : Word) (i : Nat) (e : Eff) (st : Stage) : (s.issue a l n b i e st).residue = s.residue := rfl
@[simp] theorem issue_schedule (s : State) (a : ActId) (l : Nat) (n : W32) (b : Word) (i : Nat) (e : Eff) (st : Stage) : (s.issue a l n b i e st).schedule = s.schedule := rfl
@[simp] theorem issue_tick (s : State) (a : ActId) (l : Nat) (n : W32) (b : Word) (i : Nat) (e : Eff) (st : Stage) : (s.issue a l n b i e st).tick = s.tick := rfl
@[simp] theorem issue_here (s : State) (a : ActId) (l : Nat) (n : W32) (b : Word) (i : Nat) (e : Eff) (st : Stage) : (s.issue a l n b i e st).here = s.here := rfl

@[simp] theorem updReq_cycle (s : State) (id : Nat) (f : Req → Req) : (s.updReq id f).cycle = s.cycle := rfl
@[simp] theorem updReq_cores (s : State) (id : Nat) (f : Req → Req) : (s.updReq id f).cores = s.cores := rfl
@[simp] theorem updReq_hbm (s : State) (id : Nat) (f : Req → Req) : (s.updReq id f).hbm = s.hbm := rfl
@[simp] theorem updReq_hbmTags (s : State) (id : Nat) (f : Req → Req) : (s.updReq id f).hbmTags = s.hbmTags := rfl
@[simp] theorem updReq_hbmPoison (s : State) (id : Nat) (f : Req → Req) : (s.updReq id f).hbmPoison = s.hbmPoison := rfl
@[simp] theorem updReq_hbmCorrected (s : State) (id : Nat) (f : Req → Req) : (s.updReq id f).hbmCorrected = s.hbmCorrected := rfl
@[simp] theorem updReq_hbmKeys (s : State) (id : Nat) (f : Req → Req) : (s.updReq id f).hbmKeys = s.hbmKeys := rfl
@[simp] theorem updReq_far (s : State) (id : Nat) (f : Req → Req) : (s.updReq id f).far = s.far := rfl
@[simp] theorem updReq_farPoison (s : State) (id : Nat) (f : Req → Req) : (s.updReq id f).farPoison = s.farPoison := rfl
@[simp] theorem updReq_farKeys (s : State) (id : Nat) (f : Req → Req) : (s.updReq id f).farKeys = s.farKeys := rfl
@[simp] theorem updReq_host (s : State) (id : Nat) (f : Req → Req) : (s.updReq id f).host = s.host := rfl
@[simp] theorem updReq_hostPoison (s : State) (id : Nat) (f : Req → Req) : (s.updReq id f).hostPoison = s.hostPoison := rfl
@[simp] theorem updReq_hostOut (s : State) (id : Nat) (f : Req → Req) : (s.updReq id f).hostOut = s.hostOut := rfl
@[simp] theorem updReq_stations (s : State) (id : Nat) (f : Req → Req) : (s.updReq id f).stations = s.stations := rfl
@[simp] theorem updReq_credits (s : State) (id : Nat) (f : Req → Req) : (s.updReq id f).credits = s.credits := rfl
@[simp] theorem updReq_promised (s : State) (id : Nat) (f : Req → Req) : (s.updReq id f).promised = s.promised := rfl
@[simp] theorem updReq_pageWait (s : State) (id : Nat) (f : Req → Req) : (s.updReq id f).pageWait = s.pageWait := rfl
@[simp] theorem updReq_desk (s : State) (id : Nat) (f : Req → Req) : (s.updReq id f).desk = s.desk := rfl
@[simp] theorem updReq_deskNext (s : State) (id : Nat) (f : Req → Req) : (s.updReq id f).deskNext = s.deskNext := rfl
@[simp] theorem updReq_pending (s : State) (id : Nat) (f : Req → Req) : (s.updReq id f).pending = s.pending := rfl
@[simp] theorem updReq_leave (s : State) (id : Nat) (f : Req → Req) : (s.updReq id f).leave = s.leave := rfl
@[simp] theorem updReq_leaveWait (s : State) (id : Nat) (f : Req → Req) : (s.updReq id f).leaveWait = s.leaveWait := rfl
@[simp] theorem updReq_lodgings (s : State) (id : Nat) (f : Req → Req) : (s.updReq id f).lodgings = s.lodgings := rfl
@[simp] theorem updReq_guests (s : State) (id : Nat) (f : Req → Req) : (s.updReq id f).guests = s.guests := rfl
@[simp] theorem updReq_saves (s : State) (id : Nat) (f : Req → Req) : (s.updReq id f).saves = s.saves := rfl
@[simp] theorem updReq_sessions (s : State) (id : Nat) (f : Req → Req) : (s.updReq id f).sessions = s.sessions := rfl
@[simp] theorem updReq_windows (s : State) (id : Nat) (f : Req → Req) : (s.updReq id f).windows = s.windows := rfl
@[simp] theorem updReq_spdm (s : State) (id : Nat) (f : Req → Req) : (s.updReq id f).spdm = s.spdm := rfl
@[simp] theorem updReq_speaking (s : State) (id : Nat) (f : Req → Req) : (s.updReq id f).speaking = s.speaking := rfl
@[simp] theorem updReq_ide (s : State) (id : Nat) (f : Req → Req) : (s.updReq id f).ide = s.ide := rfl
@[simp] theorem updReq_bar0 (s : State) (id : Nat) (f : Req → Req) : (s.updReq id f).bar0 = s.bar0 := rfl
@[simp] theorem updReq_agentReqs (s : State) (id : Nat) (f : Req → Req) : (s.updReq id f).agentReqs = s.agentReqs := rfl
@[simp] theorem updReq_nextAgent (s : State) (id : Nat) (f : Req → Req) : (s.updReq id f).nextAgent = s.nextAgent := rfl
@[simp] theorem updReq_colls (s : State) (id : Nat) (f : Req → Req) : (s.updReq id f).colls = s.colls := rfl
@[simp] theorem updReq_routes (s : State) (id : Nat) (f : Req → Req) : (s.updReq id f).routes = s.routes := rfl
@[simp] theorem updReq_failedLinks (s : State) (id : Nat) (f : Req → Req) : (s.updReq id f).failedLinks = s.failedLinks := rfl
@[simp] theorem updReq_pairs (s : State) (id : Nat) (f : Req → Req) : (s.updReq id f).pairs = s.pairs := rfl
@[simp] theorem updReq_linkOut (s : State) (id : Nat) (f : Req → Req) : (s.updReq id f).linkOut = s.linkOut := rfl
@[simp] theorem updReq_offers (s : State) (id : Nat) (f : Req → Req) : (s.updReq id f).offers = s.offers := rfl
@[simp] theorem updReq_accepts (s : State) (id : Nat) (f : Req → Req) : (s.updReq id f).accepts = s.accepts := rfl
@[simp] theorem updReq_grants (s : State) (id : Nat) (f : Req → Req) : (s.updReq id f).grants = s.grants := rfl
@[simp] theorem updReq_keys (s : State) (id : Nat) (f : Req → Req) : (s.updReq id f).keys = s.keys := rfl
@[simp] theorem updReq_fuses (s : State) (id : Nat) (f : Req → Req) : (s.updReq id f).fuses = s.fuses := rfl
@[simp] theorem updReq_boot (s : State) (id : Nat) (f : Req → Req) : (s.updReq id f).boot = s.boot := rfl
@[simp] theorem updReq_imageVersion (s : State) (id : Nat) (f : Req → Req) : (s.updReq id f).imageVersion = s.imageVersion := rfl
@[simp] theorem updReq_newImage (s : State) (id : Nat) (f : Req → Req) : (s.updReq id f).newImage = s.newImage := rfl
@[simp] theorem updReq_accepted (s : State) (id : Nat) (f : Req → Req) : (s.updReq id f).accepted = s.accepted := rfl
@[simp] theorem updReq_service (s : State) (id : Nat) (f : Req → Req) : (s.updReq id f).service = s.service := rfl
@[simp] theorem updReq_measures (s : State) (id : Nat) (f : Req → Req) : (s.updReq id f).measures = s.measures := rfl
@[simp] theorem updReq_svcQueue (s : State) (id : Nat) (f : Req → Req) : (s.updReq id f).svcQueue = s.svcQueue := rfl
@[simp] theorem updReq_tests (s : State) (id : Nat) (f : Req → Req) : (s.updReq id f).tests = s.tests := rfl
@[simp] theorem updReq_sums (s : State) (id : Nat) (f : Req → Req) : (s.updReq id f).sums = s.sums := rfl
@[simp] theorem updReq_residue (s : State) (id : Nat) (f : Req → Req) : (s.updReq id f).residue = s.residue := rfl
@[simp] theorem updReq_nextReq (s : State) (id : Nat) (f : Req → Req) : (s.updReq id f).nextReq = s.nextReq := rfl
@[simp] theorem updReq_schedule (s : State) (id : Nat) (f : Req → Req) : (s.updReq id f).schedule = s.schedule := rfl
@[simp] theorem updReq_tick (s : State) (id : Nat) (f : Req → Req) : (s.updReq id f).tick = s.tick := rfl
@[simp] theorem updReq_here (s : State) (id : Nat) (f : Req → Req) : (s.updReq id f).here = s.here := rfl

@[simp] theorem setStage_cycle (s : State) (id : Nat) (st : Stage) : (s.setStage id st).cycle = s.cycle := rfl
@[simp] theorem setStage_cores (s : State) (id : Nat) (st : Stage) : (s.setStage id st).cores = s.cores := rfl
@[simp] theorem setStage_hbm (s : State) (id : Nat) (st : Stage) : (s.setStage id st).hbm = s.hbm := rfl
@[simp] theorem setStage_hbmTags (s : State) (id : Nat) (st : Stage) : (s.setStage id st).hbmTags = s.hbmTags := rfl
@[simp] theorem setStage_hbmPoison (s : State) (id : Nat) (st : Stage) : (s.setStage id st).hbmPoison = s.hbmPoison := rfl
@[simp] theorem setStage_hbmCorrected (s : State) (id : Nat) (st : Stage) : (s.setStage id st).hbmCorrected = s.hbmCorrected := rfl
@[simp] theorem setStage_hbmKeys (s : State) (id : Nat) (st : Stage) : (s.setStage id st).hbmKeys = s.hbmKeys := rfl
@[simp] theorem setStage_far (s : State) (id : Nat) (st : Stage) : (s.setStage id st).far = s.far := rfl
@[simp] theorem setStage_farPoison (s : State) (id : Nat) (st : Stage) : (s.setStage id st).farPoison = s.farPoison := rfl
@[simp] theorem setStage_farKeys (s : State) (id : Nat) (st : Stage) : (s.setStage id st).farKeys = s.farKeys := rfl
@[simp] theorem setStage_host (s : State) (id : Nat) (st : Stage) : (s.setStage id st).host = s.host := rfl
@[simp] theorem setStage_hostPoison (s : State) (id : Nat) (st : Stage) : (s.setStage id st).hostPoison = s.hostPoison := rfl
@[simp] theorem setStage_hostOut (s : State) (id : Nat) (st : Stage) : (s.setStage id st).hostOut = s.hostOut := rfl
@[simp] theorem setStage_stations (s : State) (id : Nat) (st : Stage) : (s.setStage id st).stations = s.stations := rfl
@[simp] theorem setStage_credits (s : State) (id : Nat) (st : Stage) : (s.setStage id st).credits = s.credits := rfl
@[simp] theorem setStage_promised (s : State) (id : Nat) (st : Stage) : (s.setStage id st).promised = s.promised := rfl
@[simp] theorem setStage_pageWait (s : State) (id : Nat) (st : Stage) : (s.setStage id st).pageWait = s.pageWait := rfl
@[simp] theorem setStage_desk (s : State) (id : Nat) (st : Stage) : (s.setStage id st).desk = s.desk := rfl
@[simp] theorem setStage_deskNext (s : State) (id : Nat) (st : Stage) : (s.setStage id st).deskNext = s.deskNext := rfl
@[simp] theorem setStage_pending (s : State) (id : Nat) (st : Stage) : (s.setStage id st).pending = s.pending := rfl
@[simp] theorem setStage_leave (s : State) (id : Nat) (st : Stage) : (s.setStage id st).leave = s.leave := rfl
@[simp] theorem setStage_leaveWait (s : State) (id : Nat) (st : Stage) : (s.setStage id st).leaveWait = s.leaveWait := rfl
@[simp] theorem setStage_lodgings (s : State) (id : Nat) (st : Stage) : (s.setStage id st).lodgings = s.lodgings := rfl
@[simp] theorem setStage_guests (s : State) (id : Nat) (st : Stage) : (s.setStage id st).guests = s.guests := rfl
@[simp] theorem setStage_saves (s : State) (id : Nat) (st : Stage) : (s.setStage id st).saves = s.saves := rfl
@[simp] theorem setStage_sessions (s : State) (id : Nat) (st : Stage) : (s.setStage id st).sessions = s.sessions := rfl
@[simp] theorem setStage_windows (s : State) (id : Nat) (st : Stage) : (s.setStage id st).windows = s.windows := rfl
@[simp] theorem setStage_spdm (s : State) (id : Nat) (st : Stage) : (s.setStage id st).spdm = s.spdm := rfl
@[simp] theorem setStage_speaking (s : State) (id : Nat) (st : Stage) : (s.setStage id st).speaking = s.speaking := rfl
@[simp] theorem setStage_ide (s : State) (id : Nat) (st : Stage) : (s.setStage id st).ide = s.ide := rfl
@[simp] theorem setStage_bar0 (s : State) (id : Nat) (st : Stage) : (s.setStage id st).bar0 = s.bar0 := rfl
@[simp] theorem setStage_agentReqs (s : State) (id : Nat) (st : Stage) : (s.setStage id st).agentReqs = s.agentReqs := rfl
@[simp] theorem setStage_nextAgent (s : State) (id : Nat) (st : Stage) : (s.setStage id st).nextAgent = s.nextAgent := rfl
@[simp] theorem setStage_colls (s : State) (id : Nat) (st : Stage) : (s.setStage id st).colls = s.colls := rfl
@[simp] theorem setStage_routes (s : State) (id : Nat) (st : Stage) : (s.setStage id st).routes = s.routes := rfl
@[simp] theorem setStage_failedLinks (s : State) (id : Nat) (st : Stage) : (s.setStage id st).failedLinks = s.failedLinks := rfl
@[simp] theorem setStage_pairs (s : State) (id : Nat) (st : Stage) : (s.setStage id st).pairs = s.pairs := rfl
@[simp] theorem setStage_linkOut (s : State) (id : Nat) (st : Stage) : (s.setStage id st).linkOut = s.linkOut := rfl
@[simp] theorem setStage_offers (s : State) (id : Nat) (st : Stage) : (s.setStage id st).offers = s.offers := rfl
@[simp] theorem setStage_accepts (s : State) (id : Nat) (st : Stage) : (s.setStage id st).accepts = s.accepts := rfl
@[simp] theorem setStage_grants (s : State) (id : Nat) (st : Stage) : (s.setStage id st).grants = s.grants := rfl
@[simp] theorem setStage_keys (s : State) (id : Nat) (st : Stage) : (s.setStage id st).keys = s.keys := rfl
@[simp] theorem setStage_fuses (s : State) (id : Nat) (st : Stage) : (s.setStage id st).fuses = s.fuses := rfl
@[simp] theorem setStage_boot (s : State) (id : Nat) (st : Stage) : (s.setStage id st).boot = s.boot := rfl
@[simp] theorem setStage_imageVersion (s : State) (id : Nat) (st : Stage) : (s.setStage id st).imageVersion = s.imageVersion := rfl
@[simp] theorem setStage_newImage (s : State) (id : Nat) (st : Stage) : (s.setStage id st).newImage = s.newImage := rfl
@[simp] theorem setStage_accepted (s : State) (id : Nat) (st : Stage) : (s.setStage id st).accepted = s.accepted := rfl
@[simp] theorem setStage_service (s : State) (id : Nat) (st : Stage) : (s.setStage id st).service = s.service := rfl
@[simp] theorem setStage_measures (s : State) (id : Nat) (st : Stage) : (s.setStage id st).measures = s.measures := rfl
@[simp] theorem setStage_svcQueue (s : State) (id : Nat) (st : Stage) : (s.setStage id st).svcQueue = s.svcQueue := rfl
@[simp] theorem setStage_tests (s : State) (id : Nat) (st : Stage) : (s.setStage id st).tests = s.tests := rfl
@[simp] theorem setStage_sums (s : State) (id : Nat) (st : Stage) : (s.setStage id st).sums = s.sums := rfl
@[simp] theorem setStage_residue (s : State) (id : Nat) (st : Stage) : (s.setStage id st).residue = s.residue := rfl
@[simp] theorem setStage_nextReq (s : State) (id : Nat) (st : Stage) : (s.setStage id st).nextReq = s.nextReq := rfl
@[simp] theorem setStage_schedule (s : State) (id : Nat) (st : Stage) : (s.setStage id st).schedule = s.schedule := rfl
@[simp] theorem setStage_tick (s : State) (id : Nat) (st : Stage) : (s.setStage id st).tick = s.tick := rfl
@[simp] theorem setStage_here (s : State) (id : Nat) (st : Stage) : (s.setStage id st).here = s.here := rfl

@[simp] theorem answer_cycle (s : State) (id : Nat) (r : Resp) : (s.answer id r).cycle = s.cycle := rfl
@[simp] theorem answer_cores (s : State) (id : Nat) (r : Resp) : (s.answer id r).cores = s.cores := rfl
@[simp] theorem answer_hbm (s : State) (id : Nat) (r : Resp) : (s.answer id r).hbm = s.hbm := rfl
@[simp] theorem answer_hbmTags (s : State) (id : Nat) (r : Resp) : (s.answer id r).hbmTags = s.hbmTags := rfl
@[simp] theorem answer_hbmPoison (s : State) (id : Nat) (r : Resp) : (s.answer id r).hbmPoison = s.hbmPoison := rfl
@[simp] theorem answer_hbmCorrected (s : State) (id : Nat) (r : Resp) : (s.answer id r).hbmCorrected = s.hbmCorrected := rfl
@[simp] theorem answer_hbmKeys (s : State) (id : Nat) (r : Resp) : (s.answer id r).hbmKeys = s.hbmKeys := rfl
@[simp] theorem answer_far (s : State) (id : Nat) (r : Resp) : (s.answer id r).far = s.far := rfl
@[simp] theorem answer_farPoison (s : State) (id : Nat) (r : Resp) : (s.answer id r).farPoison = s.farPoison := rfl
@[simp] theorem answer_farKeys (s : State) (id : Nat) (r : Resp) : (s.answer id r).farKeys = s.farKeys := rfl
@[simp] theorem answer_host (s : State) (id : Nat) (r : Resp) : (s.answer id r).host = s.host := rfl
@[simp] theorem answer_hostPoison (s : State) (id : Nat) (r : Resp) : (s.answer id r).hostPoison = s.hostPoison := rfl
@[simp] theorem answer_hostOut (s : State) (id : Nat) (r : Resp) : (s.answer id r).hostOut = s.hostOut := rfl
@[simp] theorem answer_stations (s : State) (id : Nat) (r : Resp) : (s.answer id r).stations = s.stations := rfl
@[simp] theorem answer_credits (s : State) (id : Nat) (r : Resp) : (s.answer id r).credits = s.credits := rfl
@[simp] theorem answer_promised (s : State) (id : Nat) (r : Resp) : (s.answer id r).promised = s.promised := rfl
@[simp] theorem answer_pageWait (s : State) (id : Nat) (r : Resp) : (s.answer id r).pageWait = s.pageWait := rfl
@[simp] theorem answer_desk (s : State) (id : Nat) (r : Resp) : (s.answer id r).desk = s.desk := rfl
@[simp] theorem answer_deskNext (s : State) (id : Nat) (r : Resp) : (s.answer id r).deskNext = s.deskNext := rfl
@[simp] theorem answer_pending (s : State) (id : Nat) (r : Resp) : (s.answer id r).pending = s.pending := rfl
@[simp] theorem answer_leave (s : State) (id : Nat) (r : Resp) : (s.answer id r).leave = s.leave := rfl
@[simp] theorem answer_leaveWait (s : State) (id : Nat) (r : Resp) : (s.answer id r).leaveWait = s.leaveWait := rfl
@[simp] theorem answer_lodgings (s : State) (id : Nat) (r : Resp) : (s.answer id r).lodgings = s.lodgings := rfl
@[simp] theorem answer_guests (s : State) (id : Nat) (r : Resp) : (s.answer id r).guests = s.guests := rfl
@[simp] theorem answer_saves (s : State) (id : Nat) (r : Resp) : (s.answer id r).saves = s.saves := rfl
@[simp] theorem answer_sessions (s : State) (id : Nat) (r : Resp) : (s.answer id r).sessions = s.sessions := rfl
@[simp] theorem answer_windows (s : State) (id : Nat) (r : Resp) : (s.answer id r).windows = s.windows := rfl
@[simp] theorem answer_spdm (s : State) (id : Nat) (r : Resp) : (s.answer id r).spdm = s.spdm := rfl
@[simp] theorem answer_speaking (s : State) (id : Nat) (r : Resp) : (s.answer id r).speaking = s.speaking := rfl
@[simp] theorem answer_ide (s : State) (id : Nat) (r : Resp) : (s.answer id r).ide = s.ide := rfl
@[simp] theorem answer_bar0 (s : State) (id : Nat) (r : Resp) : (s.answer id r).bar0 = s.bar0 := rfl
@[simp] theorem answer_agentReqs (s : State) (id : Nat) (r : Resp) : (s.answer id r).agentReqs = s.agentReqs := rfl
@[simp] theorem answer_nextAgent (s : State) (id : Nat) (r : Resp) : (s.answer id r).nextAgent = s.nextAgent := rfl
@[simp] theorem answer_colls (s : State) (id : Nat) (r : Resp) : (s.answer id r).colls = s.colls := rfl
@[simp] theorem answer_routes (s : State) (id : Nat) (r : Resp) : (s.answer id r).routes = s.routes := rfl
@[simp] theorem answer_failedLinks (s : State) (id : Nat) (r : Resp) : (s.answer id r).failedLinks = s.failedLinks := rfl
@[simp] theorem answer_pairs (s : State) (id : Nat) (r : Resp) : (s.answer id r).pairs = s.pairs := rfl
@[simp] theorem answer_linkOut (s : State) (id : Nat) (r : Resp) : (s.answer id r).linkOut = s.linkOut := rfl
@[simp] theorem answer_offers (s : State) (id : Nat) (r : Resp) : (s.answer id r).offers = s.offers := rfl
@[simp] theorem answer_accepts (s : State) (id : Nat) (r : Resp) : (s.answer id r).accepts = s.accepts := rfl
@[simp] theorem answer_grants (s : State) (id : Nat) (r : Resp) : (s.answer id r).grants = s.grants := rfl
@[simp] theorem answer_keys (s : State) (id : Nat) (r : Resp) : (s.answer id r).keys = s.keys := rfl
@[simp] theorem answer_fuses (s : State) (id : Nat) (r : Resp) : (s.answer id r).fuses = s.fuses := rfl
@[simp] theorem answer_boot (s : State) (id : Nat) (r : Resp) : (s.answer id r).boot = s.boot := rfl
@[simp] theorem answer_imageVersion (s : State) (id : Nat) (r : Resp) : (s.answer id r).imageVersion = s.imageVersion := rfl
@[simp] theorem answer_newImage (s : State) (id : Nat) (r : Resp) : (s.answer id r).newImage = s.newImage := rfl
@[simp] theorem answer_accepted (s : State) (id : Nat) (r : Resp) : (s.answer id r).accepted = s.accepted := rfl
@[simp] theorem answer_service (s : State) (id : Nat) (r : Resp) : (s.answer id r).service = s.service := rfl
@[simp] theorem answer_measures (s : State) (id : Nat) (r : Resp) : (s.answer id r).measures = s.measures := rfl
@[simp] theorem answer_svcQueue (s : State) (id : Nat) (r : Resp) : (s.answer id r).svcQueue = s.svcQueue := rfl
@[simp] theorem answer_tests (s : State) (id : Nat) (r : Resp) : (s.answer id r).tests = s.tests := rfl
@[simp] theorem answer_sums (s : State) (id : Nat) (r : Resp) : (s.answer id r).sums = s.sums := rfl
@[simp] theorem answer_residue (s : State) (id : Nat) (r : Resp) : (s.answer id r).residue = s.residue := rfl
@[simp] theorem answer_nextReq (s : State) (id : Nat) (r : Resp) : (s.answer id r).nextReq = s.nextReq := rfl
@[simp] theorem answer_schedule (s : State) (id : Nat) (r : Resp) : (s.answer id r).schedule = s.schedule := rfl
@[simp] theorem answer_tick (s : State) (id : Nat) (r : Resp) : (s.answer id r).tick = s.tick := rfl
@[simp] theorem answer_here (s : State) (id : Nat) (r : Resp) : (s.answer id r).here = s.here := rfl

@[simp] theorem dropReq_cycle (s : State) (id : Nat) : (s.dropReq id).cycle = s.cycle := rfl
@[simp] theorem dropReq_cores (s : State) (id : Nat) : (s.dropReq id).cores = s.cores := rfl
@[simp] theorem dropReq_hbm (s : State) (id : Nat) : (s.dropReq id).hbm = s.hbm := rfl
@[simp] theorem dropReq_hbmTags (s : State) (id : Nat) : (s.dropReq id).hbmTags = s.hbmTags := rfl
@[simp] theorem dropReq_hbmPoison (s : State) (id : Nat) : (s.dropReq id).hbmPoison = s.hbmPoison := rfl
@[simp] theorem dropReq_hbmCorrected (s : State) (id : Nat) : (s.dropReq id).hbmCorrected = s.hbmCorrected := rfl
@[simp] theorem dropReq_hbmKeys (s : State) (id : Nat) : (s.dropReq id).hbmKeys = s.hbmKeys := rfl
@[simp] theorem dropReq_far (s : State) (id : Nat) : (s.dropReq id).far = s.far := rfl
@[simp] theorem dropReq_farPoison (s : State) (id : Nat) : (s.dropReq id).farPoison = s.farPoison := rfl
@[simp] theorem dropReq_farKeys (s : State) (id : Nat) : (s.dropReq id).farKeys = s.farKeys := rfl
@[simp] theorem dropReq_host (s : State) (id : Nat) : (s.dropReq id).host = s.host := rfl
@[simp] theorem dropReq_hostPoison (s : State) (id : Nat) : (s.dropReq id).hostPoison = s.hostPoison := rfl
@[simp] theorem dropReq_hostOut (s : State) (id : Nat) : (s.dropReq id).hostOut = s.hostOut := rfl
@[simp] theorem dropReq_stations (s : State) (id : Nat) : (s.dropReq id).stations = s.stations := rfl
@[simp] theorem dropReq_credits (s : State) (id : Nat) : (s.dropReq id).credits = s.credits := rfl
@[simp] theorem dropReq_promised (s : State) (id : Nat) : (s.dropReq id).promised = s.promised := rfl
@[simp] theorem dropReq_pageWait (s : State) (id : Nat) : (s.dropReq id).pageWait = s.pageWait := rfl
@[simp] theorem dropReq_desk (s : State) (id : Nat) : (s.dropReq id).desk = s.desk := rfl
@[simp] theorem dropReq_deskNext (s : State) (id : Nat) : (s.dropReq id).deskNext = s.deskNext := rfl
@[simp] theorem dropReq_pending (s : State) (id : Nat) : (s.dropReq id).pending = s.pending := rfl
@[simp] theorem dropReq_leave (s : State) (id : Nat) : (s.dropReq id).leave = s.leave := rfl
@[simp] theorem dropReq_leaveWait (s : State) (id : Nat) : (s.dropReq id).leaveWait = s.leaveWait := rfl
@[simp] theorem dropReq_lodgings (s : State) (id : Nat) : (s.dropReq id).lodgings = s.lodgings := rfl
@[simp] theorem dropReq_guests (s : State) (id : Nat) : (s.dropReq id).guests = s.guests := rfl
@[simp] theorem dropReq_saves (s : State) (id : Nat) : (s.dropReq id).saves = s.saves := rfl
@[simp] theorem dropReq_sessions (s : State) (id : Nat) : (s.dropReq id).sessions = s.sessions := rfl
@[simp] theorem dropReq_windows (s : State) (id : Nat) : (s.dropReq id).windows = s.windows := rfl
@[simp] theorem dropReq_spdm (s : State) (id : Nat) : (s.dropReq id).spdm = s.spdm := rfl
@[simp] theorem dropReq_speaking (s : State) (id : Nat) : (s.dropReq id).speaking = s.speaking := rfl
@[simp] theorem dropReq_ide (s : State) (id : Nat) : (s.dropReq id).ide = s.ide := rfl
@[simp] theorem dropReq_bar0 (s : State) (id : Nat) : (s.dropReq id).bar0 = s.bar0 := rfl
@[simp] theorem dropReq_agentReqs (s : State) (id : Nat) : (s.dropReq id).agentReqs = s.agentReqs := rfl
@[simp] theorem dropReq_nextAgent (s : State) (id : Nat) : (s.dropReq id).nextAgent = s.nextAgent := rfl
@[simp] theorem dropReq_colls (s : State) (id : Nat) : (s.dropReq id).colls = s.colls := rfl
@[simp] theorem dropReq_routes (s : State) (id : Nat) : (s.dropReq id).routes = s.routes := rfl
@[simp] theorem dropReq_failedLinks (s : State) (id : Nat) : (s.dropReq id).failedLinks = s.failedLinks := rfl
@[simp] theorem dropReq_pairs (s : State) (id : Nat) : (s.dropReq id).pairs = s.pairs := rfl
@[simp] theorem dropReq_linkOut (s : State) (id : Nat) : (s.dropReq id).linkOut = s.linkOut := rfl
@[simp] theorem dropReq_offers (s : State) (id : Nat) : (s.dropReq id).offers = s.offers := rfl
@[simp] theorem dropReq_accepts (s : State) (id : Nat) : (s.dropReq id).accepts = s.accepts := rfl
@[simp] theorem dropReq_grants (s : State) (id : Nat) : (s.dropReq id).grants = s.grants := rfl
@[simp] theorem dropReq_keys (s : State) (id : Nat) : (s.dropReq id).keys = s.keys := rfl
@[simp] theorem dropReq_fuses (s : State) (id : Nat) : (s.dropReq id).fuses = s.fuses := rfl
@[simp] theorem dropReq_boot (s : State) (id : Nat) : (s.dropReq id).boot = s.boot := rfl
@[simp] theorem dropReq_imageVersion (s : State) (id : Nat) : (s.dropReq id).imageVersion = s.imageVersion := rfl
@[simp] theorem dropReq_newImage (s : State) (id : Nat) : (s.dropReq id).newImage = s.newImage := rfl
@[simp] theorem dropReq_accepted (s : State) (id : Nat) : (s.dropReq id).accepted = s.accepted := rfl
@[simp] theorem dropReq_service (s : State) (id : Nat) : (s.dropReq id).service = s.service := rfl
@[simp] theorem dropReq_measures (s : State) (id : Nat) : (s.dropReq id).measures = s.measures := rfl
@[simp] theorem dropReq_svcQueue (s : State) (id : Nat) : (s.dropReq id).svcQueue = s.svcQueue := rfl
@[simp] theorem dropReq_tests (s : State) (id : Nat) : (s.dropReq id).tests = s.tests := rfl
@[simp] theorem dropReq_sums (s : State) (id : Nat) : (s.dropReq id).sums = s.sums := rfl
@[simp] theorem dropReq_residue (s : State) (id : Nat) : (s.dropReq id).residue = s.residue := rfl
@[simp] theorem dropReq_nextReq (s : State) (id : Nat) : (s.dropReq id).nextReq = s.nextReq := rfl
@[simp] theorem dropReq_schedule (s : State) (id : Nat) : (s.dropReq id).schedule = s.schedule := rfl
@[simp] theorem dropReq_tick (s : State) (id : Nat) : (s.dropReq id).tick = s.tick := rfl
@[simp] theorem dropReq_here (s : State) (id : Nat) : (s.dropReq id).here = s.here := rfl

@[simp] theorem updStation_cycle (s : State) (n : Nat) (f : Station → Station) : (s.updStation n f).cycle = s.cycle := rfl
@[simp] theorem updStation_cores (s : State) (n : Nat) (f : Station → Station) : (s.updStation n f).cores = s.cores := rfl
@[simp] theorem updStation_hbm (s : State) (n : Nat) (f : Station → Station) : (s.updStation n f).hbm = s.hbm := rfl
@[simp] theorem updStation_hbmTags (s : State) (n : Nat) (f : Station → Station) : (s.updStation n f).hbmTags = s.hbmTags := rfl
@[simp] theorem updStation_hbmPoison (s : State) (n : Nat) (f : Station → Station) : (s.updStation n f).hbmPoison = s.hbmPoison := rfl
@[simp] theorem updStation_hbmCorrected (s : State) (n : Nat) (f : Station → Station) : (s.updStation n f).hbmCorrected = s.hbmCorrected := rfl
@[simp] theorem updStation_hbmKeys (s : State) (n : Nat) (f : Station → Station) : (s.updStation n f).hbmKeys = s.hbmKeys := rfl
@[simp] theorem updStation_far (s : State) (n : Nat) (f : Station → Station) : (s.updStation n f).far = s.far := rfl
@[simp] theorem updStation_farPoison (s : State) (n : Nat) (f : Station → Station) : (s.updStation n f).farPoison = s.farPoison := rfl
@[simp] theorem updStation_farKeys (s : State) (n : Nat) (f : Station → Station) : (s.updStation n f).farKeys = s.farKeys := rfl
@[simp] theorem updStation_host (s : State) (n : Nat) (f : Station → Station) : (s.updStation n f).host = s.host := rfl
@[simp] theorem updStation_hostPoison (s : State) (n : Nat) (f : Station → Station) : (s.updStation n f).hostPoison = s.hostPoison := rfl
@[simp] theorem updStation_hostOut (s : State) (n : Nat) (f : Station → Station) : (s.updStation n f).hostOut = s.hostOut := rfl
@[simp] theorem updStation_reqs (s : State) (n : Nat) (f : Station → Station) : (s.updStation n f).reqs = s.reqs := rfl
@[simp] theorem updStation_credits (s : State) (n : Nat) (f : Station → Station) : (s.updStation n f).credits = s.credits := rfl
@[simp] theorem updStation_promised (s : State) (n : Nat) (f : Station → Station) : (s.updStation n f).promised = s.promised := rfl
@[simp] theorem updStation_pageWait (s : State) (n : Nat) (f : Station → Station) : (s.updStation n f).pageWait = s.pageWait := rfl
@[simp] theorem updStation_desk (s : State) (n : Nat) (f : Station → Station) : (s.updStation n f).desk = s.desk := rfl
@[simp] theorem updStation_deskNext (s : State) (n : Nat) (f : Station → Station) : (s.updStation n f).deskNext = s.deskNext := rfl
@[simp] theorem updStation_pending (s : State) (n : Nat) (f : Station → Station) : (s.updStation n f).pending = s.pending := rfl
@[simp] theorem updStation_leave (s : State) (n : Nat) (f : Station → Station) : (s.updStation n f).leave = s.leave := rfl
@[simp] theorem updStation_leaveWait (s : State) (n : Nat) (f : Station → Station) : (s.updStation n f).leaveWait = s.leaveWait := rfl
@[simp] theorem updStation_lodgings (s : State) (n : Nat) (f : Station → Station) : (s.updStation n f).lodgings = s.lodgings := rfl
@[simp] theorem updStation_guests (s : State) (n : Nat) (f : Station → Station) : (s.updStation n f).guests = s.guests := rfl
@[simp] theorem updStation_saves (s : State) (n : Nat) (f : Station → Station) : (s.updStation n f).saves = s.saves := rfl
@[simp] theorem updStation_sessions (s : State) (n : Nat) (f : Station → Station) : (s.updStation n f).sessions = s.sessions := rfl
@[simp] theorem updStation_windows (s : State) (n : Nat) (f : Station → Station) : (s.updStation n f).windows = s.windows := rfl
@[simp] theorem updStation_spdm (s : State) (n : Nat) (f : Station → Station) : (s.updStation n f).spdm = s.spdm := rfl
@[simp] theorem updStation_speaking (s : State) (n : Nat) (f : Station → Station) : (s.updStation n f).speaking = s.speaking := rfl
@[simp] theorem updStation_ide (s : State) (n : Nat) (f : Station → Station) : (s.updStation n f).ide = s.ide := rfl
@[simp] theorem updStation_bar0 (s : State) (n : Nat) (f : Station → Station) : (s.updStation n f).bar0 = s.bar0 := rfl
@[simp] theorem updStation_agentReqs (s : State) (n : Nat) (f : Station → Station) : (s.updStation n f).agentReqs = s.agentReqs := rfl
@[simp] theorem updStation_nextAgent (s : State) (n : Nat) (f : Station → Station) : (s.updStation n f).nextAgent = s.nextAgent := rfl
@[simp] theorem updStation_colls (s : State) (n : Nat) (f : Station → Station) : (s.updStation n f).colls = s.colls := rfl
@[simp] theorem updStation_routes (s : State) (n : Nat) (f : Station → Station) : (s.updStation n f).routes = s.routes := rfl
@[simp] theorem updStation_failedLinks (s : State) (n : Nat) (f : Station → Station) : (s.updStation n f).failedLinks = s.failedLinks := rfl
@[simp] theorem updStation_pairs (s : State) (n : Nat) (f : Station → Station) : (s.updStation n f).pairs = s.pairs := rfl
@[simp] theorem updStation_linkOut (s : State) (n : Nat) (f : Station → Station) : (s.updStation n f).linkOut = s.linkOut := rfl
@[simp] theorem updStation_offers (s : State) (n : Nat) (f : Station → Station) : (s.updStation n f).offers = s.offers := rfl
@[simp] theorem updStation_accepts (s : State) (n : Nat) (f : Station → Station) : (s.updStation n f).accepts = s.accepts := rfl
@[simp] theorem updStation_grants (s : State) (n : Nat) (f : Station → Station) : (s.updStation n f).grants = s.grants := rfl
@[simp] theorem updStation_keys (s : State) (n : Nat) (f : Station → Station) : (s.updStation n f).keys = s.keys := rfl
@[simp] theorem updStation_fuses (s : State) (n : Nat) (f : Station → Station) : (s.updStation n f).fuses = s.fuses := rfl
@[simp] theorem updStation_boot (s : State) (n : Nat) (f : Station → Station) : (s.updStation n f).boot = s.boot := rfl
@[simp] theorem updStation_imageVersion (s : State) (n : Nat) (f : Station → Station) : (s.updStation n f).imageVersion = s.imageVersion := rfl
@[simp] theorem updStation_newImage (s : State) (n : Nat) (f : Station → Station) : (s.updStation n f).newImage = s.newImage := rfl
@[simp] theorem updStation_accepted (s : State) (n : Nat) (f : Station → Station) : (s.updStation n f).accepted = s.accepted := rfl
@[simp] theorem updStation_service (s : State) (n : Nat) (f : Station → Station) : (s.updStation n f).service = s.service := rfl
@[simp] theorem updStation_measures (s : State) (n : Nat) (f : Station → Station) : (s.updStation n f).measures = s.measures := rfl
@[simp] theorem updStation_svcQueue (s : State) (n : Nat) (f : Station → Station) : (s.updStation n f).svcQueue = s.svcQueue := rfl
@[simp] theorem updStation_tests (s : State) (n : Nat) (f : Station → Station) : (s.updStation n f).tests = s.tests := rfl
@[simp] theorem updStation_sums (s : State) (n : Nat) (f : Station → Station) : (s.updStation n f).sums = s.sums := rfl
@[simp] theorem updStation_residue (s : State) (n : Nat) (f : Station → Station) : (s.updStation n f).residue = s.residue := rfl
@[simp] theorem updStation_nextReq (s : State) (n : Nat) (f : Station → Station) : (s.updStation n f).nextReq = s.nextReq := rfl
@[simp] theorem updStation_schedule (s : State) (n : Nat) (f : Station → Station) : (s.updStation n f).schedule = s.schedule := rfl
@[simp] theorem updStation_tick (s : State) (n : Nat) (f : Station → Station) : (s.updStation n f).tick = s.tick := rfl
@[simp] theorem updStation_here (s : State) (n : Nat) (f : Station → Station) : (s.updStation n f).here = s.here := rfl

/-! ## Cores and slots under updates that do not reach them -/

@[simp] theorem lodging_setCore (s : State) (r : Nat) (c : Core) (m : Nat) : (s.setCore r c).lodging m = s.lodging m := rfl
@[simp] theorem router_setCore (s : State) (r : Nat) (c : Core) (m y : Nat) : (s.setCore r c).router m y = s.router m y := rfl
@[simp] theorem lodging_updCore (s : State) (r : Nat) (f : Core → Core) (m : Nat) : (s.updCore r f).lodging m = s.lodging m := rfl
@[simp] theorem router_updCore (s : State) (r : Nat) (f : Core → Core) (m y : Nat) : (s.updCore r f).router m y = s.router m y := rfl
@[simp] theorem lodging_setSlot (s : State) (r k : Nat) (x : Slot) (m : Nat) : (s.setSlot r k x).lodging m = s.lodging m := rfl
@[simp] theorem router_setSlot (s : State) (r k : Nat) (x : Slot) (m y : Nat) : (s.setSlot r k x).router m y = s.router m y := rfl
@[simp] theorem lodging_updSlot (s : State) (r k : Nat) (f : Slot → Slot) (m : Nat) : (s.updSlot r k f).lodging m = s.lodging m := rfl
@[simp] theorem router_updSlot (s : State) (r k : Nat) (f : Slot → Slot) (m y : Nat) : (s.updSlot r k f).router m y = s.router m y := rfl
@[simp] theorem lodging_updBlk (s : State) (r k : Nat) (f : Blk → Blk) (m : Nat) : (s.updBlk r k f).lodging m = s.lodging m := rfl
@[simp] theorem router_updBlk (s : State) (r k : Nat) (f : Blk → Blk) (m y : Nat) : (s.updBlk r k f).router m y = s.router m y := rfl
@[simp] theorem lodging_count (s : State) (r e n : Nat) (m : Nat) : (s.count r e n).lodging m = s.lodging m := rfl
@[simp] theorem router_count (s : State) (r e n : Nat) (m y : Nat) : (s.count r e n).router m y = s.router m y := rfl
@[simp] theorem lodging_noteError (s : State) (r unit : Nat) (m : Nat) : (s.noteError r unit).lodging m = s.lodging m := rfl
@[simp] theorem router_noteError (s : State) (r unit : Nat) (m y : Nat) : (s.noteError r unit).router m y = s.router m y := rfl
@[simp] theorem lodging_storeS (s : State) (r off : Nat) (bs : List Byte) (m : Nat) : (s.storeS r off bs).lodging m = s.lodging m := rfl
@[simp] theorem router_storeS (s : State) (r off : Nat) (bs : List Byte) (m y : Nat) : (s.storeS r off bs).router m y = s.router m y := rfl
@[simp] theorem lodging_putS (s : State) (r off n v : Nat) (m : Nat) : (s.putS r off n v).lodging m = s.lodging m := rfl
@[simp] theorem router_putS (s : State) (r off n v : Nat) (m y : Nat) : (s.putS r off n v).router m y = s.router m y := rfl
@[simp] theorem lodging_qPop (s : State) (r off : Nat) (m : Nat) : (s.qPop r off).lodging m = s.lodging m := rfl
@[simp] theorem router_qPop (s : State) (r off : Nat) (m y : Nat) : (s.qPop r off).router m y = s.router m y := rfl
@[simp] theorem core_updLodging (s : State) (n : Nat) (f : Lodging → Lodging) (c : Nat) : (s.updLodging n f).core c = s.core c := rfl
@[simp] theorem slot_updLodging (s : State) (n : Nat) (f : Lodging → Lodging) (c j : Nat) : (s.updLodging n f).slot c j = s.slot c j := rfl
@[simp] theorem core_issue (s : State) (a : ActId) (l : Nat) (n : W32) (b : Word) (i : Nat) (e : Eff) (st : Stage) (c : Nat) : (s.issue a l n b i e st).core c = s.core c := rfl
@[simp] theorem slot_issue (s : State) (a : ActId) (l : Nat) (n : W32) (b : Word) (i : Nat) (e : Eff) (st : Stage) (c j : Nat) : (s.issue a l n b i e st).slot c j = s.slot c j := rfl
@[simp] theorem lodging_issue (s : State) (a : ActId) (l : Nat) (n : W32) (b : Word) (i : Nat) (e : Eff) (st : Stage) (m : Nat) : (s.issue a l n b i e st).lodging m = s.lodging m := rfl
@[simp] theorem router_issue (s : State) (a : ActId) (l : Nat) (n : W32) (b : Word) (i : Nat) (e : Eff) (st : Stage) (m y : Nat) : (s.issue a l n b i e st).router m y = s.router m y := rfl
@[simp] theorem core_updReq (s : State) (id : Nat) (f : Req → Req) (c : Nat) : (s.updReq id f).core c = s.core c := rfl
@[simp] theorem slot_updReq (s : State) (id : Nat) (f : Req → Req) (c j : Nat) : (s.updReq id f).slot c j = s.slot c j := rfl
@[simp] theorem lodging_updReq (s : State) (id : Nat) (f : Req → Req) (m : Nat) : (s.updReq id f).lodging m = s.lodging m := rfl
@[simp] theorem router_updReq (s : State) (id : Nat) (f : Req → Req) (m y : Nat) : (s.updReq id f).router m y = s.router m y := rfl
@[simp] theorem core_setStage (s : State) (id : Nat) (st : Stage) (c : Nat) : (s.setStage id st).core c = s.core c := rfl
@[simp] theorem slot_setStage (s : State) (id : Nat) (st : Stage) (c j : Nat) : (s.setStage id st).slot c j = s.slot c j := rfl
@[simp] theorem lodging_setStage (s : State) (id : Nat) (st : Stage) (m : Nat) : (s.setStage id st).lodging m = s.lodging m := rfl
@[simp] theorem router_setStage (s : State) (id : Nat) (st : Stage) (m y : Nat) : (s.setStage id st).router m y = s.router m y := rfl
@[simp] theorem core_answer (s : State) (id : Nat) (r : Resp) (c : Nat) : (s.answer id r).core c = s.core c := rfl
@[simp] theorem slot_answer (s : State) (id : Nat) (r : Resp) (c j : Nat) : (s.answer id r).slot c j = s.slot c j := rfl
@[simp] theorem lodging_answer (s : State) (id : Nat) (r : Resp) (m : Nat) : (s.answer id r).lodging m = s.lodging m := rfl
@[simp] theorem router_answer (s : State) (id : Nat) (r : Resp) (m y : Nat) : (s.answer id r).router m y = s.router m y := rfl
@[simp] theorem core_dropReq (s : State) (id : Nat) (c : Nat) : (s.dropReq id).core c = s.core c := rfl
@[simp] theorem slot_dropReq (s : State) (id : Nat) (c j : Nat) : (s.dropReq id).slot c j = s.slot c j := rfl
@[simp] theorem lodging_dropReq (s : State) (id : Nat) (m : Nat) : (s.dropReq id).lodging m = s.lodging m := rfl
@[simp] theorem router_dropReq (s : State) (id : Nat) (m y : Nat) : (s.dropReq id).router m y = s.router m y := rfl
@[simp] theorem core_updStation (s : State) (n : Nat) (f : Station → Station) (c : Nat) : (s.updStation n f).core c = s.core c := rfl
@[simp] theorem slot_updStation (s : State) (n : Nat) (f : Station → Station) (c j : Nat) : (s.updStation n f).slot c j = s.slot c j := rfl
@[simp] theorem lodging_updStation (s : State) (n : Nat) (f : Station → Station) (m : Nat) : (s.updStation n f).lodging m = s.lodging m := rfl
@[simp] theorem router_updStation (s : State) (n : Nat) (f : Station → Station) (m y : Nat) : (s.updStation n f).router m y = s.router m y := rfl
@[simp] theorem slot_count (s : State) (r e n : Nat) (c j : Nat) : (s.count r e n).slot c j = s.slot c j := slot_updCore _ _ _ rfl _ _
@[simp] theorem slot_noteError (s : State) (r unit : Nat) (c j : Nat) : (s.noteError r unit).slot c j = s.slot c j := slot_updCore _ _ _ rfl _ _
@[simp] theorem slot_putS (s : State) (r off n v : Nat) (c j : Nat) : (s.putS r off n v).slot c j = s.slot c j := slot_storeS ..
@[simp] theorem slot_qPop (s : State) (r off c j : Nat) : (s.qPop r off).slot c j = s.slot c j := slot_putS ..

end Sys2Proof.Machine
end

