-- ==== Sys2Proof/Laws/Frames.lean ====
section
/-! SUPPORT. Everything that the shared operations on queues, on a block's reservations and on the firing can change: one lemma for each, to
be cited in place of unfolding. -/

namespace Sys2Proof.Machine

/-! ## Queue operations -/

/-- All that an operation on queues does to a core: S, the senders and stamps of entries, the waiting sends and waits, the ring, and event 13. -/
structure CoreQueued (a b : Core) : Prop where
  rest : { b with s := a.s, senders := a.senders, stamps := a.stamps, sendws := a.sendws, waiters := a.waiters, ring := a.ring, nextSeq := a.nextSeq, ev := a.ev } = a
  events : ∀ e, e ≠ 13 → mapGet b.ev e = mapGet a.ev e
/-- All that an operation on queues does: the cores' queues and rings, answers to requests, and the count that orders entries. -/
structure Queued (s t : State) : Prop where
  rest : { t with cores := s.cores, reqs := s.reqs, nextReq := s.nextReq } = s
  core : ∀ c, CoreQueued (s.core c) (t.core c)

theorem CoreQueued.refl (a : Core) : CoreQueued a a := ⟨rfl, fun _ _ => rfl⟩
theorem CoreQueued.trans {a b c : Core} (h : CoreQueued a b) (g : CoreQueued b c) : CoreQueued a c where
  rest := (congrArg (fun x : Core => { x with s := a.s, senders := a.senders, stamps := a.stamps, sendws := a.sendws, waiters := a.waiters, ring := a.ring, nextSeq := a.nextSeq, ev := a.ev }) g.rest).trans h.rest
  events e he := (g.events e he).trans (h.events e he)
theorem CoreQueued.slots {a b : Core} (h : CoreQueued a b) : b.slots = a.slots := by
  have := congrArg Core.slots h.rest; exact this
theorem Queued.refl (s : State) : Queued s s := ⟨rfl, fun _ => .refl _⟩
theorem Queued.trans {s t u : State} (h : Queued s t) (g : Queued t u) : Queued s u where
  rest := (congrArg (fun x : State => { x with cores := s.cores, reqs := s.reqs, nextReq := s.nextReq }) g.rest).trans h.rest
  core c := (h.core c).trans (g.core c)
theorem Queued.slot {s t : State} (h : Queued s t) (c k : Nat) : t.slot c k = s.slot c k := by
  simp only [State.slot, (h.core c).slots]
theorem Queued.updCore (s : State) (r : Nat) (f : Core → Core) (h : CoreQueued (s.core r) (f (s.core r))) : Queued s (s.updCore r f) where
  rest := rfl
  core c := by
    rw [core_updCore]; split
    · subst c; exact h
    · exact .refl _
theorem Queued.reqs (s : State) (rs : List Req) : Queued s { s with reqs := rs } := ⟨rfl, fun _ => .refl _⟩
theorem Queued.ite {s t u : State} {p : Prop} [Decidable p] (h : Queued s t) (g : Queued s u) : Queued s (if p then t else u) := by
  split <;> assumption
theorem Queued.answer (s : State) (id : Nat) (r : Resp) : Queued s (s.answer id r) := .reqs _ _
theorem Queued.storeS (s : State) (r off : Nat) (bs : List Byte) (tag : Bool) : Queued s (s.storeS r off bs tag) where
  rest := rfl
  core c := by
    obtain ⟨x, h⟩ := core_storeS s r off bs tag c
    rw [h]; exact ⟨rfl, fun _ _ => rfl⟩
theorem Queued.putS (s : State) (r off n v : Nat) : Queued s (s.putS r off n v) := .storeS ..
theorem Queued.qPop (s : State) (r off : Nat) : Queued s (s.qPop r off) := .putS ..
theorem Queued.number (s : State) (n : Nat) : Queued s { s with nextReq := n } := ⟨rfl, fun _ => .refl _⟩
theorem Queued.qPush (s : State) (r off : Nat) (m : Msg) : Queued s (s.qPush r off m).1 :=
  .trans (.trans ((Queued.storeS ..).trans (.updCore _ _ _ ⟨rfl, fun _ _ => rfl⟩)) (.number ..)) (.putS ..)
theorem Queued.count13 (s : State) (r n : Nat) : Queued s (s.count r 13 n) :=
  .updCore _ _ _ ⟨rfl, fun _ h => mapGet_mapUpd_other (s.core r).ev (fun v => BitVec.ofNat 32 (Nat.min (v.toNat + n) 0xFFFFFFFF)) h⟩
/-- A start on the ring changes the ring, its entry in S and the next sequence number (R324). -/
theorem putRing_rest (c : Core) (st : Start) : { c.putRing st with s := c.s, ring := c.ring, nextSeq := c.nextSeq } = c := by
  unfold Core.putRing; generalize Core.freePlace c = p; generalize Core.freeUnits c _ = u; rfl
theorem CoreQueued.putRing (c : Core) (st : Start) : CoreQueued c (c.putRing st) where
  rest := by
    have h := putRing_rest c st
    exact (congrArg (fun x : Core => { x with s := c.s, senders := c.senders, stamps := c.stamps, sendws := c.sendws, waiters := c.waiters, ev := c.ev }) h)
  events e _ := by
    have h := congrArg Core.ev (putRing_rest c st)
    exact congrArg (fun m => mapGet m e) h
/-- A start takes its place on a ring (R324). -/
theorem Queued.toRing (s : State) (r : Nat) (st : Start) : Queued s (s.toRing r st) := by
  unfold State.toRing
  have h : Queued s (s.updCore r fun c => c.putRing st) := .updCore _ _ _ (.putRing ..)
  dsimp only
  split
  · exact h.trans (.count13 ..)
  · exact h
/-- The entries of a bound queue become starts (R285). -/
theorem Queued.runHandlers (s : State) (r off n : Nat) : Queued s (s.runHandlers r off n) := by
  induction n generalizing s with
  | zero => exact .refl s
  | succ n ih =>
    unfold State.runHandlers
    dsimp only
    split
    · exact ((Queued.qPop ..).trans (.toRing ..)).trans (ih _)
    · exact .refl s
/-- Waiting SENDWs take freed places (R284). -/
theorem Queued.admitSendw (s : State) (r off n : Nat) : Queued s (s.admitSendw r off n) := by
  induction n generalizing s with
  | zero => exact .refl s
  | succ n ih =>
    unfold State.admitSendw
    split
    · exact .refl s
    · dsimp only
      split
      · rename_i q qs _ _
        have h : Queued s (s.updCore r fun c => { c with sendws := mapSet c.sendws off qs }) := .updCore _ _ _ ⟨rfl, fun _ _ => rfl⟩
        split
        · exact h.trans (((Queued.qPush ..).trans (.answer ..)).trans (ih _))
        · exact h.trans (ih _)
      · exact .refl s
/-- A queue's entries go to its waiters, and then to its handler (R263, R285). -/
theorem Queued.serveQueue (s : State) (r off n : Nat) : Queued s (s.serveQueue r off n) := by
  induction n generalizing s with
  | zero => exact .refl s
  | succ n ih =>
    unfold State.serveQueue
    dsimp only
    split
    · split
      · rename_i q qs _ _
        have h : Queued s (s.updCore r fun c => { c with waiters := mapSet c.waiters off qs }) := .updCore _ _ _ ⟨rfl, fun _ _ => rfl⟩
        refine Queued.trans (.ite (h.trans (.answer ..)) ?_) (ih _)
        exact (h.trans (.answer ..)).trans ((Queued.qPop ..).trans (.admitSendw ..))
      · exact .runHandlers ..
    · exact .runHandlers ..
theorem Queued.deliver (s : State) (r off : Nat) (m : Msg) : Queued s (s.deliver r off m) := (Queued.qPush ..).trans (.serveQueue ..)
theorem Queued.tryDeliver {s t : State} {r off : Nat} {m : Msg} (h : s.tryDeliver r off m = some t) : Queued s t := by
  unfold State.tryDeliver at h
  split at h
  · cases h; exact .deliver ..
  · cases h
/-- A trap record is written (R297). -/
theorem Queued.writeTrap {s t : State} {n : Nat} {rec : V512} {sender : Nat} (h : s.writeTrap n rec sender = some t) : Queued s t := by
  unfold State.writeTrap at h
  split at h
  · exact .tryDeliver h
  · cases h

/-! ## Traps (R72, R267, R295) -/

/-- All that giving up a block's reservations changes: places, claims and records that it reserved, what it took of a lodging, and its questions
to peers, with new ones that give their places back. -/
structure Released (s t : State) : Prop where
  rest : { t with cores := s.cores, lodgings := s.lodgings, pending := s.pending, reqs := s.reqs, nextReq := s.nextReq } = s
  reqs : ∀ q ∈ s.reqs, (∀ d k i n o, q.eff ≠ .query d k i n o) → q ∈ t.reqs
  core : ∀ c, { t.core c with slots := (s.core c).slots, places := (s.core c).places, claims := (s.core c).claims } = s.core c
  slot : ∀ c k, { t.slot c k with custody := (s.slot c k).custody } = s.slot c k
  custody : ∀ c k, { (t.slot c k).custody with reserved := (s.slot c k).custody.reserved } = (s.slot c k).custody
  lodging : ∀ n, { t.lodging n with replies := (s.lodging n).replies, pool := (s.lodging n).pool } = s.lodging n

theorem Released.refl (s : State) : Released s s := ⟨rfl, fun _ h _ => h, fun _ => rfl, fun _ _ => rfl, fun _ _ => rfl, fun _ => rfl⟩
theorem Released.trans {s t u : State} (h : Released s t) (g : Released t u) : Released s u where
  rest := (congrArg (fun x : State => { x with cores := s.cores, lodgings := s.lodgings, pending := s.pending, reqs := s.reqs, nextReq := s.nextReq }) g.rest).trans h.rest
  reqs q hq n := g.reqs q (h.reqs q hq n) n
  core c := (congrArg (fun x : Core => { x with slots := (s.core c).slots, places := (s.core c).places, claims := (s.core c).claims }) (g.core c)).trans (h.core c)
  slot c k := (congrArg (fun x : Slot => { x with custody := (s.slot c k).custody }) (g.slot c k)).trans (h.slot c k)
  custody c k := (congrArg (fun x : Custody => { x with reserved := (s.slot c k).custody.reserved }) (g.custody c k)).trans (h.custody c k)
  lodging n := (congrArg (fun x : Lodging => { x with replies := (s.lodging n).replies, pool := (s.lodging n).pool }) (g.lodging n)).trans (h.lodging n)
theorem Released.updCore (s : State) (r : Nat) (f : Core → Core)
    (h : ∀ c, { f c with places := c.places, claims := c.claims } = c) : Released s (s.updCore r f) where
  rest := rfl
  reqs _ h _ := h
  core c := by
    rw [core_updCore]; split
    · subst c; exact congrArg (fun x : Core => { x with slots := (s.core r).slots }) (h (s.core r))
    · rfl
  slot c k := by
    have e : (f (s.core r)).slots = (s.core r).slots := by have := congrArg Core.slots (h (s.core r)); exact this
    rw [slot_updCore s r f e]
  custody c k := by
    have e : (f (s.core r)).slots = (s.core r).slots := by have := congrArg Core.slots (h (s.core r)); exact this
    rw [slot_updCore s r f e]
  lodging _ := rfl
theorem Released.freesRecord (s : State) (r k : Nat) :
    Released s (s.updSlot r k fun x => { x with custody := { x.custody with reserved := 0 } }) where
  rest := rfl
  reqs _ h _ := h
  core c := by simp only [State.updSlot, State.setSlot, core_updCore]; split <;> [subst c; skip] <;> rfl
  slot c j := by rw [slot_updSlot]; split <;> [(rename_i e; obtain ⟨rfl, rfl⟩ := e); skip] <;> rfl
  custody c j := by rw [slot_updSlot]; split <;> [(rename_i e; obtain ⟨rfl, rfl⟩ := e); skip] <;> rfl
  lodging _ := rfl
theorem Released.updLodging (s : State) (n : Nat) (f : Lodging → Lodging)
    (h : ∀ l, { f l with replies := l.replies, pool := l.pool } = l) : Released s (s.updLodging n f) where
  rest := rfl
  reqs _ h _ := h
  core _ := rfl
  slot _ _ := rfl
  custody _ _ := rfl
  lodging m := by
    by_cases e : m = n
    · subst e; rw [lodging_updLodging_same]; exact h _
    · rw [lodging_updLodging_other _ _ e]
/-- One act of the block. -/
theorem Released.foldl {β : Type} (f : State → β → State) (h : ∀ s b, Released s (f s b)) (bs : List β) (s : State) : Released s (bs.foldl f s) := by
  induction bs generalizing s with
  | nil => exact .refl s
  | cons b bs ih => exact (h s b).trans (ih _)
/-- A question of the slot loses the one who waits for it; a request of another kind stays as it is. -/
theorem Released.orphans (s : State) (r k : Nat) :
    Released s { s with reqs := s.reqs.map fun q => if q.act.core == r then { q with eff := q.eff.orphan k } else q } where
  rest := rfl
  reqs q h n := by
    refine List.mem_map.2 ⟨q, h, ?_⟩
    have e : q.eff.orphan k = q.eff := by
      unfold Eff.orphan; split
      · rename_i d k' i kind o e; exact absurd e (n d k' i kind o)
      · rfl
    rw [e]; split <;> rfl
  core _ := rfl
  slot _ _ := rfl
  custody _ _ := rfl
  lodging _ := rfl
theorem Released.giveBack (s : State) (r d kind : Nat) (o : Word) : Released s (s.giveBack r d kind o) where
  rest := rfl
  reqs _ h _ := List.mem_append_left _ h
  core _ := rfl
  slot _ _ := rfl
  custody _ _ := rfl
  lodging _ := rfl
theorem Released.freeClaimPlace (s : State) (l : Nat) (n : Word) : Released s (s.freeClaimPlace l n) := by
  unfold State.freeClaimPlace; split
  · exact .updCore _ _ _ fun _ => rfl
  · exact .refl s
/-- Giving up the block's reservations (R267). -/
theorem Released.release (s : State) (r k : Nat) : Released s (s.release r k) := by
  unfold State.release
  refine (Released.orphans s r k).trans (Released.foldl _ (fun s e => ?_) _ _)
  dsimp only
  split
  · exact .updCore _ _ _ fun _ => rfl
  · exact .giveBack ..
  · exact .updLodging _ _ _ fun _ => rfl
  · refine ⟨rfl, fun _ h _ => h, fun _ => rfl, fun _ _ => rfl, fun _ _ => rfl, fun m => ?_⟩
    exact (Released.updLodging s _ (fun x => { x with pool := mapUpd x.pool (dieOf r) (· - 1) }) fun _ => rfl).lodging m
  · exact .updCore _ _ _ fun _ => rfl
  · rename_i t _ _ i _
    have h : Released s (s.updCore r fun c => { c with claims := mapUpd c.claims i fun x => { x with state := 0 } }) := .updCore _ _ _ fun _ => rfl
    split
    · exact h
    · split
      · exact h.trans (.giveBack ..)
      · exact h.trans (.freeClaimPlace ..)
  · exact .freesRecord ..
  · exact .freesRecord ..
  · exact .freesRecord ..
  · refine Released.trans ?_ (.freesRecord ..)
    exact .freesRecord ..
  · exact .refl s

/-! ## Firing (R54, R129) -/

/-- What a slot keeps while an instruction of some slot of its core fires, beside its block: all but the slots it yields to. -/
theorem slots_firedBy (c : Core) (k : Nat) : { c.firedBy k with slots := c.slots } = c := rfl

end Sys2Proof.Machine
end

