-- ==== Sys2Proof/Laws/Rows.lean ====
section
/-! SUPPORT. A row's meaning is exec's meaning of the instruction that the row reads from the word. -/

namespace Sys2Proof.Machine

theorem execRow_eq (r : Row) (w : W32) (s : State) : execRow r w s = exec (build r w) s := by
  cases r <;> rfl

/-- A firing of a word that decodes is exec of what it decodes to. -/
theorem fireAt_decoded (s : State) (core slot idx : Nat) (w : W32) (i : Instr)
    (hw : ({ s with here := (core, slot, idx) } : State).wordAt core slot idx = some w) (hi : decodeWord w = .ok i) :
    s.fireAt core slot idx = exec i { s with here := (core, slot, idx) } := by
  unfold State.fireAt
  simp only [hw]
  unfold decodeWord at hi
  cases hr : rowOf w with
  | error e => rw [hr] at hi; cases hi
  | ok r => rw [hr] at hi; rw [← Except.ok.inj hi]; exact execRow_eq r w _

end Sys2Proof.Machine
end

