-- ==== Sys2Proof/Laws/Scalar.lean ====
section
/-! SUPPORT. What a T-format instruction with a value for its targets leaves (R54, R55), and the scalar result of R117. -/

namespace Sys2Proof.Claims
open Sys2Proof.Machine

theorem numAt_eq_bitsAt {n : Nat} (w : BitVec n) (lo k : Nat) : numAt w lo k = (bitsAt w lo k).toNat := by
  simp [numAt, bitsAt, BitVec.extractLsb'_toNat, Nat.shiftRight_eq_div_pow]

theorem scalarOk_eq (v : Value) : v.validTo 2 = scalarOk v := by
  have h : ∀ w : BitVec 2, (w.toNat == 3) = (w.getLsbD 0 && w.getLsbD 1) := by decide
  unfold Value.validTo scalarOk
  rw [numAt_eq_bitsAt]
  refine (h _).trans ?_
  simp [bitsAt, bitAt]

theorem capOk_eq (v : Value) : v.validTo 4 = capOk v := by
  have h : ∀ w : BitVec 4, (w.toNat == 15) = (w == 0xF#4) := by decide
  unfold Value.validTo capOk
  rw [numAt_eq_bitsAt]
  exact h _

theorem scalarOut_eq (s : State) (row : Row) (l r t : Value) (m : BitVec 16) (vs : List Value) (x : Word) (evs : List Nat) :
    (ctxOf s row l r t m).scalarOut vs x evs
      = .ok { s := s, v0 := scalar m vs x, v1 := scalar m vs x, evs := raised m vs evs } := by
  have e : (vs.all fun v => v.validTo 2) = vs.all scalarOk := by congr 1; funext v; exact scalarOk_eq v
  have n : (numAt m 0 2 != 0) = (bitsAt m 0 2 != 0#2) := by
    rw [numAt_eq_bitsAt]
    have h : ∀ w : BitVec 2, (w.toNat != 0) = (w != 0#2) := by decide
    exact h _
  unfold Ctx.scalarOut
  simp only [e]
  show Except.ok _ = _
  congr 1
  simp only [Ctx.masked, scalarValue, scalar, raised, ctxOf, n]
  congr 1

/-- A T-format instruction of `n` operands whose effect is a value for both targets. -/
theorem t_value {s : State} {row : Row} {pr : BitVec 2} {n : Nat} {t1 t0 : BitVec 9} {m : BitVec 16} {v : Value} {evs : List Nat}
    {onNull : Ctx → State} {act : Ctx → Except Trap Fired} (h : MayFire s) (hr : Runs s pr m)
    (g0 : n < 1 ∨ ∃ a, Given s 0 a) (g1 : n < 2 ∨ ∃ a, Given s 1 a) (g2 : n < 3 ∨ ∃ a, Given s 2 a) (hl : row.isLoad = false)
    (hg : (row == .cusGive) = false) (ha : act (ctxOf s row ((opnd s 0).getD default) ((opnd s 1).getD default) ((opnd s 2).getD default) m)
      = .ok { s := s, v0 := v, v1 := v, evs := evs }) :
    s.fire (tForm row pr n t1 t0) onNull act = .next (answers s t1 t0 v evs) := by
  rw [fire_run onNull act h hr rfl
    ⟨g0.imp id fun ⟨a, g⟩ => ⟨a, g.arrived, g.real, .inl rfl⟩, g1.imp id fun ⟨a, g⟩ => ⟨a, g.arrived, g.real, .inl rfl⟩,
      g2.imp id fun ⟨a, g⟩ => ⟨a, g.arrived, g.real, .inl rfl⟩, .inl hg⟩ (by simp [Form.brokenWhole, tForm]) (.inl hl)]
  have ha' : act { seen s (tForm row pr n t1 t0) with mask := m } = .ok { s := s, v0 := v, v1 := v, evs := evs } := ha
  rw [ha']
  exact congrArg _ (finish_eq s s _ _ _ _ _ _ _ _ _ rfl h.admitted)

/-- The same for the I and L formats, which have one target. -/
theorem i_value {s : State} {row : Row} {pr : BitVec 2} {n : Nat} {t0 : BitVec 9} {m : BitVec 16} {v : Value} {evs : List Nat}
    {onNull : Ctx → State} {act : Ctx → Except Trap Fired} (h : MayFire s) (hr : Runs s pr m)
    (g0 : n < 1 ∨ ∃ a, Given s 0 a) (g1 : n < 2 ∨ ∃ a, Given s 1 a)  (hn : n ≤ 2)
    (hl : row.isLoad = false ∨ storesDone (blkOf s) (lsidOf (wordOf s)).toNat = true)
    (hg : (row == .cusGive) = false) (ha : act (ctxOf s row ((opnd s 0).getD default) ((opnd s 1).getD default) ((opnd s 2).getD default) m)
      = .ok { s := s, v0 := v, v1 := v, evs := evs }) :
    s.fire (iForm row pr n t0) onNull act = .next (answers s noTarget t0 v evs) := by
  rw [fire_run onNull act h hr rfl
    ⟨g0.imp id fun ⟨a, g⟩ => ⟨a, g.arrived, g.real, .inl rfl⟩, g1.imp id fun ⟨a, g⟩ => ⟨a, g.arrived, g.real, .inl rfl⟩,
      .inl (Nat.lt_succ_of_le hn), .inl hg⟩ (by simp [Form.brokenWhole, iForm]) hl]
  have ha' : act { seen s (iForm row pr n t0) with mask := m } = .ok { s := s, v0 := v, v1 := v, evs := evs } := ha
  rw [ha']
  exact congrArg _ (finish_eq s s _ _ _ _ _ _ _ _ _ rfl h.admitted)

/-- A T-format instruction of two operands whose effect is a scalar result. -/
theorem two_gen {s : State} {row : Row} {pr t1 t0 m a b} {i : Instr} {act : Ctx → Except Trap Fired} {x : Word} {evs}
    (he : exec i s = s.fire (tForm row pr 2 t1 t0) plainNull act) (hl : row.isLoad = false) (hg : (row == .cusGive) = false)
    (h : MayFire s) (hr : Runs s pr m) (g0 : Given s 0 a) (g1 : Given s 1 b)
    (ha : ∀ t, act (ctxOf s row a b t m) = (ctxOf s row a b t m).scalarOut [a, b] x evs) :
    exec i s = .next (answers s t1 t0 (scalar m [a, b] x) (raised m [a, b] evs)) := by
  rw [he]
  refine t_value h hr (.inr ⟨a, g0⟩) (.inr ⟨b, g1⟩) (.inl (by decide)) hl hg ?_
  simp only [g0.arrived, g1.arrived, Option.getD_some]
  rw [ha]
  exact scalarOut_eq s row a b _ m [a, b] x evs

/-- The same for one operand. -/
theorem one_gen {s : State} {row : Row} {pr t1 t0 m a} {i : Instr} {act : Ctx → Except Trap Fired} {x : Word} {evs}
    (he : exec i s = s.fire (tForm row pr 1 t1 t0) plainNull act) (hl : row.isLoad = false) (hg : (row == .cusGive) = false)
    (h : MayFire s) (hr : Runs s pr m) (g0 : Given s 0 a) 
    (ha : ∀ b t, act (ctxOf s row a b t m) = (ctxOf s row a b t m).scalarOut [a] x evs) :
    exec i s = .next (answers s t1 t0 (scalar m [a] x) (raised m [a] evs)) := by
  rw [he]
  refine t_value h hr (.inr ⟨a, g0⟩) (.inl (by decide)) (.inl (by decide)) hl hg ?_
  simp only [g0.arrived, Option.getD_some]
  rw [ha]
  exact scalarOut_eq s row a _ _ m [a] x evs

theorem raised_nil (m vs) : raised m vs [] = [] := by unfold raised; split <;> rfl

/-- The same for one operand and an immediate. -/
theorem imm_gen {s : State} {row : Row} {pr t0 m a} {i : Instr} {act : Ctx → Except Trap Fired} {x : Word} {evs}
    (he : exec i s = s.fire (iForm row pr 1 t0) plainNull act) (hl : row.isLoad = false) (hg : (row == .cusGive) = false)
    (h : MayFire s) (hr : Runs s pr m) (g0 : Given s 0 a)
    (ha : ∀ b t, act (ctxOf s row a b t m) = (ctxOf s row a b t m).scalarOut [a] x evs) :
    exec i s = .next (answers s noTarget t0 (scalar m [a] x) (raised m [a] evs)) := by
  rw [he]
  refine i_value h hr (.inr ⟨a, g0⟩) (.inl (by decide)) (by decide) (.inl hl) hg ?_
  simp only [g0.arrived, Option.getD_some]
  rw [ha]
  exact scalarOut_eq s row a _ _ m [a] x evs

end Sys2Proof.Claims
end

