-- ==== Sys2Proof/Tests/Slice0.lean ====
section
/-! SUPPORT. Tests: ill-formed terms that the checks refuse, words written out from the encodings of the spec, single steps whose results
follow from a rule of the spec by hand, and for every statement a state and operands that meet its hypotheses. -/

set_option Elab.async false

namespace Sys2Proof.Tests
open Sys2Proof Sys2Proof.Machine Sys2Proof.Claims

/-! ## Well-formedness: one ill-formed term for each check -/

theorem test_wellFormed_refuses : ([.extHint 0 4, .extModifier 0 0 6, .port 0 5 0 0, .wport 0 4, .null 1 0 0, .bro 1 0, .call 1 0 0, .shli 0 64 0,
    .shri 0 64 0, .srai 0 64 0, .qld 1 0 0 0, .qld 0 0 9 0, .qst 1 0 0, .qst 0 1 0, .aad 1 0 0 0 0, .acas 1 0 0 0 0, .fenceFull 1 0,
    .vredMaxn 0 1 0 0, .vredXor 0 0 0 0, .ctrNew 1 0 0, .wait 1 0, .send 1 0 0, .launch 1 0 0, .mma 1, .trap 1, .stnMap 1] : List Instr).all
    (fun i => !WellFormed i) = true := by decide
theorem test_wellFormed_refuses_events : ([.blockFetch 4144 0, .blockFetch 0 8, .instructionAged 0 0 128, .favouredSlotMove 0 4,
    .portWordArrival 0 5, .remoteAnswer 0 0 256, .leaveGrant 8, .launchAged 256 0, .launchAged 0 16, .faultMessageSend 64 0,
    .priResponse 0 0 16, .linkFailure 24, .collectiveEntryPass 0 4096, .lotReadback 0 4 0, .flushMarker 256 0 0,
    .scrubVisit 4144 0 0] : List Instr).all (fun i => !WellFormed i) = true := by decide
theorem test_wellFormed_accepts : ([.extHint 0 3, .extModifier 0 0 5, .port 0 4 0 0, .wport 0 3, .mov 1 0 0, .shli 0 63 0, .qld 0 0 8 0, .qst 0 8 0,
    .vredMaxn 0 2 0 0, .blockFetch 4143 7, .linkFailure 23] : List Instr).all WellFormed = true := by decide

/-! ## Decoding and encoding: every constructor with a word, its fields in the order of the encoding -/

/-- Each word decodes to the instruction, and the instruction encodes to the word. -/
noncomputable def decodes (ws : List (Nat × Instr)) : Bool :=
  ws.all fun e => decodeTableWord 32 e.1 == some e.2 && encode e.2 == BitVec.ofNat 32 e.1

theorem test_decode_prefixes : decodes [
    (0b0000001_00_10110100101101001010011, .extWide 0x5a5a53),
    (0b0000001_010000000000000000000_1_011, .extHint 1 3),
    (0b0000001_1000000000000000000_10_1_101, .extModifier 2 1 5)] = true := by decide
theorem test_decode_registers : decodes [
    (0b0000010_1_101001_100000101_010000011, .read 1 0x29 0x105 0x83),
    (0b0000011_1_000100_100000101_010000011, .port 1 4 0x105 0x83),
    (0b0000100_01_101001_00000000000000000, .write 1 0x29),
    (0b0000101_01_000011_00000000000000000, .wport 1 3),
    (0b0000110_10_00000_100000101_010000011, .null 2 0x105 0x83),
    (0b0000111_01_00000_100000101_010000011, .mov 1 0x105 0x83)] = true := by decide
theorem test_decode_exits : decodes [
    (0b0001000_10_10110100101101001010011, .bro 2 0x5a5a53),
    (0b0001001_10_101001_10101101001010011, .call 2 0x29 0x15a53),
    (0b0001010_10_00000111111111111111111, .brc 2),
    (0b0001010_10_00001111111111111111111, .ret 2),
    (0b0001011_10_101001_00000000000000000, .callc 2 0x29),
    (0b0001100_10_00000111111111111111111, .exit 2),
    (0b0001101_10_10110100101101001010011, .yield 2 0x5a5a53),
    (0b0001110_10_00000111111111111111111, .handoff 2),
    (0b0001111_10_00000111111111111111111, .sleep 2)] = true := by decide
theorem test_decode_alu : decodes [
    (0b001000_1_01_00000_100000101_010000011, .add 1 1 0x105 0x83),
    (0b001000_1_01_00001_100000101_010000011, .sub 1 1 0x105 0x83),
    (0b001000_1_01_00010_100000101_010000011, .and 1 1 0x105 0x83),
    (0b001000_1_01_00011_100000101_010000011, .or 1 1 0x105 0x83),
    (0b001000_1_01_00100_100000101_010000011, .xor 1 1 0x105 0x83),
    (0b001000_1_01_00101_100000101_010000011, .andn 1 1 0x105 0x83),
    (0b001000_1_01_00110_100000101_010000011, .shl 1 1 0x105 0x83),
    (0b001000_1_01_00111_100000101_010000011, .shr 1 1 0x105 0x83),
    (0b001000_1_01_01000_100000101_010000011, .sra 1 1 0x105 0x83),
    (0b001000_1_01_01001_100000101_010000011, .rol 1 1 0x105 0x83),
    (0b001000_1_01_01010_100000101_010000011, .min 1 1 0x105 0x83),
    (0b001000_1_01_01011_100000101_010000011, .max 1 1 0x105 0x83),
    (0b001000_1_01_01100_100000101_010000011, .minn 1 1 0x105 0x83),
    (0b001000_1_01_01101_100000101_010000011, .maxn 1 1 0x105 0x83),
    (0b001000_1_01_01110_100000101_010000011, .sel 1 1 0x105 0x83)] = true := by decide
theorem test_decode_multiply : decodes [
    (0b0010010_01_0_1_000_100000101_010000011, .mul 1 1 0x105 0x83),
    (0b0010010_01_0_1_001_100000101_010000011, .mulh 1 1 0x105 0x83),
    (0b0010010_01_0_1_010_100000101_010000011, .mulhn 1 1 0x105 0x83),
    (0b0010010_01_0_1_011_100000101_010000011, .div 1 1 0x105 0x83),
    (0b0010010_01_0_1_100_100000101_010000011, .divn 1 1 0x105 0x83),
    (0b0010010_01_0_1_101_100000101_010000011, .rem 1 1 0x105 0x83),
    (0b0010010_01_0_1_110_100000101_010000011, .remn 1 1 0x105 0x83)] = true := by decide
theorem test_decode_bits : decodes [
    (0b0010011_01_00000_100000101_010000011, .clz 1 0x105 0x83),
    (0b0010011_01_00001_100000101_010000011, .ctz 1 0x105 0x83),
    (0b0010011_01_00010_100000101_010000011, .pop 1 0x105 0x83),
    (0b0010011_01_00011_100000101_010000011, .sext8 1 0x105 0x83),
    (0b0010011_01_00100_100000101_010000011, .sext16 1 0x105 0x83),
    (0b0010011_01_00101_100000101_010000011, .sext32 1 0x105 0x83),
    (0b0010011_01_00110_100000101_010000011, .zext8 1 0x105 0x83),
    (0b0010011_01_00111_100000101_010000011, .zext16 1 0x105 0x83),
    (0b0010011_01_01000_100000101_010000011, .zext32 1 0x105 0x83),
    (0b0010011_01_01001_100000101_010000011, .brev 1 0x105 0x83),
    (0b0010011_01_01010_100000101_010000011, .bswap 1 0x105 0x83)] = true := by decide
theorem test_decode_compare : decodes [
    (0b0010100_01_0_1_000_100000101_010000011, .teq 1 1 0x105 0x83),
    (0b0010100_01_0_1_001_100000101_010000011, .tne 1 1 0x105 0x83),
    (0b0010100_01_0_1_010_100000101_010000011, .tlt 1 1 0x105 0x83),
    (0b0010100_01_0_1_011_100000101_010000011, .tle 1 1 0x105 0x83),
    (0b0010100_01_0_1_100_100000101_010000011, .tltn 1 1 0x105 0x83),
    (0b0010100_01_0_1_101_100000101_010000011, .tlen 1 1 0x105 0x83),
    (0b0010100_01_00110_100000101_010000011, .tbit 1 0x105 0x83)] = true := by decide
theorem test_decode_masks : decodes [
    (0b0010101_01_00000_100000101_010000011, .pand 1 0x105 0x83),
    (0b0010101_01_00001_100000101_010000011, .por 1 0x105 0x83),
    (0b0010101_01_00010_100000101_010000011, .pxor 1 0x105 0x83),
    (0b0010101_01_00011_100000101_010000011, .pnot 1 0x105 0x83),
    (0b0010101_01_00100_100000101_010000011, .pany 1 0x105 0x83),
    (0b0010101_01_00101_100000101_010000011, .pall 1 0x105 0x83),
    (0b0010101_01_00110_100000101_010000011, .pcnt 1 0x105 0x83),
    (0b0010101_01_00111_100000101_010000011, .pfirst 1 0x105 0x83)] = true := by decide
theorem test_decode_immediates : decodes [
    (0b0011000_01_10101001010011_010000011, .addi 1 0x2a53 0x83),
    (0b0011001_01_10101001010011_010000011, .addiw 1 0x2a53 0x83),
    (0b0011010_01_10101001010011_010000011, .andi 1 0x2a53 0x83),
    (0b0011011_01_10101001010011_010000011, .ori 1 0x2a53 0x83),
    (0b0011100_01_10101001010011_010000011, .xori 1 0x2a53 0x83),
    (0b0011101_01_00000000100101_010000011, .shli 1 0x25 0x83),
    (0b0011110_01_00000000100101_010000011, .shri 1 0x25 0x83),
    (0b0011111_01_00000000100101_010000011, .srai 1 0x25 0x83),
    (0b0100000_01_10101001010011_010000011, .muli 1 0x2a53 0x83),
    (0b0100001_01_10101001010011_010000011, .teqi 1 0x2a53 0x83),
    (0b0100010_01_10101001010011_010000011, .tnei 1 0x2a53 0x83),
    (0b0100011_01_10101001010011_010000011, .tlti 1 0x2a53 0x83),
    (0b0100100_01_10101001010011_010000011, .tlei 1 0x2a53 0x83),
    (0b0100101_01_10101001010011_010000011, .tltni 1 0x2a53 0x83),
    (0b0100110_01_10101001010011_010000011, .movi 1 0x2a53 0x83),
    (0b0100111_01_10101001010011_010000011, .movif 1 0x2a53 0x83)] = true := by decide
theorem test_decode_capabilities : decodes [
    (0b0101000_01_00000_100000101_010000011, .cadd 1 0x105 0x83),
    (0b0101000_01_00001_100000101_010000011, .cseta 1 0x105 0x83),
    (0b0101000_01_00010_100000101_010000011, .csetb 1 0x105 0x83),
    (0b0101000_01_00011_100000101_010000011, .csetbx 1 0x105 0x83),
    (0b0101000_01_00100_100000101_010000011, .cperm 1 0x105 0x83),
    (0b0101000_01_00101_100000101_010000011, .cseal 1 0x105 0x83),
    (0b0101000_01_00110_100000101_010000011, .cunseal 1 0x105 0x83),
    (0b0101000_01_00111_100000101_010000011, .cgeta 1 0x105 0x83),
    (0b0101000_01_01000_100000101_010000011, .cgetb 1 0x105 0x83),
    (0b0101000_01_01001_100000101_010000011, .cgetl 1 0x105 0x83),
    (0b0101000_01_01010_100000101_010000011, .cgetp 1 0x105 0x83),
    (0b0101000_01_01011_100000101_010000011, .cgetk 1 0x105 0x83),
    (0b0101000_01_01100_100000101_010000011, .ctagt 1 0x105 0x83),
    (0b0101000_01_01101_100000101_010000011, .csub 1 0x105 0x83),
    (0b0101000_01_01110_100000101_010000011, .ceq 1 0x105 0x83),
    (0b0101000_01_01111_100000101_010000011, .cclr 1 0x105 0x83),
    (0b0101001_01_10101001010011_010000011, .caddi 1 0x2a53 0x83)] = true := by decide
theorem test_decode_local_loads : decodes [
    (0b0110000_01_10011_101010011_010000011, .ldI8 1 0x13 0x153 0x83),
    (0b0110001_01_10011_101010011_010000011, .ldN8 1 0x13 0x153 0x83),
    (0b0110010_01_10011_101010011_010000011, .ldI16 1 0x13 0x153 0x83),
    (0b0110011_01_10011_101010011_010000011, .ldN16 1 0x13 0x153 0x83),
    (0b0110100_01_10011_101010011_010000011, .ldI32 1 0x13 0x153 0x83),
    (0b0110101_01_10011_101010011_010000011, .ldN32 1 0x13 0x153 0x83),
    (0b0110110_01_10011_101010011_010000011, .ld64 1 0x13 0x153 0x83),
    (0b0110111_01_10011_101010011_010000011, .ldv 1 0x13 0x153 0x83),
    (0b0111000_01_10011_101010011_010000011, .ldc 1 0x13 0x153 0x83),
    (0b0111001_01_10011_101010011_010000011, .vgather 1 0x13 0x153 0x83)] = true := by decide
theorem test_decode_local_stores : decodes [
    (0b0111010_01_10011_101010010111000011, .st8 1 0x13 0x2a5c3),
    (0b0111011_01_10011_101010010111000011, .st16 1 0x13 0x2a5c3),
    (0b0111100_01_10011_101010010111000011, .st32 1 0x13 0x2a5c3),
    (0b0111101_01_10011_101010010111000011, .st64 1 0x13 0x2a5c3),
    (0b0111110_01_10011_101010010111000011, .stv 1 0x13 0x2a5c3),
    (0b0111111_01_10011_101010010111000011, .stc 1 0x13 0x2a5c3),
    (0b1000000_01_10011_101010010111000011, .vscatter 1 0x13 0x2a5c3)] = true := by decide
theorem test_decode_queued : decodes [
    (0b1000001_10_101001_00111_101001010011, .qld 2 0x29 7 0xa53),
    (0b1000010_10_00111_101010010111000011, .qst 2 7 0x2a5c3)] = true := by decide
theorem test_decode_atomics : decodes [
    (0b1000011_10_101001_00000_10_01_10_000000, .aad 2 0x29 2 1 2),
    (0b1000011_10_101001_000010_1_01_10_000000, .aswp 2 0x29 1 1 2),
    (0b1000011_10_101001_000100_1_01_10_000000, .acas 2 0x29 1 1 2),
    (0b1000011_10_101001_000110_1_01_10_000000, .amin 2 0x29 1 1 2),
    (0b1000011_10_101001_001000_1_01_10_000000, .amax 2 0x29 1 1 2),
    (0b1000011_10_101001_001010_1_01_10_000000, .aminn 2 0x29 1 1 2),
    (0b1000011_10_101001_001100_1_01_10_000000, .amaxn 2 0x29 1 1 2),
    (0b1000011_10_101001_001110_1_01_10_000000, .aand 2 0x29 1 1 2),
    (0b1000011_10_101001_010000_1_01_10_000000, .aor 2 0x29 1 1 2),
    (0b1000011_10_101001_010010_1_01_10_000000, .axor 2 0x29 1 1 2)] = true := by decide
theorem test_decode_fences : decodes [
    (0b1000100_10_010_01_111111111111111111, .fenceAcq 2 1),
    (0b1000100_10_100_01_111111111111111111, .fenceRel 2 1),
    (0b1000100_10_110_01_111111111111111111, .fenceFull 2 1)] = true := by decide
theorem test_decode_float : decodes [
    (0b101000_1_01_00000_100000101_010000011, .vadd 1 1 0x105 0x83),
    (0b101000_1_01_00001_100000101_010000011, .vsub 1 1 0x105 0x83),
    (0b101000_1_01_00010_100000101_010000011, .vmul 1 1 0x105 0x83),
    (0b101000_1_01_00011_100000101_010000011, .vdiv 1 1 0x105 0x83),
    (0b101000_1_01_00100_100000101_010000011, .vmin 1 1 0x105 0x83),
    (0b101000_1_01_00101_100000101_010000011, .vmax 1 1 0x105 0x83),
    (0b101000_1_01_00110_100000101_010000011, .vabs 1 1 0x105 0x83),
    (0b101000_1_01_00111_100000101_010000011, .vneg 1 1 0x105 0x83),
    (0b101000_1_01_01000_100000101_010000011, .vsqrt 1 1 0x105 0x83),
    (0b101000_1_01_01001_100000101_010000011, .vrcp 1 1 0x105 0x83),
    (0b101000_1_01_01010_100000101_010000011, .vrsq 1 1 0x105 0x83),
    (0b101000_1_01_01011_100000101_010000011, .vexp2 1 1 0x105 0x83),
    (0b101000_1_01_01100_100000101_010000011, .vlog2 1 1 0x105 0x83),
    (0b101000_1_01_01101_100000101_010000011, .vtanh 1 1 0x105 0x83),
    (0b101000_1_01_01110_100000101_010000011, .vsin 1 1 0x105 0x83),
    (0b101000_1_01_01111_100000101_010000011, .vcos 1 1 0x105 0x83),
    (0b101000_1_01_10000_100000101_010000011, .vfloor 1 1 0x105 0x83),
    (0b101000_1_01_10001_100000101_010000011, .vceil 1 1 0x105 0x83),
    (0b101000_1_01_10010_100000101_010000011, .vrint 1 1 0x105 0x83),
    (0b101000_1_01_10011_100000101_010000011, .vclass 1 1 0x105 0x83)] = true := by decide
theorem test_decode_half : decodes [
    (0b1010010_01_1_0000_100000101_010000011, .vaddF16 1 1 0x105 0x83),
    (0b1010010_01_1_0001_100000101_010000011, .vsubF16 1 1 0x105 0x83),
    (0b1010010_01_1_0010_100000101_010000011, .vmulF16 1 1 0x105 0x83),
    (0b1010010_01_1_0011_100000101_010000011, .vdivF16 1 1 0x105 0x83),
    (0b1010010_01_1_0100_100000101_010000011, .vminF16 1 1 0x105 0x83),
    (0b1010010_01_1_0101_100000101_010000011, .vmaxF16 1 1 0x105 0x83),
    (0b1010010_01_1_0110_100000101_010000011, .vabsF16 1 1 0x105 0x83),
    (0b1010010_01_1_0111_100000101_010000011, .vnegF16 1 1 0x105 0x83),
    (0b1010010_01_1_1000_100000101_010000011, .vsqrtF16 1 1 0x105 0x83),
    (0b1010010_01_1_1001_100000101_010000011, .vrcpF16 1 1 0x105 0x83),
    (0b1010010_01_1_1010_100000101_010000011, .vrsqF16 1 1 0x105 0x83),
    (0b1010010_01_1_1011_100000101_010000011, .vexp2F16 1 1 0x105 0x83),
    (0b1010010_01_1_1100_100000101_010000011, .vlog2F16 1 1 0x105 0x83),
    (0b1010010_01_1_1101_100000101_010000011, .vtanhF16 1 1 0x105 0x83),
    (0b1010010_01_1_1110_100000101_010000011, .vsinF16 1 1 0x105 0x83),
    (0b1010010_01_1_1111_100000101_010000011, .vcosF16 1 1 0x105 0x83)] = true := by decide
theorem test_decode_int32 : decodes [
    (0b1010011_01_1_0000_100000101_010000011, .vaddI32 1 1 0x105 0x83),
    (0b1010011_01_1_0001_100000101_010000011, .vsubI32 1 1 0x105 0x83),
    (0b1010011_01_1_0010_100000101_010000011, .vmulI32 1 1 0x105 0x83),
    (0b1010011_01_1_0011_100000101_010000011, .vmulhI32 1 1 0x105 0x83),
    (0b1010011_01_1_0100_100000101_010000011, .vminI32 1 1 0x105 0x83),
    (0b1010011_01_1_0101_100000101_010000011, .vmaxI32 1 1 0x105 0x83),
    (0b1010011_01_00110_100000101_010000011, .vabsI32 1 0x105 0x83),
    (0b1010011_01_00111_100000101_010000011, .vnegI32 1 0x105 0x83),
    (0b1010011_01_01000_100000101_010000011, .vandI32 1 0x105 0x83),
    (0b1010011_01_01001_100000101_010000011, .vorI32 1 0x105 0x83),
    (0b1010011_01_01010_100000101_010000011, .vxorI32 1 0x105 0x83),
    (0b1010011_01_1_1011_100000101_010000011, .vshlI32 1 1 0x105 0x83),
    (0b1010011_01_01100_100000101_010000011, .vshrI32 1 0x105 0x83),
    (0b1010011_01_01101_100000101_010000011, .vsraI32 1 0x105 0x83)] = true := by decide
theorem test_decode_int16 : decodes [
    (0b101010_1_01_1_0000_100000101_010000011, .vaddI16 1 1 1 0x105 0x83),
    (0b101010_1_01_1_0001_100000101_010000011, .vsubI16 1 1 1 0x105 0x83),
    (0b101010_1_01_1_0010_100000101_010000011, .vmulI16 1 1 1 0x105 0x83),
    (0b101010_1_01_1_0011_100000101_010000011, .vmulhI16 1 1 1 0x105 0x83),
    (0b101010_1_01_1_0100_100000101_010000011, .vminI16 1 1 1 0x105 0x83),
    (0b101010_1_01_1_0101_100000101_010000011, .vmaxI16 1 1 1 0x105 0x83),
    (0b101010_1_01_00110_100000101_010000011, .vabsI16 1 1 0x105 0x83),
    (0b101010_1_01_00111_100000101_010000011, .vnegI16 1 1 0x105 0x83),
    (0b101010_1_01_01000_100000101_010000011, .vandI16 1 1 0x105 0x83),
    (0b101010_1_01_01001_100000101_010000011, .vorI16 1 1 0x105 0x83),
    (0b101010_1_01_01010_100000101_010000011, .vxorI16 1 1 0x105 0x83),
    (0b101010_1_01_1_1011_100000101_010000011, .vshlI16 1 1 1 0x105 0x83),
    (0b101010_1_01_01100_100000101_010000011, .vshrI16 1 1 0x105 0x83),
    (0b101010_1_01_01101_100000101_010000011, .vsraI16 1 1 0x105 0x83)] = true := by decide
theorem test_decode_fma : decodes [
    (0b1010110_01_0_11_00_100000101_010000011, .vfma 1 3 0x105 0x83),
    (0b1010110_01_0_11_01_100000101_010000011, .vfms 1 3 0x105 0x83),
    (0b1010110_01_0_11_10_100000101_010000011, .vnfma 1 3 0x105 0x83),
    (0b1010110_01_0_11_11_100000101_010000011, .vnfms 1 3 0x105 0x83)] = true := by decide
theorem test_decode_vector_compare : decodes [
    (0b1010111_01_101_00_100000101_010000011, .vcmpEq 1 5 0x105 0x83),
    (0b1010111_01_101_01_100000101_010000011, .vcmpNe 1 5 0x105 0x83),
    (0b1010111_01_101_10_100000101_010000011, .vcmpLt 1 5 0x105 0x83),
    (0b1010111_01_101_11_100000101_010000011, .vcmpLe 1 5 0x105 0x83)] = true := by decide
theorem test_decode_convert : decodes [
    (0b1011000_01_00000_100000101_010000011, .vcvtF32F64 1 0x105 0x83),
    (0b1011000_01_00001_100000101_010000011, .vcvtF64F32 1 0x105 0x83),
    (0b1011000_01_00010_100000101_010000011, .vcvtF16F32 1 0x105 0x83),
    (0b1011000_01_00011_100000101_010000011, .vcvtF32F16 1 0x105 0x83),
    (0b1011000_01_00100_100000101_010000011, .vcvtBf16F32 1 0x105 0x83),
    (0b1011000_01_00101_100000101_010000011, .vcvtF32Bf16 1 0x105 0x83),
    (0b1011000_01_00110_100000101_010000011, .vcvtE4m3F32 1 0x105 0x83),
    (0b1011000_01_00111_100000101_010000011, .vcvtE5m2F32 1 0x105 0x83),
    (0b1011000_01_01000_100000101_010000011, .vcvtE4m3F32Nosat 1 0x105 0x83),
    (0b1011000_01_01001_100000101_010000011, .vcvtE5m2F32Nosat 1 0x105 0x83),
    (0b1011000_01_01010_100000101_010000011, .vcvtF32E4m3 1 0x105 0x83),
    (0b1011000_01_01011_100000101_010000011, .vcvtF32E5m2 1 0x105 0x83),
    (0b1011000_01_01100_100000101_010000011, .vcvtI32F32 1 0x105 0x83),
    (0b1011000_01_01101_100000101_010000011, .vcvtN32F32 1 0x105 0x83),
    (0b1011000_01_01110_100000101_010000011, .vcvtF32I32 1 0x105 0x83),
    (0b1011000_01_01111_100000101_010000011, .vcvtF32N32 1 0x105 0x83),
    (0b1011000_01_10000_100000101_010000011, .vcvtI64F64 1 0x105 0x83),
    (0b1011000_01_10001_100000101_010000011, .vcvtN64F64 1 0x105 0x83),
    (0b1011000_01_10010_100000101_010000011, .vcvtF64I64 1 0x105 0x83),
    (0b1011000_01_10011_100000101_010000011, .vcvtF64N64 1 0x105 0x83),
    (0b1011000_01_10100_100000101_010000011, .vcvtI16I32 1 0x105 0x83),
    (0b1011000_01_10101_100000101_010000011, .vcvtI8I32 1 0x105 0x83),
    (0b1011000_01_10110_100000101_010000011, .vcvtI32I16 1 0x105 0x83),
    (0b1011000_01_10111_100000101_010000011, .vcvtI32I8 1 0x105 0x83)] = true := by decide
theorem test_decode_permute : decodes [
    (0b1011001_01_1_0000_100000101_010000011, .vshuf 1 1 0x105 0x83),
    (0b1011001_01_1_0001_100000101_010000011, .vbcast 1 1 0x105 0x83),
    (0b1011001_01_1_0010_100000101_010000011, .vrot 1 1 0x105 0x83),
    (0b1011001_01_1_0011_100000101_010000011, .viota 1 1 0x105 0x83),
    (0b1011001_01_1_0100_100000101_010000011, .vcomp 1 1 0x105 0x83),
    (0b1011001_01_1_0101_100000101_010000011, .vexpand 1 1 0x105 0x83),
    (0b1011001_01_1_0110_100000101_010000011, .vzip 1 1 0x105 0x83),
    (0b1011001_01_1_0111_100000101_010000011, .vunzip 1 1 0x105 0x83),
    (0b1011001_01_1_1000_100000101_010000011, .vnz 1 1 0x105 0x83),
    (0b1011001_01_1_1001_100000101_010000011, .vnzi 1 1 0x105 0x83),
    (0b1011001_01_1_1010_100000101_010000011, .vins 1 1 0x105 0x83),
    (0b1011001_01_1_1011_100000101_010000011, .vext 1 1 0x105 0x83)] = true := by decide
theorem test_decode_reduce : decodes [
    (0b1011010_01_11_000_100000101_010000011, .vredAdd 1 3 0x105 0x83),
    (0b1011010_01_11_001_100000101_010000011, .vredMax 1 3 0x105 0x83),
    (0b1011010_01_11_010_100000101_010000011, .vredMin 1 3 0x105 0x83),
    (0b1011010_01_11_011_100000101_010000011, .vredMaxn 1 3 0x105 0x83),
    (0b1011010_01_11_100_100000101_010000011, .vredMinn 1 3 0x105 0x83),
    (0b1011010_01_11_101_100000101_010000011, .vredAnd 1 3 0x105 0x83),
    (0b1011010_01_11_110_100000101_010000011, .vredOr 1 3 0x105 0x83),
    (0b1011010_01_11_111_100000101_010000011, .vredXor 1 3 0x105 0x83)] = true := by decide
theorem test_decode_select_and_blocks : decodes [
    (0b1011011_01_00000_100000101_010000011, .vsel 1 0x105 0x83),
    (0b1011100_01_00000_100000101_010000011, .vqhdr 1 0x105 0x83),
    (0b1011100_01_00001_100000101_010000011, .vqpk 1 0x105 0x83),
    (0b1011100_01_00010_100000101_010000011, .vdq 1 0x105 0x83),
    (0b1011100_01_00011_100000101_010000011, .vbaq 1 0x105 0x83),
    (0b1011100_01_00100_100000101_010000011, .vbmax 1 0x105 0x83),
    (0b1011100_01_00101_100000101_010000011, .vbfmt 1 0x105 0x83),
    (0b1011101_01_00000_100000101_010000011, .osmStep 1 0x105 0x83),
    (0b1011101_01_00001_100000101_010000011, .osmNorm 1 0x105 0x83)] = true := by decide
theorem test_decode_counters : decodes [
    (0b1110000_10_00000_100000101_010000011, .ctrNew 2 0x105 0x83),
    (0b1110000_10_00001111111111111111111, .ctrDec 2),
    (0b1110000_10_00010111111111111111111, .ctrBind 2),
    (0b1110000_10_00011111111111111111111, .ctrSplit 2),
    (0b1110000_10_00100_100000101_010000011, .ctrStat 2 0x105 0x83),
    (0b1110000_10_00101111111111111111111, .rarm 2)] = true := by decide
theorem test_decode_claims : decodes [
    (0b1110001_10_00000_100000101_010000011, .invoke 2 0x105 0x83),
    (0b1110001_10_00001_100000101_010000011, .invokec 2 0x105 0x83),
    (0b1110010_10_00000111111111111111111, .fulfil 2),
    (0b1110010_10_00001111111111111111111, .brk 2),
    (0b1110011_10_101001_00000000000000000, .wait 2 0x29),
    (0b1110011_10_101001_00001000000000000, .waitSt 2 0x29)] = true := by decide
theorem test_decode_queues : decodes [
    (0b1110100_10_00000_100000101_010000011, .send 2 0x105 0x83),
    (0b1110101_10_101001_00000000000000000, .sendw 2 0x29),
    (0b1110110_10_00000_100000101_010000011, .qnew 2 0x105 0x83),
    (0b1110110_10_00001111111111111111111, .qbind 2),
    (0b1110110_10_00010111111111111111111, .qunbind 2)] = true := by decide
theorem test_decode_starts : decodes [
    (0b1110111_10_00000111111111111111111, .spawn 2),
    (0b1111000_10_00000_100000101_010000011, .launch 2 0x105 0x83)] = true := by decide
theorem test_decode_engines : decodes [
    (0b1111001_10_00000111111111111111111, .cpy 2),
    (0b1111010_10_00000111111111111111111, .tile 2),
    (0b1111011_10_00000111111111111111111, .feedA 2),
    (0b1111011_10_00001111111111111111111, .feedB 2),
    (0b1111100_10_00000111111111111111111, .mma 2),
    (0b1111100_10_00001111111111111111111, .mzero 2),
    (0b1111100_10_00010_100000101_010000011, .mstat 2 0x105 0x83)] = true := by decide
theorem test_decode_system : decodes [
    (0b1111101_10_00000111111111111111111, .trap 2),
    (0b1111101_10_00001111111111111111111, .isync 2),
    (0b1111101_10_00010_100000101_010000011, .sysRd 2 0x105 0x83),
    (0b1111101_10_00011111111111111111111, .sysWr 2),
    (0b1111101_10_00100_100000101_010000011, .cusTake 2 0x105 0x83),
    (0b1111101_10_00101111111111111111111, .cusResume 2),
    (0b1111101_10_00110111111111111111111, .cusGive 2),
    (0b1111101_10_00111111111111111111111, .cusBreak 2),
    (0b1111101_10_01000111111111111111111, .stnMap 2),
    (0b1111101_10_01001111111111111111111, .stnInv 2),
    (0b1111101_10_01010111111111111111111, .stnReplay 2),
    (0b1111101_10_01011111111111111111111, .lodgeNew 2),
    (0b1111101_10_01100111111111111111111, .lodgeEnd 2),
    (0b1111101_10_01101111111111111111111, .migrate 2),
    (0b1111101_10_01110111111111111111111, .shadowSave 2),
    (0b1111101_10_01111111111111111111111, .shadowLoad 2),
    (0b1111101_10_10000111111111111111111, .testRun 2),
    (0b1111101_10_10001111111111111111111, .statSum 2),
    (0b1111101_10_10010111111111111111111, .engineCancel 2)] = true := by decide

/-! ## A small machine -/

/-- Lodging 0 with routers 0, 1 and 4096 as its cores 0, 1 and 2; core 2 is a steward core that serves it. -/
def machine : State :=
  let s := State.reset.updLodging 0 fun l => { l with live := true, map := [0, 1, 4096] }
  ((s.updCore 0 fun c => { c with logical := 1 }).updCore 1 fun c => { c with logical := 2 }).updCore 4096 fun c => { c with logical := 3 }
/-- An admitted block of the words `ws` in slot 0 of core `c`, the operands of its instruction 0 arrived. -/
def ready (c : Nat) (ws : List W32) (l r x p : Value) : State :=
  { machine.updSlot c 0 (fun y => { y with
      live := true, rect := { x := 0, y := 0, w := 2, h := 1, cores := [0, 1] }
      blk := { (default : Blk) with phase := 2, words := ws, slots := [(0, some l), (1, some r), (2, some x), (3, some p)] } }) with
    here := (c, 0, 0) }
/-- A DATA value with every lane valid, and one with the lanes of a mask. -/
def num (n : Nat) : Value := { bits := BitVec.ofNat 512 n, valid := 0xFFFF, tag := .data, null := false }
def lanes (m : BitVec 16) (n : Nat) : Value := { num n with valid := m }
def brokenValue : Value := { num 5 with tag := .broken }
/-- A capability: kind, permissions, base of exponent `e` in units, length in units, address (R37, R39). -/
def capability (kind : BitVec 4) (perms : BitVec 12) (space : BitVec 16) (e : BitVec 6) (base length : BitVec 13) (a : Word) : Value :=
  { bits := (kind ++ perms ++ space ++ e ++ base ++ length ++ a).setWidth 512, valid := 0xFFFF, tag := .cap, null := false }
/-- The values of 32-bit lanes, lane 0 first. -/
def vec (xs : List Nat) : Value := num (xs.foldr (fun x n => x + n * 2 ^ 32) 0)

/-- The value that instruction `i` sends to slot L of instruction 1, its trap code, and the count of an event in its block. -/
noncomputable def sent (i : Instr) (s : State) : Option Value :=
  match exec i s with | .next t => mapGet (t.slot s.here.1 0).blk.slots 4 | _ => none
noncomputable def answer (i : Instr) (l r x : Value) : Option Value := sent i (ready 0 [0, 0] l r x (num 0))
noncomputable def answered (i : Instr) (l r x : Value) : Nat := ((answer i l r x).map fun v => v.bits.toNat).getD (2 ^ 512)
noncomputable def code (i : Instr) (s : State) : Nat :=
  match exec i s with | .next t => (t.slot s.here.1 0).custody.record.code.toNat | _ => 256
noncomputable def eventsOf (i : Instr) (l r x : Value) : List Nat :=
  match exec i (ready 0 [0, 0] l r x (num 0)) with | .next t => mapKeys (t.slot 0 0).blk.evs | _ => []

/-! ## Single steps, by hand from the rules -/

/-- R135: a 64-bit sum wraps; a 32-bit one is sign-extended. -/
theorem test_add : answered (.add 0 0 0x1FF 1) (num (2 ^ 64 - 1)) (num 2) (num 0) = 1 ∧
    answered (.add 1 0 0x1FF 1) (num 0x7FFFFFFF) (num 1) (num 0) = 0xFFFFFFFF80000000 := by decide +kernel
/-- R135: L minus R, not the other way round. -/
theorem test_sub : answered (.sub 0 0 0x1FF 1) (num 3) (num 5) (num 0) = 2 ^ 64 - 2 := by decide +kernel
/-- R134: ANDN clears the bits of R; a shift takes its count modulo the width. -/
theorem test_andn_shifts : answered (.andn 0 0 0x1FF 1) (num 0xFF) (num 0x0F) (num 0) = 0xF0 ∧
    answered (.shl 0 0 0x1FF 1) (num 3) (num 65) (num 0) = 6 ∧ answered (.sra 0 0 0x1FF 1) (num (2 ^ 63)) (num 63) (num 0) = 2 ^ 64 - 1 ∧
    answered (.rol 1 0 0x1FF 1) (num 0x40000001) (num 1) (num 0) = 0xFFFFFFFF80000002 := by decide +kernel
/-- R136: division by zero answers all ones with event 1; the smallest number divided by -1 stays. -/
theorem test_div : answered (.div 0 0 0x1FF 1) (num 7) (num 0) (num 0) = 2 ^ 64 - 1 ∧
    eventsOf (.div 0 0 0x1FF 1) (num 7) (num 0) (num 0) = [1] ∧
    answered (.div 0 0 0x1FF 1) (num (2 ^ 63)) (num (2 ^ 64 - 1)) (num 0) = 2 ^ 63 ∧
    answered (.div 0 0 0x1FF 1) (num (2 ^ 64 - 7)) (num 2) (num 0) = 2 ^ 64 - 3 := by decide +kernel
theorem test_rem : answered (.rem 0 0 0x1FF 1) (num (2 ^ 64 - 7)) (num 2) (num 0) = 2 ^ 64 - 1 ∧
    answered (.remn 0 0 0x1FF 1) (num 7) (num 0) (num 0) = 7 := by decide +kernel
/-- R137. -/
theorem test_bits : answered (.clz 0 0x1FF 1) (num 1) (num 0) (num 0) = 63 ∧ answered (.ctz 0 0x1FF 1) (num 0) (num 0) (num 0) = 64 ∧
    answered (.brev 0 0x1FF 1) (num 1) (num 0) (num 0) = 2 ^ 63 ∧
    answered (.bswap 0 0x1FF 1) (num 0x0102030405060708) (num 0) (num 0) = 0x0807060504030201 ∧
    answered (.sext8 0 0x1FF 1) (num 0x80) (num 0) (num 0) = 0xFFFFFFFFFFFFFF80 := by decide +kernel
/-- R138: a signed and a natural compare of the same words differ. -/
theorem test_compare : answered (.tlt 0 0 0x1FF 1) (num (2 ^ 64 - 1)) (num 0) (num 0) = 1 ∧
    answered (.tltn 0 0 0x1FF 1) (num (2 ^ 64 - 1)) (num 0) (num 0) = 0 ∧ answered (.tbit 0 0x1FF 1) (num 4) (num 66) (num 0) = 1 := by
  decide +kernel
/-- R139. -/
theorem test_masks : answered (.pnot 0 0x1FF 1) (num 0x1FFFF) (num 0) (num 0) = 0 ∧
    answered (.pfirst 0 0x1FF 1) (num 0x10000) (num 0) (num 0) = 16 := by decide +kernel
/-- R140, R141: ADDI's immediate is signed, ANDI's is not; MOVIF's stands at bits 31 to 18. -/
theorem test_immediates : answered (.addi 0 0x3FFF 1) (num 1) (num 0) (num 0) = 0 ∧
    answered (.andi 0 0x3FFF 1) (num (2 ^ 64 - 1)) (num 0) (num 0) = 0x3FFF ∧
    answered (.movif 0 0x0FE0 1) (num 0) (num 0) (num 0) = 0x3F800000 := by decide +kernel
/-- R63: a wide EXT in front gives the high bits of the immediate. -/
theorem test_wide : ((sent (.movi 0 1 1)
    (({ ready 0 [0x02000001, 0] (num 0) (num 0) (num 0) (num 0) with here := (0, 0, 1) } : State).updBlk 0 0 fun b =>
      { b with slots := [] })).map fun v => v.bits.toNat) = some 0x4001 := by decide +kernel
/-- R32, R117: an operand with lane 1 null gives a result that is null in lanes 0 and 1, and no event. -/
theorem test_null_lane : (answer (.add 0 0 0x1FF 1) (lanes 1 5) (num 1) (num 0)).map (·.valid) = some 0xFFFC ∧
    (answer (.add 0 0 0x1FF 1) brokenValue (num 1) (num 0)).map (·.tag) = some .broken := by decide +kernel
/-- R40, R41, R143: CADD moves the address within the region, and clears the tag outside it. -/
theorem test_cadd : (answer (.cadd 0 0x1FF 1) (capability 1 0xC00 0 0 0 0x100 0x1000) (num 0xFFF) (num 0)).map (·.tag) = some .cap ∧
    (answer (.cadd 0 0x1FF 1) (capability 1 0xC00 0 0 0 0x100 0x1000) (num 0x1000) (num 0)).map (·.tag) = some .data := by decide +kernel
/-- R39, R143: base and length with exponent 4. -/
theorem test_cgetb : answered (.cgetb 0 0x1FF 1) (capability 1 0xC00 0 4 2 3 0x20010) (num 0) (num 0) = 0x20020 ∧
    answered (.cgetl 0 0x1FF 1) (capability 1 0xC00 0 4 2 3 0x20010) (num 0) (num 0) = 48 := by decide +kernel
/-- R142: a DATA value where a capability is required faults TAG. -/
theorem test_cap_tag : code (.cadd 0 0x1FF 1) (ready 0 [0, 0] (num 1) (num 1) (num 0) (num 0)) = 7 := by decide +kernel
/-- R163, R185: 1.0 + 1.0 = 2.0; (1 + 2^-23) + 2^-24 is a tie that goes to the even neighbour. -/
theorem test_vadd : answered (.vadd 0 0 0x1FF 1) (vec [0x3F800000, 0x3F800001]) (vec [0x3F800000, 0x33800000]) (num 0) =
    0x40000000 + 0x3F800002 * 2 ^ 32 := by decide +kernel
/-- R185: 1/0 is infinity with event 1; the square root of -1 is the default NaN with event 0. -/
theorem test_vdiv : answered (.vdiv 0 0 0x1FF 1) (vec [0x3F800000]) (vec (List.replicate 16 0 |>.mapIdx fun i _ => if i = 0 then 0 else 0x3F800000)) (num 0) =
      0x7F800000 ∧
    eventsOf (.vsqrt 0 0 0x1FF 1) (vec [0xBF800000]) (num 0) (num 0) = [0] := by decide +kernel
/-- R188: FMA rounds once: (1 + 2^-23)^2 - (1 + 2^-22) = 2^-46. -/
theorem test_vfma : answered (.vfma 0 0 0x1FF 1) (vec [0x3F800001]) (vec [0x3F800001]) (vec [0xBF800002]) = 0x28800000 := by decide +kernel
/-- R187: 8-bit elements do not carry into their neighbours. -/
theorem test_vadd_i8 : answered (.vaddI16 1 0 0 0x1FF 1) (num 0xFF) (num 1) (num 0) = 0 := by decide +kernel
/-- R189: bit k of a compare's mask is element k; NaN is unequal to itself. -/
theorem test_vcmp : answered (.vcmpNe 0 0 0x1FF 1) (vec [0, 0x7FC00000, 1]) (vec [0, 0x7FC00000, 1]) (num 0) = 2 := by decide +kernel
/-- R191: f32 into f16, from position 0 on, the rest zero; -1.5 rounds to the even -2. -/
theorem test_vcvt : answered (.vcvtF16F32 0 0x1FF 1) (vec [0x3F800000, 0x40000000]) (num 0) (num 0) = 0x40003C00 ∧
    answered (.vcvtI32F32 0 0x1FF 1) (vec [0xBFC00000]) (num 0) (num 0) = 0xFFFFFFFE := by decide +kernel
/-- R192: VROT takes element i from element i + R; VCOMP packs the elements of the mask. -/
theorem test_permutes : answered (.vrot 0 0 0x1FF 1) (vec [1, 2, 3]) (num 15) (num 0) = 1 * 2 ^ 32 + 2 * 2 ^ 64 + 3 * 2 ^ 96 ∧
    answered (.vcomp 0 0 0x1FF 1) (vec [1, 2, 3]) (num 5) (num 0) = 1 + 3 * 2 ^ 32 := by decide +kernel
/-- R194: a 32-bit integer sum is sign-extended. -/
theorem test_vred : answered (.vredAdd 0 2 0x1FF 1) (vec [0x7FFFFFFF, 1]) (num 0) (num 0) = 0xFFFFFFFF80000000 := by decide +kernel
/-- R57: a condition that does not hold marks the instruction and sends nothing. -/
theorem test_predicated_off : sent (.mov 2 0x1FF 1) (ready 0 [0, 0] (num 1) (num 0) (num 0) (num 0)) = none := by decide +kernel
/-- R121: PORT.trap on an empty queue faults EMPTY_READ. -/
theorem test_port_empty : code (.port 0 2 0x1FF 1) (ready 0 [0, 0] (num 0) (num 0) (num 0) (num 0)) = 5 := by decide +kernel
/-- R152: a store's bytes wait for the commit; R23: the W store is read only (STORE_CLASS). -/
theorem test_stores : (match exec (.st16 0 0 0) (ready 0 [0, 0] (capability 5 0xC00 0 0 0 0x100 0x10) (num 0x1234) (num 0) (num 0)) with
      | .next t => (mapGet (t.slot 0 0).blk.lsids' 0).bytes
      | _ => []) = [(16, 0x34), (17, 0x12)] ∧
    code (.st16 0 0 0) (ready 0 [0, 0] (capability 2 0xC00 0 0 0 0x100 0x10) (num 0x1234) (num 0) (num 0)) = 10 := by decide +kernel
/-- R303: SYS.RD of the core's number, and an unknown word. -/
theorem test_sysRd : (sent (.sysRd 0 0x1FF 1) (ready 4096 [0, 0] (num 1) (num 0) (num 0) (num 0))).map (·.bits) = some 2 ∧
    code (.sysRd 0 0x1FF 1) (ready 0 [0, 0] (num 0x31) (num 0) (num 0) (num 0)) = 0x18 ∧
    code (.sysRd 0 0x1FF 1) (ready 0 [0, 0] (num 0x40) (num 0) (num 0) (num 0)) = 9 := by decide +kernel
/-- Log 2: the next step fires a word placed by `withFetchWord`: MOVI 5 with no target is marked as fired. -/
theorem test_withFetchWord : (match step (State.reset.withFetchWord 32 0x4C000BFF) with
      | .next t => mapGet (t.slot 0 0).blk.fired 0
      | _ => 0) = 1 := by decide +kernel

/-! ## What the statements assume can be met -/

theorem ready_mayFire (w : W32) (ws : List W32) (l r x p : Value) : MayFire (ready 0 (w :: ws) l r x p) :=
  ⟨rfl, rfl, rfl, Nat.succ_pos _, rfl⟩
theorem steward_mayFire (w : W32) (ws : List W32) (l r x p : Value) : MayFire (ready 4096 (w :: ws) l r x p) :=
  ⟨rfl, rfl, rfl, Nat.succ_pos _, rfl⟩
theorem ready_l {ws : List W32} {l r x p : Value} (h : l.null = false) : Given (ready 0 ws l r x p) 0 l := ⟨rfl, h⟩
theorem ready_r {ws : List W32} {l r x p : Value} (h : r.null = false) : Given (ready 0 ws l r x p) 1 r := ⟨rfl, h⟩
theorem ready_x {ws : List W32} {l r x p : Value} (h : x.null = false) : Given (ready 0 ws l r x p) 2 x := ⟨rfl, h⟩
theorem ready_p {ws : List W32} {l r x p : Value} (h : p.null = false) : Given (ready 0 ws l r x p) 3 p := ⟨rfl, h⟩
theorem steward_l {ws : List W32} {l r x p : Value} (h : l.null = false) : Given (ready 4096 ws l r x p) 0 l := ⟨rfl, h⟩
theorem steward_r {ws : List W32} {l r x p : Value} (h : r.null = false) : Given (ready 4096 ws l r x p) 1 r := ⟨rfl, h⟩
theorem steward_x {ws : List W32} {l r x p : Value} (h : x.null = false) : Given (ready 4096 ws l r x p) 2 x := ⟨rfl, h⟩

/-- Three operands and no predicate. -/
def three (l r x : Value) : State := ready 0 [0, 0] l r x (num 0)

/-- The five ways in which a predicate lets an instruction run (R56, R57). -/
theorem witness_predicates :
    Runs (three (num 0) (num 0) (num 0)) 0 0xFFFF ∧
    Runs (ready 0 [0] (num 0) (num 0) (num 0) (lanes 0x8001 0x8003)) 1 (bitsAt (lanes 0x8001 0x8003).bits 0 16 &&& 0x8001) ∧
    Runs (ready 0 [0] (num 0) (num 0) (num 0) (lanes 0xFFFE 3)) 1 0 ∧
    Runs (ready 0 [0] (num 0) (num 0) (num 0) (num 1)) 2 0xFFFF ∧ Runs (ready 0 [0] (num 0) (num 0) (num 0) (num 0)) 3 0xFFFF :=
  ⟨.always, .masked _ (ready_p rfl) rfl (by decide), .maskNull _ (ready_p rfl) rfl (by decide),
    .onTrue _ (ready_p rfl) rfl (by decide) (by decide +kernel), .onFalse _ (ready_p rfl) rfl (by decide) (by decide +kernel)⟩

/-- A 64-bit operand at its top, with a masked predicate that leaves lanes 0 and 1. -/
theorem witness_ScalarArithmeticResults : let s := ready 0 [0] (num (2 ^ 64 - 1)) (num 1) (num 0) (num 3)
    MayFire s ∧ Runs s 1 (bitsAt (num 3).bits 0 16 &&& 0xFFFF) ∧ Given s 0 (num (2 ^ 64 - 1)) ∧ Given s 1 (num 1) :=
  ⟨ready_mayFire .., .masked _ (ready_p rfl) rfl (by decide), ready_l rfl, ready_r rfl⟩
/-- The divisor 0, and the one overflow. -/
theorem witness_MultiplyDivideResults :
    (MayFire (three (num 7) (num 0) (num 0)) ∧ Runs (three (num 7) (num 0) (num 0)) 0 0xFFFF ∧ Given (three (num 7) (num 0) (num 0)) 0 (num 7) ∧
      Given (three (num 7) (num 0) (num 0)) 1 (num 0)) ∧
    Given (three (num (2 ^ 63)) (num (2 ^ 64 - 1)) (num 0)) 1 (num (2 ^ 64 - 1)) :=
  ⟨⟨ready_mayFire .., .always, ready_l rfl, ready_r rfl⟩, ready_r rfl⟩
theorem witness_BitInstructionResults : MayFire (three (num 0) (num 0) (num 0)) ∧ Runs (three (num 0) (num 0) (num 0)) 0 0xFFFF ∧
    Given (three (num 0) (num 0) (num 0)) 0 (num 0) := ⟨ready_mayFire .., .always, ready_l rfl⟩
theorem witness_CompareResults : MayFire (three (num 4) (num 66) (num 0)) ∧ Runs (three (num 4) (num 66) (num 0)) 0 0xFFFF ∧
    Given (three (num 4) (num 66) (num 0)) 0 (num 4) ∧ Given (three (num 4) (num 66) (num 0)) 1 (num 66) :=
  ⟨ready_mayFire .., .always, ready_l rfl, ready_r rfl⟩
theorem witness_PredicateMaskResults : let s := three (num 1) (num 2) (num (2 ^ 32))
    MayFire s ∧ Runs s 0 0xFFFF ∧ Given s 0 (num 1) ∧ Given s 1 (num 2) ∧ Given s 2 (num (2 ^ 32)) :=
  ⟨ready_mayFire .., .always, ready_l rfl, ready_r rfl, ready_x rfl⟩
/-- Behind a wide EXT: the instruction at index 1, with the payload that it gives. -/
def wideState : State := (({ ready 0 [0x02000001, 0] (num 0) (num 0) (num 0) (num 0) with here := (0, 0, 1) } : State).updBlk 0 0 fun b =>
  { b with slots := [(4, some (num 9))] })
theorem witness_ImmediateResults : (MayFire (three (num 1) (num 0) (num 0)) ∧ Runs (three (num 1) (num 0) (num 0)) 0 0xFFFF ∧
      Given (three (num 1) (num 0) (num 0)) 0 (num 1) ∧ widePayload (three (num 1) (num 0) (num 0)) = none) ∧
    MayFire wideState ∧ Runs wideState 0 0xFFFF ∧ Given wideState 0 (num 9) ∧ widePayload wideState = some 1 :=
  ⟨⟨ready_mayFire .., .always, ready_l rfl, by decide⟩, ⟨rfl, rfl, rfl, by decide, rfl⟩, .always, ⟨rfl, rfl⟩, by decide +kernel⟩

/-- Register 63 without an error; port 1, which leads to core 1, with a word and without; port 3, which leads nowhere; an inbox with a message. -/
def withPort (ws : List (V512 × Word)) : State :=
  (three (num 0) (num 0) (num 0)).updCore 0 fun c => { c with ports := mapSet c.ports 1 { words := ws, coming := [] } }
def withInbox : State := (three (num 0) (num 0) (num 0)).putS 0 0xF000 8 (qWord 1 6 false 0 1)
theorem witness_RegisterAndPortReads : MayFire (three (num 0) (num 0) (num 0)) ∧
    ((mapGet (blkOf (three (num 0) (num 0) (num 0))).regs 63).poison = 0 ∧ (mapGet (blkOf (three (num 0) (num 0) (num 0))).regs 63).corr = 0) ∧
    (MayFire (withPort [(7, 1)]) ∧ ((withPort [(7, 1)]).portTo 0 1).isSome = true ∧
      (mapGet ((withPort [(7, 1)]).core 0).ports 1).words = (7, 1) :: []) ∧
    (MayFire withInbox ∧ 0 < qCount (numBytes (withInbox.core 0).s.bytes 0xF000 8) ∧ (withInbox.core 0).s.poison = []) ∧
    (mapGet ((withPort []).core 0).ports 1).words = [] ∧ (three (num 0) (num 0) (num 0)).portTo 0 3 = none ∧
    qCount (numBytes ((three (num 0) (num 0) (num 0)).core 0).s.bytes 0xF000 8) = 0 :=
  ⟨ready_mayFire .., by decide, ⟨⟨rfl, rfl, rfl, by decide, rfl⟩, by decide +kernel, by decide +kernel⟩,
    ⟨⟨rfl, rfl, rfl, by decide, rfl⟩, by decide +kernel, by decide +kernel⟩, by decide +kernel, by decide +kernel, by decide +kernel⟩
theorem witness_MovesAndWrites : let s := three (capability 1 0xC00 0 0 0 1 0) (num 0) (num 0)
    MayFire s ∧ Runs s 0 0xFFFF ∧ Given s 0 (capability 1 0xC00 0 0 0 1 0) ∧ capOk (lanesOf 0xFFFF (capability 1 0xC00 0 0 0 1 0)) = true ∧
    mapGet (blkOf s).regDone 63 = .no ∧ s.portTo 0 1 = some 1 ∧ (num 0).tag ≠ .broken :=
  ⟨ready_mayFire .., .always, ready_l rfl, by decide +kernel, rfl, by decide +kernel, by decide⟩
/-- A sealed entry (kind 12) with invoke permission. -/
def entry : Value := capability 12 0x040 0 0 0 0 0x1000
theorem entry_capability {s : State} {q : Nat} (h : Given s q entry) : Capability s q 12 [118] entry :=
  ⟨h, by decide +kernel, rfl, by decide +kernel, by decide +kernel⟩
theorem number_of {s : State} {q n : Nat} (h : Given s q (num n)) : Number s q (num n) :=
  ⟨h, by show (bitAt 0xFFFF#16 0 && bitAt 0xFFFF#16 1) = true; decide, fun h => by cases h⟩
theorem witness_ExitsFire : let s := three entry (num 0) (num (2 ^ 64 - 1))
    MayFire s ∧ Runs s 0 0xFFFF ∧ (blkOf s).exits = [] ∧ mapGet (blkOf s).regDone 0 = .no ∧ TargetOperand s entry ∧ Capability s 0 12 [118] entry ∧
    Number s 1 (num 0) ∧ Number s 2 (num (2 ^ 64 - 1)) ∧ TargetOperand (three (num 64) (num 0) (num 0)) (num 64) ∧
    Number (three (num 64) (num 0) (num 0)) 0 (num 64) :=
  ⟨ready_mayFire .., .always, rfl, rfl, ⟨ready_l rfl, by decide, fun _ => by decide⟩, entry_capability (ready_l rfl), number_of (ready_r rfl),
    number_of (ready_x rfl), ⟨ready_l rfl, by decide, fun h => by cases h⟩, number_of (ready_l rfl)⟩
/-- A block with an exit and with register 5 done. -/
def exited : State := (three (num 1) (num 0) (num 0)).updBlk 0 0 fun b => { b with exits := [(1, .exit)], regDone := [(5, .null)] }
theorem witness_WriteExitAndPredicateFaults_writes :
    (let v := { capability 1 0xC00 0 0 0 1 0 with valid := 7 }
     let s := three v (num 0) (num 0)
     MayFire s ∧ Runs s 0 0xFFFF ∧ Given s 0 v ∧ v.tag = .cap ∧ capOk (lanesOf 0xFFFF v) = false) ∧
    (MayFire exited ∧ Runs exited 0 0xFFFF ∧ Given exited 0 (num 1) ∧ mapGet (blkOf exited).regDone 5 ≠ .no ∧ (blkOf exited).exits ≠ [] ∧
      TargetOperand exited (num 1)) ∧
    Given (three brokenValue (num 0) (num 0)) 0 brokenValue ∧ (three (num 1) (num 0) (num 0)).portTo 0 0 = none :=
  ⟨⟨ready_mayFire .., .always, ready_l rfl, rfl, by decide⟩,
    ⟨⟨rfl, rfl, rfl, by decide, rfl⟩, .always, ⟨rfl, rfl⟩, by decide, by decide, ⟨⟨rfl, rfl⟩, by decide, fun h => by cases h⟩⟩,
    ready_l rfl, by decide +kernel⟩

/-- HANDOFF as a second exit. -/
theorem witness_WriteExitAndPredicateFaults_handoff : let s := (three entry (num 0) (num 7)).updBlk 0 0 fun b => { b with exits := [(1, .exit)] }
    MayFire s ∧ Runs s 0 0xFFFF ∧ (blkOf s).exits ≠ [] ∧ Capability s 0 12 [118] entry ∧ Number s 1 (num 0) ∧ Number s 2 (num 7) :=
  ⟨⟨rfl, rfl, rfl, by decide, rfl⟩, .always, by decide, entry_capability ⟨rfl, rfl⟩, number_of ⟨rfl, rfl⟩, number_of ⟨rfl, rfl⟩⟩
/-- MOV under condition "true" (mode 10) with the predicate `p`, and ADD under mode 10. -/
def conditional (p : Value) : State := ready 0 [0x0F000000] (num 1) (num 0) (num 0) p
theorem conditional_arrived (p : Value) : Arrived (conditional p) .mov 0x0F000000 :=
  ⟨rfl, fun q h => by (have h' : q < 1 := h); interval_cases q; rfl, .inr rfl, fun h => by cases h⟩
theorem witness_WriteExitAndPredicateFaults_predicates : (MayFire (conditional entry) ∧ Arrived (conditional entry) .mov 0x0F000000 ∧
      predOf .mov 0x0F000000 ≠ 0 ∧ Given (conditional entry) 3 entry ∧ entry.tag = .cap) ∧
    Given (conditional brokenValue) 3 brokenValue ∧ brokenValue.tag = .broken :=
  ⟨⟨ready_mayFire .., conditional_arrived _, by decide, ready_p rfl, rfl⟩, ready_p rfl, rfl⟩
theorem witness_NothingFiresWithoutCause : MayFire (conditional (num 0)) ∧ Arrived (conditional (num 0)) .mov 0x0F000000 ∧
    plainRow .mov = true ∧ 2 ≤ predOf .mov 0x0F000000 ∧ Given (conditional (num 0)) 3 (num 0) ∧ bitAt (num 0).valid 0 = true ∧
    (predOf .mov 0x0F000000 = 2 ↔ (num 0).lane 0 = 0) :=
  ⟨ready_mayFire .., conditional_arrived _, by decide, by decide, ready_p rfl, by decide, by decide +kernel⟩
/-- A null predicate, a predicate null in lane 0, and a null data operand. -/
theorem witness_NullTokensPassOn : (MayFire (conditional nullToken) ∧ Arrived (conditional nullToken) .mov 0x0F000000 ∧
      opnd (conditional nullToken) 3 = some nullToken ∧ nullToken.null = true) ∧
    (opnd (conditional (lanes 0xFFFE 1)) 3 = some (lanes 0xFFFE 1) ∧ bitAt (lanes 0xFFFE 1).valid 0 = false) ∧
    (let s := ready 0 [0x0E000000] nullToken (num 0) (num 0) (num 0)
     MayFire s ∧ Runs s (BitVec.ofNat 2 (predOf .mov 0x0E000000)) 0xFFFF ∧ 0 < Row.mov.arity ∧ opnd s 0 = some nullToken) :=
  ⟨⟨ready_mayFire .., conditional_arrived _, rfl, rfl⟩, ⟨rfl, by decide⟩, ready_mayFire ..,
    by rw [show BitVec.ofNat 2 (predOf .mov 0x0E000000) = 0 by decide +kernel]; exact .always, by decide, rfl⟩

/-- A store whose address is a null token and whose value has not come. -/
theorem witness_NullTokensPassOn_early :
    let s := (ready 0 [0x60000000] nullToken (num 0) (num 0) (num 0)).updBlk 0 0 fun b => { b with slots := [(0, some nullToken)] }
    MayFire s ∧ wordOf s = 0x60000000 ∧ opnd s 0 = some nullToken ∧ opnd s 1 = none ∧ Runs s (BitVec.ofNat 2 (predOf .st8 0x60000000)) 0xFFFF ∧
    plainRow .st8 = true ∧ Row.st8.completes = false ∧ 0 < Row.st8.arity :=
  ⟨⟨rfl, rfl, rfl, by decide, rfl⟩, rfl, rfl, rfl, by rw [show BitVec.ofNat 2 (predOf .st8 0x60000000) = 0 by decide +kernel]; exact .always,
    by decide, by decide, by decide⟩

/-! Capabilities (R37 to R41, R142 to R145). -/

/-- A memory capability on [0x1000, 0x1100), its address at the bottom; and the code capability of the same bounds with exec and seal. -/
def mem : Value := capability 1 0xC00 0 0 0x1000 0x100 0x1000
def sealer : Value := capability 11 0x881 0 0 0x1000 0x100 0x1020
theorem capIn_of {s : State} {kinds : Nat → Bool} {v : Value} (h : Given s 0 v) (w : capOk v = true) (t : v.tag = .cap)
    (k : kinds (bitsAt v.bits 124 4).toNat = true) : CapIn s kinds v := ⟨h, w, t, k⟩

/-- An address that stays in the region, the first one outside it; on a steward core the capability of an object too. -/
theorem witness_CapabilityAddressesAndBounds_moves :
    (let s := three mem (num 0xFFF) (num 0)
     MayFire s ∧ Runs s 0 0xFFFF ∧ RightIn s (num 0xFFF) ∧ CapIn s boundedKinds mem ∧ sameRegion mem.cap (mem.scalar + (num 0xFFF).scalar) ∧
       ¬ sameRegion mem.cap (mem.scalar + signedImm s (0x1FFF#14)) ∧ ¬ stewardMode s) ∧
    (let s := three mem (num 0x1000) (num 0)
     CapIn s boundedKinds mem ∧ RightIn s (num 0x1000) ∧ ¬ sameRegion mem.cap (mem.scalar + (num 0x1000).scalar) ∧
       sameRegion mem.cap (num 0x1000).scalar ∧ ¬ sameRegion mem.cap (num 0x2000).scalar) ∧
    (let s := ready 4096 [0, 0] entry (num 0xFFF) (num 0) (num 0)
     MayFire s ∧ RightIn s (num 0xFFF) ∧ stewardMode s ∧ CapIn s (fun k => 1 ≤ k && k ≤ 12) entry) := by
  refine ⟨⟨ready_mayFire .., .always, ⟨ready_r rfl, by decide, by decide⟩, ⟨ready_l rfl, by decide, rfl, by decide +kernel⟩, ?_, ?_, ?_⟩,
    ⟨⟨ready_l rfl, by decide, rfl, by decide +kernel⟩, ⟨ready_r rfl, by decide, by decide⟩, ?_, ?_, ?_⟩,
    ⟨steward_mayFire .., ⟨steward_r rfl, by decide, by decide⟩, ?_, ⟨steward_l rfl, by decide, rfl, by decide +kernel⟩⟩⟩
  all_goals first | (unfold sameRegion; decide +kernel) | (unfold stewardMode; decide +kernel)
/-- Bounds of 16 bytes at the bottom of the source, in exponent 0; of the whole source; past the last address; below the base. -/
theorem witness_CapabilityAddressesAndBounds_bounds :
    (let s := three mem (num 16) (num 0)
     MayFire s ∧ CapIn s boundedKinds mem ∧ RightIn s (num 16) ∧ SetsBounds s false mem.cap (num 16).scalar.toNat 0 ∧
       SetsBounds s true mem.cap (num 16).scalar.toNat 0) ∧
    SetsBounds (three mem (num 0x100) (num 0)) true mem.cap (num 0x100).scalar.toNat 0 ∧
    2 ^ 64 - 1 < mem.scalar.toNat + (num (2 ^ 64 - 1)).scalar.toNat ∧
    (let v := capability 1 0xC00 0 0 0x1000 0x100 0xFFF
     v.scalar.toNat < baseOf v.cap ∧ CapIn (three v (num 1) (num 0)) boundedKinds v) := by
  refine ⟨⟨ready_mayFire .., ⟨ready_l rfl, by decide, rfl, by decide +kernel⟩, ⟨ready_r rfl, by decide, by decide⟩, ⟨?_, ?_, ?_, .inr ?_, ?_⟩, ⟨?_, ?_, ?_, .inr ?_, ?_⟩⟩,
    ⟨?_, ?_, ?_, .inr ?_, ?_⟩, by decide +kernel, by decide +kernel, ⟨ready_l rfl, by decide, rfl, by decide +kernel⟩⟩
  all_goals first | (intro e he; omega) | (unfold fits; decide +kernel) | decide +kernel
/-- CADDI over slot L alone, which stays in the region, or leaves it. -/
theorem witness_CapabilityAddressesAndBounds_immediate :
    let s := (three mem (num 0) (num 0)).updBlk 0 0 fun b => { b with slots := [(0, some mem)] }
    MayFire s ∧ Runs s 0 0xFFFF ∧ CapIn s boundedKinds mem ∧ sameRegion mem.cap (mem.scalar + signedImm s (0xFFF#14)) ∧
    ¬ sameRegion mem.cap (mem.scalar + signedImm s (0x1FFF#14)) := by
  refine ⟨⟨rfl, rfl, rfl, by decide, rfl⟩, .always, ⟨⟨rfl, rfl⟩, by decide, rfl, by decide +kernel⟩, ?_, ?_⟩
  all_goals (unfold sameRegion; decide +kernel)
/-- One byte past the limit; 0x2001 bytes from 1, which exponent 1 rounds out, beyond the source; 2^64 bytes but one from 0, which no exponent
represents. -/
theorem witness_CapabilityAddressesAndBounds_faults :
    (baseOf mem.cap + lengthOf mem.cap < mem.scalar.toNat + (num 0x101).scalar.toNat) ∧
    (let v := capability 1 0xC00 0 0 0 0x1FFF 1
     CapIn (three v (num 0x2001) (num 0)) boundedKinds v ∧ RightIn (three v (num 0x2001) (num 0)) (num 0x2001) ∧ LeastFit v.cap 0x2001 1 ∧
       ¬ stewardMode (three v (num 0x2001) (num 0)) ∧ baseOf v.cap + lengthOf v.cap < up 1 (v.scalar.toNat + 0x2001) ∧ down 1 v.scalar.toNat ≠ v.scalar.toNat) ∧
    ∀ e, ¬ fits e (capability 1 0xC00 0 0 0 0x1FFF 0).scalar.toNat ((capability 1 0xC00 0 0 0 0x1FFF 0).scalar.toNat + (num (2 ^ 64 - 1)).scalar.toNat) := by
  refine ⟨by decide +kernel, ⟨⟨ready_l rfl, by decide, rfl, by decide +kernel⟩, ⟨ready_r rfl, by decide, by decide⟩, ⟨?_, fun e h => ?_⟩, ?_, by decide +kernel, by decide +kernel⟩,
    fun e h => ?_⟩
  · unfold fits; decide +kernel
  · have h' : e = 0 := by omega
    subst h'; unfold fits; decide +kernel
  · unfold stewardMode; decide +kernel
  · rw [show (capability 1 0xC00 0 0 0 0x1FFF 0).scalar.toNat = 0 by decide +kernel, show (num (2 ^ 64 - 1)).scalar.toNat = 2 ^ 64 - 1 by decide +kernel] at h
    obtain ⟨h1, h2, -⟩ := h
    interval_cases e <;> revert h2 <;> decide +kernel
theorem witness_CapabilityPermissionsAndSeals :
    (let s := three mem (num 0x800) (num 0)
     MayFire s ∧ Runs s 0 0xFFFF ∧ RightIn s (num 0x800) ∧ CapIn s allKinds mem ∧ ¬ stewardMode s) ∧
    (let s := ready 4096 [0, 0] mem (num 0xC0000000) (num 0) (num 0)
     MayFire s ∧ CapIn s allKinds mem ∧ stewardMode s ∧ (bitsAt (num 0xC0000000).scalar 28 4 : BitVec 4).toNat < 13) ∧
    (let s := three sealer sealer (num 0)
     CapIn s (· == 11) sealer ∧ RightIn s sealer ∧ bitAt sealer.cap 119 = true ∧ bitAt sealer.cap 112 = true ∧ sealer.scalar.toNat % 32 = 0 ∧
       baseOf sealer.cap ≤ sealer.scalar.toNat ∧ sealer.scalar.toNat + 32 ≤ baseOf sealer.cap + lengthOf sealer.cap) ∧
    (let s := three entry sealer (num 0)
     CapIn s (· == 12) entry ∧ RightIn s sealer ∧ entry.scalar.toNat % 32 = 0) := by
  refine ⟨⟨ready_mayFire .., .always, ⟨ready_r rfl, by decide, by decide⟩, ⟨ready_l rfl, by decide, rfl, by decide +kernel⟩, ?_⟩,
    ⟨steward_mayFire .., ⟨steward_l rfl, by decide, rfl, by decide +kernel⟩, ?_, by decide +kernel⟩,
    ⟨⟨ready_l rfl, by decide, rfl, by decide +kernel⟩, ⟨ready_r rfl, by decide, by decide⟩, by decide +kernel, by decide +kernel, by decide +kernel,
      by decide +kernel, by decide +kernel⟩,
    ⟨⟨ready_l rfl, by decide, rfl, by decide +kernel⟩, ⟨ready_r rfl, by decide, by decide⟩, by decide +kernel⟩⟩
  all_goals (unfold stewardMode; decide +kernel)
theorem witness_CapabilityFieldsAndNulls :
    (let s := three mem (num 1) (num 0)
     MayFire s ∧ Runs s 0 0xFFFF ∧ CapIn s allKinds mem ∧ Given s 0 mem ∧ capOk mem = true ∧ mem.tag ≠ .broken ∧ RightIn s (num 1)) ∧
    (let s := three brokenValue (num 1) (num 0)
     Given s 0 brokenValue ∧ Given s 1 (num 1) ∧ brokenValue.tag = .broken ∧ capOk brokenValue = true ∧ brokenValue.valid = 0xFFFF) ∧
    (let v := { mem with valid := 0xFFF7 }
     let s := three v (num 1) (num 0)
     Given s 0 v ∧ v.tag = .cap ∧ (capOk v && capOk (num 1)) = false) :=
  ⟨⟨ready_mayFire .., .always, ⟨ready_l rfl, by decide, rfl, by decide +kernel⟩, ready_l rfl, by decide, by decide, ⟨ready_r rfl, by decide, by decide⟩⟩,
    ⟨ready_l rfl, ready_r rfl, rfl, by decide, rfl⟩, ready_l rfl, rfl, by decide⟩
/-- Operands half null: an entry with lane 3 null beside a sealer; DATA with lane 0 null; a BROKEN one. -/
theorem witness_CapabilityFieldsAndNulls_half :
    (let v := { entry with valid := 0xFFF7 }
     let s := three v sealer (num 0)
     MayFire s ∧ Runs s 0 0xFFFF ∧ Given s 0 v ∧ Given s 1 sealer ∧ v.tag = .cap ∧ capOk v = false ∧ sealer.tag = .cap ∧ bitAt sealer.cap 112 = true) ∧
    (let v := lanes 0xFFFE 1
     let s := three v (num 1) (num 0)
     Given s 0 v ∧ Given s 1 (num 1) ∧ v.tag ≠ .broken ∧ (num 1).tag ≠ .broken ∧ capOk v = false) ∧
    Given (three { brokenValue with valid := 0xFFF7 } (num 1) (num 0)) 0 { brokenValue with valid := 0xFFF7 } :=
  ⟨⟨ready_mayFire .., .always, ready_l rfl, ready_r rfl, rfl, by decide, rfl, by decide +kernel⟩, ⟨ready_l rfl, ready_r rfl, by decide, by decide, by decide⟩,
    ready_l rfl⟩
theorem witness_CapabilityFaults :
    (let s := three (num 5) (num 1) (num 0)
     MayFire s ∧ Runs s 0 0xFFFF ∧ Given s 0 (num 5) ∧ RightIn s (num 1) ∧ (num 5).tag = .data) ∧
    CapIn (three entry (num 1) (num 0)) (fun k => !boundedKinds k) entry ∧
    (let v := capability 11 0x801 0 0 0x1000 0x100 0x1020
     CapIn (three v sealer (num 0)) (· == 11) v ∧ bitAt v.cap 119 = false) ∧
    (let v := capability 11 0x880 0 0 0x1000 0x100 0x1020
     RightIn (three sealer v (num 0)) v ∧ bitAt v.cap 112 = false ∧ v.tag = .cap) ∧
    (let v := capability 11 0x881 0 0 0x1000 0x100 0x101F
     CapIn (three v sealer (num 0)) (· == 11) v ∧ bitAt v.cap 119 = true ∧ bitAt sealer.cap 112 = true ∧ v.scalar.toNat % 32 ≠ 0) ∧
    (let v := capability 11 0x881 0 0 0x1000 0x100 0xFE0
     CapIn (three v sealer (num 0)) (· == 11) v ∧ bitAt v.cap 119 = true ∧ v.scalar.toNat % 32 = 0 ∧ v.scalar.toNat < baseOf v.cap) :=
  ⟨⟨ready_mayFire .., .always, ready_l rfl, ⟨ready_r rfl, by decide, by decide⟩, rfl⟩,
    ⟨ready_l rfl, by decide, rfl, by decide +kernel⟩, ⟨⟨ready_l rfl, by decide, rfl, by decide +kernel⟩, by decide +kernel⟩,
    ⟨⟨ready_r rfl, by decide, by decide⟩, by decide +kernel, rfl⟩,
    ⟨⟨ready_l rfl, by decide, rfl, by decide +kernel⟩, by decide +kernel, by decide +kernel, by decide +kernel⟩,
    ⟨⟨ready_l rfl, by decide, rfl, by decide +kernel⟩, by decide +kernel, by decide +kernel, by decide +kernel⟩⟩

/-- The operations of one operand: DATA in slot L, and the capability of an entry, with nothing in slot R. -/
theorem witness_CapabilityFaults_single : let only := fun v => (three v (num 0) (num 0)).updBlk 0 0 fun b => { b with slots := [(0, some v)] }
    (MayFire (only (num 5)) ∧ Runs (only (num 5)) 0 0xFFFF ∧ Given (only (num 5)) 0 (num 5) ∧ (num 5).tag = .data) ∧
    CapIn (only entry) (fun k => !boundedKinds k) entry :=
  ⟨⟨⟨rfl, rfl, rfl, by decide, rfl⟩, .always, ⟨rfl, rfl⟩, rfl⟩, ⟨rfl, rfl⟩, by decide, rfl, by decide +kernel⟩

/-! Local and queued accesses (R23, R26, R146 to R153, R289 to R293). -/

/-- A capability on the first 0xC000 bytes of core 0's S store, with load, store, load-cap and store-cap, at an address. -/
def inS (a : Word) : Value := capability 5 0xF00 0 4 0 0xC00 a
/-- The same on 0x100 bytes of a store of another kind, read and written. -/
def inStore (kind : BitVec 4) (perms : BitVec 12) (a : Word) : Value := capability kind perms 0 0 0 0x100 a
/-- A block that has a done store of LSID 0 at byte 0xBFF8 of S; the instruction, at index 0, has LSID 1. -/
def behindStore (l r x : Value) : State :=
  (ready 0 [0x00040000, 0] l r x (num 0)).updBlk 0 0 fun b =>
    { b with storeMask := 1, lsids' := [(0, { (default : LsWrite) with done := true, sto := .s, bytes := [(0xBFF8, 0x7F)] })] }
/-- The last eight bytes of what programs may use of S (R26), behind a store that writes the first of them. -/
theorem witness_ScalarLoads : let s := behindStore (inS 0xBFF0) (num 0) (num 0)
    MayFire s ∧ Runs s 0 0xFFFF ∧ Local s (inS 0xBFF0) .s 123 8 8 (localAddress s (inS 0xBFF0) (1#9) 8) ∧ Readable s .s 1 ∧
    numberSeen s .s 1 0xBFF8 8 = 0x7F := by
  refine ⟨⟨rfl, rfl, rfl, by decide, rfl⟩, .always, ⟨⟨rfl, rfl⟩, ?_, rfl, ?_, ?_, ?_, ?_, ?_, ?_, ?_⟩, ⟨⟨by decide +kernel, fun j hj => ?_⟩, rfl, rfl⟩, ?_⟩
  all_goals first | decide +kernel | (have h : j < 1 := hj; interval_cases j; decide +kernel)
theorem witness_VectorLoads :
    (let s := three (inS 0xBFC0) (num 0) (num 0)
     MayFire s ∧ Runs s 0 0xFFFF ∧ Readable s .s 0 ∧ Local s (inS 0xBFC0) .s 123 64 64 (localAddress s (inS 0xBFC0) (0#9) 64)) ∧
    (let s := behindStore (inS 0xBFF0) (num 0) (num 0)
     Local s (inS 0xBFF0) .s 123 16 16 (localAddress s (inS 0xBFF0) (0#9) 16) ∧ bitAt (inS 0xBFF0).cap 121 = true) ∧
    (let s := three (inS 0) (lanes 0x8001 0x2FFF) (num 0)
     Given s 1 (lanes 0x8001 0x2FFF) ∧ (0xFFFF &&& (lanes 0x8001 0x2FFF).valid) ≠ 0 ∧
       ∀ l, l < 16 → bitAt (0xFFFF#16 &&& 0x8001) l = true → Local s (inS 0) .s 123 4 4 (laneAddress s (inS 0) (lanes 0x8001 0x2FFF) (0#9) l)) := by
  refine ⟨⟨ready_mayFire .., .always, ⟨⟨by decide, fun j hj => by cases hj⟩, rfl, rfl⟩, ⟨⟨rfl, rfl⟩, ?_, rfl, ?_, ?_, ?_, ?_, ?_, ?_, ?_⟩⟩,
    ⟨⟨⟨rfl, rfl⟩, ?_, rfl, ?_, ?_, ?_, ?_, ?_, ?_, ?_⟩, ?_⟩, ⟨ready_r rfl, by decide, fun l h1 _ => ?_⟩⟩
  all_goals first | decide +kernel | (refine ⟨⟨rfl, rfl⟩, ?_, rfl, ?_, ?_, ?_, ?_, ?_, ?_, ?_⟩ <;> interval_cases l <;> decide +kernel)
/-- A store to the first and to the last bytes of S, and to A and C. -/
theorem witness_ScalarStores : let s := three (inS 0) (num 1) (num 0)
    MayFire s ∧ Runs s 0 0xFFFF ∧ Sto.s ≠ .w ∧ Number s 1 (num 1) ∧ Local s (inS 0) .s 122 8 8 (localAddress s (inS 0) (0#18) 8) ∧
    Local s (inS 0) .s 122 8 8 (localAddress s (inS 0) (0x17FF#18) 8) := by
  refine ⟨ready_mayFire .., .always, by decide, number_of (ready_r rfl), ⟨⟨rfl, rfl⟩, ?_, rfl, ?_, ?_, ?_, ?_, ?_, ?_, ?_⟩,
    ⟨⟨rfl, rfl⟩, ?_, rfl, ?_, ?_, ?_, ?_, ?_, ?_, ?_⟩⟩
  all_goals decide +kernel
theorem witness_VectorStores :
    (let v := inStore 4 0xC00 0
     let s := three v (num 1) (num 0)
     MayFire s ∧ Runs s 0 0xFFFF ∧ Given s 1 (num 1) ∧ (num 1).tag ≠ .broken ∧ Local s v .c 122 64 64 (localAddress s v (3#18) 64)) ∧
    (let v := inStore 3 0xD00 0
     let s := three v entry (num 0)
     Given s 1 entry ∧ entry.valid &&& 0xFFFF &&& 15 = 15 ∧ bitAt v.cap 120 = true ∧ Local s v .a 122 16 16 (localAddress s v (15#18) 16)) ∧
    (let v := inStore 3 0xC00 0
     let s := three v (num 0) (num 7)
     Given s 2 (num 7) ∧ ∀ l, l < 16 → Local s v .a 122 4 4 (laneAddress s v (num 0) (0#18) l)) := by
  refine ⟨⟨ready_mayFire .., .always, ready_r rfl, by decide, ⟨⟨rfl, rfl⟩, ?_, rfl, ?_, ?_, ?_, ?_, ?_, ?_, ?_⟩⟩,
    ⟨ready_r rfl, by decide +kernel, by decide +kernel, ⟨⟨rfl, rfl⟩, ?_, rfl, ?_, ?_, ?_, ?_, ?_, ?_, ?_⟩⟩,
    ready_x rfl, fun l h => ⟨⟨rfl, rfl⟩, ?_, rfl, ?_, ?_, ?_, ?_, ?_, ?_, ?_⟩⟩
  all_goals first | decide +kernel | (interval_cases l <;> decide +kernel)
/-- The operands of each fault of a local access: BROKEN, DATA, no load, no store, W, a misaligned address, another core's, one below the
base, one that ends past the bounds. -/
theorem witness_LocalAccessFaults :
    (let s := three (inS 8) (num 1) (num 0)
     MayFire s ∧ Runs s 0 0xFFFF ∧ Given s 0 (inS 8) ∧ capOk (inS 8) = true ∧ Readable s .s 0 ∧ Number s 1 (num 1) ∧ (inS 8).tag = .cap ∧
       bitsAt (inS 8).cap 124 4 = storeKind .s) ∧
    (capOk brokenValue = true ∧ capOk (num 1) = true ∧ (num 1).tag = .data ∧ brokenValue.tag = .broken) ∧
    (bitAt (inStore 5 0x400 0).cap 123 = false ∧ bitAt (inStore 3 0x800 0).cap 122 = false ∧ bitsAt (inStore 2 0xC00 0).cap 124 4 = storeKind .w) ∧
    (let s := three (inS (2 ^ 52)) (num 1) (num 0)
     (localAddress s (inS (2 ^ 52)) (0#9) 8).toNat / 2 ^ 52 ≠ logicalOf s) ∧
    (let s := three (inS 4) (num 1) (num 0)
     (localAddress s (inS 4) (0#9) 8).toNat / 2 ^ 52 = logicalOf s ∧ (localAddress s (inS 4) (0#9) 8).toNat % 8 ≠ 0 ∧
       (localAddress s (inS 4) (0#18) 8).toNat % 8 ≠ 0) ∧
    (let v := inStore 5 0xC00 0x100
     let s := three v (num 1) (num 0)
     bitAt v.cap 123 = true ∧ (localAddress s v (0#9) 8).toNat % 8 = 0 ∧ baseOf v.cap + lengthOf v.cap < (localAddress s v (0#9) 8).toNat + 8) := by
  refine ⟨⟨ready_mayFire .., .always, ready_l rfl, by decide, ⟨⟨by decide, fun j hj => by cases hj⟩, rfl, rfl⟩, number_of (ready_r rfl), rfl, ?_⟩,
    ⟨by decide, by decide, rfl, rfl⟩, ⟨?_, ?_, ?_⟩, ?_, ⟨?_, ?_, ?_⟩, ?_, ?_, ?_⟩
  all_goals decide +kernel

/-- An address with lane 3 null; lanes 0 and 1 masked away, or all of them; a value with lane 0 null, one with no lane. -/
theorem witness_NullAccesses :
    (let v := { inS 0 with valid := 0xFFF7 }
     let s := three v (num 1) (num 1)
     MayFire s ∧ Runs s 0 0xFFFF ∧ Given s 0 v ∧ Given s 1 (num 1) ∧ Given s 2 (num 1) ∧ StoresBelow s 0 ∧ capOk v = false) ∧
    (let s := ready 0 [0, 0] (inS 0) (lanes 0 1) (lanes 0xFFFE 1) (num 0xFFF0)
     MayFire s ∧ Runs s 1 (bitsAt (num 0xFFF0).bits 0 16 &&& 0xFFFF) ∧ bitsAt (bitsAt (num 0xFFF0).bits 0 16 &&& 0xFFFF : BitVec 16) 0 2 ≠ 3#2 ∧
       (bitsAt (num 0xFFF0).bits 0 16 &&& 0xFFFF : BitVec 16) &&& 15 = 0 ∧ Given s 0 (inS 0) ∧ capOk (inS 0) = true ∧ Given s 1 (lanes 0 1) ∧
       (lanes 0 1).valid &&& 0xFFFF &&& 15 = 0 ∧ (lanes 0 1).valid &&& 0xFFFF = 0 ∧ Given s 2 (lanes 0xFFFE 1) ∧
       bitsAt ((lanes 0 1).valid &&& 0xFFFF) 0 2 ≠ 3#2 ∧ StoresBelow s 0) ∧
    (let s := ready 0 [0, 0] (inS 0) (num 1) (num 1) (num 0)
     Runs s 1 (bitsAt (num 0).bits 0 16 &&& 0xFFFF) ∧ (bitsAt (num 0).bits 0 16 &&& 0xFFFF : BitVec 16) = 0) :=
  ⟨⟨ready_mayFire .., .always, ready_l rfl, ready_r rfl, ready_x rfl, ⟨by decide, fun j hj => by cases hj⟩, by decide⟩,
    ⟨ready_mayFire .., .masked _ (ready_p rfl) rfl (by decide), by decide +kernel, by decide +kernel, ready_l rfl, by decide, ready_r rfl, by decide, by decide,
      ready_x rfl, by decide +kernel, ⟨by decide, fun j hj => by cases hj⟩⟩, .masked _ (ready_p rfl) rfl (by decide), by decide +kernel⟩
/-- A wrong kind; a store of another core's, and past the bounds; a capability without load-cap over a tagged granule; one only partly stored; one
stored to C, and without store-cap. -/
theorem witness_LocalAccessFaults_more :
    (entry.tag = .cap ∧ capOk entry = true ∧ (bitsAt entry.cap 124 4).toNat ∉ [2, 3, 4, 5]) ∧
    (let s := three (inS (2 ^ 52)) (num 1) (num 0)
     (localAddress s (inS (2 ^ 52)) (0#18) 8).toNat / 2 ^ 52 ≠ logicalOf s) ∧
    (let v := inStore 5 0xC00 0x100
     let s := three v (num 1) (num 0)
     bitAt v.cap 122 = true ∧ (localAddress s v (0#18) 8).toNat % 8 = 0 ∧ (localAddress s v (0#18) 8).toNat / 2 ^ 52 = logicalOf s ∧
       baseOf v.cap + lengthOf v.cap < (localAddress s v (0#18) 8).toNat + 8) ∧
    (let v := inStore 5 0xC00 0x20
     let s := (three v (num 1) (num 0)).updCore 0 fun c => { c with s := { c.s with tags := [(2, true)] } }
     MayFire s ∧ Runs s 0 0xFFFF ∧ Given s 0 v ∧ Readable s .s 0 ∧ v.tag = .cap ∧ bitsAt v.cap 124 4 = storeKind .s ∧ bitAt v.cap 121 = false ∧
       tagSeen s .s (offsetOf (localAddress s v (0#9) 16) / 16) 0 = true) ∧
    (let x := { entry with valid := 7 }
     let s := three (inS 0) x (num 0)
     Given s 1 x ∧ x.tag = .cap ∧ x.valid &&& 0xFFFF &&& 15 ≠ 0 ∧ x.valid &&& 0xFFFF &&& 15 ≠ 15) ∧
    (let v := inStore 4 0xC00 0
     bitsAt v.cap 124 4 = storeKind .c ∧ entry.tag ≠ .broken ∧ entry.valid &&& 0xFFFF &&& 15 = 15) ∧
    bitAt (inStore 5 0xC00 0).cap 120 = false ∧ bitsAt (inStore 5 0xC00 0).cap 124 4 = storeKind .s := by
  refine ⟨⟨rfl, by decide, by decide +kernel⟩, by decide +kernel, by decide +kernel,
    ⟨⟨rfl, rfl, rfl, by decide, rfl⟩, .always, ⟨rfl, rfl⟩, ⟨⟨by decide, fun j hj => by cases hj⟩, rfl, rfl⟩, rfl, ?_, ?_, ?_⟩, ⟨ready_r rfl, rfl, ?_, ?_⟩, ⟨?_, ?_, ?_⟩, ?_, ?_⟩
  all_goals decide +kernel

/-- A capability on [0, 0x1000) of the lodging's memory, with load, store, load-cap and store-cap, at an address. -/
def inMemory (a : Word) : Value := capability 1 0xF00 1 0 0 0x1000 a
theorem queued_of {s : State} {v : Value} {kinds perms : List Nat} {n : Nat} {a : Word} (h : Given s 0 v) (w : capOk v = true) (t : v.tag = .cap)
    (k : (bitsAt v.cap 124 4).toNat = 1) (hk : 1 ∈ kinds) (p : ∀ p ∈ perms, bitAt v.cap p = true)
    (al : a.toNat % n = 0) (lo : baseOf v.cap ≤ a.toNat) (hi : a.toNat + n ≤ baseOf v.cap + lengthOf v.cap) : Queued s v kinds perms n a :=
  ⟨h, w, t, k ▸ hk, p, fun h => by omega, al, lo, hi, fun q h => by rw [h] at k; cases q <;> exact absurd k (by decide)⟩
/-- Loads of every width's last place; stores of 64 bits, of 64 bytes, and of a capability; a store with a null value. -/
theorem witness_QueuedLoadsAndStores :
    (let s := three (inMemory 0xFF8) (num 1) (num 0)
     MayFire s ∧ Runs s 0 0xFFFF ∧ Queued s (inMemory 0xFF8) [1, 10, 2, 3, 4, 5] [123] 8 ((inMemory 0xFF8).scalar + (0#12).signExtend 64 * 8) ∧
       mapGet (blkOf s).regDone 0 = .no ∧ Given s 1 (num 1) ∧ bitsAt (num 1).valid 0 2 = 3#2 ∧
       Queued s (inMemory 0xFF8) [1, 10, 3, 4, 5] [122] 8 ((inMemory 0xFF8).scalar + signedImm s (0#18) * 8)) ∧
    (let s := three (inMemory 0xFC0) (num 1) (num 0)
     Queued s (inMemory 0xFC0) [1, 10, 3, 4, 5] [122] 64 ((inMemory 0xFC0).scalar + signedImm s (0#18) * 64)) ∧
    (let s := three (inMemory 0xFF0) entry (num 0)
     Given s 1 entry ∧ entry.valid &&& 15 = 15 ∧ Queued s (inMemory 0xFF0) [1, 3, 5] [122, 120] 16 ((inMemory 0xFF0).scalar + signedImm s (0#18) * 16)) ∧
    (let s := three (inMemory 0) (lanes 0xFFFD 1) (num 0)
     Given s 1 (lanes 0xFFFD 1) ∧ bitsAt (lanes 0xFFFD 1).valid 0 2 ≠ 3#2) := by
  refine ⟨⟨ready_mayFire .., .always, queued_of (ready_l rfl) ?_ rfl ?_ ?_ ?_ ?_ ?_ ?_, rfl, ready_r rfl, by decide,
      queued_of (ready_l rfl) ?_ rfl ?_ ?_ ?_ ?_ ?_ ?_⟩, queued_of (ready_l rfl) ?_ rfl ?_ ?_ ?_ ?_ ?_ ?_,
    ⟨ready_r rfl, by decide, queued_of (ready_l rfl) ?_ rfl ?_ ?_ ?_ ?_ ?_ ?_⟩, ready_r rfl, by decide⟩
  all_goals decide +kernel
/-- Each fault of a queued access: a BROKEN address and a DATA one; an entry; a store of W, and an atomic of A; no store; a core that is none of the
lodging's; an address that is not aligned, and one past the bounds; a capability to the host's memory; and the values: BROKEN, part of a capability, a
capability without store-cap; and one with lane 0 null, which issues nothing. -/
theorem witness_QueuedLoadsAndStores_faults :
    (let s := three brokenValue brokenValue (num 1)
     MayFire s ∧ Runs s 0 0xFFFF ∧ Given s 0 brokenValue ∧ capOk brokenValue = true ∧ Given s 1 brokenValue ∧ scalarOk brokenValue = true ∧
       Given s 2 (num 1) ∧ scalarOk (num 1) = true ∧ (num 1).tag = .data) ∧
    ((bitsAt entry.cap 124 4).toNat ∉ [1, 10, 2, 3, 4, 5] ∧ (bitsAt entry.cap 124 4).toNat ∉ [2] ∧ (bitsAt (inStore 2 0xC00 0).cap 124 4).toNat = 2 ∧
      (bitsAt (inStore 3 0xC00 0).cap 124 4).toNat = 3 ∧ bitAt (inStore 5 0x800 0).cap 122 = false) ∧
    (let a := inStore 5 0xC00 (7 * 2 ^ 52)
     let s := three a (num 1) (num 0)
     (s.router (lodgingOf s) (a.scalar.toNat / 2 ^ 52)).isSome = false ∧ (bitsAt a.cap 124 4).toNat = 5 ∧ bitAt a.cap 122 = true) ∧
    (let a := inMemory 0xFFC
     a.scalar.toNat % 8 ≠ 0 ∧ a.scalar.toNat % 4 = 0 ∧ (inMemory 0x1000).scalar.toNat % 8 = 0 ∧
       baseOf (inMemory 0x1000).cap + lengthOf (inMemory 0x1000).cap < (inMemory 0x1000).scalar.toNat + 8) ∧
    ((bitsAt (inStore 10 0xF00 0).cap 124 4).toNat = 10 ∧ ({ entry with valid := 7 } : Value).valid &&& 15 ≠ 0 ∧
      ({ entry with valid := 7 } : Value).valid &&& 15 ≠ 15 ∧ entry.valid &&& 15 = 15 ∧ bitAt (inStore 5 0xC00 0).cap 120 = false) :=
  ⟨⟨ready_mayFire .., .always, ready_l rfl, by decide, ready_r rfl, by decide, ready_x rfl, by decide, rfl⟩, by decide +kernel, by decide +kernel,
    by decide +kernel, by decide +kernel⟩
theorem witness_AtomicsAndFencesFire : let s := three (inMemory 0xFF8) (num 1) (num 2)
    MayFire s ∧ Runs s 0 0xFFFF ∧ Queued s (inMemory 0xFF8) [1, 10, 5] [123, 122] 8 (inMemory 0xFF8).scalar ∧
    Queued s (inMemory 0xFF8) [1, 10, 5] [123, 122] 4 (inMemory 0xFF8).scalar ∧ Number s 1 (num 1) ∧ Number s 2 (num 2) ∧
    mapGet (blkOf s).regDone 63 = .no := by
  refine ⟨ready_mayFire .., .always, queued_of (ready_l rfl) ?_ rfl ?_ ?_ ?_ ?_ ?_ ?_, queued_of (ready_l rfl) ?_ rfl ?_ ?_ ?_ ?_ ?_ ?_,
    number_of (ready_r rfl), number_of (ready_x rfl), rfl⟩
  all_goals decide +kernel

/-! Vectors and format blocks (R155 to R206). -/

theorem three_of (l r x : Value) (hl : l.null = false) (hr : r.null = false) (hx : x.null = false) :
    MayFire (three l r x) ∧ Runs (three l r x) 0 0xFFFF ∧ Given (three l r x) 0 l ∧ Given (three l r x) 1 r ∧ Given (three l r x) 2 x :=
  ⟨ready_mayFire .., .always, ⟨rfl, hl⟩, ⟨rfl, hr⟩, ⟨rfl, hx⟩⟩
/-- One, two and three vectors, a lane of one null, all under a mask of lanes 0 and 15: what every statement on elements assumes. -/
def masked3 : State := ready 0 [0] (vec [0x3F800000]) (lanes 0x7FFF 2) (num 1) (num 0x8001)
theorem masked3_of : MayFire masked3 ∧ Runs masked3 1 (bitsAt (num 0x8001).bits 0 16 &&& 0xFFFF) ∧ Given masked3 0 (vec [0x3F800000]) ∧
    Given masked3 1 (lanes 0x7FFF 2) ∧ Given masked3 2 (num 1) :=
  ⟨ready_mayFire .., .masked _ (ready_p rfl) rfl (by decide), ready_l rfl, ready_r rfl, ready_x rfl⟩
theorem witness_FloatingArithmetic : MayFire masked3 ∧ Given masked3 0 (vec [0x3F800000]) ∧ Given masked3 1 (lanes 0x7FFF 2) ∧ Given masked3 2 (num 1) :=
  ⟨masked3_of.1, masked3_of.2.2⟩
theorem witness_FloatingSelections : MayFire masked3 ∧ Given masked3 0 (vec [0x3F800000]) ∧ Given masked3 1 (lanes 0x7FFF 2) :=
  ⟨masked3_of.1, masked3_of.2.2.1, masked3_of.2.2.2.1⟩
theorem witness_FloatingFunctions : MayFire masked3 ∧ Runs masked3 1 (bitsAt (num 0x8001).bits 0 16 &&& 0xFFFF) ∧ Given masked3 0 (vec [0x3F800000]) :=
  ⟨masked3_of.1, masked3_of.2.1, masked3_of.2.2.1⟩
theorem witness_VectorIntegerResults : MayFire masked3 ∧ Given masked3 0 (vec [0x3F800000]) ∧ Given masked3 1 (lanes 0x7FFF 2) :=
  ⟨masked3_of.1, masked3_of.2.2.1, masked3_of.2.2.2.1⟩
/-- A mask in lane 0 of X, and a null one. -/
theorem witness_VectorComparesAndSelect : (MayFire masked3 ∧ Given masked3 2 (num 1) ∧ bitAt (num 1).valid 0 = true) ∧
    Given (three (num 1) (num 2) (lanes 0xFFFE 1)) 2 (lanes 0xFFFE 1) ∧ bitAt (lanes 0xFFFE 1).valid 0 = false :=
  ⟨⟨masked3_of.1, masked3_of.2.2.2.2, by decide⟩, ready_x rfl, by decide⟩
theorem witness_VectorConversions : MayFire masked3 ∧ Runs masked3 1 (bitsAt (num 0x8001).bits 0 16 &&& 0xFFFF) ∧ Given masked3 0 (vec [0x3F800000]) :=
  ⟨masked3_of.1, masked3_of.2.1, masked3_of.2.2.1⟩
theorem witness_VectorPermutesAndReductions : let s := three (num 5) (num 15) (num 16)
    MayFire s ∧ Runs s 0 0xFFFF ∧ Given s 0 (num 5) ∧ scalarOk (num 5) = true ∧ Given s 1 (num 15) ∧ scalarOk (num 15) = true ∧ bitAt (num 15).valid 0 = true ∧
    Given s 2 (num 16) ∧ scalarOk (num 16) = true ∧ ∃ k, k < 512 / (wide 1).w ∧ elemLive (wide 1).w ((num 5).valid &&& 0xFFFF) k = true :=
  ⟨ready_mayFire .., .always, ready_l rfl, by decide, ready_r rfl, by decide, by decide, ready_x rfl, by decide, 7, by decide, by decide⟩

theorem witness_VectorPermutesAndReductions_null : let s := three (num 5) (lanes 0xFFFE 1) (lanes 0xFFFD 1)
    MayFire s ∧ Runs s 0 0xFFFF ∧ Given s 0 (num 5) ∧ Given s 1 (lanes 0xFFFE 1) ∧ scalarOk (lanes 0xFFFE 1) = false ∧
    Given s 2 (lanes 0xFFFD 1) ∧ scalarOk (lanes 0xFFFD 1) = false :=
  ⟨ready_mayFire .., .always, ready_l rfl, ready_r rfl, by decide, ready_x rfl, by decide⟩
/-- Blocks: of 8-bit integers with scale 2^3, of a 4-bit grid with scale 1; zero; poison. -/
def block8 : Value := num 0x7F0322
def block4 : Value := num 0x10010
theorem ok_of {α : Type} [DecidableEq α] {e : Except Trap α} {a : α} (h : (match e with | .ok b => decide (b = a) | .error _ => false) = true) :
    e = .ok a := by
  cases e with
  | ok b => exact congrArg _ (of_decide_eq_true h)
  | error _ => cases h
theorem blockIn {s : State} {q : Nat} {v : Value} (h : Given s q v) (w : v.valid = 0xFFFF) : BlockIn s q v := ⟨h, w⟩
theorem laneIn {s : State} {q : Nat} {v : Value} (h : Given s q v) (w : bitAt v.valid 0 = true) : LaneIn s q v := ⟨h, w⟩
/-- VQHDR of 1.0 and of infinity; VQPK, VDQ and VBMAX of a real, a zero and a poison block, the last group of the block. -/
theorem witness_BlockConversions :
    (let s := three (num 0x3F800000) (num 0x22) (num 0)
     MayFire s ∧ Runs s 0 0xFFFF ∧ LaneIn s 0 (num 0x3F800000) ∧ LaneIn s 1 (num 0x22) ∧ fmtOperand (num 0x22) = .ok (0x22, some .int8) ∧
       (∃ n x e, f32.decode ((num 0x3F800000).bits.toNat % 2 ^ 31) = .fin n x e) ∧ 0x7F800000 ≤ (num 0x7F800000).bits.toNat % 2 ^ 31) ∧
    (let s := three block8 (num 1) (num 3)
     BlockIn s 0 block8 ∧ Given s 1 (num 1) ∧ LaneIn s 2 (num 3) ∧ hdrOf block8.bits = .ok (.real 0x22 .int8 3) ∧ groupOperand (num 3) < ElTy.int8.groups) ∧
    (hdrOf (num 0).bits = .ok .zero ∧ hdrOf (num 0xFF).bits = .ok .poison) ∧
    (let s := three block8 (num 3) (num 0)
     LaneIn s 1 (num 3) ∧ groupOperand (num 3) < ElTy.int8.groups) := by
  refine ⟨⟨ready_mayFire .., .always, laneIn (ready_l rfl) ?_, laneIn (ready_r rfl) ?_, ?_, ?_, ?_⟩,
    ⟨blockIn (ready_l rfl) rfl, ready_r rfl, laneIn (ready_x rfl) ?_, ?_, ?_⟩, ⟨?_, ?_⟩, laneIn (ready_r rfl) ?_, ?_⟩
  all_goals first | decide +kernel | exact ok_of (by decide +kernel) | exact ⟨false, 0x800000, -23, by decide +kernel⟩
theorem witness_BlockArithmetic :
    (let s := three block8 block8 (num 0)
     MayFire s ∧ Runs s 0 0xFFFF ∧ BlockIn s 0 block8 ∧ hdrOf block8.bits = .ok (.real 0x22 .int8 3) ∧ BlockIn s 1 block8) ∧
    (BlockIn (three (num 0) (num 0xFF) (num 0)) 1 (num 0xFF) ∧ BlockIn (three (num 0) (num 0xFF) (num 0)) 0 (num 0)) ∧
    (let s := three block8 (num 0x30) (num 0)
     LaneIn s 1 (num 0x30) ∧ (∃ t, fmtOperand (num 0x30) = .ok (0x30, some t)) ∧ fmtOperand (num 0xFF) = .ok (0xFF, none)) := by
  refine ⟨⟨ready_mayFire .., .always, blockIn (ready_l rfl) rfl, ?_, blockIn (ready_r rfl) rfl⟩, ⟨blockIn (ready_r rfl) rfl, blockIn (ready_l rfl) rfl⟩,
    laneIn (ready_r rfl) ?_, ?_, ?_⟩
  all_goals first | decide +kernel | exact ok_of (by decide +kernel) | exact ⟨.bf16, ok_of (by decide +kernel)⟩
/-- Row 7, the last. -/
theorem witness_OnlineSoftmax : let s := three (num 0) (vec [0x3F800000]) (num 7)
    MayFire s ∧ Runs s 0 0xFFFF ∧ Given s 0 (num 0) ∧ Given s 1 (vec [0x3F800000]) ∧ Given s 2 (num 7) ∧ scalarOk (num 7) = true ∧
    (num 7).scalar = BitVec.ofNat 64 7 ∧ bitAt (num 0).valid 14 = true ∧ bitAt (num 0).valid 15 = true :=
  ⟨ready_mayFire .., .always, ready_l rfl, ready_r rfl, ready_x rfl, by decide, by decide +kernel, by decide, by decide⟩
/-- A null row; a row whose lanes of the state are null. -/
theorem witness_OnlineSoftmax_null :
    (let s := three (num 0) (num 1) (lanes 0xFFFD 7)
     MayFire s ∧ Runs s 0 0xFFFF ∧ Given s 0 (num 0) ∧ Given s 1 (num 1) ∧ Given s 2 (lanes 0xFFFD 7) ∧ scalarOk (lanes 0xFFFD 7) = false) ∧
    (let s := three (lanes 0x7FFF 0) (num 1) (num 7)
     Given s 0 (lanes 0x7FFF 0) ∧ Given s 2 (num 7) ∧ scalarOk (num 7) = true ∧ (num 7).scalar = BitVec.ofNat 64 7 ∧
       (bitAt (lanes 0x7FFF 0).valid (2 * 7) && bitAt (lanes 0x7FFF 0).valid (2 * 7 + 1)) = false) :=
  ⟨⟨ready_mayFire .., .always, ready_l rfl, ready_r rfl, ready_x rfl, by decide⟩, ready_l rfl, ready_x rfl, by decide, by decide +kernel, by decide⟩
theorem witness_BlockFaults :
    (let s := three (num 0x11) (num 0) (num 8)
     MayFire s ∧ Runs s 0 0xFFFF ∧ Given s 0 (num 0x11) ∧ Given s 1 (num 0) ∧ LaneIn s 1 (num 0) ∧
       (num 0x11).bits.toNat % 256 ∉ [0, 0x10, 0x20, 0x21, 0x22, 0x30, 0x31, 0xFF] ∧ Given s 2 (num 8) ∧ scalarOk (num 8) = true ∧ 7 < (num 8).scalar.toNat) ∧
    (hdrOf block8.bits = .ok (.real 0x22 .int8 3) ∧ (∃ u y, hdrOf block4.bits = .ok (.real 0x10 u y) ∧ ElTy.int8.width ≠ u.width) ∧
      ElTy.int8.groups ≤ groupOperand (num 4)) ∧
    (lanes 0x7FFF 0x7F0322).valid ≠ 0xFFFF := by
  refine ⟨⟨ready_mayFire .., .always, ready_l rfl, ready_r rfl, laneIn (ready_r rfl) ?_, ?_, ready_x rfl, ?_, ?_⟩, ⟨?_, ?_, ?_⟩, ?_⟩
  all_goals first | decide +kernel | exact ok_of (by decide +kernel) | exact ⟨.int4, 0, ok_of (by decide +kernel), by decide⟩

/-! Counters, claims, waits, queues and starts (R229, R243 to R288). -/

/-- A counter's, a claim's and a queue's capability on core 1 of the lodging. -/
def counter : Value := capability 7 0x018 0 0 0 0 0x0010000000000040
def claimCap : Value := capability 8 0x058 0 0 0 0 0x0000000100000001
def queueCap : Value := capability 6 0x130 0 0 0 0 0x0010000000000080
theorem capability_of {s : State} {q k : Nat} {ps : List Nat} {v : Value} (h : Given s q v) (w : capOk v = true) (t : v.tag = .cap) (e : capKind v.cap = k)
    (p : ∀ p ∈ ps, capHas v.cap p = true) : Capability s q k ps v := ⟨h, w, t, e, p⟩
theorem receiptLocal {s : State} {v : Value} {k : Sto} {perm align n : Nat} (h : Given s 0 v) (w : capOk v = true) (t : v.tag = .cap)
    (kind : bitsAt v.cap 124 4 = storeKind k) (p : bitAt v.cap perm = true) (c : v.scalar.toNat / 2 ^ 52 = logicalOf s) (al : v.scalar.toNat % align = 0)
    (lo : baseOf v.cap ≤ v.scalar.toNat) (hi : v.scalar.toNat + n ≤ baseOf v.cap + lengthOf v.cap)
    (i : offsetOf v.scalar + n ≤ if k = .s then 0xC000 else storeSize k) : Local s v k perm align n v.scalar := ⟨h, w, t, kind, p, c, al, lo, hi, i⟩
theorem witness_CountersAndReceiptsFire :
    (let s := three (inS 0xBFF0) (num 3) (num 0)
     MayFire s ∧ Runs s 0 0xFFFF ∧ Local s (inS 0xBFF0) .s 122 16 16 (inS 0xBFF0).scalar ∧ Number s 1 (num 3) ∧ Number s 2 (num 0)) ∧
    (let s := three counter entry (num 1)
     Object s 0 7 [115] counter ∧ Object s 0 7 [116, 115] counter ∧ Capability s 1 12 [118] entry ∧ Number s 2 (num 1)) ∧
    (let s := three (num 0) (num 1) (num 2)
     Number s 0 (num 0) ∧ Number s 1 (num 1) ∧ Number s 2 (num 2)) := by
  refine ⟨⟨ready_mayFire .., .always, receiptLocal (ready_l rfl) ?_ rfl ?_ ?_ ?_ ?_ ?_ ?_ ?_, number_of (ready_r rfl), number_of (ready_x rfl)⟩,
    ⟨⟨capability_of (ready_l rfl) ?_ rfl ?_ ?_, ⟨115, ?_, ?_⟩, ?_⟩, ⟨capability_of (ready_l rfl) ?_ rfl ?_ ?_, ⟨116, ?_, ?_⟩, ?_⟩,
      entry_capability (ready_r rfl), number_of (ready_x rfl)⟩, number_of (ready_l rfl), number_of (ready_r rfl), number_of (ready_x rfl)⟩
  all_goals first | decide +kernel | (unfold InLodging; decide +kernel)
/-- A claim of this device, and one of another device; a wait on a receipt, a counter, a claim and a queue. -/
theorem witness_ClaimsAndWaitsFire :
    (let s := three claimCap entry (num 0)
     MayFire s ∧ Runs s 0 0xFFFF ∧ ClaimCap s 0 115 claimCap ∧ Given s 1 entry ∧ bitsAt entry.valid 0 4 = 0xF#4 ∧
       deviceOf claimCap.scalar = s.fuses.device ∧ ClaimCap s 0 116 claimCap ∧ mapGet (blkOf s).regDone 0 = .no) ∧
    (let v := capability 8 0x058 0 0 0 0 (2 ^ 44)
     let s := three v (num 1) (num 0)
     ClaimCap s 0 115 v ∧ deviceOf v.scalar ≠ s.fuses.device ∧ (num 1).tag ≠ .cap ∧ Number s 1 (num 1)) ∧
    Local (three (inS 0xBFF0) (num 0) (num 0)) (inS 0xBFF0) .s 123 16 16 (inS 0xBFF0).scalar ∧
    Object (three counter (num 0) (num 0)) 0 7 [116] counter ∧ Object (three queueCap (num 0) (num 0)) 0 6 [116] queueCap := by
  refine ⟨⟨ready_mayFire .., .always, ⟨capability_of (ready_l rfl) ?_ rfl ?_ ?_, fun _ => ?_⟩, ready_r rfl, ?_, ?_,
      ⟨capability_of (ready_l rfl) ?_ rfl ?_ ?_, fun _ => ?_⟩, rfl⟩,
    ⟨⟨capability_of (ready_l rfl) ?_ rfl ?_ ?_, fun h => absurd h ?_⟩, ?_, ?_, number_of (ready_r rfl)⟩,
    receiptLocal (ready_l rfl) ?_ rfl ?_ ?_ ?_ ?_ ?_ ?_ ?_, ⟨capability_of (ready_l rfl) ?_ rfl ?_ ?_, ⟨116, ?_, ?_⟩, ?_⟩,
    ⟨capability_of (ready_l rfl) ?_ rfl ?_ ?_, ⟨116, ?_, ?_⟩, ?_⟩⟩
  all_goals first | decide +kernel | (unfold InLodging; decide +kernel)
/-- Queue capabilities of the four kinds: a reply queue, a queue of a peer, a collective, a queue of the lodging, and a granted one. -/
def collLive : State := { three (capability 6 0x120 0 0 0 0 0x000D000000000003) (num 1) (num 0) with colls := [(3, { (default : Coll) with live := true })] }
def grantedTo : State := { three (capability 6 0x122 0 0 0 0 0x0010000000000080) (num 1) (num 0) with grants := [(0, 0, 0x0010000000000080)] }
/-- Lodging 9, switched out with two cores, granted it. -/
def grantedAway : State :=
  ({ three (capability 6 0x122 0 0 0 0 0x0010000000000080) (num 1) (num 0) with
    grants := [(0, 9, 0x0010000000000080)]
    saves := [{ (default : SaveRec) with lodging := 9, images := [{ (default : Image) with logical := 1 }] }] } : State).updLodging 9 fun l =>
    { l with out := true }
theorem witness_QueuesFire_leads :
    (∃ d, Leads (three (num 0) (num 0) (num 0)) (capability 6 0x120 0 0 0 0 0x000F000000000005).cap d) ∧
    (∃ d, Leads (three (num 0) (num 0) (num 0)) (capability 6 0x120 0 0 0 0 0x001E000000000005).cap d) ∧
    (∃ d, Leads collLive (capability 6 0x120 0 0 0 0 0x000D000000000003).cap d) ∧ (∃ d, Leads (three queueCap (num 1) (num 0)) queueCap.cap d) ∧
    (∃ d, Leads grantedTo (capability 6 0x122 0 0 0 0 0x0010000000000080).cap d) ∧
    (∃ d, Leads grantedAway (capability 6 0x122 0 0 0 0 0x0010000000000080).cap d) := by
  refine ⟨⟨_, .reply ?_⟩, ⟨_, .peer ?_⟩, ⟨_, .collective ?_ ?_⟩, ⟨_, .queue 1 ?_ (fun h => absurd h ?_) ?_ (.inr ?_)⟩,
    ⟨_, .granted (0, 0, 0x0010000000000080) 1 ?_ ?_ ?_ ?_ (.inr ?_)⟩, ⟨_, .away (0, 9, 0x0010000000000080) ?_ ?_ ?_ ?_ ?_⟩⟩
  all_goals first | decide +kernel | (unfold Listed; decide +kernel)
theorem witness_QueuesFire :
    (let s := three queueCap (num 1) (num 0)
     MayFire s ∧ Runs s 0 0xFFFF ∧ (∃ d, Sendable s queueCap (num 1) d) ∧ mapGet (blkOf s).regDone 1 = .no ∧ Capability s 0 6 [116] queueCap) ∧
    (let s := three queueCap entry (num 0)
     (∃ d, Sendable s queueCap entry d) ∧ Capability s 1 12 [118] entry) ∧
    (let s := three (inS 0) (num 0x80000) (num 0)
     Number s 1 (num 0x80000) ∧ bitAt (num 0x80000).scalar 20 = false ∧ Local s (inS 0) .s 122 64 (64 + 64 * 2 ^ numAt (num 0x80000).scalar 16 4) (inS 0).scalar) ∧
    (let s := three (inS (2 ^ 52)) (num (2 ^ 20)) (num 0)
     Number s 1 (num (2 ^ 20)) ∧ bitAt (num (2 ^ 20)).scalar 20 = true ∧ Capability s 0 5 [] (inS (2 ^ 52)) ∧ InLodging s (coreOf (inS (2 ^ 52)).scalar)) := by
  refine ⟨⟨ready_mayFire .., .always, ⟨_, capability_of (ready_l rfl) ?_ rfl ?_ ?_, ready_r rfl, ?_, (fun h => by cases h),
        .queue 1 ?_ (fun h => absurd h ?_) ?_ (.inr ?_)⟩, rfl, capability_of (ready_l rfl) ?_ rfl ?_ ?_⟩,
    ⟨⟨_, capability_of (ready_l rfl) ?_ rfl ?_ ?_, ready_r rfl, ?_, fun _ => ?_, .queue 1 ?_ (fun h => absurd h ?_) ?_ (.inr ?_)⟩, entry_capability (ready_r rfl)⟩,
    ⟨number_of (ready_r rfl), ?_, receiptLocal (ready_l rfl) ?_ rfl ?_ ?_ ?_ ?_ ?_ ?_ ?_⟩,
    ⟨number_of (ready_r rfl), ?_, capability_of (ready_l rfl) ?_ rfl ?_ ?_, ?_⟩⟩
  all_goals first | decide +kernel | (unfold InLodging; decide +kernel) | (unfold Listed; decide +kernel)
/-- A table with every entry pending, and one whose entry 255 is settled and may be reused. -/
def claimsOf (f : Nat → Nat) (s : State) : State :=
  s.updCore 0 fun c => { c with claims := (List.range 256).map fun j => (j, { (default : Claim) with state := f j }) }
/-- A free entry, a reusable one with none free, and none at all; the two ways in which an entry names its core. -/
theorem witness_StartsFire :
    (let s := three entry (num 1) (num 0x10001)
     MayFire s ∧ Runs s 0 0xFFFF ∧ Capability s 0 12 [118] entry ∧ Argument s 1 (num 1) ∧ Number s 2 (num 0x10001) ∧
       StartsOn s entry.cap (numAt (num 0x10001).scalar 16 12) ∧ Reserved s 0) ∧
    Reserved (claimsOf (fun j => if j = 255 then 2 else 1) (three entry (num 1) (num 0))) 255 ∧ NoneReserved (claimsOf (fun _ => 1) (three entry (num 1) (num 0))) ∧
    (let v := capability 12 0x042 0xFFFF 0 0 0 0x1000
     let s := (three v (num 1) (num 0x1F0000)).updCore 0 fun c => { c with lodging := 1 }
     Given s 0 v ∧ StartsOn s v.cap (numAt (num 0x1F0000).scalar 16 12)) ∧
    (let s := three claimCap (num 1) (num 0x10001)
     Capability s 0 8 [118] claimCap ∧ InLodging s (numAt (num 0x10001).scalar 16 12) ∧ deviceOf claimCap.scalar = s.fuses.device ∧
       InLodging s (homeOf claimCap.scalar)) ∧
    (let s := three entry (num 1) (num 1)
     s.router (lodgingOf s) (numAt (num 1).scalar 0 12) = some 1 ∧ 1 < 4096 ∧ numAt (num 1).scalar 0 12 ∈ (slotOf s).rect.cores) ∧
    Local (three (inS 0xBFC0) (num 0) (num 0)) (inS 0xBFC0) .s 123 64 64 (inS 0xBFC0).scalar := by
  refine ⟨⟨ready_mayFire .., .always, entry_capability (ready_l rfl), ⟨ready_r rfl, ?_, fun h => by cases h⟩, number_of (ready_x rfl), ?_, ?_⟩, ?_, ?_,
    ⟨⟨?_, ?_⟩, ?_⟩, ⟨capability_of (ready_l rfl) ?_ rfl ?_ ?_, ?_, ?_, ?_⟩, ⟨?_, ?_, ?_⟩, receiptLocal (ready_l rfl) ?_ rfl ?_ ?_ ?_ ?_ ?_ ?_ ?_⟩
  all_goals first | decide +kernel | (unfold InLodging; decide +kernel) | (unfold StartsOn InLodging; decide +kernel) | (unfold Reserved; decide +kernel) | (unfold NoneReserved; decide +kernel)
theorem witness_SynchronisationFaults :
    (let s := three counter (num 1) (num 0)
     MayFire s ∧ Runs s 0 0xFFFF ∧ Given s 0 counter ∧ capOk counter = true ∧ counter.tag = .cap ∧ capKind counter.cap ≠ 8 ∧ Number s 1 (num 1)) ∧
    (let v := capability 8 0x050 0 0 0 0 0x0000000100000001
     capKind v.cap = 8 ∧ bitAt v.cap 115 = false) ∧
    (let v := capability 7 0x018 0 0 0 0 0x0030000000000040
     let s := three v (num 1) (num 0)
     capKind v.cap = 7 ∧ bitAt v.cap 115 = true ∧ s.router (lodgingOf s) (coreOf v.scalar) = none) ∧
    (let s := three (inS 0x18) (num 1) (num 0)
     capKind (inS 0x18).cap = 5 ∧ bitAt (inS 0x18).cap 122 = true ∧ coreOf (inS 0x18).scalar = logicalOf s ∧ (inS 0x18).scalar.toNat % 16 ≠ 0) ∧
    (Given (three entry brokenValue (num 0)) 1 brokenValue ∧ Number (three entry brokenValue (num 0)) 2 (num 0)) ∧
    (capKind entry.cap ≠ 5 ∧ capKind entry.cap ≠ 6 ∧ capKind entry.cap ≠ 7 ∧ capKind entry.cap ≠ 8) := by
  refine ⟨⟨ready_mayFire .., .always, ready_l rfl, ?_, rfl, ?_, number_of (ready_r rfl)⟩, ⟨?_, ?_⟩, ⟨?_, ?_, ?_⟩, ⟨?_, ?_, ?_, ?_⟩,
    ⟨ready_r rfl, number_of (ready_x rfl)⟩, ?_⟩
  all_goals decide +kernel
/-- An object of each kind on a core that is none of the lodging's, the receipt without a permission. -/
theorem witness_SynchronisationFaults_lodging : ∀ k : Fin 3, let v := capability (BitVec.ofNat 4 (5 + k.val)) 0 0 0 0 0 0x0030000000000040
    let s := three v (num 0) (num 0)
    MayFire s ∧ Runs s 0 0xFFFF ∧ Given s 0 v ∧ capOk v = true ∧ v.tag = .cap ∧ capKind v.cap = 5 + k.val ∧
    s.router (lodgingOf s) (coreOf v.scalar) = none :=
  fun k => ⟨ready_mayFire .., .always, ready_l rfl, by revert k; decide +kernel, rfl, by revert k; decide +kernel, by revert k; decide +kernel⟩

/-! Engines and the system group (R212 to R228, R301 to R310, R429 to R443). -/

/-- A receipt at the last 16 bytes of S, a range of memory, a C window of the whole store and a C tile capability, with the engine permission. -/
def receipt : Value := capability 5 0x404 0 4 0 0xC00 0xBFF0
def source : Value := capability 1 0x804 1 0 0 0x1000 0xFF0
def target : Value := capability 1 0x404 1 0 0 0x1000 0xFF0
def cWindow : Value := capability 4 0xC04 0 8 0 0x200 0
def cTile : Value := capability 9 0x004 0x8001 0 0 0 0
theorem engineCap_of {s : State} {q : Nat} {kinds ps : List Nat} {v : Value} (h : Given s q v) (w : capOk v = true) (t : v.tag = .cap) (k : capKind v.cap ∈ kinds)
    (p : ∀ p ∈ ps, bitAt v.cap p = true) (e : bitAt v.cap 114 = true) (c : (s.router (lodgingOf s) (coreOf v.scalar)).isSome = true) :
    EngineCap s q kinds ps v := ⟨h, w, t, k, p, fun _ => ⟨e, c⟩⟩
theorem engineMem_of {s : State} {q : Nat} {kinds ps : List Nat} {v : Value} (h : Given s q v) (w : capOk v = true) (t : v.tag = .cap) (k : capKind v.cap ∈ kinds)
    (p : ∀ p ∈ ps, bitAt v.cap p = true) (e : capKind v.cap ∉ [2, 3, 4, 5, 9]) : EngineCap s q kinds ps v := ⟨h, w, t, k, p, fun h => absurd h e⟩
theorem kind_bits (c : Cap) : capKind c = (bitsAt c 124 4).toNat := by
  simp [capKind, numAt, bitsAt, Nat.shiftRight_eq_div_pow]
theorem receipt_of {s : State} {q align : Nat} {v : Value} (c : EngineCap s q [5] [122] v) (l : coreOf v.scalar = logicalOf s)
    (a : v.scalar.toNat % align = 0) (lo : baseOf v.cap ≤ v.scalar.toNat) (hi : v.scalar.toNat + align ≤ baseOf v.cap + lengthOf v.cap)
    (i : v.scalar.toNat % 2 ^ 52 + align ≤ 0xC000) : Receipt s q align v := by
  refine ⟨c, l, a, lo, hi, fun k h => ?_⟩
  have := c.kind
  rw [List.mem_singleton, kind_bits v.cap, h] at this
  cases k <;> first | exact i | exact absurd this (by decide)
theorem rangeIn_of {v : Value} {a n : Nat} (lo : baseOf v.cap ≤ a) (hi : a + n ≤ baseOf v.cap + lengthOf v.cap)
    (i : a % 2 ^ 52 + n ≤ match capKind v.cap with | 2 => 0x30000 | 3 => 0x20000 | 4 => 0x20000 | 5 => 0xC000 | _ => a % 2 ^ 52 + n) :
    RangeIn v a n := by
  refine ⟨lo, hi, fun k h => ?_⟩
  rw [kind_bits v.cap, h] at i
  cases k <;> exact i
/-- A copy of the last 16 bytes of its target; a tile command; windows of W and A; a C window's last tile, a C tile capability. -/
theorem witness_EngineInstructionsFire_copies :
    (let s := three source target receipt
     MayFire s ∧ Runs s 0 0xFFFF ∧ EngineCap s 0 [1, 10, 2, 3, 4, 5] [123] source ∧ EngineCap s 1 [1, 10, 2, 3, 5] [122] target ∧ Receipt s 2 16 receipt ∧
       target.scalar.toNat ≤ baseOf target.cap + lengthOf target.cap ∧ source.scalar.toNat % 16 = 0 ∧ target.scalar.toNat % 16 = 0 ∧ windowSize target % 16 = 0 ∧
       windowSize target = 16 ∧ RangeIn source source.scalar.toNat (windowSize target) ∧ RangeIn target target.scalar.toNat (windowSize target)) ∧
    Receipt (three source target (capability 5 0x404 0 4 0 0xC00 0xBFC0)) 2 64 (capability 5 0x404 0 4 0 0xC00 0xBFC0) ∧
    Window (three (inStore 3 0x804 0xC0) (num 0) (num 0)) 3 (inStore 3 0x804 0xC0) 0 ∧
    Window (three (inStore 2 0x804 0x100) (num 0) (num 0)) 2 (inStore 2 0x804 0x100) 0 := by
  refine ⟨⟨ready_mayFire .., .always, engineMem_of (ready_l rfl) ?_ rfl ?_ ?_ ?_, engineMem_of (ready_r rfl) ?_ rfl ?_ ?_ ?_,
      receipt_of (engineCap_of (ready_x rfl) ?_ rfl ?_ ?_ ?_ ?_) ?_ ?_ ?_ ?_ ?_, ?_, ?_, ?_, ?_, ?_, rangeIn_of ?_ ?_ ?_, rangeIn_of ?_ ?_ ?_⟩,
    receipt_of (engineCap_of (ready_x rfl) ?_ rfl ?_ ?_ ?_ ?_) ?_ ?_ ?_ ?_ ?_,
    ⟨engineCap_of (ready_l rfl) ?_ rfl ?_ ?_ ?_ ?_, ⟨?_, ?_⟩, ⟨?_, ?_⟩, ?_, rangeIn_of ?_ ?_ ?_⟩,
    ⟨engineCap_of (ready_l rfl) ?_ rfl ?_ ?_ ?_ ?_, ⟨?_, ?_⟩, ⟨?_, ?_⟩, ?_, rangeIn_of ?_ ?_ ?_⟩⟩
  all_goals decide +kernel
/-- The words of an MMA on tile 15 with the most block-steps, and of an MZERO on tile 0. -/
def mmaWord : Value := num 0xF1FFF
theorem witness_EngineInstructionsFire_tiles :
    (let s := three cWindow mmaWord receipt
     MayFire s ∧ Tile s cWindow mmaWord receipt 0x1E000 0 ∧ numAt mmaWord.scalar 0 12 ≠ 0) ∧
    (let s := three cTile (num 0) receipt
     Tile s cTile (num 0) receipt 0 0 ∧ numAt (num 0).scalar 0 12 = 0 ∧ bitAt (num 0).scalar 12 = false) := by
  refine ⟨⟨ready_mayFire .., ⟨⟨engineCap_of (ready_l rfl) ?_ rfl ?_ ?_ ?_ ?_, ⟨?_, ?_⟩, fun _ => ⟨?_, ?_, ?_, rangeIn_of ?_ ?_ ?_, ?_⟩, fun h => absurd h ?_⟩,
        number_of (ready_r rfl), receipt_of (engineCap_of (ready_x rfl) ?_ rfl ?_ ?_ ?_ ?_) ?_ ?_ ?_ ?_ ?_, ⟨?_, ?_⟩⟩, ?_⟩,
    ⟨⟨engineCap_of (ready_l rfl) ?_ rfl ?_ ?_ ?_ ?_, ⟨?_, ?_⟩, fun h => absurd h ?_, fun _ => ⟨?_, ?_⟩⟩,
      number_of (ready_r rfl), receipt_of (engineCap_of (ready_x rfl) ?_ rfl ?_ ?_ ?_ ?_) ?_ ?_ ?_ ?_ ?_, ⟨?_, ?_⟩⟩, ?_, ?_⟩
  all_goals decide +kernel
/-- The matrix unit idle, with a head that waits for leave, an MZERO, and an MMA that runs. -/
def withUnit (q : List MxCmd) : State := (three cWindow (num 0) (num 0)).updCore 0 fun c => { c with mx := q }
theorem witness_EngineInstructionsFire_state :
    MayFire (withUnit []) ∧ Runs (withUnit []) 0 0xFFFF ∧ EngineCap (withUnit []) 0 [4, 9] [] cWindow ∧ coreOf cWindow.scalar = logicalOf (withUnit []) ∧
    (withUnit []).router (lodgingOf (withUnit [])) (coreOf cWindow.scalar) = some 0 ∧ ((withUnit []).core 0).mx = [] ∧
    (let h : MxCmd := { (default : MxCmd) with isMma := true, leave := 1 }
     ((withUnit [h]).core 0).mx = [h] ∧ h.leave ≠ 2) ∧
    (let h : MxCmd := { (default : MxCmd) with isMma := true, leave := 2 }
     ((withUnit [h]).core 0).mx = [h]) := by
  refine ⟨⟨rfl, rfl, rfl, by decide, rfl⟩, .always, engineCap_of ⟨rfl, rfl⟩ ?_ rfl ?_ ?_ ?_ ?_, ?_, ?_, ?_, ⟨?_, ?_⟩, ?_⟩
  all_goals decide +kernel
/-- A head without leave that has been cancelled. -/
theorem witness_EngineInstructionsFire_cancelled : let h : MxCmd := { (default : MxCmd) with isMma := true, leave := 1, code := 0x1E }
    ((withUnit [h]).core 0).mx = [h] ∧ h.leave ≠ 2 ∧ h.code ≠ 0 := by decide +kernel
theorem witness_EngineFaults :
    (let s := three source counter receipt
     MayFire s ∧ Runs s 0 0xFFFF ∧ EngineCap s 0 [1, 10, 2, 3, 4, 5] [123] source ∧ Given s 1 counter ∧ capOk counter = true ∧ counter.tag = .cap ∧
       Receipt s 2 16 receipt ∧ capKind counter.cap ∉ [1, 10, 2, 3, 4, 5]) ∧
    (capKind cWindow.cap = 4 ∧ capOk cWindow = true) ∧ (capKind source.cap ∈ [1, 10, 2, 3, 5] ∧ bitAt source.cap 122 = false) ∧
    (let v := capability 1 0x804 1 0 0 0x1000 0xFF8
     let s := three v target receipt
     EngineCap s 0 [1, 10, 2, 3, 4, 5] [123] v ∧ EngineCap s 1 [1, 10, 2, 3, 5] [122] target ∧ v.scalar.toNat % 16 ≠ 0) ∧
    (let v := capability 1 0x804 1 0 0x100 0x100 0xF0
     let s := three v target receipt
     EngineCap s 0 [1, 10, 2, 3, 4, 5] [123] v ∧ v.scalar.toNat % 16 = 0 ∧ windowSize target % 16 = 0 ∧ v.scalar.toNat < baseOf v.cap) ∧
    (let v := inStore 2 0x804 0
     Given (three v (num 0) (num 0)) 0 v ∧ capKind v.cap = 2 ∧ capOk v = true) ∧
    (let s := three cTile (num 0x1000) receipt
     Tile s cTile (num 0x1000) receipt 0 0 ∧ numAt (num 0x1000).scalar 0 12 = 0 ∧ bitAt (num 0x1000).scalar 12 = true) := by
  refine ⟨⟨ready_mayFire .., .always, engineMem_of (ready_l rfl) ?_ rfl ?_ ?_ ?_, ready_r rfl, ?_, rfl,
      receipt_of (engineCap_of (ready_x rfl) ?_ rfl ?_ ?_ ?_ ?_) ?_ ?_ ?_ ?_ ?_, ?_⟩, ⟨?_, ?_⟩, ⟨?_, ?_⟩,
    ⟨engineMem_of (ready_l rfl) ?_ rfl ?_ ?_ ?_, engineMem_of (ready_r rfl) ?_ rfl ?_ ?_ ?_, ?_⟩,
    ⟨engineMem_of (ready_l rfl) ?_ rfl ?_ ?_ ?_, ?_, ?_, ?_⟩, ⟨ready_l rfl, ?_, ?_⟩,
    ⟨⟨engineCap_of (ready_l rfl) ?_ rfl ?_ ?_ ?_ ?_, ⟨?_, ?_⟩, fun h => absurd h ?_, fun _ => ⟨?_, ?_⟩⟩,
      number_of (ready_r rfl), receipt_of (engineCap_of (ready_x rfl) ?_ rfl ?_ ?_ ?_ ?_) ?_ ?_ ?_ ?_ ?_, ⟨?_, ?_⟩⟩, ?_, ?_⟩
  all_goals decide +kernel

/-- The words that user mode may write, one it may not, one that is unknown; the steward's word on a steward core. -/
theorem witness_SystemGroupFires :
    (let s := three (num 6) (num 5) (num 0)
     MayFire s ∧ Runs s 0 0xFFFF ∧ Number s 0 (num 6) ∧ Number s 1 (num 5) ∧ writableWord (num 6).scalar.toNat ∧ writableWord (num 0x2F).scalar.toNat) ∧
    (let s := ready 4096 [0] (num 0x40) (num 5) (num 0) (num 0)
     MayFire s ∧ Number s 0 (num 0x40) ∧ (num 0x40).scalar.toNat = 0x40 ∧ stewardMode s) ∧
    (knownWord (num 9).scalar.toNat ∧ ¬ writableWord (num 9).scalar.toNat ∧ ¬ stewardMode (three (num 0x40) (num 5) (num 0)) ∧ ¬ knownWord (num 0x31).scalar.toNat) ∧
    (let v := capability 1 0x400 1 0 0 0x1000 0xFC0
     let s := three v receipt (num 0)
     Given s 0 v ∧ capOk v = true ∧ v.tag = .cap ∧ capKind v.cap = 1 ∧ bitAt v.cap 122 = true ∧ v.scalar.toNat % 64 = 0 ∧ RangeIn v v.scalar.toNat 64 ∧
       Receipt s 1 16 receipt) := by
  refine ⟨⟨ready_mayFire .., .always, number_of (ready_l rfl), number_of (ready_r rfl), ?_, ?_⟩, ⟨steward_mayFire .., number_of (steward_l rfl), ?_, ?_⟩,
    ⟨?_, ?_, ?_, ?_⟩, ready_l rfl, ?_, rfl, ?_, ?_, ?_, rangeIn_of ?_ ?_ ?_, receipt_of (engineCap_of (ready_r rfl) ?_ rfl ?_ ?_ ?_ ?_) ?_ ?_ ?_ ?_ ?_⟩
  all_goals first | decide +kernel | (unfold writableWord; decide +kernel) | (unfold knownWord; decide +kernel) | (unfold stewardMode; decide +kernel)
/-- A word of each kind: the first and last of the general ones, of the event counters, of the held set, the service entry, the steward's. -/
theorem witness_StateWordsRead :
    (let s := three (num 0) (num 0) (num 0)
     MayFire s ∧ Runs s 0 0xFFFF ∧ Number s 0 (num 0) ∧ (num 0).scalar.toNat = 0 ∧ Number (three (num 9) (num 0) (num 0)) 0 (num 9) ∧ (num 9).scalar.toNat = 9 ∧
       (num 0x2F).scalar.toNat = 0x20 + 15 ∧ (num 0x1F).scalar.toNat = 0x10 + 15 ∧ (num 0x30).scalar.toNat = 0x30 ∧ ¬ knownWord (num 0x43).scalar.toNat ∧
       ¬ stewardMode s) ∧
    (let s := ready 4096 [0] (num 0x42) (num 0) (num 0) (num 0)
     MayFire s ∧ Number s 0 (num 0x42) ∧ (num 0x42).scalar.toNat = 0x42 ∧ stewardMode s) := by
  refine ⟨⟨ready_mayFire .., .always, number_of (ready_l rfl), ?_, number_of (ready_l rfl), ?_, ?_, ?_, ?_, ?_, ?_⟩,
    ⟨steward_mayFire .., number_of (steward_l rfl), ?_, ?_⟩⟩
  all_goals first | decide +kernel | (unfold knownWord; decide +kernel) | (unfold stewardMode; decide +kernel)

/-- On the steward core, the custody record of slot 7 of router 1, and that of slot 0 of router 0. -/
def custodian (l r x : Value) : State := ready 4096 [0] l r x (num 0)
def record7 : Value := num (2 ^ 52 + 0xE380)
theorem record_of {s : State} {q n r k : Nat} (h : Given s q (num n)) (c : s.router (slotOf s).serve.toNat (coreOf (num n).scalar) = some r)
    (o : offsetOf (num n).scalar = 0xE000 + 0x80 * k) (l : k < s.slotCount r) (f : (s.slot r k).custody.reserved = 0) : Record s q (num n) r k :=
  ⟨number_of h, c, o, l, .inl f⟩
theorem witness_CustodyInstructionsFire :
    (let s := custodian record7 (num 15) (num 0)
     MayFire s ∧ Runs s 0 0xFFFF ∧ stewardMode s ∧ Record s 0 record7 1 7 ∧ Number s 1 (num 15) ∧ (num 15).scalar.toNat < 16) ∧
    (let s := custodian record7 (num 0xFFFF) entry
     Number s 1 (num 0xFFFF) ∧ 1 ≤ (num 0xFFFF).scalar.toNat ∧ (num 0xFFFF).scalar.toNat < 2 ^ 16 ∧ Capability s 2 12 [118] entry) ∧
    (let s := custodian record7 (num 1) (num 0xE000)
     Record s 2 (num 0xE000) 0 0 ∧ Number s 1 (num 1)) ∧
    (let s := custodian record7 (num 0x21) (num 1)
     Number s 1 (num 0x21) ∧ Number s 2 (num 1) ∧ numAt (num 0x21).scalar 0 8 ≠ 0 ∧ (num 1).scalar.toNat ≤ 1) := by
  refine ⟨⟨steward_mayFire .., .always, ?_, record_of (steward_l rfl) ?_ ?_ ?_ ?_, number_of (steward_r rfl), ?_⟩,
    ⟨number_of (steward_r rfl), ?_, ?_, entry_capability (steward_x rfl)⟩, ⟨record_of (steward_x rfl) ?_ ?_ ?_ ?_, number_of (steward_r rfl)⟩,
    ⟨number_of (steward_r rfl), number_of (steward_x rfl), ?_, ?_⟩⟩
  all_goals first | decide +kernel | (unfold stewardMode; decide +kernel)
/-- Receipts and stores of the steward core, which is core 2 of its lodging. -/
def stewardReceipt : Value := capability 5 0x404 0 4 0 0xC00 (2 * 2 ^ 52 + 0xBFF0)
theorem witness_StewardInstructions :
    (let s := custodian (num 0x10001) (num 0x1000) stewardReceipt
     MayFire s ∧ Runs s 0 0xFFFF ∧ stewardMode s ∧ Number s 0 (num 0x10001) ∧ Number s 1 (num 0x1000) ∧ Receipt s 2 16 stewardReceipt ∧
       numAt (num 0x10001).scalar 18 46 = 0 ∧ numAt (num 0x10001).scalar 16 2 ≠ 3 ∧ numAt (num 0x10001).scalar 0 16 ≠ 0) ∧
    (let v := capability 5 0x804 0 4 0 0xC00 (2 * 2 ^ 52 + 0xBF80)
     let s := custodian v stewardReceipt (num 0)
     Local s v .s 123 128 128 v.scalar ∧ Receipt s 1 16 stewardReceipt) ∧
    (let s := custodian (num 1) (num 7) stewardReceipt
     Number s 0 (num 1) ∧ Number s 1 (num 7) ∧ (s.router (slotOf s).serve.toNat (num 1).scalar.toNat).isSome = true) ∧
    (let s := custodian (num 1) (inMemory 0) stewardReceipt
     Number s 0 (num 1) ∧ Capability s 1 1 [122] (inMemory 0) ∧ Capability s 1 1 [123] (inMemory 0)) ∧
    (let s := custodian (num (2 ^ 52 + 0xBFF0)) (num 0x21) (num 0)
     Number s 0 (num (2 ^ 52 + 0xBFF0)) ∧ s.router (slotOf s).serve.toNat (coreOf (num (2 ^ 52 + 0xBFF0)).scalar) = some 1) ∧
    (let s := three (num 1) (num 1) (num 1)
     MayFire s ∧ ¬ stewardMode s ∧ ∀ q, q < 3 → ∃ v, Given s q v ∧ capOk v = true ∧ v.tag ≠ .broken) := by
  refine ⟨⟨steward_mayFire .., .always, ?_, number_of (steward_l rfl), number_of (steward_r rfl),
      receipt_of (engineCap_of (steward_x rfl) ?_ rfl ?_ ?_ ?_ ?_) ?_ ?_ ?_ ?_ ?_, ?_, ?_, ?_⟩,
    ⟨receiptLocal (steward_l rfl) ?_ rfl ?_ ?_ ?_ ?_ ?_ ?_ ?_, receipt_of (engineCap_of (steward_r rfl) ?_ rfl ?_ ?_ ?_ ?_) ?_ ?_ ?_ ?_ ?_⟩,
    ⟨number_of (steward_l rfl), number_of (steward_r rfl), ?_⟩,
    ⟨number_of (steward_l rfl), capability_of (steward_r rfl) ?_ rfl ?_ ?_, capability_of (steward_r rfl) ?_ rfl ?_ ?_⟩,
    ⟨number_of (steward_l rfl), ?_⟩, ready_mayFire .., ?_, fun q h => ?_⟩
  all_goals first | decide +kernel | (unfold stewardMode; decide +kernel) | (interval_cases q <;> exact ⟨num 1, ⟨rfl, rfl⟩, by decide, by decide⟩)

/-! The part's own steps (R35, R66 to R73, R214 to R263, R318 to R472). -/

/-- Slot 0 of core 0 with a live activity, changed as `f` says, at a cycle. -/
def slot0 (cycle : Word) (f : Slot → Slot) : State :=
  { machine.updSlot 0 0 (fun x => f { x with live := true, code := sealer.cap, pc := 0x1000 }) with cycle := cycle }
/-- Slot 0 with a block. -/
def block0 (cycle : Word) (f : Blk → Blk) : State := slot0 cycle fun x => { x with blk := f { (default : Blk) with phase := 2 } }
/-- The block cache holds lines from the activity's address on; the code's space is given. -/
def cachedIn (space : BitVec 16) (lines : List V512) : State :=
  (slot0 0 fun x => { x with code := (capability 11 0x881 space 0 0x1000 0x100 0x1020).cap }).updCore 0 fun c =>
    { c with cache := lines.zipIdx.map fun e => (lineKey space.toNat (0x40 + e.2), some e.1) }
/-- A header for one word, and EXIT; a header for twenty words, whose block takes two lines. -/
def oneExit : V512 := BitVec.ofNat 512 (0xB0000000 + 0x1803FFFF * 2 ^ 128)
def twoLines : V512 := BitVec.ofNat 512 (0xB0000000 + 19 * 2 ^ 21)
/-- Space 1 is a device space of lodging 0, space 2 a host space (R383). -/
def withSpaces (s : State) : State := { s with hbm := [(s.fuses.spaceTable + 23, 0x40), (s.fuses.spaceTable + 39, 0x80)] }
/-- What a fetch gives: its bytes, a trap's code, or the number of requests with which it waits. -/
def fetched : Fetch → Sum (List Byte) (Nat × Nat)
  | .ok bs => .inl bs
  | .trap t => .inr (t.code, 0)
  | .wait s => .inr (0, s.reqs.length + 1)
theorem fetch_ok {f : Fetch} {bs : List Byte} (h : fetched f = .inl bs) : f = .ok bs := by
  cases f <;> first | (injection h with h; rw [h]) | cases h
theorem fetch_trap {f : Fetch} {n : Nat} (h : fetched f = .inr (n, 0)) : ∃ t, f = .trap t := by
  cases f with
  | trap t => exact ⟨t, rfl⟩
  | ok bs => cases h
  | wait s => simp [fetched] at h
theorem fetch_wait {f : Fetch} {m n : Nat} (h : fetched f = .inr (m, n + 1)) : ∃ s, f = .wait s := by
  cases f with
  | trap t => simp [fetched] at h
  | ok bs => cases h
  | wait s => exact ⟨s, rfl⟩
theorem witness_BlockEvents_fetch :
    (let s := cachedIn 0 [oneExit]
     s.runs 0 0 = true ∧ (s.slot 0 0).native = false ∧ (s.slot 0 0).blk.phase = 0 ∧
       ∃ bs h all, s.fetch 0 0 16 = .ok bs ∧ header bs = some h ∧ s.fetch 0 0 h.bytes = .ok all) ∧
    (let s := withSpaces (cachedIn 1 [twoLines])
     ∃ bs h later, s.fetch 0 0 16 = .ok bs ∧ header bs = some h ∧ s.fetch 0 0 h.bytes = .wait later) ∧
    (let s := cachedIn 0 [twoLines]
     ∃ bs h t, s.fetch 0 0 16 = .ok bs ∧ header bs = some h ∧ s.fetch 0 0 h.bytes = .trap t) ∧
    (let s := cachedIn 0 [1]
     s.runs 0 0 = true ∧ ∃ bs, s.fetch 0 0 16 = .ok bs ∧ header bs = none) ∧
    (∃ later, (withSpaces (cachedIn 1 [])).fetch 0 0 16 = .wait later) ∧ ∃ t, (cachedIn 0 []).fetch 0 0 16 = .trap t := by
  let one : Header := { count := 1, lsids := 0, region := false, stores := 0, writes := 0 }
  let two : Header := { count := 20, lsids := 0, region := false, stores := 0, writes := 0 }
  refine ⟨⟨by decide +kernel, by decide +kernel, by decide +kernel, bytesOf 64 oneExit, one, bytesOf 64 oneExit, fetch_ok (by decide +kernel), by decide +kernel,
      fetch_ok (by decide +kernel)⟩, ?_, ?_, ⟨by decide +kernel, bytesOf 64 (1 : V512), fetch_ok (by decide +kernel), by decide +kernel⟩,
    fetch_wait (m := 0) (n := 1) (by decide +kernel), fetch_trap (n := 0x11) (by decide +kernel)⟩
  · obtain ⟨t, h⟩ := fetch_wait (m := 0) (n := 1) (f := (withSpaces (cachedIn 1 [twoLines])).fetch 0 0 two.bytes) (by decide +kernel)
    exact ⟨bytesOf 64 twoLines, two, t, fetch_ok (by decide +kernel), by decide +kernel, h⟩
  · obtain ⟨t, h⟩ := fetch_trap (n := 0x11) (f := (cachedIn 0 [twoLines]).fetch 0 0 two.bytes) (by decide +kernel)
    exact ⟨bytesOf 64 twoLines, two, t, fetch_ok (by decide +kernel), by decide +kernel, h⟩
theorem witness_BlockEvents_admission : let s := slot0 5 fun x => { x with sleep := 5, blk := { (default : Blk) with phase := 1, words := [0x1803FFFF] } }
    let x := s.slot 0 0
    s.runs 0 0 = true ∧ x.blk.phase = 1 ∧ s.mayAdmit x = true ∧ x.deferred = none ∧ x.poisoned = false ∧ x.admitFault = none ∧ x.parked = false ∧
    x.emptyRead = none ∧ ∀ g ∈ x.blk.livesL, (mapGet x.regs g).poison = 0 := by decide +kernel
/-- A block that has written register 5 and jumps: complete, with nothing else for its commit. -/
def jumper (waiting : Bool) : State := block0 0 fun b =>
  { b with words := [0x10000001], writeMask := 32, fired := [(0, 1)], exits := [(0, .jump 0x1040)], regDone := [(5, .value (num 9))], waiting := waiting }
theorem witness_BlockEvents_commit : PlainBlock (jumper false) 0 0 0x1040 ∧ ((jumper true).runs 0 0 = true ∧ (jumper true).complete 0 0 = true ∧
    ((jumper true).slot 0 0).blk.waiting = true) :=
  ⟨⟨by decide +kernel, by decide +kernel, rfl, ⟨rfl, rfl⟩, rfl, rfl, rfl, rfl, ⟨0, rfl⟩, by decide +kernel, fun e h => .inr ⟨num 9, by
    have h' : e ∈ [(5, RegDone.value (num 9))] := h
    rw [List.mem_singleton.mp h']⟩⟩, by decide +kernel⟩
theorem witness_BlockEvents_limits :
    (let s := block0 (2 ^ 20) id
     s.runs 0 0 = true ∧ (s.slot 0 0).blk.phase = 2 ∧ (s.slot 0 0).blk.awayAt = 0 ∧
       (s.slot 0 0).blk.admitted.toNat + (s.slot 0 0).blk.away + 2 ^ 20 ≤ s.cycle.toNat ∧ s.complete 0 0 = false) ∧
    (let s := slot0 64 fun x => { x with yielded := true }
     (s.slot 0 0).yielded = true ∧ (s.slot 0 0).yieldAt.toNat + 64 ≤ s.cycle.toNat) ∧
    (let s := slot0 7 fun x => { x with sleep := 7 }
     (s.slot 0 0).sleep ≠ 0 ∧ (s.slot 0 0).sleep.toNat ≤ s.cycle.toNat) ∧
    (let s := block0 512 fun b => { b with words := [0x0C03FFFF] }
     (s.slot 0 0).blk.phase = 2 ∧ s.canFire 0 (s.slot 0 0).blk 0 = true ∧ s.readySince 0 (s.slot 0 0).blk 0 + 512 ≤ s.cycle.toNat ∧
       (mapGet (s.core 0).favSince 0).toNat + 64 ≤ s.cycle.toNat ∧
       s.readyIn 0 ((mapGet (s.core 0).favoured 0 + 1 + 7) % 8) 0 = true ∧ ∀ j < 7, s.readyIn 0 ((mapGet (s.core 0).favoured 0 + 1 + j) % 8) 0 = false) := by
  decide +kernel
/-- A queue of eight places in core 0's S at 0x100, rank 1, which is lodging 0's trap queue. -/
def withQueue (s : State) : State :=
  (s.putS 0 0x100 8 (qWord 1 3 false 0 0)).updLodging 0 fun l => { l with trapQueue := (capability 6 0x120 0 0 0 0 0x100).cap }
theorem witness_BlockEvents_arrivals :
    (let s := machine.updCore 0 fun c => { c with ports := [(4, { words := List.replicate 7 (1, 0), coming := [2] })] }
     (mapGet (s.core 0).ports 4).coming = [2] ∧ (mapGet (s.core 0).ports 4).words.length < 8) ∧
    (let s := machine.updCore 0 fun c => { c with ring := [default] }
     (s.core 0).gated = false ∧ (s.core 0).off = false ∧ (s.core 0).resume = [] ∧ (s.core 0).ringHead = some 0 ∧ (s.core 0).ring[0]? = some default ∧
       ((s.updCore 0 fun c => c.takeRing 0).begin 0 (s.onNewImage 0 default)).isSome = true) ∧
    (let s := withQueue (slot0 0 fun x => { x with custody := { x.custody with unwritten := true, state := 1 } })
     let x := s.slot 0 7
     (s.slot 0 0).custody.unwritten = true ∧ (s.slot 0 0).custody.state ≠ 0 ∧ x.live = false ∧
       (s.writeTrap (s.slot 0 0).custody.record.lodging (s.slot 0 0).custody.record.bits (s.slot 0 0).custody.record.core).isSome = true) := by
  decide +kernel

/-- Request 1 of slot 0 of core 0, under way. -/
def request (e : Eff) (st : Stage) : Req :=
  { id := 1, act := { core := 0, slot := 0, gen := 0 }, lodging := 0, launch := 0, block := 0, idx := 0, eff := e, stage := st, since := 0, held := false,
    failed := 0, via := 0, die := 0, order := 1 }
def under (s : State) (e : Eff) (st : Stage) : State := { s with reqs := [request e st], nextReq := 2 }
theorem standing_of (s : State) (e : Eff) (st : Stage) : Standing (under s e st) 1 (request e st) st := ⟨rfl, rfl⟩
/-- A load of 64 bits into register 5 at an address of space 1 or 2; an atomic add. -/
def loadAt (kind space : Nat) (va : Word) : Eff := .mem (some 5) { kind := kind, space := space, va := va } (.load 6 false)
def amoAt (space : Nat) : Eff := .mem (some 5) { kind := 10, space := space, va := 0x1000 } (.amo 0 1 0 0 1 1)
theorem witness_MemoryEvents_depart : let s := under machine (loadAt 1 1 0x1000) .queued
    let q := request (loadAt 1 1 0x1000) .queued
    Standing s 1 q .queued ∧ s.frozen q = false ∧ s.orderHeld q = false ∧ s.placeHeld q = false ∧ s.hasPlace q = true :=
  ⟨standing_of .., by decide +kernel⟩
/-- At a station: a space that is none, a leaf that allows the load, and one that does not. -/
def leafAt (rd : Bool) : Leaf := { space := 1, base := 0, size := 2 ^ 19, kind := 0, rd := rd, wr := true, ex := false, place := .hbm (2 ^ 19) }
def atStation (rd : Bool) : State :=
  (withSpaces (under machine (loadAt 1 1 0x1000) .station)).updStation (stationOf 0 1 0x1000) fun t => { t with cache := [leafAt rd] }
theorem witness_MemoryEvents_station :
    (let s := under machine (loadAt 1 0 0x1000) .station
     let q := request (loadAt 1 0 0x1000) .station
     Standing s 1 q .station ∧ q.mem = some ({ kind := 1, space := 0, va := 0x1000 }, .load 6 false) ∧
       s.behind q { kind := 1, space := 0, va := 0x1000 } = false ∧ (s.space 0).fits 1 q.lodging (isSteward q.act.core) = false) ∧
    (let e : Eff := .peer 7 0 (.read 1 1 0x1000)
     let s := withSpaces (under machine e .station)
     Standing s 1 (request e .station) .station ∧ (request e .station).mem = some ({ kind := 1, space := 1, va := 0x1000 }, .load 7 false) ∧
       s.peerAllowed (request e .station) = false) ∧
    (let q := request (loadAt 1 1 0x1000) .station
     let a : MemAddr := { kind := 1, space := 1, va := 0x1000 }
     let s := (atStation true).updStation (q.station a) fun t => { t with faults := [{ (default : FaultEntry) with space := 1, page := a.page }] }
     Standing s 1 q .station ∧ s.behind q a = false ∧ (s.station (q.station a)).full = false ∧
       (s.space 1).fits 1 q.lodging (isSteward q.act.core) = true ∧ s.peerAllowed q = true ∧
       ((s.station (q.station a)).faults.any fun f => f.space == a.space && f.page == a.page) = true) ∧
    ∀ rd, let s := atStation rd
      let q := request (loadAt 1 1 0x1000) .station
      let a : MemAddr := { kind := 1, space := 1, va := 0x1000 }
      Standing s 1 q .station ∧ s.behind q a = false ∧ (s.space 1).fits 1 q.lodging (isSteward q.act.core) = true ∧ s.peerAllowed q = true ∧
        ((s.station (q.station a)).faults.any fun f => f.space == a.space && f.page == a.page) = false ∧
        (s.station (q.station a)).find 1 0x1000 = some (leafAt rd) ∧ (leafAt rd).allows 0 = rd ∧ (s.space 1).type ≠ 2 := by
  refine ⟨⟨standing_of .., by decide +kernel⟩, ⟨⟨rfl, rfl⟩, by decide +kernel⟩, ⟨⟨rfl, rfl⟩, by decide +kernel⟩, fun rd => ⟨⟨rfl, rfl⟩, ?_⟩⟩
  cases rd <;> decide +kernel
/-- A station with 64 walks and 512 requests that wait for one; a page of the host whose cached leaf does not allow the load. -/
theorem witness_MemoryEvents_full :
    (let q := request (loadAt 1 1 0x1000) .station
     let a : MemAddr := { kind := 1, space := 1, va := 0x1000 }
     let s := (atStation true).updStation (q.station a) fun t => { t with walks := List.replicate 64 9, buffer := List.replicate 512 9 }
     Standing s 1 q .station ∧ q.mem = some (a, .load 6 false) ∧ s.behind q a = false ∧ (s.station (q.station a)).full = true) ∧
    (let q := request (loadAt 10 2 0x1000) .station
     let a : MemAddr := { kind := 10, space := 2, va := 0x1000 }
     let s := (withSpaces (under machine (loadAt 10 2 0x1000) .station)).updStation (q.station a) fun t => { t with cache := [{ leafAt false with space := 2 }] }
     Standing s 1 q .station ∧ q.mem = some (a, .load 6 false) ∧ s.behind q a = false ∧ (s.station (q.station a)).full = false ∧
       (s.space 2).fits 10 q.lodging (isSteward q.act.core) = true ∧ s.peerAllowed q = true ∧
       ((s.station (q.station a)).faults.any fun f => f.space == a.space && f.page == a.page) = false ∧
       (s.station (q.station a)).find 2 0x1000 = some { leafAt false with space := 2 } ∧ ({ leafAt false with space := 2 } : Leaf).allows 0 = false ∧
       (s.space 2).type = 2) :=
  ⟨⟨⟨rfl, rfl⟩, by decide +kernel⟩, ⟨⟨rfl, rfl⟩, by decide +kernel⟩⟩
theorem witness_MemoryEvents_walks :
    (let q := request (loadAt 1 1 0x1000) .walking
     let a : MemAddr := { kind := 1, space := 1, va := 0x1000 }
     let s := (under machine (loadAt 1 1 0x1000) .walking).updStation (q.station a) fun t => { t with walks := [1] }
     s.req 1 = some q ∧ q.asks = some (a, 0) ∧ 1 ∈ (s.station (q.station a)).walks) ∧
    (let s := withSpaces (under machine (loadAt 10 2 0x1000) .walking)
     let q := request (loadAt 10 2 0x1000) .walking
     let a : MemAddr := { kind := 10, space := 2, va := 0x1000 }
     Standing s 1 q .walking ∧ q.mem = some (a, .load 6 false) ∧ (s.space 2).type = 2 ∧ pageSize 4096 = true ∧
       (s.hostLeaf a 0x5000 4096 true false).allows 0 = true ∧ (s.hostLeaf a 0x5000 4096 false true).allows 0 = false) := by
  refine ⟨by decide +kernel, ⟨⟨rfl, rfl⟩, by decide +kernel⟩⟩
/-- A fault entry that has no slot yet, and the lodging's fault queue, with the lodging's next slot free or taken. -/
def faulted : FaultEntry := { (default : FaultEntry) with space := 1 }
def withFaults (taken : Bool) : State :=
  (withSpaces (withQueue machine)).updLodging 0 fun l =>
    { l with faultQueue := (capability 6 0x120 0 0 0 0 0x100).cap, busySlots := [(l.nextFault, taken)] }
/-- A message of a station that waits for its queue; a page request with a credit; an invalidation. -/
def faultMsg : Msg := { data := 7, cap := true, core := 0xFFF, lodging := 0 }
theorem witness_MemoryEvents_messages :
    (∀ b, let s := withFaults b
     let l := s.lodging (s.space faulted.space).lodging
     faulted.slot = none ∧ mapGet l.busySlots l.nextFault = b ∧ s.router 0 (addrCore (capAddr l.faultQueue)) = some 0) ∧
    (let s := (withFaults false).updStation 63 fun t => { t with msgs := [(0, 0x100, faultMsg)] }
     (s.station 63).msgs[0]? = some (0, 0x100, faultMsg) ∧ (s.tryDeliver 0 0x100 faultMsg).isSome = true) ∧
    (let s := { machine.updStation 63 (fun t => { t with pages := [(7, 0x1000, false, false)] }) with credits := 64 }
     ((s.station 63).pages.find? fun p => !p.2.2.1) = some (7, 0x1000, false, false) ∧ mapGet s.promised 63 < s.credits / 64) ∧
    (let s := (under machine (.fence true true 2) (.done .ack)).updStation 63 fun t => { t with invals := [(31, [1])] }
     ((s.station 63).invals.find? fun e => e.1 == 31) = some (31, [1]) ∧ (∀ i ∈ [1], ((s.req i).all fun p => p.stage.isDone) = true) ∧
       let t := s.updStation 63 fun t => { t with invals := [] }
       (t.stations.all fun e => e.2.invals.all fun i => i.1 != 31) = true ∧
         ((t.updStation 62 fun t => { t with invals := [(31, [])] }).stations.any fun e => e.2.invals.any fun i => i.1 == 31) = true) :=
  ⟨fun b => by cases b <;> decide +kernel, by decide +kernel⟩
theorem witness_MemoryEvents_performs :
    (let s := under machine (loadAt 1 1 0x1000) (.ready (.hbm 0x1000))
     let q := request (loadAt 1 1 0x1000) (.ready (.hbm 0x1000))
     Standing s 1 q (.ready (.hbm 0x1000)) ∧ s.barred q = false ∧
       s.overlapped q = false ∧ s.strongHeld q = false) ∧
    (let e : Eff := .cusResume 0 0 0
     Standing (under machine e (.ready (.loc 0 .s 0xE000))) 1 (request e (.ready (.loc 0 .s 0xE000))) (.ready (.loc 0 .s 0xE000)) ∧
       (under machine e (.ready (.loc 0 .s 0xE000))).barred (request e (.ready (.loc 0 .s 0xE000))) = false) ∧
    (let st : Stage := .done (.val (num 5) 0)
     let s := (under machine (loadAt 1 1 0x1000) st).updSlot 0 0 fun x => { x with live := true, regs := [(5, { (default : Reg) with tag := .empty, req := 1 })] }
     Standing s 1 (request (loadAt 1 1 0x1000) st) st ∧ (s.lodging 0).phase ≠ 8 ∧ s.awaited 1 = true) ∧
    (let st : Stage := .host (.host 0x1000 1)
     Standing (under machine (amoAt 2) st) 1 (request (amoAt 2) st) st ∧
       (request (amoAt 2) st).mem = some ({ kind := 10, space := 2, va := 0x1000 }, .amo 0 1 0 0 1 1)) ∧
    (∀ bad, let s := (block0 0 fun b => { b with asks := [(127, .rank 7 0x40)] }).updCore 0 fun c => { c with s := { c.s with poison := if bad then [(8, true)] else [] } }
     (s.slot 0 0).blk.phase = 2 ∧ s.runs 0 0 = true ∧ mapGet (s.slot 0 0).blk.asks 127 = .rank 7 0x40 ∧
       s.askAway (s.core 0).lodging (.rank 7 0x40) = false ∧ s.peerQuestion 0 0 127 = none ∧ s.askHeld 0 0 127 = false ∧ s.askBad 0 0 127 = bad) ∧
    (let s := block0 0 fun b => { b with asks := [(255, .rank 8 0x500000000001)] }
     let e : Eff := .query 5 0 255 1 0x500000000001
     let a : Resp := .val (num 7) 0
     s.peerQuestion 0 0 255 = some (5, 1, 0x500000000001) ∧ s.runs 0 0 = true ∧
       s.askAway (s.core 0).lodging (mapGet (s.slot 0 0).blk.asks 255) = false ∧
       (let t := s.issue (deviceAct 0) 0 0 0 0 e (.done a)
        ((t.reqs.find? fun q => q.act == deviceAct 0 && q.eff == e).any fun q => q.stage == .done a) = true ∧ a.told = (true, 3))) := by
  refine ⟨⟨⟨rfl, rfl⟩, by decide +kernel⟩, ⟨⟨rfl, rfl⟩, by decide +kernel⟩, ⟨⟨rfl, rfl⟩, by decide +kernel⟩, ⟨⟨rfl, rfl⟩, rfl⟩,
    fun b => by cases b <;> decide +kernel, by decide +kernel⟩

/-- A porter command, and matrix commands, of core 0. -/
def porterCmd : PorterCmd := { (default : PorterCmd) with id := 3, rowBytes := 64, rows := 1 }
def withPorter (f : PorterCmd → PorterCmd) (gated : Bool) : State := machine.updCore 0 fun c => { c with porter := [f porterCmd], gated := gated }
def mmaRuns : MxCmd := { (default : MxCmd) with id := 4, isMma := true, leave := 2, steps := 1 }
theorem witness_EngineEvents_leave :
    (let s := { withPorter (fun p => { p with leave := 1 }) false with leaveWait := [(0, 0, 3, 800)] }
     (s.leaveWait.find? fun w => w.1 == 0) = some (0, 0, 3, 800) ∧ (s.core 0).gated = false ∧ (s.core 0).asker 3 = true ∧
       mapGet s.leave 0 + 800 ≤ s.fuses.leave) ∧
    (let s := { withPorter (fun p => { p with leave := 1 }) false with cycle := 1024 }
     (s.core 0).gated = false ∧ (s.core 0).awaitsLeave = true ∧ (s.core 0).leaveWait.toNat + 1024 ≤ s.cycle.toNat) := by decide +kernel
/-- The one unit of the command may begin, whatever the choice. -/
theorem picks_unit (n : Nat) : (porterCmd.next 0)[Config.pick n % (porterCmd.next 0).length]? = some 0 := by
  rw [show porterCmd.next 0 = [0] by decide +kernel]; simp [Nat.mod_one]
theorem witness_EngineEvents_porter :
    (let s := withPorter id false
     let c := s.core 0
     (c.porter.find? fun p => p.id == 3) = some porterCmd ∧ s.unitBack 0 3 = none ∧ s.lotAway 0 .s porterCmd.receipt 16 = false ∧ porterCmd.code = 0 ∧
       porterCmd.stopped = false ∧ porterCmd.leave ≠ 1 ∧ c.gated = false ∧ porterCmd.asked = 0 ∧ s.cycle = 0 ∧ s.strongWaits 0 porterCmd 0 = false) ∧
    (let p := { porterCmd with done := 64 }
     let s := withPorter (fun _ => p) false
     (s.core 0).porter.find? (fun p => p.id == 3) = some p ∧ p.code = 0 ∧ p.rowBytes * p.rows ≤ p.done ∧ p.flying = [] ∧ (s.core 0).gated = false ∧
       s.receiptAway 0 3 = false ∧ p.stopped = false ∧ p.leave ≠ 1) ∧
    (let s := withPorter id true
     (s.core 0).gated = true ∧ porterCmd.stopped = false ∧ porterCmd.atBoundary s.cycle = true ∧ porterCmd.leave = 0) := by decide +kernel
theorem witness_EngineEvents_matrix :
    (let s := under machine (.matrix mmaRuns) (.ready (.loc 0 .s 0))
     Standing s 1 (request (.matrix mmaRuns) (.ready (.loc 0 .s 0))) (.ready (.loc 0 .s 0)) ∧
       s.markerHeld (request (.matrix mmaRuns) (.ready (.loc 0 .s 0))) = false ∧ (s.core 0).mx.length < 16 ∧ s.reqs.takeWhile (fun p => p.id != 1) = []) ∧
    (let s := machine.updCore 0 fun c => { c with mx := [mmaRuns], aFeed := List.replicate 64 (0, false), bFeed := List.replicate 32 (0, false) }
     (s.core 0).stepping = some mmaRuns ∧ 64 ≤ (s.core 0).aFeed.length ∧ 32 ≤ (s.core 0).bFeed.length ∧ s.tileAway 0 mmaRuns = false) ∧
    (let s := machine.updCore 0 fun c => { c with mx := [default] }
     (s.core 0).mx = [default] ∧ (s.core 0).gated = false ∧ (default : MxCmd).isMma = false ∧ (default : MxCmd).code = 0 ∧
       s.tileAway 0 default = false) ∧
    (let s := { machine.updCore 0 (fun c => { c with mx := [mmaRuns], aFeed := List.replicate 63 (0, false) }) with cycle := 2 ^ 20 }
     (s.core 0).stepping = some mmaRuns ∧ (s.core 0).aFeed.length < 64 ∧ (s.core 0).feedAway = 0 ∧ mmaRuns.starveFrom.toNat + 2 ^ 20 ≤ s.cycle.toNat) ∧
    (let s := machine.updCore 0 fun c => { c with aQueue := [(0, 128)], aFeed := List.replicate 127 (0, false) }
     (s.core 0).aQueue = [(0, 128)] ∧ (s.core 0).gated = false ∧ (s.core 0).aFeed.length < 128 ∧ s.lotAway 0 .a 0 64 = false ∧ 0 + 64 < 128) := by
  refine ⟨⟨⟨rfl, rfl⟩, by decide +kernel⟩, by decide +kernel⟩

/-- Requests at byte 0x100 of core 0's S, which holds the word `w`. -/
def atWord (w : Nat) (e : Eff) : State := under (machine.putS 0 0x100 8 w) e (.ready (.loc 0 .s 0x100))
def comer (e : Eff) : Req := request e (.ready (.loc 0 .s 0x100))
theorem comes_of {w : Nat} {e : Eff} (f : (atWord w e).barred (comer e) = false) : Comes (atWord w e) 1 (comer e) 0 0x100 := ⟨rfl, ⟨.s, rfl⟩, f⟩
/-- A counter with two units left, one with one left, one that is bound. -/
def counts (n : Nat) (bound : Bool) : Nat := ctrWord 4 0 true false false bound n
theorem witness_HomeArrivals_counters :
    (let e : Eff := .discharge 0x100 1 0 false
     Comes (atWord (counts 2 false) e) 1 (comer e) 0 0x100 ∧ (atWord (counts 2 false) e).strays (comer e) 0 = false ∧
       (atWord (counts 2 false) e).overlapped (comer e) = false ∧ 1 < ctrLeft ((atWord (counts 2 false) e).sByte 0 0x100 8)) ∧
    (let e : Eff := .discharge 0x100 1 0 false
     Comes (atWord (counts 1 false) e) 1 (comer e) 0 0x100 ∧ ctrBound ((atWord (counts 1 false) e).sByte 0 0x100 8) = false ∧
       mapGet ((atWord (counts 1 false) e).core 0).waiters 0x100 = []) ∧
    (∀ bound, let e : Eff := .bind 0x100 default
      Comes (atWord (counts 1 bound) e) 1 (comer e) 0 0x100 ∧ (atWord (counts 1 bound) e).strays (comer e) 0 = false ∧
        (atWord (counts 1 bound) e).overlapped (comer e) = false ∧ ((atWord (counts 1 bound) e).lodging 0).ending = 0 ∧
        ctrBound ((atWord (counts 1 bound) e).sByte 0 0x100 8) = bound ∧ ctrLeft ((atWord (counts 1 bound) e).sByte 0 0x100 8) ≠ 0 ∧
        mapGet ((atWord (counts 1 bound) e).core 0).waiters 0x100 = []) :=
  ⟨⟨comes_of (by decide +kernel), by decide +kernel⟩, ⟨comes_of (by decide +kernel), by decide +kernel⟩,
    fun b => ⟨comes_of (by cases b <;> decide +kernel), by cases b <;> decide +kernel⟩⟩
/-- Entry 0 of core 0's claim table. -/
def withClaim (k : Claim) (s : State) : State := s.updCore 0 fun c => { c with claims := [(0, k)] }
def atClaim (state : Nat) (e : Eff) : State := withClaim { (default : Claim) with state := state, code := 7 } (atWord 0 e)
theorem comes_claim {state : Nat} {e : Eff} (f : (atClaim state e).barred (comer e) = false) : Comes (atClaim state e) 1 (comer e) 0 0x100 := ⟨rfl, ⟨.s, rfl⟩, f⟩
theorem witness_HomeArrivals_claims :
    (∀ b : Bool, let e : Eff := .invokec 0 default
      let s := atClaim (if b then 1 else 3) e
      Comes s 1 (comer e) 0 0x100 ∧ s.strays (comer e) 0 = false ∧ (comer e).act.slot ≠ 99 ∧ s.invocationHeld (comer e) 0 0 = false ∧
        (s.lodging 0).ending = 0 ∧ s.claimHome 0 0 = some (0, 0) ∧ (mapGet (s.core 0).claims 0).state = if b then 1 else 3) ∧
    (∀ b : Bool, let e : Eff := .settle 0 (num 1) (if b then 0 else 0x18) 0
      let s := atClaim 1 e
      Comes s 1 (comer e) 0 0x100 ∧ s.strays (comer e) 0 = false ∧ s.claimHome 0 0 = some (0, 0) ∧ (mapGet (s.core 0).claims 0).state = 1 ∧
        (num 1).tag ≠ .broken ∧ (mapGet (s.core 0).claims 0).invs = [] ∧ 1 ∉ (mapGet (s.core 0).claims 0).waiters) ∧
    (let e : Eff := .settle 5 (num 1) 0 0
     let s := atClaim 1 e
     Comes s 1 (comer e) 0 0x100 ∧ s.claimHome 0 5 = none ∧ s.router 0 (claimCore 5) = some 0) :=
  ⟨fun b => ⟨comes_claim (by cases b <;> decide +kernel), by cases b <;> decide +kernel⟩,
    fun b => ⟨comes_claim (by cases b <;> decide +kernel), by cases b <;> decide +kernel⟩, comes_claim (by decide +kernel), by decide +kernel⟩
/-- The word of an empty queue of eight places. -/
def emptyQueue : Nat := qWord 1 3 false 0 0
theorem plain_queue {s : State} (h : s.sByte 0 0x100 8 = emptyQueue) (w : mapGet (s.core 0).waiters 0x100 = []) : Plain s 0 0x100 :=
  ⟨by rw [h]; decide +kernel, by rw [h]; decide +kernel, w, fun h => absurd h (by decide)⟩
theorem witness_HomeArrivals_messages :
    (let e : Eff := .message (.queue 0 0x100 0) { data := 1, cap := false, core := 0, lodging := 0 } none
     let s := atWord emptyQueue e
     Comes s 1 (comer e) 0 0x100 ∧ s.messageHeld (comer e) = false ∧ (s.preceded (comer e) fun p => p.dest == (comer e).dest) = false ∧
       (s.core 0).lodging = 0 ∧ (s.lodging 0).out = false ∧
       (comer e).act.slot ≠ 99 ∧ s.routeListed 0 0 0 0 = true ∧ Plain s 0 0x100) ∧
    (∀ n : Fin 3, let e : Eff := .waitObj 5 false 8 0
      let s : State := { withClaim { (default : Claim) with state := 1 + n.val } (under machine e .waiting) with cycle := 1024 }
      Standing s 1 (request e .waiting) .waiting ∧ (request e .waiting).since.toNat + 1024 ≤ s.cycle.toNat ∧ s.barred (request e .waiting) = false ∧
        s.recorded (request e .waiting) 8 0 = false ∧ s.asksBefore (request e .waiting) 8 0 = false ∧ s.claimHome 0 0 = some (0, 0) ∧
        (mapGet (s.core 0).claims 0).state = 1 + n.val ∧ (mapGet (s.core 0).claims 0).waiters.length < 16 ∧ (s.core 0).claimWaiters < 256) ∧
    (∀ n : Fin 2, let e : Eff := .waitObj 5 false 7 0x100
      let s : State := { under (machine.putS 0 0x100 8 (counts n.val false)) e .waiting with cycle := 1024 }
      Standing s 1 (request e .waiting) .waiting ∧ (request e .waiting).since.toNat + 1024 ≤ s.cycle.toNat ∧ s.barred (request e .waiting) = false ∧
        s.recorded (request e .waiting) 7 0x100 = false ∧ s.asksBefore (request e .waiting) 7 0x100 = false ∧ s.router 0 (addrCore 0x100) = some 0 ∧
        ctrBad (s.sByte 0 (addrOff 0x100) 8) = false ∧ ctrBound (s.sByte 0 (addrOff 0x100) 8) = false ∧ ctrLeft (s.sByte 0 (addrOff 0x100) 8) = n.val ∧
        (s.core 0).objectWaiters < 64) := by
  refine ⟨⟨comes_of (by decide +kernel), by decide +kernel, by decide +kernel, by decide +kernel, by decide +kernel, by decide, by decide +kernel,
    plain_queue (by decide +kernel) (by decide +kernel)⟩, fun n => ⟨⟨rfl, rfl⟩, ?_⟩, fun n => ⟨⟨rfl, rfl⟩, ?_⟩⟩
  · match n with | 0 => decide +kernel | 1 => decide +kernel | 2 => decide +kernel
  · match n with | 0 => decide +kernel | 1 => decide +kernel

/-- A core whose ring is full; one with a start on its arrival list; one whose fired counter, or whose bound queue, waits for a place. -/
def fullRing : State := machine.updCore 0 fun c => { c with ring := List.replicate 256 default }
def arrived1 : State := machine.updCore 0 fun c => { c with arrivals := [{ (default : Start) with kind := 2 }] }
def firedCounter : State :=
  (machine.putS 0 0x100 8 (ctrWord 4 0 false true false true 0)).updCore 0 fun c =>
    { c with binds := [(0x100, { (default : Binding) with bound := true, order := 9 })] }
def boundQueue : State :=
  (machine.putS 0 0x100 8 (qWord 1 3 true 0 1)).updCore 0 fun c =>
    { c with binds := [(0x100, { (default : Binding) with bound := true })], stamps := [(0x140, (9, 0))] }
theorem witness_TurnsAtCoresAndDesk_retries :
    (fullRing.core 0).ringFree 2 = false ∧
    (arrived1.retries 0 = [] ∧ (arrived1.core 0).arrivals = [{ (default : Start) with kind := 2 }] ∧
      (arrived1.core 0).ringFree ({ (default : Start) with kind := 2 } : Start).units = true) ∧
    (firedCounter.firstRetry 0 = some (9, 0x100, false) ∧ (firedCounter.core 0).ringFree 2 = true ∧ (∀ e ∈ firedCounter.retries 0, 9 ≤ e.1) ∧
      (mapGet (firedCounter.core 0).binds 0x100).order = 9 ∧ (mapGet (firedCounter.core 0).binds 0x100).retries = true) ∧
    (boundQueue.firstRetry 0 = some (9, 0x100, true) ∧ (boundQueue.core 0).ringFree 2 = true ∧ (∀ e ∈ boundQueue.retries 0, 9 ≤ e.1) ∧
      (mapGet (boundQueue.core 0).binds 0x100).bound = true ∧ qBound (boundQueue.sByte 0 0x100 8) = true ∧ 0 < qCount (boundQueue.sByte 0 0x100 8) ∧
      (mapGet (boundQueue.core 0).stamps (qRing 0x100 + 64 * qHead (boundQueue.sByte 0 0x100 8))).1 = 9) := by decide +kernel
/-- A launch on one core at the desk, after another lodging's turn or its own; and a desk with none. -/
def oneLaunch : Launch := { (default : Launch) with w := 1, h := 1 }
def withDesk : State := { machine.updLodging 0 (fun g => { g with w := 2, h := 1 }) with desk := [oneLaunch], cycle := 65536, deskNext := 255 }
theorem witness_TurnsAtCoresAndDesk_desk :
    (withDesk.deskPick ((withDesk.deskNext + 1 + 0) % 256) = some (oneLaunch, (0, 0, 1, 1)) ∧ withDesk.deskHead 0 0 = some oneLaunch ∧
      oneLaunch.since.toNat + 65536 ≤ withDesk.cycle.toNat ∧ oneLaunch.since.toNat < 65536) ∧ ∀ n, n < 256 → machine.deskPick n = none := by
  refine ⟨by decide +kernel, fun n h => ?_⟩
  have hd : ∀ q, machine.deskHead n q = none := fun q => rfl
  unfold State.deskPick
  split
  · rfl
  · simp [hd]
theorem witness_TurnsAtCoresAndDesk_requests :
    (let e : Eff := .spawn 0 default
     let s := atWord 0 e
     Comes s 1 (comer e) 0 0x100 ∧ s.strays (comer e) 0 = false ∧ (default : Start).serve = 0 ∧ (s.lodging 0).ending = 0 ∧
       (s.preceded (comer e) fun p => (match p.start with | some (r', _) => r' == 0 | none => false)) = false ∧ (s.core 0).arrivals = [] ∧
       s.retrying 0 = false ∧ (s.core 0).ringFree (default : Start).units = true) ∧
    (let e : Eff := .spawn 0 default
     let s := fun n => (atWord 0 e).updCore 0 fun c => { c with arrivals := List.replicate n default }
     Comes (s 1) 1 (comer e) 0 0x100 ∧ ((s 1).core 0).arrivals ≠ [] ∧ ((s 1).core 0).arrivals.length < 16 ∧ 16 ≤ ((s 16).core 0).arrivals.length) ∧
    (let e : Eff := .spawn 0 default
     let s : State := { under machine e .buffered with cycle := 1024 }
     Standing s 1 (request e .buffered) .buffered ∧ (request e .buffered).since.toNat + 1024 ≤ s.cycle.toNat) ∧
    (let e : Eff := .message (.queue 0 0x100 0) { data := 1, cap := false, core := 0, lodging := 0 } (some 5)
     let s : State := { under machine e .buffered with cycle := 1024 }
     Standing s 1 (request e .buffered) .buffered ∧ (request e .buffered).since.toNat + 1024 ≤ s.cycle.toNat) ∧
    (let k : Coll := { (default : Coll) with live := true, relays := [(0, 0, 0x100)], n := 1, blocks := 1 }
     let m : Msg := { data := 1, cap := false, core := 0, lodging := 0 }
     let s : State := { (machine.putS 0 0x100 8 emptyQueue).updCore 0 (fun c => { c with staged := [(3, 0, 1, m)] }) with colls := [(3, k)] }
     mapGet s.colls 3 = k ∧
       ((s.core 0).staged.find? fun e => e.1 == 3 && k.live && k.expects (e.2.1 % k.blocks % k.relays.length) == e.2.1) = some (3, 0, 1, m) ∧
       k.relays[0 % k.blocks % k.relays.length]? = some (0, 0, 0x100) ∧ s.qFree 0 0x100 = true ∧ Plain s 0 0x100) :=
  ⟨⟨comes_of (by decide +kernel), by decide +kernel⟩, ⟨⟨rfl, ⟨.s, rfl⟩, by decide +kernel⟩, by decide +kernel⟩, ⟨⟨rfl, rfl⟩, by decide +kernel⟩,
    ⟨⟨rfl, rfl⟩, by decide +kernel⟩, by decide +kernel, by decide +kernel, by decide +kernel, by decide +kernel, plain_queue (by decide +kernel) (by decide +kernel)⟩

/-- A known session whose last sequence number is 6; a reply queue with a credit and an entry. -/
def withSession : State := { machine with sessions := [(9, { (default : Session) with known := true, last := 6, unanswered := 63 })], boot := 1 }
theorem witness_PortEvents_inlet : (mapGet withSession.sessions 9).known = true ∧ withSession.boot ≠ 2 ∧ (mapGet withSession.sessions 9).last < 7 ∧ 7 < 2 ^ 32 ∧
    (mapGet withSession.sessions 9).unanswered < 64 ∧ 6 ≤ (mapGet withSession.sessions 9).last ∧ (7#8 = 0 ∨ 6 < (7#8).toNat) ∧
    (let s := { machine.updLodging 1 (fun l => { l with live := true, session := 9 }) with boot := 1 }
     (1 ≠ 0 ∧ (s.lodging 1).live = true ∧ (s.lodging 1).session = 9 ∧ s.boot ≠ 2 ∧ (mapGet s.spdm s.speaking).phase ≠ 2)) ∧
    (let s := { machine with spdm := [(3, { (default : Spdm) with phase := 2 })], speaking := 3 }
     (mapGet s.spdm s.speaking).phase = 2) ∧ withSession.boot = 1 ∧ (1 : Byte) ≠ 0x80 ∧
    ({ withSession with boot := 2 } : State).boot = 2 := by decide +kernel
/-- The four ways in which a posted write may be malformed, and one that is not. -/
theorem witness_PortEvents_writes : 64 < 65536 ∧ 8 ≤ (List.replicate 64 (0 : Byte)).length ∧ natOfBytes (((List.replicate 64 (0 : Byte)).drop 4).take 2) = 0 ∧
    (List.replicate 64 (0 : Byte)).length = 64 ∧ 64 % 64 = 0 ∧ natOfBytes (((List.replicate 64 (0 : Byte)).drop 7).take 1) = 0 ∧
    (List.replicate 63 (0 : Byte)).length ≠ 64 ∧ 32 % 64 ≠ 0 ∧ natOfBytes (((List.replicate 64 (1 : Byte)).drop 7).take 1) ≠ 0 := by decide +kernel
/-- A flit as its link brings it, with its CRC, or with another word in its place. -/
def flitOf (plane : BitVec 2) (body : FlitBody) (bad : Word) : Flit :=
  let f : Flit := { link := 23, crc := 0, source := 7, dest := 0, plane := plane, credits := 0, seq := 0, slots := [{ lodging := 0, core := 0, body := body }] }
  { f with crc := Config.crc64 (flitBody f) + bad }
theorem flit_ok (plane : BitVec 2) (body : FlitBody) : flitOk (flitOf plane body 0) = true := by
  show (Config.crc64 (flitBody (flitOf plane body 0)) + 0 == Config.crc64 (flitBody (flitOf plane body 0))) = true
  simp
theorem flit_bad (plane : BitVec 2) (body : FlitBody) : flitOk (flitOf plane body 1) = false := by
  show (Config.crc64 (flitBody (flitOf plane body 1)) + 1 == Config.crc64 (flitBody (flitOf plane body 1))) = false
  simp
theorem witness_PortEvents_replies :
    (∀ b, let y : ReplyQ := { (default : ReplyQ) with isSet := true, credits := 1, seq := 1, waiting := [(2, 0, 0, 5)], begun := b }
      let s := machine.updLodging 1 fun l => { l with replies := [(15, y)] }
      (mapGet (s.lodging 1).replies 15).waiting = [(2, 0, 0, 5)] ∧ y.isSet = true ∧ y.credits ≠ 0 ∧ 2 ≠ 1 ∧ s.req 0 = none) ∧
    (∀ plane b bad, let f := flitOf plane b bad
     f.dest.toNat = machine.fuses.device ∧ f.link < machine.fuses.links ∧ mapGet machine.failedLinks f.link = false ∧ f.slots.length ≤ 3 ∧
       f.plane = plane ∧ f.slots = [{ lodging := 0, core := 0, body := b }] ∧ f.seq.toNat = (machine.pair (7, 1)).next % 2 ^ 16) ∧
    (∀ plane b, flitOk (flitOf plane b 0) = true ∧ flitOk (flitOf plane b 1) = false) ∧ (1 : BitVec 2) ≠ 3 :=
  ⟨fun b => by cases b <;> decide +kernel, fun _ _ _ => ⟨show 0 = machine.fuses.device by decide +kernel, show 23 < machine.fuses.links by decide +kernel,
    show mapGet machine.failedLinks 23 = false by decide +kernel, show 1 ≤ 3 by decide, rfl, rfl, show 0 = (machine.pair (7, 1)).next % 2 ^ 16 by decide +kernel⟩,
    fun p b => ⟨flit_ok p b, flit_bad p b⟩, by decide⟩

theorem witness_LodgingEvents_switch :
    ((under machine (.fence true true 2) .station).flying 0 ≠ 0) ∧
    (let q := { request (.fence true true 2) .station with lodging := 1 }
     let s := { machine.updLodging 1 (fun l => { l with gated := true }) with reqs := [q], cycle := 32768 }
     s.req 1 = some q ∧ q.lodging = 1 ∧ (s.lodging 1).gated = true ∧ q.stage ≠ .queued ∧ (s.lodging 1).gateCycle.toNat + 32768 ≤ s.cycle.toNat) ∧
    (let s := (machine.updLodging 1 fun l => { l with map := [5], saveAddr := some 0x1000, phase := 3 }).updCore 5 fun c => { c with lodging := 1, logical := 1 }
     (s.lodging 1).map[0]? = some 5 ∧ (s.lodging 1).saveAddr = some 0x1000 ∧ (s.lodging 1).phase = 3 ∧ 0 ∉ (s.lodging 1).done ∧ (s.core 5).lodging = 1 ∧
       (s.core 5).logical = 0 + 1 ∧ s.image 0x1000 1 0 = none) ∧
    (let s := machine.updCore 5 fun c => { c with w := { c.w with saved := [(2, 1)] } }
     stoOfKind 2 = some .w ∧ mapGet ((s.core 5).store .w).saved 2 ≠ 0) ∧
    (let s := machine.updLodging 0 fun l => { l with drainZero := 1, phase := 2 }
     s.flying 0 = 0 ∧ 0 < (s.lodging 0).drainZero ∧ (s.lodging 0).drainTotal = (s.lodging 0).sent ∧ (s.lodging 0).phase = 2) ∧
    machine.router 0 1 = some 1 ∧ machine.reqs = [] := by decide +kernel
theorem witness_LodgingEvents_ends :
    (let s := machine.updLodging 1 fun l => { l with map := [5], migrating := some (0, 6, 0, 0x100) }
     (s.lodging 1).migrating = some (0, 6, 0, 0x100) ∧ (s.lodging 1).map[0]? = some 5 ∧ (s.core 5).enginesRun = false ∧
       ∀ p ∈ s.pairedWith 5, (s.core p).enginesRun = false) ∧
    (let s := { machine.updLodging 1 (fun l => { l with live := true, phase := 4 }) with cycle := BitVec.ofNat 64 lodgingLimit }
     (s.lodging 1).live = true ∧ 1 ≤ (s.lodging 1).phase ∧ (s.lodging 1).phase ≤ 4 ∧ (s.lodging 1).watch = 0 ∧
       (s.lodging 1).gateCycle.toNat + lodgingLimit ≤ s.cycle.toNat) ∧
    (let s := { machine.updLodging 1 (fun l => { l with live := true, watch := 1 }) with cycle := BitVec.ofNat 64 deviceLimit }
     (s.lodging 1).live = true ∧ (s.lodging 1).ending = 0 ∧ (s.lodging 1).watch ≠ 0 ∧ (s.lodging 1).changedAt.toNat < (s.lodging 1).watch ∧
       (s.lodging 1).watch + deviceLimit ≤ s.cycle.toNat + 1) ∧
    (let s := machine.updLodging 1 fun l => { l with live := true, ending := 0x21, map := [5] }
     (s.lodging 1).ending ≠ 0 ∧ (s.lodging 1).live = true ∧ s.reqs = [] ∧ ∀ r ∈ (s.lodging 1).map, (s.core r).porter = [] ∧ (s.core r).mx = []) := by
  decide +kernel

theorem witness_PlatformEvents_units :
    (let s := machine.updCore 0 fun c => { c with w := { c.w with corr := [(8, true)] } }
     mapGet ((s.core 0).store .w).corr 8 = true) ∧
    (let es : List Word := 0 :: (List.replicate 63 5 ++ [2 ^ 30])
     let s := machine.updCore 0 fun c => { c with errors := [(3, es)] }
     (mapGet (s.core 0).errors 3).length = 65 ∧ (mapGet (s.core 0).errors 3).head? = some 0 ∧ (mapGet (s.core 0).errors 3).getLast? = some (2 ^ 30) ∧
       (2 ^ 30 : Word).toNat - (0 : Word).toNat ≤ 2 ^ 30) ∧
    (let e : Eff := .testRun 0 3 255 0x100
     let s := { under machine e .waiting with tests := [(0, 3, 255, 9, 1)] }
     (s.tests.find? fun t => t.1 == 0) = some (0, 3, 255, 9, 1) ∧ s.req 1 = some (request e .waiting)) := by decide +kernel
theorem witness_PlatformEvents_rounds :
    (let d : MemAddr := { kind := 5, space := 0, va := 0x200 }
     let a : Area := { x := 0, y := 0, w := 1, h := 1, cores := [0] }
     let e : Eff := .statSum d 0x100 [] a
     let s := { under machine e .waiting with sums := [(0, 0, 1, 0, 1)] }
     (s.sums.filter fun e => e.1 == 0 && e.2.1 == 0 && e.2.2.1 == 1) = [(0, 0, 1, 0, 1)] ∧ s.req 1 = some (request e .waiting) ∧
       s.areaCores 0 a = [0]) ∧
    (let d : MemAddr := { kind := 5, space := 0, va := 0x200 }
     let e : Eff := .statSum d 0x100 [] default
     let st : Stage := .ready (.loc 0 .s 0)
     Standing (under machine e st) 1 (request e st) st ∧ (under machine e st).barred (request e st) = false ∧
       (match (under machine e st).sumPlace (request e st) d with | .ok (.loc 0 .s 0x200) _ => true | _ => false) = true) ∧
    (let s := { machine.updCore 4097 (fun c => { c with switching := 1, switchAt := 5 }) with boot := 1, cycle := 900000 }
     isSteward 4096 = true ∧ s.boot = 1 ∧ (s.core 4096).switching = 0 ∧ 4097 ∈ stewardCores ∧ (s.core 4097).switching ≠ 0 ∧
       (s.core 4097).switchAt.toNat + handoverAfter ≤ s.cycle.toNat ∧
       (s.updCore 4097 fun c => { c with switching := 2 }).oldRuns 4097 7 = false) ∧
    (let s := machine.updCore 4096 fun c => { c with switching := 1 }
     (s.core 4096).switching = 1 ∧ (s.updCore 4096 fun c => { c with switching := 2 }).failCalls.oldRuns 4096 7 = false) := by
  refine ⟨by decide +kernel, ⟨⟨rfl, rfl⟩, by decide +kernel⟩, by decide +kernel⟩

/-! The whole machine. -/

theorem witness_StepRunsTheDecodedInstruction :
    (let s := State.reset.withFetchWord 32 0x0C03FFFF
     s.schedule = (0, .fire 0 0 0) :: [(0, .event .reset)] ∧ (s.slot 0 0).blk.phase = 2 ∧ (s.slot 0 0).blk.words[0]? = some 0x0C03FFFF ∧
       decodeTableWord 32 0x0C03FFFF = some (.null 0 0x1FF 0x1FF) ∧ (s.slot 0 0).twin = none ∧
       (let t := { s with cycle := s.cycle + BitVec.ofNat 64 0, schedule := [(0, .event .reset)], tick := s.tick + 1 }
        t.kept 0 0 0 = true ∧ t.kept 0 0 1 = false ∧ t.firstOf 0 (t.readyOf 0 3) = some (0, 0) ∧ t.readyOf 0 0 = [])) ∧
    State.reset.schedule = [(0, .event .reset)] ∧ encode .reset = 0 := by decide +kernel
theorem witness_EveryInstructionDecodesBack : WellFormed (.qld 0 63 8 0xFFF) = true ∧ encode (.qld 0 63 8 0xFFF) ≠ 0 := by decide +kernel
theorem witness_EveryStepGoesOnAndKeepsMemoriesCanonical : State.reset.memoryOk = true ∧ (withSpaces machine).memoryOk = true := by decide +kernel
theorem witness_TrapAndReturn : machine.trapQueue (machine.core 0).lodging = none := by decide +kernel
theorem witness_FiringFrame : plainRow .mov = true ∧ goesOn (exec (build .mov 0x0E03FFFF) (three (num 1) (num 0) (num 0))) = true ∧
    (match exec (build .mov 0x0E03FFFF) (three (num 1) (num 0) (num 0)) with
     | .next t => decide ((t.slot 0 0).blk.phase = 2)
     | _ => false) = true := by decide +kernel

/-- A lodging with a trap queue, whose core has no twin: byte 0 of its S is none that a trap record may write. -/
theorem witness_FiringFrame_trap : let s := withQueue (three (num 1) (num 1) (num 0))
    s.trapQueue 0 = some (0, 0x100) ∧ ((s.core 0).slots.all fun e => e.2.twin.isNone) = true ∧ ¬ trapByte s 0 0 0 ∧
    goesOn (exec (build .cadd 0x2403FFFF) s) = true := by
  refine ⟨by decide +kernel, by decide +kernel, fun h => ?_, by decide +kernel⟩
  obtain ⟨off, h, h'⟩ := h
  rw [show State.trapQueue (withQueue (three (num 1) (num 1) (num 0))) 0 = some (0, 0x100) by decide +kernel] at h
  injection h with h; injection h with _ h; subst h
  revert h'; decide +kernel

end Sys2Proof.Tests
end

section
/-! The obligation of the family 00_scope: every step goes on to a next state and keeps the memories in canonical form (O58, log 4). A function
of the state either leaves HBM, far memory and the host's memory as they are (`SameMem`, one frame rule for each) or writes one of them
through `writeBytes` or `writeMasked` (`Canonical`, one rule for each); `Answers` says of an outcome that it is a next state. -/

namespace Sys2Proof.Machine

/-! ## What leaves the three memories -/

/-- HBM, far memory and the host's memory are in `t` as they are in `s`. -/
@[simp] abbrev SameMem (s t : State) : Prop := t.hbm = s.hbm ∧ t.far = s.far ∧ t.host = s.host
theorem SameMem.refl (s : State) : SameMem s s := ⟨rfl, rfl, rfl⟩
theorem SameMem.trans {s t u : State} (h : SameMem s t) (g : SameMem t u) : SameMem s u :=
  ⟨g.1.trans h.1, g.2.1.trans h.2.1, g.2.2.trans h.2.2⟩
theorem SameMem.ite {s t u : State} {p : Prop} [Decidable p] (ht : SameMem s t) (hu : SameMem s u) : SameMem s (if p then t else u) := by
  split
  · exact ht
  · exact hu
@[simp] theorem sameMem_ite {p : Prop} [Decidable p] {t u : State} : (if p then t else u).hbm = (if p then t.hbm else u.hbm) ∧
    (if p then t else u).far = (if p then t.far else u.far) ∧ (if p then t else u).host = (if p then t.host else u.host) :=
  ⟨apply_ite .., apply_ite .., apply_ite ..⟩
@[simp] theorem sameMem_foldl {β : Type} {f : State → β → State} (h : ∀ s b, SameMem s (f s b)) (bs : List β) (s : State) :
    SameMem s (bs.foldl f s) := by
  induction bs generalizing s with
  | nil => exact .refl s
  | cons b bs ih => exact (h s b).trans (ih _)
theorem Queued.sameMem {s t : State} (h : Queued s t) : SameMem s t :=
  ⟨(congrArg State.hbm h.rest :), (congrArg State.far h.rest :), (congrArg State.host h.rest :)⟩
theorem Released.sameMem {s t : State} (h : Released s t) : SameMem s t :=
  ⟨(congrArg State.hbm h.rest :), (congrArg State.far h.rest :), (congrArg State.host h.rest :)⟩


/-! ### The functions of Sys2Proof/Machine/Ops.lean -/
@[simp] theorem sameMem_setCore (s : State) (r : Nat) (c : Core) : SameMem s (s.setCore r c) := ⟨rfl, rfl, rfl⟩
@[simp] theorem sameMem_updCore (s : State) (r : Nat) (f : Core → Core) : SameMem s (s.updCore r f) := ⟨rfl, rfl, rfl⟩
@[simp] theorem sameMem_setSlot (s : State) (r k : Nat) (x : Slot) : SameMem s (s.setSlot r k x) := ⟨rfl, rfl, rfl⟩
@[simp] theorem sameMem_updSlot (s : State) (r k : Nat) (f : Slot → Slot) : SameMem s (s.updSlot r k f) := ⟨rfl, rfl, rfl⟩
@[simp] theorem sameMem_updBlk (s : State) (r k : Nat) (f : Blk → Blk) : SameMem s (s.updBlk r k f) := ⟨rfl, rfl, rfl⟩
@[simp] theorem sameMem_updLodging (s : State) (n : Nat) (f : Lodging → Lodging) : SameMem s (s.updLodging n f) := ⟨rfl, rfl, rfl⟩
@[simp] theorem sameMem_count (s : State) (r e n : Nat) : SameMem s (s.count r e n) := ⟨rfl, rfl, rfl⟩
@[simp] theorem sameMem_countBlock (s : State) (r k e n : Nat) : SameMem s (s.countBlock r k e n) := by
  unfold State.countBlock
  split <;> simp
@[simp] theorem sameMem_noteError (s : State) (r unit : Nat) : SameMem s (s.noteError r unit) := ⟨rfl, rfl, rfl⟩
@[simp] theorem sameMem_issue (s : State) (act : ActId) (lodging : Nat) (launch : W32) (block : Word) (idx : Nat) (e : Eff) (st : Stage) :
    SameMem s (s.issue act lodging launch block idx e st) := ⟨rfl, rfl, rfl⟩
@[simp] theorem sameMem_updReq (s : State) (id : Nat) (f : Req → Req) : SameMem s (s.updReq id f) := ⟨rfl, rfl, rfl⟩
@[simp] theorem sameMem_setStage (s : State) (id : Nat) (st : Stage) : SameMem s (s.setStage id st) := ⟨rfl, rfl, rfl⟩
@[simp] theorem sameMem_answer (s : State) (id : Nat) (r : Resp) : SameMem s (s.answer id r) := ⟨rfl, rfl, rfl⟩
@[simp] theorem sameMem_dropReq (s : State) (id : Nat) : SameMem s (s.dropReq id) := ⟨rfl, rfl, rfl⟩
@[simp] theorem sameMem_storeS (s : State) (r off : Nat) (bs : List Byte) (tag : Bool) : SameMem s (s.storeS r off bs tag) := ⟨rfl, rfl, rfl⟩
@[simp] theorem sameMem_repairStore (s : State) (r : Nat) (k : Sto) (a n : Nat) : SameMem s (s.repairStore r k a n) := by
  simp [State.repairStore]
@[simp] theorem sameMem_qPush (s : State) (r off : Nat) (m : Msg) : SameMem s (s.qPush r off m).1 := (Queued.qPush s r off m).sameMem
@[simp] theorem sameMem_toRing (s : State) (r : Nat) (st : Start) : SameMem s (s.toRing r st) := by
  simp [State.toRing]
@[simp] theorem sameMem_runHandlers (s : State) (r off n : Nat) : SameMem s (s.runHandlers r off n) := (Queued.runHandlers s r off n).sameMem
@[simp] theorem sameMem_admitSendw (s : State) (r off n : Nat) : SameMem s (s.admitSendw r off n) := (Queued.admitSendw s r off n).sameMem
@[simp] theorem sameMem_serveQueue (s : State) (r off n : Nat) : SameMem s (s.serveQueue r off n) := (Queued.serveQueue s r off n).sameMem
@[simp] theorem sameMem_deliver (s : State) (r off : Nat) (m : Msg) : SameMem s (s.deliver r off m) := (Queued.deliver s r off m).sameMem
theorem sameMem_tryDeliver {s t : State} {r off : Nat} {m : Msg} (h : s.tryDeliver r off m = some t) : SameMem s t := (Queued.tryDeliver h).sameMem
theorem sameMem_writeTrap {s t : State} {n : Nat} {rec : V512} {sender : Nat} (h : s.writeTrap n rec sender = some t) :
    SameMem s t := (Queued.writeTrap h).sameMem
@[simp] theorem sameMem_freeClaimPlace (s : State) (lodging : Nat) (n : Word) : SameMem s (s.freeClaimPlace lodging n) := by
  unfold State.freeClaimPlace
  split <;> simp
@[simp] theorem sameMem_giveBack (s : State) (r device kind : Nat) (o : Word) : SameMem s (s.giveBack r device kind o) := ⟨rfl, rfl, rfl⟩
@[simp] theorem sameMem_release (s : State) (r k : Nat) : SameMem s (s.release r k) := (Released.release s r k).sameMem
@[simp] theorem sameMem_takeTrap (s : State) (r k : Nat) (t : Trap) (index : W32) (flags : Nat) : SameMem s (s.takeTrap r k t index flags) := by
  unfold State.takeTrap
  dsimp only
  split
  · next h => simp [sameMem_writeTrap h]
  · simp
@[simp] theorem sameMem_resume (s : State) (r k : Nat) (addr : Word) : SameMem s (s.resume r k addr) := ⟨rfl, rfl, rfl⟩
@[simp] theorem sameMem_mark (s : State) (r k i n : Nat) : SameMem s (s.mark r k i n) := by
  simp [State.mark]
@[simp] theorem sameMem_abort (c : Ctx) (t : Trap) : SameMem c.s (c.abort t) := by
  simp [Ctx.abort]
@[simp] theorem sameMem_send (s : State) (r k : Nat) (t : BitVec 9) (v : Value) : SameMem s (s.send r k t v) := by
  simp [State.send]
@[simp] theorem sameMem_finish (c : Ctx) (f : Form) (x : Fired) : SameMem x.s (c.finish f x) := by
  simp [Ctx.finish]
@[simp] theorem sameMem_waitsAway (s : State) (r k : Nat) : SameMem s (s.waitsAway r k) := ⟨rfl, rfl, rfl⟩
@[simp] theorem sameMem_act (c : Ctx) (a : Act) : SameMem c.s (c.act a) := ⟨rfl, rfl, rfl⟩

/-! ### The functions of Sys2Proof/Machine/Operands.lean -/
@[simp] theorem sameMem_complete (c : Ctx) (s : State) (reg : Nat) (d : RegDone) : SameMem s (c.complete s reg d) := by
  simp [Ctx.complete]
@[simp] theorem sameMem_nullLanding (reg : Nat) (c : Ctx) : SameMem c.s (nullLanding reg c) := by
  simp [nullLanding]
@[simp] theorem sameMem_nullStore (lsid : Nat) (c : Ctx) : SameMem c.s (nullStore lsid c) := ⟨rfl, rfl, rfl⟩
@[simp] theorem sameMem_exitWith (c : Ctx) (e : Exit) : SameMem c.s (c.exitWith e) := by
  simp [Ctx.exitWith]
@[simp] theorem sameMem_ask (c : Ctx) (s : State) (a : Ask) : SameMem s (c.ask s a) := ⟨rfl, rfl, rfl⟩

/-! ### The functions of Sys2Proof/Machine/Failed.lean -/
@[simp] theorem sameMem_queueReply (s : State) (lodging queue kind sender req : Nat) (body : V512) :
    SameMem s (s.queueReply lodging queue kind sender req body) := ⟨rfl, rfl, rfl⟩
@[simp] theorem sameMem_report (s : State) (r unit code : Nat) (upTo : Word) (lodging : Nat) : SameMem s (s.report r unit code upTo lodging) := by
  simp [State.report]
@[simp] theorem sameMem_failUnit (s : State) (r unit code : Nat) : SameMem s (s.failUnit r unit code) := by
  simp [State.failUnit]
@[simp] theorem sameMem_reportExcluded (s : State) (r : Nat) : SameMem s (s.reportExcluded r) := by
  simp [State.reportExcluded]

/-! ### The functions of Sys2Proof/Machine/Control.lean -/
@[simp] theorem sameMem_restart (s : State) (r k : Nat) : SameMem s (s.restart r k) := by
  simp [State.restart]
@[simp] theorem sameMem_rerun (s : State) (r k i : Nat) : SameMem s (s.rerun r k i) := by
  simp [State.rerun]
@[simp] theorem sameMem_consumeBad (s : State) (r k i unit : Nat) : SameMem s (s.consumeBad r k i unit) := by
  simp [State.consumeBad]
@[simp] theorem sameMem_repairReg (s : State) (r k g : Nat) : SameMem s (s.repairReg r k g) := ⟨rfl, rfl, rfl⟩
@[simp] theorem sameMem_repairInbox (s : State) (r : Nat) : SameMem s (s.repairInbox r) := by
  simp [State.repairInbox]

/-! ### The functions of Sys2Proof/Machine/Queued.lean -/
@[simp] theorem sameMem_landing (c : Ctx) (reg : BitVec 6) (e : Eff) : SameMem c.s (c.landing reg e) := by
  simp [Ctx.landing]

/-! ### The functions of Sys2Proof/Machine/Sync.lean -/
@[simp] theorem sameMem_ask2 (c : Ctx) (s : State) (a : Ask) : SameMem s (c.ask2 s a) := ⟨rfl, rfl, rfl⟩
@[simp] theorem sameMem_later (c : Ctx) (s : State) : SameMem s (c.later s) := ⟨rfl, rfl, rfl⟩

/-! ### The functions of Sys2Proof/Machine/Translate.lean -/
@[simp] theorem sameMem_setHbmTag (s : State) (g : Nat) (b : Bool) : SameMem s (s.setHbmTag g b) := ⟨rfl, rfl, rfl⟩
@[simp] theorem sameMem_updStation (s : State) (n : Nat) (f : Station → Station) : SameMem s (s.updStation n f) := ⟨rfl, rfl, rfl⟩
@[simp] theorem sameMem_putRecord (s : State) (station : Nat) (e : FaultEntry) : SameMem s (s.putRecord station e) := by
  unfold State.putRecord
  dsimp only
  (repeat' split) <;> simp
@[simp] theorem sameMem_placeRecord (s : State) (station : Nat) (e : FaultEntry) : SameMem s (s.placeRecord station e).1 := by
  unfold State.placeRecord
  dsimp only
  split <;> simp
@[simp] theorem sameMem_park (s : State) (station : Nat) (e : FaultEntry) : SameMem s (s.park station e) := by
  simp [State.park]
/-- A translation that waits has at most been asked for (R386). -/
theorem sameMem_seek {s t : State} {core lodging : Nat} {w : Seeker} {a : MemAddr} {access : Nat} {block : Word}
    (h : s.seek core lodging w a access block = .wait t) : SameMem s t := by
  unfold State.seek at h
  dsimp only at h
  (repeat' split at h) <;> cases h <;> simp
theorem sameMem_peerLine {s t : State} {core lodging : Nat} {w : Seeker} {device : Nat} {a : MemAddr}
    (h : s.peerLine core lodging w device a = .wait t) : SameMem s t := by
  unfold State.peerLine at h
  dsimp only at h
  (repeat' split at h) <;> cases h <;> simp
@[simp] theorem sameMem_dropLines (s : State) (core : Nat) (w : Seeker) : SameMem s (s.dropLines core w) := ⟨rfl, rfl, rfl⟩

/-! ### The functions of Sys2Proof/Machine/System.lean -/
@[simp] theorem sameMem_reserveRecord (c : Ctx) (s : State) (r k : Nat) : SameMem s (c.reserveRecord s r k) := ⟨rfl, rfl, rfl⟩

/-! ### The functions of Sys2Proof/Machine/Land.lean -/
@[simp] theorem sameMem_land (s : State) (id : Nat) (f : Reg → Reg) : SameMem s (s.land id f) := ⟨rfl, rfl, rfl⟩
@[simp] theorem sameMem_freeLot (s : State) (r : Nat) (k : Sto) (u : Nat) : SameMem s (s.freeLot r k u) := ⟨rfl, rfl, rfl⟩
@[simp] theorem sameMem_freeRun (s : State) (r : Nat) (k : Sto) (run : Run) : SameMem s (s.freeRun r k run) := by
  simp [State.freeRun]
@[simp] theorem sameMem_reclaim (s : State) (r : Nat) : SameMem s (s.reclaim r) := by
  simp [State.reclaim]
@[simp] theorem sameMem_reclaimAll (s : State) : SameMem s (s.reclaimAll) := by
  simp [State.reclaimAll]
@[simp] theorem sameMem_scanOut (s : State) (r : Nat) (k : Sto) (u : Nat) : SameMem s (s.scanOut r k u) := by
  simp [State.scanOut]
@[simp] theorem sameMem_takeRun (s : State) (r k : Nat) (st : Sto) (run : Run) (fresh : Nat → Bool) : SameMem s (s.takeRun r k st run fresh) := by
  simp [State.takeRun]

/-! ### The functions of Sys2Proof/Machine/Block.lean -/
theorem sameMem_codeRead {s t : State} {r : Nat} {w : Seeker} {space : Nat} {va : Word} {access : Nat} {block : Word}
    (h : s.codeRead r w space va access block = .wait t) : SameMem s t := by
  grind [State.codeRead, sameMem_seek, sameMem_peerLine]
theorem sameMem_fetchLines {s t : State} {r k space u n : Nat} (h : s.fetchLines r k space u n = .wait t) : SameMem s t := by
  induction n generalizing u with
  | zero => cases h
  | succ n ih => grind [State.fetchLines, sameMem_codeRead, sameMem_updCore]
theorem sameMem_fetch {s t : State} {r k n : Nat} (h : s.fetch r k n = .wait t) : SameMem s t := by
  grind [State.fetch, sameMem_fetchLines]
@[simp] theorem sameMem_decoded (s : State) (r k : Nat) (h : Header) (ws : List W32) (live : Word) : SameMem s (s.decoded r k h ws live) := by
  unfold State.decoded
  dsimp only
  split <;> simp
@[simp] theorem sameMem_fetchTrap (s : State) (r k : Nat) (t : Trap) (index : W32) : SameMem s (s.fetchTrap r k t index) := by
  simp [State.fetchTrap]
@[simp] theorem sameMem_decodeBytes (s : State) (r k : Nat) (h : Header) (bs : List Byte) : SameMem s (s.decodeBytes r k h bs) := by
  unfold State.decodeBytes
  dsimp only
  (repeat' split) <;> simp

/-! ### The functions of Sys2Proof/Machine/Objects.lean -/
@[simp] theorem sameMem_arrive (s : State) (r : Nat) (st : Start) : SameMem s (s.arrive r st).1 := by
  unfold State.arrive
  dsimp only
  (repeat' split) <;> simp
@[simp] theorem sameMem_admitArrivals (s : State) (r n : Nat) : SameMem s (s.admitArrivals r n) := by
  induction n generalizing s with
  | zero => exact .refl s
  | succ n ih => unfold State.admitArrivals; (repeat' split) <;> simp [ih]
@[simp] theorem sameMem_giveRun (s : State) (r : Nat) (b : Binding) : SameMem s (s.giveRun r b) := ⟨rfl, rfl, rfl⟩
@[simp] theorem sameMem_placeCounter (s : State) (r off : Nat) : SameMem s (s.placeCounter r off) := by
  simp [State.placeCounter]
@[simp] theorem sameMem_landCounter (s : State) (r off : Nat) : SameMem s (s.landCounter r off) := by
  simp [State.landCounter]
@[simp] theorem sameMem_counterZero (s : State) (r off : Nat) : SameMem s (s.counterZero r off) := by
  simp [State.counterZero]
@[simp] theorem sameMem_discharge (s : State) (r off n : Nat) (broken : Bool) : SameMem s (s.discharge r off n broken) := by
  simp [State.discharge]
@[simp] theorem sameMem_breakObs (s : State) (act : ActId) (lodging : Nat) (launch : W32) (block : Word) (code : Byte) (es : List Ob) :
    SameMem s (s.breakObs act lodging launch block code es) := by
  simp [State.breakObs]
@[simp] theorem sameMem_homeSettle (s : State) (core lodging : Nat) (claim : Word) (code : Byte) :
    SameMem s (s.homeSettle core lodging claim code) := ⟨rfl, rfl, rfl⟩
@[simp] theorem sameMem_breakInvocation (s : State) (core : Nat) (i : Invocation) (code : Byte) : SameMem s (s.breakInvocation core i code) := by
  simp [State.breakInvocation]
@[simp] theorem sameMem_dropChain (s : State) (lodging : Nat) (claim : Word) : SameMem s (s.dropChain lodging claim) := by
  unfold State.dropChain
  split <;> simp
@[simp] theorem sameMem_tellForwarded (s : State) (r lodging : Nat) (claim : Word) : SameMem s (s.tellForwarded r lodging claim) := by
  simp [State.tellForwarded]
@[simp] theorem sameMem_forward (s : State) (r idx : Nat) (x : Claim) (i : Invocation) (at' : Nat) : SameMem s (s.forward r idx x i at') := by
  grind [State.forward, sameMem_codeRead, sameMem_issue, sameMem_breakInvocation, sameMem_tellForwarded]
@[simp] theorem sameMem_settleAt (s : State) (r i : Nat) (v : Value) (code : Byte) : SameMem s (s.settleAt r i v code) := by
  simp [State.settleAt]
@[simp] theorem sameMem_settle (s : State) (lodging : Nat) (claim : Word) (v : Value) (code : Byte) : SameMem s (s.settle lodging claim v code) := by
  unfold State.settle
  (repeat' split) <;> simp
@[simp] theorem sameMem_performWait (s : State) (q : Req) (st : Bool) (kind : Nat) (o : Word) : SameMem s (s.performWait q st kind o) := by
  unfold State.performWait
  dsimp only
  (repeat' split) <;> simp
@[simp] theorem sameMem_landReceipt (s : State) (r off : Nat) : SameMem s (s.landReceipt r off) := by
  simp [State.landReceipt]
@[simp] theorem sameMem_putReceipt (s : State) (r off w0 w1 : Nat) : SameMem s (s.putReceipt r off w0 w1) := by
  simp [State.putReceipt]
@[simp] theorem sameMem_receiptUnits (s : State) (r off n : Nat) : SameMem s (s.receiptUnits r off n) := by
  simp [State.receiptUnits]
@[simp] theorem sameMem_receiptEnd (s : State) (r off code cursor : Nat) : SameMem s (s.receiptEnd r off code cursor) := by
  simp [State.receiptEnd]
@[simp] theorem sameMem_receiptCursor (s : State) (r off cursor : Nat) : SameMem s (s.receiptCursor r off cursor) := by
  simp [State.receiptCursor]
@[simp] theorem sameMem_binderEnds (s : State) (r k : Nat) : SameMem s (s.binderEnds r k) := by
  simp [State.binderEnds]
@[simp] theorem sameMem_dropRun (s : State) (r : Nat) (b : Binding) : SameMem s (s.dropRun r b) := by
  unfold State.dropRun
  split <;> simp
@[simp] theorem sameMem_untake (s : State) (a : ActId) : SameMem s (s.untake a) := ⟨rfl, rfl, rfl⟩
@[simp] theorem sameMem_dropWaiters (s : State) (a : ActId) : SameMem s (s.dropWaiters a) := by
  simp [State.dropWaiters]
@[simp] theorem sameMem_endTwin (s : State) (x : Slot) : SameMem s (s.endTwin x) := by
  unfold State.endTwin
  split <;> simp
@[simp] theorem sameMem_endActivity (s : State) (r k : Nat) : SameMem s (s.endActivity r k) := by
  unfold State.endActivity
  dsimp only
  (repeat' split) <;> simp

/-! ### The functions of Sys2Proof/Machine/Commit.lean -/
@[simp] theorem sameMem_repairFor (s : State) (r : Nat) (a : Option Act) : SameMem s (s.repairFor r a) := by
  unfold State.repairFor
  split <;> simp
@[simp] theorem sameMem_repairChecked (s : State) (r k upTo : Nat) : SameMem s (s.repairChecked r k upTo) := by
  simp [State.repairChecked]
@[simp] theorem sameMem_twinStores (s : State) (x : Slot) : SameMem s (s.twinStores x) := by
  unfold State.twinStores
  split <;> simp
@[simp] theorem sameMem_sysWrite (s : State) (r k : Nat) (n : Nat) (v : Word) : SameMem s (s.sysWrite r k n v) := by
  simp [State.sysWrite]
@[simp] theorem sameMem_enter (s : State) (r k : Nat) (i : Nat) (e : Eff) : SameMem s (s.enter r k i e) := by
  unfold State.enter
  dsimp only
  split <;> simp
@[simp] theorem sameMem_step3 (s : State) (r k : Nat) (p : Plan) : SameMem s (s.step3 r k p) := by
  unfold State.step3
  dsimp only
  split <;> simp
@[simp] theorem sameMem_step4 (s : State) (r k : Nat) (p : Plan) : SameMem s (s.step4 r k p) := by
  simp [State.step4]
@[simp] theorem sameMem_cusTake (s : State) (me : ActId) (r k : Nat) : SameMem s (s.cusTake me r k) := ⟨rfl, rfl, rfl⟩
@[simp] theorem sameMem_cusGive (s : State) (r k mask r2 k2 : Nat) (st : Option Start) : SameMem s (s.cusGive r k mask r2 k2 st) := by
  unfold State.cusGive
  split <;> simp
@[simp] theorem sameMem_cusBreak (s : State) (r k : Nat) (code : Byte) (endIt : Bool) : SameMem s (s.cusBreak r k code endIt) := by
  simp [State.cusBreak]
@[simp] theorem sameMem_custodyAct (s : State) (me : ActId) (n0 : Eff) : SameMem s (s.custodyAct me n0) := by
  unfold State.custodyAct
  split <;> simp
@[simp] theorem sameMem_step5 (s : State) (r k : Nat) (p : Plan) : SameMem s (s.step5 r k p) := by
  unfold State.step5
  refine SameMem.trans ?_ (sameMem_foldl (fun s e => ?_) _ _)
  · simp
  · split <;> simp
@[simp] theorem sameMem_restartPeekers (s : State) (r k port : Nat) : SameMem s (s.restartPeekers r k port) := by
  simp [State.restartPeekers]
@[simp] theorem sameMem_step6 (s : State) (r k : Nat) (p : Plan) : SameMem s (s.step6 r k p) := by
  unfold State.step6
  refine SameMem.trans ?_ (sameMem_foldl (fun s e => ?_) _ _)
  · simp
  · split <;> simp
@[simp] theorem sameMem_moveLots (s : State) (r k : Nat) (keep : Word) (runs : List (Sto × Run)) (holdS : Bool) :
    SameMem s (s.moveLots r k keep runs holdS) := by
  simp [State.moveLots]
@[simp] theorem sameMem_moveBinds (s : State) (r : Nat) (hit : Binding → Bool) (run : Option Run) :
    SameMem s (s.moveBinds r hit run) := ⟨rfl, rfl, rfl⟩
@[simp] theorem sameMem_succeed (s : State) (r k : Nat) (p : Plan) (e : Cap) (mask keep : Word) (d : BitVec 128) :
    SameMem s (s.succeed r k p e mask keep d) := by
  unfold State.succeed
  dsimp only
  split <;> simp
@[simp] theorem sameMem_step7 (s : State) (r k : Nat) (p : Plan) (old : Slot) (linkId : Nat) : SameMem s (s.step7 r k p old linkId) := by
  unfold State.step7
  dsimp only
  (repeat' split) <;> simp
@[simp] theorem sameMem_applyCommit (s : State) (r k : Nat) (p : Plan) : SameMem s (s.applyCommit r k p) := by
  simp [State.applyCommit]
@[simp] theorem sameMem_diverge (s : State) (r k : Nat) : SameMem s (s.diverge r k) := by
  simp [State.diverge]
@[simp] theorem sameMem_commit (s : State) (r k : Nat) : SameMem s (s.commit r k) := by
  unfold State.commit
  dsimp only
  (repeat' split) <;> simp

/-! ### The functions of Sys2Proof/Machine/Transport.lean -/
@[simp] theorem sameMem_putFlit (s : State) (device plane : Nat) (toPlane seq : Nat) (e : FlitSlot) :
    SameMem s (s.putFlit device plane toPlane seq e) := by
  simp [State.putFlit]
@[simp] theorem sameMem_sendFlit (s : State) (device plane lodging core : Nat) (b : FlitBody) :
    SameMem s (s.sendFlit device plane lodging core b) := by
  simp [State.sendFlit]
@[simp] theorem sameMem_resend (s : State) (device plane seq : Nat) : SameMem s (s.resend device plane seq) := by
  unfold State.resend
  split <;> simp
@[simp] theorem sameMem_acceptPorter (s : State) (q : Req) (c : PorterCmd) : SameMem s (s.acceptPorter q c) := by
  simp [State.acceptPorter]
@[simp] theorem sameMem_leaves (s : State) (q : Req) (st : Stage) : SameMem s (s.leaves q st) := by
  simp [State.leaves]
@[simp] theorem sameMem_depart (s : State) (q : Req) : SameMem s (s.depart q) := by
  unfold State.depart
  dsimp only
  (repeat' split) <;> simp
@[simp] theorem sameMem_found (s : State) (q : Req) (p : Place) : SameMem s (s.found q p) := by
  simp [State.found]
@[simp] theorem sameMem_resolve (s : State) (q : Req) (a : MemAddr) (access : Nat) (l : Leaf) : SameMem s (s.resolve q a access l) := by
  simp [State.resolve]
@[simp] theorem sameMem_parkReq (s : State) (q : Req) (a : MemAddr) (access : Nat) (malformed : Bool) :
    SameMem s (s.parkReq q a access malformed) := by
  simp [State.parkReq]
@[simp] theorem sameMem_startWalk (s : State) (q : Req) (a : MemAddr) : SameMem s (s.startWalk q a) := by
  simp [State.startWalk]
@[simp] theorem sameMem_toHost (s : State) (m : HostMsg) : SameMem s (s.toHost m) := ⟨rfl, rfl, rfl⟩
@[simp] theorem sameMem_askPage (s : State) (n pasid page : Nat) : SameMem s (s.askPage n pasid page) := by
  simp [State.askPage]
@[simp] theorem sameMem_walked (s : State) (q : Req) : SameMem s (s.walked q) := by
  unfold State.walked
  (repeat' split) <;> simp
@[simp] theorem sameMem_refill (s : State) (n k : Nat) : SameMem s (s.refill n k) := by
  induction k generalizing s with
  | zero => exact .refl s
  | succ k ih => unfold State.refill; dsimp only; (repeat' split) <;> simp [ih]
@[simp] theorem sameMem_endWalk (s : State) (n req space page : Nat) : SameMem s (s.endWalk n req space page) := by
  simp [State.endWalk]
@[simp] theorem sameMem_returnCredit (s : State) (n : Nat) (own : Bool) : SameMem s (s.returnCredit n own) := by
  unfold State.returnCredit
  dsimp only
  (repeat' split) <;> simp
@[simp] theorem sameMem_pageAnswered (s : State) (n : Nat) (t : Station) (pasid page code : Nat) :
    SameMem s (s.pageAnswered n t pasid page code) := by
  simp [State.pageAnswered]
@[simp] theorem sameMem_invalidate (s : State) (tag : Nat) (drop : Leaf → Bool) : SameMem s (s.invalidate tag drop) := by
  simp [State.invalidate]
theorem sameMem_failStore {s t : State} {q : Req} {code : Byte} {addr detail : Word} (h : s.failStore q code addr detail = some t) : SameMem s t := by
  unfold State.failStore at h
  split at h
  · cases h
    simp
  · split at h
    · cases h
      simp
    · split at h
      · cases h
        simp
      · split at h
        · cases h
          exact .refl _
        · exact sameMem_writeTrap h
@[simp] theorem sameMem_soughtFails (s : State) (q : Req) (w : Seeker) (code : Byte) (addr detail : Word) :
    SameMem s (s.soughtFails q w code addr detail) := by
  unfold State.soughtFails
  dsimp only
  (repeat' split) <;> simp

/-! ### The functions of Sys2Proof/Machine/Memory.lean -/
theorem sameMem_peerLines {s t : State} {q : Req} {core lodging device : Nat} {a : MemAddr} {n : Nat}
    (h : s.peerLines q core lodging device a n = .wait t) : SameMem s t := by
  induction n generalizing a with
  | zero => cases h
  | succ n ih => grind [State.peerLines, sameMem_peerLine]
theorem sameMem_bytesRead {s t : State} {q : Req} {core lodging : Nat} {a : MemAddr} {n : Nat} (h : s.bytesRead q core lodging a n = .wait t) :
    SameMem s t := by
  grind [State.bytesRead, sameMem_seek, sameMem_peerLines]
@[simp] theorem sameMem_toAgent (s : State) (q : Req) (a : MemAddr) (p : Place) (op w : Nat) (v e : Word) (code : Nat) :
    SameMem s (s.toAgent q a p op w v e code) := by
  unfold State.toAgent
  split <;> simp
@[simp] theorem sameMem_hostAmo (s : State) (q : Req) (a : MemAddr) (p : Place) (mode op w : Nat) (v e : Word) :
    SameMem s (s.hostAmo q a p mode op w v e) := by
  simp [State.hostAmo]
@[simp] theorem sameMem_readFails (s : State) (p : Place) (code : Nat) : SameMem s (s.readFails p code) := by
  unfold State.readFails
  split <;> simp

/-! ### The functions of Sys2Proof/Machine/Lodge.lean -/
@[simp] theorem sameMem_lodgingEvent (s : State) (n : Nat) (code : Nat) : SameMem s (s.lodgingEvent n code) := ⟨rfl, rfl, rfl⟩
@[simp] theorem sameMem_serviceRec (s : State) (kind router lodging object detail : Nat) :
    SameMem s (s.serviceRec kind router lodging object detail) := ⟨rfl, rfl, rfl⟩
@[simp] theorem sameMem_discard (s : State) (r : Nat) : SameMem s (s.discard r) := by
  simp [State.discard]
@[simp] theorem sameMem_gateCore (s : State) (r : Nat) : SameMem s (s.gateCore r) := by
  simp [State.gateCore]
@[simp] theorem sameMem_leaveBack (s : State) (die n : Nat) : SameMem s (s.leaveBack die n) := ⟨rfl, rfl, rfl⟩
@[simp] theorem sameMem_ungateCore (s : State) (r : Nat) : SameMem s (s.ungateCore r) := ⟨rfl, rfl, rfl⟩
@[simp] theorem sameMem_rerouteReqs (s : State) (lodging : Nat) (f : Nat → Nat) : SameMem s (s.rerouteReqs lodging f) := ⟨rfl, rfl, rfl⟩
@[simp] theorem sameMem_rerouteCores (s : State) (lodging : Nat) (f : Nat → Nat) : SameMem s (s.rerouteCores lodging f) := ⟨rfl, rfl, rfl⟩
@[simp] theorem sameMem_saveUnits (s : State) (n k : Nat) : SameMem s (s.saveUnits n k) := by
  unfold State.saveUnits
  split <;> simp
@[simp] theorem sameMem_saveEnd (s : State) (n code : Nat) : SameMem s (s.saveEnd n code) := by
  unfold State.saveEnd
  split <;> simp
theorem sameMem_recordAt {s t : State} {q : Req} {m : MemAddr} {access : Nat} (h : s.recordAt q m access = .wait t) : SameMem s t := by
  grind [State.recordAt, sameMem_seek]
theorem sameMem_recordPages {s t : State} {q : Req} {m : MemAddr} {access n i : Nat} (h : s.recordPages q m access n i = .wait t) : SameMem s t := by
  induction n generalizing i with
  | zero => cases h
  | succ n ih => grind [State.recordPages, sameMem_recordAt]
@[simp] theorem sameMem_readForwards (s : State) (n : Nat) : SameMem s (s.readForwards n) := ⟨rfl, rfl, rfl⟩
@[simp] theorem sameMem_maskImage (s : State) (ps : List Nat) (i : Nat) : SameMem s (s.maskImage ps i) := by
  simp [State.maskImage]
@[simp] theorem sameMem_saveImage (s : State) (n logical r pa : Nat) : SameMem s (s.saveImage n logical r pa) := by
  simp [State.saveImage]
@[simp] theorem sameMem_makeRoom (s : State) (n logical r from_ : Nat) (c : Core) : SameMem s (s.makeRoom n logical r from_ c) := by
  simp [State.makeRoom]
@[simp] theorem sameMem_loadImage (s : State) (n logical r : Nat) (im : Image) : SameMem s (s.loadImage n logical r im) := ⟨rfl, rfl, rfl⟩
@[simp] theorem sameMem_loaded (s : State) (n pa : Nat) : SameMem s (s.loaded n pa) := by
  simp [State.loaded]
@[simp] theorem sameMem_listGuest (s : State) (n r : Nat) : SameMem s (s.listGuest n r) := ⟨rfl, rfl, rfl⟩
@[simp] theorem sameMem_unlistGuest (s : State) (n r : Nat) : SameMem s (s.unlistGuest n r) := ⟨rfl, rfl, rfl⟩
@[simp] theorem sameMem_moveGuest (s : State) (n : Nat) (from_ onto : List Nat) : SameMem s (s.moveGuest n from_ onto) := by
  simp [State.moveGuest]
@[simp] theorem sameMem_shadowLoad (s : State) (q : Req) (rect : Nat × Nat × Nat × Nat) (m : MemAddr) (receipt : Nat) :
    SameMem s (s.shadowLoad q rect m receipt) := by
  unfold State.shadowLoad
  split
  split
  · simp
  · exact sameMem_recordAt ‹_›
  · split
    · simp
    · refine .ite (by simp) ?_
      split
      · simp
      · exact sameMem_recordPages ‹_›
      · exact .ite (by simp) (by simp)
  · simp
@[simp] theorem sameMem_migrate (s : State) (q : Req) (n logical target receipt : Nat) : SameMem s (s.migrate q n logical target receipt) := by
  unfold State.migrate
  dsimp only
  split <;> simp
@[simp] theorem sameMem_breakStart (s : State) (r : Nat) (code : Byte) (st : Start) : SameMem s (s.breakStart r code st) := by
  simp [State.breakStart]
@[simp] theorem sameMem_breakAll (s : State) (r : Nat) (code : Byte) (c : Core) : SameMem s (s.breakAll r code c) := by
  simp [State.breakAll]
@[simp] theorem sameMem_breakCore (s : State) (r : Nat) (code : Byte) : SameMem s (s.breakCore r code) := by
  simp [State.breakCore]
@[simp] theorem sameMem_dropWalks (s : State) (gone : List Nat) : SameMem s (s.dropWalks gone) := by
  simp [State.dropWalks]
@[simp] theorem sameMem_endReqs (s : State) (n : Nat) (code : Byte) : SameMem s (s.endReqs n code) := by
  simp [State.endReqs]
@[simp] theorem sameMem_endLaunches (s : State) (n : Nat) (code : Byte) : SameMem s (s.endLaunches n code) := by
  simp [State.endLaunches]
@[simp] theorem sameMem_endFaults (s : State) (n : Nat) : SameMem s (s.endFaults n) := ⟨rfl, rfl, rfl⟩
@[simp] theorem sameMem_dropUnits (s : State) (n : Nat) : SameMem s (s.dropUnits n) := ⟨rfl, rfl, rfl⟩
@[simp] theorem sameMem_breakImages (s : State) (n : Nat) (code : Byte) : SameMem s (s.breakImages n code) := by
  simp [State.breakImages]
@[simp] theorem sameMem_endLodging (s : State) (n : Nat) (code : Byte) : SameMem s (s.endLodging n code) := by
  unfold State.endLodging
  dsimp only
  split <;> simp
@[simp] theorem sameMem_closeRoutes (s : State) (n : Nat) : SameMem s (s.closeRoutes n) := by
  simp [State.closeRoutes]
@[simp] theorem sameMem_forget (s : State) (n : Nat) : SameMem s (s.forget n) := by
  simp [State.forget]
@[simp] theorem sameMem_lodgeEnd (s : State) (q : Req) (n : Nat) (code : Byte) : SameMem s (s.lodgeEnd q n code) := by
  simp [State.lodgeEnd]
@[simp] theorem sameMem_lodgeGone (s : State) (lodging : Nat) : SameMem s (s.lodgeGone lodging) := by
  simp [State.lodgeGone]
theorem sameMem_oxkanTable {s t : State} {q : Req} {va : Word} {i n : Nat} (h : s.oxkanTable q va i n = .wait t) : SameMem s t := by
  induction n generalizing i with
  | zero => cases h
  | succ n ih => grind [State.oxkanTable, sameMem_bytesRead]
theorem sameMem_tableOf {s t : State} {q : Req} {va n : Nat} (h : s.tableOf q va n = .wait t) : SameMem s t := by
  grind [State.tableOf, sameMem_oxkanTable]
@[simp] theorem sameMem_lodgeNew (s : State) (q : Req) (rec_ : List Byte) (caps receipt : Nat) : SameMem s (s.lodgeNew q rec_ caps receipt) := by
  unfold State.lodgeNew
  dsimp only
  (repeat' split) <;> simp
  all_goals exact sameMem_tableOf ‹_›

/-! ### The functions of Sys2Proof/Machine/Home.lean -/
@[simp] theorem sameMem_stnInv (s : State) (q : Req) (space va n : Nat) : SameMem s (s.stnInv q space va n) :=
  (sameMem_invalidate ..).trans (sameMem_setStage ..)
@[simp] theorem sameMem_replayReqs (s : State) (station space page : Nat) (fail : Bool) : SameMem s (s.replayReqs station space page fail) := by
  unfold State.replayReqs
  refine sameMem_foldl (fun s q => ?_) _ _
  split <;> simp
@[simp] theorem sameMem_placeWaiting (s : State) : SameMem s (s.placeWaiting) := by
  simp [State.placeWaiting]
@[simp] theorem sameMem_stnReplay (s : State) (q : Req) (station space page : Nat) (fail : Bool) :
    SameMem s (s.stnReplay q station space page fail) := by
  unfold State.stnReplay
  dsimp only
  (repeat' split) <;> simp
@[simp] theorem sameMem_testRun (s : State) (q : Req) (core unit set receipt : Nat) : SameMem s (s.testRun q core unit set receipt) := by
  unfold State.testRun
  split <;> simp
@[simp] theorem sameMem_cancel (s : State) (q : Req) (r off : Nat) (code : Byte) : SameMem s (s.cancel q r off code) := by
  simp [State.cancel]
@[simp] theorem sameMem_settleCancels (s : State) : SameMem s (s.settleCancels) := ⟨rfl, rfl, rfl⟩
@[simp] theorem sameMem_qbind (s : State) (q : Req) (off : Nat) (b : Binding) : SameMem s (s.qbind q off b) := by
  simp [State.qbind]
@[simp] theorem sameMem_qunbind (s : State) (q : Req) (off : Nat) : SameMem s (s.qunbind q off) := by
  simp [State.qunbind]
@[simp] theorem sameMem_launchArrives (s : State) (q : Req) (l : Launch) : SameMem s (s.launchArrives q l) := by
  simp [State.launchArrives]
@[simp] theorem sameMem_waitArrives (s : State) (q : Req) (st : Bool) (kind : Nat) (o : Word) : SameMem s (s.waitArrives q st kind o) := by
  unfold State.waitArrives
  split <;> simp

/-! ### The functions of Sys2Proof/Machine/Answer.lean -/
@[simp] theorem sameMem_yields (s : State) (r k i : Nat) (v0 v1 : Value) : SameMem s (s.yields r k i v0 v1) := by
  simp [State.yields]
@[simp] theorem sameMem_answered (s : State) (r k i : Nat) (a : Ask) : SameMem s (s.answered r k i a) := ⟨rfl, rfl, rfl⟩
@[simp] theorem sameMem_setAct (s : State) (r k i : Nat) (a : Act) : SameMem s (s.setAct r k i a) := ⟨rfl, rfl, rfl⟩
@[simp] theorem sameMem_repairAsk (s : State) (r k idx : Nat) : SameMem s (s.repairAsk r k idx) := by
  unfold State.repairAsk
  split <;> simp
theorem sameMem_takePlace {s : State} {r slot idx : Nat} {d : QDest} {t : State × Bool} (h : s.takePlace r slot idx d = some t) : SameMem s t.1 := by
  unfold State.takePlace at h
  dsimp only at h
  (repeat' split at h) <;> cases h <;> simp
@[simp] theorem sameMem_invokePlace (s : State) (lodging : Nat) (n : Word) : SameMem s (s.invokePlace lodging n).1 := by
  unfold State.invokePlace
  dsimp only
  (repeat' split) <;> simp
theorem sameMem_takePending {s t : State} {lodging die : Nat} (h : s.takePending lodging die = some t) : SameMem s t := by
  unfold State.takePending at h
  split at h <;> cases h
  simp
@[simp] theorem sameMem_entryAnswer (s : State) (r k i : Nat) (e : Cap) : SameMem s (s.entryAnswer r k i e) := by
  unfold State.entryAnswer
  dsimp only
  split <;> simp
  exact sameMem_codeRead ‹_›
@[simp] theorem sameMem_placeTold (s : State) (r k i : Nat) (d : QDest) (ok : Bool) : SameMem s (s.placeTold r k i d ok) := by
  unfold State.placeTold
  split <;> simp
@[simp] theorem sameMem_invokeTold (s : State) (r k i : Nat) (n : Word) (chain : Nat) (ok : Bool) : SameMem s (s.invokeTold r k i n chain ok) := by
  unfold State.invokeTold
  split <;> simp
@[simp] theorem sameMem_peerTold (s : State) (r k i kind : Nat) (ok : Bool) (n : Nat) : SameMem s (s.peerTold r k i kind ok n) := by
  unfold State.peerTold
  split <;> simp
@[simp] theorem sameMem_askPeer (s : State) (r k idx device kind : Nat) (o : Word) : SameMem s (s.askPeer r k idx device kind o) := by
  unfold State.askPeer
  (repeat' split) <;> simp
@[simp] theorem sameMem_homeTells (s : State) (core slot idx : Nat) : SameMem s (s.homeTells core slot idx) := by
  unfold State.homeTells
  dsimp only
  generalize mapGet (s.slot core slot).blk.asks idx = a
  cases a with
  | place =>
    dsimp only; split
    · simp; exact sameMem_takePlace ‹_›
    · simp
  | pending =>
    dsimp only; split
    · simp; exact sameMem_takePending ‹_›
    · simp
  | stat => dsimp only; (repeat' split) <;> simp
  | place2 | bindInfo => dsimp only; split <;> simp
  | rank | entry => simp
  | _ => exact .refl s

/-! ### The functions of Sys2Proof/Machine/Oxkan.lean -/
@[simp] theorem sameMem_toInbox (s : State) (steward lodging logical : Nat) (data : V512) (cap : Bool) :
    SameMem s (s.toInbox steward lodging logical data cap) := by
  unfold State.toInbox
  split <;> simp
@[simp] theorem sameMem_openRoute (s : State) (a b q : Nat) : SameMem s (s.openRoute a b q) := ⟨rfl, rfl, rfl⟩
@[simp] theorem sameMem_matchOffer (s : State) (steward : Nat) (o : Nat × Nat × Nat × Cap) : SameMem s (s.matchOffer steward o) := by
  unfold State.matchOffer
  dsimp only
  split <;> simp
theorem sameMem_tells {s t : State} {q : Req} {c : Call} {bs : List (Nat × FlitBody)} (h : s.tells q c bs = .wait t) : SameMem s t := by
  unfold State.tells at h
  dsimp only at h
  (repeat' split at h) <;> cases h
  simp
theorem sameMem_callRead {s t : State} {q : Req} {c : Call} {cap : Cap} {o n : Nat} (h : s.callRead q c cap o n = .wait t) : SameMem s t :=
  sameMem_bytesRead h
theorem sameMem_collEntries {s t : State} {q : Req} {c : Call} {cap : Cap} {js : List Nat} (h : s.collEntries q c cap js = .wait t) :
    SameMem s t := by
  induction js with
  | nil => cases h
  | cons j js ih => grind [State.collEntries, sameMem_callRead]
@[simp] theorem sameMem_clearStaging (s : State) (i : Nat) : SameMem s (s.clearStaging i) := by
  simp [State.clearStaging]
@[simp] theorem sameMem_collRecord (s : State) (lodging i n blocks : Nat) (relays : List (Nat × Nat × Nat)) :
    SameMem s (s.collRecord lodging i n blocks relays) := ⟨rfl, rfl, rfl⟩
@[simp] theorem sameMem_collArm (s : State) (i : Nat) : SameMem s (s.collArm i) := by
  simp [State.collArm]
@[simp] theorem sameMem_collFree (s : State) (i : Nat) : SameMem s (s.collFree i) := by
  simp [State.collFree]
@[simp] theorem sameMem_collTold (s : State) (lodging op i n blocks : Nat) (relays : List (Nat × Nat × Nat)) :
    SameMem s (s.collTold lodging op i n blocks relays).1 := by
  unfold State.collTold
  dsimp only
  split <;> simp
@[simp] theorem sameMem_keepRecord (s : State) (r k : Nat) (c : Call) (arg : Cap) : SameMem s (s.keepRecord r k c arg) := by
  simp [State.keepRecord]
@[simp] theorem sameMem_inletDone (s : State) (id session seq kind outcome launch result : Nat) :
    SameMem s (s.inletDone id session seq kind outcome launch result) := ⟨rfl, rfl, rfl⟩
@[simp] theorem sameMem_callEnds (s : State) (q : Req) (r k call : Nat) (v : Value) (code : Nat) : SameMem s (s.callEnds q r k call v code) := by
  unfold State.callEnds
  dsimp only
  (repeat' split) <;> simp

/-! ### The functions of Sys2Proof/Machine/Arrive.lean -/
@[simp] theorem sameMem_dropMessage (s : State) (q : Req) (r : Nat) : SameMem s (s.dropMessage q r) := by
  unfold State.dropMessage
  split <;> simp
@[simp] theorem sameMem_retry (s : State) (r n : Nat) : SameMem s (s.retry r n) := by
  induction n generalizing s with
  | zero => exact .refl s
  | succ n ih => unfold State.retry; (repeat' split) <;> simp [ih]
@[simp] theorem sameMem_bind (s : State) (r off : Nat) (b : Binding) : SameMem s (s.bind r off b) := by
  simp [State.bind]
@[simp] theorem sameMem_invocation (s : State) (r lodging : Nat) (n : Word) (i : Invocation) (at' : Nat) (failed : Byte) :
    SameMem s (s.invocation r lodging n i at' failed) := by
  unfold State.invocation
  split <;> simp
@[simp] theorem sameMem_settles (s : State) (req : Nat) (broken : Bool) : SameMem s (s.settles req broken) := by
  unfold State.settles
  (repeat' split) <;> simp
@[simp] theorem sameMem_sendwArrives (s : State) (q : Req) (r off : Nat) (m : Msg) : SameMem s (s.sendwArrives q r off m) := by
  simp [State.sendwArrives]
@[simp] theorem sameMem_sendArrives (s : State) (q : Req) (r off : Nat) (m : Msg) : SameMem s (s.sendArrives q r off m) := by
  unfold State.sendArrives
  dsimp only
  (repeat' split) <;> simp
  exact sameMem_tryDeliver ‹_›
@[simp] theorem sameMem_peerSend (s : State) (q : Req) (r off : Nat) (m : Msg) : SameMem s (s.peerSend q r off m) := by
  unfold State.peerSend
  (repeat' split) <;> simp
  exact sameMem_tryDeliver ‹_›
@[simp] theorem sameMem_stageEntry (s : State) (q : Req) (r n k : Nat) (m : Msg) : SameMem s (s.stageEntry q r n k m) := by
  simp [State.stageEntry]
@[simp] theorem sameMem_stagePeer (s : State) (q : Req) (device core r n i : Nat) (m : Msg) : SameMem s (s.stagePeer q device core r n i m) := by
  simp [State.stagePeer]
@[simp] theorem sameMem_sendAgain (s : State) (q : Req) : SameMem s (s.sendAgain q) := by
  unfold State.sendAgain
  split <;> simp
@[simp] theorem sameMem_poll (s : State) (req : Nat) (claims : Bool) : SameMem s (s.poll req claims) := by
  unfold State.poll
  (repeat' split) <;> simp
@[simp] theorem sameMem_startArrives (s : State) (q : Req) (r : Nat) (st : Start) : SameMem s (s.startArrives q r st) := by
  unfold State.startArrives
  split <;> simp

/-! ### The functions of Sys2Proof/Machine/Sched.lean -/
@[simp] theorem sameMem_placeLaunch (s : State) (l : Launch) (t : Nat × Nat × Nat × Nat) : SameMem s (s.placeLaunch l t) := by
  simp [State.placeLaunch]
@[simp] theorem sameMem_takeLots (s : State) (r k : Nat) (runs : List (Sto × Run)) (inh : Run) : SameMem s (s.takeLots r k runs inh) := by
  simp [State.takeLots]
theorem sameMem_addTwin {s t : State} {r k : Nat} {st : Start} (h : s.addTwin r k st = some t) : SameMem s t := by
  unfold State.addTwin at h
  dsimp only at h
  split at h <;> cases h
  simp
theorem sameMem_begin {s t : State} {r : Nat} {st : Start} (h : s.begin r st = some t) : SameMem s t := by
  unfold State.begin at h
  dsimp only at h
  (repeat' split at h) <;> try cases h
  all_goals simp
  all_goals simp [sameMem_addTwin h]
@[simp] theorem sameMem_renameAct (s : State) (a b : ActId) : SameMem s (s.renameAct a b) := ⟨rfl, rfl, rfl⟩
theorem sameMem_resumeWaiting {s t : State} {r : Nat} (h : s.resumeWaiting r = some t) : SameMem s t := by
  unfold State.resumeWaiting at h
  split at h <;> cases h
  simp

/-! ### The functions of Sys2Proof/Machine/Engines.lean -/
@[simp] theorem sameMem_headAsks (s : State) (r : Nat) : SameMem s (s.headAsks r) := by
  unfold State.headAsks
  split <;> simp
@[simp] theorem sameMem_updPorter (s : State) (r id : Nat) (f : PorterCmd → PorterCmd) : SameMem s (s.updPorter r id f) := ⟨rfl, rfl, rfl⟩
theorem sameMem_reach {s t : State} {r : Nat} {c : PorterCmd} {src : Bool} {o : Nat} (h : s.reach r c src o = .wait t) : SameMem s t := by
  grind [State.reach, sameMem_seek]
@[simp] theorem sameMem_unitAcked (s : State) (r : Nat) (c : PorterCmd) (o : Nat) : SameMem s (s.unitAcked r c o) := by
  simp [State.unitAcked]
@[simp] theorem sameMem_nextChunk (s : State) (r : Nat) (c : PorterCmd) : SameMem s (s.nextChunk r c) := by
  simp [State.nextChunk]
@[simp] theorem sameMem_porterFault (s : State) (r id code : Nat) : SameMem s (s.porterFault r id code) := ⟨rfl, rfl, rfl⟩
@[simp] theorem sameMem_unitFlies (s : State) (r : Nat) (c : PorterCmd) (o device : Nat) (reads : Bool) (b : Nat → FlitBody) :
    SameMem s (s.unitFlies r c o device reads b) := by
  simp [State.unitFlies]
@[simp] theorem sameMem_afterEnd (s : State) : SameMem s (s.afterEnd) := by
  simp [State.afterEnd]
@[simp] theorem sameMem_endPorter (s : State) (r : Nat) (c : PorterCmd) : SameMem s (s.endPorter r c) := by
  simp [State.endPorter]
@[simp] theorem sameMem_endMx (s : State) (r : Nat) (m : MxCmd) : SameMem s (s.endMx r m) := by
  simp [State.endMx]
@[simp] theorem sameMem_updMx (s : State) (r id : Nat) (f : MxCmd → MxCmd) : SameMem s (s.updMx r id f) := ⟨rfl, rfl, rfl⟩
@[simp] theorem sameMem_testFailed (s : State) (r : Nat) : SameMem s (s.testFailed r) := ⟨rfl, rfl, rfl⟩

/-! ### The functions of Sys2Proof/Machine/HostPort.lean -/
@[simp] theorem sameMem_dropWrite (s : State) (session : Nat) : SameMem s (s.dropWrite session) := by
  simp [State.dropWrite]
@[simp] theorem sameMem_inletWrite (s : State) (session seq kind : Nat) (payload : BitVec 320) :
    SameMem s (s.inletWrite session seq kind payload) := by
  simp [State.inletWrite]
@[simp] theorem sameMem_inletTlp (s : State) (offset : Nat) (posted : Bool) (data : List Byte) : SameMem s (s.inletTlp offset posted data) := by
  unfold State.inletTlp
  dsimp only
  (repeat' split) <;> simp
theorem sameMem_inletDesc {s t : State} {q : Req} {core : Nat} {e : Cap} (h : s.inletDesc q core e = .wait t) : SameMem s t := by
  grind [State.inletDesc, sameMem_codeRead]
@[simp] theorem sameMem_inletLaunch (s : State) (q : Req) (session seq : Nat) (p : BitVec 320) : SameMem s (s.inletLaunch q session seq p) := by
  unfold State.inletLaunch
  dsimp only
  (repeat' split) <;> simp
  · exact sameMem_inletDesc ‹_›
  · exact sameMem_takePending ‹_›
theorem sameMem_toHostInbox {s t : State} {n logical : Nat} {data : V512} {cap : Bool} (h : s.toHostInbox n logical data cap = some t) :
    SameMem s t := by
  grind [State.toHostInbox, sameMem_tryDeliver]
@[simp] theorem sameMem_inletPost (s : State) (q : Req) (session seq : Nat) (p : BitVec 320) : SameMem s (s.inletPost q session seq p) := by
  unfold State.inletPost
  dsimp only
  (repeat' split) <;> simp
  exact sameMem_toHostInbox ‹_›
@[simp] theorem sameMem_inletCredit (s : State) (q : Req) (session : Nat) (p : BitVec 320) : SameMem s (s.inletCredit q session p) := by
  simp [State.inletCredit]
@[simp] theorem sameMem_inletAgent (s : State) (q : Req) (session : Nat) (p : BitVec 320) : SameMem s (s.inletAgent q session p) := by
  unfold State.inletAgent
  dsimp only
  (repeat' split) <;> simp
@[simp] theorem sameMem_inletCall (s : State) (q : Req) (session seq : Nat) (p : BitVec 320) : SameMem s (s.inletCall q session seq p) := by
  unfold State.inletCall
  dsimp only
  (repeat' split) <;> simp
  exact sameMem_inletDesc ‹_›

/-! ### The functions of Sys2Proof/Machine/Links.lean -/
@[simp] theorem sameMem_deliverSlot (s : State) (source link : Nat) (e : FlitSlot) : SameMem s (s.deliverSlot source link e) := by
  unfold State.deliverSlot
  (repeat' split) <;> simp
@[simp] theorem sameMem_deliverFlit (s : State) (source link : Nat) (es : List FlitSlot) : SameMem s (s.deliverFlit source link es) := by
  simp [State.deliverFlit]
@[simp] theorem sameMem_setPair (s : State) (p : Pair) : SameMem s (s.setPair p) := by
  simp [State.setPair]
@[simp] theorem sameMem_drainPair (s : State) (k : Nat × Nat) (link n : Nat) : SameMem s (s.drainPair k link n) := by
  induction n generalizing s with
  | zero => exact .refl s
  | succ n ih => unfold State.drainPair; dsimp only; split <;> simp [ih]
@[simp] theorem sameMem_takeFlit (s : State) (flit : Flit) : SameMem s (s.takeFlit flit) := by
  simp [State.takeFlit]
@[simp] theorem sameMem_linkControl (s : State) (source : Nat) (b : FlitBody) : SameMem s (s.linkControl source b) := by
  unfold State.linkControl
  split <;> simp
@[simp] theorem sameMem_tellSender (s : State) (source plane : Nat) (again : Bool) : SameMem s (s.tellSender source plane again) := by
  simp [State.tellSender]
@[simp] theorem sameMem_setRoute (s : State) (device plane link : Nat) : SameMem s (s.setRoute device plane link) := by
  simp [State.setRoute]
@[simp] theorem sameMem_peerAsks (s : State) (q : Req) (kind : Nat) (o : Word) : SameMem s (s.peerAsks q kind o) := by
  unfold State.peerAsks
  dsimp only
  (repeat' split) <;> simp
  exact sameMem_takePlace ‹_›
@[simp] theorem sameMem_passEntry (s : State) (core off coll j req : Nat) (m : Msg) : SameMem s (s.passEntry core off coll j req m) := by
  simp [State.passEntry]
theorem sameMem_sumPlace {s t : State} {q : Req} {d : MemAddr} (h : s.sumPlace q d = .wait t) : SameMem s t := by
  grind [State.sumPlace, sameMem_seek]

/-! ### The functions of Sys2Proof/Machine/LocalMem.lean -/
@[simp] theorem sameMem_corrected (c : Ctx) (k : Sto) (ws : List Nat) : SameMem c.s (c.corrected k ws) := by
  simp [Ctx.corrected]

/-! ### The functions of Sys2Proof/Machine/Platform.lean -/
@[simp] theorem sameMem_passUnit (s : State) (r unit : Nat) : SameMem s (s.passUnit r unit) := ⟨rfl, rfl, rfl⟩
@[simp] theorem sameMem_failCalls (s : State) : SameMem s (s.failCalls) := by
  simp [State.failCalls]
@[simp] theorem sameMem_switched (s : State) : SameMem s (s.switched) := by
  simp [State.switched]
@[simp] theorem sameMem_handOver (s : State) (r k : Nat) : SameMem s (s.handOver r k) := by
  unfold State.handOver
  dsimp only
  (repeat' split) <;> simp
  simp [sameMem_codeRead ‹_›]
@[simp] theorem sameMem_bootCore (s : State) (i : Config.Image) (k : Nat) : SameMem s (s.bootCore i k) := by
  simp [State.bootCore]
@[simp] theorem sameMem_measured (s : State) (index : Nat) : SameMem s (s.measured index) := ⟨rfl, rfl, rfl⟩
@[simp] theorem sameMem_doe (s : State) (session : Nat) (m : DoeMsg) : SameMem s (s.doe session m) := by
  unfold State.doe
  dsimp only
  (repeat' split) <;> simp
@[simp] theorem sameMem_setBar0 (s : State) (base : Word) : SameMem s (s.setBar0 base) := ⟨rfl, rfl, rfl⟩

/-! ### The functions of Sys2Proof/Machine/Twin.lean -/
@[simp] theorem sameMem_asTwin (s : State) (r k q j : Nat) : SameMem s (s.asTwin r k q j) := by
  simp [State.asTwin]
@[simp] theorem sameMem_keepTwin (s t1 : State) (r k q j : Nat) (y : Slot) : SameMem s (s.keepTwin t1 r k q j y) := by
  simp [State.keepTwin]
@[simp] theorem sameMem_twinEvents (s t t1 : State) (r q : Nat) : SameMem s (s.twinEvents t t1 r q) := by
  simp [State.twinEvents]

/-! ## Firing: what an instruction's own effect may do to the memories, which is nothing -/

/-- An effect of an instruction that goes on, to the state `g` reads from what it answers, leaves the memories of `s`. -/
def Acted {α : Type} (g : α → State) (s : State) : Except Trap α → Prop
  | .ok x => SameMem s (g x)
  | .error _ => True
section
variable {α β : Type} {g : α → State} {s : State}
@[simp] theorem acted_ok {x : α} : Acted g s (.ok x) ↔ SameMem s (g x) := Iff.rfl
@[simp] theorem acted_error {t : Trap} : Acted g s (.error t) := trivial
@[simp] theorem acted_pure {x : α} : Acted g s (pure x) ↔ SameMem s (g x) := Iff.rfl
@[simp] theorem acted_throw {t : Trap} : Acted g s (throw t) := trivial
@[simp] theorem acted_ite {p : Prop} [Decidable p] {a b : Except Trap α} :
    Acted g s (if p then a else b) ↔ (p → Acted g s a) ∧ (¬ p → Acted g s b) := by
  split <;> simp [*]
@[simp] theorem acted_bind {x : Except Trap β} {f : β → Except Trap α} : Acted g s (x >>= f) ↔ ∀ b, x = .ok b → Acted g s (f b) := by
  cases x with
  | error t => exact ⟨fun _ _ h => (nomatch h), fun _ => trivial⟩
  | ok b => exact ⟨fun h b e => Except.ok.inj e ▸ h, fun h => h b rfl⟩
@[simp] theorem acted_map {x : Except Trap β} {f : β → α} : Acted g s (f <$> x) ↔ ∀ b, x = .ok b → SameMem s (g (f b)) :=
  acted_bind (f := pure ∘ f)
/-- A check in a `do` block: it throws, or the block goes on. -/
@[simp] theorem acted_guard {p : Prop} [Decidable p] {t : Trap} {f : Unit → Except Trap α} :
    Acted g s (if p then throw t >>= f else f ()) ↔ (¬ p → Acted g s (f ())) := by
  split
  · exact ⟨fun _ h => absurd ‹_› h, fun _ => trivial⟩
  · simp [*]
end
@[simp] theorem acted_value (s : State) (c : Ctx) (v : Value) (evs : List Nat) : Acted Fired.s s (c.value v evs) ↔ SameMem s c.s := Iff.rfl
@[simp] theorem acted_silent (s t : State) (c : Ctx) (evs : List Nat) : Acted Fired.s s (c.silent t evs) ↔ SameMem s t := Iff.rfl

/-- An outcome that is a next state, and what holds of it. -/
def Answers (P : State → Prop) : Out → Prop
  | .next t => P t
  | .fault _ => False
  | .refused _ => False
@[simp] theorem answers_next (P : State → Prop) (t : State) : Answers P (.next t) ↔ P t := Iff.rfl
@[simp] theorem answers_ite {P : State → Prop} {p : Prop} [Decidable p] {a b : Out} :
    Answers P (if p then a else b) ↔ (p → Answers P a) ∧ (¬ p → Answers P b) := by
  split <;> simp [*]
theorem ctx_s {s : State} {f : Form} {c : Ctx} {p : Value} (h : s.ctx f = some (c, p)) : c.s = s := by
  unfold State.ctx at h
  dsimp only at h
  split at h <;> cases h
  rfl
/-- A firing keeps the memories when what a null token does and the instruction's own effect keep them. -/
theorem answers_fire {s : State} {f : Form} {n : Ctx → State} {act : Ctx → Except Trap Fired} (hn : ∀ c, c.s = s → SameMem s (n c))
    (ha : ∀ c, c.s = s → Acted Fired.s s (act c)) : Answers (SameMem s) (s.fire f n act) := by
  unfold State.fire
  split
  · simp
  · next c p h =>
    have e := ctx_s h
    have hn := hn c e
    split
    · simp [e]
    · split <;> simp [hn]
    · simp [hn]
    · next m _ =>
      have ha := ha { c with mask := m } e
      split
      · simp [hn]
      · split
        · simp [e]
        · split
          · simp [e]
          · next x h => exact SameMem.trans (by simpa only [h, Acted] using ha) (sameMem_finish ..)
@[simp] theorem answers_plain {s : State} {f : Form} {act : Ctx → Except Trap Fired} (ha : ∀ c, Acted Fired.s c.s (act c)) :
    Answers (SameMem s) (s.fire f plainNull act) :=
  answers_fire (fun _ e => e ▸ .refl _) fun c e => e ▸ ha c
@[simp] theorem answers_landing {s : State} {f : Form} {reg : Nat} {act : Ctx → Except Trap Fired} (ha : ∀ c, Acted Fired.s c.s (act c)) :
    Answers (SameMem s) (s.fire f (nullLanding reg) act) :=
  answers_fire (fun c e => e ▸ sameMem_nullLanding reg c) fun c e => e ▸ ha c
@[simp] theorem answers_store {s : State} {f : Form} {lsid : Nat} {act : Ctx → Except Trap Fired} (ha : ∀ c, Acted Fired.s c.s (act c)) :
    Answers (SameMem s) (s.fire f (nullStore lsid) act) :=
  answers_fire (fun c e => e ▸ sameMem_nullStore lsid c) fun c e => e ▸ ha c
@[simp] theorem answers_cus {s : State} {f : Form} {act : Ctx → Except Trap Fired} (ha : ∀ c, Acted Fired.s c.s (act c)) :
    Answers (SameMem s) (s.fireCus f act) := by
  unfold State.fireCus
  split
  · simp
  · exact answers_plain ha
@[simp] theorem answers_later {s : State} {f : Form} {act : Ctx → Except Trap State} (ha : ∀ c, Acted id c.s (act c)) :
    Answers (SameMem s) (s.fireLater f act) := by
  unfold State.fireLater
  split
  · simp
  · next c p h =>
    have e := ctx_s h
    split
    · simp [e]
    · simp
    · simp
    · next m _ =>
      have ha := ha { c with mask := m }
      split
      · simp
      · split
        · simp [e]
        · split
          · simp [e]
          · next t h => exact e ▸ SameMem.trans (by simpa only [h, acted_ok, id] using ha) (sameMem_later ..)
@[simp] theorem acted_scalarOut (c : Ctx) (vs : List Value) (x : Word) (evs : List Nat) : Acted Fired.s c.s (c.scalarOut vs x evs) := .refl _
@[simp] theorem acted_alu (c : Ctx) (w : BitVec 1) (f : Nat → Nat → Nat → Nat) : Acted Fired.s c.s (c.alu w f) := .refl _
@[simp] theorem acted_aluSat (c : Ctx) (w : BitVec 1) (f : Nat → Int → Int → Int) (evs : List Nat) : Acted Fired.s c.s (c.aluSat w f evs) := .refl _
@[simp] theorem acted_test (c : Ctx) (vs : List Value) (b : Bool) : Acted Fired.s c.s (c.test vs b) := .refl _
@[simp] theorem acted_capOp (c : Ctx) (two : Bool) (tag : Tag) (need : Except Trap Unit) (f : Except Trap Value) :
    Acted Fired.s c.s (c.capOp two tag need f) := by
  unfold Ctx.capOp
  (repeat' split) <;> simp
@[simp] theorem acted_amo (c : Ctx) (reg : BitVec 6) (op w order scope : Nat) (v e : Value) : Acted Fired.s c.s (c.amo reg op w order scope v e) := by
  unfold Ctx.amo
  dsimp only
  refine acted_ite.2 ⟨fun _ => trivial, fun _ => ?_⟩
  generalize c.checkQueued _ _ _ _ _ _ = x
  cases x <;> simp
@[simp] theorem acted_waitOn (c : Ctx) (reg : BitVec 6) (st : Bool) : Acted Fired.s c.s (c.waitOn reg st) := by
  simp [Ctx.waitOn]
@[simp] theorem acted_feed (c : Ctx) (isB : Bool) : Acted Fired.s c.s (c.feed isB) := by
  unfold Ctx.feed
  refine acted_bind.2 fun _ _ => ?_
  dsimp only
  (repeat' split) <;> simp
@[simp] theorem acted_matrix (c : Ctx) (isMma : Bool) : Acted Fired.s c.s (c.matrix isMma) := by
  simp only [Ctx.matrix, acted_bind, acted_guard]
  intros
  split <;> simp
@[simp] theorem acted_actIf (c : Ctx) (ok : Bool) (a : Act) : Acted Fired.s c.s (c.actIf ok a) := .refl _
@[simp] theorem acted_mapEl (c : Ctx) (vs : List Value) (ws wd n : Nat) (f : Nat → List Nat → Nat × List Nat) :
    Acted Fired.s c.s (c.mapEl vs ws wd n f) := .refl _
@[simp] theorem acted_vf1 (c : Ctx) (f : Fmt) (op : Nat → Nat → FNum → Nat × List Nat) : Acted Fired.s c.s (c.vf1 f op) := .refl _
@[simp] theorem acted_vf2 (c : Ctx) (f : Fmt) (op : Nat → Nat → FNum → FNum → Nat × List Nat) : Acted Fired.s c.s (c.vf2 f op) := .refl _
@[simp] theorem acted_vc1 (c : Ctx) (f : Fmt) (op : Nat → Nat × List Nat) : Acted Fired.s c.s (c.vc1 f op) := .refl _
@[simp] theorem acted_vc2 (c : Ctx) (f : Fmt) (op : Nat → Nat → Nat × List Nat) : Acted Fired.s c.s (c.vc2 f op) := .refl _
@[simp] theorem acted_viExact (c : Ctx) (nat : Bool) (w : Nat) (vs : List Value) (f : Int → Int → Int) :
    Acted Fired.s c.s (c.viExact nat w vs f) := .refl _
@[simp] theorem acted_viBits (c : Ctx) (w : Nat) (f : Nat → Nat → Nat) : Acted Fired.s c.s (c.viBits w f) := .refl _
@[simp] theorem acted_viShl (c : Ctx) (nat : Bool) (w : Nat) : Acted Fired.s c.s (c.viShl nat w) := .refl _
@[simp] theorem acted_fmaEl (c : Ctx) (f : Fmt) (negProd negAdd : Bool) : Acted Fired.s c.s (c.fmaEl f negProd negAdd) := .refl _
@[simp] theorem acted_vcmp (c : Ctx) (w : BitVec 3) (ordered : Bool) (holds : Option Ordering → Bool) :
    Acted Fired.s c.s (c.vcmp w ordered holds) := .refl _
@[simp] theorem acted_cvt (c : Ctx) (ws wd n : Nat) (f : Nat → Nat → Nat → Nat × List Nat) : Acted Fired.s c.s (c.cvt ws wd n f) := .refl _
@[simp] theorem acted_narrow (c : Ctx) (w : Nat) : Acted Fired.s c.s (c.narrow w) := .refl _
@[simp] theorem acted_fblock (c : Ctx) (vs blocks scalars : List Value) (masked : Bool) (f : Except Trap (V512 × List Nat)) :
    Acted Fired.s c.s (c.fblock vs blocks scalars masked f) := by
  unfold Ctx.fblock
  (repeat' split) <;> simp
@[simp] theorem acted_readLocal (c : Ctx) (k : Sto) (lsid : Nat) (at_ : List (Nat × Nat)) (out : Value) :
    Acted Fired.s c.s (c.readLocal k lsid at_ out) := by
  unfold Ctx.readLocal
  dsimp only
  split <;> simp
@[simp] theorem acted_load (c : Ctx) (lsid : BitVec 5) (imm : BitVec 9) (n : Nat) (isC : Bool) (lanes : BitVec 16) (whole : Bool)
    (out : List Byte → Bool → Value) :
    Acted Fired.s c.s (c.load lsid imm n isC lanes whole out) := by
  unfold Ctx.load
  dsimp only
  refine acted_ite.2 ⟨fun _ => ?_, fun _ => acted_ite.2 ⟨fun _ => ?_, fun _ => ?_⟩⟩
  · simp
  · simp
  · generalize c.checkLocal _ _ _ _ _ _ _ = x
    rcases x with _ | ⟨k, off⟩ <;> simp
@[simp] theorem acted_stored (c : Ctx) (lsid : BitVec 5) (k : Sto) (bytes : List (Nat × Byte)) (tag : Option (Nat × Bool)) :
    Acted Fired.s c.s (c.stored lsid k bytes tag) := .refl _
@[simp] theorem acted_store (c : Ctx) (lsid : BitVec 5) (imm : BitVec 18) (n : Nat) (isC : Bool) (lanes : BitVec 16) (whole : Bool) :
    Acted Fired.s c.s (c.store lsid imm n isC lanes whole) := by
  unfold Ctx.store
  dsimp only
  refine acted_ite.2 ⟨fun _ => ?_, fun _ => acted_ite.2 ⟨fun _ => ?_, fun _ => acted_ite.2 ⟨fun _ => ?_, fun _ => ?_⟩⟩⟩
  · simp
  · simp
  · simp
  · generalize c.checkLocal _ _ _ _ _ _ _ = x
    rcases x with _ | ⟨k, off⟩ <;> simp
@[simp] theorem acted_perm (c : Ctx) (w : Nat) (vs : List Value) (out : Nat → Nat × Bool) : Acted Fired.s c.s (c.perm w vs out) := .refl _
@[simp] theorem acted_allNull (c : Ctx) (vs : List Value) : Acted Fired.s c.s (c.allNull vs) := .refl _
@[simp] theorem acted_redScalar (c : Ctx) (signed : Bool) (w : Nat) (r : Option (Nat × List Nat)) : Acted Fired.s c.s (c.redScalar signed w r) := by
  unfold Ctx.redScalar
  split <;> simp
@[simp] theorem acted_capGet (c : Ctx) (f : Cap → Nat) : Acted Fired.s c.s (c.capGet f) := by
  exact acted_capOp ..
@[simp] theorem acted_loadScalar (c : Ctx) (lsid : BitVec 5) (imm : BitVec 9) (n : Nat) (signed : Bool) :
    Acted Fired.s c.s (c.loadScalar lsid imm n signed) := by
  exact acted_load ..
@[simp] theorem acted_redInt (c : Ctx) (w : BitVec 2) (ident : Nat → Nat) (f : Nat → Nat → Nat → Nat) : Acted Fired.s c.s (c.redInt w ident f) := by
  exact acted_redScalar ..

/-! ## What an instruction does to the memories

### The events that write no memory -/

theorem sameMem_getD {s : State} {o : Option State} (h : ∀ t, o = some t → SameMem s t) : SameMem s (o.getD s) := by
  cases o with
  | none => exact .refl s
  | some t => exact h t rfl
@[simp] theorem execBlockFetch_sameMem (core slot : Nat) (s : State) : Answers (SameMem s) (execBlockFetch core slot s) := by
  unfold execBlockFetch
  refine answers_ite.2 ⟨fun _ => .refl _, fun _ => ?_⟩
  split
  · simp
  · exact sameMem_fetch ‹_›
  · split
    · simp
    · split
      · simp
      · exact sameMem_fetch ‹_›
      · simp
@[simp] theorem execBlockAdmission_sameMem (core slot : Nat) (s : State) : Answers (SameMem s) (execBlockAdmission core slot s) := by
  unfold execBlockAdmission
  dsimp only
  (repeat' split) <;> simp
@[simp] theorem execBlockStuck_sameMem (core slot : Nat) (s : State) : Answers (SameMem s) (execBlockStuck core slot s) := by
  simp [execBlockStuck]
@[simp] theorem execYieldTimeout_sameMem (core slot : Nat) (s : State) : Answers (SameMem s) (execYieldTimeout core slot s) := by
  simp [execYieldTimeout]
@[simp] theorem execSleepExpiry_sameMem (core slot : Nat) (s : State) : Answers (SameMem s) (execSleepExpiry core slot s) := by
  simp [execSleepExpiry]
@[simp] theorem execInstructionAged_sameMem (core slot idx : Nat) (s : State) : Answers (SameMem s) (execInstructionAged core slot idx s) := by
  simp [execInstructionAged]
@[simp] theorem execFavouredSlotMove_sameMem (core cls : Nat) (s : State) : Answers (SameMem s) (execFavouredSlotMove core cls s) := by
  simp [execFavouredSlotMove]
@[simp] theorem execPortWordArrival_sameMem (core port : Nat) (s : State) : Answers (SameMem s) (execPortWordArrival core port s) := by
  unfold execPortWordArrival
  dsimp only
  split <;> simp
@[simp] theorem execBlockCommit_sameMem (core slot : Nat) (s : State) : Answers (SameMem s) (execBlockCommit core slot s) := by
  unfold execBlockCommit
  (repeat' split) <;> simp
@[simp] theorem execCommitWait_sameMem (core slot : Nat) (s : State) : Answers (SameMem s) (execCommitWait core slot s) := by
  simp [execCommitWait]
@[simp] theorem execOutboundDepart_sameMem (req : Nat) (s : State) : Answers (SameMem s) (execOutboundDepart req s) := by
  unfold execOutboundDepart
  split <;> simp
@[simp] theorem execStationRequest_sameMem (req : Nat) (s : State) : Answers (SameMem s) (execStationRequest req s) := by
  unfold execStationRequest
  dsimp only
  (repeat' split) <;> simp
@[simp] theorem execWalkComplete_sameMem (req : Nat) (s : State) : Answers (SameMem s) (execWalkComplete req s) := by
  unfold execWalkComplete
  (repeat' split) <;> simp
@[simp] theorem execAtsTranslationCompletion_sameMem (req pa size : Nat) (rd wr : Bool) (s : State) :
    Answers (SameMem s) (execAtsTranslationCompletion req pa size rd wr s) := by
  unfold execAtsTranslationCompletion
  (repeat' split) <;> simp
@[simp] theorem execPageRequestSend_sameMem (station pasid page : Nat) (s : State) :
    Answers (SameMem s) (execPageRequestSend station pasid page s) := by
  simp [execPageRequestSend]
@[simp] theorem execPriResponse_sameMem (pasid page code : Nat) (s : State) : Answers (SameMem s) (execPriResponse pasid page code s) := by
  unfold execPriResponse
  split <;> simp
@[simp] theorem execAtsInvalidationRequest_sameMem (pasid va len tag : Nat) (s : State) :
    Answers (SameMem s) (execAtsInvalidationRequest pasid va len tag s) := by
  simp [execAtsInvalidationRequest]
@[simp] theorem execStationInvalidationAnswer_sameMem (station tag : Nat) (s : State) :
    Answers (SameMem s) (execStationInvalidationAnswer station tag s) := by
  unfold execStationInvalidationAnswer
  split <;> simp
@[simp] theorem execResponseArrival_sameMem (req : Nat) (s : State) : Answers (SameMem s) (execResponseArrival req s) := by
  unfold execResponseArrival
  dsimp only
  (repeat' split) <;> simp
  refine SameMem.trans ?_ (sameMem_failStore ‹_›)
  simp
@[simp] theorem execCompletionTimeout_sameMem (req : Nat) (s : State) : Answers (SameMem s) (execCompletionTimeout req s) := by
  unfold execCompletionTimeout
  (repeat' split) <;> simp
@[simp] theorem execRequestHeld_sameMem (req : Nat) (s : State) : Answers (SameMem s) (execRequestHeld req s) := by
  unfold execRequestHeld
  split <;> simp
@[simp] theorem execLotReadback_sameMem (core store unit : Nat) (s : State) : Answers (SameMem s) (execLotReadback core store unit s) := by
  unfold execLotReadback
  split <;> simp
@[simp] theorem execMigrationResume_sameMem (lodging logical : Nat) (s : State) : Answers (SameMem s) (execMigrationResume lodging logical s) := by
  unfold execMigrationResume
  dsimp only
  split <;> simp
@[simp] theorem execFlushMarker_sameMem (lodging logical sender : Nat) (s : State) :
    Answers (SameMem s) (execFlushMarker lodging logical sender s) := by
  unfold execFlushMarker
  split <;> simp
@[simp] theorem execLodgeEndComplete_sameMem (lodging : Nat) (s : State) : Answers (SameMem s) (execLodgeEndComplete lodging s) := by
  simp [execLodgeEndComplete]
@[simp] theorem execLodgingWatchdog_sameMem (lodging : Nat) (s : State) : Answers (SameMem s) (execLodgingWatchdog lodging s) := by
  simp [execLodgingWatchdog]
@[simp] theorem execDeviceWatchdog_sameMem (lodging : Nat) (s : State) : Answers (SameMem s) (execDeviceWatchdog lodging s) := by
  simp [execDeviceWatchdog]
@[simp] theorem execFaultMessageSend_sameMem (station entry : Nat) (s : State) : Answers (SameMem s) (execFaultMessageSend station entry s) := by
  unfold execFaultMessageSend
  split
  · split
    · simp [sameMem_tryDeliver ‹_›]
    · simp
  · simp
@[simp] theorem execRemoteAnswer_sameMem (core slot idx : Nat) (s : State) : Answers (SameMem s) (execRemoteAnswer core slot idx s) := by
  unfold execRemoteAnswer
  split <;> simp
@[simp] theorem execCounterDischarge_sameMem (req : Nat) (s : State) : Answers (SameMem s) (execCounterDischarge req s) := by
  unfold execCounterDischarge
  (repeat' split) <;> simp
@[simp] theorem execHandlerRetry_sameMem (core : Nat) (s : State) : Answers (SameMem s) (execHandlerRetry core s) := by
  simp [execHandlerRetry]
@[simp] theorem execBindArrival_sameMem (req : Nat) (s : State) : Answers (SameMem s) (execBindArrival req s) := by
  unfold execBindArrival
  (repeat' split) <;> simp
@[simp] theorem execInvocationArrival_sameMem (req : Nat) (s : State) : Answers (SameMem s) (execInvocationArrival req s) := by
  unfold execInvocationArrival
  (repeat' split) <;> simp
@[simp] theorem execClaimFulfilment_sameMem (req : Nat) (s : State) : Answers (SameMem s) (execClaimFulfilment req s) := by
  simp [execClaimFulfilment]
@[simp] theorem execClaimBreak_sameMem (req : Nat) (s : State) : Answers (SameMem s) (execClaimBreak req s) := by
  simp [execClaimBreak]
@[simp] theorem execQueueMessageArrival_sameMem (req : Nat) (s : State) : Answers (SameMem s) (execQueueMessageArrival req s) := by
  unfold execQueueMessageArrival
  (repeat' split) <;> simp
@[simp] theorem execSendwResend_sameMem (req : Nat) (s : State) : Answers (SameMem s) (execSendwResend req s) := by
  unfold execSendwResend
  (repeat' split) <;> simp
@[simp] theorem execClaimWaiterPoll_sameMem (req : Nat) (s : State) : Answers (SameMem s) (execClaimWaiterPoll req s) := by
  simp [execClaimWaiterPoll]
@[simp] theorem execObjectWaiterPoll_sameMem (req : Nat) (s : State) : Answers (SameMem s) (execObjectWaiterPoll req s) := by
  simp [execObjectWaiterPoll]
@[simp] theorem execStartArrival_sameMem (req : Nat) (s : State) : Answers (SameMem s) (execStartArrival req s) := by
  unfold execStartArrival
  (repeat' split) <;> simp
@[simp] theorem execArrivalResend_sameMem (req : Nat) (s : State) : Answers (SameMem s) (execArrivalResend req s) := by
  unfold execArrivalResend
  split <;> simp
@[simp] theorem execDeskDecision_sameMem (s : State) : Answers (SameMem s) (execDeskDecision s) := by
  unfold execDeskDecision
  dsimp only
  split <;> simp
@[simp] theorem execLaunchAged_sameMem (lodging queue : Nat) (s : State) : Answers (SameMem s) (execLaunchAged lodging queue s) := by
  unfold execLaunchAged
  split <;> simp
@[simp] theorem execRingStart_sameMem (core : Nat) (s : State) : Answers (SameMem s) (execRingStart core s) := by
  unfold execRingStart
  refine answers_ite.2 ⟨fun _ => .refl _, fun _ => answers_ite.2 ⟨fun _ => ?_, fun _ => ?_⟩⟩
  · exact sameMem_getD fun _ => sameMem_resumeWaiting
  · split
    · split
      · exact sameMem_getD fun _ ht => (sameMem_updCore ..).trans (sameMem_begin ht)
      · simp
    · simp
@[simp] theorem execLeaveGrant_sameMem (die : Nat) (s : State) : Answers (SameMem s) (execLeaveGrant die s) := by
  unfold execLeaveGrant
  split <;> simp
@[simp] theorem execLeaveWaitCount_sameMem (core : Nat) (s : State) : Answers (SameMem s) (execLeaveWaitCount core s) := by
  simp [execLeaveWaitCount]
@[simp] theorem execEngineEnd_sameMem (core cmd : Nat) (s : State) : Answers (SameMem s) (execEngineEnd core cmd s) := by
  unfold execEngineEnd
  dsimp only
  (repeat' split) <;> simp
@[simp] theorem execFeedFblockEnter_sameMem (core : Nat) (feedB : Bool) (s : State) : Answers (SameMem s) (execFeedFblockEnter core feedB s) := by
  unfold execFeedFblockEnter
  dsimp only
  split <;> simp
@[simp] theorem execMatrixCommandAccept_sameMem (req : Nat) (s : State) : Answers (SameMem s) (execMatrixCommandAccept req s) := by
  unfold execMatrixCommandAccept
  (repeat' split) <;> simp
@[simp] theorem execEngineStarved_sameMem (core : Nat) (s : State) : Answers (SameMem s) (execEngineStarved core s) := by
  unfold execEngineStarved
  split <;> simp
@[simp] theorem execInletLaunch_sameMem (session seq : Nat) (payload : BitVec 320) (s : State) :
    Answers (SameMem s) (execInletLaunch session seq payload s) := by
  simp [execInletLaunch]
@[simp] theorem execInletWindow_sameMem (session seq : Nat) (payload : BitVec 320) (s : State) :
    Answers (SameMem s) (execInletWindow session seq payload s) := by
  simp [execInletWindow]
@[simp] theorem execInletPost_sameMem (session seq : Nat) (payload : BitVec 320) (s : State) :
    Answers (SameMem s) (execInletPost session seq payload s) := by
  simp [execInletPost]
@[simp] theorem execInletCredit_sameMem (session seq : Nat) (payload : BitVec 320) (s : State) :
    Answers (SameMem s) (execInletCredit session seq payload s) := by
  simp [execInletCredit]
@[simp] theorem execInletAgent_sameMem (session seq : Nat) (payload : BitVec 320) (s : State) :
    Answers (SameMem s) (execInletAgent session seq payload s) := by
  simp [execInletAgent]
@[simp] theorem execInletCall_sameMem (session seq : Nat) (payload : BitVec 320) (s : State) :
    Answers (SameMem s) (execInletCall session seq payload s) := by
  simp [execInletCall]
@[simp] theorem execInletUnknownKind_sameMem (session seq : Nat) (kind : BitVec 8) (payload : BitVec 320) (s : State) :
    Answers (SameMem s) (execInletUnknownKind session seq kind payload s) := by
  simp [execInletUnknownKind]
@[simp] theorem execInletWriteDiscarded_sameMem (session : Nat) (s : State) : Answers (SameMem s) (execInletWriteDiscarded session s) := by
  simp [execInletWriteDiscarded]
@[simp] theorem execInletRead_sameMem (offset : Nat) (s : State) : Answers (SameMem s) (execInletRead offset s) := by
  simp [execInletRead]
@[simp] theorem execSessionBindRequest_sameMem (lodging session : Nat) (inletSalt replySalt : W32) (s : State) :
    Answers (SameMem s) (execSessionBindRequest lodging session inletSalt replySalt s) := by
  simp [execSessionBindRequest]
@[simp] theorem execFlitReceive_sameMem (flit : Flit) (s : State) : Answers (SameMem s) (execFlitReceive flit s) := by
  simp [execFlitReceive]
@[simp] theorem execLinkFailure_sameMem (link : Nat) (s : State) : Answers (SameMem s) (execLinkFailure link s) := by
  simp [execLinkFailure]
@[simp] theorem execCollectiveEntryPass_sameMem (core coll : Nat) (s : State) : Answers (SameMem s) (execCollectiveEntryPass core coll s) := by
  unfold execCollectiveEntryPass
  dsimp only
  (repeat' split) <;> simp
@[simp] theorem execTrapRecordWrite_sameMem (core slot : Nat) (s : State) : Answers (SameMem s) (execTrapRecordWrite core slot s) := by
  unfold execTrapRecordWrite
  refine answers_ite.2 ⟨fun _ => answers_ite.2 ⟨fun _ => .refl _, fun _ => ?_⟩, fun _ => ?_⟩
  · split
    · simp [sameMem_writeTrap ‹_›]
    · simp
  · split
    · split
      · simp [sameMem_writeTrap ‹_›]
      · simp
    · simp
@[simp] theorem execScrubVisit_sameMem (core store word : Nat) (s : State) : Answers (SameMem s) (execScrubVisit core store word s) := by
  unfold execScrubVisit
  split <;> simp
@[simp] theorem execUnitFailure_sameMem (core unit : Nat) (s : State) : Answers (SameMem s) (execUnitFailure core unit s) := by
  unfold execUnitFailure
  dsimp only
  split <;> simp
@[simp] theorem execTestPatternEnd_sameMem (core : Nat) (pass : Bool) (s : State) : Answers (SameMem s) (execTestPatternEnd core pass s) := by
  unfold execTestPatternEnd
  (repeat' split) <;> simp
@[simp] theorem execStatSumRound_sameMem (lodging launch round : Nat) (s : State) :
    Answers (SameMem s) (execStatSumRound lodging launch round s) := by
  unfold execStatSumRound
  dsimp only
  split <;> simp
@[simp] theorem execFirmwareSwitch_sameMem (core : Nat) (s : State) : Answers (SameMem s) (execFirmwareSwitch core s) := by
  unfold execFirmwareSwitch
  (repeat' split) <;> simp
@[simp] theorem execFirmwareHandover_sameMem (core slot : Nat) (s : State) : Answers (SameMem s) (execFirmwareHandover core slot s) := by
  simp [execFirmwareHandover]
@[simp] theorem execSpdmRequest_sameMem (index : Nat) (s : State) : Answers (SameMem s) (execSpdmRequest index s) := by
  simp [execSpdmRequest]

/-! ### The words whose effect is a case of its own -/

@[simp] theorem execRead_sameMem (_e : BitVec 1) (reg : BitVec 6) (t1 t0 : BitVec 9) (s : State) : Answers (SameMem s) (execRead _e reg t1 t0 s) := by
  unfold execRead
  dsimp only
  split
  · simp only [answers_ite, answers_next]
    refine ⟨fun _ => by simp, fun _ => answers_fire (fun _ e => e ▸ .refl _) fun c e => ?_⟩
    simp [e]
  · simp
@[simp] theorem execPort_sameMem (e : BitVec 1) (reg : BitVec 6) (t1 t0 : BitVec 9) (s : State) : Answers (SameMem s) (execPort e reg t1 t0 s) := by
  unfold execPort
  dsimp only
  split
  · simp
  · refine answers_plain fun c => ?_
    simp
@[simp] theorem execHandoff_sameMem (pr : BitVec 2) (s : State) : Answers (SameMem s) (execHandoff pr s) := by
  unfold execHandoff
  refine answers_plain fun c => ?_
  split <;> simp
@[simp] theorem execSleep_sameMem (pr : BitVec 2) (s : State) : Answers (SameMem s) (execSleep pr s) := by
  unfold execSleep
  refine answers_plain fun c => ?_
  split <;> simp
@[simp] theorem execVgather_sameMem (pr : BitVec 2) (lsid : BitVec 5) (imm : BitVec 9) (t0 : BitVec 9) (s : State) :
    Answers (SameMem s) (execVgather pr lsid imm t0 s) := by
  unfold execVgather
  refine answers_plain fun c => ?_
  simp only [acted_ite]
  split <;> simp
@[simp] theorem execVscatter_sameMem (pr : BitVec 2) (lsid : BitVec 5) (imm : BitVec 18) (s : State) :
    Answers (SameMem s) (execVscatter pr lsid imm s) := by
  unfold execVscatter
  refine answers_store fun c => ?_
  simp only [acted_ite]
  split <;> simp
@[simp] theorem execQld_sameMem (pr : BitVec 2) (reg : BitVec 6) (width : BitVec 5) (off : BitVec 12) (s : State) :
    Answers (SameMem s) (execQld pr reg width off s) := by
  unfold execQld
  refine answers_landing fun c => ?_
  dsimp only
  split <;> simp
@[simp] theorem execQst_sameMem (pr : BitVec 2) (width : BitVec 5) (imm : BitVec 18) (s : State) : Answers (SameMem s) (execQst pr width imm s) := by
  unfold execQst
  refine answers_plain fun c => ?_
  simp only [acted_ite]
  (repeat' split) <;> simp
@[simp] theorem execOsmStep_sameMem (pr : BitVec 2) (t1 : BitVec 9) (t0 : BitVec 9) (s : State) : Answers (SameMem s) (execOsmStep pr t1 t0 s) := by
  unfold execOsmStep
  refine answers_plain fun c => ?_
  simp only [acted_ite]
  split <;> simp
@[simp] theorem execOsmNorm_sameMem (pr : BitVec 2) (t1 : BitVec 9) (t0 : BitVec 9) (s : State) : Answers (SameMem s) (execOsmNorm pr t1 t0 s) := by
  unfold execOsmNorm
  refine answers_plain fun c => ?_
  simp only [acted_ite]
  split <;> simp
@[simp] theorem execCtrNew_sameMem (pr : BitVec 2) (t1 : BitVec 9) (t0 : BitVec 9) (s : State) : Answers (SameMem s) (execCtrNew pr t1 t0 s) := by
  unfold execCtrNew
  refine answers_plain fun c => ?_
  simp
@[simp] theorem execCtrStat_sameMem (pr : BitVec 2) (t1 : BitVec 9) (t0 : BitVec 9) (s : State) : Answers (SameMem s) (execCtrStat pr t1 t0 s) := by
  unfold execCtrStat
  refine answers_later fun c => ?_
  simp
@[simp] theorem execInvoke_sameMem (pr : BitVec 2) (t1 : BitVec 9) (t0 : BitVec 9) (s : State) : Answers (SameMem s) (execInvoke pr t1 t0 s) := by
  unfold execInvoke
  refine answers_plain fun c => ?_
  simp only [acted_bind]
  intros
  split <;> simp
@[simp] theorem execInvokec_sameMem (pr : BitVec 2) (t1 : BitVec 9) (t0 : BitVec 9) (s : State) : Answers (SameMem s) (execInvokec pr t1 t0 s) := by
  unfold execInvokec
  refine answers_later fun c => ?_
  simp only [acted_bind, acted_ite]
  intros
  split <;> simp
@[simp] theorem execSend_sameMem (pr : BitVec 2) (t1 : BitVec 9) (t0 : BitVec 9) (s : State) : Answers (SameMem s) (execSend pr t1 t0 s) := by
  unfold execSend
  refine answers_later fun c => ?_
  simp
@[simp] theorem execQnew_sameMem (pr : BitVec 2) (t1 : BitVec 9) (t0 : BitVec 9) (s : State) : Answers (SameMem s) (execQnew pr t1 t0 s) := by
  unfold execQnew
  refine answers_plain fun c => ?_
  simp
@[simp] theorem execSpawn_sameMem (pr : BitVec 2) (s : State) : Answers (SameMem s) (execSpawn pr s) := by
  unfold execSpawn
  refine answers_plain fun c => ?_
  simp only [acted_bind, acted_guard]
  intros
  split <;> simp
@[simp] theorem execLaunch_sameMem (pr : BitVec 2) (t1 : BitVec 9) (t0 : BitVec 9) (s : State) : Answers (SameMem s) (execLaunch pr t1 t0 s) := by
  unfold execLaunch
  refine answers_later fun c => ?_
  simp
@[simp] theorem execCusTake_sameMem (pr : BitVec 2) (t1 : BitVec 9) (t0 : BitVec 9) (s : State) : Answers (SameMem s) (execCusTake pr t1 t0 s) := by
  unfold execCusTake
  refine answers_cus fun c => ?_
  simp only [acted_bind]
  intros
  split <;> simp
@[simp] theorem execCusResume_sameMem (pr : BitVec 2) (s : State) : Answers (SameMem s) (execCusResume pr s) := by
  unfold execCusResume
  refine answers_cus fun c => ?_
  simp only [acted_bind]
  intros
  split <;> simp
@[simp] theorem execCusGive_sameMem (pr : BitVec 2) (s : State) : Answers (SameMem s) (execCusGive pr s) := by
  unfold execCusGive
  refine answers_cus fun c => ?_
  simp only [acted_bind]
  intros
  split
  · simp
  · simp only [acted_ite, acted_bind]
    refine ⟨fun _ => by simp, fun _ => ⟨fun _ => by simp, fun _ => ?_⟩⟩
    intros
    split <;> simp
@[simp] theorem execCusBreak_sameMem (pr : BitVec 2) (s : State) : Answers (SameMem s) (execCusBreak pr s) := by
  unfold execCusBreak
  refine answers_cus fun c => ?_
  simp only [acted_bind]
  intros
  split <;> simp
@[simp] theorem execEngineCancel_sameMem (pr : BitVec 2) (s : State) : Answers (SameMem s) (execEngineCancel pr s) := by
  unfold execEngineCancel
  refine answers_plain fun c => ?_
  simp only [acted_bind]
  intros
  split <;> simp

/-! ### Every instruction -/

/-- The events that may write HBM, far memory or the host's memory. -/
def writesMemory : Instr → Bool
  | .atomicopCompletion .. | .drainReduction .. | .imageSwap .. | .engineUnits .. | .engineChunkStop .. | .blockStep .. |
    .mzeroComplete .. | .replyEntryWrite .. | .homePerform .. | .reset => true
  | _ => false
theorem exec_sameMem (i : Instr) (s : State) (hi : writesMemory i = false) : Answers (SameMem s) (exec i s) := by
  cases i
  case atomicopCompletion | drainReduction | imageSwap | engineUnits | engineChunkStop | blockStep | mzeroComplete |
    replyEntryWrite | homePerform | reset => cases hi
  case blockFetch | blockAdmission | blockStuck | yieldTimeout | sleepExpiry | instructionAged | favouredSlotMove |
    portWordArrival | blockCommit | commitWait | outboundDepart | stationRequest | walkComplete | atsTranslationCompletion |
    pageRequestSend | priResponse | atsInvalidationRequest | stationInvalidationAnswer | responseArrival |
    completionTimeout | requestHeld | lotReadback | migrationResume | flushMarker | lodgeEndComplete | lodgingWatchdog |
    deviceWatchdog | faultMessageSend | remoteAnswer | counterDischarge | handlerRetry | bindArrival | invocationArrival |
    claimFulfilment | claimBreak | queueMessageArrival | sendwResend | claimWaiterPoll | objectWaiterPoll | startArrival |
    arrivalResend | deskDecision | launchAged | ringStart | leaveGrant | leaveWaitCount | engineEnd | feedFblockEnter |
    matrixCommandAccept | engineStarved | inletLaunch | inletWindow | inletPost | inletCredit | inletAgent | inletCall |
    inletUnknownKind | inletWriteDiscarded | inletRead | sessionBindRequest | flitReceive | linkFailure |
    collectiveEntryPass | trapRecordWrite | scrubVisit | unitFailure | testPatternEnd | statSumRound | firmwareSwitch |
    firmwareHandover | spdmRequest | read | port | handoff | sleep | vgather | vscatter | qld | qst | osmStep | osmNorm |
    ctrNew | ctrStat | invoke | invokec | send | qnew | spawn | launch | cusTake | cusResume | cusGive | cusBreak |
    engineCancel =>
    simp [exec]
  case extWide | extHint | extModifier | write | wport | null | mov | bro | call | brc | ret | callc | exit | yield =>
    simp [exec, execExtWide, execExtHint, execExtModifier, execWrite, execWport, execNull, execMov, execBro, execCall, execBrc,
      execRet, execCallc, execExit, execYield]
  case add | sub | and | or | xor | andn | shl | shr | sra | rol | min | max | minn | maxn | sel | mul | mulh | mulhn | div |
    divn | rem | remn | clz | ctz | pop | sext8 | sext16 | sext32 | zext8 | zext16 | zext32 | brev | bswap =>
    simp [exec, execAdd, execSub, execAnd, execOr, execXor, execAndn, execShl, execShr, execSra, execRol, execMin, execMax,
      execMinn, execMaxn, execSel, execMul, execMulh, execMulhn, execDiv, execDivn, execRem, execRemn, execClz, execCtz,
      execPop, execSext8, execSext16, execSext32, execZext8, execZext16, execZext32, execBrev, execBswap]
  case teq | tne | tlt | tle | tltn | tlen | tbit | pand | por | pxor | pnot | pany | pall | pcnt | pfirst =>
    simp [exec, execTeq, execTne, execTlt, execTle, execTltn, execTlen, execTbit, execPand, execPor, execPxor, execPnot,
      execPany, execPall, execPcnt, execPfirst]
  case addi | addiw | andi | ori | xori | shli | shri | srai | muli | teqi | tnei | tlti | tlei | tltni | movi | movif =>
    simp [exec, execAddi, execAddiw, execAndi, execOri, execXori, execShli, execShri, execSrai, execMuli, execTeqi, execTnei,
      execTlti, execTlei, execTltni, execMovi, execMovif]
  case cadd | cseta | csetb | csetbx | cperm | cseal | cunseal | cgeta | cgetb | cgetl | cgetp | cgetk | ctagt | csub | ceq |
    cclr | caddi =>
    simp [exec, execCadd, execCseta, execCsetb, execCsetbx, execCperm, execCseal, execCunseal, execCgeta, execCgetb, execCgetl,
      execCgetp, execCgetk, execCtagt, execCsub, execCeq, execCclr, execCaddi]
  case ldI8 | ldN8 | ldI16 | ldN16 | ldI32 | ldN32 | ld64 | ldv | ldc =>
    simp [exec, execLdI8, execLdN8, execLdI16, execLdN16, execLdI32, execLdN32, execLd64, execLdv, execLdc]
  case st8 | st16 | st32 | st64 | stv | stc =>
    simp [exec, execSt8, execSt16, execSt32, execSt64, execStv, execStc]
  case aad | aswp | acas | amin | amax | aminn | amaxn | aand | aor | axor | fenceAcq | fenceRel | fenceFull =>
    simp [exec, execAad, execAswp, execAcas, execAmin, execAmax, execAminn, execAmaxn, execAand, execAor, execAxor, execFenceAcq,
      execFenceRel, execFenceFull]
  case vadd | vsub | vmul | vdiv | vmin | vmax | vabs | vneg | vsqrt | vrcp | vrsq | vexp2 | vlog2 | vtanh | vsin | vcos |
    vfloor | vceil | vrint | vclass =>
    simp [exec, execVadd, execVsub, execVmul, execVdiv, execVmin, execVmax, execVabs, execVneg, execVsqrt, execVrcp, execVrsq,
      execVexp2, execVlog2, execVtanh, execVsin, execVcos, execVfloor, execVceil, execVrint, execVclass]
  case vaddF16 | vsubF16 | vmulF16 | vdivF16 | vminF16 | vmaxF16 | vabsF16 | vnegF16 | vsqrtF16 | vrcpF16 | vrsqF16 | vexp2F16 |
    vlog2F16 | vtanhF16 | vsinF16 | vcosF16 =>
    simp [exec, execVaddF16, execVsubF16, execVmulF16, execVdivF16, execVminF16, execVmaxF16, execVabsF16, execVnegF16,
      execVsqrtF16, execVrcpF16, execVrsqF16, execVexp2F16, execVlog2F16, execVtanhF16, execVsinF16, execVcosF16]
  case vaddI32 | vsubI32 | vmulI32 | vmulhI32 | vminI32 | vmaxI32 | vabsI32 | vnegI32 | vandI32 | vorI32 | vxorI32 | vshlI32 |
    vshrI32 | vsraI32 | vaddI16 | vsubI16 | vmulI16 | vmulhI16 | vminI16 | vmaxI16 | vabsI16 | vnegI16 | vandI16 | vorI16 |
    vxorI16 | vshlI16 | vshrI16 | vsraI16 =>
    simp [exec, execVaddI32, execVsubI32, execVmulI32, execVmulhI32, execVminI32, execVmaxI32, execVabsI32, execVnegI32,
      execVandI32, execVorI32, execVxorI32, execVshlI32, execVshrI32, execVsraI32, execVaddI16, execVsubI16, execVmulI16,
      execVmulhI16, execVminI16, execVmaxI16, execVabsI16, execVnegI16, execVandI16, execVorI16, execVxorI16, execVshlI16,
      execVshrI16, execVsraI16]
  case vfma | vfms | vnfma | vnfms | vcmpEq | vcmpNe | vcmpLt | vcmpLe =>
    simp [exec, execVfma, execVfms, execVnfma, execVnfms, execVcmpEq, execVcmpNe, execVcmpLt, execVcmpLe]
  case vcvtF32F64 | vcvtF64F32 | vcvtF16F32 | vcvtF32F16 | vcvtBf16F32 | vcvtF32Bf16 | vcvtE4m3F32 | vcvtE5m2F32 |
    vcvtE4m3F32Nosat | vcvtE5m2F32Nosat | vcvtF32E4m3 | vcvtF32E5m2 | vcvtI32F32 | vcvtN32F32 | vcvtF32I32 | vcvtF32N32 |
    vcvtI64F64 | vcvtN64F64 | vcvtF64I64 | vcvtF64N64 | vcvtI16I32 | vcvtI8I32 | vcvtI32I16 | vcvtI32I8 =>
    simp [exec, execVcvtF32F64, execVcvtF64F32, execVcvtF16F32, execVcvtF32F16, execVcvtBf16F32, execVcvtF32Bf16,
      execVcvtE4m3F32, execVcvtE5m2F32, execVcvtE4m3F32Nosat, execVcvtE5m2F32Nosat, execVcvtF32E4m3, execVcvtF32E5m2,
      execVcvtI32F32, execVcvtN32F32, execVcvtF32I32, execVcvtF32N32, execVcvtI64F64, execVcvtN64F64, execVcvtF64I64,
      execVcvtF64N64, execVcvtI16I32, execVcvtI8I32, execVcvtI32I16, execVcvtI32I8]
  case vshuf | vbcast | vrot | viota | vcomp | vexpand | vzip | vunzip | vnz | vnzi | vins | vext =>
    simp [exec, execVshuf, execVbcast, execVrot, execViota, execVcomp, execVexpand, execVzip, execVunzip, execVnz, execVnzi,
      execVins, execVext]
  case vredAdd | vredMax | vredMin | vredMaxn | vredMinn | vredAnd | vredOr | vredXor | vsel | vqhdr | vqpk | vdq | vbaq |
    vbmax | vbfmt =>
    simp [exec, execVredAdd, execVredMax, execVredMin, execVredMaxn, execVredMinn, execVredAnd, execVredOr, execVredXor,
      execVsel, execVqhdr, execVqpk, execVdq, execVbaq, execVbmax, execVbfmt]
  case ctrDec | ctrBind | ctrSplit | rarm | fulfil | brk | wait | waitSt | sendw | qbind | qunbind =>
    simp [exec, execCtrDec, execCtrBind, execCtrSplit, execRarm, execFulfil, execBrk, execWait, execWaitSt, execSendw, execQbind,
      execQunbind]
  case cpy | tile | feedA | feedB | mma | mzero | mstat | trap | isync =>
    simp [exec, execCpy, execTile, execFeedA, execFeedB, execMma, execMzero, execMstat, execTrap, execIsync]
  case sysRd | sysWr | stnMap | stnInv | stnReplay | lodgeNew | lodgeEnd | migrate | shadowSave | shadowLoad | testRun | statSum =>
    simp [exec, execSysRd, execSysWr, execStnMap, execStnInv, execStnReplay, execLodgeNew, execLodgeEnd, execMigrate,
      execShadowSave, execShadowLoad, execTestRun, execStatSum]

/-! ## The parts of the machine that write a memory keep its canonical form -/

/-- HBM, far memory and the host's memory are in canonical form (log 4). -/
@[simp] abbrev Canonical (s : State) : Prop := Memory.wf s.hbm = true ∧ Memory.wf s.far = true ∧ Memory.wf s.host = true
theorem memoryOk_iff {s : State} : s.memoryOk = true ↔ Canonical s := by
  simp [State.memoryOk, and_assoc]
theorem SameMem.canonical {s t : State} (h : SameMem s t) (g : Canonical s) : Canonical t :=
  ⟨h.1.symm ▸ g.1, h.2.1.symm ▸ g.2.1, h.2.2.symm ▸ g.2.2⟩
theorem canonical_ite {p : Prop} [Decidable p] {t u : State} (ht : Canonical t) (hu : Canonical u) : Canonical (if p then t else u) := by
  split
  · exact ht
  · exact hu
theorem canonical_foldl {β : Type} {f : State → β → State} (h : ∀ s b, Canonical s → Canonical (f s b)) (bs : List β) {s : State} (g : Canonical s) :
    Canonical (bs.foldl f s) := by
  induction bs generalizing s with
  | nil => exact g
  | cons b bs ih => exact ih (h s b g)

section
variable {s : State} (h : Canonical s)
include h

/-! ### HBM and far memory -/
theorem canonical_rekey (isFar : Bool) (key u : Nat) : Canonical (s.rekey isFar key u) := by
  unfold State.rekey
  dsimp only
  (repeat' split) <;> simp [h, wf_writeBytes]
@[simp] theorem canonical_memWrite (isFar : Bool) (key pa : Nat) (bs : List (Option Byte)) : Canonical (s.memWrite isFar key pa bs) := by
  have hk := fun us : List Nat => canonical_foldl (f := fun s u => s.rekey isFar key u) (fun _ u h => canonical_rekey h isFar key u) us h
  unfold State.memWrite
  dsimp only
  split
  · exact h
  · split <;> simp [hk, wf_writeMasked]
@[simp] theorem canonical_freeSpace (n : Nat) : Canonical (s.freeSpace n) := by
  simp [State.freeSpace, h]
@[simp] theorem canonical_writeAt (space : Nat) (p : Place) (bs : List (Option Byte)) (tag : Bool) : Canonical (s.writeAt space p bs tag) := by
  cases p with
  | loc r k off => simp [State.writeAt, h]
  | hbm pa => cases tag <;> simp [State.writeAt, h]
  | far pa => simp [State.writeAt, h]
  | host pa mode => simp [State.writeAt, h, wf_writeMasked]
  | peer d => exact h
@[simp] theorem canonical_amoAt (q : Req) (a : MemAddr) (p : Place) (op w : Nat) (v e : Word) : Canonical (s.amoAt q a p op w v e) := by
  unfold State.amoAt
  dsimp only
  (repeat' split) <;> simp [h]
@[simp] theorem canonical_performMem (q : Req) (a : MemAddr) (op : MemOp) (p : Place) : Canonical (s.performMem q a op p) := by
  unfold State.performMem
  dsimp only
  (repeat' split) <;> simp [h]
@[simp] theorem canonical_stnMap (q : Req) (space level : Nat) (va e : Word) : Canonical (s.stnMap q space level va e) := by
  unfold State.stnMap
  dsimp only
  (repeat' split) <;> simp [h]

/-! ### Lodgings -/
theorem canonical_putHeader (n : Nat) : Canonical (s.putHeader n) := by
  unfold State.putHeader
  split <;> simp [h]
@[simp] theorem canonical_setPhase (n p : Nat) : Canonical (s.setPhase n p) := canonical_putHeader (by simp [h]) n
@[simp] theorem canonical_wrote (n logical : Nat) : Canonical (s.wrote n logical) := canonical_putHeader (by simp [h]) n
@[simp] theorem canonical_enginesStopped (n : Nat) : Canonical (s.enginesStopped n) := by
  unfold State.enginesStopped
  split <;> simp [h]
@[simp] theorem canonical_saved (n pa : Nat) : Canonical (s.saved n pa) := by
  simp [State.saved, h]
@[simp] theorem canonical_shadowSave (q : Req) (n : Nat) (m : MemAddr) (limit receipt : Nat) : Canonical (s.shadowSave q n m limit receipt) := by
  unfold State.shadowSave
  split
  · simp [h]
  · exact (sameMem_recordAt ‹_›).canonical h
  · refine canonical_ite (by simp [h]) <| canonical_ite (by simp [h]) <| canonical_ite (by simp [h]) <| canonical_ite (by simp [h]) <|
      canonical_ite (by simp [h]) ?_
    split
    · simp [h]
    · exact (sameMem_recordPages ‹_›).canonical h
    · simp [h]
  · simp [h]

/-! ### Engines -/
theorem canonical_porterWrite (c : PorterCmd) (p : Place) (gs : List (List Byte × Bool)) : Canonical (s.porterWrite c p gs) :=
  canonical_foldl (fun _ _ h => canonical_writeAt h ..) _ h
@[simp] theorem canonical_unitWrite (r : Nat) (c : PorterCmd) (o : Nat) (d : Place) (gs : List (List Byte × Bool)) :
    Canonical (s.unitWrite r c o d gs) := by
  unfold State.unitWrite
  split <;> simp [h, canonical_porterWrite]
@[simp] theorem canonical_porterUnit (r : Nat) (c : PorterCmd) (o : Nat) : Canonical (s.porterUnit r c o) := by
  have hs := fun t (e : s.reach r c true o = .wait t) => (sameMem_reach e).canonical h
  have hd := fun t (e : s.reach r c false o = .wait t) => (sameMem_reach e).canonical h
  unfold State.porterUnit
  generalize s.reach r c true o = src at hs ⊢
  generalize s.reach r c false o = dst at hd ⊢
  cases c.zero with
  | true => cases dst with
    | ok d tag => simp [h]
    | fail e => simp [h]
    | wait t => exact hd t rfl
  | false => cases src with
    | fail e => simp [h]
    | wait t => exact hs t rfl
    | ok p tag => cases dst with
      | fail e => simp [h]
      | wait t => exact hd t rfl
      | ok d tag =>
        simp only [Bool.false_eq_true, if_false]
        (repeat' split) <;> simp [h]
@[simp] theorem canonical_unitAnswered (r : Nat) (c : PorterCmd) (q : Req) (o : Nat) (resp : Resp) : Canonical (s.unitAnswered r c q o resp) := by
  unfold State.unitAnswered
  split
  · simp [h]
  · simp [h]
  · refine canonical_ite (by simp [h]) ?_
    split
    · simp [h]
    · simp [h]
    · exact (sameMem_reach ‹_›).canonical h
@[simp] theorem canonical_blockStep (r : Nat) (m : MxCmd) : Canonical (s.blockStep r m) := by
  unfold State.blockStep
  refine canonical_ite (by simp [h]) ?_
  dsimp only
  generalize stepTile _ _ _ = out
  cases out with
  | error e => simp [h]
  | ok out => exact canonical_ite (by simp [h]) (by simp [h])
@[simp] theorem canonical_sumOne (q : Req) : Canonical (s.sumOne q) := by
  unfold State.sumOne
  split
  · split
    · simp [h]
    · simp [h]
    · simp [h]
    · exact (sameMem_sumPlace ‹_›).canonical h
  · exact h

/-! ### The host's side -/
theorem canonical_inletWindow (q : Req) (session seq : Nat) (p : BitVec 320) : Canonical (s.inletWindow q session seq p) := by
  unfold State.inletWindow
  refine canonical_ite (by simp [h]) (canonical_ite (by simp [h]) ?_)
  split
  · simp [h]
  · simp [h]
  · split
    · simp [h]
    · split
      · simp [h]
      · have ht := (sameMem_toHostInbox ‹_›).canonical h
        simp [ht]
@[simp] theorem canonical_inletActs (q : Req) (session seq kind : Nat) (p : BitVec 320) : Canonical (s.inletActs q session seq kind p) := by
  unfold State.inletActs
  refine canonical_ite (by simp [h]) (canonical_ite h ?_)
  split <;> simp [h, canonical_inletWindow]
@[simp] theorem canonical_agentActs (id : Nat) : Canonical (s.agentActs id) := by
  unfold State.agentActs
  split
  · split
    · exact canonical_ite h (canonical_writeAt h ..)
    · exact h
  · exact h
@[simp] theorem canonical_bootWith (i : Config.Image) : Canonical (s.bootWith i) := by
  simp [State.bootWith, h]
end

/-! ### Calls of the device's service -/
/-- What holds of the state that a call leaves, when it leaves one. -/
def CallEnd.All (P : State → Prop) : CallEnd → Prop
  | .done t _ => P t
  | .wait t => P t
  | .fail _ => True
@[simp] theorem callEnd_all_done (P : State → Prop) (t : State) (v : Value) : CallEnd.All P (.done t v) ↔ P t := Iff.rfl
@[simp] theorem callEnd_all_wait (P : State → Prop) (t : State) : CallEnd.All P (.wait t) ↔ P t := Iff.rfl
@[simp] theorem callEnd_all_fail (P : State → Prop) (k : Nat) : CallEnd.All P (.fail k) := trivial
@[simp] theorem callEnd_all_ite {P : State → Prop} {p : Prop} [Decidable p] {a b : CallEnd} :
    CallEnd.All P (if p then a else b) ↔ (p → CallEnd.All P a) ∧ (¬ p → CallEnd.All P b) := by
  split <;> simp [*]
theorem CallEnd.All.mono {P Q : State → Prop} (h : ∀ t, P t → Q t) : ∀ {e : CallEnd}, e.All P → e.All Q
  | .done t _, g => h t g
  | .wait t, g => h t g
  | .fail _, _ => trivial
theorem engineGrant_sameMem (s : State) (c : Call) : (s.engineGrant c).All (SameMem s) := by
  unfold State.engineGrant
  simp
theorem queueOffer_sameMem (s : State) (c : Call) : (s.queueOffer c).All (SameMem s) := by
  unfold State.queueOffer
  dsimp only
  split <;> simp
theorem queueAccept_sameMem (s : State) (c : Call) : (s.queueAccept c).All (SameMem s) := by
  unfold State.queueAccept
  simp
theorem peerQueueGrant_sameMem (s : State) (q : Req) (c : Call) : (s.peerQueueGrant q c).All (SameMem s) := by
  unfold State.peerQueueGrant
  dsimp only
  (repeat' split) <;> simp
  exact sameMem_tells ‹_›
theorem collMade_sameMem (s : State) (q : Req) (c : Call) (n b : Nat) (es : List (Nat × Nat × Nat)) : (s.collMade q c n b es).All (SameMem s) := by
  unfold State.collMade
  dsimp only
  (repeat' split) <;> simp
  · exact sameMem_tells ‹_›
  · exact sameMem_tells ‹_›
  · exact (sameMem_collRecord ..).trans (sameMem_tells ‹_›)
theorem collectiveMake_sameMem (s : State) (q : Req) (c : Call) : (s.collectiveMake q c).All (SameMem s) := by
  unfold State.collectiveMake
  split
  · simp
  · simp only [callEnd_all_ite]
    refine ⟨fun _ => trivial, fun _ => ?_⟩
    split
    · exact sameMem_callRead ‹_›
    · simp
    · simp only [callEnd_all_ite]
      refine ⟨fun _ => trivial, fun _ => ?_⟩
      split
      · exact sameMem_collEntries ‹_›
      · simp
      · exact collMade_sameMem ..
theorem collectiveDo_sameMem {s : State} {f : State → Nat → State} (hf : ∀ i, SameMem s (f s i)) (q : Req) (c : Call) (op : Nat) :
    (s.collectiveDo q c op f).All (SameMem s) := by
  unfold State.collectiveDo
  split
  · split
    · exact sameMem_tells ‹_›
    · exact hf _
  · simp
theorem windowFree_canonical {s : State} (h : Canonical s) (q : Req) (c : Call) : (s.windowFree q c).All Canonical := by
  unfold State.windowFree
  dsimp only
  (repeat' split) <;> simp [h]
theorem call_canonical {s : State} (h : Canonical s) (q : Req) (c : Call) : (s.call q c).All Canonical := by
  have hs : ∀ {e : CallEnd}, e.All (SameMem s) → e.All Canonical := .mono fun t ht => ht.canonical h
  unfold State.call
  simp only [callEnd_all_ite]
  refine ⟨fun _ => trivial, fun _ => ?_⟩
  split
  · exact hs (engineGrant_sameMem ..)
  · exact callEnd_all_ite.2 ⟨fun _ => trivial, fun _ => hs (queueOffer_sameMem ..)⟩
  · exact hs (queueAccept_sameMem ..)
  · exact callEnd_all_ite.2 ⟨fun _ => trivial, fun _ => hs (peerQueueGrant_sameMem ..)⟩
  · exact callEnd_all_ite.2 ⟨fun _ => trivial, fun _ => hs (collectiveMake_sameMem ..)⟩
  · exact callEnd_all_ite.2 ⟨fun _ => trivial, fun _ => hs (collectiveDo_sameMem (fun _ => sameMem_collArm ..) ..)⟩
  · exact callEnd_all_ite.2 ⟨fun _ => trivial, fun _ => hs (collectiveDo_sameMem (fun _ => sameMem_collFree ..) ..)⟩
  · exact callEnd_all_ite.2 ⟨fun _ => windowFree_canonical h .., fun _ => trivial⟩
  · exact h
  · trivial
@[simp] theorem canonical_serveCall {s : State} (h : Canonical s) (q : Req) (r k gen call : Nat) : Canonical (s.serveCall q r k gen call) := by
  unfold State.serveCall
  refine canonical_ite (by simp [h]) (canonical_ite h ?_)
  split
  · exact h
  · simp [h]
  · next c arg _ =>
    have hc := call_canonical (s := s.keepRecord r k c arg) (by simp [h]) q c
    split
    · next he => rw [he] at hc; simp_all
    · simp [h]
    · next he => rw [he] at hc; exact hc

/-! ### The events that may write a memory -/
section
variable {s : State} (h : Canonical s)
include h
theorem execAtomicopCompletion_canonical (req : Nat) (ok : Bool) : Answers Canonical (execAtomicopCompletion req ok s) := by
  unfold execAtomicopCompletion
  (repeat' split) <;> simp [h]
theorem execDrainReduction_canonical (lodging : Nat) : Answers Canonical (execDrainReduction lodging s) := by
  unfold execDrainReduction
  exact canonical_ite (by simp [h]) (by simp [h])
theorem execImageSwap_canonical (lodging logical : Nat) : Answers Canonical (execImageSwap lodging logical s) := by
  unfold execImageSwap
  dsimp only
  split
  · refine answers_ite.2 ⟨fun _ => ?_, fun _ => answers_ite.2 ⟨fun _ => ?_, fun _ => h⟩⟩
    · exact canonical_ite (by simp [h]) (by simp [h])
    · split
      · exact canonical_ite (by simp [h]) (by simp [h])
      · exact h
  · exact h
theorem execEngineUnits_canonical (core cmd : Nat) : Answers Canonical (execEngineUnits core cmd s) := by
  unfold execEngineUnits
  split
  · next c _ =>
    split
    · simp [h]
    · refine answers_ite.2 ⟨fun _ => h, fun _ => ?_⟩
      dsimp only
      generalize (c.next s.cycle)[Config.pick s.tick % (c.next s.cycle).length]? = o
      cases o <;> simp [h]
  · exact h
theorem execEngineChunkStop_canonical (core cmd : Nat) : Answers Canonical (execEngineChunkStop core cmd s) := by
  unfold execEngineChunkStop
  dsimp only
  (repeat' split) <;> simp [h]
theorem execBlockStep_canonical (core : Nat) : Answers Canonical (execBlockStep core s) := by
  unfold execBlockStep
  (repeat' split) <;> simp [h]
theorem execMzeroComplete_canonical (core : Nat) : Answers Canonical (execMzeroComplete core s) := by
  unfold execMzeroComplete
  dsimp only
  split
  · refine answers_ite.2 ⟨fun _ => h, fun _ => ?_⟩
    generalize List.replicate 0x2000 (some (0 : Byte)) = bs
    simp [h]
  · exact h
theorem execReplyEntryWrite_canonical (lodging queue : Nat) : Answers Canonical (execReplyEntryWrite lodging queue s) := by
  unfold execReplyEntryWrite
  dsimp only
  split
  · refine answers_ite.2 ⟨fun _ => h, fun _ => answers_ite.2 ⟨fun _ => ?_, fun _ => ?_⟩⟩
    · simp [h, wf_writeBytes]
    · split
      · refine (sameMem_answer ..).canonical (canonical_ite ?_ ?_) <;> simp [h, wf_writeBytes]
      · refine canonical_ite ?_ ?_ <;> simp [h, wf_writeBytes]
  · exact h
theorem execHomePerform_canonical (req : Nat) : Answers Canonical (execHomePerform req s) := by
  unfold execHomePerform
  (repeat' split) <;> simp [h]
  next t _ ht => exact SameMem.canonical ((congrArg (SameMem s ·.1) ht).mp (sameMem_collTold ..)) h
theorem execReset_canonical : Answers Canonical (execReset s) := by
  unfold execReset
  dsimp only
  split <;> simp [h, State.reset]
end
theorem Answers.mono {P Q : State → Prop} {o : Out} (h : ∀ t, P t → Q t) (g : Answers P o) : Answers Q o := by
  cases o with
  | next t => exact h t g
  | fault f => exact g
  | refused r => exact g
theorem Answers.exists_next {P : State → Prop} {o : Out} (g : Answers P o) : ∃ t, o = .next t ∧ P t := by
  cases o with
  | next t => exact ⟨t, rfl, g⟩
  | fault f => exact g.elim
  | refused r => exact g.elim

section
variable {s : State} (h : Canonical s)
include h
theorem exec_canonical (i : Instr) : Answers Canonical (exec i s) := by
  cases i with
  | atomicopCompletion req ok => exact execAtomicopCompletion_canonical h req ok
  | drainReduction lodging => exact execDrainReduction_canonical h lodging
  | imageSwap lodging logical => exact execImageSwap_canonical h lodging logical
  | engineUnits core cmd => exact execEngineUnits_canonical h core cmd
  | engineChunkStop core cmd => exact execEngineChunkStop_canonical h core cmd
  | blockStep core => exact execBlockStep_canonical h core
  | mzeroComplete core => exact execMzeroComplete_canonical h core
  | replyEntryWrite lodging queue => exact execReplyEntryWrite_canonical h lodging queue
  | homePerform req => exact execHomePerform_canonical h req
  | reset => exact execReset_canonical h
  | _ => exact (exec_sameMem _ s rfl).mono fun t ht => ht.canonical h

/-! ## A turn -/

/-- Two lockstepped slots make one step of the machine: what they leave is what one of them left (R326). -/
theorem canonical_joined {s1 : State} (h1 : Canonical s1) (t t1 : State) (r k q j idx : Nat) : Canonical (s.joined s1 t t1 r k q j idx) := by
  unfold State.joined
  dsimp only
  (repeat' split) <;> simp [h, h1]
theorem canonical_both {f : State → Out} (hf : ∀ t, Canonical t → Answers Canonical (f t)) (r k idx : Nat) :
    Answers Canonical (s.both r k idx f) := by
  unfold State.both
  split
  · exact hf s h
  · next q j _ =>
    obtain ⟨s1, es, h1⟩ := (hf s h).exists_next
    obtain ⟨t1, et, _⟩ := (hf _ ((sameMem_asTwin s r k q j).canonical h)).exists_next
    simp only [es, et]
    exact canonical_joined h h1 ..
theorem canonical_fireAt (core slot idx : Nat) : Answers Canonical (s.fireAt core slot idx) := by
  unfold State.fireAt
  dsimp only
  split
  · exact h
  · split
    · exact execRow_eq .. ▸ exec_canonical (s := { s with here := (core, slot, idx) }) h _
    · exact h
theorem canonical_fireBoth (core slot idx : Nat) : Answers Canonical (s.fireBoth core slot idx) :=
  canonical_both h (fun _ h => canonical_fireAt h ..) ..
theorem canonical_keep (core pipe : Nat) : Answers Canonical (s.keep core pipe) := by
  unfold State.keep
  split
  · exact canonical_fireBoth h ..
  · exact h
theorem canonical_ownStep (i : Instr) : Answers Canonical (s.ownStep i) := by
  unfold State.ownStep
  split
  · exact canonical_both h (fun _ h => exec_canonical h _) ..
  · exact canonical_both h (fun _ h => exec_canonical h _) ..
  · exact exec_canonical h _
theorem canonical_outside (e : Env) : Canonical (s.outside e) := by
  cases e with
  | portError | portUnitError =>
    dsimp only [State.outside]
    (repeat' split) <;> simp [h]
  | _ => simp [State.outside, h, wf_writeBytes]
theorem canonical_perform (t : Turn) : Answers Canonical (s.perform t) := by
  cases t with
  | fire core slot idx => exact answers_ite.2 ⟨fun _ => canonical_fireBoth h .., fun _ => h⟩
  | keep core pipe => exact canonical_keep h ..
  | event i => exact answers_ite.2 ⟨fun _ => canonical_ownStep h i, fun _ => h⟩
  | env e => exact canonical_outside h e
theorem canonical_nextTurn : Canonical s.nextTurn.2 := by
  unfold State.nextTurn
  split <;> exact h
theorem canonical_step : Answers Canonical (step s) := canonical_perform (canonical_nextTurn h) _
end

/-- Settles O58: the ten events of `writesMemory` write through `writeBytes` and `writeMasked` alone, every other instruction leaves the
three memories as they are, and no arm of `exec` faults or refuses. -/
theorem everyStepGoesOnAndKeepsMemoriesCanonical : Obligations.EveryStepGoesOnAndKeepsMemoriesCanonical := by
  unfold Obligations.EveryStepGoesOnAndKeepsMemoriesCanonical
  intro s h
  obtain ⟨t, ht, hc⟩ := (canonical_step (memoryOk_iff.1 h)).exists_next
  exact ⟨t, ht, memoryOk_iff.2 hc⟩

end Sys2Proof.Machine
end

section
/-! SUPPORT. A firing from what its own effect answers: one lemma for an effect that faults, one for one that goes on, one for one that has
taken the trap itself; and what a trap leaves of the block. -/

namespace Sys2Proof.Claims
open Sys2Proof.Machine

/-! ## Traps -/

/-- The block of an activity that has trapped is gone (R72). -/
@[simp] theorem blk_takeTrap (s : State) (r k : Nat) (t : Trap) (index : W32) (flags : Nat) : ((s.takeTrap r k t index flags).slot r k).blk = default := by
  unfold State.takeTrap
  dsimp only
  split
  · next s' h => rw [slot_updSlot_same, (Queued.writeTrap h).slot, slot_updSlot_same]
  · rw [slot_updSlot_same]

/-! ## What the meaning of an instruction sees -/

section
variable (s : State) (row : Row) (l r t : Value) (m : BitVec 16)
@[simp] theorem ctxOf_s : (ctxOf s row l r t m).s = s := rfl
@[simp] theorem ctxOf_l : (ctxOf s row l r t m).l = l := rfl
@[simp] theorem ctxOf_r : (ctxOf s row l r t m).r = r := rfl
@[simp] theorem ctxOf_t : (ctxOf s row l r t m).t = t := rfl
@[simp] theorem ctxOf_mask : (ctxOf s row l r t m).mask = m := rfl
@[simp] theorem ctxOf_core : (ctxOf s row l r t m).core = s.here.1 := rfl
@[simp] theorem ctxOf_slot : (ctxOf s row l r t m).slot = s.here.2.1 := rfl
@[simp] theorem ctxOf_idx : (ctxOf s row l r t m).idx = indexOf s := rfl
@[simp] theorem ctxOf_blk : (ctxOf s row l r t m).x.blk = blkOf s := rfl
@[simp] theorem ctxOf_masked (v : Value) : (ctxOf s row l r t m).masked v = lanesOf m v := rfl
@[simp] theorem ctxOf_logical : (ctxOf s row l r t m).logical = logicalOf s := rfl
@[simp] theorem ctxOf_lodging : (ctxOf s row l r t m).lodging = lodgingOf s := rfl
end

/-! ## Operands of object instructions (R43, R119) -/

theorem checkCap_ok {s : State} {q k : Nat} {ps : List Nat} {v : Value} (h : Capability s q k ps v) : checkCap v k ps = .ok v.cap := by
  have hp : (ps.any fun p => !capHas v.cap p) = false := List.any_eq_false.2 fun p hp => by simp [h.permits p hp]
  simp [checkCap, h.tagged, h.kind, hp]
theorem checkScalar_ok {v : Value} (h : v.tag ≠ .broken) : checkScalar v = .ok v.scalar := by simp [checkScalar, h]

/-! ## What a firing asks for -/

theorem Given.read {s : State} {q : Nat} {v : Value} (g : Given s q v) : (opnd s q).getD default = v := by rw [g.arrived]; rfl

/-- All that lets an instruction's own effect take place, on the operands `l`, `r` and `t` (R54 to R58, R471). -/
structure Fires (s : State) (f : Form) (pr : BitVec 2) (m : BitVec 16) (l r t : Value) : Prop where
  may : MayFire s
  runs : Runs s pr m
  mode : f.pr = pr.toNat
  whole : Whole s f
  left : (opnd s 0).getD default = l
  right : (opnd s 1).getD default = r
  third : (opnd s 2).getD default = t
  usable : f.brokenWhole l r t = false
  below : f.row.isLoad = false ∨ storesDone (blkOf s) (lsidOf (wordOf s)).toNat = true

section
variable {s : State} {f : Form} {pr : BitVec 2} {m : BitVec 16} {a b d : Value}

/-- A form without operands. -/
theorem Fires.none (h : MayFire s) (hr : Runs s pr m) (mode : f.pr = pr.toNat) (n : f.arity = 0) (g : (f.row == .cusGive) = false)
    (usable : ∀ l r t, f.brokenWhole l r t = false) (below : f.row.isLoad = false) :
    Fires s f pr m ((opnd s 0).getD default) ((opnd s 1).getD default) ((opnd s 2).getD default) :=
  ⟨h, hr, mode, ⟨.inl (by omega), .inl (by omega), .inl (by omega), .inl g⟩, rfl, rfl, rfl, usable _ _ _, .inl below⟩
/-- A form with an operand in L. -/
theorem Fires.one (h : MayFire s) (hr : Runs s pr m) (mode : f.pr = pr.toNat) (n : f.arity = 1) (g : (f.row == .cusGive) = false)
    (ga : Given s 0 a) (wa : f.wl = 0 ∨ a.validTo f.wl = true) (usable : ∀ r t, f.brokenWhole a r t = false)
    (below : f.row.isLoad = false ∨ storesDone (blkOf s) (lsidOf (wordOf s)).toNat = true) :
    Fires s f pr m a ((opnd s 1).getD default) ((opnd s 2).getD default) :=
  ⟨h, hr, mode, ⟨.inr ⟨a, ga.arrived, ga.real, wa⟩, .inl (by omega), .inl (by omega), .inl g⟩, ga.read, rfl, rfl, usable _ _, below⟩
/-- A form with operands in L and R. -/
theorem Fires.two (h : MayFire s) (hr : Runs s pr m) (mode : f.pr = pr.toNat) (n : f.arity = 2) (g : (f.row == .cusGive) = false)
    (ga : Given s 0 a) (wa : f.wl = 0 ∨ a.validTo f.wl = true) (gb : Given s 1 b) (wb : f.wr = 0 ∨ b.validTo f.wr = true)
    (usable : ∀ t, f.brokenWhole a b t = false) (below : f.row.isLoad = false) : Fires s f pr m a b ((opnd s 2).getD default) :=
  ⟨h, hr, mode, ⟨.inr ⟨a, ga.arrived, ga.real, wa⟩, .inr ⟨b, gb.arrived, gb.real, wb⟩, .inl (by omega), .inl g⟩, ga.read, gb.read, rfl,
    usable _, .inl below⟩
/-- A form with operands in L, R and X. -/
theorem Fires.three (h : MayFire s) (hr : Runs s pr m) (mode : f.pr = pr.toNat) (g : (f.row == .cusGive) = false) (ga : Given s 0 a)
    (wa : f.wl = 0 ∨ a.validTo f.wl = true) (gb : Given s 1 b) (wb : f.wr = 0 ∨ b.validTo f.wr = true) (gd : Given s 2 d)
    (wd : f.wx = 0 ∨ d.validTo f.wx = true) (usable : f.brokenWhole a b d = false) (below : f.row.isLoad = false) : Fires s f pr m a b d :=
  ⟨h, hr, mode, ⟨.inr ⟨a, ga.arrived, ga.real, wa⟩, .inr ⟨b, gb.arrived, gb.real, wb⟩, .inr ⟨d, gd.arrived, gd.real, wd⟩, .inl g⟩, ga.read,
    gb.read, gd.read, usable, .inl below⟩

/-! ## What a firing does -/

variable {l r t : Value} {onNull : Ctx → State} {act : Ctx → Except Trap Fired}

/-- The effect faults: the instruction traps (R72). -/
theorem Fires.error (h : Fires s f pr m l r t) {e : Trap} (ha : act (ctxOf s f.row l r t m) = .error e) (he : e.code ≠ tAway) :
    s.fire f onNull act = .next (traps s e) := by
  obtain ⟨may, runs, mode, whole, rfl, rfl, rfl, usable, below⟩ := h
  have ha' : act { seen s f with mask := m } = .error e := ha
  rw [fire_run onNull act may runs mode whole usable below, ha']
  exact congrArg _ (if_neg he)
/-- The effect goes on: the instruction has fired (R54, R179). -/
theorem Fires.ok (h : Fires s f pr m l r t) {s' : State} {v0 v1 : Value} {evs : List Nat}
    (ha : act (ctxOf s f.row l r t m) = .ok { s := s', v0 := v0, v1 := v1, evs := evs }) (hh : s'.here = s.here) (hp : (blkOf s').phase = 2) :
    s.fire f onNull act = .next (fired s' f.t1 f.t0 v0 v1 evs) := by
  obtain ⟨may, runs, mode, whole, rfl, rfl, rfl, usable, below⟩ := h
  have ha' : act { seen s f with mask := m } = .ok { s := s', v0 := v0, v1 := v1, evs := evs } := ha
  rw [fire_run onNull act may runs mode whole usable below, ha']
  exact congrArg _ (finish_eq s s' f f.row _ _ _ v0 v1 _ evs hh hp)
/-- The effect is a value for both targets, and nothing else. -/
theorem Fires.value (h : Fires s f pr m l r t) {v : Value} (ha : act (ctxOf s f.row l r t m) = .ok { s := s, v0 := v, v1 := v }) :
    s.fire f onNull act = .next (answers s f.t1 f.t0 v []) := h.ok ha rfl h.may.admitted
/-- The effect leaves the state `s'`, and no value for any target. -/
theorem Fires.silent (h : Fires s f pr m l r t) {s' : State} (ha : act (ctxOf s f.row l r t m) = (ctxOf s f.row l r t m).silent s')
    (hh : s'.here = s.here) (hp : (blkOf s').phase = 2) :
    s.fire f onNull act = .next (fired s' f.t1 f.t0 nullToken nullToken []) := h.ok ha hh hp
/-- The effect has taken a trap itself: that is all there is. -/
theorem Fires.trapped (h : Fires s f pr m l r t) {e : Trap} (ha : act (ctxOf s f.row l r t m) = (ctxOf s f.row l r t m).silent (traps s e)) :
    s.fire f onNull act = .next (traps s e) := by
  obtain ⟨may, runs, mode, whole, rfl, rfl, rfl, usable, below⟩ := h
  have ha' : act { seen s f with mask := m } = .ok { s := traps s e, v0 := nullToken, v1 := nullToken } := ha
  rw [fire_run onNull act may runs mode whole usable below, ha']
  exact congrArg _ (if_pos (by simp [seen, ctxOf, traps]; decide))

end

end Sys2Proof.Claims
end

section
/-! The obligation O10: where WRITE, WPORT and a second exit fault, and a predicate tagged CAP or BROKEN on every word (R57, R67, R122, R123;
corners: log 55). -/

namespace Sys2Proof.Claims
open Sys2Proof.Machine

section
variable {s : State} {pr : BitVec 2} {m : BitVec 16} {row : Row} {l r t : Value}

/-! ## The block's registers and its exit (R65, R67) -/

/-- A register that has been completed is completed again: BLOCK_FORM (R67). -/
theorem complete_twice {reg : Nat} (d : RegDone) (h : mapGet (blkOf s).regDone reg ≠ .no) :
    (ctxOf s row l r t m).complete s reg d = traps s (trap tBlockForm) :=
  if_neg fun e => h (beq_iff_eq.1 e)
/-- An exit fires in a block that has one: MULTI_EXIT (R67). -/
theorem exitWith_second (e : Exit) (h : (blkOf s).exits ≠ []) : (ctxOf s row l r t m).exitWith e = traps s (trap tMultiExit) :=
  if_neg fun e => h (List.isEmpty_iff.1 e)
/-- After a trap the block is no longer admitted, so an exit that trapped does no more. -/
theorem trapped_phase (e : Trap) : (((traps s e).slot s.here.1 s.here.2.1).blk.phase != 2) = true := by
  rw [traps, blk_takeTrap]; rfl
theorem not_targetNull {v : Value} (h : TargetOperand s v) : targetNull v = false := by
  unfold targetNull
  split
  · next hc => rw [capOk_eq, h.cap (eq_of_beq hc)]; rfl
  · rw [scalarOk_eq, h.whole]; rfl

/-! ## Predicates that fault (R57) -/

theorem readPred_cap {n : Nat} {p : Value} (h : n ≠ 0) (hn : p.null = false) (hp : p.tag = .cap) :
    readPred n p = .fault (trapCap tTag p.cap) := by simp [readPred, h, hn, hp]
theorem readPred_broken {n : Nat} {p : Value} (h : n ≠ 0) (hn : p.null = false) (hp : p.tag = .broken) :
    readPred n p = .fault (trap tBrokenUse) := by simp [readPred, h, hn, hp]
/-- A load among a row's words waits for the stores below its LSID (R60). -/
theorem Arrived.below {r : Row} {w : W32} (h : Arrived s r w) : r.isLoad = false ∨ storesDone (blkOf s) (lsidOf (wordOf s)).toNat = true := by
  refine (Bool.eq_false_or_eq_true r.isLoad).symm.imp id fun hl => List.all_eq_true.2 fun j hj => ?_
  have hd := h.stores hl j (by rw [← h.word]; exact List.mem_range.1 hj)
  cases hb : bitAt (blkOf s).storeMask j
  · rfl
  · simp [hd hb]
/-- What a form of a row reads has all arrived. -/
theorem Arrived.ctx {r : Row} {w : W32} {f : Form} {p : Value} (h : Arrived s r w) (hm : MayFire s) (hf : Fits f r w) (hp : Given s 3 p) :
    s.ctx f = some (seen s f, p) := by
  have arr : ∀ q, f.arity < q + 1 ∨ (opnd s q).isSome = true := fun q => by
    by_cases hq : q < r.arity
    · exact .inr (h.data q hq)
    · exact .inl (by rw [hf.arity]; omega)
  rw [ctx_eq f hm (arr 0) (arr 1) (arr 2) (.inr (by simp [hp.arrived])) (by rw [hf.row]; exact h.below), hp.read]
/-- The trap of a predicate is taken before all else, on every word that reads one (R57, log 55). -/
theorem exec_predicateFault {r : Row} {w : W32} {p : Value} {t : Trap} (hm : MayFire s) (h : Arrived s r w) (hr : plainRow r = true)
    (hp : Given s 3 p) (ht : readPred (predOf r w) p = .fault t) : exec (build r w) s = .next (traps s t) := by
  refine exec_fires r w s hr (P := (· = .next (traps s t))) (fun f n act hf _ => ?_) (fun f act hf _ => ?_)
  · unfold State.fire; simp only [h.ctx hm hf hp, hf.pr, ht]; rfl
  · unfold State.fireLater; simp only [h.ctx hm hf hp, hf.pr, ht]; rfl

end

/-! ## WRITE and WPORT (R122, R123) -/

section
variable {s : State} {pr : BitVec 2} {m : BitVec 16} {reg : BitVec 6} {a : Value} (h : MayFire s) (hr : Runs s pr m) (ga : Given s 0 a)
include h hr ga

theorem write_partial (ht : a.tag = .cap) (hc : capOk (lanesOf m a) = false) :
    exec (.write pr reg) s = .next (traps s (trapCap tTag a.cap)) := by
  show execWrite pr reg s = _
  refine (Fires.one h hr rfl rfl rfl ga (.inl rfl) (fun _ _ => rfl) (.inl rfl)).error (e := trapCap tTag a.cap) (if_pos ?_) (by simp [trapCap]; decide)
  have hc' : (lanesOf m a).validTo 4 = false := (capOk_eq _).trans hc
  exact Bool.and_eq_true_iff.2 ⟨beq_iff_eq.2 ht, by rw [ctxOf_l, ctxOf_masked, hc']; rfl⟩
theorem write_again (ht : a.tag = .data) (hd : mapGet (blkOf s).regDone reg.toNat ≠ .no) :
    exec (.write pr reg) s = .next (traps s (trap tBlockForm)) := by
  show execWrite pr reg s = _
  refine (Fires.one h hr rfl rfl rfl ga (.inl rfl) (fun _ _ => rfl) (.inl rfl)).trapped ((if_neg ?_).trans ?_)
  · simp [ctxOf, Ctx.masked, ht]
  · exact congrArg (Ctx.silent _) (complete_twice _ hd)
theorem wport_broken (ht : a.tag = .broken) : exec (.wport pr reg) s = .next (traps s (trap tBrokenUse)) := by
  show execWport pr reg s = _
  refine (Fires.one h hr rfl rfl rfl ga (.inl rfl) (fun _ _ => rfl) (.inl rfl)).error (if_pos ?_) (by decide)
  simp [ctxOf, Ctx.masked, ht]
theorem wport_outside (ht : a.tag ≠ .broken) (hp : s.portTo s.here.1 reg.toNat = none) :
    exec (.wport pr reg) s = .next (traps s (trap tLodging)) := by
  show execWport pr reg s = _
  refine (Fires.one h hr rfl rfl rfl ga (.inl rfl) (fun _ _ => rfl) (.inl rfl)).error ((if_neg ?_).trans (if_pos ?_)) (by decide)
  · simp [ctxOf, Ctx.masked, ht]
  · exact Option.isNone_iff_eq_none.2 hp

end

/-! ## A second exit (R67) -/

section
variable {s : State} {pr : BitVec 2} (h : MayFire s) (hr : Runs s pr 0xFFFF#16) (hx : (blkOf s).exits ≠ [])
include h hr hx

theorem bro_second (off : BitVec 23) : exec (.bro pr off) s = .next (traps s (trap tMultiExit)) := by
  show execBro pr off s = _
  exact (Fires.none h hr rfl rfl rfl (fun _ _ _ => rfl) rfl).trapped (congrArg (Ctx.silent _) (exitWith_second _ hx))
theorem exit_second : exec (.exit pr) s = .next (traps s (trap tMultiExit)) := by
  show execExit pr s = _
  exact (Fires.none h hr rfl rfl rfl (fun _ _ _ => rfl) rfl).trapped (congrArg (Ctx.silent _) (exitWith_second _ hx))
theorem yield_second (off : BitVec 23) : exec (.yield pr off) s = .next (traps s (trap tMultiExit)) := by
  show execYield pr off s = _
  exact (Fires.none h hr rfl rfl rfl (fun _ _ _ => rfl) rfl).trapped (congrArg (Ctx.silent _) (exitWith_second _ hx))
theorem call_second (reg : BitVec 6) (off : BitVec 17) : exec (.call pr reg off) s = .next (traps s (trap tMultiExit)) := by
  show execCall pr reg off s = _
  refine (Fires.none h hr rfl rfl rfl (fun _ _ _ => rfl) rfl).trapped ?_
  simp only [exitWith_second _ hx]
  exact if_pos (trapped_phase _)
theorem brc_second {t : Value} (ht : TargetOperand s t) : exec (.brc pr) s = .next (traps s (trap tMultiExit)) := by
  show execBrc pr s = _
  refine (Fires.one h hr rfl rfl rfl ht.given (.inr ((scalarOk_eq t).trans ht.whole)) (fun _ _ => rfl) (.inl rfl)).trapped ((if_neg ?_).trans ?_)
  · rw [ctxOf_l, not_targetNull ht]; decide
  · exact congrArg (Ctx.silent _) (exitWith_second _ hx)
theorem ret_second {t : Value} (ht : TargetOperand s t) : exec (.ret pr) s = .next (traps s (trap tMultiExit)) := by
  show execRet pr s = _
  refine (Fires.one h hr rfl rfl rfl ht.given (.inr ((scalarOk_eq t).trans ht.whole)) (fun _ _ => rfl) (.inl rfl)).trapped ((if_neg ?_).trans ?_)
  · rw [ctxOf_l, not_targetNull ht]; decide
  · exact congrArg (Ctx.silent _) (exitWith_second _ hx)
theorem callc_second {t : Value} (reg : BitVec 6) (ht : TargetOperand s t) : exec (.callc pr reg) s = .next (traps s (trap tMultiExit)) := by
  show execCallc pr reg s = _
  refine (Fires.one h hr rfl rfl rfl ht.given (.inr ((scalarOk_eq t).trans ht.whole)) (fun _ _ => rfl) (.inl rfl)).trapped ((if_neg ?_).trans ?_)
  · rw [ctxOf_l, not_targetNull ht]; decide
  · simp only [exitWith_second _ hx]
    exact if_pos (trapped_phase _)
theorem handoff_second {e k w : Value} (he : Capability s 0 12 [118] e) (hk : Number s 1 k) (hw : Number s 2 w) :
    exec (.handoff pr) s = .next (traps s (trap tMultiExit)) := by
  show execHandoff pr s = _
  refine (Fires.three h hr rfl rfl he.given (.inr ((capOk_eq e).trans he.whole)) hk.given (.inr ((scalarOk_eq k).trans hk.whole)) hw.given
    (.inr ((scalarOk_eq w).trans hw.whole)) ?_ rfl).trapped ?_
  · simp [Form.brokenWhole, nForm, he.tagged, hk.usable, hw.usable]
  · have hc : checkEntry e = .ok e.cap := checkCap_ok he
    simp only [ctxOf_l, ctxOf_r, ctxOf_t, hc, checkScalar_ok hk.usable, checkScalar_ok hw.usable, exitWith_second _ hx]
    exact if_pos (trapped_phase _)

end

/-- Settles O10: each clause is a firing whose effect faults, or has trapped; a predicate's trap is taken before the effect. -/
theorem writeExitAndPredicateFaults : Obligations.WriteExitAndPredicateFaults := by
  refine ⟨fun s pr m reg a h hr ga => ⟨write_partial h hr ga, write_again h hr ga, wport_broken h hr ga, wport_outside h hr ga⟩,
    fun s pr h hr hx => ⟨bro_second h hr hx, call_second h hr hx, fun t ht => ⟨brc_second h hr hx ht, ret_second h hr hx ht⟩,
      fun reg t ht => callc_second h hr hx reg ht, exit_second h hr hx, yield_second h hr hx, fun e k w => handoff_second h hr hx⟩,
    fun s r w p hm h hr hp gp => ⟨fun ht => ?_, fun ht => ?_⟩⟩
  · exact exec_predicateFault hm h hr gp (readPred_cap hp gp.real ht)
  · exact exec_predicateFault hm h hr gp (readPred_broken hp gp.real ht)

end Sys2Proof.Claims
end

section
/-! SUPPORT. The fields of a capability, and what the capability operations of R142 to R145 do to them. -/

namespace Sys2Proof.Claims
open Sys2Proof.Machine

/-! ## Bits -/

theorem getLsbD_bitsAt {n : Nat} (w : BitVec n) (lo k i : Nat) : (bitsAt w lo k).getLsbD i = (decide (i < k) && w.getLsbD (lo + i)) := by
  simp [bitsAt]
/-- Replacing bits: a bit of the field is the number's, every other stays. -/
theorem getLsbD_setBits {n : Nat} (w : BitVec n) (lo k v i : Nat) (hi : i < n) :
    (setBits w lo k v).getLsbD i = if lo ≤ i ∧ i < lo + k then v.testBit (i - lo) else w.getLsbD i := by
  simp only [setBits, BitVec.getLsbD_or, BitVec.getLsbD_and, BitVec.getLsbD_not, BitVec.getLsbD_ofNat, hi, Nat.testBit_mul_two_pow,
    Nat.testBit_two_pow_sub_one, Nat.testBit_mod_two_pow, decide_true, Bool.true_and]
  by_cases h : lo ≤ i
  · by_cases h' : i - lo < k
    · simp [h, h', show i < lo + k by omega]
    · simp [h, h', show ¬ i < lo + k by omega]
  · simp [h]
/-- A field of a field. -/
theorem bitsAt_bitsAt {n : Nat} (w : BitVec n) (lo k lo' k' : Nat) (h : lo' + k' ≤ k) :
    bitsAt (bitsAt w lo k) lo' k' = bitsAt w (lo + lo') k' := by
  apply BitVec.eq_of_getLsbD_eq; intro i hi
  rw [getLsbD_bitsAt, getLsbD_bitsAt, getLsbD_bitsAt]
  simp [hi, show lo' + i < k by omega, Nat.add_assoc]

/-- The immediate of the instruction that fires, a wide EXT's payload included (R63, R64). -/
theorem wideField_eq (s : State) {n : Nat} (imm : BitVec n) : wideField (blkOf s).words (indexOf s) n imm = signedImm s imm := by
  unfold wideField signedImm widePayload extOf
  by_cases h0 : indexOf s = 0
  · cases (blkOf s).words[indexOf s - 1]? <;> simp [h0]
  · cases (blkOf s).words[indexOf s - 1]? with
    | none => simp [h0]
    | some w =>
      have hp : 0 < indexOf s := by omega
      by_cases hm : bitsAt w 25 7 = 1#7 <;> by_cases hk : bitsAt w 23 2 = 0#2 <;> simp [h0, hp, major, xKind, xPay, hm, hk]

/-! ## Fields (R37 to R39) -/

theorem cap_address (v : Value) : bitsAt v.cap 0 64 = v.scalar := bitsAt_bitsAt v.bits 0 128 0 64 (by decide)
theorem capAddr_eq (v : Value) : capAddr v.cap = v.scalar := cap_address v
theorem cap_kind (v : Value) : bitsAt v.cap 124 4 = bitsAt v.bits 124 4 := bitsAt_bitsAt v.bits 0 128 124 4 (by decide)
theorem capKind_eq (v : Value) : capKind v.cap = (bitsAt v.bits 124 4).toNat := by rw [capKind, numAt_eq_bitsAt, cap_kind]
theorem capE_eq (c : Cap) : capE c = expOf c := numAt_eq_bitsAt c 90 6
theorem capBase_eq (c : Cap) : capBase c = baseOf c := by
  simp only [capBase, capRegion, capB, capE, capAddr, baseOf, expOf, numAt_eq_bitsAt]
theorem capLimit_eq (c : Cap) : capLimit c = baseOf c + lengthOf c := by
  rw [capLimit, capBase_eq, capL, capE, numAt_eq_bitsAt, numAt_eq_bitsAt]; rfl
theorem boundedKind_eq : boundedKind = boundedKinds := rfl
theorem steward_iff (s : State) : isSteward s.here.1 = true ↔ stewardMode s := by
  simp [isSteward, stewardMode]

/-! ## Addresses (R41, R143) -/

/-- A capability keeps all but its address. -/
theorem capWithAddr_eq (c : Cap) (a : Word) : capWithAddr c a = readdressed c a := by
  apply BitVec.eq_of_getLsbD_eq; intro i hi
  rw [capWithAddr, getLsbD_setBits _ _ _ _ _ hi, readdressed, BitVec.getLsbD_append, getLsbD_bitsAt]
  by_cases h : i < 64
  · simp [h, BitVec.testBit_toNat]
  · simp [h, show i - 64 < 64 by omega, show 64 + (i - 64) = i by omega]
/-- The region that an address may not leave (R41). -/
theorem inRegion_iff (c : Cap) (a : Word) :
    (decide (capRegion c ≤ a.toNat) && decide (a.toNat < capRegion c + 2 ^ (capE c + 13))) = true ↔ sameRegion c a := by
  have h := Nat.two_pow_pos (expOf c + 13)
  rw [Bool.and_eq_true, decide_eq_true_iff, decide_eq_true_iff, capRegion, capE_eq, sameRegion, Nat.div_eq_iff h]
  simp only [capAddr]
  omega
/-- A move within the region, or one that keeps the tag wherever it leads. -/
theorem moveCap_keeps {keep : Bool} {c : Cap} {a : Word} (h : keep = true ∨ sameRegion c a) : moveCap keep c a = capValue (readdressed c a) := by
  rw [← inRegion_iff] at h
  unfold moveCap
  rw [capWithAddr_eq]
  exact if_pos (Bool.or_eq_true_iff.2 h)
/-- A move out of the region clears the tag. -/
theorem moveCap_leaves {c : Cap} {a : Word} (h : ¬ sameRegion c a) :
    moveCap false c a = { capValue (readdressed c a) with tag := .data } := by
  rw [← inRegion_iff] at h
  unfold moveCap
  rw [capWithAddr_eq]
  exact if_neg (by rw [Bool.false_or]; exact h)

/-! ## Bounds (R40, R144) -/

/-- Rounding down twice is rounding down to the coarser. -/
theorem down_down (e n : Nat) : down (e + 13) (down e n) = down (e + 13) n := by
  simp only [down, Nat.pow_add, ← Nat.div_div_eq_div_mul]
  rw [Nat.mul_div_cancel _ (Nat.two_pow_pos e)]
/-- The search for bounds finds the least exponent that fits. -/
theorem findBounds_least {lo hi e : Nat} (hf : fits e lo hi) : ∀ fuel e₀, e₀ + fuel = 52 → e₀ ≤ e → (∀ e', e₀ ≤ e' → e' < e → ¬ fits e' lo hi) →
    findBounds lo hi fuel e₀ = some (e, down e lo, up e hi) := by
  intro fuel
  induction fuel with
  | zero => intro e₀ h h' _; have := hf.1; omega
  | succ n ih =>
    intro e₀ h h' least
    have rg : lo / 2 ^ e₀ * 2 ^ e₀ / 2 ^ (e₀ + 13) * 2 ^ (e₀ + 13) = down (e₀ + 13) lo := down_down e₀ lo
    unfold findBounds
    simp only [rg]
    by_cases he : e₀ = e
    · subst he; exact if_pos hf.2
    · refine (if_neg fun c => least e₀ (le_refl _) (by omega) ⟨by omega, c⟩).trans (ih _ (by omega) (by omega) fun e' a b => least e' (by omega) b)
/-- Where no exponent fits, the search finds none. -/
theorem findBounds_none {lo hi : Nat} (hf : ∀ e, ¬ fits e lo hi) : ∀ fuel e₀, e₀ + fuel = 52 → findBounds lo hi fuel e₀ = none := by
  intro fuel
  induction fuel with
  | zero => intro _ _; rfl
  | succ n ih =>
    intro e₀ h
    have rg : lo / 2 ^ e₀ * 2 ^ e₀ / 2 ^ (e₀ + 13) * 2 ^ (e₀ + 13) = down (e₀ + 13) lo := down_down e₀ lo
    unfold findBounds
    simp only [rg]
    exact (if_neg fun c => hf e₀ ⟨by omega, c⟩).trans (ih _ (by omega))
/-- Some exponent is the least that fits, or none fits. -/
theorem least_or_none (c : Cap) (n : Nat) :
    (∃ e, LeastFit c n e) ∨ ∀ e, ¬ fits e (bitsAt c 0 64).toNat ((bitsAt c 0 64).toNat + n) := by
  classical
  by_cases h : ∃ e, fits e (bitsAt c 0 64).toNat ((bitsAt c 0 64).toNat + n)
  · exact .inl ⟨Nat.find h, Nat.find_spec h, fun e' he => Nat.find_min h he⟩
  · exact .inr (not_exists.1 h)
theorem down_le (e n : Nat) : down e n ≤ n := Nat.div_mul_le_self ..
theorem le_up (e n : Nat) : n ≤ up e n := by
  have h := Nat.lt_div_mul_add (a := n + 2 ^ e - 1) (Nat.two_pow_pos e)
  unfold up; omega
/-- The fields that CSETB replaces, written one by one, make the capability with its new bounds. -/
theorem setBounds_fields (c : Cap) (e lo hi : Nat) :
    setBits (setBits (setBits c 90 6 e) 77 13 ((down e lo - down (e + 13) lo) / 2 ^ e)) 64 13 ((up e hi - down e lo) / 2 ^ e) = bounded c e lo hi := by
  apply BitVec.eq_of_getLsbD_eq; intro i hi'
  rw [getLsbD_setBits _ _ _ _ _ hi', getLsbD_setBits _ _ _ _ _ hi', getLsbD_setBits _ _ _ _ _ hi', bounded]
  simp only [BitVec.getLsbD_append, getLsbD_bitsAt, BitVec.getLsbD_ofNat]
  rcases (by omega : i < 64 ∨ (64 ≤ i ∧ i < 77) ∨ (77 ≤ i ∧ i < 90) ∨ (90 ≤ i ∧ i < 96) ∨ (96 ≤ i ∧ i < 128)) with h | h | h | h | h
  · simp [h, show ¬ 64 ≤ i by omega, show ¬ 77 ≤ i by omega, show ¬ 90 ≤ i by omega]
  · simp [h, show ¬ i < 64 by omega, show i - 64 < 13 by omega]
  · simp [h, show ¬ i < 64 by omega, show ¬ i < 77 by omega, show ¬ i - 64 < 13 by omega, show i - 77 < 13 by omega,
      show i - 64 - 13 = i - 77 by omega]
  · simp [h, show ¬ i < 64 by omega, show ¬ i < 77 by omega, show ¬ i < 90 by omega, show ¬ i - 64 < 13 by omega,
      show ¬ i - 64 - 13 < 13 by omega, show i - 90 < 6 by omega, show i - 64 - 13 - 13 = i - 90 by omega]
  · simp [show ¬ i < 64 by omega, show ¬ i < 77 by omega, show ¬ i < 90 by omega, show ¬ i < 96 by omega, show ¬ i - 64 < 13 by omega,
      show ¬ i - 64 - 13 < 13 by omega, show ¬ i - 64 - 13 - 13 < 6 by omega, show i - 64 - 13 - 13 - 6 < 32 by omega,
      show 96 + (i - 64 - 13 - 13 - 6) = i by omega]
/-- A window that ends past the last address faults. -/
theorem setBounds_beyond {st ex : Bool} {c : Cap} {n : Word} (h : 2 ^ 64 - 1 < (bitsAt c 0 64).toNat + n.toNat) :
    setBounds st ex c n = .error (trapCap tBounds c) := if_pos h
/-- So does one that no exponent represents. -/
theorem setBounds_unfit {st ex : Bool} {c : Cap} {n : Word} (h : ∀ e, ¬ fits e (bitsAt c 0 64).toNat ((bitsAt c 0 64).toNat + n.toNat)) :
    setBounds st ex c n = .error (trapCap tBounds c) := by
  have hn : findBounds (capAddr c).toNat ((capAddr c).toNat + n.toNat) 52 0 = none := findBounds_none h 52 0 rfl
  unfold setBounds
  simp only [hn, ite_self]
/-- The answer of CSETB and CSETBX, once the least exponent that fits is known. -/
theorem setBounds_least {st ex : Bool} {c : Cap} {n : Word} {e : Nat} (hf : LeastFit c n.toNat e) :
    setBounds st ex c n =
      let lo := (bitsAt c 0 64).toNat
      let hi := lo + n.toNat
      if 2 ^ 64 - 1 < hi then .error (trapCap tBounds c)
      else if ex && (down e lo != lo || up e hi != hi) then .error (trapCap tBounds c)
      else if !st && (decide (down e lo < baseOf c) || decide (baseOf c + lengthOf c < up e hi)) then .error (trapCap tBounds c)
      else .ok (capValue (bounded c e lo hi)) := by
  have hn : findBounds (capAddr c).toNat ((capAddr c).toNat + n.toNat) 52 0 = some (e, down e (capAddr c).toNat, up e ((capAddr c).toNat + n.toNat)) :=
    findBounds_least hf.fit 52 0 rfl (Nat.zero_le e) fun e' _ h => hf.least e' h
  unfold setBounds
  simp only [hn, capBase_eq, capLimit_eq]
  rw [← setBounds_fields]
  rfl
/-- CSETB and CSETBX succeed (R144). -/
theorem setBounds_ok {s : State} {ex : Bool} {c : Cap} {n : Word} {e : Nat} (h : SetsBounds s ex c n.toNat e) :
    setBounds (isSteward s.here.1) ex c n = .ok (capValue (bounded c e (bitsAt c 0 64).toNat ((bitsAt c 0 64).toNat + n.toNat))) := by
  rw [setBounds_least ⟨h.fit, h.least⟩]
  refine (if_neg (Nat.not_lt.2 h.ends)).trans ((if_neg fun hx => ?_).trans (if_neg fun hw => ?_))
  · rw [Bool.and_eq_true] at hx
    have t := h.tight hx.1
    simp [t.1, t.2] at hx
  · rcases h.within with hs | hs
    · simp [(steward_iff s).2 hs] at hw
    · simp only [Bool.and_eq_true, Bool.or_eq_true, decide_eq_true_eq] at hw
      omega
/-- A window that does not lie within the source's bounds faults outside steward mode. -/
theorem setBounds_outside {s : State} {ex : Bool} {c : Cap} {n : Word} (hs : ¬ stewardMode s) {e : Nat} (hf : LeastFit c n.toNat e)
    (h : down e (bitsAt c 0 64).toNat < baseOf c ∨ baseOf c + lengthOf c < up e ((bitsAt c 0 64).toNat + n.toNat)) :
    setBounds (isSteward s.here.1) ex c n = .error (trapCap tBounds c) := by
  have hst : isSteward s.here.1 = false := by rw [← Bool.not_eq_true, steward_iff]; exact hs
  rw [setBounds_least hf, hst]
  refine ite_eq_left_iff.2 fun _ => ite_eq_left_iff.2 fun _ => if_pos ?_
  simpa using h
/-- A window that starts below the base, or ends past the limit. -/
theorem setBounds_wide {s : State} {ex : Bool} {c : Cap} {n : Word} (hs : ¬ stewardMode s)
    (h : (bitsAt c 0 64).toNat < baseOf c ∨ baseOf c + lengthOf c < (bitsAt c 0 64).toNat + n.toNat) :
    setBounds (isSteward s.here.1) ex c n = .error (trapCap tBounds c) := by
  rcases least_or_none c n.toNat with ⟨e, hf⟩ | hf
  · exact setBounds_outside hs hf (h.imp (down_le e _).trans_lt fun h => h.trans_le (le_up e _))
  · exact setBounds_unfit hf
/-- CSETBX faults where the window would be rounded. -/
theorem setBounds_inexact {st : Bool} {c : Cap} {n : Word} {e : Nat} (hf : LeastFit c n.toNat e)
    (h : down e (bitsAt c 0 64).toNat ≠ (bitsAt c 0 64).toNat ∨
      up e ((bitsAt c 0 64).toNat + n.toNat) ≠ (bitsAt c 0 64).toNat + n.toNat) :
    setBounds st true c n = .error (trapCap tBounds c) := by
  rw [setBounds_least hf]
  refine ite_eq_left_iff.2 fun _ => if_pos ?_
  simpa using h

end Sys2Proof.Claims
end

section
/-! The obligations O13 and O15: what the capability operations answer (R40, R41, R142 to R144, R428), also for BROKEN and null operands
(logs 23 and 26). Each is a firing of `Ctx.capOp`, whose four outcomes are four rules here. -/

namespace Sys2Proof.Claims
open Sys2Proof.Machine

/-! ## The frame of every capability operation (R142) -/

/-- The lanes of a result that the operands leave valid: lanes 0 to 3 are null where one has a null lane there. -/
def capLanes (two : Bool) (a b : Value) : BitVec 16 := if capOk a && (!two || capOk b) then 0xFFFF#16 else 0xFFF0#16
/-- An operand is BROKEN. -/
def AnyBroken (two : Bool) (a b : Value) : Prop := a.tag = .broken ∨ two = true ∧ b.tag = .broken

section
variable {s : State} {f : Form} {pr : BitVec 2} {m : BitVec 16} {a b t : Value} {two : Bool} {tag : Tag} {onNull : Ctx → State}
  {need : Ctx → Except Trap Unit} {g : Ctx → Except Trap Value}

theorem capValid_eq : (ctxOf s f.row a b t m).capValid two = capLanes two a b := by
  unfold Ctx.capValid capLanes
  rw [ctxOf_l, ctxOf_r, capOk_eq, capOk_eq]; rfl
theorem brokenOf_iff : (brokenOf (if two then [a, b] else [a]) == .broken) = true ↔ AnyBroken two a b := by
  cases two
  · simp [brokenOf, AnyBroken]
  · by_cases ha : a.tag = .broken <;> simp [brokenOf, AnyBroken, ha]

/-- A BROKEN operand gives BROKEN, of any bits (log 23). -/
theorem Fires.capBroken (h : Fires s f pr m a b t) (hb : AnyBroken two a b) :
    ∃ x, s.fire f onNull (fun c => c.capOp two tag (need c) (g c)) =
      .next (answers s f.t1 f.t0 { bits := x, valid := capLanes two a b &&& m, tag := .broken, null := false } []) :=
  ⟨Config.freeBits s.tick, h.value ((if_pos (brokenOf_iff.2 hb)).trans (by rw [capValid_eq]; rfl))⟩
variable (h : Fires s f pr m a b t) (hb : ¬ AnyBroken two a b)
include h hb
/-- What the operation asks of an operand fails. -/
theorem Fires.capRefused {e : Trap} (hn : need (ctxOf s f.row a b t m) = .error e) (he : e.code ≠ tAway) :
    s.fire f onNull (fun c => c.capOp two tag (need c) (g c)) = .next (traps s e) :=
  h.error ((if_neg (mt brokenOf_iff.1 hb)).trans (by rw [hn])) he
variable (hn : need (ctxOf s f.row a b t m) = .ok ())
include hn
/-- A null lane in 0 to 3 of an operand nulls these lanes of the result. -/
theorem Fires.capNull (hv : capLanes two a b = 0xFFF0#16) :
    s.fire f onNull (fun c => c.capOp two tag (need c) (g c)) =
      .next (answers s f.t1 f.t0 { bits := 0, valid := 0xFFF0 &&& m, tag := tag, null := false } []) :=
  h.value ((if_neg (mt brokenOf_iff.1 hb)).trans (by rw [hn, capValid_eq, hv]; rfl))
variable (hv : capLanes two a b = 0xFFFF#16)
include hv
/-- Whole operands: the operation answers its own result, masked. -/
theorem Fires.capResult {v : Value} (hg : g (ctxOf s f.row a b t m) = .ok v) :
    s.fire f onNull (fun c => c.capOp two tag (need c) (g c)) = .next (answers s f.t1 f.t0 (lanesOf m v) []) :=
  h.value ((if_neg (mt brokenOf_iff.1 hb)).trans (by rw [hn, capValid_eq, hv, hg]; rfl))
/-- Whole operands: the operation itself faults. -/
theorem Fires.capFault {e : Trap} (hg : g (ctxOf s f.row a b t m) = .error e) (he : e.code ≠ tAway) :
    s.fire f onNull (fun c => c.capOp two tag (need c) (g c)) = .next (traps s e) :=
  h.error ((if_neg (mt brokenOf_iff.1 hb)).trans (by rw [hn, capValid_eq, hv, hg]; rfl)) he

end

/-! ## Operands and results -/

section
variable {s : State} {row : Row} {pr : BitVec 2} {m : BitVec 16} {a b l r t : Value} {t1 t0 : BitVec 9}

theorem needCap_ok {allowed : Nat → Bool} (ht : a.tag = .cap) (hk : capOk a = true → allowed (capKind a.cap) = true) :
    (ctxOf s row a b t m).needCap allowed = .ok () := by
  refine if_pos ?_
  rw [ctxOf_l, capOk_eq, ht]
  cases hc : capOk a
  · rfl
  · simp [hk hc]
theorem capOf_ok {allowed : Nat → Bool} (ht : a.tag = .cap) (hk : allowed (capKind a.cap) = true) : capOf a allowed = .ok a.cap :=
  if_pos (by rw [ht, hk]; rfl)
theorem CapIn.kindOk {kinds : Nat → Bool} (h : CapIn s kinds a) : kinds (capKind a.cap) = true := by rw [capKind_eq]; exact h.allowed
theorem CapIn.needed {kinds : Nat → Bool} (h : CapIn s kinds a) : (ctxOf s row a b t m).needCap kinds = .ok () :=
  needCap_ok h.tagged fun _ => h.kindOk
theorem CapIn.usable {kinds : Nat → Bool} (h : CapIn s kinds a) : a.tag ≠ .broken := by rw [h.tagged]; decide
theorem not_anyBroken_two (ha : a.tag ≠ .broken) (hb : b.tag ≠ .broken) : ¬ AnyBroken true a b := by simp [AnyBroken, ha, hb]
theorem not_anyBroken_one (ha : a.tag ≠ .broken) : ¬ AnyBroken false a b := by simp [AnyBroken, ha]
theorem capLanes_two (ha : capOk a = true) (hb : capOk b = true) : capLanes true a b = 0xFFFF#16 := by simp [capLanes, ha, hb]
theorem capLanes_one (ha : capOk a = true) : capLanes false a b = 0xFFFF#16 := by simp [capLanes, ha]
theorem capLanes_two_null (h : (capOk a && capOk b) = false) : capLanes true a b = 0xFFF0#16 := if_neg (by simpa using h)
theorem capLanes_one_null (h : capOk a = false) : capLanes false a b = 0xFFF0#16 := by simp [capLanes, h]
theorem allLanes_and (m : BitVec 16) : allLanes &&& m = m := BitVec.allOnes_and
theorem lanesOf_capValue (c : Cap) : lanesOf m (capValue c) = capOut m c := by simp only [lanesOf, capValue, capOut, allLanes_and]
theorem lanesOf_untagged (c : Cap) : lanesOf m { capValue c with tag := .data } = capOut m c .data := by
  simp only [lanesOf, capValue, capOut, allLanes_and]
theorem lanesOf_dataScalar (x : Word) : lanesOf m (dataScalar x) = numOut m x := by
  simp only [lanesOf, dataScalar, scalarValue, if_true, numOut, allLanes_and]
/-- A form that reads no operand whole refuses none as BROKEN. -/
theorem brokenWhole_none {f : Form} (hl : f.wl = 0) (hr : f.wr = 0) (hx : f.wx = 0) : f.brokenWhole l r t = false := by
  simp [Form.brokenWhole, hl, hr, hx]
/-- The T format of two operands, and of one, and the I format of one. -/
theorem Fires.pair (h : MayFire s) (hr : Runs s pr m) (ga : Given s 0 a) (gb : Given s 1 b) (hg : (row == .cusGive) = false)
    (hl : row.isLoad = false) : Fires s (tForm row pr 2 t1 t0) pr m a b ((opnd s 2).getD default) :=
  .two h hr rfl rfl hg ga (.inl rfl) gb (.inl rfl) (fun _ => brokenWhole_none rfl rfl rfl) hl
theorem Fires.single (h : MayFire s) (hr : Runs s pr m) (ga : Given s 0 a) (hg : (row == .cusGive) = false)
    (hl : row.isLoad = false) : Fires s (tForm row pr 1 t1 t0) pr m a ((opnd s 1).getD default) ((opnd s 2).getD default) :=
  .one h hr rfl rfl hg ga (.inl rfl) (fun _ _ => brokenWhole_none rfl rfl rfl) (.inl hl)
theorem Fires.immediate (h : MayFire s) (hr : Runs s pr m) (ga : Given s 0 a) (hg : (row == .cusGive) = false)
    (hl : row.isLoad = false ∨ storesDone (blkOf s) (lsidOf (wordOf s)).toNat = true) :
    Fires s (iForm row pr 1 t0) pr m a ((opnd s 1).getD default) ((opnd s 2).getD default) :=
  .one h hr rfl rfl hg ga (.inl rfl) (fun _ _ => brokenWhole_none rfl rfl rfl) hl
end

end Sys2Proof.Claims
end

section
/-! The obligation O13: CADD, CADDI and CSETA move an address, CSETB and CSETBX narrow the bounds or fault BOUNDS (R40, R41, R143, R144, R428). -/

namespace Sys2Proof.Claims
open Sys2Proof.Machine

variable {s : State} {pr : BitVec 2} {m : BitVec 16} {a b : Value} {t1 t0 : BitVec 9}

/-! ## Moves (R41, R143) -/

section
variable {i : Instr} {row : Row} {kinds : Ctx → Nat → Bool} {g : Ctx → Cap → Except Trap Value} {ks : Nat → Bool}
  (he : exec i s = s.fire (tForm row pr 2 t1 t0) plainNull fun c => c.capOp true .cap (c.needCap (kinds c)) (capOf c.l (kinds c) >>= g c))
  (hg : (row == .cusGive) = false) (hl : row.isLoad = false) (h : MayFire s) (hr : Runs s pr m) (ha : CapIn s ks a) (hb : RightIn s b)
  (hk : ∀ t, kinds (ctxOf s row a b t m) (capKind a.cap) = true)
include he hg hl h hr ha hb hk

/-- An operation on a capability of one of `kinds` and a right operand, both whole, answers what `g` makes of them. -/
theorem pair_answers {v : Value} (hv : ∀ t, g (ctxOf s row a b t m) a.cap = .ok v) : exec i s = .next (answers s t1 t0 (lanesOf m v) []) := by
  rw [he]
  refine (Fires.pair h hr ha.given hb.given hg hl).capResult (not_anyBroken_two ha.usable hb.usable) (needCap_ok ha.tagged fun _ => hk _)
    (capLanes_two ha.whole hb.whole) ?_
  exact (congrArg (· >>= g _) (capOf_ok ha.tagged (hk _))).trans (hv _)
/-- The same, where the operation faults. -/
theorem pair_faults {e : Trap} (hv : ∀ t, g (ctxOf s row a b t m) a.cap = .error e) (hc : e.code ≠ tAway) : exec i s = .next (traps s e) := by
  rw [he]
  refine (Fires.pair h hr ha.given hb.given hg hl).capFault (not_anyBroken_two ha.usable hb.usable) (needCap_ok ha.tagged fun _ => hk _)
    (capLanes_two ha.whole hb.whole) ?_ hc
  exact (congrArg (· >>= g _) (capOf_ok ha.tagged (hk _))).trans (hv _)
end

section
variable (h : MayFire s) (hr : Runs s pr m) (hb : RightIn s b)
include h hr hb

/-- CADD moves the address, to `w`. -/
theorem cadd_moves (ha : CapIn s boundedKinds a) {w : Value} (hw : moveCap false a.cap (a.scalar + b.scalar) = w) :
    exec (.cadd pr t1 t0) s = .next (answers s t1 t0 (lanesOf m w) []) :=
  pair_answers (kinds := fun _ => boundedKind) (g := fun c cap => .ok (moveCap false cap (capAddr cap + c.r.scalar))) rfl rfl rfl h hr ha hb
    (fun _ => ha.kindOk) fun _ => by rw [capAddr_eq]; exact congrArg _ hw
/-- CSETA sets it; which kinds it takes, and whether the tag stays, depends on the mode (R428). -/
theorem cseta_moves {ks : Nat → Bool} (ha : CapIn s ks a) (hk : ∀ c : Ctx, c.core = s.here.1 → c.setaKind (capKind a.cap) = true) {w : Value}
    (hw : moveCap (isSteward s.here.1) a.cap b.scalar = w) : exec (.cseta pr t1 t0) s = .next (answers s t1 t0 (lanesOf m w) []) :=
  pair_answers (kinds := fun c => c.setaKind) (g := fun c cap => .ok (moveCap c.steward cap c.r.scalar)) rfl rfl rfl h hr ha hb
    (fun _ => hk _ rfl) fun _ => congrArg _ hw
/-- CSETB and CSETBX answer the capability with its new bounds. -/
theorem csetb_bounds (ha : CapIn s boundedKinds a) {w : Value} (hw : setBounds (isSteward s.here.1) false a.cap b.scalar = .ok w) :
    exec (.csetb pr t1 t0) s = .next (answers s t1 t0 (lanesOf m w) []) :=
  pair_answers (kinds := fun _ => boundedKind) (g := fun c cap => setBounds c.steward false cap c.r.scalar) rfl rfl rfl h hr ha hb
    (fun _ => ha.kindOk) fun _ => hw
theorem csetbx_bounds (ha : CapIn s boundedKinds a) {w : Value} (hw : setBounds (isSteward s.here.1) true a.cap b.scalar = .ok w) :
    exec (.csetbx pr t1 t0) s = .next (answers s t1 t0 (lanesOf m w) []) :=
  pair_answers (kinds := fun _ => boundedKind) (g := fun c cap => setBounds c.steward true cap c.r.scalar) rfl rfl rfl h hr ha hb
    (fun _ => ha.kindOk) fun _ => hw
/-- Where the bounds cannot be set, both fault BOUNDS. -/
theorem csetb_faults (ha : CapIn s boundedKinds a) (hw : setBounds (isSteward s.here.1) false a.cap b.scalar = .error (trapCap tBounds a.cap)) :
    exec (.csetb pr t1 t0) s = .next (traps s (trapCap tBounds a.cap)) :=
  pair_faults (kinds := fun _ => boundedKind) (g := fun c cap => setBounds c.steward false cap c.r.scalar) rfl rfl rfl h hr ha hb
    (fun _ => ha.kindOk) (fun _ => hw) (show tBounds ≠ tAway by decide)
theorem csetbx_faults (ha : CapIn s boundedKinds a) (hw : setBounds (isSteward s.here.1) true a.cap b.scalar = .error (trapCap tBounds a.cap)) :
    exec (.csetbx pr t1 t0) s = .next (traps s (trapCap tBounds a.cap)) :=
  pair_faults (kinds := fun _ => boundedKind) (g := fun c cap => setBounds c.steward true cap c.r.scalar) rfl rfl rfl h hr ha hb
    (fun _ => ha.kindOk) (fun _ => hw) (show tBounds ≠ tAway by decide)
end

/-! ## CADDI (R143) -/

theorem caddi_moves {imm : BitVec 14} (h : MayFire s) (hr : Runs s pr m) (ha : CapIn s boundedKinds a) {w : Value}
    (hw : moveCap false a.cap (a.scalar + signedImm s imm) = w) :
    exec (.caddi pr imm t0) s = .next (answers s noTarget t0 (lanesOf m w) []) := by
  show execCaddi pr imm t0 s = _
  refine (Fires.immediate h hr ha.given rfl (.inl rfl)).capResult (not_anyBroken_one ha.usable) ha.needed (capLanes_one ha.whole) ?_
  refine (congrArg (· >>= _) (capOf_ok ha.tagged ha.kindOk)).trans (congrArg Except.ok ?_)
  rw [← hw, capAddr_eq, ← wideField_eq]
  rfl

/-- The kinds that CSETA takes: the bounded ones in any mode, every kind from 1 to 12 in steward mode (R143, R428). -/
theorem setaKind_bounded {c : Ctx} {k : Nat} (h : boundedKinds k = true) : c.setaKind k = true := by
  unfold Ctx.setaKind
  split
  · revert h; simp only [boundedKinds, Bool.or_eq_true, Bool.and_eq_true, decide_eq_true_eq, beq_iff_eq]; omega
  · exact h
theorem setaKind_steward {c : Ctx} {k : Nat} (hs : isSteward c.core = true) (h : (1 ≤ k && k ≤ 12) = true) : c.setaKind k = true := by
  unfold Ctx.setaKind
  exact (if_pos hs).trans h

/-- Settles O13: the moves by `moveCap` within and out of the region, CSETB and CSETBX by the four outcomes of `setBounds`. -/
theorem capabilityAddressesAndBounds : Obligations.CapabilityAddressesAndBounds := by
  refine ⟨fun s pr t1 t0 m a b h hr hb => ⟨fun ha => ⟨fun hs => ?_, fun hs => ?_, fun hs => ?_, fun hn hs => ?_⟩, fun hst ha => ?_⟩,
    fun s pr imm t0 m a h hr ha => ⟨fun hs => ?_, fun hs => ?_⟩,
    fun s pr t1 t0 m a b h hr ha hb => ⟨fun e he => ?_, fun e he => ?_, fun hw => ?_, fun hn hw => ?_, fun hf => ?_, fun e he => ⟨fun hn hw => ?_, fun hw => ?_⟩⟩⟩
  · rw [← lanesOf_capValue]; exact cadd_moves h hr hb ha (moveCap_keeps (.inr hs))
  · rw [← lanesOf_untagged]; exact cadd_moves h hr hb ha (moveCap_leaves hs)
  · rw [← lanesOf_capValue]; exact cseta_moves h hr hb ha (fun _ _ => setaKind_bounded ha.kindOk) (moveCap_keeps (.inr hs))
  · rw [← lanesOf_untagged]
    have hst : isSteward s.here.1 = false := by rw [← Bool.not_eq_true, steward_iff]; exact hn
    exact cseta_moves h hr hb ha (fun _ _ => setaKind_bounded ha.kindOk) (by rw [hst]; exact moveCap_leaves hs)
  · rw [← lanesOf_capValue]
    have hst := (steward_iff s).2 hst
    exact cseta_moves h hr hb ha (fun c hc => setaKind_steward (by rw [hc]; exact hst) ha.kindOk) (moveCap_keeps (.inl hst))
  · rw [← lanesOf_capValue]; exact caddi_moves h hr ha (moveCap_keeps (.inr hs))
  · rw [← lanesOf_untagged]; exact caddi_moves h hr ha (moveCap_leaves hs)
  · rw [← lanesOf_capValue, ← cap_address]; exact csetb_bounds h hr hb ha (setBounds_ok he)
  · rw [← lanesOf_capValue, ← cap_address]; exact csetbx_bounds h hr hb ha (setBounds_ok he)
  · rw [← cap_address a] at hw
    exact ⟨csetb_faults h hr hb ha (setBounds_beyond hw), csetbx_faults h hr hb ha (setBounds_beyond hw)⟩
  · rw [← cap_address a] at hw
    exact ⟨csetb_faults h hr hb ha (setBounds_wide hn hw), csetbx_faults h hr hb ha (setBounds_wide hn hw)⟩
  · rw [← cap_address a] at hf
    exact ⟨csetb_faults h hr hb ha (setBounds_unfit hf), csetbx_faults h hr hb ha (setBounds_unfit hf)⟩
  · rw [← cap_address a] at hw
    exact ⟨csetb_faults h hr hb ha (setBounds_outside hn he hw), csetbx_faults h hr hb ha (setBounds_outside hn he hw)⟩
  · rw [← cap_address a] at hw
    exact csetbx_faults h hr hb ha (setBounds_inexact he hw)

end Sys2Proof.Claims
end

section
/-! The obligation O15: the fields of a capability, and BROKEN and null operands of every capability operation (R33, R39, R142, R143; logs 23
and 26). -/

namespace Sys2Proof.Claims
open Sys2Proof.Machine

variable {s : State} {pr : BitVec 2} {m : BitVec 16} {a b : Value} {t1 t0 : BitVec 9}

/-! ## Fields (R143) -/

/-- A scalar reader answers its field of a whole capability. -/
theorem capGet_answers {i : Instr} {row : Row} {g : Cap → Nat} {x : Word}
    (he : exec i s = s.fire (tForm row pr 1 t1 t0) plainNull fun c => c.capGet g) (hg : (row == .cusGive) = false) (hl : row.isLoad = false)
    (h : MayFire s) (hr : Runs s pr m) (ha : CapIn s allKinds a) (hx : BitVec.ofNat 64 (g a.cap) = x) :
    exec i s = .next (answers s t1 t0 (numOut m x) []) := by
  rw [he, ← lanesOf_dataScalar, ← hx]
  refine (Fires.single h hr ha.given hg hl).capResult (not_anyBroken_one ha.usable) ha.needed (capLanes_one ha.whole) ?_
  exact congrArg (· >>= _) (capOf_ok ha.tagged ha.kindOk)
theorem reads_cgeta : Reads .cgeta (fun c => bitsAt c 0 64) := fun s pr t1 t0 m a h hr ha =>
  capGet_answers (row := .cgeta) rfl rfl rfl h hr ha (by simp [capAddr])
theorem reads_cgetp : Reads .cgetp (fun c => (bitsAt c 112 12 : BitVec 12).setWidth 64) := fun s pr t1 t0 m a h hr ha =>
  capGet_answers (row := .cgetp) rfl rfl rfl h hr ha (by rw [numAt_eq_bitsAt, BitVec.ofNat_toNat])
theorem reads_cgetk : Reads .cgetk (fun c => (bitsAt c 124 4 : BitVec 4).setWidth 64) := fun s pr t1 t0 m a h hr ha =>
  capGet_answers (row := .cgetk) rfl rfl rfl h hr ha (by rw [capKind, numAt_eq_bitsAt, BitVec.ofNat_toNat])
/-- The kinds that have bounds (R39). -/
theorem hasBounds_iff (c : Cap) : hasBounds (capKind c) = true ↔ boundedKinds (bitsAt c 124 4).toNat = true ∨ (bitsAt c 124 4).toNat = 12 := by
  rw [capKind, numAt_eq_bitsAt, hasBounds, Bool.or_eq_true, beq_iff_eq, boundedKind_eq]
theorem reads_cgetb :
    Reads .cgetb (fun c => if boundedKinds (bitsAt c 124 4).toNat ∨ (bitsAt c 124 4).toNat = 12 then BitVec.ofNat 64 (baseOf c) else 0) :=
  fun s pr t1 t0 m a h hr ha => capGet_answers (row := .cgetb) rfl rfl rfl h hr ha (by
    simp only [← hasBounds_iff, capBase_eq]; split <;> rfl)
theorem reads_cgetl :
    Reads .cgetl (fun c => if boundedKinds (bitsAt c 124 4).toNat ∨ (bitsAt c 124 4).toNat = 12 then BitVec.ofNat 64 (lengthOf c) else 0) :=
  fun s pr t1 t0 m a h hr ha => capGet_answers (row := .cgetl) rfl rfl rfl h hr ha (by
    simp only [← hasBounds_iff, capLimit_eq, capBase_eq, Nat.add_sub_cancel_left]; split <;> rfl)

section
variable (h : MayFire s) (hr : Runs s pr m) (ga : Given s 0 a)
include h hr ga

/-- CCLR answers the same bits without a capability's tag, lanes 0 to 3 null together. -/
theorem cclr_answers : exec (.cclr pr t1 t0) s = .next (answers s t1 t0
    { bits := a.bits, valid := (if capOk a then a.valid else a.valid &&& 0xFFF0) &&& m, tag := if a.tag = .broken then .broken else .data,
      null := false } []) := by
  show execCclr pr t1 t0 s = _
  refine (Fires.single h hr ga rfl rfl).value (congrArg (Ctx.value _) ?_)
  simp only [ctxOf_l, ctxOf_masked, capOk_eq, lanesOf, beq_iff_eq, ga.real]
variable (ha : capOk a = true) (ta : a.tag ≠ .broken)
include ta
include ha
theorem ctagt_tells : exec (.ctagt pr t1 t0) s = .next (answers s t1 t0 (numOut m (if a.tag = .cap then 1 else 0)) []) := by
  show execCtagt pr t1 t0 s = _
  rw [← lanesOf_dataScalar]
  refine (Fires.single h hr ga rfl rfl).capResult (not_anyBroken_one ta) rfl (capLanes_one ha) ?_
  simp only [ctxOf_l, beq_iff_eq]
variable (hb : RightIn s b)
include hb
theorem csub_subtracts : exec (.csub pr t1 t0) s = .next (answers s t1 t0 (numOut m (a.scalar - b.scalar)) []) := by
  show execCsub pr t1 t0 s = _
  rw [← lanesOf_dataScalar]
  exact (Fires.pair h hr ga hb.given rfl rfl).capResult (not_anyBroken_two ta hb.usable) rfl (capLanes_two ha hb.whole) rfl
theorem ceq_compares : exec (.ceq pr t1 t0) s = .next (answers s t1 t0 (numOut m (if a.tag = b.tag ∧ a.cap = b.cap then 1 else 0)) []) := by
  show execCeq pr t1 t0 s = _
  rw [← lanesOf_dataScalar]
  refine (Fires.pair h hr ga hb.given rfl rfl).capResult (not_anyBroken_two ta hb.usable) rfl (capLanes_two ha hb.whole) ?_
  simp only [ctxOf_l, ctxOf_r, Bool.and_eq_true, beq_iff_eq]
end

/-! ## BROKEN operands (log 23) -/

/-- The capability operations with two operands, as firings of `Ctx.capOp`. -/
theorem capPairs_fire : ∀ mk ∈ capPairs, ∃ (row : Row) (tag : Tag) (need : Ctx → Except Trap Unit) (g : Ctx → Except Trap Value),
    (row == .cusGive) = false ∧ row.isLoad = false ∧
    ∀ s pr t1 t0, exec (mk pr t1 t0) s = s.fire (tForm row pr 2 t1 t0) plainNull fun c => c.capOp true tag (need c) (g c) := by
  simp only [capPairs, List.forall_mem_cons]
  exact ⟨⟨.cadd, _, _, _, rfl, rfl, fun s pr t1 t0 => (rfl : execCadd pr t1 t0 s = _)⟩, ⟨.cseta, _, _, _, rfl, rfl, fun s pr t1 t0 => (rfl : execCseta pr t1 t0 s = _)⟩,
    ⟨.csetb, _, _, _, rfl, rfl, fun s pr t1 t0 => (rfl : execCsetb pr t1 t0 s = _)⟩, ⟨.csetbx, _, _, _, rfl, rfl, fun s pr t1 t0 => (rfl : execCsetbx pr t1 t0 s = _)⟩,
    ⟨.cperm, _, _, _, rfl, rfl, fun s pr t1 t0 => (rfl : execCperm pr t1 t0 s = _)⟩, ⟨.cseal, _, _, _, rfl, rfl, fun s pr t1 t0 => (rfl : execCseal pr t1 t0 s = _)⟩,
    ⟨.cunseal, _, _, _, rfl, rfl, fun s pr t1 t0 => (rfl : execCunseal pr t1 t0 s = _)⟩, ⟨.csub, _, _, _, rfl, rfl, fun s pr t1 t0 => (rfl : execCsub pr t1 t0 s = _)⟩,
    ⟨.ceq, _, _, _, rfl, rfl, fun s pr t1 t0 => (rfl : execCeq pr t1 t0 s = _)⟩, fun _ h => nomatch h⟩
/-- Those with one operand, but for CCLR. -/
theorem capSingles_fire : ∀ mk ∈ capSingles, mk = .cclr ∨ ∃ (row : Row) (need : Ctx → Except Trap Unit) (g : Ctx → Except Trap Value),
    (row == .cusGive) = false ∧ row.isLoad = false ∧
    ∀ s pr t1 t0, exec (mk pr t1 t0) s = s.fire (tForm row pr 1 t1 t0) plainNull fun c => c.capOp false .data (need c) (g c) := by
  simp only [capSingles, List.forall_mem_cons]
  exact ⟨.inr ⟨.cgeta, _, _, rfl, rfl, fun s pr t1 t0 => (rfl : execCgeta pr t1 t0 s = _)⟩,
    .inr ⟨.cgetb, _, _, rfl, rfl, fun s pr t1 t0 => (rfl : execCgetb pr t1 t0 s = _)⟩,
    .inr ⟨.cgetl, _, _, rfl, rfl, fun s pr t1 t0 => (rfl : execCgetl pr t1 t0 s = _)⟩,
    .inr ⟨.cgetp, _, _, rfl, rfl, fun s pr t1 t0 => (rfl : execCgetp pr t1 t0 s = _)⟩,
    .inr ⟨.cgetk, _, _, rfl, rfl, fun s pr t1 t0 => (rfl : execCgetk pr t1 t0 s = _)⟩,
    .inr ⟨.ctagt, _, _, rfl, rfl, fun s pr t1 t0 => (rfl : execCtagt pr t1 t0 s = _)⟩, .inl trivial, fun _ h => nomatch h⟩

section
variable (h : MayFire s) (hr : Runs s pr m) (ga : Given s 0 a)
include h hr ga

theorem pair_broken (gb : Given s 1 b) (tb : a.tag = .broken ∨ b.tag = .broken) {mk : BitVec 2 → BitVec 9 → BitVec 9 → Instr} (hm : mk ∈ capPairs) :
    ∃ x, exec (mk pr t1 t0) s = .next (answers s t1 t0
      { bits := x, valid := (if capOk a && capOk b then 0xFFFF#16 else 0xFFF0#16) &&& m, tag := .broken, null := false } []) := by
  obtain ⟨row, tag, need, g, hg, hl, he⟩ := capPairs_fire mk hm
  rw [he]
  exact (Fires.pair h hr ga gb hg hl).capBroken (two := true) (tb.imp id fun t => ⟨rfl, t⟩)
theorem single_broken (ta : a.tag = .broken) (hv : a.valid = 0xFFFF) (hc : capOk a = true) {mk : BitVec 2 → BitVec 9 → BitVec 9 → Instr}
    (hm : mk ∈ capSingles) :
    ∃ x, exec (mk pr t1 t0) s = .next (answers s t1 t0 { bits := x, valid := m, tag := .broken, null := false } []) := by
  rcases capSingles_fire mk hm with rfl | ⟨row, need, g, hg, hl, he⟩
  · refine ⟨a.bits, ?_⟩
    rw [cclr_answers h hr ga, if_pos hc, hv, if_pos ta]
    exact congrArg (fun v => Host.Outcome.next (answers s t1 t0 { bits := a.bits, valid := v, tag := .broken, null := false } [])) (allLanes_and m)
  · obtain ⟨x, hx⟩ := (Fires.single (t1 := t1) (t0 := t0) h hr ga hg hl).capBroken (two := false) (tag := .data) (need := need) (g := g)
      (onNull := plainNull) (.inl ta)
    refine ⟨x, ?_⟩
    rw [capLanes_one hc] at hx
    rw [he, hx]
    exact congrArg (fun v => Host.Outcome.next (answers s t1 t0 { bits := x, valid := v, tag := .broken, null := false } [])) (allLanes_and m)
theorem caddi_broken (ta : a.tag = .broken) (imm : BitVec 14) : ∃ x, exec (.caddi pr imm t0) s = .next (answers s noTarget t0
    { bits := x, valid := (if capOk a then 0xFFFF#16 else 0xFFF0#16) &&& m, tag := .broken, null := false } []) := by
  show ∃ x, execCaddi pr imm t0 s = _
  obtain ⟨x, hx⟩ := (Fires.immediate (row := .caddi) (t0 := t0) h hr ga rfl (.inl rfl)).capBroken (two := false) (tag := .cap)
    (need := fun c => c.needCap boundedKind) (g := fun c => do let cap ← capOf c.l boundedKind; return moveCap false cap (capAddr cap + c.imm imm))
    (onNull := plainNull) (.inl ta)
  refine ⟨x, hx.trans ?_⟩
  cases hc : capOk a <;> simp [capLanes, hc] <;> rfl

end

/-! ## Null lanes in 0 to 3 (R142, log 26) -/

/-- The operations that make a capability of two operands and ask a kind of L: a bounded one is allowed by each. -/
def capMakers : List (BitVec 2 → BitVec 9 → BitVec 9 → Instr) := [.cadd, .cseta, .csetb, .csetbx, .cperm]
theorem capMakers_fire : ∀ mk ∈ capMakers, ∃ (row : Row) (kinds : Ctx → Nat → Bool) (g : Ctx → Except Trap Value),
    (row == .cusGive) = false ∧ row.isLoad = false ∧ (∀ c k, boundedKinds k = true → kinds c k = true) ∧
    ∀ s pr t1 t0, exec (mk pr t1 t0) s = s.fire (tForm row pr 2 t1 t0) plainNull fun c => c.capOp true .cap (c.needCap (kinds c)) (g c) := by
  have small : ∀ k, boundedKinds k = true → decide (k ≤ 12) = true := fun k h => by
    revert h; simp only [boundedKinds, Bool.or_eq_true, Bool.and_eq_true, decide_eq_true_eq, beq_iff_eq]; omega
  simp only [capMakers, List.forall_mem_cons]
  exact ⟨⟨.cadd, fun _ => boundedKind, _, rfl, rfl, fun _ _ => id, fun s pr t1 t0 => (rfl : execCadd pr t1 t0 s = _)⟩,
    ⟨.cseta, fun c => c.setaKind, _, rfl, rfl, fun _ _ => setaKind_bounded, fun s pr t1 t0 => (rfl : execCseta pr t1 t0 s = _)⟩,
    ⟨.csetb, fun _ => boundedKind, _, rfl, rfl, fun _ _ => id, fun s pr t1 t0 => (rfl : execCsetb pr t1 t0 s = _)⟩,
    ⟨.csetbx, fun _ => boundedKind, _, rfl, rfl, fun _ _ => id, fun s pr t1 t0 => (rfl : execCsetbx pr t1 t0 s = _)⟩,
    ⟨.cperm, fun _ => (· ≤ 12), _, rfl, rfl, fun _ => small, fun s pr t1 t0 => (rfl : execCperm pr t1 t0 s = _)⟩, fun _ h => nomatch h⟩
/-- The readers of a capability's fields. -/
def capReaders : List (BitVec 2 → BitVec 9 → BitVec 9 → Instr) := [.cgeta, .cgetb, .cgetl, .cgetp, .cgetk]
theorem capReaders_fire : ∀ mk ∈ capReaders, ∃ (row : Row) (g : Cap → Nat), (row == .cusGive) = false ∧ row.isLoad = false ∧
    ∀ s pr t1 t0, exec (mk pr t1 t0) s = s.fire (tForm row pr 1 t1 t0) plainNull fun c => c.capGet g := by
  simp only [capReaders, List.forall_mem_cons]
  exact ⟨⟨.cgeta, _, rfl, rfl, fun s pr t1 t0 => (rfl : execCgeta pr t1 t0 s = _)⟩,
    ⟨.cgetb, _, rfl, rfl, fun s pr t1 t0 => (rfl : execCgetb pr t1 t0 s = _)⟩,
    ⟨.cgetl, _, rfl, rfl, fun s pr t1 t0 => (rfl : execCgetl pr t1 t0 s = _)⟩,
    ⟨.cgetp, _, rfl, rfl, fun s pr t1 t0 => (rfl : execCgetp pr t1 t0 s = _)⟩,
    ⟨.cgetk, _, rfl, rfl, fun s pr t1 t0 => (rfl : execCgetk pr t1 t0 s = _)⟩, fun _ h => nomatch h⟩
/-- An operand whose lanes 0 to 3 are not all valid shows no permission to ask for. -/
theorem needSeal_ok {v : Value} (ht : v.tag = .cap) (hp : capOk v = true → bitAt v.cap 112 = true) : needSeal v = .ok () := by
  refine if_pos ?_
  rw [capOk_eq, ht]
  cases hc : capOk v
  · rfl
  · exact hp hc
/-- CSEAL asks nothing of a capability that is not whole but its tag. -/
theorem needToSeal_partial {row : Row} {t : Value} (ta : a.tag = .cap) (hc : capOk a = false) (tb : b.tag = .cap)
    (hp : capOk b = true → bitAt b.cap 112 = true) : (ctxOf s row a b t m).needToSeal = .ok () := by
  unfold Ctx.needToSeal
  rw [needCap_ok ta (by simp [hc])]
  simp [capOk_eq, hc, needSeal_ok tb hp, bind, Except.bind, pure, Except.pure]

section
variable (h : MayFire s) (hr : Runs s pr m) (ga : Given s 0 a)
include h hr ga

theorem reader_null (ta : a.tag = .cap) (hc : capOk a = false) {mk : BitVec 2 → BitVec 9 → BitVec 9 → Instr} (hm : mk ∈ capReaders) :
    exec (mk pr t1 t0) s = .next (answers s t1 t0 { bits := 0, valid := 0xFFF0 &&& m, tag := .data, null := false } []) := by
  obtain ⟨row, g, hg, hl, he⟩ := capReaders_fire mk hm
  rw [he]
  exact (Fires.single h hr ga hg hl).capNull (not_anyBroken_one (by rw [ta]; decide)) (needCap_ok ta (by simp [hc])) (capLanes_one_null hc)
theorem caddi_null (ta : a.tag = .cap) (hc : capOk a = false) (imm : BitVec 14) : exec (.caddi pr imm t0) s =
    .next (answers s noTarget t0 { bits := 0, valid := 0xFFF0 &&& m, tag := .cap, null := false } []) := by
  show execCaddi pr imm t0 s = _
  exact (Fires.immediate h hr ga rfl (.inl rfl)).capNull (not_anyBroken_one (by rw [ta]; decide)) (needCap_ok ta (by simp [hc])) (capLanes_one_null hc)
theorem ctagt_null (ta : a.tag ≠ .broken) (hc : capOk a = false) :
    exec (.ctagt pr t1 t0) s = .next (answers s t1 t0 { bits := 0, valid := 0xFFF0 &&& m, tag := .data, null := false } []) := by
  show execCtagt pr t1 t0 s = _
  exact (Fires.single h hr ga rfl rfl).capNull (not_anyBroken_one ta) rfl (capLanes_one_null hc)
variable (gb : Given s 1 b) (tb : b.tag ≠ .broken)
include gb tb
theorem maker_null (ta : a.tag = .cap) (hk : capOk a = true → boundedKinds (capKind a.cap) = true) (hc : (capOk a && capOk b) = false)
    {mk : BitVec 2 → BitVec 9 → BitVec 9 → Instr} (hm : mk ∈ capMakers) :
    exec (mk pr t1 t0) s = .next (answers s t1 t0 { bits := 0, valid := 0xFFF0 &&& m, tag := .cap, null := false } []) := by
  obtain ⟨row, kinds, g, hg, hl, hb, he⟩ := capMakers_fire mk hm
  rw [he]
  exact (Fires.pair h hr ga gb hg hl).capNull (not_anyBroken_two (by rw [ta]; decide) tb) (needCap_ok ta fun c => hb _ _ (hk c)) (capLanes_two_null hc)
theorem csub_null (ta : a.tag ≠ .broken) (hc : (capOk a && capOk b) = false) :
    exec (.csub pr t1 t0) s = .next (answers s t1 t0 { bits := 0, valid := 0xFFF0 &&& m, tag := .data, null := false } []) := by
  show execCsub pr t1 t0 s = _
  exact (Fires.pair h hr ga gb rfl rfl).capNull (not_anyBroken_two ta tb) rfl (capLanes_two_null hc)
theorem ceq_null (ta : a.tag ≠ .broken) (hc : (capOk a && capOk b) = false) :
    exec (.ceq pr t1 t0) s = .next (answers s t1 t0 { bits := 0, valid := 0xFFF0 &&& m, tag := .data, null := false } []) := by
  show execCeq pr t1 t0 s = _
  exact (Fires.pair h hr ga gb rfl rfl).capNull (not_anyBroken_two ta tb) rfl (capLanes_two_null hc)
omit tb
theorem cseal_null (ta : a.tag = .cap) (hc : capOk a = false) (tb : b.tag = .cap) (hp : capOk b = true → bitAt b.cap 112 = true) :
    exec (.cseal pr t1 t0) s = .next (answers s t1 t0 { bits := 0, valid := 0xFFF0 &&& m, tag := .cap, null := false } []) := by
  show execCseal pr t1 t0 s = _
  refine (Fires.pair h hr ga gb rfl rfl).capNull (not_anyBroken_two (by rw [ta]; decide) (by rw [tb]; decide)) ?_ (capLanes_two_null (by simp [hc]))
  exact needToSeal_partial ta hc tb hp
theorem cunseal_null (ta : a.tag = .cap) (hc : capOk a = false) (tb : b.tag = .cap) (hp : capOk b = true → bitAt b.cap 112 = true) :
    exec (.cunseal pr t1 t0) s = .next (answers s t1 t0 { bits := 0, valid := 0xFFF0 &&& m, tag := .cap, null := false } []) := by
  show execCunseal pr t1 t0 s = _
  refine (Fires.pair h hr ga gb rfl rfl).capNull (not_anyBroken_two (by rw [ta]; decide) (by rw [tb]; decide)) ?_ (capLanes_two_null (by simp [hc]))
  exact (congrArg (· >>= _) (needCap_ok ta (by simp [hc]))).trans (needSeal_ok tb hp)
end

/-- Settles O15: the readers of whole capabilities, and the BROKEN and the null outcome of `Ctx.capOp` over the lists of operations. -/
theorem capabilityFieldsAndNulls : Obligations.CapabilityFieldsAndNulls := by
  refine ⟨⟨reads_cgeta, reads_cgetb, reads_cgetl, reads_cgetp, reads_cgetk, fun s pr t1 t0 m a b h hr ga ha ta => ⟨?_, ?_, fun hb => ⟨?_, ?_⟩⟩⟩,
    fun mk hm s pr t1 t0 m a b h hr ga gb tb => pair_broken h hr ga gb tb hm,
    fun mk hm s pr t1 t0 m a h hr ga ta ha hv => single_broken h hr ga ta hv ha hm,
    fun s pr t1 t0 m a b h hr ga gb ta tb hk hc mk hm => maker_null h hr ga gb tb ta hk hc hm,
    fun s pr t1 t0 m a b h hr ga gb ta hc tb hp => ⟨cseal_null h hr ga gb ta hc tb hp, cunseal_null h hr ga gb ta hc tb hp⟩,
    fun s pr t1 t0 m a b h hr ga gb ta tb hc => ⟨csub_null h hr ga gb tb ta hc, ceq_null h hr ga gb tb ta hc⟩,
    fun s pr t1 t0 m a h hr ga => ⟨caddi_broken h hr ga, fun ta hc => ⟨caddi_null h hr ga ta hc, fun mk hm => reader_null h hr ga ta hc hm⟩,
      ctagt_null h hr ga⟩,
    fun s pr t1 t0 m a h hr ga ta hc => ?_⟩
  · exact ctagt_tells h hr ga ha ta
  · rw [cclr_answers h hr ga, if_pos ha, if_neg ta]
  · exact csub_subtracts h hr ga ha ta hb
  · exact ceq_compares h hr ga ha ta hb
  · rw [cclr_answers h hr ga, hc, if_neg ta]; rfl

end Sys2Proof.Claims
end

section
/-! The obligations O17 and O19: the scalar loads and stores (R23, R27, R60, R146, R147, R150 to R152; logs 24 and 58). -/

namespace Sys2Proof.Claims
open Sys2Proof.Machine

/-! ## Local addresses and the checks of R147 -/

theorem addrOff_eq (a : Word) : addrOff a = offsetOf a := by simp [addrOff, numAt, offsetOf]
theorem addrCore_eq (a : Word) : addrCore a = coreOf a := by
  have h := a.isLt
  simp only [addrCore, numAt, coreOf]
  exact Nat.mod_eq_of_lt (by omega)
theorem localAt_eq (v : Value) {n : Nat} (s : State) (imm : BitVec n) (scale : Nat) :
    localAt v.cap (signedImm s imm) scale = localAddress s v imm scale := by rw [localAt, capAddr_eq]; rfl
theorem storeEnd_eq (k : Sto) : storeEnd k = if k = .s then 0xC000 else storeSize k := by cases k <;> rfl
/-- The store that a capability is on (R37). -/
theorem stoOfKind_eq {v : Value} {k : Sto} (h : bitsAt v.cap 124 4 = storeKind k) : stoOfKind (capKind v.cap) = some k := by
  rw [capKind, numAt_eq_bitsAt, h]; cases k <;> rfl

section
variable {s : State} {row : Row} {m : BitVec 16} {v r t : Value} {k : Sto} {perm n : Nat} {a : Word}

/-- An access that R147 lets through passes the checks: a load, or a store to another store than W. -/
theorem checkLocal_ok {isStore tagAt : Bool} {u : Value} (hv : LocalNow s v k (if isStore then 122 else 123) n n a) (hw : isStore = true → k ≠ .w) :
    (ctxOf s row u r t m).checkLocal v isStore false a n n tagAt = .ok (k, offsetOf a) := by
  obtain ⟨⟨-, -, ht, hk, hp, hc, ha, hlo, hhi, hin⟩, hn⟩ := hv
  have tags : (v.tag == .broken) = false ∧ (v.tag != .cap) = false := by rw [ht]; decide
  unfold Ctx.checkLocal
  simp only [tags.1, tags.2, stoOfKind_eq hk, Bool.false_eq_true, if_false, Bool.false_and, Bool.or_false, ctxOf_logical]
  refine (if_neg fun c => ?_).trans ((if_neg fun c => ?_).trans ((if_neg fun c => c ha).trans ((if_neg fun c => ?_).trans ((if_neg fun c => ?_).trans ?_))))
  · rw [Bool.and_eq_true, beq_iff_eq] at c
    exact hw c.1 c.2
  · rw [Bool.or_eq_true, Bool.not_eq_true', bne_iff_ne, addrCore_eq] at c
    exact c.elim (fun c => absurd (c.symm.trans hp) (by decide)) fun c => c hc
  · rw [capInBounds, capBase_eq, capLimit_eq, storeEnd_eq, addrOff_eq] at c
    simp only [Bool.or_eq_true, Bool.not_eq_true', Bool.and_eq_false_iff, decide_eq_false_iff_not, decide_eq_true_eq] at c
    omega
  · rw [addrOff_eq] at c
    exact absurd (c.symm.trans hn) (by decide)
  · rw [addrOff_eq]
end

/-! ## What a load sees (R27, R60) -/

section
variable {s : State} {row : Row} {m : BitVec 16} {l r t : Value}

theorem foldl_seen (k : Sto) (off lsid : Nat) :
    (List.range lsid).foldl (fun b j =>
      let w := mapGet (blkOf s).lsids' j
      if w.sto == k then (match w.bytes.find? (fun e => e.1 == off) with | some e => e.2 | none => b) else b)
      (mapGet ((s.core s.here.1).store k).bytes off) = byteSeen s k off lsid := by
  induction lsid with
  | zero => rfl
  | succ j ih =>
    rw [List.range_succ, List.foldl_append, ih]
    simp only [List.foldl_cons, List.foldl_nil, byteSeen, beq_iff_eq]
    split <;> rfl
theorem seen_eq (k : Sto) (off n : Nat) (lsid : BitVec 5) :
    natOfBytes ((ctxOf s row l r t m).seen k off n lsid.toNat) = numberSeen s k lsid off n := by
  unfold Ctx.seen numberSeen
  refine congrArg natOfBytes (List.map_congr_left fun i _ => ?_)
  exact foldl_seen k (off + i) lsid.toNat
/-- Where no word of the store has an error, a load answers what it read, masked (R450). -/
theorem readLocal_clean {k : Sto} (hp : ((s.core s.here.1).store k).poison = []) (hc : ((s.core s.here.1).store k).corr = []) (lsid : Nat)
    (places : List (Nat × Nat)) (out : Value) :
    (ctxOf s row l r t m).readLocal k lsid places out = .ok { s := s, v0 := lanesOf m out, v1 := lanesOf m out } := by
  unfold Ctx.readLocal
  simp [hp, hc, Ctx.marked, Ctx.corrected]
/-- Lanes 0 and 1 are unmasked. -/
theorem scalarMask_iff (m : BitVec 16) : m &&& 3 = 3 ↔ bitsAt m 0 2 = 3#2 := by
  have h1 : (m &&& 3).toNat = m.toNat % 4 := Nat.and_two_pow_sub_one_eq_mod m.toNat 2
  have h2 : (bitsAt m 0 2).toNat = m.toNat % 4 := by rw [← numAt_eq_bitsAt]; simp [numAt]
  rw [← BitVec.toNat_inj, ← BitVec.toNat_inj, h1, h2]
  rfl
end

/-! ## Scalar loads (R146, R147, R150) -/

/-- A number of `n` bytes as a scalar, its sign extended or not. -/
def extended (signed : Bool) (n x : Nat) : Word := if signed then (BitVec.ofNat (8 * n) x).signExtend 64 else BitVec.ofNat 64 x

section
variable {s : State} {row : Row} {pr : BitVec 2} {m : BitVec 16} {v r t : Value} {lsid : BitVec 5} {imm t0 : BitVec 9} {n : Nat} {signed : Bool}

theorem loadScalar_reads {k : Sto} (hm : bitsAt m 0 2 = 3#2) (hn : 8 * n ≤ 64) (hv : LocalNow s v k 123 n n (localAddress s v imm n))
    (hr : Readable s k lsid) :
    (ctxOf s row v r t m).loadScalar lsid imm n signed =
      let x := numOut m (extended signed n (numberSeen s k lsid (offsetOf (localAddress s v imm n)) n))
      .ok { s := s, v0 := x, v1 := x } := by
  have hk := stoOfKind_eq hv.kind
  have hl : v.validTo 4 = true := (capOk_eq v).trans hv.whole
  have ha : localAt v.cap (wideField (blkOf s).words (indexOf s) 9 imm) n = localAddress s v imm n := by rw [wideField_eq, localAt_eq]
  have hnot : ¬ (m &&& 3 = 0 ∨ True ∧ m &&& 3 ≠ 3) := by rw [(scalarMask_iff m).2 hm]; decide
  unfold Ctx.loadScalar Ctx.load
  simp only [ctxOf_l, ctxOf_mask, ctxOf_blk, ctxOf_idx, hl, ha, hnot, Bool.not_true, Bool.false_eq_true, if_false]
  rw [checkLocal_ok (isStore := false) hv (fun h => nomatch h)]
  simp only [readLocal_clean hr.good.1 hr.good.2, wordOfBytes, seen_eq, lanesOf_dataScalar]
  cases signed
  · rfl
  · simp only [extended, if_true, BitVec.truncate_eq_setWidth, BitVec.setWidth_ofNat_of_le hn]
theorem loadScalar_null (hv : capOk v = false) :
    (ctxOf s row v r t m).loadScalar lsid imm n signed = .ok { s := s, v0 := blank 0, v1 := blank 0 } := by
  refine if_pos ?_
  rw [ctxOf_l, capOk_eq, hv]; rfl
theorem loadScalar_masked (hv : capOk v = true) (hm : bitsAt m 0 2 ≠ 3#2) :
    (ctxOf s row v r t m).loadScalar lsid imm n signed = .ok { s := s, v0 := blank (0xFFFC &&& m), v1 := blank (0xFFFC &&& m) } := by
  refine (if_neg ?_).trans (if_pos (.inr ⟨rfl, ?_⟩))
  · rw [ctxOf_l, capOk_eq, hv]; decide
  · rw [ctxOf_mask]; exact mt (scalarMask_iff m).1 hm
end

section
variable {s : State} {pr : BitVec 2} {m : BitVec 16} {v : Value} {lsid : BitVec 5} {imm t0 : BitVec 9}

theorem StoresBelow.done (h : StoresBelow s lsid) : storesDone (blkOf s) (lsidOf (wordOf s)).toNat = true := by
  refine List.all_eq_true.2 fun j hj => ?_
  have hj' : j < lsid.toNat := by rw [← h.word]; exact List.mem_range.1 hj
  cases hb : bitAt (blkOf s).storeMask j
  · rfl
  · simp [h.stores j hj' hb]
theorem exec_ldI8 (pr : BitVec 2) (lsid : BitVec 5) (imm t0 : BitVec 9) (s : State) : exec (.ldI8 pr lsid imm t0) s =
    s.fire (iForm .ldI8 pr 1 t0) plainNull fun c => c.loadScalar lsid imm 1 true := rfl
theorem exec_ldN8 (pr : BitVec 2) (lsid : BitVec 5) (imm t0 : BitVec 9) (s : State) : exec (.ldN8 pr lsid imm t0) s =
    s.fire (iForm .ldN8 pr 1 t0) plainNull fun c => c.loadScalar lsid imm 1 false := rfl
theorem exec_ldI16 (pr : BitVec 2) (lsid : BitVec 5) (imm t0 : BitVec 9) (s : State) : exec (.ldI16 pr lsid imm t0) s =
    s.fire (iForm .ldI16 pr 1 t0) plainNull fun c => c.loadScalar lsid imm 2 true := rfl
theorem exec_ldN16 (pr : BitVec 2) (lsid : BitVec 5) (imm t0 : BitVec 9) (s : State) : exec (.ldN16 pr lsid imm t0) s =
    s.fire (iForm .ldN16 pr 1 t0) plainNull fun c => c.loadScalar lsid imm 2 false := rfl
theorem exec_ldI32 (pr : BitVec 2) (lsid : BitVec 5) (imm t0 : BitVec 9) (s : State) : exec (.ldI32 pr lsid imm t0) s =
    s.fire (iForm .ldI32 pr 1 t0) plainNull fun c => c.loadScalar lsid imm 4 true := rfl
theorem exec_ldN32 (pr : BitVec 2) (lsid : BitVec 5) (imm t0 : BitVec 9) (s : State) : exec (.ldN32 pr lsid imm t0) s =
    s.fire (iForm .ldN32 pr 1 t0) plainNull fun c => c.loadScalar lsid imm 4 false := rfl
theorem exec_ld64 (pr : BitVec 2) (lsid : BitVec 5) (imm t0 : BitVec 9) (s : State) : exec (.ld64 pr lsid imm t0) s =
    s.fire (iForm .ld64 pr 1 t0) plainNull fun c => c.loadScalar lsid imm 8 false := rfl
/-- Each scalar load is a firing of `Ctx.loadScalar`. -/
theorem scalarLoads_fire : ∀ e ∈ scalarLoads, ∃ (row : Row) (signed : Bool), (row == .cusGive) = false ∧
    ∀ pr lsid imm t0 s, exec (e.1 pr lsid imm t0) s = s.fire (iForm row pr 1 t0) plainNull fun c => c.loadScalar lsid imm e.2 signed := by
  simp only [scalarLoads, List.forall_mem_cons]
  exact ⟨⟨.ldI8, true, rfl, exec_ldI8⟩,
    ⟨.ldN8, false, rfl, exec_ldN8⟩,
    ⟨.ldI16, true, rfl, exec_ldI16⟩,
    ⟨.ldN16, false, rfl, exec_ldN16⟩,
    ⟨.ldI32, true, rfl, exec_ldI32⟩,
    ⟨.ldN32, false, rfl, exec_ldN32⟩,
    ⟨.ld64, false, rfl, exec_ld64⟩, fun _ h => nomatch h⟩
/-- A scalar load answers what the block sees at its address. -/
theorem loadsScalar_of {mk : BitVec 2 → BitVec 5 → BitVec 9 → BitVec 9 → Instr} {row : Row} {n : Nat} {signed : Bool}
    (he : ∀ pr lsid imm t0 s, exec (mk pr lsid imm t0) s = s.fire (iForm row pr 1 t0) plainNull fun c => c.loadScalar lsid imm n signed)
    (hg : (row == .cusGive) = false) (hn : 8 * n ≤ 64) : LoadsScalar mk n (extended signed n) :=
  fun s pr lsid imm t0 m v k h hr hm hv hs => by
    rw [he]
    exact (Fires.immediate h hr hv.given hg (.inr hs.done)).value (loadScalar_reads hm hn hv hs)

end


/-! ## Scalar stores (R151, R152) -/

/-- An update of the block that fires leaves it admitted. -/
theorem phase_updBlk (s : State) (f : Blk → Blk) : (blkOf (s.updBlk s.here.1 s.here.2.1 f)).phase = (f (blkOf s)).phase := by
  show ((s.updBlk s.here.1 s.here.2.1 f).slot s.here.1 s.here.2.1).blk.phase = _
  rw [slot_updBlk_same]; rfl
theorem scalarOk_iff (v : Value) : scalarOk v = true ↔ bitsAt v.valid 0 2 = 3#2 := by
  rw [← scalarOk_eq, Value.validTo, numAt_eq_bitsAt, beq_iff_eq, ← BitVec.toNat_inj]; rfl
/-- Lanes 0 and 1 of a whole scalar, not masked. -/
theorem scalarLanes {v : Value} {m : BitVec 16} (hv : scalarOk v = true) (hm : bitsAt m 0 2 = 3#2) : v.valid &&& m &&& 3 = 3 := by
  rw [BitVec.and_assoc, (scalarMask_iff m).2 hm]
  exact (scalarMask_iff _).2 ((scalarOk_iff v).1 hv)
/-- Every lane of a scalar's bytes is valid among all lanes. -/
theorem laneBytes_all (v : V512) (off : Nat) {n : Nat} (hn : 8 * n ≤ 64) :
    laneBytes v allLanes off n = (List.range n).map fun i => (off + i, bitsAt v (8 * i) 8) := by
  unfold laneBytes
  rw [List.filter_eq_self.2]
  intro i hi
  have := List.mem_range.1 hi
  rw [bitAt, show allLanes = BitVec.allOnes 16 from rfl, BitVec.getLsbD_allOnes, decide_eq_true_eq]
  omega

section
variable {s : State} {row : Row} {pr : BitVec 2} {m : BitVec 16} {v x t : Value} {lsid : BitVec 5} {imm : BitVec 18} {n : Nat}

/-- The bytes of a scalar store that writes, as they wait for the commit. -/
def storeBytes (s : State) (v x : Value) (imm : BitVec 18) (n : Nat) : List (Nat × Byte) :=
  (List.range n).map fun i => (offsetOf (localAddress s v imm n) + i, bitsAt x.bits (8 * i) 8)
theorem store_writes {k : Sto} (hm : bitsAt m 0 2 = 3#2) (hn : 8 * n ≤ 64) (hk : k ≠ .w) (hv : LocalNow s v k 122 n n (localAddress s v imm n))
    (hx : Number s 1 x) :
    (ctxOf s row v x t m).store lsid imm n false 3 true = (ctxOf s row v x t m).silent
      (stores s lsid.toNat { done := true, since := s.cycle, sto := k, tag := none, bytes := storeBytes s v x imm n }) := by
  have hl : v.validTo 4 = true := (capOk_eq v).trans hv.whole
  have ha : localAt v.cap (wideField (blkOf s).words (indexOf s) 18 imm) n = localAddress s v imm n := by rw [wideField_eq, localAt_eq]
  have hb : (x.tag == .broken) = false := by simpa using hx.usable
  have h3 : ((3 : BitVec 16) == 0) = false ∧ ((3 : BitVec 16) != 3) = false := by decide
  unfold Ctx.store
  simp only [ctxOf_l, ctxOf_r, ctxOf_mask, ctxOf_blk, ctxOf_idx, scalarLanes hx.whole hm, hl, ha, hb, h3.1, h3.2, Bool.not_true, Bool.or_false,
    Bool.and_false, Bool.false_and, Bool.false_eq_true, if_false, if_true]
  rw [checkLocal_ok (isStore := true) hv fun _ => hk]
  simp only [Ctx.stored, laneBytes_all _ _ hn]
  rfl
theorem store_nothing (h : capOk v = false ∨ bitsAt (x.valid &&& m) 0 2 ≠ 3#2) :
    (ctxOf s row v x t m).store lsid imm n false 3 true = (ctxOf s row v x t m).silent (storesNothing s lsid) := by
  refine if_pos ?_
  rw [ctxOf_l, ctxOf_r, ctxOf_mask, capOk_eq]
  rcases h with h | h
  · rw [h]; rfl
  · have h' : (x.valid &&& m &&& 3 != 3) = true := bne_iff_ne.2 (mt (scalarMask_iff _).1 h)
    rw [h', Bool.true_and, Bool.or_true]

/-- A scalar store keeps its bytes for the commit. -/
theorem storesScalar_of {mk : BitVec 2 → BitVec 5 → BitVec 18 → Instr} (hg : (row == .cusGive) = false) (hl : row.isLoad = false)
    (he : ∀ pr lsid imm s, exec (mk pr lsid imm) s =
      s.fire (nForm row pr 2 0 0 0) (nullStore lsid.toNat) fun c => c.store lsid imm n false 3 true)
    (hn : 8 * n ≤ 64) : StoresScalar mk n :=
  fun s pr lsid imm m v x k h hr hm hk hv hx => by
    rw [he]
    exact (Fires.two h hr rfl rfl hg hv.given (.inl rfl) hx.given (.inl rfl) (fun _ => brokenWhole_none rfl rfl rfl) hl).silent
      (store_writes hm hn hk hv hx) rfl ((phase_updBlk _ _).trans h.admitted)
end

theorem exec_st8 (pr : BitVec 2) (lsid : BitVec 5) (imm : BitVec 18) (s : State) : exec (.st8 pr lsid imm) s =
    s.fire (nForm .st8 pr 2 0 0 0) (nullStore lsid.toNat) fun c => c.store lsid imm 1 false 3 true := rfl
theorem exec_st16 (pr : BitVec 2) (lsid : BitVec 5) (imm : BitVec 18) (s : State) : exec (.st16 pr lsid imm) s =
    s.fire (nForm .st16 pr 2 0 0 0) (nullStore lsid.toNat) fun c => c.store lsid imm 2 false 3 true := rfl
theorem exec_st32 (pr : BitVec 2) (lsid : BitVec 5) (imm : BitVec 18) (s : State) : exec (.st32 pr lsid imm) s =
    s.fire (nForm .st32 pr 2 0 0 0) (nullStore lsid.toNat) fun c => c.store lsid imm 4 false 3 true := rfl
theorem exec_st64 (pr : BitVec 2) (lsid : BitVec 5) (imm : BitVec 18) (s : State) : exec (.st64 pr lsid imm) s =
    s.fire (nForm .st64 pr 2 0 0 0) (nullStore lsid.toNat) fun c => c.store lsid imm 8 false 3 true := rfl
/-- Each scalar store is a firing of `Ctx.store`. -/
theorem scalarStores_fire : ∀ e ∈ scalarStores, ∃ row : Row, (row == .cusGive) = false ∧ row.isLoad = false ∧
    ∀ pr lsid imm s, exec (e.1 pr lsid imm) s =
      s.fire (nForm row pr 2 0 0 0) (nullStore lsid.toNat) fun c => c.store lsid imm e.2 false 3 true := by
  simp only [scalarStores, List.forall_mem_cons]
  exact ⟨⟨.st8, rfl, rfl, exec_st8⟩, ⟨.st16, rfl, rfl, exec_st16⟩, ⟨.st32, rfl, rfl, exec_st32⟩, ⟨.st64, rfl, rfl, exec_st64⟩, fun _ h => nomatch h⟩

end Sys2Proof.Claims

namespace Sys2Proof.Machine
open Sys2Proof.Claims

/-- Settles O17: each scalar load is a firing of `Ctx.loadScalar`, which reads, or finds a null address or a masked lane. -/
theorem scalarLoads : Obligations.ScalarLoads := by
  refine ⟨(loadsScalar_of exec_ldI8 rfl (by decide) :),
    (loadsScalar_of exec_ldN8 rfl (by decide) :),
    (loadsScalar_of exec_ldI16 rfl (by decide) :),
    (loadsScalar_of exec_ldN16 rfl (by decide) :),
    (loadsScalar_of exec_ldI32 rfl (by decide) :),
    (loadsScalar_of exec_ldN32 rfl (by decide) :),
    (loadsScalar_of exec_ld64 rfl (by decide) :), ?_⟩
  intro e he s pr lsid imm t0 m v h hr gv hs
  obtain ⟨row, signed, hg, hx⟩ := scalarLoads_fire e he
  have fires := Fires.immediate (t0 := t0) h hr gv hg (.inr hs.done)
  exact ⟨fun hv => (hx ..).trans (fires.value (loadScalar_null hv)), fun hv hm => (hx ..).trans (fires.value (loadScalar_masked hv hm))⟩

/-- Settles O19: each scalar store is a firing of `Ctx.store`, which keeps its bytes, or finds a null address or value. -/
theorem scalarStores : Obligations.ScalarStores := by
  refine ⟨storesScalar_of rfl rfl exec_st8 (by decide), storesScalar_of rfl rfl exec_st16 (by decide), storesScalar_of rfl rfl exec_st32 (by decide),
    storesScalar_of rfl rfl exec_st64 (by decide), ?_⟩
  intro e he s pr lsid imm m v x h hr gv gx hn
  obtain ⟨row, hg, hl, hx⟩ := scalarStores_fire e he
  rw [hx]
  exact (Fires.two h hr rfl rfl hg gv (.inl rfl) gx (.inl rfl) (fun _ => brokenWhole_none rfl rfl rfl) hl).silent (store_nothing hn) rfl
    ((phase_updBlk _ _).trans h.admitted)

end Sys2Proof.Machine
end

section
/-! The obligation O39: where the instructions of the synchronisation group fault when they fire (R43, R119, R212, R229; order of the faults:
log 29). -/

namespace Sys2Proof.Claims
open Sys2Proof.Machine

/-! ## Operands refused (R37, R43, R119) -/

section
variable {s : State} {row : Row} {m : BitVec 16} {v r t : Value}

theorem checkCap_kind {kind : Nat} {ps : List Nat} (ht : v.tag = .cap) (hk : capKind v.cap ≠ kind) :
    checkCap v kind ps = .error (trapCap tTag v.cap) := by simp [checkCap, ht, hk]
theorem checkCap_permission {kind p : Nat} (ht : v.tag = .cap) (hk : capKind v.cap = kind) (hp : capHas v.cap p = false) :
    checkCap v kind [p] = .error (trapCap tPerm v.cap) := by simp [checkCap, ht, hk, hp]
/-- The core of an object lies outside the lodging (R43). -/
theorem noCore_of {n : Nat} (h : s.router (lodgingOf s) n = none) : (ctxOf s row v r t m).noCore n = true := Option.isNone_iff_eq_none.2 h
theorem checkObject_outside {kind p : Nat} (ht : v.tag = .cap) (hk : capKind v.cap = kind) (hp : capHas v.cap p = true)
    (ho : s.router (lodgingOf s) (coreOf v.scalar) = none) :
    (ctxOf s row v r t m).checkObject v kind [p] = .error (trapLodging (coreOf v.scalar)) := by
  simp [Ctx.checkObject, ht, hk, hp, capAddr_eq, addrCore_eq, noCore_of ho]
/-- A misaligned place of the own S store (R211, R212). -/
theorem checkOwnS_misaligned {perm align n : Nat} (ht : v.tag = .cap) (hk : capKind v.cap = 5) (hp : capHas v.cap perm = true)
    (hc : coreOf v.scalar = logicalOf s) (ha : v.scalar.toNat % align ≠ 0) :
    (ctxOf s row v r t m).checkOwnS v perm align n = .error { code := tAlign, lo := v.scalar, hi := BitVec.ofNat 64 n } := by
  simp [Ctx.checkOwnS, ht, hk, hp, capAddr_eq, addrCore_eq, hc, ha]
/-- A BROKEN operand among those that must not be. -/
theorem noBroken_error {vs : List Value} (h : ∃ x ∈ vs, x.tag = .broken) : noBroken vs = .error (trap tBrokenUse) :=
  if_pos (List.any_eq_true.2 (h.imp fun _ h => ⟨h.1, beq_iff_eq.2 h.2⟩))
theorem noBroken_ok {vs : List Value} (h : ∀ x ∈ vs, x.tag ≠ .broken) : noBroken vs = .ok () :=
  if_neg fun c => (List.any_eq_true.1 c).elim fun x hx => h x hx.1 (beq_iff_eq.1 hx.2)

/-! ## The object of a WAIT (R229) -/

theorem waitObject_outside (ht : v.tag = .cap) (hk : capKind v.cap = 5 ∨ capKind v.cap = 6 ∨ capKind v.cap = 7)
    (ho : s.router (lodgingOf s) (coreOf v.scalar) = none) :
    (ctxOf s row v r t m).waitObject = .error (trapLodging (coreOf v.scalar)) := by
  have hw : (ctxOf s row v r t m).waitCore = some (coreOf v.scalar) := by
    unfold Ctx.waitCore
    rcases hk with hk | hk | hk <;> simp only [ctxOf_l, hk, capAddr_eq, addrCore_eq]
  unfold Ctx.waitObject
  simp [hw, ht, noCore_of ho]
theorem waitObject_kind (ht : v.tag = .cap) (hk : capKind v.cap ≠ 5 ∧ capKind v.cap ≠ 6 ∧ capKind v.cap ≠ 7 ∧ capKind v.cap ≠ 8) :
    (ctxOf s row v r t m).waitObject = .error (trapCap tTag v.cap) := by
  obtain ⟨h5, h6, h7, h8⟩ := hk
  simp [Ctx.waitObject, Ctx.waitCore, ht]
end

section
variable {s : State} {pr : BitVec 2} {m : BitVec 16} {v x : Value} (h : MayFire s) (hr : Runs s pr m) (gv : Given s 0 v) (hv : capOk v = true)
include h hr gv hv

theorem brk_faults {e : Trap} (ht : v.tag = .cap) (hx : Number s 1 x) (he : checkCap v 8 [pSignal] = .error e) (hc : e.code ≠ tAway) :
    exec (.brk pr) s = .next (traps s e) := by
  show execBrk pr s = _
  refine (Fires.two h hr rfl rfl rfl gv (.inr ((capOk_eq v).trans hv)) hx.given (.inr ((scalarOk_eq x).trans hx.whole)) ?_ rfl).error ?_ hc
  · simp [Form.brokenWhole, nForm, ht, hx.usable]
  · simp [noBroken_ok, ht, hx.usable, Ctx.checkClaim, he, bind, Except.bind]
theorem ctrDec_faults {e : Trap} (ht : v.tag = .cap) (hx : Number s 1 x) (hc : e.code ≠ tAway)
    (he : ∀ r t, (ctxOf s .ctrDec v r t m).checkObject v 7 [pSignal] = .error e) : exec (.ctrDec pr) s = .next (traps s e) := by
  show execCtrDec pr s = _
  refine (Fires.two h hr rfl rfl rfl gv (.inr ((capOk_eq v).trans hv)) hx.given (.inr ((scalarOk_eq x).trans hx.whole)) ?_ rfl).error ?_ hc
  · simp [Form.brokenWhole, nForm, ht, hx.usable]
  · exact congrArg (· >>= _) (he _ _)
theorem rarm_faults {e : Trap} (ht : v.tag = .cap) (hx : Number s 1 x) (hc : e.code ≠ tAway)
    (he : ∀ r t, (ctxOf s .rarm v r t m).checkOwnS v pStore 16 16 = .error e) : exec (.rarm pr) s = .next (traps s e) := by
  show execRarm pr s = _
  refine (Fires.two h hr rfl rfl rfl gv (.inr ((capOk_eq v).trans hv)) hx.given (.inr ((scalarOk_eq x).trans hx.whole)) ?_ rfl).error ?_ hc
  · simp [Form.brokenWhole, nForm, ht, hx.usable]
  · exact congrArg (· >>= _) (he _ _)
theorem invoke_broken {w : Value} {t1 t0 : BitVec 9} (gx : Given s 1 x) (hx : x.tag = .broken) (hw : Number s 2 w) (ht : v.tag = .cap) :
    exec (.invoke pr t1 t0) s = .next (traps s (trap tBrokenUse)) := by
  show execInvoke pr t1 t0 s = _
  refine (Fires.three h hr rfl rfl gv (.inr ((capOk_eq v).trans hv)) gx (.inl rfl) hw.given (.inr ((scalarOk_eq w).trans hw.whole)) ?_ rfl).error ?_
    (by decide)
  · simp [Form.brokenWhole, wForm, ht, hw.usable]
  · have hb : noBroken [v, x, w] = .error (trap tBrokenUse) := noBroken_error ⟨x, by simp, hx⟩
    have hi : ∀ c : Ctx, c.l = v → c.r = x → c.t = w → c.checkInvoke 12 pInvoke = .error (trap tBrokenUse) := by
      rintro c rfl rfl rfl
      unfold Ctx.checkInvoke
      rw [hb]; rfl
    exact congrArg (· >>= _) (hi _ rfl rfl rfl)
/-- WAIT and WAIT.st fault where their object is refused. -/
theorem wait_faults {e : Trap} (reg : BitVec 6) (ht : v.tag = .cap) (hc : e.code ≠ tAway)
    (he : ∀ row r t, (ctxOf s row v r t m).waitObject = .error e) :
    exec (.wait pr reg) s = .next (traps s e) ∧ exec (.waitSt pr reg) s = .next (traps s e) := by
  constructor
  · show execWait pr reg s = _
    refine (Fires.one h hr rfl rfl rfl gv (.inr ((capOk_eq v).trans hv)) ?_ (.inl rfl)).error (congrArg (· >>= _) (he _ _ _)) hc
    simp [Form.brokenWhole, nForm, ht]
  · show execWaitSt pr reg s = _
    refine (Fires.one h hr rfl rfl rfl gv (.inr ((capOk_eq v).trans hv)) ?_ (.inl rfl)).error (congrArg (· >>= _) (he _ _ _)) hc
    simp [Form.brokenWhole, nForm, ht]

end

/-- Settles O39: each clause is a firing whose first failing check is the one that it names. -/
theorem synchronisationFaults : Obligations.SynchronisationFaults := by
  intro s pr m v h hr gv hv
  refine ⟨fun ht hk x hx => ?_, fun ht hk hp x hx => ?_, fun ht hk hp ho x hx => ?_, fun ht hk hp hc ha x hx => ?_,
    fun x w t1 t0 gx hx hw ht => ?_, fun reg ht hk ho => ?_, fun reg ht hk => ?_⟩
  · exact brk_faults h hr gv hv ht hx (checkCap_kind ht hk) (show tTag ≠ tAway by decide)
  · exact brk_faults h hr gv hv ht hx (checkCap_permission ht hk hp) (show tPerm ≠ tAway by decide)
  · exact ctrDec_faults h hr gv hv ht hx (show tLodging ≠ tAway by decide) fun _ _ => checkObject_outside ht hk hp ho
  · exact rarm_faults h hr gv hv ht hx (show tAlign ≠ tAway by decide) fun _ _ => checkOwnS_misaligned ht hk hp hc ha
  · exact invoke_broken h hr gv hv gx hx hw ht
  · exact wait_faults h hr gv hv reg ht (show tLodging ≠ tAway by decide) fun _ _ _ => waitObject_outside ht hk ho
  · exact wait_faults h hr gv hv reg ht (show tTag ≠ tAway by decide) fun _ _ _ => waitObject_kind ht hk

end Sys2Proof.Claims
end

section
/-! The obligation O46: the life of a block on a core (R35, R49, R51, R65 to R68, R129, R132, R297, R326, R329). -/

namespace Sys2Proof.Claims
open Sys2Proof.Machine

/-! ## Fetch and decoding (R49, R51) -/

section
variable {s : State} {r k : Nat} (hr : s.runs r k = true) (hn : (s.slot r k).native = false) (hp : (s.slot r k).blk.phase = 0)
include hr hn hp

theorem blockFetch_wait {later : State} (hf : s.fetch r k 16 = .wait later) : exec (.blockFetch r k) s = .next later := by
  show execBlockFetch r k s = _
  simp [execBlockFetch, hr, hn, hp, hf]

theorem blockFetch_trap {t : Trap} (hf : s.fetch r k 16 = .trap t) : exec (.blockFetch r k) s = .next (s.fetchTrap r k t noIndex) := by
  show execBlockFetch r k s = _
  simp [execBlockFetch, hr, hn, hp, hf]

variable {bs : List Byte} (hf : s.fetch r k 16 = .ok bs)
include hf

theorem blockFetch_noHeader (hh : header bs = none) : exec (.blockFetch r k) s = .next (s.fetchTrap r k (trap tBlockForm) noIndex) := by
  show execBlockFetch r k s = _
  simp [execBlockFetch, hr, hn, hp, hf, hh]

/-- After the header, the fetch of the whole block decides alike. -/
theorem blockFetch_header {h : Header} (hh : header bs = some h) :
    (∀ all, s.fetch r k h.bytes = .ok all → exec (.blockFetch r k) s = .next (s.decodeBytes r k h all)) ∧
    (∀ later, s.fetch r k h.bytes = .wait later → exec (.blockFetch r k) s = .next later) ∧
    (∀ t, s.fetch r k h.bytes = .trap t → exec (.blockFetch r k) s = .next (s.fetchTrap r k t noIndex)) := by
  change (∀ _, _ → execBlockFetch r k s = _) ∧ (∀ _, _ → execBlockFetch r k s = _) ∧ ∀ _, _ → execBlockFetch r k s = _
  refine ⟨fun all ha => ?_, fun later ha => ?_, fun t ha => ?_⟩ <;> simp [execBlockFetch, hr, hn, hp, hf, hh, ha]

end

/-! ## Admission (R68) -/

theorem blockAdmission_admits {s : State} {r k : Nat} (hr : s.runs r k = true) (hp : (s.slot r k).blk.phase = 1)
    (hm : s.mayAdmit (s.slot r k) = true) (hd : (s.slot r k).deferred = none) (ho : (s.slot r k).poisoned = false)
    (hf : (s.slot r k).admitFault = none) (hk : (s.slot r k).parked = false) (he : (s.slot r k).emptyRead = none)
    (hl : ∀ g ∈ (s.slot r k).blk.livesL, (mapGet (s.slot r k).regs g).poison = 0) :
    exec (.blockAdmission r k) s = .next (s.updSlot r k fun y => y.admitted s.cycle s.service (s.switchWord r)) := by
  show execBlockAdmission r k s = _
  have clean : ¬ ((s.slot r k).blk.livesL.any fun g => (mapGet (s.slot r k).regs g).poison != 0) = true := by
    simpa using hl
  simp only [execBlockAdmission, hr, hp, hm, hd, ho, hf, hk, he, if_neg clean, Bool.not_true, Bool.or_false, bne_self_eq_false,
    Bool.false_eq_true, if_false]

/-! ## The registers that a block writes (R66 step 3, R122) -/

/-- What a completed register write leaves in a register, of a block that writes values and null tokens. -/
def written (old : Reg) : RegDone → Reg
  | .value v => writeReg old v
  | _ => old

/-- One step of the fold of R66 step 3 over such writes: each new value is made from the register as it was before the block. -/
def writeStep (regs m : Map Reg) (e : Nat × RegDone) : Map Reg :=
  match e.2 with
  | .value v => mapSet m e.1 (writeReg (mapGet regs e.1) v)
  | _ => m

theorem mapGet_writeStep_other {regs m : Map Reg} {e : Nat × RegDone} {g : Nat} (h : g ≠ e.1) :
    mapGet (writeStep regs m e) g = mapGet m g := by
  obtain ⟨j, d⟩ := e
  cases d with
  | value v => exact mapGet_mapSet_other _ _ h
  | _ => rfl

theorem mapGet_writeStep_same {regs m : Map Reg} {g : Nat} (d : RegDone) (h : mapGet m g = mapGet regs g) :
    mapGet (writeStep regs m (g, d)) g = written (mapGet regs g) d := by
  cases d with
  | value v => exact mapGet_mapSet_same ..
  | _ => exact h

theorem foldl_writeStep_other {regs : Map Reg} {g : Nat} :
    ∀ (l : Map RegDone) (m : Map Reg), g ∉ l.map Prod.fst → mapGet (l.foldl (writeStep regs) m) g = mapGet m g
  | [], _, _ => rfl
  | e :: l, m, h => by
    obtain ⟨he, hl⟩ := not_or.mp (mt List.mem_cons.mpr h)
    exact (foldl_writeStep_other l _ hl).trans (mapGet_writeStep_other he)

/-- The keys rise, so that no register is written twice. -/
theorem foldl_writeStep {regs : Map Reg} {g : Nat} :
    ∀ (l : Map RegDone) (m : Map Reg), (l.map Prod.fst).Pairwise (· < ·) → mapGet m g = mapGet regs g →
      mapGet (l.foldl (writeStep regs) m) g = written (mapGet regs g) (mapGet l g)
  | [], _, _, hm => hm
  | (j, d) :: l, m, keys, hm => by
    obtain ⟨first, rest⟩ := List.pairwise_cons.mp (List.map_cons ▸ keys)
    rw [List.foldl_cons, mapGet]
    by_cases h : j = g
    · subst h
      rw [if_pos rfl, foldl_writeStep_other l _ fun hj => (first j hj).false, mapGet_writeStep_same d hm]
    · rw [if_neg h]
      exact foldl_writeStep l _ rest ((mapGet_writeStep_other (Ne.symm h)).trans hm)

theorem regsAfter_values (x : Slot) (p : Plan) (next : Nat) (h : ∀ e ∈ x.blk.regDone, e.2 = .null ∨ ∃ v, e.2 = .value v) :
    regsAfter x p next = x.blk.regDone.foldl (writeStep x.regs) x.regs := by
  refine List.foldl_ext _ _ _ fun m e he => ?_
  obtain ⟨j, d⟩ := e
  obtain rfl | ⟨v, rfl⟩ : d = .null ∨ ∃ v, d = .value v := h _ he
  · rfl
  · rfl

/-! ## The commit of a block that only writes registers and jumps (R66) -/

/-- The plan of a commit that has nothing to do: the held set stays. -/
def idlePlan (o : ObSet) : Plan := { (default : Plan) with obs := o }

section
variable {s : State} {r k : Nat} {a : Word}

theorem PlainBlock.launchAsks (h : PlainBlock s r k a) : s.launchAsks r k = [] := by rw [State.launchAsks, h.acts]; rfl

theorem PlainBlock.checkIdx (h : PlainBlock s r k a) (fin : Nat) (p : Plan) (i : Nat) : s.checkIdx r k fin p i = .ok p := by
  obtain ⟨j, hj⟩ := h.exit
  have noAct : mapGet (s.slot r k).blk.acts i = none := by rw [h.acts]; rfl
  obtain found | found : ((s.slot r k).blk.exits.find? fun e => e.1 == i) = none ∨
      ((s.slot r k).blk.exits.find? fun e => e.1 == i) = some (j, .jump a) := by
    rw [hj, List.find?_singleton]
    exact (ite_eq_or_eq ..).symm
  · simp only [State.checkIdx, noAct, found]
  · simp only [State.checkIdx, noAct, found, State.checkExit]

theorem PlainBlock.checkFrom (h : PlainBlock s r k a) (fin : Nat) (p : Plan) : ∀ is, s.checkFrom r k fin p is = .ok p
  | [] => rfl
  | i :: is => by rw [State.checkFrom, h.checkIdx]; exact h.checkFrom fin p is

theorem PlainBlock.commitChecks (h : PlainBlock s r k a) : s.commitChecks r k = .ok (idlePlan (s.slot r k).obs) := by
  obtain ⟨j, hj⟩ := h.exit
  simp only [State.commitChecks, h.checkFrom, State.exitLeaves, hj, idlePlan]

theorem PlainBlock.commit (h : PlainBlock s r k a) : exec (.blockCommit r k) s = .next (s.applyCommit r k (idlePlan (s.slot r k).obs)) := by
  show execBlockCommit r k s = _
  have repaired : ∀ n, s.repairChecked r k n = s := fun n => by rw [State.repairChecked, h.acts]; rfl
  have room : ∀ p : Plan, p.pushes = [] → s.pushRoom r p = true := fun p hp => by rw [State.pushRoom, hp]; rfl
  simp only [execBlockCommit, h.runs, h.complete, h.notWaiting, h.launchAsks, State.commit, h.single.1, h.commitChecks, repaired,
    room (idlePlan _) rfl, Bool.not_true, Bool.or_false, Bool.false_and, Bool.false_eq_true, if_false, if_true]

/-! What each step leaves in the slot. -/

theorem slot_step3_idle (o : ObSet) (h : (s.slot r k).twin = none) :
    ((s.step3 r k (idlePlan o)).slot r k).regs = regsAfter (s.slot r k) (idlePlan o) s.nextReq ∧
    ((s.step3 r k (idlePlan o)).slot r k).obs = o ∧
    ((s.step3 r k (idlePlan o)).slot r k).blk = (s.slot r k).blk ∧
    ((s.step3 r k (idlePlan o)).slot r k).twin = none := by
  simp only [State.step3, h, show (idlePlan o).sysw = [] from rfl, List.foldl_nil, slot_updSlot_same, updCore_nextReq]
  rw [slot_updCore s r _ rfl]
  exact ⟨trivial, rfl, rfl, h⟩

theorem slot_step4_idle {t : State} (o : ObSet) (h : (t.slot r k).twin = none) (hs : (t.slot r k).blk.lsids' = []) :
    (t.step4 r k (idlePlan o)).slot r k = t.slot r k := by
  have stores : ∀ shift, (t.updCore r fun c => c.commitStores [] shift).slot r k = t.slot r k := fun _ => slot_updCore t r _ rfl r k
  simp only [State.step4, State.twinStores, h, hs]
  exact stores _

theorem step5_idle (t : State) (o : ObSet) : t.step5 r k (idlePlan o) = t := rfl

theorem step6_idle {t : State} (o : ObSet) (h : (t.slot r k).blk.pops = []) : t.step6 r k (idlePlan o) = t := by
  rw [State.step6, h]; rfl

theorem slot_step7_jump {t : State} {old : Slot} {i : Nat} (o : ObSet) (n : Nat) (h : old.blk.exits = [(i, .jump a)]) :
    (t.step7 r k (idlePlan o) old n).slot r k = { t.slot r k with pc := a, blk := default } := by
  simp only [State.step7, h]
  exact slot_updSlot_same ..

/-- Step 7, and what the commit of a failed core keeps of its suspect window before it (R463), on a slot without a twin. -/
theorem slot_transfer {t : State} {old : Slot} {i : Nat} (o : ObSet) (n : Nat) (ht : (t.slot r k).twin = none)
    (h : old.blk.exits = [(i, .jump a)]) :
    (((t.copies r k).foldl (fun s q => s.updCore q fun c => if c.off then { c with suspectTo := s.cycle } else c) t).step7 r k
      (idlePlan o) old n).slot r k = { t.slot r k with pc := a, blk := default } := by
  rw [State.copies, ht, List.foldl_cons, List.foldl_nil, slot_step7_jump o n h, slot_updCore t r _ (by split <;> rfl)]

/-- Steps 3 to 7 on a slot, for such a block. -/
theorem PlainBlock.slot_applyCommit (h : PlainBlock s r k a) :
    (s.applyCommit r k (idlePlan (s.slot r k).obs)).slot r k =
      { (s.step3 r k (idlePlan (s.slot r k).obs)).slot r k with pc := a, blk := default } := by
  obtain ⟨i, hi⟩ := h.exit
  obtain ⟨_, _, blk3, twin3⟩ := slot_step3_idle (s.slot r k).obs h.single.2
  have slot4 := slot_step4_idle (s.slot r k).obs twin3 (blk3 ▸ h.stores)
  rw [State.applyCommit, step5_idle]
  generalize (s.step3 r k (idlePlan (s.slot r k).obs)).step4 r k (idlePlan (s.slot r k).obs) = u at slot4 ⊢
  replace slot4 : ({ u with nextReq := u.nextReq + 1 } : State).slot r k = _ := slot4
  generalize ({ u with nextReq := u.nextReq + 1 } : State) = v at slot4 ⊢
  rw [← slot4] at blk3 twin3 ⊢
  rw [step6_idle _ (blk3 ▸ h.pops)]
  exact slot_transfer _ _ twin3 hi

/-- The commit: the activity goes on at the target, and each register takes the value that its write gave it, or stays. -/
theorem PlainBlock.commits (h : PlainBlock s r k a) : ∃ t, exec (.blockCommit r k) s = .next t ∧
    (t.slot r k).pc = a ∧ (t.slot r k).blk = default ∧ (t.slot r k).obs = (s.slot r k).obs ∧
    ∀ g, mapGet (t.slot r k).regs g = written (mapGet (s.slot r k).regs g) (mapGet (s.slot r k).blk.regDone g) := by
  obtain ⟨regs3, obs3, -, -⟩ := slot_step3_idle (s.slot r k).obs h.single.2
  refine ⟨_, h.commit, ?_⟩
  rw [h.slot_applyCommit]
  refine ⟨rfl, rfl, obs3, fun g => ?_⟩
  show mapGet ((s.step3 r k _).slot r k).regs g = _
  rw [regs3, regsAfter_values _ _ _ h.values]
  exact foldl_writeStep _ _ h.keys rfl

end

/-! ## Ages, limits and arrivals (R35, R67, R129, R132, R297, R326, R329) -/

section
variable {s : State} {r k : Nat}

theorem commitWait_commits (hr : s.runs r k = true) (hc : s.complete r k = true) (hw : (s.slot r k).blk.waiting = true) :
    exec (.commitWait r k) s = .next ((s.updBlk r k fun b => { b with waiting := false }).commit r k) := by
  show execCommitWait r k s = _
  simp [execCommitWait, hr, hc, hw]

theorem blockStuck_traps (hr : s.runs r k = true) (hp : (s.slot r k).blk.phase = 2) (ha : (s.slot r k).blk.awayAt = 0)
    (hl : (s.slot r k).blk.admitted.toNat + (s.slot r k).blk.away + 2 ^ 20 ≤ s.cycle.toNat) (hc : s.complete r k = false) :
    exec (.blockStuck r k) s = .next (s.takeTrap r k (trap tBlockStuck) noIndex 0) := by
  show execBlockStuck r k s = _
  have limit : decide ((s.slot r k).blk.admitted.toNat + (s.slot r k).blk.away + stuckAfter ≤ s.cycle.toNat) = true := decide_eq_true hl
  simp only [execBlockStuck, hr, hp, ha, hc, limit, beq_self_eq_true, Bool.true_and, Bool.not_false, Bool.true_or, if_true]

theorem yieldTimeout_ends (hy : (s.slot r k).yielded = true) (hl : (s.slot r k).yieldAt.toNat + 64 ≤ s.cycle.toNat) :
    exec (.yieldTimeout r k) s = .next (s.updSlot r k fun y => { y with yielded := false, yieldFor := [] }) := by
  show execYieldTimeout r k s = _
  exact if_pos (by simp [hy, hl])

theorem sleepExpiry_wakes (hs : (s.slot r k).sleep ≠ 0) (hl : (s.slot r k).sleep.toNat ≤ s.cycle.toNat) :
    exec (.sleepExpiry r k) s = .next (s.updSlot r k fun y => { y with sleep := 0 }) := by
  show execSleepExpiry r k s = _
  exact if_pos (by simpa [hl] using hs)

theorem instructionAged_ages {i : Nat} (hp : (s.slot r k).blk.phase = 2) (hf : s.canFire r (s.slot r k).blk i = true)
    (hl : s.readySince r (s.slot r k).blk i + 512 ≤ s.cycle.toNat) :
    exec (.instructionAged r k i) s = .next (s.updBlk r k fun b => { b with aged := mapSet b.aged i true }) := by
  show execInstructionAged r k i s = _
  exact if_pos (by simp [hp, hf, hl])

/-- The first of `n` candidates that holds, and no candidate before it does. -/
theorem find?_map_range {f : Nat → Nat} {p : Nat → Bool} {n i : Nat} (hi : i < n) (hp : p (f i) = true) (first : ∀ j < i, p (f j) = false) :
    ((List.range n).map f).find? p = some (f i) := by
  rw [List.find?_map, (List.find?_range_eq_some (p := p ∘ f)).mpr ⟨hp, List.mem_range.mpr hi, fun j hj => by simp [first j hj]⟩]
  rfl

theorem favouredSlotMove_moves {cls i : Nat} (hl : (mapGet (s.core r).favSince cls).toNat + 64 ≤ s.cycle.toNat) (hi : i < 8)
    (hr : s.readyIn r ((mapGet (s.core r).favoured cls + 1 + i) % 8) cls = true)
    (first : ∀ j < i, s.readyIn r ((mapGet (s.core r).favoured cls + 1 + j) % 8) cls = false) :
    exec (.favouredSlotMove r cls) s = .next (s.updCore r fun c => { c with
      favoured := mapSet c.favoured cls ((mapGet (s.core r).favoured cls + 1 + i) % 8), favSince := mapSet c.favSince cls s.cycle }) := by
  show execFavouredSlotMove r cls s = _
  have next := find?_map_range (f := fun i => (mapGet (s.core r).favoured cls + 1 + i) % 8) (p := fun k => s.readyIn r k cls) hi hr first
  simp only [execFavouredSlotMove, if_pos hl, next, Option.getD_some]

theorem portWordArrival_enters {port : Nat} {w : V512} {ws : List V512} (hc : (mapGet (s.core r).ports port).coming = w :: ws)
    (hl : (mapGet (s.core r).ports port).words.length < 8) :
    exec (.portWordArrival r port) s = .next (s.updCore r fun c =>
      { c with ports := mapSet c.ports port { words := (mapGet (s.core r).ports port).words ++ [(w, s.cycle)], coming := ws } }) := by
  show execPortWordArrival r port s = _
  simp only [execPortWordArrival, hc, if_pos hl]

theorem ringStart_begins {i : Nat} {st : Start} {t : State} (hg : (s.core r).gated = false) (ho : (s.core r).off = false)
    (hn : (s.core r).resume = []) (hh : (s.core r).ringHead = some i) (hs : (s.core r).ring[i]? = some st)
    (ht : (s.updCore r fun c => c.takeRing i).begin r (s.onNewImage r st) = some t) : exec (.ringStart r) s = .next t := by
  show execRingStart r s = _
  simp [execRingStart, hg, ho, hn, hh, hs, ht]

theorem trapRecordWrite_writes {t : State} (hk : k < 8) (hu : (s.slot r k).custody.unwritten = true) (hs : (s.slot r k).custody.state ≠ 0)
    (ht : s.writeTrap (s.slot r k).custody.record.lodging (s.slot r k).custody.record.bits (s.slot r k).custody.record.core = some t) :
    exec (.trapRecordWrite r k) s = .next (t.updSlot r k fun x => { x with custody := { x.custody with unwritten := false } }) := by
  show execTrapRecordWrite r k s = _
  simp [execTrapRecordWrite, hk, hu, hs, ht]

end
/-- Settles O46, a lemma for each event of a block's life; the commit goes through the six steps of R66 with nothing to do but the writes
of the registers and the jump. -/
theorem blockEvents : Obligations.BlockEvents := by
  unfold Obligations.BlockEvents
  intro s r k
  refine ⟨fun bs hr hn hp hf => ⟨fun h hh => blockFetch_header hr hn hp hf hh, blockFetch_noHeader hr hn hp hf⟩,
    fun hr hn hp => ⟨fun later => blockFetch_wait hr hn hp, fun t => blockFetch_trap hr hn hp⟩,
    blockAdmission_admits, fun a h => h.commits, commitWait_commits, blockStuck_traps, yieldTimeout_ends, sleepExpiry_wakes,
    fun i => instructionAged_ages, fun cls i => favouredSlotMove_moves, fun port w ws => portWordArrival_enters,
    fun i st t => ringStart_begins, fun t => trapRecordWrite_writes⟩

end Sys2Proof.Claims
end

section
/-! The obligation O56: decoding the word of a well-formed instruction gives the instruction back (R46, R52, R97 to R116). -/

namespace Sys2Proof.Laws.RoundTrip

/-- The round trip of every constructor, by its own lemma of Sys2Proof/Laws/RoundTrip.lean. -/
theorem statement (i : Instr) : Statement i :=
  match i with
  | .blockFetch _ _ => blockFetch _ _ | .blockAdmission _ _ => blockAdmission _ _ | .blockCommit _ _ => blockCommit _ _
  | .commitWait _ _ => commitWait _ _ | .blockStuck _ _ => blockStuck _ _ | .yieldTimeout _ _ => yieldTimeout _ _
  | .sleepExpiry _ _ => sleepExpiry _ _ | .instructionAged _ _ _ => instructionAged _ _ _ | .favouredSlotMove _ _ => favouredSlotMove _ _
  | .portWordArrival _ _ => portWordArrival _ _ | .outboundDepart _ => outboundDepart _ | .homePerform _ => homePerform _
  | .responseArrival _ => responseArrival _ | .remoteAnswer _ _ _ => remoteAnswer _ _ _ | .engineUnits _ _ => engineUnits _ _
  | .engineEnd _ _ => engineEnd _ _ | .engineChunkStop _ _ => engineChunkStop _ _ | .leaveGrant _ => leaveGrant _
  | .matrixCommandAccept _ => matrixCommandAccept _ | .blockStep _ => blockStep _ | .mzeroComplete _ => mzeroComplete _
  | .engineStarved _ => engineStarved _ | .feedFblockEnter _ _ => feedFblockEnter _ _ | .counterDischarge _ => counterDischarge _
  | .handlerRetry _ => handlerRetry _ | .bindArrival _ => bindArrival _ | .invocationArrival _ => invocationArrival _
  | .claimFulfilment _ => claimFulfilment _ | .claimBreak _ => claimBreak _ | .queueMessageArrival _ => queueMessageArrival _
  | .sendwResend _ => sendwResend _ | .claimWaiterPoll _ => claimWaiterPoll _ | .objectWaiterPoll _ => objectWaiterPoll _
  | .deskDecision => deskDecision | .launchAged _ _ => launchAged _ _ | .startArrival _ => startArrival _ | .arrivalResend _ => arrivalResend _
  | .ringStart _ => ringStart _ | .stationRequest _ => stationRequest _ | .walkComplete _ => walkComplete _
  | .faultMessageSend _ _ => faultMessageSend _ _ | .atsTranslationCompletion _ _ _ _ _ => atsTranslationCompletion _ _ _ _ _
  | .pageRequestSend _ _ _ => pageRequestSend _ _ _ | .priResponse _ _ _ => priResponse _ _ _
  | .atsInvalidationRequest _ _ _ _ => atsInvalidationRequest _ _ _ _ | .stationInvalidationAnswer _ _ => stationInvalidationAnswer _ _
  | .atomicopCompletion _ _ => atomicopCompletion _ _ | .completionTimeout _ => completionTimeout _ | .inletLaunch _ _ _ => inletLaunch _ _ _
  | .inletWindow _ _ _ => inletWindow _ _ _ | .inletPost _ _ _ => inletPost _ _ _ | .inletCredit _ _ _ => inletCredit _ _ _
  | .inletAgent _ _ _ => inletAgent _ _ _ | .inletCall _ _ _ => inletCall _ _ _ | .inletUnknownKind _ _ _ _ => inletUnknownKind _ _ _ _
  | .inletRead _ => inletRead _ | .replyEntryWrite _ _ => replyEntryWrite _ _ | .flitReceive _ => flitReceive _ | .linkFailure _ => linkFailure _
  | .collectiveEntryPass _ _ => collectiveEntryPass _ _ | .drainReduction _ => drainReduction _ | .requestHeld _ => requestHeld _
  | .imageSwap _ _ => imageSwap _ _ | .lotReadback _ _ _ => lotReadback _ _ _ | .flushMarker _ _ _ => flushMarker _ _ _
  | .lodgingWatchdog _ => lodgingWatchdog _ | .deviceWatchdog _ => deviceWatchdog _ | .lodgeEndComplete _ => lodgeEndComplete _
  | .trapRecordWrite _ _ => trapRecordWrite _ _ | .scrubVisit _ _ _ => scrubVisit _ _ _ | .unitFailure _ _ => unitFailure _ _
  | .statSumRound _ _ _ => statSumRound _ _ _ | .firmwareSwitch _ => firmwareSwitch _ | .firmwareHandover _ _ => firmwareHandover _ _
  | .reset => reset | .spdmRequest _ => spdmRequest _ | .sessionBindRequest _ _ _ _ => sessionBindRequest _ _ _ _
  | .inletWriteDiscarded _ => inletWriteDiscarded _ | .testPatternEnd _ _ => testPatternEnd _ _ | .migrationResume _ _ => migrationResume _ _
  | .leaveWaitCount _ => leaveWaitCount _ | .extWide _ => extWide _ | .extHint _ _ => extHint _ _ | .extModifier _ _ _ => extModifier _ _ _
  | .read _ _ _ _ => read _ _ _ _ | .port _ _ _ _ => port _ _ _ _ | .write _ _ => write _ _ | .wport _ _ => wport _ _ | .null _ _ _ => null _ _ _
  | .mov _ _ _ => mov _ _ _ | .bro _ _ => bro _ _ | .call _ _ _ => call _ _ _ | .brc _ => brc _ | .ret _ => ret _ | .callc _ _ => callc _ _
  | .exit _ => exit _ | .yield _ _ => yield _ _ | .handoff _ => handoff _ | .sleep _ => sleep _ | .add _ _ _ _ => add _ _ _ _
  | .sub _ _ _ _ => sub _ _ _ _ | .and _ _ _ _ => and _ _ _ _ | .or _ _ _ _ => or _ _ _ _ | .xor _ _ _ _ => xor _ _ _ _
  | .andn _ _ _ _ => andn _ _ _ _ | .shl _ _ _ _ => shl _ _ _ _ | .shr _ _ _ _ => shr _ _ _ _ | .sra _ _ _ _ => sra _ _ _ _
  | .rol _ _ _ _ => rol _ _ _ _ | .min _ _ _ _ => min _ _ _ _ | .max _ _ _ _ => max _ _ _ _ | .minn _ _ _ _ => minn _ _ _ _
  | .maxn _ _ _ _ => maxn _ _ _ _ | .sel _ _ _ _ => sel _ _ _ _ | .mul _ _ _ _ => mul _ _ _ _ | .mulh _ _ _ _ => mulh _ _ _ _
  | .mulhn _ _ _ _ => mulhn _ _ _ _ | .div _ _ _ _ => div _ _ _ _ | .divn _ _ _ _ => divn _ _ _ _ | .rem _ _ _ _ => rem _ _ _ _
  | .remn _ _ _ _ => remn _ _ _ _ | .clz _ _ _ => clz _ _ _ | .ctz _ _ _ => ctz _ _ _ | .pop _ _ _ => pop _ _ _ | .sext8 _ _ _ => sext8 _ _ _
  | .sext16 _ _ _ => sext16 _ _ _ | .sext32 _ _ _ => sext32 _ _ _ | .zext8 _ _ _ => zext8 _ _ _ | .zext16 _ _ _ => zext16 _ _ _
  | .zext32 _ _ _ => zext32 _ _ _ | .brev _ _ _ => brev _ _ _ | .bswap _ _ _ => bswap _ _ _ | .teq _ _ _ _ => teq _ _ _ _
  | .tne _ _ _ _ => tne _ _ _ _ | .tlt _ _ _ _ => tlt _ _ _ _ | .tle _ _ _ _ => tle _ _ _ _ | .tltn _ _ _ _ => tltn _ _ _ _
  | .tlen _ _ _ _ => tlen _ _ _ _ | .tbit _ _ _ => tbit _ _ _ | .pand _ _ _ => pand _ _ _ | .por _ _ _ => por _ _ _ | .pxor _ _ _ => pxor _ _ _
  | .pnot _ _ _ => pnot _ _ _ | .pany _ _ _ => pany _ _ _ | .pall _ _ _ => pall _ _ _ | .pcnt _ _ _ => pcnt _ _ _ | .pfirst _ _ _ => pfirst _ _ _
  | .addi _ _ _ => addi _ _ _ | .addiw _ _ _ => addiw _ _ _ | .andi _ _ _ => andi _ _ _ | .ori _ _ _ => ori _ _ _ | .xori _ _ _ => xori _ _ _
  | .shli _ _ _ => shli _ _ _ | .shri _ _ _ => shri _ _ _ | .srai _ _ _ => srai _ _ _ | .muli _ _ _ => muli _ _ _ | .teqi _ _ _ => teqi _ _ _
  | .tnei _ _ _ => tnei _ _ _ | .tlti _ _ _ => tlti _ _ _ | .tlei _ _ _ => tlei _ _ _ | .tltni _ _ _ => tltni _ _ _ | .movi _ _ _ => movi _ _ _
  | .movif _ _ _ => movif _ _ _ | .cadd _ _ _ => cadd _ _ _ | .cseta _ _ _ => cseta _ _ _ | .csetb _ _ _ => csetb _ _ _
  | .csetbx _ _ _ => csetbx _ _ _ | .cperm _ _ _ => cperm _ _ _ | .cseal _ _ _ => cseal _ _ _ | .cunseal _ _ _ => cunseal _ _ _
  | .cgeta _ _ _ => cgeta _ _ _ | .cgetb _ _ _ => cgetb _ _ _ | .cgetl _ _ _ => cgetl _ _ _ | .cgetp _ _ _ => cgetp _ _ _
  | .cgetk _ _ _ => cgetk _ _ _ | .ctagt _ _ _ => ctagt _ _ _ | .csub _ _ _ => csub _ _ _ | .ceq _ _ _ => ceq _ _ _ | .cclr _ _ _ => cclr _ _ _
  | .caddi _ _ _ => caddi _ _ _ | .ldI8 _ _ _ _ => ldI8 _ _ _ _ | .ldN8 _ _ _ _ => ldN8 _ _ _ _ | .ldI16 _ _ _ _ => ldI16 _ _ _ _
  | .ldN16 _ _ _ _ => ldN16 _ _ _ _ | .ldI32 _ _ _ _ => ldI32 _ _ _ _ | .ldN32 _ _ _ _ => ldN32 _ _ _ _ | .ld64 _ _ _ _ => ld64 _ _ _ _
  | .ldv _ _ _ _ => ldv _ _ _ _ | .ldc _ _ _ _ => ldc _ _ _ _ | .vgather _ _ _ _ => vgather _ _ _ _ | .st8 _ _ _ => st8 _ _ _
  | .st16 _ _ _ => st16 _ _ _ | .st32 _ _ _ => st32 _ _ _ | .st64 _ _ _ => st64 _ _ _ | .stv _ _ _ => stv _ _ _ | .stc _ _ _ => stc _ _ _
  | .vscatter _ _ _ => vscatter _ _ _ | .qld _ _ _ _ => qld _ _ _ _ | .qst _ _ _ => qst _ _ _ | .aad _ _ _ _ _ => aad _ _ _ _ _
  | .aswp _ _ _ _ _ => aswp _ _ _ _ _ | .acas _ _ _ _ _ => acas _ _ _ _ _ | .amin _ _ _ _ _ => amin _ _ _ _ _ | .amax _ _ _ _ _ => amax _ _ _ _ _
  | .aminn _ _ _ _ _ => aminn _ _ _ _ _ | .amaxn _ _ _ _ _ => amaxn _ _ _ _ _ | .aand _ _ _ _ _ => aand _ _ _ _ _
  | .aor _ _ _ _ _ => aor _ _ _ _ _ | .axor _ _ _ _ _ => axor _ _ _ _ _ | .fenceAcq _ _ => fenceAcq _ _ | .fenceRel _ _ => fenceRel _ _
  | .fenceFull _ _ => fenceFull _ _ | .vadd _ _ _ _ => vadd _ _ _ _ | .vsub _ _ _ _ => vsub _ _ _ _ | .vmul _ _ _ _ => vmul _ _ _ _
  | .vdiv _ _ _ _ => vdiv _ _ _ _ | .vmin _ _ _ _ => vmin _ _ _ _ | .vmax _ _ _ _ => vmax _ _ _ _ | .vabs _ _ _ _ => vabs _ _ _ _
  | .vneg _ _ _ _ => vneg _ _ _ _ | .vsqrt _ _ _ _ => vsqrt _ _ _ _ | .vrcp _ _ _ _ => vrcp _ _ _ _ | .vrsq _ _ _ _ => vrsq _ _ _ _
  | .vexp2 _ _ _ _ => vexp2 _ _ _ _ | .vlog2 _ _ _ _ => vlog2 _ _ _ _ | .vtanh _ _ _ _ => vtanh _ _ _ _ | .vsin _ _ _ _ => vsin _ _ _ _
  | .vcos _ _ _ _ => vcos _ _ _ _ | .vfloor _ _ _ _ => vfloor _ _ _ _ | .vceil _ _ _ _ => vceil _ _ _ _ | .vrint _ _ _ _ => vrint _ _ _ _
  | .vclass _ _ _ _ => vclass _ _ _ _ | .vaddF16 _ _ _ _ => vaddF16 _ _ _ _ | .vsubF16 _ _ _ _ => vsubF16 _ _ _ _
  | .vmulF16 _ _ _ _ => vmulF16 _ _ _ _ | .vdivF16 _ _ _ _ => vdivF16 _ _ _ _ | .vminF16 _ _ _ _ => vminF16 _ _ _ _
  | .vmaxF16 _ _ _ _ => vmaxF16 _ _ _ _ | .vabsF16 _ _ _ _ => vabsF16 _ _ _ _ | .vnegF16 _ _ _ _ => vnegF16 _ _ _ _
  | .vsqrtF16 _ _ _ _ => vsqrtF16 _ _ _ _ | .vrcpF16 _ _ _ _ => vrcpF16 _ _ _ _ | .vrsqF16 _ _ _ _ => vrsqF16 _ _ _ _
  | .vexp2F16 _ _ _ _ => vexp2F16 _ _ _ _ | .vlog2F16 _ _ _ _ => vlog2F16 _ _ _ _ | .vtanhF16 _ _ _ _ => vtanhF16 _ _ _ _
  | .vsinF16 _ _ _ _ => vsinF16 _ _ _ _ | .vcosF16 _ _ _ _ => vcosF16 _ _ _ _ | .vaddI32 _ _ _ _ => vaddI32 _ _ _ _
  | .vsubI32 _ _ _ _ => vsubI32 _ _ _ _ | .vmulI32 _ _ _ _ => vmulI32 _ _ _ _ | .vmulhI32 _ _ _ _ => vmulhI32 _ _ _ _
  | .vminI32 _ _ _ _ => vminI32 _ _ _ _ | .vmaxI32 _ _ _ _ => vmaxI32 _ _ _ _ | .vabsI32 _ _ _ => vabsI32 _ _ _ | .vnegI32 _ _ _ => vnegI32 _ _ _
  | .vandI32 _ _ _ => vandI32 _ _ _ | .vorI32 _ _ _ => vorI32 _ _ _ | .vxorI32 _ _ _ => vxorI32 _ _ _ | .vshlI32 _ _ _ _ => vshlI32 _ _ _ _
  | .vshrI32 _ _ _ => vshrI32 _ _ _ | .vsraI32 _ _ _ => vsraI32 _ _ _ | .vaddI16 _ _ _ _ _ => vaddI16 _ _ _ _ _
  | .vsubI16 _ _ _ _ _ => vsubI16 _ _ _ _ _ | .vmulI16 _ _ _ _ _ => vmulI16 _ _ _ _ _ | .vmulhI16 _ _ _ _ _ => vmulhI16 _ _ _ _ _
  | .vminI16 _ _ _ _ _ => vminI16 _ _ _ _ _ | .vmaxI16 _ _ _ _ _ => vmaxI16 _ _ _ _ _ | .vabsI16 _ _ _ _ => vabsI16 _ _ _ _
  | .vnegI16 _ _ _ _ => vnegI16 _ _ _ _ | .vandI16 _ _ _ _ => vandI16 _ _ _ _ | .vorI16 _ _ _ _ => vorI16 _ _ _ _
  | .vxorI16 _ _ _ _ => vxorI16 _ _ _ _ | .vshlI16 _ _ _ _ _ => vshlI16 _ _ _ _ _ | .vshrI16 _ _ _ _ => vshrI16 _ _ _ _
  | .vsraI16 _ _ _ _ => vsraI16 _ _ _ _ | .vfma _ _ _ _ => vfma _ _ _ _ | .vfms _ _ _ _ => vfms _ _ _ _ | .vnfma _ _ _ _ => vnfma _ _ _ _
  | .vnfms _ _ _ _ => vnfms _ _ _ _ | .vcmpEq _ _ _ _ => vcmpEq _ _ _ _ | .vcmpNe _ _ _ _ => vcmpNe _ _ _ _ | .vcmpLt _ _ _ _ => vcmpLt _ _ _ _
  | .vcmpLe _ _ _ _ => vcmpLe _ _ _ _ | .vcvtF32F64 _ _ _ => vcvtF32F64 _ _ _ | .vcvtF64F32 _ _ _ => vcvtF64F32 _ _ _
  | .vcvtF16F32 _ _ _ => vcvtF16F32 _ _ _ | .vcvtF32F16 _ _ _ => vcvtF32F16 _ _ _ | .vcvtBf16F32 _ _ _ => vcvtBf16F32 _ _ _
  | .vcvtF32Bf16 _ _ _ => vcvtF32Bf16 _ _ _ | .vcvtE4m3F32 _ _ _ => vcvtE4m3F32 _ _ _ | .vcvtE5m2F32 _ _ _ => vcvtE5m2F32 _ _ _
  | .vcvtE4m3F32Nosat _ _ _ => vcvtE4m3F32Nosat _ _ _ | .vcvtE5m2F32Nosat _ _ _ => vcvtE5m2F32Nosat _ _ _
  | .vcvtF32E4m3 _ _ _ => vcvtF32E4m3 _ _ _ | .vcvtF32E5m2 _ _ _ => vcvtF32E5m2 _ _ _ | .vcvtI32F32 _ _ _ => vcvtI32F32 _ _ _
  | .vcvtN32F32 _ _ _ => vcvtN32F32 _ _ _ | .vcvtF32I32 _ _ _ => vcvtF32I32 _ _ _ | .vcvtF32N32 _ _ _ => vcvtF32N32 _ _ _
  | .vcvtI64F64 _ _ _ => vcvtI64F64 _ _ _ | .vcvtN64F64 _ _ _ => vcvtN64F64 _ _ _ | .vcvtF64I64 _ _ _ => vcvtF64I64 _ _ _
  | .vcvtF64N64 _ _ _ => vcvtF64N64 _ _ _ | .vcvtI16I32 _ _ _ => vcvtI16I32 _ _ _ | .vcvtI8I32 _ _ _ => vcvtI8I32 _ _ _
  | .vcvtI32I16 _ _ _ => vcvtI32I16 _ _ _ | .vcvtI32I8 _ _ _ => vcvtI32I8 _ _ _ | .vshuf _ _ _ _ => vshuf _ _ _ _
  | .vbcast _ _ _ _ => vbcast _ _ _ _ | .vrot _ _ _ _ => vrot _ _ _ _ | .viota _ _ _ _ => viota _ _ _ _ | .vcomp _ _ _ _ => vcomp _ _ _ _
  | .vexpand _ _ _ _ => vexpand _ _ _ _ | .vzip _ _ _ _ => vzip _ _ _ _ | .vunzip _ _ _ _ => vunzip _ _ _ _ | .vnz _ _ _ _ => vnz _ _ _ _
  | .vnzi _ _ _ _ => vnzi _ _ _ _ | .vins _ _ _ _ => vins _ _ _ _ | .vext _ _ _ _ => vext _ _ _ _ | .vredAdd _ _ _ _ => vredAdd _ _ _ _
  | .vredMax _ _ _ _ => vredMax _ _ _ _ | .vredMin _ _ _ _ => vredMin _ _ _ _ | .vredMaxn _ _ _ _ => vredMaxn _ _ _ _
  | .vredMinn _ _ _ _ => vredMinn _ _ _ _ | .vredAnd _ _ _ _ => vredAnd _ _ _ _ | .vredOr _ _ _ _ => vredOr _ _ _ _
  | .vredXor _ _ _ _ => vredXor _ _ _ _ | .vsel _ _ _ => vsel _ _ _ | .vqhdr _ _ _ => vqhdr _ _ _ | .vqpk _ _ _ => vqpk _ _ _
  | .vdq _ _ _ => vdq _ _ _ | .vbaq _ _ _ => vbaq _ _ _ | .vbmax _ _ _ => vbmax _ _ _ | .vbfmt _ _ _ => vbfmt _ _ _
  | .osmStep _ _ _ => osmStep _ _ _ | .osmNorm _ _ _ => osmNorm _ _ _ | .ctrNew _ _ _ => ctrNew _ _ _ | .ctrDec _ => ctrDec _
  | .ctrBind _ => ctrBind _ | .ctrSplit _ => ctrSplit _ | .ctrStat _ _ _ => ctrStat _ _ _ | .rarm _ => rarm _ | .invoke _ _ _ => invoke _ _ _
  | .invokec _ _ _ => invokec _ _ _ | .fulfil _ => fulfil _ | .brk _ => brk _ | .wait _ _ => wait _ _ | .waitSt _ _ => waitSt _ _
  | .send _ _ _ => send _ _ _ | .sendw _ _ => sendw _ _ | .qnew _ _ _ => qnew _ _ _ | .qbind _ => qbind _ | .qunbind _ => qunbind _
  | .spawn _ => spawn _ | .launch _ _ _ => launch _ _ _ | .cpy _ => cpy _ | .tile _ => tile _ | .feedA _ => feedA _ | .feedB _ => feedB _
  | .mma _ => mma _ | .mzero _ => mzero _ | .mstat _ _ _ => mstat _ _ _ | .trap _ => trap _ | .isync _ => isync _ | .sysRd _ _ _ => sysRd _ _ _
  | .sysWr _ => sysWr _ | .cusTake _ _ _ => cusTake _ _ _ | .cusResume _ => cusResume _ | .cusGive _ => cusGive _ | .cusBreak _ => cusBreak _
  | .stnMap _ => stnMap _ | .stnInv _ => stnInv _ | .stnReplay _ => stnReplay _ | .lodgeNew _ => lodgeNew _ | .lodgeEnd _ => lodgeEnd _
  | .migrate _ => migrate _ | .shadowSave _ => shadowSave _ | .shadowLoad _ => shadowLoad _ | .testRun _ => testRun _ | .statSum _ => statSum _
  | .engineCancel _ => engineCancel _

end Sys2Proof.Laws.RoundTrip

namespace Sys2Proof.Machine

/-- Settles O56, by the round trip of each constructor: a part's own step has no word, and a word's fields read back what they were made from. -/
theorem everyInstructionDecodesBack : Obligations.EveryInstructionDecodesBack := Laws.RoundTrip.statement

end Sys2Proof.Machine
end

section
/-! The obligations O54 and O55: what a turn of the schedule performs (R54, R65, R328, R329, R460, log 1), and the words that the spec writes out
(R46, R52, R62, R98 to R116). -/

namespace Sys2Proof.Machine

/-! ## The twin's copy of a firing (R460) -/

/-- The block that the twin runs is admitted, with the primary's words. -/
theorem twinBlk_words {s : State} {r k : Nat} (h : (s.slot r k).blk.phase = 2) :
    (s.twinBlk r k).phase = 2 ∧ (s.twinBlk r k).words = (s.slot r k).blk.words := by
  unfold State.twinBlk
  dsimp only
  split
  · split
    · next h' => exact ⟨h'.1, h'.2.2.2⟩
    · exact ⟨h, rfl⟩
  · exact ⟨h, rfl⟩
/-- The word at an index is the same on both copies. -/
theorem wordAt_asTwin {s : State} {r k i q j : Nat} {w : W32} (h : s.wordAt r k i = some w) : (s.asTwin r k q j).wordAt r k i = some w := by
  unfold State.wordAt at h
  dsimp only at h
  split at h
  · next hp =>
    obtain ⟨tp, tw⟩ := twinBlk_words hp
    simp [State.wordAt, State.asTwin, tp, tw, h]
  · cases h
/-- Functions that agree on the primary and on the twin's view of it make the same step of both copies. -/
theorem both_congr {s : State} {r k i : Nat} {f g : State → Out} (h : f s = g s)
    (ht : ∀ q j, (s.slot r k).twin = some (q, j) → f (s.asTwin r k q j) = g (s.asTwin r k q j)) : s.both r k i f = s.both r k i g := by
  unfold State.both
  split
  · exact h
  · next q j e => simp only [h, ht q j e]
theorem wordAt_here (s : State) (p : Nat × Nat × Nat) (core slot idx : Nat) :
    ({ s with here := p } : State).wordAt core slot idx = s.wordAt core slot idx := rfl
theorem fireAt_of_wordAt {s : State} {core slot idx : Nat} {w : W32} {i : Instr} (hw : s.wordAt core slot idx = some w) (hi : decodeWord w = .ok i) :
    s.fireAt core slot idx = exec i { s with here := (core, slot, idx) } :=
  fireAt_decoded s core slot idx w i ((wordAt_here ..).trans hw) hi
/-- A firing is exec of the decoded instruction, on both copies of a redundant activity. -/
theorem fireBoth_decoded {s : State} {core slot idx : Nat} {w : W32} {i : Instr} (hw : s.wordAt core slot idx = some w) (hi : decodeWord w = .ok i) :
    s.fireBoth core slot idx = s.both core slot idx fun t => exec i { t with here := (core, slot, idx) } :=
  both_congr (fireAt_of_wordAt hw hi) fun _ _ _ => fireAt_of_wordAt (wordAt_asTwin hw) hi

/-! ## The turn that is taken (log 1) -/

/-- The state in which the scheduled turn is performed. -/
def State.passed (s : State) (d : Nat) (rest : List (Nat × Turn)) : State :=
  { s with schedule := rest, cycle := s.cycle + BitVec.ofNat 64 d, tick := s.tick + 1 }
theorem step_scheduled {s : State} {d : Nat} {t : Turn} {rest : List (Nat × Turn)} (h : s.schedule = (d, t) :: rest) :
    step s = (s.passed d rest).perform t := by
  simp only [step, State.nextTurn, h]; rfl
theorem perform_fire (s : State) (core slot idx : Nat) :
    s.perform (.fire core slot idx) = if s.kept core slot idx then s.fireBoth core slot idx else .next s := rfl
theorem perform_keep_first {s : State} {core pipe slot idx : Nat} (h : s.firstOf core (s.readyOf core pipe) = some (slot, idx)) :
    s.perform (.keep core pipe) = s.fireBoth core slot idx := by
  show s.keep core pipe = _
  simp only [State.keep, h]
theorem perform_keep_none {s : State} {core pipe : Nat} (h : s.readyOf core pipe = []) : s.perform (.keep core pipe) = .next s := by
  show s.keep core pipe = _
  simp only [State.keep, h, State.firstOf]
theorem perform_event {s : State} {i : Instr} (h : encode i = 0) : s.perform (.event i) = s.ownStep i := if_pos h
/-- A step of the part that is neither an admission nor an answer is made once. -/
theorem ownStep_single {s : State} {i : Instr} (ha : ∀ core slot, i ≠ .blockAdmission core slot) (hr : ∀ core slot idx, i ≠ .remoteAnswer core slot idx) :
    s.ownStep i = exec i s := by
  unfold State.ownStep
  split
  · exact absurd rfl (ha _ _)
  · exact absurd rfl (hr _ _ _)
  · rfl

/-- Settles O54: the turn is taken off the schedule, a firing runs the decoded instruction on both copies, and a step of the part is exec's. -/
theorem stepRunsTheDecodedInstruction : Obligations.StepRunsTheDecodedInstruction := by
  unfold Obligations.StepRunsTheDecodedInstruction
  intro s d rest
  refine ⟨fun core slot idx w i hp hw hi => ?_, fun core slot idx hs hk => ?_, fun core pipe hs hr => ?_, fun i hs he ha hr => ?_,
    fun core slot hs => ?_, fun core slot idx hs => ?_⟩
  · have hf : (s.passed d rest).fireBoth core slot idx = _ := fireBoth_decoded ((if_pos hp).trans hw) hi
    have single : (s.slot core slot).twin = none → _ := fun h => State.both_single (s := s.passed d rest) h idx
      fun t => exec i { t with here := (core, slot, idx) }
    refine ⟨fun hs hk => ?_, fun pipe hs hk => ?_⟩
    · have e := (step_scheduled hs).trans ((if_pos hk).trans hf)
      exact ⟨e, fun h => e.trans (single h)⟩
    · have e := (step_scheduled hs).trans ((perform_keep_first hk).trans hf)
      exact ⟨e, fun h => e.trans (single h)⟩
  · exact (step_scheduled hs).trans ((perform_fire ..).trans (if_neg (ne_true_of_eq_false hk)))
  · exact (step_scheduled hs).trans (perform_keep_none hr)
  · exact (step_scheduled hs).trans ((perform_event he).trans (ownStep_single ha hr))
  · have e := (step_scheduled hs).trans (perform_event (i := .blockAdmission core slot) rfl)
    exact ⟨e, fun h => e.trans (State.both_single (s := s.passed d rest) h ..)⟩
  · have e := (step_scheduled hs).trans (perform_event (i := .remoteAnswer core slot idx) rfl)
    exact ⟨e, fun h => e.trans (State.both_single (s := s.passed d rest) h ..)⟩

/-- Settles O55: the decoder evaluated on each word. -/
theorem wordsOfTheSpecDecode : Obligations.WordsOfTheSpecDecode := by
  refine ⟨rfl, rfl, rfl, rfl, rfl, rfl, rfl, rfl, rfl, rfl, rfl, rfl, rfl, rfl, rfl, rfl, rfl, fun w reserved => ?_⟩
  fin_cases reserved <;> rfl

end Sys2Proof.Machine
end

section
/-! The obligation O8: NULL, MOV, WRITE and WPORT (R59, R122 to R124). -/

namespace Sys2Proof.Claims
open Sys2Proof.Machine

section
variable {s : State} {pr : BitVec 2} {m : BitVec 16} {row : Row} {l r t : Value}

/-- A register completes for the first time (R65). -/
theorem complete_first {reg : Nat} (d : RegDone) (h : mapGet (blkOf s).regDone reg = .no) : (ctxOf s row l r t m).complete s reg d = completes s reg d :=
  if_pos (beq_iff_eq.2 h)
@[simp] theorem blkOf_completes (reg : Nat) (d : RegDone) : blkOf (completes s reg d) = { blkOf s with regDone := mapSet (blkOf s).regDone reg d } := by
  show ((completes s reg d).slot s.here.1 s.here.2.1).blk = _
  rw [completes, slot_updBlk_same]; rfl
@[simp] theorem blkOf_keep (a : Act) : blkOf (keep s a) = { blkOf s with acts := mapSet (blkOf s).acts (indexOf s) (some a) } := by
  show ((keep s a).slot s.here.1 s.here.2.1).blk = _
  rw [keep, slot_updBlk_same]; rfl

variable (h : MayFire s) (hr : Runs s pr m)
include h hr

theorem null_fires (t1 t0 : BitVec 9) : exec (.null pr t1 t0) s = .next (answers s t1 t0 nullToken []) := by
  show execNull pr t1 t0 s = _
  exact (Fires.none h hr rfl rfl rfl (fun _ _ _ => rfl) rfl).value rfl
theorem mov_passes {a : Value} (ga : Given s 0 a) (t1 t0 : BitVec 9) : exec (.mov pr t1 t0) s = .next (answers s t1 t0 (lanesOf m a) []) := by
  show execMov pr t1 t0 s = _
  exact (Fires.one h hr rfl rfl rfl ga (.inl rfl) (fun _ _ => rfl) (.inl rfl)).value rfl
theorem write_completes {a : Value} {reg : BitVec 6} (ga : Given s 0 a) (hc : a.tag = .cap → capOk (lanesOf m a) = true)
    (hd : mapGet (blkOf s).regDone reg.toNat = .no) : exec (.write pr reg) s = .next (done (completes s reg.toNat (.value (lanesOf m a)))) := by
  show execWrite pr reg s = _
  refine (Fires.one h hr rfl rfl rfl ga (.inl rfl) (fun _ _ => rfl) (.inl rfl)).silent ((if_neg ?_).trans ?_) rfl (by simp [h.admitted])
  · simp only [ctxOf_l, ctxOf_masked, capOk_eq, Bool.and_eq_true, beq_iff_eq, Bool.not_eq_true']
    exact fun e => by simp [hc e.1] at e
  · exact congrArg (Ctx.silent _) (complete_first _ hd)
theorem wport_keeps {a : Value} {reg : BitVec 6} {q : Nat} (ga : Given s 0 a) (ht : a.tag ≠ .broken) (hp : s.portTo s.here.1 reg.toNat = some q) :
    exec (.wport pr reg) s =
      .next (done (keep s (.push reg.toNat (ofLanes fun i => if bitAt (lanesOf m a).valid i then a.lane i else 0)))) := by
  show execWport pr reg s = _
  refine (Fires.one h hr rfl rfl rfl ga (.inl rfl) (fun _ _ => rfl) (.inl rfl)).silent ((if_neg ?_).trans (if_neg ?_)) rfl (by simp [h.admitted])
  · rw [beq_iff_eq]; exact ht
  · show ¬ (s.portTo s.here.1 reg.toNat).isNone = true
    simp [hp]

end

/-- Settles O8, one lemma for each instruction: each is a firing whose effect is its value, its register or its push. -/
theorem movesAndWrites : Obligations.MovesAndWrites := by
  unfold Obligations.MovesAndWrites
  exact fun s pr m h hr => ⟨null_fires h hr, fun t1 t0 a ga => mov_passes h hr ga t1 t0, fun reg a ga hc hd => write_completes h hr ga hc hd,
    fun reg a q ga ht hp => wport_keeps h hr ga ht hp⟩

end Sys2Proof.Claims
end

section
/-! The obligations O11 and O12: a word whose condition does not hold, and null tokens, over the whole instruction set (R56 to R58, R61, R62;
corners: log 55). -/

namespace Sys2Proof.Claims
open Sys2Proof.Machine

section
variable {s : State} {r : Row} {w : W32} {f : Form}

/-! ## What makes a word ready (R54, R57, R58) -/

/-- A ready instruction sees what has reached its slots. -/
theorem ctx_of_ready (h : MayFire s) (hf : f.ready (opnd s) (storesDone (blkOf s) (lsidOf (wordOf s)).toNat) = true) :
    s.ctx f = some (seen s f, (opnd s 3).getD default) := by
  refine if_pos ⟨h.admitted, h.free, ?_, h.inBlock, h.unfired, hf⟩
  have := h.powered
  show (!(s.core s.here.1).gated) = true
  simp [this]
/-- A null predicate is enough (R57). -/
theorem ready_of_nullPred {get : Nat → Option Value} {below : Bool} {p : Value} (hn : f.pr ≠ 0) (hp : get 3 = some p) (hr : readPred f.pr p = .null) :
    f.ready get below = true := by simp [Form.ready, hn, hp, hr]
/-- A null token in a data slot is enough, once the predicate is there (R58, log 55). -/
theorem ready_of_nullData {get : Nat → Option Value} {below : Bool} {q : Nat} {a : Value} (ht : f.pr = 0 ∨ (get 3).isSome = true) (hq : q < f.arity)
    (h3 : q < 3) (ha : get q = some a) (hn : a.null = true) : f.ready get below = true := by
  have told : (f.pr == 0 || (get 3).isSome) = true := by simpa using ht
  have at_ : f.nullAt q (get q) = true := by simp [Form.nullAt, nullOperand, ha, hn, hq]
  have any : (f.nullAt 0 (get 0) || f.nullAt 1 (get 1) || f.nullAt 2 (get 2)) = true := by
    obtain rfl | rfl | rfl : q = 0 ∨ q = 1 ∨ q = 2 := by omega
    all_goals simp [at_]
  unfold Form.ready
  dsimp only
  rw [told, any]
  simp
/-- What counts as a null token among the operands (R58). -/
theorem nullData_of_null {q : Nat} {a : Value} (hq : q < f.arity) (h3 : q < 3) (ha : opnd s q = some a) (hn : a.null = true) :
    f.nullData (seen s f) = true := by
  obtain rfl | rfl | rfl : q = 0 ∨ q = 1 ∨ q = 2 := by omega
  all_goals simp [Form.nullData, Form.nullOf, nullOperand, seen, ha, hn, hq]

/-! ## The predicate (R57) -/

theorem readPred_null {n : Nat} {p : Value} (h : n ≠ 0) (hn : p.null = true) : readPred n p = .null := by simp [readPred, h, hn]
theorem readPred_nullLane {n : Nat} {p : Value} (h : 2 ≤ n) (hd : p.tag = .data) (hv : bitAt p.valid 0 = false) : readPred n p = .null := by
  have h0 : n ≠ 0 := by omega
  have h1 : n ≠ 1 := by omega
  simp [readPred, h0, h1, hd, hv]
theorem readPred_off {n : Nat} {p : Value} (h : 2 ≤ n) (hp : p.null = false) (hd : p.tag = .data) (hv : bitAt p.valid 0 = true)
    (hx : n = 2 ↔ p.lane 0 = 0) : readPred n p = .off := by
  have h0 : n ≠ 0 := by omega
  have h1 : n ≠ 1 := by omega
  have hne : ((p.lane 0 != 0) == (n == 2)) = false := by
    by_cases e : n = 2
    · rw [hx.1 e, e]; rfl
    · rw [bne_iff_ne.2 (mt hx.2 e), beq_false_of_ne e]; rfl
  unfold readPred
  simp only [h0, h1, hp, hd, hv, hne, if_false, Bool.false_eq_true, Bool.not_true]
  rfl
theorem predOf_lt (r : Row) (w : W32) : predOf r w < 4 := by
  unfold predOf
  split
  · decide
  · decide
  · exact (prOf w).isLt
theorem arity_le (r : Row) : r.arity ≤ 3 := by cases r <;> decide
/-- Stores complete no register. -/
theorem completes_of_isStore (h : r.isStore = true) : r.completes = false := by
  unfold Row.isStore at h
  split at h
  case h_8 => cases h
  all_goals rfl

/-! ## What a null token does (R58, R61) -/

theorem nullOf_seen (hd : r.completes = true → r ≠ .call → mapGet (blkOf s).regDone (wReg w).toNat = .no) : nullOf r w (seen s f) = nullEffect s r w := by
  unfold nullOf nullEffect
  split
  · next h =>
    simp only [Bool.and_eq_true, bne_iff_ne] at h
    exact complete_first .null (hd h.1 h.2)
  · rfl
@[simp] theorem nullEffect_here : (nullEffect s r w).here = s.here := by
  unfold nullEffect
  split
  · rfl
  · split <;> rfl
theorem nullEffect_phase : (blkOf (nullEffect s r w)).phase = (blkOf s).phase := by
  unfold nullEffect
  split
  · simp
  · split
    · show ((stores s _ _).slot s.here.1 s.here.2.1).blk.phase = _
      rw [stores, slot_updBlk_same]; rfl
    · rfl

/-! ## Firing (R54 to R58) -/

/-- A null token passes on: by the predicate, or by the data that a predicate lets through. -/
theorem fire_passesNull {p : Value} {onNull : Ctx → State} {act : Ctx → Except Trap Fired} (hc : s.ctx f = some (seen s f, p))
    (hp : readPred f.pr p = .null ∨ (∃ m, readPred f.pr p = .run m) ∧ f.nullData (seen s f) = true) :
    s.fire f onNull act = .next ((seen s f).finish f { s := onNull (seen s f), v0 := nullToken, v1 := nullToken }) := by
  unfold State.fire
  rcases hp with hp | ⟨⟨m, hp⟩, hn⟩
  · simp only [hc, hp]
  · simp only [hc, hp, hn, if_true]
theorem fireLater_passesNull {p : Value} {act : Ctx → Except Trap State} (hc : s.ctx f = some (seen s f, p))
    (hp : readPred f.pr p = .null ∨ (∃ m, readPred f.pr p = .run m) ∧ f.nullData (seen s f) = true) :
    s.fireLater f act = .next ((seen s f).finish f { s := s, v0 := nullToken, v1 := nullToken }) := by
  unfold State.fireLater
  rcases hp with hp | ⟨⟨m, hp⟩, hn⟩
  · simp only [hc, hp]
  · simp only [hc, hp, hn, if_true]

/-- A word to which a null token of R57 or R58 has come. -/
def NullComes (s : State) (r : Row) (w : W32) : Prop :=
  predOf r w ≠ 0 ∧ (∃ p, opnd s 3 = some p ∧ (p.null = true ∨ 2 ≤ predOf r w ∧ p.tag = .data ∧ bitAt p.valid 0 = false)) ∨
    (∃ m, Runs s (BitVec.ofNat 2 (predOf r w)) m) ∧ ∃ q a, q < r.arity ∧ opnd s q = some a ∧ a.null = true
/-- It fires, and passes a null token on. -/
theorem NullComes.ctx (h : NullComes s r w) (hm : MayFire s) (hf : Fits f r w) : ∃ p, s.ctx f = some (seen s f, p) ∧
    (readPred f.pr p = .null ∨ (∃ m, readPred f.pr p = .run m) ∧ f.nullData (seen s f) = true) := by
  rcases h with ⟨hn, p, hp, hnull⟩ | ⟨⟨m, hr⟩, q, a, hq, ha, hnull⟩
  · have hread : readPred f.pr p = .null := by
      rw [hf.pr]
      rcases hnull with hnull | ⟨h2, hd, hv⟩
      · exact readPred_null hn hnull
      · exact readPred_nullLane h2 hd hv
    refine ⟨p, ?_, .inl hread⟩
    rw [ctx_of_ready hm (ready_of_nullPred (by rwa [hf.pr]) hp hread), hp]; rfl
  · obtain ⟨told, run⟩ := readPred_eq hr
    have e : (BitVec.ofNat 2 (predOf r w)).toNat = f.pr := by rw [hf.pr, BitVec.toNat_ofNat, Nat.mod_eq_of_lt (predOf_lt r w)]
    rw [e] at told run
    have hq' : q < f.arity := by rw [hf.arity]; exact hq
    have h3 : q < 3 := Nat.lt_of_lt_of_le hq (arity_le r)
    exact ⟨_, ctx_of_ready hm (ready_of_nullData told hq' h3 ha hnull), .inr ⟨⟨m, run⟩, nullData_of_null hq' h3 ha hnull⟩⟩

/-- The firing is over, with null tokens for the targets of the word. -/
theorem finish_null (hm : MayFire s) (hf : Fits f r w) : (seen s f).finish f { s := nullEffect s r w, v0 := nullToken, v1 := nullToken } =
    fired (nullEffect s r w) (target1 r w) (target0 r w) nullToken nullToken [] := by
  rw [← hf.t1, ← hf.t0]
  exact finish_eq s (nullEffect s r w) f f.row _ _ _ _ _ _ _ nullEffect_here (nullEffect_phase.trans hm.admitted)

/-! ## A condition that does not hold (R56, R61) -/

/-- What holds of every firing in a store's form, which reads no operand whole and completes the LSID for a null token (R61), holds of exec on its
words. -/
theorem exec_store (h : r.isStore = true) (w : W32) (s : State) {P : Out → Prop}
    (fires : ∀ act, Fits (nForm r (prOf w) r.arity 0 0 0) r w → P (s.fire (nForm r (prOf w) r.arity 0 0 0) (nullStore (lsidOf w).toNat) act)) :
    P (exec (build r w) s) := by
  unfold Row.isStore at h
  split at h
  · show P (execSt8 _ _ _ s); unfold execSt8; exact fires _ ⟨rfl, rfl, rfl, rfl, rfl⟩
  · show P (execSt16 _ _ _ s); unfold execSt16; exact fires _ ⟨rfl, rfl, rfl, rfl, rfl⟩
  · show P (execSt32 _ _ _ s); unfold execSt32; exact fires _ ⟨rfl, rfl, rfl, rfl, rfl⟩
  · show P (execSt64 _ _ _ s); unfold execSt64; exact fires _ ⟨rfl, rfl, rfl, rfl, rfl⟩
  · show P (execStv _ _ _ s); unfold execStv; exact fires _ ⟨rfl, rfl, rfl, rfl, rfl⟩
  · show P (execStc _ _ _ s); unfold execStc; exact fires _ ⟨rfl, rfl, rfl, rfl, rfl⟩
  · show P (execVscatter _ _ _ s); unfold execVscatter; exact fires _ ⟨rfl, rfl, rfl, rfl, rfl⟩
  · cases h
theorem nullEffect_store (h : r.isStore = true) : nullEffect s r w = nullStore (lsidOf w).toNat (seen s f) := by
  unfold nullEffect
  rw [completes_of_isStore h, h]; rfl
/-- One operand of a form that reads none whole counts as a null token when it is one. -/
theorem nullOperand_notWhole {n q : Nat} {v : Option Value} (h : q < n → v.isSome = true) :
    nullOperand n q 0 (v.getD default) = (decide (q < n) && v.any fun v => v.null) := by
  by_cases hq : q < n
  · obtain ⟨a, rfl⟩ := Option.isSome_iff_exists.1 (h hq)
    simp [nullOperand, hq]
  · simp [nullOperand, hq]
/-- The null tokens of a store are those in its data slots. -/
theorem nullData_store (hs : r.isStore = true) (arrived : ∀ q, q < r.arity → (opnd s q).isSome = true) :
    (nForm r (prOf w) r.arity 0 0 0).nullData (seen s f) = nullIn s r := by
  have give : (r == .cusGive) = false := by
    refine beq_false_of_ne fun e => ?_
    rw [e] at hs; cases hs
  show (nullOperand r.arity 0 0 ((opnd s 0).getD default) || nullOperand r.arity 1 0 ((opnd s 1).getD default) ||
    nullOperand r.arity 2 0 ((opnd s 2).getD default) || (r == .cusGive && targetNull ((opnd s 2).getD default))) = _
  rw [nullOperand_notWhole (arrived 0), nullOperand_notWhole (arrived 1), nullOperand_notWhole (arrived 2), give, nullIn]
  have := arity_le r
  interval_cases r.arity <;> simp [List.range_succ, Bool.or_assoc]
/-- A condition that does not hold: the word is marked, and a store that a null token has reached completes its LSID (R61). -/
theorem exec_off {p : Value} (hm : MayFire s) (h : Arrived s r w) (hr : plainRow r = true) (hp : Given s 3 p) (hoff : readPred (predOf r w) p = .off) :
    exec (build r w) s =
      .next ((if r.isStore && nullIn s r then nullEffect s r w else s).mark s.here.1 s.here.2.1 (indexOf s) 2) := by
  cases hs : r.isStore
  · refine exec_fires r w s hr (P := (· = _)) (fun f n act hf _ => ?_) (fun f act hf _ => ?_)
    · unfold State.fire; simp only [h.ctx hm hf hp, hf.pr, hoff, hf.row, hs]; rfl
    · unfold State.fireLater; simp only [h.ctx hm hf hp, hf.pr, hoff]; rfl
  · refine exec_store hs w s (P := (· = _)) fun act hf => ?_
    rw [nullEffect_store hs, ← nullData_store hs h.data]
    unfold State.fire
    simp only [h.ctx hm hf hp, hf.pr, hoff, hf.row, hs]
    rfl

end

/-- Settles O11: EXT is no firing, and a firing whose condition does not hold ends at its predicate. -/
theorem nothingFiresWithoutCause : Obligations.NothingFiresWithoutCause := by
  unfold Obligations.NothingFiresWithoutCause
  refine ⟨⟨fun _ _ => rfl, fun _ _ _ => rfl, fun _ _ _ _ => rfl⟩, fun s r w p hm h hr h2 hp hd hv hx => ?_⟩
  exact exec_off hm h hr hp (readPred_off h2 hp.real hd hv hx)

/-- Settles O12: a null token makes the word ready, its firing does what `nullEffect` says, and passes null tokens on. -/
theorem nullTokensPassOn : Obligations.NullTokensPassOn := by
  unfold Obligations.NullTokensPassOn
  intro s r w hm _ hr hd h
  have hcome : NullComes s r w := h
  refine exec_fires r w s hr (P := (· = _)) (fun f n act hf hn => ?_) (fun f act hf hn => ?_)
  · obtain ⟨p, hc, hp⟩ := hcome.ctx hm hf
    rw [fire_passesNull hc hp, hn, nullOf_seen hd, finish_null hm hf]
  · obtain ⟨p, hc, hp⟩ := hcome.ctx hm hf
    have same : nullEffect s r w = s := (nullOf_seen hd).symm.trans (hn (seen s f))
    have done := finish_null (s := s) hm hf
    rw [same] at done ⊢
    rw [fireLater_passesNull hc hp, done]

end Sys2Proof.Claims
end

section
/-! The obligation O59: taking a trap, the record of it, and the return from custody (R72, R295, R297, R299, R300, R308; log 50). -/

namespace Sys2Proof.Machine

/-! ## Slots and counts -/

@[simp] theorem slot_countBlock (s : State) (r k e n c j : Nat) : (s.countBlock r k e n).slot c j = s.slot c j := by
  unfold State.countBlock
  split <;> simp
/-- A count on another core leaves the events of this one. -/
theorem ev_count_other (s : State) {r q : Nat} (e n : Nat) (h : q ≠ r) : ((s.count r e n).core q).ev = (s.core q).ev :=
  congrArg Core.ev (core_updCore_other s _ h)
@[simp] theorem ev_count_same (s : State) (r e n : Nat) : ((s.count r e n).core r).ev = bumpEv (s.core r).ev e n :=
  congrArg Core.ev (core_updCore_same ..)
/-- An event of a block counts once on its core, unless its twin runs there too (R178, R460). -/
theorem ev_countBlock (s : State) (r k e n : Nat) (h : ∀ q j, (s.slot r k).twin = some (q, j) → q ≠ r) :
    ((s.countBlock r k e n).core r).ev = bumpEv (s.core r).ev e n := by
  unfold State.countBlock
  split
  · next q j ht => rw [ev_count_other _ _ _ (h q j ht).symm, ev_count_same]
  · exact ev_count_same ..
theorem mapGet_bumpEv (m : Map W32) (e n : Nat) : (mapGet (bumpEv m e n) e).toNat = Nat.min ((mapGet m e).toNat + n) 0xFFFFFFFF := by
  rw [bumpEv, mapGet_mapUpd_same, BitVec.toNat_ofNat]
  exact Nat.mod_eq_of_lt (Nat.lt_of_le_of_lt (Nat.min_le_right ..) (by decide))
theorem ev_updSlot (s : State) (r k : Nat) (f : Slot → Slot) (c : Nat) : ((s.updSlot r k f).core c).ev = (s.core c).ev :=
  core_updCore_keeps s r c _ Core.ev rfl

/-! ## What giving up reservations leaves (R267) -/

/-- A slot keeps all but its custody record's reservation. -/
theorem Released.slot_eq {s t : State} (h : Released s t) (c k : Nat) : t.slot c k = { s.slot c k with custody := (t.slot c k).custody } :=
  congrArg (fun x : Slot => { x with custody := (t.slot c k).custody }) (h.slot c k)
theorem Released.ev {s t : State} (h : Released s t) (c : Nat) : (t.core c).ev = (s.core c).ev := (congrArg Core.ev (h.core c) :)
/-- The trap queue is found in a lodging's own word and its map (R297). -/
theorem trapQueue_congr {s t : State} (hq : ∀ n, (t.lodging n).trapQueue = (s.lodging n).trapQueue) (hm : ∀ n, (t.lodging n).map = (s.lodging n).map)
    (n : Nat) : t.trapQueue n = s.trapQueue n := by
  simp only [State.trapQueue, State.router, hq, hm]
theorem Released.trapQueue {s t : State} (h : Released s t) (n : Nat) : t.trapQueue n = s.trapQueue n :=
  trapQueue_congr (fun n => (congrArg Lodging.trapQueue (h.lodging n) :)) (fun n => (congrArg Lodging.map (h.lodging n) :)) n
@[simp] theorem lodging_countBlock (s : State) (r k e n m : Nat) : (s.countBlock r k e n).lodging m = s.lodging m := by
  unfold State.countBlock
  split <;> rfl

/-! ## Taking a trap (R72, R295, R297, R299) -/

/-- The record of a trap of slot `k` of core `r` (R295). -/
def State.trapRecord (s : State) (r k : Nat) (t : Trap) (index : W32) (flags : Nat) : TrapRec :=
  { code := BitVec.ofNat 8 t.code, flags := flags, index := index, block := (s.slot r k).pc, cycle := s.cycle, core := (s.core r).logicalNo, slot := k,
    lodging := (s.core r).lodging, launch := (s.slot r k).launch, lo := t.lo, hi := t.hi, ended := false }
/-- A slot whose activity has trapped: frozen, its block given up, its record `rec` kept until the queue has taken it. -/
def Slot.trapped (x : Slot) (rec : TrapRec) (unwritten : Bool) : Slot :=
  { x with blk := default, obs := { x.obs with custodial := true }, retried := false, diverged := false, yielded := false,
           custody := { (default : Custody) with state := 1, held := BitVec.ofNat 16 x.obs.heldMask, record := rec, unwritten := unwritten } }
/-- The state in which a trap's record is about to be written (R267, R297). -/
def State.trapping (s : State) (r k : Nat) (t : Trap) (index : W32) (flags : Nat) : State :=
  ((s.release r k).countBlock r k 10 1).updSlot r k fun x => x.trapped (s.trapRecord r k t index flags) true
/-- A trap's record goes to the queue, or waits (R297). -/
theorem takeTrap_eq (s : State) (r k : Nat) (t : Trap) (index : W32) (flags : Nat) : s.takeTrap r k t index flags =
    match (s.trapping r k t index flags).writeTrap (s.core r).lodging (s.trapRecord r k t index flags).bits (s.core r).logicalNo with
    | some s' => s'.updSlot r k fun x => { x with custody := { x.custody with unwritten := false } }
    | none => s.trapping r k t index flags := rfl
theorem slot_trapping (s : State) (r k : Nat) (t : Trap) (index : W32) (flags : Nat) :
    (s.trapping r k t index flags).slot r k = (s.slot r k).trapped (s.trapRecord r k t index flags) true := by
  rw [State.trapping, slot_updSlot_same, slot_countBlock, (Released.release s r k).slot_eq]
  rfl
/-- Another slot keeps all but its custody record's reservation. -/
theorem slot_trapping_other (s : State) {r k c j : Nat} (t : Trap) (index : W32) (flags : Nat) (h : ¬ (c = r ∧ j = k)) :
    ∃ y, (s.trapping r k t index flags).slot c j = { s.slot c j with custody := y } := by
  rw [State.trapping, slot_updSlot, if_neg h, slot_countBlock, (Released.release s r k).slot_eq]
  exact ⟨_, rfl⟩
theorem trapQueue_trapping (s : State) (r k : Nat) (t : Trap) (index : W32) (flags n : Nat) :
    (s.trapping r k t index flags).trapQueue n = s.trapQueue n :=
  (trapQueue_congr (by simp [State.trapping]) (by simp [State.trapping]) n).trans ((Released.release s r k).trapQueue n)
theorem ev_trapping (s : State) (r k : Nat) (t : Trap) (index : W32) (flags : Nat) (h : ∀ q j, (s.slot r k).twin = some (q, j) → q ≠ r) :
    ((s.trapping r k t index flags).core r).ev = bumpEv (s.core r).ev 10 1 := by
  have twin : ((s.release r k).slot r k).twin = (s.slot r k).twin := by rw [(Released.release s r k).slot_eq]
  rw [State.trapping, ev_updSlot, ev_countBlock _ _ _ _ _ (by rwa [twin]), (Released.release s r k).ev]

/-- A trap leaves its slot frozen; its record waits where the lodging has no trap queue. -/
theorem slot_takeTrap (s : State) (r k : Nat) (t : Trap) (index : W32) (flags : Nat) :
    ∃ u, (s.takeTrap r k t index flags).slot r k = (s.slot r k).trapped (s.trapRecord r k t index flags) u ∧
      (s.trapQueue (s.core r).lodging = none → u = true) := by
  rw [takeTrap_eq]
  split
  · next s' hw =>
    refine ⟨false, ?_, fun hq => ?_⟩
    · rw [slot_updSlot_same, (Queued.writeTrap hw).slot, slot_trapping]; rfl
    · rw [State.writeTrap, trapQueue_trapping, hq] at hw; cases hw
  · exact ⟨true, slot_trapping .., fun _ => rfl⟩
/-- Every other slot keeps all but its custody record's reservation. -/
theorem slot_takeTrap_other (s : State) {r k c j : Nat} (t : Trap) (index : W32) (flags : Nat) (h : ¬ (c = r ∧ j = k)) :
    ∃ y, (s.takeTrap r k t index flags).slot c j = { s.slot c j with custody := y } := by
  rw [takeTrap_eq]
  split
  · next s' hw => rw [slot_updSlot, if_neg h, (Queued.writeTrap hw).slot]; exact slot_trapping_other s t index flags h
  · exact slot_trapping_other s t index flags h
/-- Event 10 counts an aborted block (R178). -/
theorem ev_takeTrap (s : State) (r k : Nat) (t : Trap) (index : W32) (flags : Nat) (h : ∀ q j, (s.slot r k).twin = some (q, j) → q ≠ r) :
    (mapGet ((s.takeTrap r k t index flags).core r).ev 10).toNat = Nat.min ((mapGet (s.core r).ev 10).toNat + 1) 0xFFFFFFFF := by
  have counted := mapGet_bumpEv (s.core r).ev 10 1
  rw [← ev_trapping s r k t index flags h] at counted
  rw [takeTrap_eq]
  split
  · next s' hw => rwa [ev_updSlot, ((Queued.writeTrap hw).core r).events 10 (by decide)]
  · exact counted

/-! ## Custody (R306, R308) -/

theorem slot_cusTake (s : State) (me : ActId) (r k : Nat) : (s.custodyAct me (.cusTake r k)).slot r k =
    { s.slot r k with custody := { (s.slot r k).custody with state := 2, taker := me, reserved := 0 } } := slot_updSlot_same ..
theorem slot_cusResume (s : State) (me : ActId) (r k : Nat) (a : Word) : (s.custodyAct me (.cusResume r k a)).slot r k =
    { s.slot r k with
      obs := { (s.slot r k).obs with custodial := false }, custody := default, blk := default,
      pc := if a = 0 then (s.slot r k).custody.record.block else a,
      region := if a = 0 then (s.slot r k).region else { (s.slot r k).region with isOpen := false } } := slot_updSlot_same ..

end Sys2Proof.Machine

namespace Sys2Proof.Claims
open Sys2Proof.Machine

theorem SlotKept.refl (x : Slot) : SlotKept x x :=
  ⟨⟨rfl, rfl, rfl, rfl, rfl, rfl⟩, ⟨rfl, rfl, rfl, rfl, rfl⟩, fun _ => ⟨rfl, rfl, rfl⟩, rfl, ⟨rfl, rfl⟩⟩
/-- A trap freezes the activity, and leaves all else of it (R72, R299). -/
theorem SlotKept.trapped (x : Slot) (rec : TrapRec) (u : Bool) : SlotKept x (x.trapped rec u) :=
  ⟨⟨rfl, rfl, rfl, rfl, rfl, rfl⟩, ⟨rfl, rfl, rfl, rfl, rfl⟩, fun _ => ⟨rfl, rfl, rfl⟩, rfl, ⟨rfl, rfl⟩⟩

/-- Settles O59: the trapped slot is `Slot.trapped`, and CUS.TAKE and CUS.RESUME are one update of the slot each. -/
theorem trapAndReturn : Obligations.TrapAndReturn := by
  unfold Obligations.TrapAndReturn
  intro s r k
  refine ⟨fun t index flags => ?_, fun me => ?_, fun me a => ?_⟩
  · obtain ⟨u, hu, hw⟩ := slot_takeTrap s r k t index flags
    obtain ⟨hbm, far, host⟩ := sameMem_takeTrap s r k t index flags
    dsimp only
    rw [hu]
    exact ⟨.trapped .., rfl, rfl, rfl, rfl, rfl, hw, ev_takeTrap s r k t index flags, hbm, far, host⟩
  · dsimp only
    rw [slot_cusTake]
    exact ⟨rfl, rfl, rfl, rfl, rfl⟩
  · dsimp only
    rw [slot_cusResume]
    exact ⟨rfl, rfl, rfl, rfl, rfl, rfl⟩

end Sys2Proof.Claims
end

section
/-! SUPPORT. The bytes of S that the delivery of a trap record writes: the queue's header and ring, and its core's run ring (R262, R284, R285,
R297, R324). -/

namespace Sys2Proof.Machine

/-! ## Bytes of a store (R4, R34) -/

theorem length_bytesOf {m : Nat} (n : Nat) (w : BitVec m) : (bytesOf n w).length = n := by simp [bytesOf]
/-- The low bytes of a number spell it, as far as they go. -/
theorem natOfBytes_low (n x : Nat) : natOfBytes ((List.range n).map fun i => BitVec.ofNat 8 (x / 2 ^ (8 * i))) = x % 2 ^ (8 * n) := by
  induction n generalizing x with
  | zero => simp [natOfBytes, Nat.mod_one]
  | succ n ih =>
    have tail : ((fun i => BitVec.ofNat 8 (x / 2 ^ (8 * i))) ∘ Nat.succ) = fun i => BitVec.ofNat 8 (x / 256 / 2 ^ (8 * i)) := by
      funext i
      show BitVec.ofNat 8 (x / 2 ^ (8 * (i + 1))) = _
      rw [Nat.div_div_eq_div_mul, show 8 * (i + 1) = 8 + 8 * i by omega, Nat.pow_add]
    rw [List.range_succ_eq_map, List.map_cons, List.map_map, tail, natOfBytes, ih, show 8 * (n + 1) = 8 + 8 * n by omega, Nat.pow_add,
      Nat.mod_mul]
    simp [BitVec.toNat_ofNat]
theorem natOfBytes_bytesOf {m : Nat} (n : Nat) (w : BitVec m) (h : m ≤ 8 * n) : natOfBytes (bytesOf n w) = w.toNat := by
  rw [bytesOf, natOfBytes_low]
  exact Nat.mod_eq_of_lt (Nat.lt_of_lt_of_le w.isLt (Nat.pow_le_pow_right (by decide) h))
theorem mapGet_put (l : LStore) (a i : Nat) (bs : List Byte) :
    mapGet (l.put a bs).bytes i = if a ≤ i ∧ i < a + bs.length then bs[i - a]?.getD 0 else mapGet l.bytes i := by
  show mapGet (writeMasked l.bytes a (bs.map some)) i = _
  rw [mapGet_writeMasked]
  by_cases h : a ≤ i ∧ i < a + bs.length
  · obtain ⟨h1, h2⟩ := h
    have lt : i - a < bs.length := by omega
    simp [h1, h2, lt]
  · rw [if_neg h]
    split
    · have : bs.length ≤ i - a := by omega
      simp [this]
    · rfl
theorem numBytes_put (l : LStore) (a : Nat) {m : Nat} (n : Nat) (w : BitVec m) (h : m ≤ 8 * n) :
    numBytes (l.put a (bytesOf n w)).bytes a n = w.toNat := by
  have read : bytesAt (l.put a (bytesOf n w)).bytes a n = bytesOf n w := by
    refine List.ext_getElem (by simp [bytesAt, length_bytesOf]) fun i h1 h2 => ?_
    have hi : i < n := by simpa [bytesAt] using h1
    simp [bytesAt, mapGet_put, length_bytesOf, hi]
  rw [numBytes, read, natOfBytes_bytesOf n w h]

/-! ## Cores without redundant activities (R459, R460) -/

/-- No slot of the core has a twin. -/
def Core.twinless (c : Core) : Prop := ∀ e ∈ c.slots, e.2.twin = none
theorem mem_mapDel {α : Type} {m : Map α} {k : Nat} {e : Nat × α} (h : e ∈ mapDel m k) : e ∈ m := by
  induction m with
  | nil => exact h
  | cons d m ih =>
    obtain ⟨j, v⟩ := d
    unfold mapDel at h
    split at h
    · exact .tail _ (ih h)
    · cases h with
      | head => exact .head _
      | tail _ h => exact .tail _ (ih h)
theorem mem_mapIns {α : Type} {m : Map α} {k : Nat} {x : α} {e : Nat × α} (h : e ∈ mapIns m k x) : e ∈ m ∨ e = (k, x) := by
  induction m with
  | nil => exact .inr (List.mem_singleton.1 h)
  | cons d m ih =>
    obtain ⟨j, v⟩ := d
    unfold mapIns at h
    split at h
    · exact (List.mem_cons.1 h).symm.imp (.tail _) id
    · split at h
      · exact (List.mem_cons.1 h).symm
      · cases h with
        | head => exact .inl (.head _)
        | tail _ h => exact (ih h).imp (.tail _) id
theorem mem_mapSet {α : Type} [Inhabited α] [DecidableEq α] {m : Map α} {k : Nat} {x : α} {e : Nat × α} (h : e ∈ mapSet m k x) :
    e ∈ m ∨ e = (k, x) := by
  unfold mapSet at h
  split at h
  · exact .inl (mem_mapDel h)
  · exact mem_mapIns h
/-- What a map reads is the default or an entry. -/
theorem mapGet_mem {α : Type} [Inhabited α] (m : Map α) (k : Nat) : mapGet m k = default ∨ (k, mapGet m k) ∈ m := by
  induction m with
  | nil => exact .inl rfl
  | cons d m ih =>
    obtain ⟨j, v⟩ := d
    unfold mapGet
    split
    · next h => subst h; exact .inr (.head _)
    · exact ih.imp id (.tail _)
/-- An update of a slot that gives it no twin. -/
theorem twinless_mapUpd {m : Map Slot} (h : ∀ e ∈ m, e.2.twin = none) (k : Nat) (f : Slot → Slot) (hf : ∀ x, (f x).twin = x.twin) :
    ∀ e ∈ mapUpd m k f, e.2.twin = none := by
  intro e he
  rcases mem_mapSet he with he | rfl
  · exact h e he
  · refine (hf _).trans ?_
    rcases mapGet_mem m k with hd | hm
    · rw [hd]; rfl
    · exact h _ hm
theorem twinsOf_twinless {s : State} {q : Nat} (h : (s.core q).twinless) (k : Sto) (off n : Nat) : s.twinsOf q k off n = [] :=
  List.filterMap_eq_nil_iff.2 fun e he => by rw [h e he]
theorem core_storeS_twinless {s : State} {q : Nat} (h : (s.core q).twinless) (off : Nat) (bs : List Byte) (tag : Bool) (c : Nat) :
    (s.storeS q off bs tag).core c =
      if c = q then { s.core q with s := let l := (s.core q).s.put off bs; if tag then l.setTag (off / 16) true else l } else s.core c := by
  simp only [State.storeS, twinsOf_twinless h, List.filter_nil, putAll, List.foldl_cons, List.foldl_nil, State.core]
  exact mapGet_mapSet ..
theorem setTag_bytes (l : LStore) (g : Nat) (b : Bool) : (l.setTag g b).bytes = l.bytes := rfl
/-- A store port writes the bytes that it is given, and no others. -/
theorem bytes_storeS {s : State} {q : Nat} (h : (s.core q).twinless) {off : Nat} {bs : List Byte} (tag : Bool) {c a : Nat}
    (ha : ¬ (c = q ∧ off ≤ a ∧ a < off + bs.length)) :
    mapGet ((s.storeS q off bs tag).core c).s.bytes a = mapGet (s.core c).s.bytes a := by
  rw [core_storeS_twinless h]
  split
  · next hc =>
    subst hc
    have put : mapGet ((s.core c).s.put off bs).bytes a = mapGet (s.core c).s.bytes a := by
      rw [mapGet_put, if_neg fun hb => ha ⟨rfl, hb⟩]
    dsimp only
    split
    · exact put
    · exact put
  · rfl
theorem sByte_answer (s : State) (id : Nat) (a : Resp) (q off n : Nat) : (s.answer id a).sByte q off n = s.sByte q off n := rfl
theorem sByte_putS {s : State} {q : Nat} (h : (s.core q).twinless) (off : Nat) {v : Nat} (hv : v < 2 ^ 64) :
    (s.putS q off 8 v).sByte q off 8 = v := by
  rw [State.sByte, State.putS, core_storeS_twinless h, if_pos rfl]
  exact (numBytes_put _ off 8 _ (by decide)).trans (by rw [BitVec.toNat_ofNat, Nat.mod_eq_of_lt hv])

/-! ## Headers (R262) -/

theorem qLog_lt (h : Nat) : qLog h < 16 := Nat.mod_lt _ (by decide)
theorem qCount_lt (h : Nat) : qCount h < 512 := Nat.mod_lt _ (by decide)
theorem bit1_le (b : Bool) : bit1 b ≤ 1 := by cases b <;> decide
theorem qWord_lt (rank : Nat) {log : Nat} (b : Bool) (head : Nat) {count : Nat} (hl : log < 16) (hc : count ≤ 512) :
    qWord rank log b head count < 2 ^ 64 := by
  have := bit1_le b
  unfold qWord
  omega
theorem qLog_qWord (rank : Nat) {log : Nat} (b : Bool) (head : Nat) {count : Nat} (hl : log < 16) (hc : count ≤ 512) :
    qLog (qWord rank log b head count) = log := by
  have := bit1_le b
  unfold qLog qWord
  omega

/-! ## What queue operations write (R284, R285, R324) -/

/-- A byte of the header of a queue, of its ring of `2 ^ log` entries, or of the run ring. -/
def queueByte (off log a : Nat) : Prop :=
  off ≤ a ∧ a < off + 8 ∨ qRing off ≤ a ∧ a < qRing off + 64 * 2 ^ log ∨ ringOff ≤ a ∧ a < ringOff + 4096
/-- An operation on the queue at `off` of core `q`: of the S stores it writes bytes of `queueByte` alone. -/
structure QueueWrites (q off log : Nat) (s t : State) : Prop where
  queued : Queued s t
  bytes : ∀ c a, ¬ (c = q ∧ queueByte off log a) → mapGet (t.core c).s.bytes a = mapGet (s.core c).s.bytes a

theorem Queued.twinless {s t : State} (h : Queued s t) {q : Nat} (hq : (s.core q).twinless) : (t.core q).twinless := by
  unfold Core.twinless
  rw [(h.core q).slots]
  exact hq
section
variable {s t u : State} {q off log : Nat}

theorem QueueWrites.refl (s : State) : QueueWrites q off log s s := ⟨.refl s, fun _ _ _ => rfl⟩
theorem QueueWrites.trans (h : QueueWrites q off log s t) (g : QueueWrites q off log t u) : QueueWrites q off log s u :=
  ⟨h.queued.trans g.queued, fun c a ha => (g.bytes c a ha).trans (h.bytes c a ha)⟩
/-- An operation on queues that leaves the S stores alone. -/
theorem QueueWrites.of_same (h : Queued s t) (hs : ∀ c, (t.core c).s = (s.core c).s) : QueueWrites q off log s t :=
  ⟨h, fun c a _ => by rw [hs c]⟩
theorem QueueWrites.updCore (s : State) (f : Core → Core) (hq : CoreQueued (s.core q) (f (s.core q))) (hs : (f (s.core q)).s = (s.core q).s) :
    QueueWrites q off log s (s.updCore q f) := .of_same (.updCore _ _ _ hq) fun c => core_updCore_keeps s q c f Core.s hs
theorem QueueWrites.answer (s : State) (id : Nat) (r : Resp) : QueueWrites q off log s (s.answer id r) := .of_same (.answer ..) fun _ => rfl
theorem QueueWrites.storeS (hq : (s.core q).twinless) {a : Nat} {bs : List Byte} (tag : Bool)
    (hb : ∀ i, a ≤ i → i < a + bs.length → queueByte off log i) : QueueWrites q off log s (s.storeS q a bs tag) :=
  ⟨.storeS .., fun _ _ ha => bytes_storeS hq tag fun ⟨hc, h1, h2⟩ => ha ⟨hc, hb _ h1 h2⟩⟩
theorem QueueWrites.putS (hq : (s.core q).twinless) (v : Nat) : QueueWrites q off log s (s.putS q off 8 v) :=
  .storeS hq false fun i h1 h2 => .inl ⟨h1, by rwa [length_bytesOf] at h2⟩
theorem freePlace_lt (c : Core) : c.freePlace < 256 := by
  unfold Core.freePlace
  generalize h : List.find? _ _ = p
  cases p with
  | none => decide
  | some p => exact List.mem_range.1 (List.mem_of_find?_eq_some h)
theorem bytes_putRing (c : Core) (st : Start) {a : Nat} (h : ¬ (ringOff ≤ a ∧ a < ringOff + 4096)) :
    mapGet (c.putRing st).s.bytes a = mapGet c.s.bytes a := by
  have hp := freePlace_lt c
  unfold Core.putRing
  dsimp only
  rw [mapGet_put, length_bytesOf, if_neg (by omega)]
/-- A start takes a place of the run ring (R324). -/
theorem QueueWrites.toRing (s : State) (st : Start) : QueueWrites q off log s (s.toRing q st) := by
  refine ⟨.toRing s q st, fun c a ha => ?_⟩
  have put : mapGet ((s.updCore q fun c => c.putRing st).core c).s.bytes a = mapGet (s.core c).s.bytes a := by
    rw [core_updCore]
    split
    · next hc => rw [bytes_putRing _ _ fun hr => ha ⟨hc, .inr (.inr hr)⟩, hc]
    · rfl
  unfold State.toRing
  dsimp only
  split
  · exact (congrArg (fun l : LStore => mapGet l.bytes a) (core_updCore_keeps _ _ c _ Core.s rfl)).trans put
  · exact put
theorem QueueWrites.qPop (hq : (s.core q).twinless) : QueueWrites q off log s (s.qPop q off) := .putS hq _
/-- A pop keeps the capacity. -/
theorem log_qPop (hq : (s.core q).twinless) (hl : qLog (s.sByte q off 8) = log) : qLog ((s.qPop q off).sByte q off 8) = log := by
  have hc := qCount_lt (s.sByte q off 8)
  rw [State.qPop, sByte_putS hq off (qWord_lt _ _ _ (qLog_lt _) (by omega)), qLog_qWord _ _ _ (qLog_lt _) (by omega), hl]
end

/-- A push before its header is written: the entry is in the ring, with its sender and its stamp (R262, R283). -/
def State.enqueued (s : State) (r off : Nat) (m : Msg) : State :=
  let h := s.sByte r off 8
  let a := qRing off + 64 * ((qHead h + qCount h) % 2 ^ qLog h)
  let t := (s.storeS r a (bytesOf 64 m.data) m.cap).updCore r fun c =>
    { c with senders := mapSet c.senders a (m.core, m.lodging), stamps := mapSet c.stamps a (s.nextReq, s.cycle) }
  { t with nextReq := s.nextReq + 1 }
theorem qPush_eq (s : State) (r off : Nat) (m : Msg) : (s.qPush r off m).1 =
    let h := s.sByte r off 8
    (s.enqueued r off m).putS r off 8 (qWord (qRank h) (qLog h) (qBound h) (qHead h) (qCount h + 1)) := rfl

section
variable {s t u : State} {q off log : Nat} (hq : (s.core q).twinless)
include hq

section
variable (hl : qLog (s.sByte q off 8) = log)
include hl

theorem QueueWrites.enqueued (m : Msg) : QueueWrites q off log s (s.enqueued q off m) := by
  have entry : QueueWrites q off log s
      (s.storeS q (qRing off + 64 * ((qHead (s.sByte q off 8) + qCount (s.sByte q off 8)) % 2 ^ qLog (s.sByte q off 8)))
        (bytesOf 64 m.data) m.cap) := by
    have hi := Nat.mod_lt (qHead (s.sByte q off 8) + qCount (s.sByte q off 8)) (Nat.two_pow_pos log)
    rw [hl]
    exact .storeS hq _ fun i h1 h2 => .inr (.inl ⟨by omega, by rw [length_bytesOf] at h2; omega⟩)
  exact entry.trans ((QueueWrites.updCore _ _ ⟨rfl, fun _ _ => rfl⟩ rfl).trans (.of_same (.number _ _) fun _ => rfl))
/-- A push writes an entry of the ring and the header, -/
theorem QueueWrites.qPush (m : Msg) : QueueWrites q off log s (s.qPush q off m).1 := by
  have entry := QueueWrites.enqueued hq hl m
  rw [qPush_eq]
  exact entry.trans (.putS (entry.queued.twinless hq) _)
/-- and keeps the capacity. -/
theorem log_qPush (m : Msg) : qLog ((s.qPush q off m).1.sByte q off 8) = log := by
  have hc := qCount_lt (s.sByte q off 8)
  rw [qPush_eq, sByte_putS ((QueueWrites.enqueued hq hl m).queued.twinless hq) off (qWord_lt _ _ _ (qLog_lt _) (by omega)),
    qLog_qWord _ _ _ (qLog_lt _) (by omega), hl]
/-- Waiting SENDWs take freed places (R284). -/
theorem QueueWrites.admitSendw (n : Nat) : QueueWrites q off log s (s.admitSendw q off n) ∧ qLog ((s.admitSendw q off n).sByte q off 8) = log := by
  induction n generalizing s with
  | zero => exact ⟨.refl s, hl⟩
  | succ n ih =>
    unfold State.admitSendw
    split
    · exact ⟨.refl s, hl⟩
    · next i is _ =>
      dsimp only
      split
      · have taken : QueueWrites q off log s (s.updCore q fun c => { c with sendws := mapSet c.sendws off is }) :=
          .updCore _ _ ⟨rfl, fun _ _ => rfl⟩ rfl
        have hq' := taken.queued.twinless hq
        have hl' : qLog ((s.updCore q fun c => { c with sendws := mapSet c.sendws off is }).sByte q off 8) = log := by
          rw [State.sByte, core_updCore_same]; exact hl
        generalize s.updCore q (fun c => { c with sendws := mapSet c.sendws off is }) = s1 at taken hq' hl' ⊢
        split
        · next m _ =>
          have pushed := QueueWrites.qPush hq' hl' m
          have keeps := log_qPush hq' hl' m
          generalize Resp.val _ _ = a
          generalize (s1.qPush q off m).1 = s2 at pushed keeps ⊢
          have answered : QueueWrites q off log s (s2.answer i a) := taken.trans (pushed.trans (.answer ..))
          obtain ⟨writes, keeps⟩ := ih (answered.queued.twinless hq) ((congrArg qLog (sByte_answer ..)).trans keeps)
          exact ⟨answered.trans writes, keeps⟩
        · obtain ⟨writes, keeps⟩ := ih hq' hl'
          exact ⟨taken.trans writes, keeps⟩
      · exact ⟨.refl s, hl⟩

end

/-- The handlers of a bound queue pop its entries into starts (R285). -/
theorem QueueWrites.runHandlers (n : Nat) : QueueWrites q off log s (s.runHandlers q off n) := by
  induction n generalizing s with
  | zero => exact .refl s
  | succ n ih =>
    unfold State.runHandlers
    dsimp only
    split
    · have popped : QueueWrites q off log s (s.qPop q off) := .qPop hq
      generalize s.handlerStart q off _ _ _ = st
      have started : QueueWrites q off log s ((s.qPop q off).toRing q st) := popped.trans (.toRing _ st)
      exact started.trans (ih (started.queued.twinless hq))
    · exact .refl s
/-- A queue's entries go to its waiters, and then to its handler (R263, R285). -/
theorem QueueWrites.serveQueue (hl : qLog (s.sByte q off 8) = log) (n : Nat) : QueueWrites q off log s (s.serveQueue q off n) := by
  induction n generalizing s with
  | zero => exact .refl s
  | succ n ih =>
    unfold State.serveQueue
    dsimp only
    split
    · next i is _ =>
      split
      · have taken : QueueWrites q off log s (s.updCore q fun c => { c with waiters := mapSet c.waiters off is }) :=
          .updCore _ _ ⟨rfl, fun _ _ => rfl⟩ rfl
        have hl' : qLog ((s.updCore q fun c => { c with waiters := mapSet c.waiters off is }).sByte q off 8) = log := by
          rw [State.sByte, core_updCore_same]; exact hl
        generalize s.updCore q (fun c => { c with waiters := mapSet c.waiters off is }) = s1 at taken hl' ⊢
        generalize Resp.val _ _ = a
        have answered : QueueWrites q off log s (s1.answer i a) := taken.trans (.answer ..)
        have hl' : qLog ((s1.answer i a).sByte q off 8) = log := (congrArg qLog (sByte_answer ..)).trans hl'
        generalize s1.answer i a = s2 at answered hl' ⊢
        have hq' := answered.queued.twinless hq
        have served : ∀ still : Bool,
            let u := if still then s2 else (s2.qPop q off).admitSendw q off 1
            QueueWrites q off log s u ∧ qLog (u.sByte q off 8) = log := by
          intro still
          cases still with
          | true => exact ⟨answered, hl'⟩
          | false =>
            have popped : QueueWrites q off log s (s2.qPop q off) := answered.trans (.qPop hq')
            obtain ⟨writes, keeps⟩ := QueueWrites.admitSendw (popped.queued.twinless hq) (log_qPop hq' hl') 1
            exact ⟨popped.trans writes, keeps⟩
        exact (served _).1.trans (ih ((served _).1.queued.twinless hq) (served _).2)
      · exact .runHandlers hq _
    · exact .runHandlers hq _
theorem QueueWrites.deliver (m : Msg) : QueueWrites q off (qLog (s.sByte q off 8)) s (s.deliver q off m) := by
  have pushed := QueueWrites.qPush (off := off) hq rfl m
  exact pushed.trans (.serveQueue (pushed.queued.twinless hq) (log_qPush hq rfl m) _)

end

/-- A trap record goes to the queue of its lodging, and to the handler of that queue (R297). -/
theorem QueueWrites.writeTrap {s t : State} {n q off : Nat} {rec : V512} {sender : Nat} (hn : s.trapQueue n = some (q, off))
    (hq : (s.core q).twinless) (h : s.writeTrap n rec sender = some t) : QueueWrites q off (qLog (s.sByte q off 8)) s t := by
  simp only [State.writeTrap, hn, State.tryDeliver] at h
  split at h
  · rw [← Option.some.inj h]; exact .deliver hq _
  · cases h

end Sys2Proof.Machine
end

section
/-! SUPPORT. What a firing may change (R54, R66, R72, R454): `Quiet` for one that goes on or restarts its block, `Leaves` for any,
a trap and a region's restart included. -/

namespace Sys2Proof.Claims
open Sys2Proof.Machine

/-! ## What a slot keeps -/

theorem SlotKept.trans {x y z : Slot} (h : SlotKept x y) (g : SlotKept y z) : SlotKept x z where
  activity := by simp only [g.activity, h.activity, and_self]
  code := by simp only [g.code, h.code, and_self]
  registers n := by simp only [g.registers, h.registers, and_self]
  held := g.held.trans h.held
  rounding := by simp only [g.rounding, h.rounding, and_self]
theorem SlotKept.blk (x : Slot) (b : Blk) : SlotKept x { x with blk := b } :=
  ⟨⟨rfl, rfl, rfl, rfl, rfl, rfl⟩, ⟨rfl, rfl, rfl, rfl, rfl⟩, fun _ => ⟨rfl, rfl, rfl⟩, rfl, ⟨rfl, rfl⟩⟩
theorem SlotKept.custody (x : Slot) (c : Custody) : SlotKept x { x with custody := c } :=
  ⟨⟨rfl, rfl, rfl, rfl, rfl, rfl⟩, ⟨rfl, rfl, rfl, rfl, rfl⟩, fun _ => ⟨rfl, rfl, rfl⟩, rfl, ⟨rfl, rfl⟩⟩
theorem SlotKept.yieldFor (x : Slot) (y : List Nat) : SlotKept x { x with yieldFor := y } :=
  ⟨⟨rfl, rfl, rfl, rfl, rfl, rfl⟩, ⟨rfl, rfl, rfl, rfl, rfl⟩, fun _ => ⟨rfl, rfl, rfl⟩, rfl, ⟨rfl, rfl⟩⟩
theorem SlotKept.retried (x : Slot) (b : Bool) : SlotKept x { x with retried := b } :=
  ⟨⟨rfl, rfl, rfl, rfl, rfl, rfl⟩, ⟨rfl, rfl, rfl, rfl, rfl⟩, fun _ => ⟨rfl, rfl, rfl⟩, rfl, ⟨rfl, rfl⟩⟩

end Sys2Proof.Claims

namespace Sys2Proof.Machine
open Claims (SlotKept RegionRestarts trapByte)

/-! ## What no firing changes -/

/-- The parts of a core that no firing changes: its lodging, W, A and C and their tags, ports and engines. -/
def Core.still (c : Core) : Nat × Memory × Map Bool × Memory × Map Bool × Memory × Map Port × List MxCmd × List PorterCmd :=
  (c.lodging, c.w.bytes, c.w.tags, c.a.bytes, c.a.tags, c.c.bytes, c.ports, c.mx, c.porter)
/-- What no firing changes, beside the slots and S: everything but the cores, what a block has reserved, and requests. -/
structure Kept (s t : State) : Prop where
  rest : { t with cores := s.cores, lodgings := s.lodgings, pending := s.pending, reqs := s.reqs, nextReq := s.nextReq } = s
  core : ∀ c, (t.core c).still = (s.core c).still

theorem Kept.refl (s : State) : Kept s s := ⟨rfl, fun _ => rfl⟩
theorem Kept.trans {s t u : State} (h : Kept s t) (g : Kept t u) : Kept s u where
  rest := (congrArg (fun x : State => { x with cores := s.cores, lodgings := s.lodgings, pending := s.pending, reqs := s.reqs, nextReq := s.nextReq })
    g.rest).trans h.rest
  core c := (g.core c).trans (h.core c)
theorem Queued.kept {s t : State} (h : Queued s t) : Kept s t where
  rest := congrArg (fun x : State => { x with lodgings := s.lodgings, pending := s.pending }) h.rest
  core c := (congrArg Core.still (h.core c).rest :)
theorem Kept.lodging {s t : State} (h : Kept s t) (c : Nat) : (t.core c).lodging = (s.core c).lodging := congrArg Prod.fst (h.core c)
theorem Kept.here {s t : State} (h : Kept s t) : t.here = s.here := (congrArg State.here h.rest :)

/-! ## Steps that trap nothing -/

/-- What a step of a firing changes that neither traps nor restarts a region: reservations, claims, counts of events and errors, marks of corrected
words, and of a slot its block and what goes with the block. -/
structure Quiet (s t : State) : Prop extends Kept s t where
  bytes : ∀ c, (t.core c).s.bytes = (s.core c).s.bytes ∧ (t.core c).s.tags = (s.core c).s.tags
  slots : ∀ c k, SlotKept (s.slot c k) (t.slot c k)
  queue : ∀ n, t.trapQueue n = s.trapQueue n
  twins : ∀ c, (s.core c).twinless → (t.core c).twinless

theorem Quiet.refl (s : State) : Quiet s s := ⟨.refl s, fun _ => ⟨rfl, rfl⟩, fun _ _ => .refl _, fun _ => rfl, fun _ h => h⟩
theorem Quiet.trans {s t u : State} (h : Quiet s t) (g : Quiet t u) : Quiet s u where
  toKept := h.toKept.trans g.toKept
  bytes c := ⟨(g.bytes c).1.trans (h.bytes c).1, (g.bytes c).2.trans (h.bytes c).2⟩
  slots c k := (h.slots c k).trans (g.slots c k)
  queue n := (g.queue n).trans (h.queue n)
  twins c hc := g.twins c (h.twins c hc)
/-- An update of a core, its slots included. -/
theorem Quiet.ofCore (s : State) (r : Nat) (f : Core → Core) (hc : (f (s.core r)).still = (s.core r).still)
    (hb : (f (s.core r)).s.bytes = (s.core r).s.bytes ∧ (f (s.core r)).s.tags = (s.core r).s.tags)
    (hk : ∀ k, SlotKept (mapGet (s.core r).slots k) (mapGet (f (s.core r)).slots k)) (ht : (s.core r).twinless → (f (s.core r)).twinless) :
    Quiet s (s.updCore r f) where
  rest := rfl
  core c := core_updCore_keeps s r c f Core.still hc
  bytes c := ⟨core_updCore_keeps s r c f (fun c => c.s.bytes) hb.1, core_updCore_keeps s r c f (fun c => c.s.tags) hb.2⟩
  slots c k := by
    simp only [State.slot]
    rw [core_updCore]
    split
    · next e => subst e; exact hk k
    · exact .refl _
  queue _ := rfl
  twins c h := by
    rw [core_updCore]
    split
    · next e => subst e; exact ht h
    · exact h
/-- An update of a core beside its slots. -/
theorem Quiet.updCore (s : State) (r : Nat) (f : Core → Core) (hs : (f (s.core r)).slots = (s.core r).slots)
    (hc : (f (s.core r)).still = (s.core r).still)
    (hb : (f (s.core r)).s.bytes = (s.core r).s.bytes ∧ (f (s.core r)).s.tags = (s.core r).s.tags) : Quiet s (s.updCore r f) :=
  .ofCore s r f hc hb (fun k => by rw [hs]; exact .refl _) fun h => by unfold Core.twinless; rw [hs]; exact h
/-- An update of a slot that keeps its activity. -/
theorem Quiet.updSlot (s : State) (r k : Nat) (f : Slot → Slot) (hk : SlotKept (s.slot r k) (f (s.slot r k))) (ht : ∀ x, (f x).twin = x.twin) :
    Quiet s (s.updSlot r k f) := by
  refine .ofCore s r (fun c => { c with slots := mapUpd c.slots k f }) rfl ⟨rfl, rfl⟩ (fun j => ?_) fun h => twinless_mapUpd h k f ht
  show SlotKept _ (mapGet (mapUpd _ k f) j)
  rw [mapUpd, mapGet_mapSet]
  split
  · next e => subst e; exact hk
  · exact .refl _
@[simp] theorem Quiet.updBlk (s : State) (r k : Nat) (f : Blk → Blk) : Quiet s (s.updBlk r k f) := .updSlot _ _ _ _ (.blk ..) fun _ => rfl
theorem Quiet.count (s : State) (r e n : Nat) : Quiet s (s.count r e n) := .updCore _ _ _ rfl rfl ⟨rfl, rfl⟩
theorem Quiet.countBlock (s : State) (r k e n : Nat) : Quiet s (s.countBlock r k e n) := by
  unfold State.countBlock
  split
  · exact (Quiet.count ..).trans (.count ..)
  · exact .count ..
theorem Quiet.noteError (s : State) (r unit : Nat) : Quiet s (s.noteError r unit) := .updCore _ _ _ rfl rfl ⟨rfl, rfl⟩

/-! ## Reservations given up (R267) -/

/-- Giving up reservations is quiet where no slot gets a twin. -/
theorem Quiet.released {s t : State} (h : Released s t) (ht : ∀ c, (s.core c).twinless → (t.core c).twinless) : Quiet s t where
  rest := h.rest
  core c := (congrArg Core.still (h.core c) :)
  bytes c := ⟨(congrArg (fun c : Core => c.s.bytes) (h.core c) :), (congrArg (fun c : Core => c.s.tags) (h.core c) :)⟩
  slots c k := by rw [h.slot_eq]; exact .custody ..
  queue := h.trapQueue
  twins := ht
theorem Quiet.foldl {β : Type} {f : State → β → State} (h : ∀ s b, Quiet s (f s b)) (bs : List β) (s : State) : Quiet s (bs.foldl f s) := by
  induction bs generalizing s with
  | nil => exact .refl s
  | cons b bs ih => exact (h s b).trans (ih _)
theorem Quiet.freesRecord (s : State) (r k : Nat) : Quiet s (s.updSlot r k fun x => { x with custody := { x.custody with reserved := 0 } }) :=
  .updSlot _ _ _ _ (.custody ..) fun _ => rfl
theorem Quiet.updLodging (s : State) (n : Nat) (f : Lodging → Lodging) (h : ∀ l, { f l with replies := l.replies, pool := l.pool } = l) :
    Quiet s (s.updLodging n f) := .released (.updLodging s n f h) fun _ h => h
theorem Quiet.giveBack (s : State) (r d kind : Nat) (o : Word) : Quiet s (s.giveBack r d kind o) := .released (.giveBack ..) fun _ h => h
theorem Quiet.freeClaimPlace (s : State) (l : Nat) (n : Word) : Quiet s (s.freeClaimPlace l n) := by
  unfold State.freeClaimPlace
  split
  · exact .updCore _ _ _ rfl rfl ⟨rfl, rfl⟩
  · exact .refl s
/-- A block's reservations are given up, act by act. -/
theorem Quiet.release (s : State) (r k : Nat) : Quiet s (s.release r k) := by
  unfold State.release
  refine (Quiet.released (.orphans s r k) fun _ h => h).trans (.foldl (fun s e => ?_) _ _)
  dsimp only
  split
  · exact .updCore _ _ _ rfl rfl ⟨rfl, rfl⟩
  · exact .giveBack ..
  · exact .updLodging _ _ _ fun _ => rfl
  · exact (Quiet.updLodging s _ (fun x => { x with pool := mapUpd x.pool (dieOf r) (· - 1) }) fun _ => rfl).trans
      ⟨⟨rfl, fun _ => rfl⟩, fun _ => ⟨rfl, rfl⟩, fun _ _ => .refl _, fun _ => rfl, fun _ h => h⟩
  · exact .updCore _ _ _ rfl rfl ⟨rfl, rfl⟩
  · next t _ _ i _ =>
    have free : Quiet s (s.updCore r fun c => { c with claims := mapUpd c.claims i fun x => { x with state := 0 } }) :=
      .updCore _ _ _ rfl rfl ⟨rfl, rfl⟩
    split
    · exact free
    · split
      · exact free.trans (.giveBack ..)
      · exact free.trans (.freeClaimPlace ..)
  · exact .freesRecord ..
  · exact .freesRecord ..
  · exact .freesRecord ..
  · exact (Quiet.freesRecord ..).trans (.freesRecord ..)
  · exact .refl s
/-- A block restarts (R36, R75). -/
theorem Quiet.restart (s : State) (r k : Nat) : Quiet s (s.restart r k) :=
  ((Quiet.release s r k).trans (.countBlock ..)).trans (.updSlot _ _ _ _ (.blk ..) fun _ => rfl)

/-! ## Marks (R54, R129) -/

/-- The slots that yielded to one that fires: all of them keep all but whom they wait for. -/
theorem slots_yields (k : Nat) (es : List (Nat × Slot)) (m : Map Slot) :
    let m' := es.foldl (fun m e => if e.2.yieldFor.contains k then mapUpd m e.1 fun x => { x with yieldFor := x.yieldFor.filter (· != k) } else m) m
    (∀ j, ∃ y, mapGet m' j = { mapGet m j with yieldFor := y }) ∧ ((∀ e ∈ m, e.2.twin = none) → ∀ e ∈ m', e.2.twin = none) := by
  induction es generalizing m with
  | nil => exact ⟨fun j => ⟨_, rfl⟩, fun h => h⟩
  | cons e es ih =>
    simp only [List.foldl_cons]
    split
    · obtain ⟨slots, twins⟩ := ih (mapUpd m e.1 fun x => { x with yieldFor := x.yieldFor.filter (· != k) })
      refine ⟨fun j => ?_, fun h => twins (twinless_mapUpd h _ _ fun _ => rfl)⟩
      obtain ⟨y, hy⟩ := slots j
      rw [hy, mapUpd, mapGet_mapSet]
      split
      · next hj => subst hj; exact ⟨y, rfl⟩
      · exact ⟨y, rfl⟩
    · exact ih m
theorem Quiet.firedBy (s : State) (r k : Nat) : Quiet s (s.updCore r fun c => c.firedBy k) := by
  obtain ⟨slots, twins⟩ := slots_yields k (s.core r).slots (s.core r).slots
  refine .ofCore s r _ rfl ⟨rfl, rfl⟩ (fun j => ?_) twins
  obtain ⟨y, hy⟩ := slots j
  exact hy ▸ SlotKept.yieldFor ..
theorem Quiet.mark (s : State) (r k i n : Nat) : Quiet s (s.mark r k i n) := by
  unfold State.mark
  split
  · exact (Quiet.firedBy s r k).trans (.updBlk ..)
  · exact .updBlk ..

end Sys2Proof.Machine
end

section
/-! SUPPORT. What a firing leaves, whatever it does (R54, R66, R72, R454): `Leaves`, for a trap, the restart of a region, and the end of a firing. -/

namespace Sys2Proof.Machine
open Claims (SlotKept RegionRestarts trapByte)

/-- What a firing in slot `k` of core `r` leaves of `s`: the frame of R54, R66, R72 and R454. `load`: it may restart its region. Where its block goes
on, it has been quiet. -/
structure Leaves (load : Bool) (r k : Nat) (s t : State) : Prop extends Kept s t where
  slots : ∀ c j, SlotKept (s.slot c j) (t.slot c j) ∨ (c, j) = (r, k) ∧ load = true ∧ RegionRestarts (s.slot c j) (t.slot c j)
  onward : (t.slot r k).blk.phase = 2 → Quiet s t
  bytes : (∀ q off, s.trapQueue (s.core r).lodging = some (q, off) → (s.core q).twinless) →
    ∀ c a, ¬ trapByte s (s.core r).lodging c a → mapGet (t.core c).s.bytes a = mapGet (s.core c).s.bytes a

section
variable {load : Bool} {r k : Nat} {s t u : State}

theorem Leaves.quiet (h : Quiet s t) : Leaves load r k s t :=
  ⟨h.toKept, fun c j => .inl (h.slots c j), fun _ => h, fun _ c a _ => by rw [(h.bytes c).1]⟩
@[simp] theorem Leaves.refl : Leaves load r k s s := .quiet (.refl s)
@[simp] theorem Leaves.updBlk (q j : Nat) (f : Blk → Blk) : Leaves load r k s (s.updBlk q j f) := .quiet (.updBlk ..)
/-- A firing that may not restart a region is one that may. -/
theorem Leaves.weaken (h : Leaves false r k s t) : Leaves load r k s t :=
  ⟨h.toKept, fun c j => .inl ((h.slots c j).elim id fun ⟨_, e, _⟩ => Bool.noConfusion e), h.onward, h.bytes⟩
theorem Quiet.trapByte_iff (h : Quiet s u) (n c a : Nat) : trapByte u n c a ↔ trapByte s n c a := by
  simp only [trapByte, h.queue, State.sByte, (h.bytes c).1]
/-- The bytes that a trap record may write are the same ones after quiet steps. -/
theorem Quiet.bytes_of (h : Quiet s u)
    (g : (∀ q off, u.trapQueue (u.core r).lodging = some (q, off) → (u.core q).twinless) →
      ∀ c a, ¬ trapByte u (u.core r).lodging c a → mapGet (t.core c).s.bytes a = mapGet (u.core c).s.bytes a)
    (hq : ∀ q off, s.trapQueue (s.core r).lodging = some (q, off) → (s.core q).twinless) (c a : Nat)
    (ha : ¬ trapByte s (s.core r).lodging c a) : mapGet (t.core c).s.bytes a = mapGet (s.core c).s.bytes a := by
  rw [h.toKept.lodging r] at g
  refine (g (fun q off e => h.twins q (hq q off ?_)) c a ?_).trans (by rw [(h.bytes c).1])
  · rw [← h.queue]; exact e
  · rw [h.trapByte_iff]; exact ha
/-- Quiet steps before a firing's trap. -/
theorem Leaves.after (h : Quiet s u) (g : Leaves false r k u t) : Leaves load r k s t where
  toKept := h.toKept.trans g.toKept
  slots c j := .inl ((h.slots c j).trans ((g.slots c j).elim id fun ⟨_, e, _⟩ => Bool.noConfusion e))
  onward hp := h.trans (g.onward hp)
  bytes := h.bytes_of g.bytes
/-- Updates of the block after a firing, which leave its phase. -/
theorem Leaves.then_updBlk (h : Leaves false r k s t) {f : Blk → Blk} (hf : ∀ b, (f b).phase = b.phase) :
    Leaves false r k s (t.updBlk r k f) where
  toKept := h.toKept.trans (Quiet.updBlk t r k f).toKept
  slots c j := .inl (((h.slots c j).elim id fun ⟨_, e, _⟩ => Bool.noConfusion e).trans ((Quiet.updBlk t r k f).slots c j))
  onward hp := by
    rw [slot_updBlk_same] at hp
    exact (h.onward ((hf _).symm.trans hp)).trans (.updBlk ..)
  bytes hq c a ha := by rw [((Quiet.updBlk t r k f).bytes c).1]; exact h.bytes hq c a ha

/-! ## Traps (R72, R295, R297) -/

theorem Kept.updSlot (s : State) (r k : Nat) (f : Slot → Slot) : Kept s (s.updSlot r k f) :=
  ⟨rfl, fun c => core_updCore_keeps s r c _ Core.still rfl⟩
theorem sStore_updSlot (s : State) (r k : Nat) (f : Slot → Slot) (c : Nat) : ((s.updSlot r k f).core c).s = (s.core c).s :=
  core_updCore_keeps s r c _ Core.s rfl
theorem Quiet.trapping (s : State) (r k : Nat) (t : Trap) (index : W32) (flags : Nat) : Quiet s (s.trapping r k t index flags) :=
  ((Quiet.release s r k).trans (.countBlock ..)).trans (.updSlot _ _ _ _ (.trapped ..) fun _ => rfl)
/-- A trap writes its record, and nothing else that a firing may not. -/
@[simp] theorem Leaves.takeTrap (s : State) (r k : Nat) (t : Trap) (index : W32) (flags : Nat) :
    Leaves load r k s (s.takeTrap r k t index flags) := by
  have frozen := Quiet.trapping s r k t index flags
  have slots : ∀ c j, SlotKept (s.slot c j) ((s.takeTrap r k t index flags).slot c j) := fun c j => by
    by_cases h : c = r ∧ j = k
    · obtain ⟨rfl, rfl⟩ := h
      obtain ⟨u, hu, _⟩ := slot_takeTrap s c j t index flags
      rw [hu]; exact .trapped ..
    · obtain ⟨y, hy⟩ := slot_takeTrap_other s t index flags h
      rw [hy]; exact .custody ..
  have onward : ((s.takeTrap r k t index flags).slot r k).blk.phase = 2 → Quiet s (s.takeTrap r k t index flags) := fun h => by
    obtain ⟨u, hu, _⟩ := slot_takeTrap s r k t index flags
    rw [hu] at h; exact absurd (show (0 : Nat) = 2 from h) (by decide)
  rw [takeTrap_eq] at slots onward ⊢
  split
  · next s' hw =>
    simp only [hw] at slots onward
    have queued := Queued.writeTrap hw
    refine ⟨(frozen.toKept.trans queued.kept).trans (.updSlot ..), fun c j => .inl (slots c j), onward, fun hq c a ha => ?_⟩
    rw [sStore_updSlot]
    cases hn : (s.trapping r k t index flags).trapQueue (s.core r).lodging with
    | none => rw [State.writeTrap, hn] at hw; cases hw
    | some p =>
      obtain ⟨q, off⟩ := p
      have hn' := (frozen.queue _).symm.trans hn
      refine ((QueueWrites.writeTrap hn (frozen.twins q (hq q off hn')) hw).bytes c a fun ⟨hc, hb⟩ => ha ?_).trans (by rw [(frozen.bytes c).1])
      subst hc
      refine ⟨off, hn', ?_⟩
      rwa [queueByte, State.sByte, (frozen.bytes c).1] at hb
  · exact .quiet frozen
@[simp] theorem Leaves.abort (c : Ctx) (t : Trap) : Leaves load c.core c.slot c.s (c.abort t) := .takeTrap ..

/-! ## Errors consumed (R75, R454) -/

/-- An open region starts again at its first block (R454). -/
theorem Leaves.region (s : State) (r k : Nat) (hs : (s.slot r k).retried = true) (ho : (s.slot r k).region.isOpen = true)
    (hr : (s.slot r k).region.restarted = false) :
    Leaves true r k s (((s.release r k).countBlock r k 11 1).updSlot r k fun x =>
      { x with blk := default, retried := false, pc := x.region.first, regs := x.region.saved.foldl (fun m e => mapSet m e.1 e.2) x.regs,
               region := { x.region with restarted := true, again := true } }) := by
  have given := (Quiet.release s r k).trans (.countBlock _ r k 11 1)
  have slot : ((s.release r k).countBlock r k 11 1).slot r k = _ := (slot_countBlock ..).trans ((Released.release s r k).slot_eq r k)
  refine ⟨given.toKept.trans (.updSlot ..), fun c j => ?_, fun h => ?_, fun _ c a _ => by rw [sStore_updSlot, (given.bytes c).1]⟩
  · rw [slot_updSlot]
    split
    · next e =>
      obtain ⟨rfl, rfl⟩ := e
      rw [slot]
      exact .inr ⟨rfl, rfl, ⟨hs, ho, hr⟩, ⟨rfl, rfl⟩, rfl, ⟨rfl, rfl, rfl⟩, rfl⟩
    · exact .inl (given.slots c j)
  · rw [slot_updSlot_same] at h; exact absurd (show (0 : Nat) = 2 from h) (by decide)
theorem Leaves.rerun (s : State) (r k i : Nat) : Leaves true r k s (s.rerun r k i) := by
  unfold State.rerun
  dsimp only
  split
  · exact .takeTrap ..
  · next hr =>
    split
    · exact .quiet ((Quiet.restart s r k).trans (.updSlot _ _ _ _ (SlotKept.retried ..) fun _ => rfl))
    · next hs =>
      split
      · next ho =>
        simp only [Bool.and_eq_true, not_and, Bool.not_eq_true, Bool.not_eq_eq_eq_not, Bool.not_true, Bool.not_eq_false] at hr hs ho
        exact .region s r k hs ho.1 (hr ho.1)
      · exact .takeTrap ..
/-- Quiet steps that touch no slot, before a firing's effect. -/
theorem Leaves.afterCore (h : Quiet s u) (hs : ∀ c j, u.slot c j = s.slot c j) (g : Leaves load r k u t) : Leaves load r k s t where
  toKept := h.toKept.trans g.toKept
  slots c j := hs c j ▸ g.slots c j
  onward hp := h.trans (g.onward hp)
  bytes := h.bytes_of g.bytes
/-- An uncorrectable error consumed by a load (R75, R454, R463). -/
theorem Leaves.consumeBad (s : State) (r k i unit : Nat) : Leaves true r k s (s.consumeBad r k i unit) :=
  .afterCore (.noteError s r unit) (fun _ _ => slot_noteError ..) (.rerun ..)

end

end Sys2Proof.Machine
end

section
/-! The obligation of the family 03_blocks on what the firing of a word leaves unchanged (O60): one rule for the end of a firing, one for each of
the parts that instructions share, and the instructions by cases. -/

namespace Sys2Proof.Machine
open Claims (SlotKept RegionRestarts trapByte plainRow)

/-! ## The end of a firing -/

section
variable {load : Bool} {r k : Nat} {s t u : State}

/-- Where the block goes on after a first effect, a second one follows. -/
theorem Leaves.followed (h : Leaves load r k s u) (g : Leaves false r k u t) :
    Leaves load r k s (if (u.slot r k).blk.phase != 2 then u else t) := by
  split
  · exact h
  · next hp => exact .after (h.onward (by simpa using hp)) g
@[simp] theorem Leaves.send (s : State) (r k : Nat) (t : BitVec 9) (v : Value) : Leaves load r k s (s.send r k t v) := by
  unfold State.send
  dsimp only
  (repeat' split) <;> simp
theorem send_of_ended {s : State} {r k : Nat} (h : (s.slot r k).blk.phase ≠ 2) (t : BitVec 9) (v : Value) : s.send r k t v = s := by
  simp [State.send, h]
theorem Leaves.then_send (h : Leaves load r k s t) (d : BitVec 9) (v : Value) : Leaves load r k s (t.send r k d v) := by
  by_cases hp : (t.slot r k).blk.phase = 2
  · exact .after (h.onward hp) (.send ..)
  · rwa [send_of_ended hp]
/-- A firing ends: it is marked, its events are kept and its values travel. -/
theorem Leaves.finish {c : Ctx} {f : Form} {x : Fired} (h : Leaves load c.core c.slot s x.s) : Leaves load c.core c.slot s (c.finish f x) := by
  unfold Ctx.finish
  refine h.followed ?_
  exact ((Leaves.quiet ((Quiet.mark ..).trans (.updBlk ..))).then_send ..).then_send ..

/-! ## Firing -/

/-- An effect that goes on, to the state `g` reads from what it answers, has `P` of that state. -/
def Makes {α : Type} (P : State → Prop) (g : α → State) : Except Trap α → Prop
  | .ok x => P (g x)
  | .error _ => True
end
section
variable {α β : Type} {P : State → Prop} {g : α → State} {c : Ctx}
@[simp] theorem makes_ok {x : α} : Makes P g (.ok x) ↔ P (g x) := Iff.rfl
@[simp] theorem makes_error {t : Trap} : Makes P g (.error t) := trivial
@[simp] theorem makes_pure {x : α} : Makes P g (pure x) ↔ P (g x) := Iff.rfl
@[simp] theorem makes_throw {t : Trap} : Makes P g (throw t) := trivial
@[simp] theorem makes_ite {p : Prop} [Decidable p] {a b : Except Trap α} :
    Makes P g (if p then a else b) ↔ (p → Makes P g a) ∧ (¬ p → Makes P g b) := by
  split <;> simp [*]
@[simp] theorem makes_bind {x : Except Trap β} {f : β → Except Trap α} : Makes P g (x >>= f) ↔ ∀ b, x = .ok b → Makes P g (f b) := by
  cases x with
  | error t => exact ⟨fun _ _ h => (nomatch h), fun _ => trivial⟩
  | ok b => exact ⟨fun h b e => Except.ok.inj e ▸ h, fun h => h b rfl⟩
@[simp] theorem makes_map {x : Except Trap β} {f : β → α} : Makes P g (f <$> x) ↔ ∀ b, x = .ok b → P (g (f b)) :=
  makes_bind (f := pure ∘ f)
/-- A check in a `do` block: it throws, or the block goes on. -/
@[simp] theorem makes_guard {p : Prop} [Decidable p] {t : Trap} {f : Unit → Except Trap α} :
    Makes P g (if p then throw t >>= f else f ()) ↔ (¬ p → Makes P g (f ())) := by
  split
  · exact ⟨fun _ h => absurd ‹_› h, fun _ => trivial⟩
  · simp [*]
@[simp] theorem makes_value {v : Value} {evs : List Nat} : Makes P Fired.s (c.value v evs) ↔ P c.s := Iff.rfl
@[simp] theorem makes_silent {t : State} {evs : List Nat} : Makes P Fired.s (c.silent t evs) ↔ P t := Iff.rfl
end

section
variable {load : Bool} {s : State} {f : Form}

/-- What a form sees at the place of the firing. -/
theorem ctx_place {c : Ctx} {p : Value} (h : s.ctx f = some (c, p)) : c.s = s ∧ c.core = s.here.1 ∧ c.slot = s.here.2.1 := by
  unfold State.ctx at h
  dsimp only at h
  split at h <;> cases h
  exact ⟨rfl, rfl, rfl⟩
/-- A firing leaves what its own effect and that of a null token leave. -/
theorem leaves_fire {n : Ctx → State} {act : Ctx → Except Trap Fired} (hn : ∀ c, Leaves false c.core c.slot c.s (n c))
    (ha : ∀ c, Makes (Leaves load c.core c.slot c.s) Fired.s (act c)) : Answers (Leaves load s.here.1 s.here.2.1 s) (s.fire f n act) := by
  unfold State.fire
  split
  · exact .refl
  · next c p h =>
    obtain ⟨rfl, hr, hk⟩ := ctx_place h
    rw [← hr, ← hk]
    have null := (hn c).weaken (load := load)
    split
    · exact .abort ..
    · show Leaves _ _ _ _ _
      refine Leaves.weaken (.then_updBlk ?_ fun _ => rfl)
      simp only [OfNat.ofNat_ne_one, if_false]
      split
      · exact hn c
      · exact .refl
    · exact null.finish
    · next m _ =>
      have ha := ha { c with mask := m }
      split
      · exact null.finish
      · split
        · exact .abort ..
        · split
          · show Leaves _ _ _ _ (ite ..)
            split
            · exact .updBlk ..
            · exact .abort ..
          · next x hx => rw [hx] at ha; exact Leaves.finish ha
@[simp] theorem leaves_plain {act : Ctx → Except Trap Fired} (ha : ∀ c, Makes (Leaves load c.core c.slot c.s) Fired.s (act c)) :
    Answers (Leaves load s.here.1 s.here.2.1 s) (s.fire f plainNull act) :=
  leaves_fire (fun _ => .refl) ha
/-- The firing of a word whose value comes with an answer. -/
@[simp] theorem leaves_later {act : Ctx → Except Trap State} (ha : ∀ c, Makes (Quiet c.s) id (act c)) :
    Answers (Leaves load s.here.1 s.here.2.1 s) (s.fireLater f act) := by
  unfold State.fireLater
  split
  · exact .refl
  · next c p h =>
    obtain ⟨rfl, hr, hk⟩ := ctx_place h
    rw [← hr, ← hk]
    split
    · exact .abort ..
    · exact .quiet (.mark ..)
    · exact Leaves.finish .refl
    · next m _ =>
      have ha := ha { c with mask := m }
      split
      · exact Leaves.finish .refl
      · split
        · exact .abort ..
        · split
          · exact .abort ..
          · next t ht => rw [ht] at ha; exact .quiet (Quiet.trans ha (.mark ..))
end

/-! ## What the instructions share -/

section
variable {load : Bool} {c : Ctx} {t : State}
@[simp] theorem Quiet.act (a : Act) : Quiet c.s (c.act a) := .updBlk ..
@[simp] theorem Quiet.ask {s : State} (h : Quiet s t) (a : Ask) : Quiet s (c.ask t a) := h.trans (.updBlk ..)
@[simp] theorem Quiet.ask2 {s : State} (h : Quiet s t) (a : Ask) : Quiet s (c.ask2 t a) := h.trans (.updBlk ..)
@[simp] theorem Leaves.act (a : Act) : Leaves load c.core c.slot c.s (c.act a) := .quiet (.act a)
@[simp] theorem Leaves.ask {s : State} {r k : Nat} (h : Quiet s t) (a : Ask) : Leaves load r k s (c.ask t a) := .quiet (h.ask a)
@[simp] theorem Leaves.ask2 {s : State} {r k : Nat} (h : Quiet s t) (a : Ask) : Leaves load r k s (c.ask2 t a) := .quiet (h.ask2 a)
@[simp] theorem Leaves.complete (s : State) (reg : Nat) (d : RegDone) : Leaves load c.core c.slot s (c.complete s reg d) := by
  unfold Ctx.complete
  split
  · exact .updBlk ..
  · exact .takeTrap ..
@[simp] theorem Leaves.nullLanding (reg : Nat) : Leaves load c.core c.slot c.s (nullLanding reg c) := .complete ..
@[simp] theorem Leaves.nullStore (lsid : Nat) : Leaves load c.core c.slot c.s (nullStore lsid c) := .updBlk ..
@[simp] theorem Leaves.exitWith (e : Exit) : Leaves load c.core c.slot c.s (c.exitWith e) := by
  unfold Ctx.exitWith
  split
  · exact .updBlk ..
  · exact .takeTrap ..
@[simp] theorem Leaves.landing (reg : BitVec 6) (e : Eff) : Leaves load c.core c.slot c.s (c.landing reg e) :=
  (Leaves.complete ..).followed (.updBlk ..)
/-- A claim is reserved and the invocation kept (R277). -/
@[simp] theorem Quiet.reserveClaim (i rank lodging : Nat) (heldAt : Word) (launch : W32) (a : Act) :
    Quiet c.s ({ c with s := c.s.updCore c.core fun k => k.reserveClaim i rank lodging heldAt launch }.act a) :=
  .trans (.updCore c.s c.core (fun k => k.reserveClaim i rank lodging heldAt launch) rfl rfl ⟨rfl, rfl⟩)
    (.act (c := { c with s := c.s.updCore c.core fun k => k.reserveClaim i rank lodging heldAt launch }) a)
end

section
variable {load : Bool} {s : State} {f : Form} {act : Ctx → Except Trap Fired}
@[simp] theorem leaves_landing {reg : Nat} (ha : ∀ c, Makes (Leaves load c.core c.slot c.s) Fired.s (act c)) :
    Answers (Leaves load s.here.1 s.here.2.1 s) (s.fire f (nullLanding reg) act) :=
  leaves_fire (fun _ => .nullLanding reg) ha
@[simp] theorem leaves_store {lsid : Nat} (ha : ∀ c, Makes (Leaves load c.core c.slot c.s) Fired.s (act c)) :
    Answers (Leaves load s.here.1 s.here.2.1 s) (s.fire f (nullStore lsid) act) :=
  leaves_fire (fun _ => .nullStore lsid) ha
end

/-! ### Operations on values, which change no state -/

section
variable {P : State → Prop} {c : Ctx} (h : P c.s)
include h
@[simp] theorem makes_scalarOut (vs : List Value) (x : Word) (evs : List Nat) : Makes P Fired.s (c.scalarOut vs x evs) := h
@[simp] theorem makes_alu (w : BitVec 1) (f : Nat → Nat → Nat → Nat) : Makes P Fired.s (c.alu w f) := h
@[simp] theorem makes_aluSat (w : BitVec 1) (f : Nat → Int → Int → Int) (evs : List Nat) : Makes P Fired.s (c.aluSat w f evs) := h
@[simp] theorem makes_test (vs : List Value) (b : Bool) : Makes P Fired.s (c.test vs b) := h
@[simp] theorem makes_mapEl (vs : List Value) (ws wd n : Nat) (f : Nat → List Nat → Nat × List Nat) : Makes P Fired.s (c.mapEl vs ws wd n f) := h
@[simp] theorem makes_vf1 (f : Fmt) (op : Nat → Nat → FNum → Nat × List Nat) : Makes P Fired.s (c.vf1 f op) := h
@[simp] theorem makes_vf2 (f : Fmt) (op : Nat → Nat → FNum → FNum → Nat × List Nat) : Makes P Fired.s (c.vf2 f op) := h
@[simp] theorem makes_vc1 (f : Fmt) (op : Nat → Nat × List Nat) : Makes P Fired.s (c.vc1 f op) := h
@[simp] theorem makes_vc2 (f : Fmt) (op : Nat → Nat → Nat × List Nat) : Makes P Fired.s (c.vc2 f op) := h
@[simp] theorem makes_viExact (nat : Bool) (w : Nat) (vs : List Value) (f : Int → Int → Int) : Makes P Fired.s (c.viExact nat w vs f) := h
@[simp] theorem makes_viBits (w : Nat) (f : Nat → Nat → Nat) : Makes P Fired.s (c.viBits w f) := h
@[simp] theorem makes_viShl (nat : Bool) (w : Nat) : Makes P Fired.s (c.viShl nat w) := h
@[simp] theorem makes_fmaEl (f : Fmt) (negProd negAdd : Bool) : Makes P Fired.s (c.fmaEl f negProd negAdd) := h
@[simp] theorem makes_vcmp (w : BitVec 3) (ordered : Bool) (holds : Option Ordering → Bool) : Makes P Fired.s (c.vcmp w ordered holds) := h
@[simp] theorem makes_cvt (ws wd n : Nat) (f : Nat → Nat → Nat → Nat × List Nat) : Makes P Fired.s (c.cvt ws wd n f) := h
@[simp] theorem makes_narrow (w : Nat) : Makes P Fired.s (c.narrow w) := h
@[simp] theorem makes_perm (w : Nat) (vs : List Value) (out : Nat → Nat × Bool) : Makes P Fired.s (c.perm w vs out) := h
@[simp] theorem makes_allNull (vs : List Value) : Makes P Fired.s (c.allNull vs) := h
@[simp] theorem makes_capOp (two : Bool) (tag : Tag) (need : Except Trap Unit) (f : Except Trap Value) :
    Makes P Fired.s (c.capOp two tag need f) := by
  unfold Ctx.capOp
  (repeat' split) <;> simp [h]
@[simp] theorem makes_capGet (f : Cap → Nat) : Makes P Fired.s (c.capGet f) := makes_capOp h ..
@[simp] theorem makes_fblock (vs blocks scalars : List Value) (masked : Bool) (f : Except Trap (V512 × List Nat)) :
    Makes P Fired.s (c.fblock vs blocks scalars masked f) := by
  unfold Ctx.fblock
  (repeat' split) <;> simp [h]
@[simp] theorem makes_redScalar (signed : Bool) (w : Nat) (r : Option (Nat × List Nat)) : Makes P Fired.s (c.redScalar signed w r) := by
  unfold Ctx.redScalar
  split <;> simp [h]
@[simp] theorem makes_redInt (w : BitVec 2) (ident : Nat → Nat) (f : Nat → Nat → Nat → Nat) : Makes P Fired.s (c.redInt w ident f) :=
  makes_redScalar h ..
end

/-! ### Operations that keep an act, complete a register or a store, or read a store -/

section
variable {load : Bool} {c : Ctx}
@[simp] theorem leaves_actIf (ok : Bool) (a : Act) : Makes (Leaves load c.core c.slot c.s) Fired.s (c.actIf ok a) := Leaves.act _
@[simp] theorem leaves_amo (reg : BitVec 6) (op w order scope : Nat) (v e : Value) :
    Makes (Leaves load c.core c.slot c.s) Fired.s (c.amo reg op w order scope v e) := by
  unfold Ctx.amo
  dsimp only
  refine makes_ite.2 ⟨fun _ => trivial, fun _ => ?_⟩
  generalize c.checkQueued _ _ _ _ _ _ = x
  cases x <;> simp
/-- Two effects, the second where the block goes on after the first. -/
theorem makes_followed {u t : State} (h : Leaves load c.core c.slot c.s u) (g : Leaves false c.core c.slot u t) :
    Makes (Leaves load c.core c.slot c.s) Fired.s (if (u.slot c.core c.slot).blk.phase != 2 then c.silent u else c.silent t) := by
  rw [← apply_ite c.silent]
  exact h.followed g
@[simp] theorem leaves_waitOn (reg : BitVec 6) (st : Bool) : Makes (Leaves load c.core c.slot c.s) Fired.s (c.waitOn reg st) := by
  refine makes_bind.2 fun o _ => makes_followed (.complete ..) ?_
  have kept := Quiet.act (c := { c with s := c.complete c.s reg.toNat (.landing c.idx 0 (o.1 != 5)) }) (.wait st o.1 o.2)
  split
  · exact .quiet kept
  · exact .ask kept _
@[simp] theorem leaves_feed (isB : Bool) : Makes (Leaves load c.core c.slot c.s) Fired.s (c.feed isB) := by
  unfold Ctx.feed
  refine makes_bind.2 fun _ _ => ?_
  dsimp only
  (repeat' split) <;> simp
@[simp] theorem leaves_matrix (isMma : Bool) : Makes (Leaves load c.core c.slot c.s) Fired.s (c.matrix isMma) := by
  simp only [Ctx.matrix, makes_bind, makes_guard]
  intros
  split <;> simp
@[simp] theorem leaves_stored (lsid : BitVec 5) (k : Sto) (bytes : List (Nat × Byte)) (tag : Option (Nat × Bool)) :
    Makes (Leaves load c.core c.slot c.s) Fired.s (c.stored lsid k bytes tag) :=
  makes_silent.2 (.updBlk ..)
@[simp] theorem leaves_storeLocal (lsid : BitVec 5) (imm : BitVec 18) (n : Nat) (isC : Bool) (lanes : BitVec 16) (whole : Bool) :
    Makes (Leaves load c.core c.slot c.s) Fired.s (c.store lsid imm n isC lanes whole) := by
  unfold Ctx.store
  dsimp only
  refine makes_ite.2 ⟨fun _ => .nullStore _, fun _ => makes_ite.2 ⟨fun _ => trivial, fun _ =>
    makes_ite.2 ⟨fun _ => trivial, fun _ => ?_⟩⟩⟩
  generalize c.checkLocal _ _ _ _ _ _ _ = x
  rcases x with _ | ⟨k, off⟩ <;> simp
/-- The words of a load that are corrected (R450). -/
theorem Quiet.corrected (k : Sto) (ws : List Nat) : Quiet c.s (c.corrected k ws) := by
  unfold Ctx.corrected
  split
  · exact .refl _
  · refine (Quiet.updCore _ _ _ ?_ ?_ ?_).trans (.count ..) <;> cases k <;> simp [Core.setStore, Core.store, Core.still]
@[simp] theorem leaves_readLocal (k : Sto) (lsid : Nat) (at_ : List (Nat × Nat)) (out : Value) :
    Makes (Leaves true c.core c.slot c.s) Fired.s (c.readLocal k lsid at_ out) := by
  unfold Ctx.readLocal
  dsimp only
  split
  · exact .consumeBad ..
  · exact .quiet (.corrected ..)
@[simp] theorem leaves_load (lsid : BitVec 5) (imm : BitVec 9) (n : Nat) (isC : Bool) (lanes : BitVec 16) (whole : Bool)
    (out : List Byte → Bool → Value) : Makes (Leaves true c.core c.slot c.s) Fired.s (c.load lsid imm n isC lanes whole out) := by
  unfold Ctx.load
  dsimp only
  refine makes_ite.2 ⟨fun _ => .refl, fun _ => makes_ite.2 ⟨fun _ => .refl, fun _ => ?_⟩⟩
  generalize c.checkLocal _ _ _ _ _ _ _ = x
  rcases x with _ | ⟨k, off⟩ <;> simp
@[simp] theorem leaves_loadScalar (lsid : BitVec 5) (imm : BitVec 9) (n : Nat) (signed : Bool) :
    Makes (Leaves true c.core c.slot c.s) Fired.s (c.loadScalar lsid imm n signed) := leaves_load ..
end
end Sys2Proof.Machine
end

section
/-! The obligation of the family 03_blocks on what the firing of a word leaves unchanged (O60): the instructions, and the obligation. -/

namespace Sys2Proof.Machine
open Claims (SlotKept RegionRestarts trapByte plainRow)

/-! ## The words whose effect is a case of its own -/

section
variable {load : Bool} (s : State)
theorem leaves_write (pr : BitVec 2) (reg : BitVec 6) : Answers (Leaves load s.here.1 s.here.2.1 s) (execWrite pr reg s) :=
  leaves_landing fun _ => by simp
theorem leaves_call (pr : BitVec 2) (reg : BitVec 6) (off : BitVec 17) :
    Answers (Leaves load s.here.1 s.here.2.1 s) (execCall pr reg off s) :=
  leaves_plain fun _ => makes_followed (.exitWith _) (.complete ..)
theorem leaves_callc (pr : BitVec 2) (reg : BitVec 6) : Answers (Leaves load s.here.1 s.here.2.1 s) (execCallc pr reg s) :=
  leaves_landing fun _ => makes_ite.2 ⟨fun _ => .nullLanding _, fun _ => makes_followed (.exitWith _) (.complete ..)⟩
theorem leaves_handoff (pr : BitVec 2) : Answers (Leaves load s.here.1 s.here.2.1 s) (execHandoff pr s) :=
  leaves_plain fun _ => by
    split
    · trivial
    · trivial
    · trivial
    · exact makes_followed (.exitWith _) (.ask (.refl _) _)
theorem leaves_sendw (pr : BitVec 2) (reg : BitVec 6) : Answers (Leaves load s.here.1 s.here.2.1 s) (execSendw pr reg s) :=
  leaves_landing fun c => makes_bind.2 fun q _ =>
    makes_followed (.complete ..) (.ask (.act (c := { c with s := c.complete c.s reg.toNat (.landing c.idx 0 true) }) (.sendw q.1 q.2)) _)
theorem leaves_ctrBind (pr : BitVec 2) : Answers (Leaves load s.here.1 s.here.2.1 s) (execCtrBind pr s) :=
  leaves_plain fun _ => makes_bind.2 fun _ _ => makes_bind.2 fun _ _ => makes_bind.2 fun _ _ => .ask2 (.ask (.act _) _) _
theorem leaves_sleep (pr : BitVec 2) : Answers (Leaves load s.here.1 s.here.2.1 s) (execSleep pr s) :=
  leaves_plain fun c => by split <;> simp
theorem leaves_vgather (pr : BitVec 2) (lsid : BitVec 5) (imm : BitVec 9) (t0 : BitVec 9) :
    Answers (Leaves true s.here.1 s.here.2.1 s) (execVgather pr lsid imm t0 s) :=
  leaves_plain fun c => by
    simp only [makes_ite]
    split <;> simp
theorem leaves_vscatter (pr : BitVec 2) (lsid : BitVec 5) (imm : BitVec 18) :
    Answers (Leaves load s.here.1 s.here.2.1 s) (execVscatter pr lsid imm s) :=
  leaves_store fun c => by
    simp only [makes_ite]
    split <;> simp
theorem leaves_qld (pr : BitVec 2) (reg : BitVec 6) (width : BitVec 5) (off : BitVec 12) :
    Answers (Leaves load s.here.1 s.here.2.1 s) (execQld pr reg width off s) :=
  leaves_landing fun c => by
    dsimp only
    split <;> simp
theorem leaves_qst (pr : BitVec 2) (width : BitVec 5) (imm : BitVec 18) : Answers (Leaves load s.here.1 s.here.2.1 s) (execQst pr width imm s) :=
  leaves_plain fun c => by
    simp only [makes_ite]
    (repeat' split) <;> simp
theorem leaves_osmStep (pr : BitVec 2) (t1 t0 : BitVec 9) : Answers (Leaves load s.here.1 s.here.2.1 s) (execOsmStep pr t1 t0 s) :=
  leaves_plain fun c => by
    simp only [makes_ite]
    split <;> simp
theorem leaves_osmNorm (pr : BitVec 2) (t1 t0 : BitVec 9) : Answers (Leaves load s.here.1 s.here.2.1 s) (execOsmNorm pr t1 t0 s) :=
  leaves_plain fun c => by
    simp only [makes_ite]
    split <;> simp
theorem leaves_ctrNew (pr : BitVec 2) (t1 t0 : BitVec 9) : Answers (Leaves load s.here.1 s.here.2.1 s) (execCtrNew pr t1 t0 s) :=
  leaves_plain fun c => by simp
theorem leaves_ctrStat (pr : BitVec 2) (t1 t0 : BitVec 9) : Answers (Leaves load s.here.1 s.here.2.1 s) (execCtrStat pr t1 t0 s) :=
  leaves_later fun c => by simp [Quiet.refl]
theorem leaves_invoke (pr : BitVec 2) (t1 t0 : BitVec 9) : Answers (Leaves load s.here.1 s.here.2.1 s) (execInvoke pr t1 t0 s) :=
  leaves_plain fun c => by
    simp only [makes_bind]
    intros
    split <;> simp
theorem leaves_invokec (pr : BitVec 2) (t1 t0 : BitVec 9) : Answers (Leaves load s.here.1 s.here.2.1 s) (execInvokec pr t1 t0 s) :=
  leaves_later fun c => by
    simp only [makes_bind, makes_ite]
    intros
    split <;> simp
theorem leaves_send (pr : BitVec 2) (t1 t0 : BitVec 9) : Answers (Leaves load s.here.1 s.here.2.1 s) (execSend pr t1 t0 s) :=
  leaves_later fun c => by simp
theorem leaves_qnew (pr : BitVec 2) (t1 t0 : BitVec 9) : Answers (Leaves load s.here.1 s.here.2.1 s) (execQnew pr t1 t0 s) :=
  leaves_plain fun c => by simp
theorem leaves_spawn (pr : BitVec 2) : Answers (Leaves load s.here.1 s.here.2.1 s) (execSpawn pr s) :=
  leaves_plain fun c => by
    simp only [makes_bind, makes_guard]
    intros
    split <;> simp
theorem leaves_launch (pr : BitVec 2) (t1 t0 : BitVec 9) : Answers (Leaves load s.here.1 s.here.2.1 s) (execLaunch pr t1 t0 s) :=
  leaves_later fun c => by simp
theorem leaves_engineCancel (pr : BitVec 2) : Answers (Leaves load s.here.1 s.here.2.1 s) (execEngineCancel pr s) :=
  leaves_plain fun c => by
    simp only [makes_bind]
    intros
    split <;> simp
end

/-! ## Every word -/

/-- The firing of a word of a plain row leaves what `Leaves` says; only a load may restart its region. -/
theorem exec_leaves (r : Row) (w : W32) (s : State) (h : plainRow r = true) :
    Answers (Leaves r.isLoad s.here.1 s.here.2.1 s) (exec (build r w) s) := by
  cases r
  case extWide | extHint | extModifier | port | read | cusTake | cusResume | cusGive | cusBreak => cases h
  case write => exact leaves_write ..
  case call => exact leaves_call ..
  case sendw => exact leaves_sendw ..
  case ctrBind => exact leaves_ctrBind ..
  case callc => exact leaves_callc ..
  case handoff => exact leaves_handoff ..
  case sleep => exact leaves_sleep ..
  case vgather => exact leaves_vgather ..
  case vscatter => exact leaves_vscatter ..
  case qld => exact leaves_qld ..
  case qst => exact leaves_qst ..
  case osmStep => exact leaves_osmStep ..
  case osmNorm => exact leaves_osmNorm ..
  case ctrNew => exact leaves_ctrNew ..
  case ctrStat => exact leaves_ctrStat ..
  case invoke => exact leaves_invoke ..
  case invokec => exact leaves_invokec ..
  case send => exact leaves_send ..
  case qnew => exact leaves_qnew ..
  case spawn => exact leaves_spawn ..
  case launch => exact leaves_launch ..
  case engineCancel => exact leaves_engineCancel ..
  case wport | null | mov | bro | brc | ret | exit | yield =>
    simp [build, exec, execWport, execNull, execMov, execBro, execBrc, execRet, execExit, execYield]
  case add | sub | and | or | xor | andn | shl | shr | sra | rol | min | max | minn | maxn | sel | mul | mulh | mulhn | div | divn | rem |
    remn | clz | ctz | pop | sext8 | sext16 | sext32 | zext8 | zext16 | zext32 | brev | bswap =>
    simp [build, exec, execAdd, execSub, execAnd, execOr, execXor, execAndn, execShl, execShr, execSra, execRol, execMin, execMax,
      execMinn, execMaxn, execSel, execMul, execMulh, execMulhn, execDiv, execDivn, execRem, execRemn, execClz, execCtz, execPop,
      execSext8, execSext16, execSext32, execZext8, execZext16, execZext32, execBrev, execBswap]
  case teq | tne | tlt | tle | tltn | tlen | tbit | pand | por | pxor | pnot | pany | pall | pcnt | pfirst =>
    simp [build, exec, execTeq, execTne, execTlt, execTle, execTltn, execTlen, execTbit, execPand, execPor, execPxor, execPnot, execPany,
      execPall, execPcnt, execPfirst]
  case addi | addiw | andi | ori | xori | shli | shri | srai | muli | teqi | tnei | tlti | tlei | tltni | movi | movif =>
    simp [build, exec, execAddi, execAddiw, execAndi, execOri, execXori, execShli, execShri, execSrai, execMuli, execTeqi, execTnei,
      execTlti, execTlei, execTltni, execMovi, execMovif]
  case cadd | cseta | csetb | csetbx | cperm | cseal | cunseal | cgeta | cgetb | cgetl | cgetp | cgetk | ctagt | csub | ceq | cclr | caddi =>
    simp [build, exec, execCadd, execCseta, execCsetb, execCsetbx, execCperm, execCseal, execCunseal, execCgeta, execCgetb, execCgetl,
      execCgetp, execCgetk, execCtagt, execCsub, execCeq, execCclr, execCaddi]
  case ldI8 | ldN8 | ldI16 | ldN16 | ldI32 | ldN32 | ld64 | ldv | ldc =>
    simp [build, exec, Row.isLoad, execLdI8, execLdN8, execLdI16, execLdN16, execLdI32, execLdN32, execLd64, execLdv, execLdc]
  case st8 | st16 | st32 | st64 | stv | stc =>
    simp [build, exec, execSt8, execSt16, execSt32, execSt64, execStv, execStc]
  case aad | aswp | acas | amin | amax | aminn | amaxn | aand | aor | axor | fenceAcq | fenceRel | fenceFull =>
    simp [build, exec, execAad, execAswp, execAcas, execAmin, execAmax, execAminn, execAmaxn, execAand, execAor, execAxor, execFenceAcq,
      execFenceRel, execFenceFull]
  case vadd | vsub | vmul | vdiv | vmin | vmax | vabs | vneg | vsqrt | vrcp | vrsq | vexp2 | vlog2 | vtanh | vsin | vcos | vfloor | vceil |
    vrint | vclass =>
    simp [build, exec, execVadd, execVsub, execVmul, execVdiv, execVmin, execVmax, execVabs, execVneg, execVsqrt, execVrcp, execVrsq,
      execVexp2, execVlog2, execVtanh, execVsin, execVcos, execVfloor, execVceil, execVrint, execVclass]
  case vaddF16 | vsubF16 | vmulF16 | vdivF16 | vminF16 | vmaxF16 | vabsF16 | vnegF16 | vsqrtF16 | vrcpF16 | vrsqF16 | vexp2F16 | vlog2F16 |
    vtanhF16 | vsinF16 | vcosF16 =>
    simp [build, exec, execVaddF16, execVsubF16, execVmulF16, execVdivF16, execVminF16, execVmaxF16, execVabsF16, execVnegF16,
      execVsqrtF16, execVrcpF16, execVrsqF16, execVexp2F16, execVlog2F16, execVtanhF16, execVsinF16, execVcosF16]
  case vaddI32 | vsubI32 | vmulI32 | vmulhI32 | vminI32 | vmaxI32 | vabsI32 | vnegI32 | vandI32 | vorI32 | vxorI32 | vshlI32 | vshrI32 |
    vsraI32 | vaddI16 | vsubI16 | vmulI16 | vmulhI16 | vminI16 | vmaxI16 | vabsI16 | vnegI16 | vandI16 | vorI16 | vxorI16 | vshlI16 |
    vshrI16 | vsraI16 =>
    simp [build, exec, execVaddI32, execVsubI32, execVmulI32, execVmulhI32, execVminI32, execVmaxI32, execVabsI32, execVnegI32,
      execVandI32, execVorI32, execVxorI32, execVshlI32, execVshrI32, execVsraI32, execVaddI16, execVsubI16, execVmulI16, execVmulhI16,
      execVminI16, execVmaxI16, execVabsI16, execVnegI16, execVandI16, execVorI16, execVxorI16, execVshlI16, execVshrI16, execVsraI16]
  case vfma | vfms | vnfma | vnfms | vcmpEq | vcmpNe | vcmpLt | vcmpLe =>
    simp [build, exec, execVfma, execVfms, execVnfma, execVnfms, execVcmpEq, execVcmpNe, execVcmpLt, execVcmpLe]
  case vcvtF32F64 | vcvtF64F32 | vcvtF16F32 | vcvtF32F16 | vcvtBf16F32 | vcvtF32Bf16 | vcvtE4m3F32 | vcvtE5m2F32 | vcvtE4m3F32Nosat |
    vcvtE5m2F32Nosat | vcvtF32E4m3 | vcvtF32E5m2 | vcvtI32F32 | vcvtN32F32 | vcvtF32I32 | vcvtF32N32 | vcvtI64F64 | vcvtN64F64 |
    vcvtF64I64 | vcvtF64N64 | vcvtI16I32 | vcvtI8I32 | vcvtI32I16 | vcvtI32I8 =>
    simp [build, exec, execVcvtF32F64, execVcvtF64F32, execVcvtF16F32, execVcvtF32F16, execVcvtBf16F32, execVcvtF32Bf16, execVcvtE4m3F32,
      execVcvtE5m2F32, execVcvtE4m3F32Nosat, execVcvtE5m2F32Nosat, execVcvtF32E4m3, execVcvtF32E5m2, execVcvtI32F32, execVcvtN32F32,
      execVcvtF32I32, execVcvtF32N32, execVcvtI64F64, execVcvtN64F64, execVcvtF64I64, execVcvtF64N64, execVcvtI16I32, execVcvtI8I32,
      execVcvtI32I16, execVcvtI32I8]
  case vshuf | vbcast | vrot | viota | vcomp | vexpand | vzip | vunzip | vnz | vnzi | vins | vext =>
    simp [build, exec, execVshuf, execVbcast, execVrot, execViota, execVcomp, execVexpand, execVzip, execVunzip, execVnz, execVnzi,
      execVins, execVext]
  case vredAdd | vredMax | vredMin | vredMaxn | vredMinn | vredAnd | vredOr | vredXor | vsel | vqhdr | vqpk | vdq | vbaq | vbmax | vbfmt =>
    simp [build, exec, execVredAdd, execVredMax, execVredMin, execVredMaxn, execVredMinn, execVredAnd, execVredOr, execVredXor, execVsel,
      execVqhdr, execVqpk, execVdq, execVbaq, execVbmax, execVbfmt]
  case ctrDec | ctrSplit | rarm | fulfil | brk | wait | waitSt | qbind | qunbind =>
    simp [build, exec, execCtrDec, execCtrSplit, execRarm, execFulfil, execBrk, execWait, execWaitSt, execQbind, execQunbind]
  case cpy | tile | feedA | feedB | mma | mzero | mstat | trap | isync =>
    simp [build, exec, execCpy, execTile, execFeedA, execFeedB, execMma, execMzero, execMstat, execTrap, execIsync]
  case sysRd | sysWr | stnMap | stnInv | stnReplay | lodgeNew | lodgeEnd | migrate | shadowSave | shadowLoad | testRun | statSum =>
    simp [build, exec, execSysRd, execSysWr, execStnMap, execStnInv, execStnReplay, execLodgeNew, execLodgeEnd, execMigrate,
      execShadowSave, execShadowLoad, execTestRun, execStatSum]

/-! ## The obligation -/

/-- The W, A and C stores, ports and engines of a core, as `Core.still` names them. -/
theorem Kept.stores {s t : State} (h : Kept s t) (c : Nat) :
    (t.core c).w.bytes = (s.core c).w.bytes ∧ (t.core c).a.bytes = (s.core c).a.bytes ∧ (t.core c).c.bytes = (s.core c).c.bytes ∧
    (t.core c).w.tags = (s.core c).w.tags ∧ (t.core c).a.tags = (s.core c).a.tags ∧ (t.core c).ports = (s.core c).ports ∧
    (t.core c).mx = (s.core c).mx ∧ (t.core c).porter = (s.core c).porter := by
  have still := h.core c
  simp only [Core.still, Prod.mk.injEq] at still
  obtain ⟨_, w, wt, a, ats, cc, ports, mx, porter⟩ := still
  exact ⟨w, a, cc, wt, ats, ports, mx, porter⟩
/-- Settles O60: every effect of a firing is quiet, or is a trap, or, in a load, restarts the block or its region. -/
theorem firingFrame : Obligations.FiringFrame := by
  unfold Obligations.FiringFrame
  intro s t r w plain ht
  have leaves : Leaves r.isLoad s.here.1 s.here.2.1 s t := (ht ▸ exec_leaves r w s plain :)
  have rest := leaves.rest
  exact ⟨(congrArg State.hbm rest :), (congrArg State.hbmTags rest :), (congrArg State.far rest :), (congrArg State.host rest :),
    (congrArg State.cycle rest :), (congrArg State.fuses rest :), (congrArg State.schedule rest :), (congrArg State.colls rest :),
    (congrArg State.keys rest :), leaves.slots, leaves.toKept.stores, fun onward => (leaves.onward onward).bytes, leaves.bytes⟩

end Sys2Proof.Machine
end

section
/-! SUPPORT. What firings without a result come to: an operand read whole that is BROKEN (R33), an act or a landing for the commit (R58, R66); and the
checks of a queued access (R289) in the order of R119. -/

namespace Sys2Proof.Claims
open Sys2Proof.Machine

/-! ## A BROKEN operand (R33, R119) -/

section
variable {s : State} {f : Form} {pr : BitVec 2} {m : BitVec 16}

/-- An operand that has arrived whole counts as no null token (R58, R471). -/
theorem nullOperand_whole {n q k : Nat} {v : Option Value}
    (h : n < q + 1 ∨ ∃ a, v = some a ∧ a.null = false ∧ (k = 0 ∨ a.validTo k = true)) : nullOperand n q k (v.getD default) = false := by
  rcases h with h | ⟨a, rfl, hn, hk⟩
  · simp [nullOperand, show ¬ q < n by omega]
  · rcases hk with hk | hk <;> simp [nullOperand, hn, hk]
theorem Given.counts {q k : Nat} {v : Value} (g : Given s q v) (w : k = 0 ∨ v.validTo k = true) :
    ∃ a, opnd s q = some a ∧ a.null = false ∧ (k = 0 ∨ a.validTo k = true) := ⟨v, g.arrived, g.real, w⟩
theorem Whole.notNull (h : Whole s f) : f.nullData (seen s f) = false := by
  have give : (f.row == .cusGive && targetNull ((opnd s 2).getD default)) = false := Bool.and_eq_false_iff.2 h.give
  show f.nullOf ((opnd s 0).getD default) ((opnd s 1).getD default) ((opnd s 2).getD default) = false
  simp only [Form.nullOf, nullOperand_whole h.l, nullOperand_whole h.r, nullOperand_whole h.x, give, Bool.or_self]
/-- BROKEN_USE comes before the instruction's own effect. -/
theorem fire_brokenUse {onNull : Ctx → State} {act : Ctx → Except Trap Fired} (h : MayFire s) (hr : Runs s pr m) (mode : f.pr = pr.toNat)
    (hw : Whole s f) (below : f.row.isLoad = false)
    (hb : f.brokenWhole ((opnd s 0).getD default) ((opnd s 1).getD default) ((opnd s 2).getD default) = true) :
    s.fire f onNull act = .next (traps s (trap tBrokenUse)) := by
  obtain ⟨told, run⟩ := readPred_eq hr
  rw [← mode] at told run
  have hc := ctx_eq f h (hw.l.imp id fun ⟨v, hv, _⟩ => by simp [hv]) (hw.r.imp id fun ⟨v, hv, _⟩ => by simp [hv])
    (hw.x.imp id fun ⟨v, hv, _⟩ => by simp [hv]) told (.inl below)
  have hb' : f.brokenWhole (seen s f).l (seen s f).r (seen s f).t = true := hb
  unfold State.fire
  simp only [hc, run, hw.notNull, hb', Bool.false_eq_true, if_false, if_true]
  rfl
end

/-! ## Acts and landings (R58, R66) -/

section
variable {s : State} {row : Row} {pr : BitVec 2} {m : BitVec 16} {l r t : Value} {reg : BitVec 6} {e : Eff}
  {n wl wr wx : Nat}

/-- A firing whose effect keeps an act for the commit. -/
theorem Fires.keeps {onNull : Ctx → State} {act : Ctx → Except Trap Fired} {a : Act} (h : Fires s (nForm row pr n wl wr wx) pr m l r t)
    (ha : act (ctxOf s row l r t m) = (ctxOf s row l r t m).silent (keep s a)) :
    s.fire (nForm row pr n wl wr wx) onNull act = .next (done (keep s a)) :=
  h.silent ha rfl ((congrArg Blk.phase (blkOf_keep a)).trans h.may.admitted)
/-- A landing effect completes its register, and its request waits for the commit. -/
theorem landing_first (h : MayFire s) (hd : mapGet (blkOf s).regDone reg.toNat = .no) :
    (ctxOf s row l r t m).landing reg e = keep (completes s reg.toNat (.landing (indexOf s) 0 false)) (.effect e) := by
  have phase : ((completes s reg.toNat (.landing (indexOf s) 0 false)).slot s.here.1 s.here.2.1).blk.phase = 2 :=
    (congrArg Blk.phase (blkOf_completes (s := s) reg.toNat (.landing (indexOf s) 0 false))).trans h.admitted
  unfold Ctx.landing
  rw [ctxOf_s, ctxOf_idx, ctxOf_core, ctxOf_slot, complete_first _ hd]
  exact if_neg (by rw [phase]; decide)
/-- A firing whose effect is a landing. -/
theorem Fires.lands {onNull : Ctx → State} {act : Ctx → Except Trap Fired} (h : Fires s (nForm row pr n wl wr wx) pr m l r t)
    (hd : mapGet (blkOf s).regDone reg.toNat = .no)
    (ha : act (ctxOf s row l r t m) = (ctxOf s row l r t m).silent ((ctxOf s row l r t m).landing reg e)) :
    s.fire (nForm row pr n wl wr wx) onNull act = .next (Claims.lands s reg e) := by
  rw [landing_first h.may hd] at ha
  exact h.silent ha rfl ((congrArg Blk.phase (blkOf_keep _)).trans ((congrArg Blk.phase (blkOf_completes _ _)).trans h.may.admitted))

end

/-! ## The checks of R289 -/

theorem capKind_bits (c : Cap) : capKind c = (bitsAt c 124 4).toNat := numAt_eq_bitsAt c 124 4
theorem kind_of_stoOfKind {c : Cap} {k : Sto} (h : stoOfKind (capKind c) = some k) : bitsAt c 124 4 = storeKind k := by
  have all : ∀ b : BitVec 4, stoOfKind b.toNat = some k → b = storeKind k := by cases k <;> decide
  exact all _ (by rw [← capKind_bits]; exact h)

/-- What a capability and an address name (R289). -/
theorem memAddr_eq (v : Value) (a : Word) : memAddr v.cap a = placeOf v a := by simp only [memAddr, placeOf, capKind_bits, capSpace, numAt_eq_bitsAt]

section
variable {s : State} {row : Row} {m : BitVec 16} {v l r t : Value} {kinds wrong perms : List Nat} {n : Nat} {a : Word}

/-- No store lies past its end where R289 lets the access through (R23, R26). -/
theorem not_pastEnd (h : ∀ k, bitsAt v.cap 124 4 = storeKind k → offsetOf a + n ≤ if k = .s then 0xC000 else storeSize k) :
    pastEnd (capKind v.cap) a n = false := by
  unfold pastEnd
  split
  · next k hk =>
    rw [storeEnd_eq, addrOff_eq, decide_eq_false_iff_not, Nat.not_lt]
    exact h k (kind_of_stoOfKind hk)
  · rfl
theorem checkQueued_data (ht : v.tag = .data) : (ctxOf s row l r t m).checkQueued v kinds wrong perms a n = .error (trapCap tTag v.cap) := by
  simp [Ctx.checkQueued, ht]
theorem checkQueued_kind (ht : v.tag = .cap) (hk : capKind v.cap ∉ kinds) (hw : capKind v.cap ∉ wrong) :
    (ctxOf s row l r t m).checkQueued v kinds wrong perms a n = .error (trapCap tTag v.cap) := by
  simp [Ctx.checkQueued, ht, hk, hw]
theorem checkQueued_storeClass (ht : v.tag = .cap) (hw : capKind v.cap ∈ wrong) :
    (ctxOf s row l r t m).checkQueued v kinds wrong perms a n = .error (trapCap tStoreClass v.cap) := by
  simp [Ctx.checkQueued, ht, hw]
/-- The kinds matter to a capability's own kind alone. -/
theorem checkQueued_kinds {kinds' : List Nat} (h : v.tag = .cap → (capKind v.cap ∈ kinds ↔ capKind v.cap ∈ kinds')) :
    (ctxOf s row l r t m).checkQueued v kinds wrong perms a n = (ctxOf s row l r t m).checkQueued v kinds' wrong perms a n := by
  unfold Ctx.checkQueued
  by_cases ht : v.tag = .cap
  · simp only [List.contains_eq_mem, List.mem_append, h ht]
  · simp [ht]

section
variable (ht : v.tag = .cap) (hk : capKind v.cap ∈ kinds) (hw : capKind v.cap ∉ wrong)
include ht hk hw
theorem checkQueued_permission (hp : ∃ p ∈ perms, bitAt v.cap p = false) :
    (ctxOf s row l r t m).checkQueued v kinds wrong perms a n = .error (trapCap tPerm v.cap) := by
  have hp' : (perms.any fun p => !capHas v.cap p) = true := List.any_eq_true.2 (hp.imp fun p h => ⟨h.1, by rw [capHas, h.2]; rfl⟩)
  simp [Ctx.checkQueued, ht, hk, hw, hp']
/-- What is left to check of an access that its capability allows: the core, the alignment, the bounds. -/
theorem checkQueued_allowed (hp : ∀ p ∈ perms, bitAt v.cap p = true) :
    (ctxOf s row l r t m).checkQueued v kinds wrong perms a n =
      if (2 ≤ capKind v.cap ∧ capKind v.cap ≤ 5) ∧ s.router (lodgingOf s) (coreOf a) = none then .error (trapLodging (coreOf a))
      else if a.toNat % n ≠ 0 then .error { code := tAlign, lo := a, hi := BitVec.ofNat 64 n }
      else if (a.toNat < baseOf v.cap ∨ baseOf v.cap + lengthOf v.cap < a.toNat + n) ∨ pastEnd (capKind v.cap) a n = true then
        .error (trapCap tBounds v.cap)
      else .ok () := by
  have hp' : (perms.any fun p => !capHas v.cap p) = false := List.any_eq_false.2 fun p h => by simp [capHas, hp p h]
  have core : (ctxOf s row l r t m).noCore (coreOf a) = true ↔ s.router (lodgingOf s) (coreOf a) = none := Option.isNone_iff_eq_none
  have bounds : capInBounds v.cap a.toNat n = false ↔ a.toNat < baseOf v.cap ∨ baseOf v.cap + lengthOf v.cap < a.toNat + n := by
    rw [capInBounds, capBase_eq, capLimit_eq, Bool.and_eq_false_iff, decide_eq_false_iff_not, decide_eq_false_iff_not, Nat.not_le, Nat.not_le]
  simp [Ctx.checkQueued, ht, hk, hw, hp', addrCore_eq, core, bounds]
end

/-- An access that R289 lets through passes. -/
theorem Queued.check (h : Claims.Queued s v kinds perms n a) (hw : capKind v.cap ∉ wrong) :
    (ctxOf s row l r t m).checkQueued v kinds wrong perms a n = .ok () := by
  obtain ⟨-, -, ht, hk, hp, hc, ha, hlo, hhi, hin⟩ := h
  rw [← capKind_bits] at hk hc
  rw [checkQueued_allowed ht hk hw hp]
  refine (if_neg fun c => ?_).trans ((if_neg fun c => c ha).trans (if_neg fun c => ?_))
  · exact Option.isSome_iff_ne_none.1 (hc c.1.1 c.1.2) c.2
  · rw [not_pastEnd hin] at c
    simp only [Bool.false_eq_true, or_false] at c
    omega
/-- An instruction that faults as the checks say has the faults of a queued access. -/
theorem queuedFaults_of {out : Out} (apart : ∀ k ∈ kinds, k ∉ wrong) (broken : v.tag = .broken → out = .next (traps s (trap tBrokenUse)))
    (faults : v.tag ≠ .broken → ∀ e, e.code ≠ tAway → (ctxOf s row l r t m).checkQueued v kinds wrong perms a n = .error e →
      out = .next (traps s e)) : QueuedFaults s v kinds wrong perms n a out := by
  unfold QueuedFaults
  rw [← capKind_bits]
  refine ⟨broken, fun ht => ?_, fun ht => ?_⟩
  · exact faults (by simp [ht]) _ (show tTag ≠ tAway by decide) (checkQueued_data ht)
  have faults := faults (by simp [ht])
  refine ⟨fun hk hw => ?_, fun hw => ?_, fun hk hp => ?_, fun hk hp => ?_⟩
  · exact faults _ (show tTag ≠ tAway by decide) (checkQueued_kind ht hk hw)
  · exact faults _ (show tStoreClass ≠ tAway by decide) (checkQueued_storeClass ht hw)
  · exact faults _ (show tPerm ≠ tAway by decide) (checkQueued_permission ht hk (apart _ hk) hp)
  have allowed := checkQueued_allowed (s := s) (row := row) (m := m) (l := l) (r := r) (t := t) (n := n) (a := a) ht hk (apart _ hk) hp
  dsimp only
  refine ⟨fun hc => ?_, fun hc ha => ?_, fun hc ha hb => ?_⟩
  · rw [Classical.not_imp, Bool.not_eq_true, Option.isSome_eq_false_iff, Option.isNone_iff_eq_none] at hc
    exact faults _ (show tLodging ≠ tAway by decide) (allowed.trans (if_pos hc))
  all_goals
    have here : ¬ ((2 ≤ capKind v.cap ∧ capKind v.cap ≤ 5) ∧ s.router (lodgingOf s) (coreOf a) = none) :=
      fun c => Option.isSome_iff_ne_none.1 (hc c.1) c.2
    rw [if_neg here] at allowed
  · exact faults _ (show tAlign ≠ tAway by decide) (allowed.trans (if_pos ha))
  · exact faults _ (show tBounds ≠ tAway by decide) (allowed.trans ((if_neg fun c => c ha).trans (if_pos (.inl hb))))

end

end Sys2Proof.Claims
end

section
/-! SUPPORT. QLD and QST when they fire (R104, R119, R289 to R291; logs 28 and 70): each is a firing behind the checks of `Ctx.checkQueued`. -/

namespace Sys2Proof.Claims
open Sys2Proof.Machine

/-! ## Widths, addresses and the request of a store (R104, R290, R291) -/

theorem bytesOfCode_eq {w : BitVec 5} (h : w.toNat ≤ 8) : widthBytes w.toNat = bytesOfCode w := by
  unfold bytesOfCode
  generalize w.toNat = k at h ⊢
  interval_cases k <;> rfl

section
variable {s : State} {row : Row} {pr : BitVec 2} {m : BitVec 16} {v x l r t : Value} {w : BitVec 5}

theorem scaled_eq (off : Word) (hw : w.toNat ≤ 8) :
    (ctxOf s row v r t m).scaled off w.toNat = v.scalar + off * BitVec.ofNat 64 (bytesOfCode w) := by
  rw [Ctx.scaled, ctxOf_l, capAddr_eq, bytesOfCode_eq hw]

/-- The request of a queued store of a value whose lanes let it issue one (R291). -/
def storeOf (w : BitVec 5) (x : Value) : List (Option Byte) × Option Bool :=
  ((List.range (bytesOfCode w)).map fun i => if bitAt x.valid (i / 4) then some (bitsAt x.bits (8 * i) 8) else none,
    if w.toNat = 8 then some (decide (x.tag = .cap)) else none)
/-- The lanes that a queued store reads: two of a number, all sixteen of 64 bytes, four of a capability. -/
def storeLanes (w : Nat) : BitVec 16 := if w = 7 then allLanes else if w = 8 then 15 else 3
/-- It reads the lane of each byte that it writes. -/
theorem bitAt_storeLanes {k i : Nat} (hk : k ≤ 8) (hi : i < widthBytes k) : bitAt (storeLanes k) (i / 4) = true := by
  have two : ∀ j < 2, bitAt (3 : BitVec 16) j = true := by decide
  have four : ∀ j < 4, bitAt (15 : BitVec 16) j = true := by decide
  have all : ∀ j < 16, bitAt allLanes j = true := by decide
  rcases (by omega : k < 7 ∨ k = 7 ∨ k = 8) with h | rfl | rfl
  · have eight : widthBytes k ≤ 8 := by interval_cases k <;> decide
    rw [storeLanes, if_neg (by omega), if_neg (by omega)]
    exact two _ (by omega)
  · exact all _ (by change i < 64 at hi; omega)
  · exact four _ (by change i < 16 at hi; omega)
/-- A value has a lane to write: both lanes of a number, one of 64 bytes, one of a capability. -/
theorem storeLanes_some (hw : w.toNat ≤ 8) (number : w.toNat < 7 → bitsAt x.valid 0 2 = 3#2) (line : w.toNat = 7 → x.valid ≠ 0)
    (cap : w.toNat = 8 → x.valid &&& 15 ≠ 0) : x.valid &&& storeLanes w.toNat ≠ 0 := by
  unfold storeLanes
  rcases (by omega : w.toNat < 7 ∨ w.toNat = 7 ∨ w.toNat = 8) with e | e | e
  · rw [if_neg (by omega), if_neg (by omega)]
    have both : x.valid &&& 3 = 3 := (scalarMask_iff _).2 (number e)
    rw [both]
    decide
  · rw [if_pos e, BitVec.and_comm, allLanes_and]
    exact line e
  · rw [if_neg (by omega), if_pos e]
    exact cap e
/-- A value with a lane to write, both for a number, issues its request. -/
theorem qstBytes_issues (hw : w.toNat ≤ 8) (some_ : x.valid &&& storeLanes w.toNat ≠ 0) (both : w.toNat < 7 → bitsAt x.valid 0 2 = 3#2) :
    qstBytes w.toNat x = some (storeOf w x) := by
  have lanes : ¬ (x.valid &&& storeLanes w.toNat = 0 ∨ w.toNat < 7 ∧ x.valid &&& storeLanes w.toNat ≠ storeLanes w.toNat) := by
    rintro (h | ⟨h7, h⟩)
    · exact some_ h
    · rw [storeLanes, if_neg (by omega), if_neg (by omega)] at h
      exact h ((scalarMask_iff _).2 (both h7))
  refine (if_neg lanes).trans (congrArg some (Prod.ext ?_ (if_congr Iff.rfl (by rw [beq_eq_decide]) rfl)))
  show (List.range (widthBytes w.toNat)).map _ = _
  rw [storeOf, bytesOfCode_eq hw]
  refine List.map_congr_left fun i hi => ?_
  have read := bitAt_storeLanes hw (bytesOfCode_eq hw ▸ List.mem_range.1 hi)
  show (if bitAt (x.valid &&& storeLanes w.toNat) (i / 4) = true then _ else _) = _
  rw [bitAt, BitVec.getLsbD_and, show (storeLanes w.toNat).getLsbD (i / 4) = true from read, Bool.and_true]
  rfl
/-- A number with one of lanes 0 and 1 null issues nothing (log 70). -/
theorem qstBytes_nothing (hw : w.toNat < 7) (h : bitsAt x.valid 0 2 ≠ 3#2) : qstBytes w.toNat x = none := by
  refine if_pos (.inr ⟨hw, fun c => h ((scalarMask_iff _).1 ?_)⟩)
  rwa [if_neg (by omega), if_neg (by omega)] at c

/-! ## QLD (R290) -/

/-- QLD: the checks, then the landing. -/
theorem exec_qld (reg : BitVec 6) (off : BitVec 12) : exec (.qld pr reg w off) s =
    s.fire (nForm .qld pr 1 4 0 0) (nullLanding reg.toNat) fun c =>
      c.checkQueued c.l [1, 10, 2, 3, 4, 5] [] [pLoad] (c.scaled (sext64 off) w.toNat) (widthBytes w.toNat) >>= fun _ =>
        c.silent (c.landing reg
          (.mem (some reg.toNat) (memAddr c.l.cap (c.scaled (sext64 off) w.toNat)) (.load w.toNat (capHas c.l.cap pLoadCap)))) := by
  show execQld pr reg w off s = _
  refine congrArg (s.fire _ _) (funext fun c => ?_)
  dsimp only
  cases c.checkQueued c.l [1, 10, 2, 3, 4, 5] [] [pLoad] (c.scaled (sext64 off) w.toNat) (widthBytes w.toNat) <;> rfl

section
variable (h : MayFire s) (hr : Runs s pr m) (gv : Given s 0 v) (hv : capOk v = true)
include h hr gv hv

theorem fires_qld (hb : v.tag ≠ .broken) : Fires s (nForm .qld pr 1 4 0 0) pr m v ((opnd s 1).getD default) ((opnd s 2).getD default) :=
  .one h hr rfl rfl rfl gv (.inr ((capOk_eq v).trans hv)) (fun _ _ => by simp [Form.brokenWhole, nForm, hb]) (.inl rfl)
/-- QLD faults as the checks say. -/
theorem qld_faults (hw : w.toNat ≤ 8) (reg : BitVec 6) (off : BitVec 12) :
    QueuedFaults s v [1, 10, 2, 3, 4, 5] [] [123] (bytesOfCode w) (v.scalar + off.signExtend 64 * BitVec.ofNat 64 (bytesOfCode w))
      (exec (.qld pr reg w off) s) := by
  rw [exec_qld]
  refine queuedFaults_of (row := .qld) (m := m) (l := v) (r := (opnd s 1).getD default) (t := (opnd s 2).getD default) (by decide)
    (fun hb => ?_) fun hb e he hc => ?_
  · refine fire_brokenUse h hr rfl ⟨.inr (gv.counts (.inr ((capOk_eq v).trans hv))), .inl Nat.one_lt_two,
      .inl (Nat.lt_succ_of_lt Nat.one_lt_two), .inl rfl⟩ rfl ?_
    rw [gv.read]
    simp [Form.brokenWhole, nForm, hb]
  · refine (fires_qld h hr gv hv hb).error ?_ he
    simp only [scaled_eq _ hw, bytesOfCode_eq hw]
    exact congrArg (· >>= _) hc
end
/-- QLD marks its register and keeps its request. -/
theorem qld_lands (h : MayFire s) (hr : Runs s pr m) (hw : w.toNat ≤ 8) (reg : BitVec 6) (off : BitVec 12)
    (hq : Claims.Queued s v [1, 10, 2, 3, 4, 5] [123] (bytesOfCode w) (v.scalar + off.signExtend 64 * BitVec.ofNat 64 (bytesOfCode w)))
    (hd : mapGet (blkOf s).regDone reg.toNat = .no) : exec (.qld pr reg w off) s = .next (lands s reg (.mem (some reg.toNat)
      (placeOf v (v.scalar + off.signExtend 64 * BitVec.ofNat 64 (bytesOfCode w))) (.load w.toNat (bitAt v.cap 121)))) := by
  rw [exec_qld]
  refine (fires_qld h hr hq.given hq.whole (by rw [hq.tagged]; decide)).lands hd ?_
  simp only [scaled_eq _ hw, bytesOfCode_eq hw]
  refine (congrArg (· >>= _) (hq.check (by simp))).trans ?_
  rw [ctxOf_l, memAddr_eq]
  rfl

/-! ## QST (R291) -/

/-- An activity may not store a capability in part (R291). -/
abbrev PartOfCap (w : BitVec 5) (x : Value) : Prop := w.toNat = 8 ∧ x.tag = .cap ∧ x.valid &&& 15 ≠ 15 ∧ x.valid &&& 15 ≠ 0
/-- A capability-sized store through a capability on the host's memory, kind 10 (R291). -/
abbrev CapToHost (w : BitVec 5) (v : Value) : Prop := w.toNat = 8 ∧ v.tag = .cap ∧ capKind v.cap = 10
/-- What a queued store does with a value that it may store: the checks of R289, then its request (R291). -/
def storeEffect (w : BitVec 5) (imm : BitVec 18) (c : Ctx) : Except Trap Fired :=
  let a := c.scaled (wideField c.x.blk.words c.idx 18 imm) w.toNat
  c.checkQueued c.l (if w.toNat = 8 then [1, 10, 3, 5] else [1, 10, 3, 4, 5]) (if w.toNat = 8 then [2, 4] else [2])
      (if w.toNat = 8 ∧ c.r.tag = .cap then [122, 120] else [122]) a (widthBytes w.toNat) >>= fun _ =>
    c.silent ((qstBytes w.toNat c.r).elim c.s fun p => c.act (.effect (.mem none (memAddr c.l.cap a) (.store p.1 p.2))))

/-- Two effects that agree on what the firing sees. -/
theorem Fires.congr {f : Form} {onNull : Ctx → State} {act act' : Ctx → Except Trap Fired} (h : Fires s f pr m l r t)
    (ha : act (ctxOf s f.row l r t m) = act' (ctxOf s f.row l r t m)) : s.fire f onNull act = s.fire f onNull act' := by
  obtain ⟨may, runs, mode, whole, rfl, rfl, rfl, usable, below⟩ := h
  have ha' : act { seen s f with mask := m } = act' { seen s f with mask := m } := ha
  rw [fire_run onNull act may runs mode whole usable below, fire_run onNull act' may runs mode whole usable below, ha']
/-- QST: its value, a capability to the host's memory, then the checks and the request. -/
theorem exec_qst (imm : BitVec 18) : exec (.qst pr w imm) s = s.fire (nForm .qst pr 2 4 0 0) plainNull fun c =>
    if c.r.tag = .broken then .error (trap tBrokenUse)
    else if PartOfCap w c.r ∧ c.l.tag = .cap ∧ capKind c.l.cap ∈ [1, 10, 2, 3, 4, 5] then .error (trapCap tTag c.r.cap)
    else if CapToHost w c.l then .error (trapCap tPerm c.l.cap)
    else storeEffect w imm c := by
  show execQst pr w imm s = _
  refine congrArg (s.fire _ _) (funext fun c => ?_)
  refine if_congr beq_iff_eq rfl (if_congr ?_ rfl (if_congr ?_ rfl ?_))
  · simp [PartOfCap, and_assoc]
  · simp [CapToHost, and_assoc]
  · unfold storeEffect
    dsimp only
    have perms : (if (w.toNat == 8 && c.r.tag == .cap) = true then [pStore, pStoreCap] else [pStore]) =
      if w.toNat = 8 ∧ c.r.tag = .cap then [122, 120] else [122] := if_congr (by simp) rfl rfl
    simp only [perms, beq_iff_eq]
    cases c.checkQueued _ _ _ _ _ _
    · rfl
    · cases qstBytes w.toNat c.r <;> rfl

/-- The address of a queued store (R291). -/
def storeAddress (s : State) (v : Value) (w : BitVec 5) (imm : BitVec 18) : Word := v.scalar + signedImm s imm * BitVec.ofNat 64 (bytesOfCode w)
/-- The kinds that a queued store goes through, those whose store refuses it, and the permissions that it asks for (R291). -/
def storeKinds (w : BitVec 5) : List Nat := if w.toNat = 8 then [1, 3, 5] else [1, 10, 3, 4, 5]
def storeWrong (w : BitVec 5) : List Nat := if w.toNat = 8 then [2, 4] else [2]
def storePerms (w : BitVec 5) (x : Value) : List Nat := if w.toNat = 8 ∧ x.tag = .cap then [122, 120] else [122]
theorem storeKinds_apart : ∀ k ∈ storeKinds w, k ∉ storeWrong w := by
  unfold storeKinds storeWrong
  split <;> decide
/-- The effect of a queued store that is not one of a capability to the host, in the terms of R291. -/
theorem storeEffect_eq (imm : BitVec 18) (hw : w.toNat ≤ 8) (hh : ¬ CapToHost w v) : storeEffect w imm (ctxOf s .qst v x t m) =
    ((ctxOf s .qst v x t m).checkQueued v (storeKinds w) (storeWrong w) (storePerms w x) (storeAddress s v w imm) (bytesOfCode w) >>= fun _ =>
      (ctxOf s .qst v x t m).silent ((qstBytes w.toNat x).elim s fun p =>
        keep s (.effect (.mem none (placeOf v (storeAddress s v w imm)) (.store p.1 p.2))))) := by
  have same : v.tag = .cap → (capKind v.cap ∈ (if w.toNat = 8 then [1, 10, 3, 5] else [1, 10, 3, 4, 5]) ↔ capKind v.cap ∈ storeKinds w) := by
    intro ht
    unfold storeKinds
    split
    · next h8 =>
      have h10 : capKind v.cap ≠ 10 := fun h10 => hh ⟨h8, ht, h10⟩
      simp [h10]
    · rfl
  unfold storeEffect
  simp only [ctxOf_l, ctxOf_r, ctxOf_s, ctxOf_blk, ctxOf_idx, wideField_eq, scaled_eq _ hw, bytesOfCode_eq hw, memAddr_eq]
  exact congrArg (· >>= _) (checkQueued_kinds same)

section
variable (h : MayFire s) (hr : Runs s pr m) (gv : Given s 0 v) (hv : capOk v = true) (gx : Given s 1 x) (imm : BitVec 18)
include h hr gv hv gx

theorem fires_qst (hb : v.tag ≠ .broken) : Fires s (nForm .qst pr 2 4 0 0) pr m v x ((opnd s 2).getD default) :=
  .two h hr rfl rfl rfl gv (.inr ((capOk_eq v).trans hv)) gx (.inl rfl) (fun _ => by simp [Form.brokenWhole, nForm, hb]) rfl
theorem qst_brokenAddress (hb : v.tag = .broken) : exec (.qst pr w imm) s = .next (traps s (trap tBrokenUse)) := by
  rw [exec_qst]
  refine fire_brokenUse h hr rfl ⟨.inr (gv.counts (.inr ((capOk_eq v).trans hv))), .inr (gx.counts (.inl rfl)),
    .inl (Nat.lt_succ_self 2), .inl rfl⟩ rfl ?_
  rw [gv.read]
  simp [Form.brokenWhole, nForm, hb]
theorem qst_brokenValue (hx : x.tag = .broken) : exec (.qst pr w imm) s = .next (traps s (trap tBrokenUse)) := by
  by_cases hb : v.tag = .broken
  · exact qst_brokenAddress h hr gv hv gx imm hb
  · rw [exec_qst]
    exact (fires_qst h hr gv hv gx hb).error (if_pos hx) (by decide)
theorem qst_partial (hp : PartOfCap w x) (ht : v.tag = .cap) (hk : capKind v.cap ∈ [1, 10, 2, 3, 4, 5]) :
    exec (.qst pr w imm) s = .next (traps s (trapCap tTag x.cap)) := by
  rw [exec_qst]
  have hx : x.tag ≠ .broken := by simp [hp.2.1]
  exact (fires_qst h hr gv hv gx (by simp [ht])).error ((if_neg hx).trans (if_pos ⟨hp, ht, hk⟩)) (show tTag ≠ tAway by decide)

variable (hx : x.tag ≠ .broken) (hp : ¬ PartOfCap w x)
include hx hp

theorem qst_toHost (hh : CapToHost w v) : exec (.qst pr w imm) s = .next (traps s (trapCap tPerm v.cap)) := by
  rw [exec_qst]
  exact (fires_qst h hr gv hv gx (by simp [hh.2.1])).error ((if_neg hx).trans ((if_neg fun c => hp c.1).trans (if_pos hh)))
    (show tPerm ≠ tAway by decide)

variable (hh : ¬ CapToHost w v)
include hh

/-- QST of a value that it may store. -/
theorem qst_stores (hb : v.tag ≠ .broken) : exec (.qst pr w imm) s = s.fire (nForm .qst pr 2 4 0 0) plainNull (storeEffect w imm) := by
  rw [exec_qst]
  exact (fires_qst h hr gv hv gx hb).congr ((if_neg hx).trans ((if_neg fun c => hp c.1).trans (if_neg hh)))
/-- It faults as the checks say. -/
theorem qst_faults (hw : w.toNat ≤ 8) : QueuedFaults s v (storeKinds w) (storeWrong w) (storePerms w x) (bytesOfCode w) (storeAddress s v w imm)
    (exec (.qst pr w imm) s) := by
  refine queuedFaults_of (row := .qst) (m := m) (l := v) (r := x) (t := (opnd s 2).getD default) storeKinds_apart
    (qst_brokenAddress h hr gv hv gx imm) fun hb e he hc => ?_
  rw [qst_stores h hr gv hv gx imm hx hp hh hb]
  exact (fires_qst h hr gv hv gx hb).error ((storeEffect_eq imm hw hh).trans (congrArg (· >>= _) hc)) he
end

section
variable (h : MayFire s) (hr : Runs s pr m) (gx : Given s 1 x) (imm : BitVec 18) (hx : x.tag ≠ .broken) (hp : ¬ PartOfCap w x) (hw : w.toNat ≤ 8)
  (hq : Claims.Queued s v (storeKinds w) (storePerms w x) (bytesOfCode w) (storeAddress s v w imm))
include h hr gx hx hp hw hq

/-- An access that R289 lets through leaves the store's request, or nothing. -/
theorem qst_fires : exec (.qst pr w imm) s = .next (done ((qstBytes w.toNat x).elim s fun p =>
    keep s (.effect (.mem none (placeOf v (storeAddress s v w imm)) (.store p.1 p.2))))) := by
  have hb : v.tag ≠ .broken := by simp [hq.tagged]
  have hk := hq.kind
  rw [← capKind_bits] at hk
  have hh : ¬ CapToHost w v := fun ⟨h8, _, h10⟩ => by simp [storeKinds, h8, h10] at hk
  rw [qst_stores h hr hq.given hq.whole gx imm hx hp hh hb]
  refine (fires_qst h hr hq.given hq.whole gx hb).silent
    ((storeEffect_eq imm hw hh).trans (congrArg (· >>= _) (hq.check (storeKinds_apart _ hk)))) ?_ ?_
  · cases qstBytes w.toNat x <;> rfl
  · cases qstBytes w.toNat x
    · exact h.admitted
    · exact (congrArg Blk.phase (blkOf_keep _)).trans h.admitted
end
end

end Sys2Proof.Claims
end

section
/-! The obligations O22 and O23: the atomics (R106, R292), and what the firings of queued accesses and fences come to (R104, R107, R289 to R293). -/

namespace Sys2Proof.Claims
open Sys2Proof.Machine

/-! ## Atomics (R106, R292) -/

section
variable {s : State} {row : Row} {pr : BitVec 2} {m : BitVec 16} {v x y l r t : Value} {reg : BitVec 6} {op w order scope : Nat}

/-- The bytes of an atomic's width code. -/
def atomicBytes (w : Nat) : Nat := if w % 2 = 0 then 4 else 8
theorem atomicBytes_bit (w : BitVec 1) : (if w = 0 then 4 else 8) = atomicBytes w.toNat := by
  have all : ∀ w : BitVec 1, (if w = 0 then 4 else 8) = atomicBytes w.toNat := by decide
  exact all w
/-- An atomic faults as the checks say. -/
theorem amo_error {e : Trap} (hx : x.tag ≠ .broken) (hy : y.tag ≠ .broken)
    (hc : (ctxOf s row v r t m).checkQueued v [1, 10, 5] [2, 3, 4] [123, 122] v.scalar (atomicBytes w) = .error e) :
    (ctxOf s row v r t m).amo reg op w order scope x y = .error e := by
  rw [← capAddr_eq] at hc
  refine (if_neg (by simp [hx, hy])).trans ?_
  have hc' : (ctxOf s row v r t m).checkQueued v [1, 10, 5] [2, 3, 4] [pLoad, pStore] (capAddr v.cap) (if w % 2 = 0 then 4 else 8) =
    .error e := hc
  simp only [ctxOf_l, hc']
/-- An atomic that R289 lets through is a landing. -/
theorem amo_lands (hx : x.tag ≠ .broken) (hy : y.tag ≠ .broken) (hq : Claims.Queued s v [1, 10, 5] [123, 122] (atomicBytes w) v.scalar) :
    (ctxOf s row v r t m).amo reg op w order scope x y = (ctxOf s row v r t m).silent ((ctxOf s row v r t m).landing reg
      (.mem (some reg.toNat) (placeOf v v.scalar) (.amo op w order scope x.scalar y.scalar))) := by
  have hk := hq.kind
  rw [← capKind_bits] at hk
  have apart : ∀ k ∈ [1, 10, 5], k ∉ [2, 3, 4] := by decide
  have hc : (ctxOf s row v r t m).checkQueued v [1, 10, 5] [2, 3, 4] [pLoad, pStore] v.scalar (if w % 2 = 0 then 4 else 8) = .ok () :=
    hq.check (apart _ hk)
  refine (if_neg (by simp [hx, hy])).trans ?_
  simp only [ctxOf_l, capAddr_eq, hc, memAddr_eq]

/-- Instruction `i` is atomic operation `op` through `v`, on value `x` and comparand `y` (R106, R292). -/
structure Operates (s : State) (i : Instr) (reg : BitVec 6) (op w order scope : Nat) (v x y : Value) : Prop where
  broken : v.tag = .broken ∨ x.tag = .broken ∨ y.tag = .broken → exec i s = .next (traps s (trap tBrokenUse))
  fires : v.tag ≠ .broken → x.tag ≠ .broken → y.tag ≠ .broken → ∃ row pr n wl wr wx m r t onNull act,
    Fires s (nForm row pr n wl wr wx) pr m v r t ∧ exec i s = s.fire (nForm row pr n wl wr wx) onNull act ∧
      act (ctxOf s row v r t m) = (ctxOf s row v r t m).amo reg op w order scope x y

section
variable {i : Instr} (h : Operates s i reg op w order scope v x y)
include h

theorem Operates.faults (hx : x.tag ≠ .broken) (hy : y.tag ≠ .broken) :
    QueuedFaults s v [1, 10, 5] [2, 3, 4] [123, 122] (atomicBytes w) v.scalar (exec i s) := by
  refine queuedFaults_of (row := .aad) (m := 0) (l := v) (r := x) (t := y) (by decide) (fun hb => h.broken (.inl hb)) fun hb e he hc => ?_
  obtain ⟨row, pr, n, wl, wr, wx, m, r, t, onNull, act, hf, hi, ha⟩ := h.fires hb hx hy
  rw [hi]
  exact hf.error (ha.trans (amo_error hx hy hc)) he
theorem Operates.lands (hx : x.tag ≠ .broken) (hy : y.tag ≠ .broken) (hq : Claims.Queued s v [1, 10, 5] [123, 122] (atomicBytes w) v.scalar)
    (hd : mapGet (blkOf s).regDone reg.toNat = .no) :
    exec i s = .next (lands s reg (.mem (some reg.toNat) (placeOf v v.scalar) (.amo op w order scope x.scalar y.scalar))) := by
  obtain ⟨row, pr, n, wl, wr, wx, m, r, t, onNull, act, hf, hi, ha⟩ := h.fires (by simp [hq.tagged]) hx hy
  rw [hi]
  exact hf.lands hd (ha.trans (amo_lands hx hy hq))
end

/-- The rows of the atomics. -/
def atomicRows : List Row := [.aad, .aswp, .acas, .amin, .amax, .aminn, .amaxn, .aand, .aor, .axor]
/-- They read their operands whole, and are no loads of R60. -/
theorem atomicRows_plain : ∀ row ∈ atomicRows, (row == .cusGive) = false ∧ row.isLoad = false ∧
    (row != .brc && row != .ret && row != .callc) = true := by decide
/-- An instruction that takes its address in L and its value in R is atomic operation `op`. -/
def IsAtomic {n : Nat} (mk : BitVec 2 → BitVec 6 → BitVec n → BitVec 2 → BitVec 2 → Instr) (op : Nat) : Prop :=
  ∃ row ∈ atomicRows, ∀ pr reg w scope order s, exec (mk pr reg w scope order) s =
    s.fire (nForm row pr 2 4 2 0) (nullLanding reg.toNat) fun c => c.amo reg op w.toNat order.toNat scope.toNat c.r c.r
theorem isAtomic_aad : IsAtomic .aad 0 := ⟨.aad, by decide, fun _ _ _ _ _ _ => rfl⟩
theorem isAtomic_aswp : IsAtomic .aswp 1 := ⟨.aswp, by decide, fun _ _ _ _ _ _ => rfl⟩
theorem isAtomic_amin : IsAtomic .amin 3 := ⟨.amin, by decide, fun _ _ _ _ _ _ => rfl⟩
theorem isAtomic_amax : IsAtomic .amax 4 := ⟨.amax, by decide, fun _ _ _ _ _ _ => rfl⟩
theorem isAtomic_aminn : IsAtomic .aminn 5 := ⟨.aminn, by decide, fun _ _ _ _ _ _ => rfl⟩
theorem isAtomic_amaxn : IsAtomic .amaxn 6 := ⟨.amaxn, by decide, fun _ _ _ _ _ _ => rfl⟩
theorem isAtomic_aand : IsAtomic .aand 7 := ⟨.aand, by decide, fun _ _ _ _ _ _ => rfl⟩
theorem isAtomic_aor : IsAtomic .aor 8 := ⟨.aor, by decide, fun _ _ _ _ _ _ => rfl⟩
theorem isAtomic_axor : IsAtomic .axor 9 := ⟨.axor, by decide, fun _ _ _ _ _ _ => rfl⟩
theorem atomics_isAtomic : ∀ mk ∈ atomics, ∃ op, IsAtomic mk op := by
  simp only [atomics, List.forall_mem_cons, List.not_mem_nil, false_implies, implies_true, and_true]
  exact ⟨⟨_, isAtomic_aswp⟩, ⟨_, isAtomic_amin⟩, ⟨_, isAtomic_amax⟩, ⟨_, isAtomic_aminn⟩, ⟨_, isAtomic_amaxn⟩, ⟨_, isAtomic_aand⟩,
    ⟨_, isAtomic_aor⟩, ⟨_, isAtomic_axor⟩⟩

theorem exec_acas (w : BitVec 1) (scope order : BitVec 2) : exec (.acas pr reg w scope order) s =
    s.fire (nForm .acas pr 3 4 2 2) (nullLanding reg.toNat) fun c => c.amo reg 2 w.toNat order.toNat scope.toNat c.t c.r := rfl

section
variable (h : MayFire s) (hr : Runs s pr m) (gv : Given s 0 v) (hv : capOk v = true) (gx : Given s 1 x) (hx : scalarOk x = true)
  (scope order : BitVec 2)
include h hr gv hv gx hx

theorem IsAtomic.operates {n : Nat} {mk : BitVec 2 → BitVec 6 → BitVec n → BitVec 2 → BitVec 2 → Instr} (hm : IsAtomic mk op) (w : BitVec n) :
    Operates s (mk pr reg w scope order) reg op w.toNat order.toNat scope.toNat v x x := by
  obtain ⟨row, hrow, he⟩ := hm
  obtain ⟨hg, hl, hc⟩ := atomicRows_plain row hrow
  have wv := (capOk_eq v).trans hv
  have wx := (scalarOk_eq x).trans hx
  refine ⟨fun hb => ?_, fun hb hx _ => ⟨row, pr, 2, 4, 2, 0, m, x, (opnd s 2).getD default, _, _,
    .two h hr rfl rfl hg gv (.inr wv) gx (.inr wx) (fun _ => by simp [Form.brokenWhole, nForm, hb, hx]) hl, he .., rfl⟩⟩
  rw [he]
  refine fire_brokenUse h hr rfl ⟨.inr (gv.counts (.inr wv)), .inr (gx.counts (.inr wx)), .inl (Nat.lt_succ_self 2), .inl hg⟩ hl ?_
  rw [gv.read, gx.read]
  simp only [Form.brokenWhole, nForm, hc]
  rcases hb with hb | hb | hb <;> simp [hb]
/-- ACAS takes its comparand in R and its value in X. -/
theorem acas_operates (w : BitVec 1) (gy : Given s 2 y) (hy : scalarOk y = true) :
    Operates s (.acas pr reg w scope order) reg 2 w.toNat order.toNat scope.toNat v y x := by
  have wv := (capOk_eq v).trans hv
  have wx := (scalarOk_eq x).trans hx
  have wy := (scalarOk_eq y).trans hy
  refine ⟨fun hb => ?_, fun hb hy hx => ⟨.acas, pr, 3, 4, 2, 2, m, x, y, _, _,
    .three h hr rfl rfl gv (.inr wv) gx (.inr wx) gy (.inr wy) (by simp [Form.brokenWhole, nForm, hb, hx, hy]) rfl, exec_acas .., rfl⟩⟩
  rw [exec_acas]
  refine fire_brokenUse h hr rfl ⟨.inr (gv.counts (.inr wv)), .inr (gx.counts (.inr wx)),
    .inr (gy.counts (.inr wy)), .inl rfl⟩ rfl ?_
  rw [gv.read, gx.read, gy.read]
  rcases hb with hb | hb | hb <;> simp [Form.brokenWhole, nForm, hb]
end
end

/-- Settles O22: QLD, QST and the atomics are firings that fault as `Ctx.checkQueued` says, behind the checks of their values, and leave their
request where it lets them through. -/
theorem queuedLoadsAndStores : Obligations.QueuedLoadsAndStores := by
  refine ⟨fun s pr v x h hr gv hv => ⟨fun reg w off hw => qld_faults h hr gv hv hw reg off, fun gx w imm hw => ?_,
      fun gx hx reg scope order => ?_⟩,
    fun s pr w v h hr hw => ⟨fun reg off => qld_lands h hr hw reg off, fun imm x gx hb h7 h8 h9 hq => ?_, fun imm x gx ht h7 hn hq => ?_⟩⟩
  · refine ⟨qst_brokenValue h hr gv hv gx imm, fun h8 ht hk hc h0 h15 => ?_, fun hx => ?_⟩
    · exact qst_partial h hr gv hv gx imm ⟨h8, hc, h15, h0⟩ ht (by rwa [capKind_bits])
    · have usable : x.tag ≠ .broken := by rcases hx with hx | ⟨hx, -⟩ <;> simp [hx]
      have whole : ¬ PartOfCap w x := by
        rintro ⟨h8, hc, h15, -⟩
        rcases hx with hx | ⟨-, hx | hx⟩
        · simp [hx] at hc
        · omega
        · exact h15 hx
      refine ⟨fun h8 ht hk => qst_toHost h hr gv hv gx imm usable whole ⟨h8, ht, by rwa [capKind_bits]⟩, fun hh => ?_⟩
      exact qst_faults h hr gv hv gx imm usable whole (by rwa [CapToHost, capKind_bits]) hw
  · refine ⟨fun mk hm w => ?_, fun w => ?_, fun w y gy hy => ?_⟩
    · obtain ⟨op, hm⟩ := atomics_isAtomic mk hm
      have ho := hm.operates (reg := reg) h hr gv hv gx hx scope order w
      exact ⟨fun hb => ho.broken (.inr (.inl hb)), fun hb => atomicBytes_bit w ▸ ho.faults hb hb⟩
    · have ho := isAtomic_aad.operates (reg := reg) h hr gv hv gx hx scope order w
      exact ⟨fun hb => ho.broken (.inr (.inl hb)), fun hb => ho.faults hb hb⟩
    · have ho := acas_operates (reg := reg) h hr gv hv gx hx scope order w gy hy
      exact ⟨fun hb => ho.broken (.inr hb.symm), fun hb hc => atomicBytes_bit w ▸ ho.faults hc hb⟩
  · have whole : ¬ PartOfCap w x := fun ⟨e8, hc, h15, _⟩ => h15 ((h9 e8).2 hc)
    refine (qst_fires h hr gx imm hb whole hw hq).trans ?_
    rw [qstBytes_issues hw (storeLanes_some hw h7 h8 fun e8 => (h9 e8).1) h7]
    rfl
  · have whole : ¬ PartOfCap w x := fun ⟨e8, _⟩ => by omega
    have e8 : w.toNat ≠ 8 := by omega
    have hq' : Claims.Queued s v (storeKinds w) (storePerms w x) (bytesOfCode w) (storeAddress s v w imm) := by
      rw [storeKinds, storePerms, if_neg e8, if_neg fun c => e8 c.1]
      exact hq
    refine (qst_fires h hr gx imm (by simp [ht]) whole hw hq').trans ?_
    rw [qstBytes_nothing h7 hn]
    rfl

/-- Settles O23: an atomic is a landing, and a fence keeps its act. -/
theorem atomicsAndFencesFire : Obligations.AtomicsAndFencesFire := by
  have atomic {mk : BitVec 2 → BitVec 6 → BitVec 1 → BitVec 2 → BitVec 2 → Instr} {op : Nat} (hm : IsAtomic mk op) : Atomic mk op :=
    fun s pr reg w scope order v x h hr hq hx hd =>
      (hm.operates h hr hq.given hq.whole hx.given hx.whole scope order w).lands hx.usable hx.usable (atomicBytes_bit w ▸ hq) hd
  refine ⟨⟨fun s pr reg w scope order v x h hr hq hx hd => ?_, atomic isAtomic_aswp, atomic isAtomic_amin, atomic isAtomic_amax,
    atomic isAtomic_aminn, atomic isAtomic_amaxn, atomic isAtomic_aand, atomic isAtomic_aor, atomic isAtomic_axor,
    fun s pr reg w scope order v e x h hr hq he hx hd => ?_⟩, fun s pr scope h hr => ?_⟩
  · exact (isAtomic_aad.operates h hr hq.given hq.whole hx.given hx.whole scope order w).lands hx.usable hx.usable hq hd
  · have ho := acas_operates (reg := reg) h hr hq.given hq.whole he.given he.whole scope order w hx.given hx.whole
    exact ho.lands hx.usable he.usable (atomicBytes_bit w ▸ hq) hd
  · have fires (row : Row) (hg : (row == .cusGive) = false) (hl : row.isLoad = false) :
        Fires s (nForm row pr 0 0 0 0) pr 0xFFFF#16 ((opnd s 0).getD default) ((opnd s 1).getD default) ((opnd s 2).getD default) :=
      .none h hr rfl rfl hg (fun _ _ _ => brokenWhole_none rfl rfl rfl) hl
    show execFenceAcq pr scope s = _ ∧ execFenceRel pr scope s = _ ∧ execFenceFull pr scope s = _
    exact ⟨(fires .fenceAcq rfl rfl).keeps rfl, (fires .fenceRel rfl rfl).keeps rfl, (fires .fenceFull rfl rfl).keeps rfl⟩

end Sys2Proof.Claims
end

section
/-! SUPPORT. The checks of a steward's instruction (R116, R431) and of engine commands that pass: every operand of R212, a receipt, a range. -/

namespace Sys2Proof.Claims
open Sys2Proof.Machine

/-! ## Operands read whole (R471) -/

/-- A value has reached slot `q`, whole in its lanes below `n`, and is not BROKEN. -/
structure ReadWhole (s : State) (q n : Nat) (v : Value) : Prop where
  given : Given s q v
  whole : v.validTo n = true
  usable : v.tag ≠ .broken
section
variable {s : State} {q : Nat} {v : Value}
theorem Number.reads (h : Number s q v) : ReadWhole s q 2 v := ⟨h.given, (scalarOk_eq v).trans h.whole, h.usable⟩
theorem Capability.reads {k : Nat} {ps : List Nat} (h : Capability s q k ps v) : ReadWhole s q 4 v :=
  ⟨h.given, (capOk_eq v).trans h.whole, by simp [h.tagged]⟩
theorem EngineCap.reads {kinds ps : List Nat} (h : EngineCap s q kinds ps v) : ReadWhole s q 4 v :=
  ⟨h.given, (capOk_eq v).trans h.whole, by simp [h.tagged]⟩
theorem Local.reads {k : Sto} {perm align n : Nat} {a : Word} (h : Local s v k perm align n a) : ReadWhole s 0 4 v :=
  ⟨h.given, (capOk_eq v).trans h.whole, by simp [h.tagged]⟩
/-- A whole capability's lanes hold a whole scalar. -/
theorem reads_two (h : ReadWhole s q 4 v) : ReadWhole s q 2 v := by
  refine ⟨h.given, ?_, h.usable⟩
  have hw := (capOk_eq v).symm.trans h.whole
  rw [scalarOk_eq, scalarOk_iff, ← bitsAt_bitsAt v.valid 0 4 0 2 (by decide), beq_iff_eq.1 hw]
  rfl
end

section
variable {s : State} {row : Row} {pr : BitVec 2} {m : BitVec 16} {a b d : Value} {wl wr wx : Nat}

theorem Fires.twoWhole (h : MayFire s) (hr : Runs s pr m) (hg : (row == .cusGive) = false) (hl : row.isLoad = false) (ha : ReadWhole s 0 wl a)
    (hb : ReadWhole s 1 wr b) : Fires s (nForm row pr 2 wl wr 0) pr m a b ((opnd s 2).getD default) :=
  .two h hr rfl rfl hg ha.given (.inr ha.whole) hb.given (.inr hb.whole) (fun _ => by simp [Form.brokenWhole, nForm, ha.usable, hb.usable]) hl
theorem Fires.threeWhole (h : MayFire s) (hr : Runs s pr m) (hg : (row == .cusGive) = false) (hl : row.isLoad = false) (ha : ReadWhole s 0 wl a)
    (hb : ReadWhole s 1 wr b) (hd : ReadWhole s 2 wx d) : Fires s (nForm row pr 3 wl wr wx) pr m a b d :=
  .three h hr rfl hg ha.given (.inr ha.whole) hb.given (.inr hb.whole) hd.given (.inr hd.whole)
    (by simp [Form.brokenWhole, nForm, ha.usable, hb.usable, hd.usable]) hl
end

/-! ## The mode (R116, R431) -/

section
variable {s : State} {row : Row} {m : BitVec 16} {l r t : Value} {vs : List Value}

theorem needSteward_ok (hs : stewardMode s) (h : ∀ v ∈ vs, v.tag ≠ .broken) : (ctxOf s row l r t m).needSteward vs = .ok () := by
  have steward : (ctxOf s row l r t m).steward = true := (steward_iff s).2 hs
  unfold Ctx.needSteward
  rw [noBroken_ok h, steward]
  rfl
theorem needSteward_user (hs : ¬ stewardMode s) (h : ∀ v ∈ vs, v.tag ≠ .broken) :
    (ctxOf s row l r t m).needSteward vs = .error (trap tPerm) := by
  have user : (ctxOf s row l r t m).steward = false := Bool.not_eq_true _ ▸ mt (steward_iff s).1 hs
  unfold Ctx.needSteward
  rw [noBroken_ok h, user]
  rfl
end

/-! ## Ranges and receipts (R212, R431) -/

section
variable {s : State} {row : Row} {m : BitVec 16} {v l r t : Value} {q n : Nat}

theorem rangeOk_of (h : RangeIn v v.scalar.toNat n) : rangeOk v.cap (capAddr v.cap).toNat n = true := by
  obtain ⟨lo, hi, inside⟩ := h
  rw [rangeOk, capAddr_eq, capInBounds, capBase_eq, capLimit_eq, BitVec.ofNat_toNat, BitVec.setWidth_eq, not_pastEnd inside]
  simp [lo, hi]
theorem Local.range {k : Sto} {perm align : Nat} (h : Local s v k perm align n v.scalar) : RangeIn v v.scalar.toNat n := by
  have inj : ∀ k k' : Sto, storeKind k = storeKind k' → k = k' := by intro k k'; cases k <;> cases k' <;> decide
  refine ⟨h.low, h.high, fun k' hk => ?_⟩
  rw [← inj _ _ (h.kind.symm.trans hk)]
  exact h.inside
theorem receiptAligned_ok (h : Receipt s q n v) : receiptAligned v n = .ok () := if_pos (by rw [capAddr_eq]; exact h.aligned)
theorem receiptBounds_ok (h : Receipt s q n v) : receiptBounds v n = .ok (offsetOf v.scalar) := by
  rw [receiptBounds, if_pos (rangeOk_of h.range), addrOff_eq, capAddr_eq]

/-- An operand that steps 1 to 4 of R212 let through. -/
structure EngineAllows (c : Ctx) (o : EngOp) : Prop where
  tagged : o.v.tag = .cap
  kind : capKind o.v.cap ∈ o.kinds
  class_ : capKind o.v.cap ∉ o.storeClass
  permits : c.engPerm o = true
  core : c.engNoCore o = false
theorem checkEngine_ok {c : Ctx} {ops : List EngOp} (h : ∀ o ∈ ops, EngineAllows c o) : c.checkEngine ops = .ok () := by
  have tags : noBroken (ops.map EngOp.v) = .ok () := noBroken_ok fun v hv => by
    obtain ⟨o, ho, rfl⟩ := List.mem_map.1 hv
    simp [(h o ho).tagged]
  have kinds : (ops.find? fun o => o.v.tag != .cap || !((o.kinds ++ o.storeClass).contains (capKind o.v.cap))) = none :=
    List.find?_eq_none.2 fun o ho => by simp [(h o ho).tagged, (h o ho).kind]
  have classes : (ops.find? fun o => o.storeClass.contains (capKind o.v.cap)) = none :=
    List.find?_eq_none.2 fun o ho => by simp [(h o ho).class_]
  have permits : (ops.find? fun o => !c.engPerm o || c.engNoCore o) = none :=
    List.find?_eq_none.2 fun o ho => by simp [(h o ho).permits, (h o ho).core]
  unfold Ctx.checkEngine
  rw [tags, kinds, classes, permits]
  rfl
theorem engOp_isLocal_iff (o : EngOp) : o.isLocal = true ↔ capKind o.v.cap ∈ [2, 3, 4, 5, 9] := by
  simp only [EngOp.isLocal, Bool.or_eq_true, Bool.and_eq_true, decide_eq_true_eq, beq_iff_eq, List.mem_cons, List.not_mem_nil, or_false]
  omega
/-- What step 4 of R212 asks for: the permissions, the engine permission on a local store or an engine, and the own core. -/
theorem engPerm_of {o : EngOp} (hp : ∀ p ∈ o.perms, bitAt o.v.cap p = true) (he : o.plain = true ∨ (o.isLocal = true → bitAt o.v.cap 114 = true))
    (ho : o.own = true → coreOf o.v.scalar = logicalOf s) (hm : o.matrix = false) : (ctxOf s row l r t m).engPerm o = true := by
  have perms : (o.perms.all fun p => capHas o.v.cap p) = true := List.all_eq_true.2 hp
  have engine : (o.plain || !o.isLocal || capHas o.v.cap pEngine) = true := by
    rcases he with he | he
    · simp [he]
    · cases hl : o.isLocal
      · simp
      · simp [capHas, pEngine, he hl]
  have own : (!o.own || addrCore (capAddr o.v.cap) == (ctxOf s row l r t m).logical) = true := by
    cases hw : o.own
    · rfl
    · simp [capAddr_eq, addrCore_eq, ho hw]
  rw [Ctx.engPerm, perms, engine, own, hm]
  rfl
theorem engNoCore_of {o : EngOp} (h : o.isLocal = true → InLodging s (coreOf o.v.scalar)) : (ctxOf s row l r t m).engNoCore o = false := by
  rw [Ctx.engNoCore, capAddr_eq, addrCore_eq]
  cases hl : o.isLocal
  · rfl
  · have hc : (ctxOf s row l r t m).noCore (coreOf o.v.scalar) = false :=
      Option.isNone_eq_false_iff.2 (h hl)
    rw [hc]
    rfl
theorem EngineCap.allows {o : EngOp} (h : EngineCap s q o.kinds o.perms o.v) (own : o.own = true → coreOf o.v.scalar = logicalOf s)
    (hc : o.storeClass = []) (hm : o.matrix = false) : EngineAllows (ctxOf s row l r t m) o where
  tagged := h.tagged
  kind := h.kind
  class_ := by simp [hc]
  permits := engPerm_of h.permits (.inr fun hl => (h.engine ((engOp_isLocal_iff o).1 hl)).1) own hm
  core := engNoCore_of fun hl => (h.engine ((engOp_isLocal_iff o).1 hl)).2
/-- A capability on memory, which no engine permission guards. -/
theorem Capability.engineCap {k : Nat} {ps : List Nat} (h : Capability s q k ps v) (hk : k ∉ [2, 3, 4, 5, 9]) : EngineCap s q [k] ps v :=
  ⟨h.given, h.whole, h.tagged, by simp [h.kind], h.permits, fun hc => absurd (h.kind ▸ hc) hk⟩
theorem Receipt.allows (h : Receipt s q n v) : EngineAllows (ctxOf s row l r t m) (receiptOp v) :=
  EngineCap.allows (o := receiptOp v) h.capability (fun _ => h.core) rfl rfl
theorem Receipt.inLodging (h : Receipt s q n v) : InLodging s (logicalOf s) := by
  have hk := h.capability.kind
  rw [List.mem_singleton] at hk
  exact h.core ▸ (h.capability.engine (by simp [hk])).2
/-- A record in the own S store, which LODGE.NEW reads itself (R436). -/
theorem Local.allows {align : Nat} (h : Local s v .s 123 align n v.scalar) (hl : InLodging s (logicalOf s)) :
    EngineAllows (ctxOf s row l r t m) { v := v, kinds := [5], perms := [pLoad], own := true, plain := true } where
  tagged := h.tagged
  kind := by simp [capKind_bits, h.kind, storeKind]
  class_ := by simp
  permits := engPerm_of (by simpa [pLoad] using h.permits) (.inl rfl) (fun _ => h.core) rfl
  core := engNoCore_of fun _ => show InLodging s (v.scalar.toNat / 2 ^ 52) from h.core ▸ hl
/-- A receipt that R212 lets through, alone. -/
theorem receipt_ok (h : Receipt s q 16 v) : (ctxOf s row l r t m).receipt v = .ok (offsetOf v.scalar) := by
  unfold Ctx.receipt
  rw [checkEngine_ok (by simpa using h.allows), receiptAligned_ok h, receiptBounds_ok h]
  rfl
/-- A save record, behind its checks and those of the receipt (R438, R439). -/
theorem saveOps_ok {p : Nat} {d : Value} (hd : Capability s 1 1 [p] d) (hx : Receipt s 2 16 v) :
    (ctxOf s row l d v m).saveOps d p = .ok (placeAt d, offsetOf v.scalar) := by
  have save : EngineAllows (ctxOf s row l d v m) { v := d, kinds := [1], perms := [p] } :=
    (hd.engineCap (by decide)).allows (o := { v := d, kinds := [1], perms := [p] }) nofun rfl rfl
  have ops : ∀ o ∈ [{ v := d, kinds := [1], perms := [p] }, receiptOp v], EngineAllows (ctxOf s row l d v m) o := by simpa using ⟨save, hx.allows⟩
  unfold Ctx.saveOps
  rw [ctxOf_t, checkEngine_ok ops, receipt_ok hx, memAddr_eq, capAddr_eq]
  rfl
theorem capRest_eq (d : Value) : capRest d.cap = windowSize d := by rw [capRest, capLimit_eq, capAddr_eq, windowSize]
end

end Sys2Proof.Claims
end

section
/-! The obligation O45: the instructions of a steward (R116, R431 to R443), on a steward core and elsewhere; what waits for the commit: log 29. -/

namespace Sys2Proof.Claims
open Sys2Proof.Machine

/-! ## On a steward core -/

section
variable {s : State} {row : Row} {pr : BitVec 2} {m : BitVec 16} {l r t : Value} {n wl wr wx : Nat} {onNull : Ctx → State}
  {vs : Ctx → List Value} {g : Ctx → Except Trap Fired}

/-- A steward's instruction keeps the act that it makes behind the check of the mode. -/
theorem Fires.stewardKeeps {a : Act} (h : Fires s (nForm row pr n wl wr wx) pr m l r t) (hs : stewardMode s)
    (hv : ∀ v ∈ vs (ctxOf s row l r t m), v.tag ≠ .broken) (hg : g (ctxOf s row l r t m) = (ctxOf s row l r t m).silent (keep s a)) :
    s.fire (nForm row pr n wl wr wx) onNull (fun c => c.needSteward (vs c) >>= fun _ => g c) = .next (done (keep s a)) :=
  h.keeps ((congrArg (· >>= _) (needSteward_ok hs hv)).trans hg)
/-- The act of R431, or SHAPE at the commit. -/
theorem actIf_eq {ok : Bool} {p : Prop} [Decidable p] (h : ok = true ↔ p) (a : Act) :
    (ctxOf s row l r t m).actIf ok a = (ctxOf s row l r t m).silent (keep s (if p then a else .shape)) :=
  congrArg (fun a => (ctxOf s row l r t m).silent (keep s a)) (if_congr h rfl rfl)
end

section
variable {s : State} {pr : BitVec 2} {m : BitVec 16} {l a e x : Value} (h : MayFire s) (hr : Runs s pr m) (hs : stewardMode s)
include h hr hs

theorem stnMap_keeps (hl : Number s 0 l) (ha : Number s 1 a) (he : Number s 2 e) : exec (.stnMap pr) s =
    .next (done (keep s (if numAt l.scalar 18 46 = 0 ∧ numAt l.scalar 16 2 ≠ 3 ∧ numAt l.scalar 0 16 ≠ 0 ∧
        (e.scalar.toNat < 2 ^ 63 ∨ s.mapEntryOk (numAt l.scalar 16 2) e.scalar.toNat = true)
      then .effect (.stnMap (numAt l.scalar 0 16) (numAt l.scalar 16 2) a.scalar e.scalar) else .shape))) := by
  show execStnMap pr s = _
  refine (Fires.threeWhole h hr rfl rfl hl.reads ha.reads he.reads).stewardKeeps hs (by simp [hl.usable, ha.usable, he.usable]) (actIf_eq ?_ _)
  have small : e.scalar.toNat < 2 ^ 63 → s.mapEntryOk (numAt l.scalar 16 2) e.scalar.toNat = true := fun hlt => by
    simp only [State.mapEntryOk, Nat.div_eq_of_lt hlt, beq_self_eq_true, Bool.true_or]
  simp only [Bool.and_eq_true, beq_iff_eq, bne_iff_ne, and_assoc, or_iff_right_of_imp small]
  exact Iff.rfl
theorem stnInv_keeps (hl : Number s 0 l) (ha : Number s 1 a) (he : Number s 2 e) : exec (.stnInv pr) s =
    .next (done (keep s (if numAt l.scalar 16 48 = 0 ∧ numAt l.scalar 0 16 ≠ 0 ∧ 1 ≤ e.scalar.toNat ∧ e.scalar.toNat ≤ 2 ^ 48
      then .effect (.stnInv (numAt l.scalar 0 16) a.scalar.toNat e.scalar.toNat) else .shape))) := by
  show execStnInv pr s = _
  refine (Fires.threeWhole h hr rfl rfl hl.reads ha.reads he.reads).stewardKeeps hs (by simp [hl.usable, ha.usable, he.usable]) (actIf_eq ?_ _)
  simp only [Bool.and_eq_true, beq_iff_eq, bne_iff_ne, decide_eq_true_eq, and_assoc]
  exact Iff.rfl
theorem stnReplay_keeps (hl : Number s 0 l) (ha : Number s 1 a) : exec (.stnReplay pr) s =
    .next (done (keep s (if numAt l.scalar 17 47 = 0 ∧ numAt l.scalar 0 16 ≠ 0 ∧ numAt a.scalar 0 8 < 64
      then .effect (.stnReplay (numAt a.scalar 0 8) (numAt l.scalar 0 16) (numAt a.scalar 19 29) (bitAt l.scalar 16)) else .shape))) := by
  show execStnReplay pr s = _
  refine (Fires.twoWhole h hr rfl rfl hl.reads ha.reads).stewardKeeps hs (by simp [hl.usable, ha.usable]) (actIf_eq ?_ _)
  simp only [Bool.and_eq_true, beq_iff_eq, bne_iff_ne, decide_eq_true_eq, and_assoc]
  exact Iff.rfl
theorem lodgeEnd_keeps (hl : Number s 0 l) (ha : Number s 1 a) : exec (.lodgeEnd pr) s =
    .next (done (keep s (if 1 ≤ l.scalar.toNat ∧ l.scalar.toNat ≤ 255 ∧ numAt a.scalar 0 8 ≠ 0
      then .effect (.lodgeEnd l.scalar.toNat (bitsAt a.scalar 0 8)) else .shape))) := by
  show execLodgeEnd pr s = _
  refine (Fires.twoWhole h hr rfl rfl hl.reads ha.reads).stewardKeeps hs (by simp [hl.usable, ha.usable]) (actIf_eq ?_ _)
  simp only [Bool.and_eq_true, bne_iff_ne, decide_eq_true_eq, and_assoc]
  exact Iff.rfl
theorem lodgeNew_keeps (ha : Local s a .s 123 128 128 a.scalar) (hx : Receipt s 1 16 x) : exec (.lodgeNew pr) s =
    .next (done (keep s (.lodgeNew (offsetOf a.scalar) (offsetOf x.scalar)))) := by
  show execLodgeNew pr s = _
  refine (Fires.twoWhole h hr rfl rfl ha.reads hx.capability.reads).stewardKeeps hs (by simp [ha.tagged, hx.capability.tagged]) ?_
  have ops : ∀ o ∈ [{ v := a, kinds := [5], perms := [pLoad], own := true, plain := true }, receiptOp x],
      EngineAllows (ctxOf s .lodgeNew a x ((opnd s 2).getD default) m) o := by
    simpa using ⟨ha.allows hx.inLodging, hx.allows⟩
  refine (congrArg (· >>= _) (checkEngine_ok ops)).trans ((if_neg ?_).trans ((congrArg (· >>= _) (receiptAligned_ok hx)).trans
    ((if_neg ?_).trans ((congrArg (· >>= _) (receiptBounds_ok hx)).trans ?_))))
  · rw [ctxOf_l, capAddr_eq]
    exact not_not_intro ha.aligned
  · rw [ctxOf_l, rangeOk_of ha.range]
    decide
  · rw [ctxOf_l, capAddr_eq, addrOff_eq]
    rfl
theorem migrate_keeps (hl : Number s 0 l) (ha : Number s 1 a) (hx : Receipt s 2 16 x)
    (ho : (s.router (slotOf s).serve.toNat l.scalar.toNat).isSome = true) : exec (.migrate pr) s =
    .next (done (keep s (.engine (.migrate (slotOf s).serve.toNat l.scalar.toNat a.scalar.toNat (offsetOf x.scalar)) (offsetOf x.scalar)))) := by
  show execMigrate pr s = _
  refine (Fires.threeWhole h hr rfl rfl hl.reads ha.reads hx.capability.reads).stewardKeeps hs
    (by simp [hl.usable, ha.usable, hx.capability.tagged]) ?_
  have ops : ∀ o ∈ [receiptOp x], EngineAllows (ctxOf s .migrate l a x m) o := by simpa using hx.allows
  refine (congrArg (· >>= _) (checkEngine_ok ops)).trans ((if_neg ?_).trans (congrArg (· >>= _) (receipt_ok hx)))
  exact fun hc => absurd (Option.isSome_iff_ne_none.1 ho) (not_not_intro (Option.isNone_iff_eq_none.1 hc))
theorem shadowSave_keeps {d : Value} (hl : Number s 0 l) (hd : Capability s 1 1 [122] d) (hx : Receipt s 2 16 x) : exec (.shadowSave pr) s =
    .next (done (keep s (.engine (.shadowSave l.scalar.toNat (placeAt d) (windowSize d) (offsetOf x.scalar)) (offsetOf x.scalar)))) := by
  show execShadowSave pr s = _
  refine (Fires.threeWhole h hr rfl rfl hl.reads hd.reads hx.capability.reads).stewardKeeps hs
    (by simp [hl.usable, hd.tagged, hx.capability.tagged]) ((congrArg (· >>= _) (saveOps_ok hd hx)).trans ?_)
  rw [← capRest_eq]
  rfl
theorem shadowLoad_keeps {d : Value} (hl : Number s 0 l) (hd : Capability s 1 1 [123] d) (hx : Receipt s 2 16 x) : exec (.shadowLoad pr) s =
    .next (done (keep s (.engine (.shadowLoad (numAt l.scalar 0 16, numAt l.scalar 16 16, numAt l.scalar 32 16, numAt l.scalar 48 16) (placeAt d)
      (offsetOf x.scalar)) (offsetOf x.scalar)))) := by
  show execShadowLoad pr s = _
  exact (Fires.threeWhole h hr rfl rfl hl.reads hd.reads hx.capability.reads).stewardKeeps hs
    (by simp [hl.usable, hd.tagged, hx.capability.tagged]) (congrArg (· >>= _) (saveOps_ok hd hx))
theorem testRun_keeps (hl : Number s 0 l) (ha : Number s 1 a) (hx : Receipt s 2 16 x) : exec (.testRun pr) s =
    .next (done (keep s (if numAt l.scalar 17 47 = 0 ∧ numAt l.scalar 13 4 < 8 ∧ numAt l.scalar 0 13 < 4144 ∧ a.scalar.toNat < 256
      then .engine (.testRun (numAt l.scalar 0 13) (numAt l.scalar 13 4) a.scalar.toNat (offsetOf x.scalar)) (offsetOf x.scalar) else .shape))) := by
  show execTestRun pr s = _
  refine (Fires.threeWhole h hr rfl rfl hl.reads ha.reads hx.capability.reads).stewardKeeps hs
    (by simp [hl.usable, ha.usable, hx.capability.tagged]) ((congrArg (· >>= _) (receipt_ok hx)).trans (actIf_eq ?_ _))
  simp only [Bool.and_eq_true, beq_iff_eq, decide_eq_true_eq, and_assoc]
  exact Iff.rfl
theorem engineCancel_keeps {r : Nat} (hl : Number s 0 l) (ha : Number s 1 a) (ho : s.router (slotOf s).serve.toNat (coreOf l.scalar) = some r) :
    exec (.engineCancel pr) s = .next (done (keep s (if offsetOf l.scalar % 16 = 0 ∧ numAt a.scalar 0 8 ≠ 0
      then .effect (.cancel r (offsetOf l.scalar) (bitsAt a.scalar 0 8)) else .shape))) := by
  show execEngineCancel pr s = _
  refine (Fires.twoWhole h hr rfl rfl hl.reads ha.reads).stewardKeeps hs (by simp [hl.usable, ha.usable]) ?_
  rw [← addrCore_eq] at ho
  rw [← addrOff_eq]
  have router : (ctxOf s .engineCancel l a ((opnd s 2).getD default) m).s.router
    (ctxOf s .engineCancel l a ((opnd s 2).getD default) m).x.serve.toNat (addrCore l.scalar) = some r := ho
  simp only [ctxOf_l, router]
  refine actIf_eq ?_ _
  simp only [Bool.and_eq_true, beq_iff_eq, bne_iff_ne]
  exact Iff.rfl
end

/-! ## Elsewhere (R116, R431) -/

section
variable {s : State} {f : Form} {pr : BitVec 2} {m : BitVec 16} {l r t : Value} {onNull : Ctx → State}

/-- Three whole operands fire every form that reads at most four lanes of each. -/
theorem Fires.ofWhole (h : MayFire s) (hr : Runs s pr m) (hl : ReadWhole s 0 4 l) (hd : ReadWhole s 1 4 r) (ht : ReadWhole s 2 4 t) (mode : f.pr = pr.toNat)
    (below : f.row.isLoad = false) (lanes : ∀ n ∈ [f.wl, f.wr, f.wx], n ∈ [0, 2, 4]) : Fires s f pr m l r t := by
  have reads {q n : Nat} {v : Value} (hv : ReadWhole s q 4 v) (hn : n ∈ [f.wl, f.wr, f.wx]) : n = 0 ∨ v.validTo n = true := by
    have := lanes n hn
    simp only [List.mem_cons, List.not_mem_nil, or_false] at this
    obtain rfl | rfl | rfl := this
    · exact .inl rfl
    · exact .inr (reads_two hv).whole
    · exact .inr hv.whole
  refine ⟨h, hr, mode, ⟨.inr (hl.given.counts (reads hl (by simp))), .inr (hd.given.counts (reads hd (by simp))),
    .inr (ht.given.counts (reads ht (by simp))), .inr ?_⟩, hl.given.read, hd.given.read, ht.given.read, ?_, .inl below⟩
  · rw [ht.given.read, targetNull, ht.whole, (reads_two ht).whole, ite_self]
    rfl
  · simp [Form.brokenWhole, hl.usable, hd.usable, ht.usable]
/-- Outside steward mode the check of the mode faults. -/
theorem Fires.user {vs : Ctx → List Value} {g : Ctx → Except Trap Fired} (h : Fires s f pr m l r t) (hs : ¬ stewardMode s)
    (hv : ∀ v ∈ vs (ctxOf s f.row l r t m), v.tag ≠ .broken) :
    s.fire f onNull (fun c => c.needSteward (vs c) >>= fun _ => g c) = .next (traps s (trap tPerm)) :=
  h.error (congrArg (· >>= _) (needSteward_user hs hv)) (by decide)
/-- There a CUS instruction waits for no record (R306). -/
theorem fireCus_user {act : Ctx → Except Trap Fired} (hs : ¬ stewardMode s) : s.fireCus f act = s.fire f plainNull act := by
  refine if_neg fun c => hs ?_
  unfold State.cusWaits at c
  split at c
  · cases c
  · next x p hx =>
    split at c
    · rw [Bool.and_eq_true, Bool.and_eq_true] at c
      rw [← steward_iff, ← (ctx_place hx).2.1]
      exact c.1.1
    · cases c
end

/-- Every instruction of a steward faults PERM outside steward mode. -/
theorem userMode_faults {s : State} {pr : BitVec 2} {m : BitVec 16} (h : MayFire s) (hr : Runs s pr m) (hs : ¬ stewardMode s)
    (ops : ∀ q, q < 3 → ∃ v, Given s q v ∧ capOk v = true ∧ v.tag ≠ .broken) :
    ∀ i ∈ [Instr.cusTake pr 0x1FF 0x1FF, .cusResume pr, .cusGive pr, .cusBreak pr, .stnMap pr, .stnInv pr, .stnReplay pr, .lodgeNew pr,
        .lodgeEnd pr, .migrate pr, .shadowSave pr, .shadowLoad pr, .testRun pr, .engineCancel pr],
      exec i s = .next (traps s (trap tPerm)) := by
  have reads (q : Nat) (hq : q < 3) : ∃ v, ReadWhole s q 4 v := (ops q hq).imp fun v ⟨g, w, u⟩ => ⟨g, (capOk_eq v).trans w, u⟩
  obtain ⟨l, hl⟩ := reads 0 (by decide)
  obtain ⟨r, hd⟩ := reads 1 (by decide)
  obtain ⟨t, ht⟩ := reads 2 (by decide)
  have fires (row : Row) (n wl wr wx : Nat) (below : row.isLoad = false) (lanes : ∀ k ∈ [wl, wr, wx], k ∈ [0, 2, 4]) :
      Fires s (nForm row pr n wl wr wx) pr m l r t := .ofWhole h hr hl hd ht rfl below lanes
  have two : ∀ v ∈ [l, r], v.tag ≠ .broken := by simp [hl.usable, hd.usable]
  have three : ∀ v ∈ [l, r, t], v.tag ≠ .broken := by simp [hl.usable, hd.usable, ht.usable]
  simp only [List.forall_mem_cons, List.not_mem_nil, false_implies, implies_true, and_true]
  refine ⟨?_, ?_, ?_, ?_, ?_, ?_, ?_, ?_, ?_, ?_, ?_, ?_, ?_, ?_⟩
  · show execCusTake pr 0x1FF 0x1FF s = _
    exact (fireCus_user hs).trans ((fires .cusTake 2 2 2 0 rfl (by decide)).user hs two)
  · show execCusResume pr s = _
    exact (fireCus_user hs).trans ((fires .cusResume 2 2 2 0 rfl (by decide)).user hs two)
  · show execCusGive pr s = _
    exact (fireCus_user hs).trans ((fires .cusGive 3 2 2 2 rfl (by decide)).user hs three)
  · show execCusBreak pr s = _
    exact (fireCus_user hs).trans ((fires .cusBreak 3 2 2 2 rfl (by decide)).user hs three)
  · show execStnMap pr s = _
    exact (fires .stnMap 3 2 2 2 rfl (by decide)).user hs three
  · show execStnInv pr s = _
    exact (fires .stnInv 3 2 2 2 rfl (by decide)).user hs three
  · show execStnReplay pr s = _
    exact (fires .stnReplay 2 2 2 0 rfl (by decide)).user hs two
  · show execLodgeNew pr s = _
    exact (fires .lodgeNew 2 4 4 0 rfl (by decide)).user hs two
  · show execLodgeEnd pr s = _
    exact (fires .lodgeEnd 2 2 2 0 rfl (by decide)).user hs two
  · show execMigrate pr s = _
    exact (fires .migrate 3 2 2 4 rfl (by decide)).user hs three
  · show execShadowSave pr s = _
    exact (fires .shadowSave 3 2 4 4 rfl (by decide)).user hs three
  · show execShadowLoad pr s = _
    exact (fires .shadowLoad 3 2 4 4 rfl (by decide)).user hs three
  · show execTestRun pr s = _
    exact (fires .testRun 3 2 2 4 rfl (by decide)).user hs three
  · show execEngineCancel pr s = _
    exact (fires .engineCancel 2 2 2 0 rfl (by decide)).user hs two

/-- Settles O45: a steward's instruction is a firing whose effect stands behind the check of the mode; a steward's passes it and keeps the act, any
other faults there. -/
theorem stewardInstructions : Obligations.StewardInstructions := by
  exact ⟨fun s pr m h hr hs => ⟨fun l a e hl ha he => ⟨stnMap_keeps h hr hs hl ha he, stnInv_keeps h hr hs hl ha he⟩,
    fun l f hl hf => ⟨stnReplay_keeps h hr hs hl hf, lodgeEnd_keeps h hr hs hl hf⟩, fun a x ha hx => lodgeNew_keeps h hr hs ha hx,
    fun l t x hl ht hx ho => migrate_keeps h hr hs hl ht hx ho,
    fun l d x hl hx => ⟨fun hd => shadowSave_keeps h hr hs hl hd hx, fun hd => shadowLoad_keeps h hr hs hl hd hx⟩,
    fun u n x hu hn hx => testRun_keeps h hr hs hu hn hx, fun a c r ha hc ho => engineCancel_keeps h hr hs ha hc ho⟩,
    fun s pr m h hr hs ops => userMode_faults h hr hs ops⟩

end Sys2Proof.Claims
end

section
/-! The obligations O1 and O2: the two-operand scalar instructions (R134 to R136). An operation of the model works on numbers of its width and
gives a number; here each is the operation on words that the statements name. -/

namespace Sys2Proof.Claims
open Sys2Proof.Machine

/-! ## Widths (R134) -/

/-- The number of bits that a width bit selects. -/
theorem aluWidth_cases (w : BitVec 1) : w = 1 ∧ aluWidth w = 32 ∨ w ≠ 1 ∧ aluWidth w = 64 := by
  by_cases h : w = 1
  · exact .inl ⟨h, if_pos h⟩
  · exact .inr ⟨h, if_neg h⟩
/-- Both widths are a power of two, at least that of a byte. -/
def IsWidth (n : Nat) : Prop := n = 32 ∨ n = 64
theorem isWidth_aluWidth (w : BitVec 1) : IsWidth (aluWidth w) := (aluWidth_cases w).imp And.right And.right
theorem natOp_32 (v : Word) : natOp 32 v = (v.setWidth 32).toNat := (BitVec.toNat_setWidth ..).symm
theorem natOp_64 (v : Word) : natOp 64 v = v.toNat := Nat.mod_eq_of_lt v.isLt
/-- A number as the result of an operation of the width is the operation's word, sign-extended from 32 bits. -/
theorem aluResult_eq {f : (n : Nat) → BitVec n → BitVec n → BitVec n} {k : (n : Nat) → Nat → Nat → Nat}
    (h : ∀ n, IsWidth n → ∀ x y : BitVec n, BitVec.ofNat n (k n x.toNat y.toNat) = f n x y) (w : BitVec 1) (a b : Value) :
    aluResult (aluWidth w) (k (aluWidth w) (natOp (aluWidth w) a.scalar) (natOp (aluWidth w) b.scalar)) = ofWidth w f a b := by
  rcases aluWidth_cases w with ⟨hw, hn⟩ | ⟨hw, hn⟩ <;> rw [hn, ofWidth]
  · rw [if_pos hw, natOp_32, natOp_32, ← h 32 (.inl rfl)]; rfl
  · rw [if_neg hw, natOp_64, natOp_64, ← h 64 (.inr rfl)]; rfl
/-- What is read off both operands at the width. -/
theorem exactOf_natOp {α : Type} {f : (n : Nat) → BitVec n → BitVec n → α} {k : (n : Nat) → Nat → Nat → α}
    (h : ∀ n, IsWidth n → ∀ x y : BitVec n, k n x.toNat y.toNat = f n x y) (w : BitVec 1) (a b : Value) :
    k (aluWidth w) (natOp (aluWidth w) a.scalar) (natOp (aluWidth w) b.scalar) = exactOf w f a b := by
  rcases aluWidth_cases w with ⟨hw, hn⟩ | ⟨hw, hn⟩ <;> rw [hn, exactOf]
  · rw [if_pos hw, natOp_32, natOp_32, h 32 (.inl rfl)]
  · rw [if_neg hw, natOp_64, natOp_64, h 64 (.inr rfl)]
theorem exactOf_intOp {α : Type} {f : (n : Nat) → BitVec n → BitVec n → α} {k : (n : Nat) → Int → Int → α}
    (h : ∀ n, IsWidth n → ∀ x y : BitVec n, k n x.toInt y.toInt = f n x y) (w : BitVec 1) (a b : Value) :
    k (aluWidth w) (intOp (aluWidth w) a.scalar) (intOp (aluWidth w) b.scalar) = exactOf w f a b := by
  rcases aluWidth_cases w with ⟨hw, hn⟩ | ⟨hw, hn⟩ <;> rw [hn, exactOf]
  · rw [if_pos hw, ← h 32 (.inl rfl)]; rfl
  · rw [if_neg hw, ← h 64 (.inr rfl)]; rfl
theorem exactOf_noEvent (w : BitVec 1) (a b : Value) : exactOf w noEvent a b = [] := ite_self _
/-- A word of the width from a number of the operation's exact result. -/
theorem ofWidth_exact {α : Type} (g : (n : Nat) → α → BitVec n) (z : (n : Nat) → BitVec n → BitVec n → α) (w : BitVec 1) (a b : Value) :
    ofWidth w (fun n x y => g n (z n x y)) a b = if w = 1 then (g 32 (exactOf w z a b)).signExtend 64 else g 64 (exactOf w z a b) := by
  unfold ofWidth exactOf
  split <;> rfl

/-! ## Saturation (R135) -/

/-- A number of bits stands for a natural number modulo 2^n. -/
theorem ofNat_mod (n k : Nat) : BitVec.ofNat n (k % 2 ^ n) = BitVec.ofNat n k := by
  apply BitVec.eq_of_toNat_eq
  rw [BitVec.toNat_ofNat, BitVec.toNat_ofNat, Nat.mod_mod]

/-- So does one for an integer. -/
theorem ofNat_emod (n : Nat) (z : Int) : BitVec.ofNat n (z % 2 ^ n).toNat = BitVec.ofInt n z := by
  apply BitVec.eq_of_toNat_eq
  have h : (0 : Int) ≤ z % 2 ^ n := Int.emod_nonneg _ (by positivity)
  have hl : z % 2 ^ n < 2 ^ n := Int.emod_lt_of_pos _ (by positivity)
  rw [BitVec.toNat_ofNat, BitVec.toNat_ofInt, Nat.mod_eq_of_lt]
  · push_cast; rfl
  · zify; rw [Int.toNat_of_nonneg h]; exact hl
theorem satSigned_fst (sat : Bool) (n : Nat) (z : Int) : BitVec.ofNat n (satSigned sat n z).1 = narrowed sat n z := by
  unfold satSigned narrowed clamps
  dsimp only
  split <;> exact ofNat_emod ..
theorem satSigned_snd (sat : Bool) (n : Nat) (z : Int) : clampEv (satSigned sat n z).2 = clampEvent sat n z := by
  unfold satSigned clampEvent clamps
  dsimp only
  split <;> rfl
theorem aluResult_saturated (sat : Bool) (w : BitVec 1) (z : Int) : aluResult (aluWidth w) (satSigned sat (aluWidth w) z).1 =
    if w = 1 then (narrowed sat 32 z).signExtend 64 else narrowed sat 64 z := by
  rcases aluWidth_cases w with ⟨hw, hn⟩ | ⟨hw, hn⟩ <;> rw [hn, aluResult]
  · rw [if_pos rfl, if_pos hw, satSigned_fst]
  · rw [if_neg (by decide), if_neg hw, satSigned_fst]
theorem exactOf_clamped (sat : Bool) (z : (n : Nat) → BitVec n → BitVec n → Int) (ev : (n : Nat) → BitVec n → BitVec n → List Nat)
    (w : BitVec 1) (a b : Value) : exactOf w (fun n x y => ev n x y ++ clampEvent sat n (z n x y)) a b =
      exactOf w ev a b ++ clampEvent sat (aluWidth w) (exactOf w z a b) := by
  unfold exactOf aluWidth
  split <;> rfl

/-! ## Two-operand instructions from their firings -/

/-- A firing whose effect is the word of the width is what the statements say. -/
theorem twoOperand_of {mk : BitVec 1 → BitVec 2 → BitVec 9 → BitVec 9 → Instr} {row : Row} {act : BitVec 1 → Ctx → Except Trap Fired}
    {f : (n : Nat) → BitVec n → BitVec n → BitVec n} {ev : (n : Nat) → BitVec n → BitVec n → List Nat}
    (he : ∀ s w pr t1 t0, exec (mk w pr t1 t0) s = s.fire (tForm row pr 2 t1 t0) plainNull (act w)) (hl : row.isLoad = false)
    (hg : (row == .cusGive) = false)
    (ha : ∀ (c : Ctx) w, act w c = c.scalarOut [c.l, c.r] (ofWidth w f c.l c.r) (exactOf w ev c.l c.r)) : TwoOperand mk f ev :=
  fun s w pr t1 t0 m a b h hr g0 g1 => two_gen (he s w pr t1 t0) hl hg h hr g0 g1 fun t => ha (ctxOf s row a b t m) w
theorem twoOperand_alu {mk : BitVec 1 → BitVec 2 → BitVec 9 → BitVec 9 → Instr} {row : Row} {k : Nat → Nat → Nat → Nat}
    {f : (n : Nat) → BitVec n → BitVec n → BitVec n}
    (he : ∀ s w pr t1 t0, exec (mk w pr t1 t0) s = s.fire (tForm row pr 2 t1 t0) plainNull fun c => c.alu w k) (hl : row.isLoad = false)
    (hg : (row == .cusGive) = false) (hk : ∀ n, IsWidth n → ∀ x y : BitVec n, BitVec.ofNat n (k n x.toNat y.toNat) = f n x y) :
    TwoOperand mk f noEvent :=
  twoOperand_of he hl hg fun c w => by
    rw [exactOf_noEvent, ← aluResult_eq (k := fun n x y => k n x y % 2 ^ n) (fun n hn x y => ?_)]
    · rfl
    · rw [← hk n hn, ofNat_mod]
theorem saturating_of {mk : BitVec 1 → BitVec 2 → BitVec 9 → BitVec 9 → Instr} {row : Row} {k : Nat → Int → Int → Int}
    {e : BitVec 1 → Ctx → List Nat} {z : (n : Nat) → BitVec n → BitVec n → Int} {ev : (n : Nat) → BitVec n → BitVec n → List Nat}
    (he : ∀ s w pr t1 t0, exec (mk w pr t1 t0) s = s.fire (tForm row pr 2 t1 t0) plainNull fun c => c.aluSat w k (e w c))
    (hl : row.isLoad = false) (hg : (row == .cusGive) = false)
    (hk : ∀ n, IsWidth n → ∀ x y : BitVec n, k n x.toInt y.toInt = z n x y) (hv : ∀ (c : Ctx) w, e w c = exactOf w ev c.l c.r) :
    Saturating mk z ev :=
  fun s w pr t1 t0 m a b h hr g0 g1 => two_gen (he s w pr t1 t0) hl hg h hr g0 g1 fun t => by
    unfold Ctx.aluSat
    rw [ofWidth_exact, exactOf_clamped, ← exactOf_intOp hk, ← aluResult_saturated, ← satSigned_snd, hv]
    rfl

/-! ## Arithmetic, logic, shifts (R134, R135) -/

section
variable {n : Nat} (x y : BitVec n)

theorem ofNat_andn : BitVec.ofNat n (x.toNat &&& (2 ^ n - 1 - y.toNat)) = x &&& ~~~y := by
  rw [← BitVec.toNat_not, ← BitVec.toNat_and, BitVec.ofNat_toNat, BitVec.setWidth_eq]
theorem ofNat_shr (k : Nat) : BitVec.ofNat n (x.toNat / 2 ^ k) = x >>> k := by
  rw [← Nat.shiftRight_eq_div_pow, ← BitVec.toNat_ushiftRight, BitVec.ofNat_toNat, BitVec.setWidth_eq]
theorem ofNat_sra (k : Nat) : BitVec.ofNat n (sra n x.toNat k) = x.sshiftRight k := by
  rw [sra, ofNat_emod, BitVec.ofNat_toNat, BitVec.setWidth_eq, BitVec.sshiftRight_eq, Int.shiftRight_eq_div_pow]
  push_cast; rfl
theorem ofNat_rotl {k : Nat} (hk : k < n) : BitVec.ofNat n (rotl n x.toNat k) = x.rotateLeft k := by
  have hn : (2 : Nat) ^ n = 2 ^ k * 2 ^ (n - k) := by rw [← Nat.pow_add]; congr 1; omega
  have low : x.toNat / 2 ^ (n - k) < 2 ^ k := Nat.div_lt_of_lt_mul (by rw [Nat.mul_comm, ← hn]; exact x.isLt)
  apply BitVec.eq_of_toNat_eq
  rw [BitVec.toNat_rotateLeft, Nat.mod_eq_of_lt hk, Nat.shiftLeft_eq, Nat.shiftRight_eq_div_pow, rotl, ofNat_mod, BitVec.toNat_ofNat,
    Nat.add_mod, hn, Nat.mul_comm x.toNat, Nat.mul_mod_mul_left, ← Nat.two_pow_add_eq_or_of_lt low, ← hn,
    Nat.mod_eq_of_lt ((Nat.div_le_self ..).trans_lt x.isLt), Nat.mod_eq_of_lt]
  have high : x.toNat % 2 ^ (n - k) < 2 ^ (n - k) := Nat.mod_lt _ (Nat.two_pow_pos _)
  rw [hn]
  calc 2 ^ k * (x.toNat % 2 ^ (n - k)) + x.toNat / 2 ^ (n - k) < 2 ^ k * (x.toNat % 2 ^ (n - k) + 1) := by rw [Nat.mul_add_one]; omega
    _ ≤ 2 ^ k * 2 ^ (n - k) := Nat.mul_le_mul_left _ high
theorem sgn_toNat : sgn n x.toNat = x.toInt := by rw [sgn, BitVec.ofNat_toNat, BitVec.setWidth_eq]
theorem ofNat_ite (p : Prop) [Decidable p] : BitVec.ofNat n (if p then x.toNat else y.toNat) = if p then x else y := by
  split <;> simp
/-- A shift count is the low bits of R, whatever its sign. -/
theorem shiftCount (hn : IsWidth n) : (y.toInt % (n : Int)).toNat = y.toNat % n := by
  have hd : (n : Int) ∣ ((2 ^ n : Nat) : Int) := by rcases hn with rfl | rfl <;> norm_num
  rw [← Int.emod_emod_of_dvd _ hd, BitVec.toInt_eq_toNat_bmod, Int.bmod_emod, Int.emod_emod_of_dvd _ hd, ← Int.natCast_mod, Int.toNat_natCast]
theorem IsWidth.mod_lt (hn : IsWidth n) (k : Nat) : k % n < n := Nat.mod_lt _ (by rcases hn with rfl | rfl <;> decide)
end

/-- SEL picks L or R at its width. -/
theorem aluResult_sel (w : BitVec 1) (a b c : Value) :
    aluResult (aluWidth w) (natOp (aluWidth w) (if natOp (aluWidth w) c.scalar = 0 then b.scalar else a.scalar)) =
      ofWidth w (fun _ x y => if exactOf w (fun k z _ => decide (z = 0#k)) c c then y else x) a b := by
  have zero : natOp (aluWidth w) c.scalar = 0 ↔ exactOf w (fun k z _ => decide (z = 0#k)) c c = true := by
    rw [← exactOf_natOp (k := fun _ x _ => decide (x = 0)) (fun n _ x _ => by simp [← BitVec.toNat_inj]), decide_eq_true_eq]
  rw [if_congr zero rfl rfl, ← aluResult_eq (k := fun _ x y => if exactOf w (fun k z _ => decide (z = 0#k)) c c then y else x)
    (fun n _ x y => ofNat_ite y x _)]
  split <;> rfl
theorem sel_answers (s : State) (w : BitVec 1) (pr : BitVec 2) (t1 t0 : BitVec 9) (m : BitVec 16) (a b c : Value) (h : MayFire s) (hr : Runs s pr m)
    (ga : Given s 0 a) (gb : Given s 1 b) (gc : Given s 2 c) : exec (.sel w pr t1 t0) s = .next (answers s t1 t0
      (scalar m [a, b, c] (ofWidth w (fun _ x y => if exactOf w (fun k z _ => decide (z = 0#k)) c c then y else x) a b)) []) := by
  show execSel w pr t1 t0 s = _
  refine t_value h hr (.inr ⟨a, ga⟩) (.inr ⟨b, gb⟩) (.inr ⟨c, gc⟩) rfl rfl ?_
  rw [ga.read, gb.read, gc.read, ← aluResult_sel]
  exact (scalarOut_eq s .sel a b c m [a, b, c] _ []).trans (by rw [raised_nil]; rfl)

/-- The major opcodes of the scalar operations: 0x10 for 64 bits, 0x11 for 32. -/
theorem major_width (w : BitVec 1) : (0x08 : BitVec 6) ++ w = if w = 1 then 0x11 else 0x10 := by
  have all : ∀ w : BitVec 1, (0x08 : BitVec 6) ++ w = if w = 1 then 0x11 else 0x10 := by decide
  exact all w
theorem majorOf_alu (w : BitVec 1) (pr : BitVec 2) (t1 t0 : BitVec 9) : ∀ i ∈ [Instr.add w pr t1 t0, .sub w pr t1 t0, .and w pr t1 t0,
    .or w pr t1 t0, .xor w pr t1 t0, .andn w pr t1 t0, .shl w pr t1 t0, .shr w pr t1 t0, .sra w pr t1 t0, .rol w pr t1 t0, .min w pr t1 t0,
    .max w pr t1 t0, .minn w pr t1 t0, .maxn w pr t1 t0, .sel w pr t1 t0], majorOf i = if w = 1 then 0x11 else 0x10 := by
  have one : ∀ xop, major (mkT ((0x08 : BitVec 6) ++ w) pr xop t1 t0) = if w = 1 then 0x11 else 0x10 :=
    fun xop => (major_mkT ..).trans (major_width w)
  simp only [List.forall_mem_cons]
  exact ⟨one 0, one 1, one 2, one 3, one 4, one 5, one 6, one 7, one 8, one 9, one 10, one 11, one 12, one 13, one 14, fun _ h => nomatch h⟩

/-- Settles O1: each operation on numbers of its width is the one on words that the statement names, SEL a choice between two. -/
theorem scalarArithmeticResults : Obligations.ScalarArithmeticResults := by
  refine ⟨saturating_of (fun s w pr t1 t0 => (rfl : execAdd w pr t1 t0 s = _)) rfl rfl (fun _ _ _ _ => rfl) fun _ _ => (exactOf_noEvent ..).symm,
    saturating_of (fun s w pr t1 t0 => (rfl : execSub w pr t1 t0 s = _)) rfl rfl (fun _ _ _ _ => rfl) fun _ _ => (exactOf_noEvent ..).symm,
    saturating_of (fun s w pr t1 t0 => (rfl : execShl w pr t1 t0 s = _)) rfl rfl
      (fun n hn x y => by rw [shiftCount y hn]) fun _ _ => (exactOf_noEvent ..).symm,
    twoOperand_alu (fun s w pr t1 t0 => (rfl : execAnd w pr t1 t0 s = _)) rfl rfl fun n _ x y => by
      rw [← BitVec.toNat_and, BitVec.ofNat_toNat, BitVec.setWidth_eq],
    twoOperand_alu (fun s w pr t1 t0 => (rfl : execOr w pr t1 t0 s = _)) rfl rfl fun n _ x y => by
      rw [← BitVec.toNat_or, BitVec.ofNat_toNat, BitVec.setWidth_eq],
    twoOperand_alu (fun s w pr t1 t0 => (rfl : execXor w pr t1 t0 s = _)) rfl rfl fun n _ x y => by
      rw [← BitVec.toNat_xor, BitVec.ofNat_toNat, BitVec.setWidth_eq],
    twoOperand_alu (fun s w pr t1 t0 => (rfl : execAndn w pr t1 t0 s = _)) rfl rfl fun n _ x y => ofNat_andn x y,
    twoOperand_alu (fun s w pr t1 t0 => (rfl : execShr w pr t1 t0 s = _)) rfl rfl fun n _ x y => ofNat_shr x _,
    twoOperand_alu (fun s w pr t1 t0 => (rfl : execSra w pr t1 t0 s = _)) rfl rfl fun n _ x y => ofNat_sra x _,
    twoOperand_alu (fun s w pr t1 t0 => (rfl : execRol w pr t1 t0 s = _)) rfl rfl fun n hn x y => ofNat_rotl x (hn.mod_lt _),
    twoOperand_alu (fun s w pr t1 t0 => (rfl : execMin w pr t1 t0 s = _)) rfl rfl fun n _ x y => by rw [sgn_toNat, sgn_toNat]; exact ofNat_ite ..,
    twoOperand_alu (fun s w pr t1 t0 => (rfl : execMax w pr t1 t0 s = _)) rfl rfl fun n _ x y => by rw [sgn_toNat, sgn_toNat]; exact ofNat_ite ..,
    twoOperand_alu (fun s w pr t1 t0 => (rfl : execMinn w pr t1 t0 s = _)) rfl rfl fun n _ x y => ofNat_ite ..,
    twoOperand_alu (fun s w pr t1 t0 => (rfl : execMaxn w pr t1 t0 s = _)) rfl rfl fun n _ x y => ofNat_ite ..,
    sel_answers, majorOf_alu⟩

/-! ## Products, quotients, remainders (R135, R136) -/

section
variable {n : Nat} (x y : BitVec n)

theorem toInt_eq_zero_iff : y.toInt = 0 ↔ y = 0 := by
  rw [← BitVec.toInt_inj, BitVec.ofNat_eq_ofNat, BitVec.toInt_zero]
theorem toNat_eq_zero_iff : y.toNat = 0 ↔ y = 0 := by
  rw [← BitVec.toNat_inj, BitVec.ofNat_eq_ofNat, BitVec.toNat_ofNat, Nat.zero_mod]
theorem ofNat_divNat : BitVec.ofNat n (divNat n x.toNat y.toNat) = if y = 0 then BitVec.allOnes n else x / y := by
  unfold divNat
  rw [if_congr (toNat_eq_zero_iff y) rfl rfl]
  split
  · rw [BitVec.allOnes, BitVec.ofNatLT_eq_ofNat]
  · rw [← BitVec.toNat_udiv, BitVec.ofNat_toNat, BitVec.setWidth_eq]
theorem ofNat_remSigned : BitVec.ofNat n ((remSigned (sgn n x.toNat) (sgn n y.toNat) % 2 ^ n).toNat) =
    if y = 0 then x else BitVec.ofInt n (x.toInt - y.toInt * x.toInt.tdiv y.toInt) := by
  rw [ofNat_emod, sgn_toNat, sgn_toNat, remSigned, if_congr (toInt_eq_zero_iff y) rfl rfl]
  split
  · exact BitVec.ofInt_toInt
  · rfl
theorem ofNat_remNat : BitVec.ofNat n (remNat x.toNat y.toNat) = if y = 0 then x else BitVec.ofNat n (x.toNat - y.toNat * (x.toNat / y.toNat)) := by
  rw [remNat, if_congr (toNat_eq_zero_iff y) rfl rfl, Nat.mod_eq_sub_mul_div]
  split
  · rw [BitVec.ofNat_toNat, BitVec.setWidth_eq]
  · rfl
theorem zeroDivEv_toNat : zeroDivEv y.toNat = if y = 0 then [1] else [] := if_congr (toNat_eq_zero_iff y) rfl rfl
end
theorem exactOf_zeroEvent (w : BitVec 1) (a b : Value) : zeroDivEv (natOp (aluWidth w) b.scalar) = exactOf w zeroEvent a b :=
  exactOf_natOp (k := fun _ _ y => zeroDivEv y) (fun _ _ _ y => zeroDivEv_toNat y) w a b
/-- A division on numbers of the width, which counts event 1 for a zero. -/
theorem twoOperand_div {mk : BitVec 1 → BitVec 2 → BitVec 9 → BitVec 9 → Instr} {row : Row} {k : Nat → Nat → Nat → Nat}
    {f : (n : Nat) → BitVec n → BitVec n → BitVec n}
    (he : ∀ s w pr t1 t0, exec (mk w pr t1 t0) s = s.fire (tForm row pr 2 t1 t0) plainNull fun c =>
      c.scalarOut [c.l, c.r] (aluResult (aluWidth w) (k (aluWidth w) (natOp (aluWidth w) c.l.scalar) (natOp (aluWidth w) c.r.scalar)))
        (zeroDivEv (natOp (aluWidth w) c.r.scalar)))
    (hl : row.isLoad = false) (hg : (row == .cusGive) = false)
    (hk : ∀ n, IsWidth n → ∀ x y : BitVec n, BitVec.ofNat n (k n x.toNat y.toNat) = f n x y) : TwoOperand mk f zeroEvent :=
  twoOperand_of he hl hg fun c w => by rw [aluResult_eq hk, exactOf_zeroEvent]

theorem majorOf_multiply (pr : BitVec 2) (w : BitVec 1) (t1 t0 : BitVec 9) : ∀ i ∈ [Instr.mul pr w t1 t0, .mulh pr w t1 t0, .mulhn pr w t1 t0,
    .div pr w t1 t0, .divn pr w t1 t0, .rem pr w t1 t0, .remn pr w t1 t0], majorOf i = 0x12 ∧ (bitsAt (encode i) 21 1 : BitVec 1) = w := by
  have one : ∀ k : BitVec 3, major (mkT 0x12 pr ((0 : BitVec 1) ++ w ++ k) t1 t0) = 0x12 ∧
      bitsAt (mkT 0x12 pr ((0 : BitVec 1) ++ w ++ k) t1 t0) 21 1 = w := fun k => by
    have bit : ∀ (w : BitVec 1) (k : BitVec 3), bitsAt ((0 : BitVec 1) ++ w ++ k) 3 1 = w := by decide
    exact ⟨major_mkT .., (bits_xop_mkT _ _ _ _ _ 21 1 (by decide) (by decide)).trans (bit w k)⟩
  simp only [List.forall_mem_cons]
  exact ⟨one 0, one 1, one 2, one 3, one 4, one 5, one 6, fun _ h => nomatch h⟩

/-- Settles O2: as O1, with the quotient and remainder of a division by zero fixed. -/
theorem multiplyDivideResults : Obligations.MultiplyDivideResults := by
  refine ⟨saturating_of (fun s w pr t1 t0 => (rfl : execMul pr w t1 t0 s = _)) rfl rfl (fun _ _ _ _ => rfl) fun _ _ => (exactOf_noEvent ..).symm,
    twoOperand_alu (fun s w pr t1 t0 => (rfl : execMulh pr w t1 t0 s = _)) rfl rfl fun n _ x y => by rw [ofNat_emod, sgn_toNat, sgn_toNat],
    twoOperand_alu (fun s w pr t1 t0 => (rfl : execMulhn pr w t1 t0 s = _)) rfl rfl fun _ _ _ _ => rfl,
    saturating_of (fun s w pr t1 t0 => (rfl : execDiv pr w t1 t0 s = _)) rfl rfl
      (fun n _ x y => if_congr (toInt_eq_zero_iff y) rfl rfl) fun c w => exactOf_zeroEvent w c.l c.r,
    twoOperand_div (k := divNat) (fun s w pr t1 t0 => (rfl : execDivn pr w t1 t0 s = _)) rfl rfl fun _ _ => ofNat_divNat,
    twoOperand_div (k := fun n a b => (remSigned (sgn n a) (sgn n b) % 2 ^ n).toNat)
      (fun s w pr t1 t0 => (rfl : execRem pr w t1 t0 s = _)) rfl rfl fun _ _ => ofNat_remSigned,
    twoOperand_div (k := fun _ => remNat) (fun s w pr t1 t0 => (rfl : execRemn pr w t1 t0 s = _)) rfl rfl fun _ _ => ofNat_remNat, majorOf_multiply⟩

end Sys2Proof.Claims
end

section
/-! The obligations O3 to O5: bit instructions, compares and predicate masks (R137 to R139). -/

namespace Sys2Proof.Claims
open Sys2Proof.Machine

/-! ## Bits of numbers -/

theorem bitAt_testBit {n : Nat} (w : BitVec n) (i : Nat) : bitAt w i = w.toNat.testBit i := rfl
theorem numAt_low {n : Nat} (w : BitVec n) (k : Nat) : numAt w 0 k = w.toNat % 2 ^ k := by rw [numAt, Nat.pow_zero, Nat.div_one]
theorem digit_testBit (a i : Nat) : (a / 2 ^ i % 2 == 1) = a.testBit i := by
  rw [Nat.testBit_eq_decide_div_mod_eq, Bool.beq_eq_decide_eq]
/-- The first bit that is set among the low `n`, or `n`. -/
theorem firstBit (n a : Nat) : ∃ k, ((List.range n).find? fun i => a / 2 ^ i % 2 == 1).getD n = k ∧ k ≤ n ∧
    (∀ i, i < k → a.testBit i = false) ∧ (k < n → a.testBit k = true) := by
  simp only [digit_testBit]
  cases h : (List.range n).find? fun i => a.testBit i with
  | none => exact ⟨n, rfl, le_refl n, fun i hi => by simpa using List.find?_eq_none.1 h i (List.mem_range.2 hi), fun h => absurd h (lt_irrefl n)⟩
  | some k =>
    obtain ⟨hk, hn, below⟩ := List.find?_range_eq_some.1 h
    exact ⟨k, rfl, (List.mem_range.1 hn).le, fun i hi => by simpa using below i hi, fun _ => hk⟩
theorem popCount_eq (n a : Nat) : popCount n a = (List.range n).countP fun i => a.testBit i := by
  simp only [popCount, digit_testBit, List.countP_eq_length_filter]
/-- No bit above the highest one is set. -/
theorem clz64_bits {a : Nat} (ha : a < 2 ^ 64) : clz64 a ≤ 64 ∧ (∀ i, 64 - clz64 a ≤ i → a.testBit i = false) ∧
    (clz64 a < 64 → a.testBit (63 - clz64 a) = true) := by
  unfold clz64
  split
  · next h => subst h; exact ⟨le_refl _, fun i _ => Nat.zero_testBit i, fun h => absurd h (lt_irrefl _)⟩
  · next h =>
    have top : a.log2 < 64 := (Nat.log2_lt h).2 ha
    refine ⟨by omega, fun i hi => Nat.testBit_lt_two_pow (Nat.lt_log2_self.trans_le (Nat.pow_le_pow_right (by decide) (by omega))), fun _ => ?_⟩
    rw [show 63 - (63 - a.log2) = a.log2 by omega]
    exact Nat.testBit_log2 h
/-- Digits of `w` bits, taken one by one to the front, stand in the opposite order. -/
theorem testBit_reversed {w : Nat} (d : Nat → Nat) (hd : ∀ i, d i < 2 ^ w) {k : Nat} (hk : k < w) : ∀ n j, j < n →
    ((List.range n).foldl (fun x i => 2 ^ w * x + d i) 0).testBit (w * j + k) = (d (n - 1 - j)).testBit k := by
  intro n
  induction n with
  | zero => intro j h; exact absurd h (Nat.not_lt_zero j)
  | succ n ih =>
    intro j h
    rw [List.range_succ, List.foldl_append, List.foldl_cons, List.foldl_nil, Nat.testBit_two_pow_mul_add _ (hd n)]
    cases j with
    | zero => rw [if_pos (by omega), Nat.mul_zero, Nat.zero_add]; rfl
    | succ j =>
      rw [if_neg (by rw [Nat.mul_succ]; omega), show w * (j + 1) + k - w = w * j + k by rw [Nat.mul_succ]; omega, ih j (by omega)]
      congr 2; omega
theorem brev64_bits (a : Nat) {i : Nat} (hi : i < 64) : (brev64 a).testBit i = a.testBit (63 - i) := by
  have h := testBit_reversed (w := 1) (k := 0) (fun i => a / 2 ^ i % 2) (fun i => Nat.mod_lt _ (by decide)) (by decide) 64 i hi
  rw [Nat.one_mul, Nat.add_zero] at h
  refine h.trans ?_
  rw [Nat.testBit_zero, Nat.mod_mod, Nat.testBit_eq_decide_div_mod_eq]
theorem bswap64_bits (a : Nat) {i j : Nat} (hi : i < 8) (hj : j < 8) : (bswap64 a).testBit (8 * i + j) = a.testBit (8 * (7 - i) + j) := by
  refine (testBit_reversed (w := 8) (fun i => a / 2 ^ (8 * i) % 256) (fun i => Nat.mod_lt _ (by decide)) hj 8 i hi).trans ?_
  rw [show 256 = 2 ^ 8 from rfl, Nat.testBit_mod_two_pow, Nat.testBit_div_two_pow]
  simp [hj, Nat.add_comm]
/-- The low bits of a word, zero-extended, are the word masked. -/
theorem zext64_low (a : Word) {k : Nat} (hk : k ≤ 64) : zext64 (a.truncate k) = a &&& BitVec.ofNat 64 (2 ^ k - 1) := by
  have small : 2 ^ k - 1 < 2 ^ 64 := (Nat.sub_lt (Nat.two_pow_pos k) Nat.one_pos).trans_le (Nat.pow_le_pow_right (by decide) hk)
  apply BitVec.eq_of_toNat_eq
  rw [BitVec.toNat_and, BitVec.toNat_ofNat, Nat.mod_eq_of_lt small, Nat.and_two_pow_sub_one_eq_mod, zext64, BitVec.zeroExtend_eq_setWidth,
    BitVec.truncate_eq_setWidth, BitVec.toNat_setWidth, BitVec.toNat_setWidth, Nat.mod_eq_of_lt]
  exact (Nat.mod_le ..).trans_lt a.isLt

/-! ## One-operand instructions (R137) -/

theorem oneOperand_of {mk : BitVec 2 → BitVec 9 → BitVec 9 → Instr} {row : Row} {f : Word → Word} {R : Word → Word → Prop}
    (he : ∀ s pr t1 t0, exec (mk pr t1 t0) s = s.fire (tForm row pr 1 t1 t0) plainNull fun c => c.scalarOut [c.l] (f c.l.scalar))
    (hl : row.isLoad = false) (hg : (row == .cusGive) = false) (hR : ∀ a, R a (f a)) : OneOperand mk R :=
  fun s pr t1 t0 m a h hr g0 => ⟨f a.scalar, hR _, (one_gen (he s pr t1 t0) hl hg h hr g0 fun _ _ => rfl).trans (by rw [raised_nil])⟩

theorem clz_word (a : Word) : ∃ k, k ≤ 64 ∧ BitVec.ofNat 64 (clz64 a.toNat) = BitVec.ofNat 64 k ∧ (∀ i, 64 - k ≤ i → bitAt a i = false) ∧
    (k < 64 → bitAt a (63 - k) = true) :=
  let ⟨h, high, top⟩ := clz64_bits a.isLt
  ⟨clz64 a.toNat, h, rfl, high, top⟩
theorem ctz_word (a : Word) : ∃ k, k ≤ 64 ∧ BitVec.ofNat 64 (ctz64 a.toNat) = BitVec.ofNat 64 k ∧ (∀ i, i < k → bitAt a i = false) ∧
    (k < 64 → bitAt a k = true) :=
  let ⟨k, hk, h, below, first⟩ := firstBit 64 a.toNat
  ⟨k, h, congrArg (BitVec.ofNat 64) hk, below, first⟩
theorem brev_word (a : Word) {i : Nat} (hi : i < 64) : bitAt (BitVec.ofNat 64 (brev64 a.toNat)) i = bitAt a (63 - i) := by
  rw [bitAt, BitVec.getLsbD_ofNat, brev64_bits _ hi]
  simp [hi, bitAt_testBit]
theorem bswap_word (a : Word) {i j : Nat} (hi : i < 8) (hj : j < 8) :
    bitAt (BitVec.ofNat 64 (bswap64 a.toNat)) (8 * i + j) = bitAt a (8 * (7 - i) + j) := by
  rw [bitAt, BitVec.getLsbD_ofNat, bswap64_bits _ hi hj]
  simp [show 8 * i + j < 64 by omega, bitAt_testBit]

theorem majorOf_bits (pr : BitVec 2) (t1 t0 : BitVec 9) : ∀ i ∈ [Instr.clz pr t1 t0, .ctz pr t1 t0, .pop pr t1 t0, .sext8 pr t1 t0,
    .sext16 pr t1 t0, .sext32 pr t1 t0, .zext8 pr t1 t0, .zext16 pr t1 t0, .zext32 pr t1 t0, .brev pr t1 t0, .bswap pr t1 t0],
    majorOf i = 0x13 := by
  have one : ∀ xop, major (mkT 0x13 pr xop t1 t0) = 0x13 := fun xop => major_mkT ..
  simp only [List.forall_mem_cons]
  exact ⟨one 0, one 1, one 2, one 3, one 4, one 5, one 6, one 7, one 8, one 9, one 10, fun _ h => nomatch h⟩

/-- Settles O3: counts by the first and the last bit that is set, reversals by the digits in the opposite order. -/
theorem bitInstructionResults : Obligations.BitInstructionResults :=
  ⟨oneOperand_of (f := fun a => BitVec.ofNat 64 (clz64 a.toNat)) (fun s pr t1 t0 => (rfl : execClz pr t1 t0 s = _)) rfl rfl clz_word,
    oneOperand_of (f := fun a => BitVec.ofNat 64 (ctz64 a.toNat)) (fun s pr t1 t0 => (rfl : execCtz pr t1 t0 s = _)) rfl rfl ctz_word,
    oneOperand_of (f := fun a => BitVec.ofNat 64 (popCount 64 a.toNat))
      (fun s pr t1 t0 => (rfl : execPop pr t1 t0 s = _)) rfl rfl fun a => congrArg (BitVec.ofNat 64) (popCount_eq 64 a.toNat),
    oneOperand_of (f := fun a => sext64 (a.truncate 8)) (fun s pr t1 t0 => (rfl : execSext8 pr t1 t0 s = _)) rfl rfl fun _ => rfl,
    oneOperand_of (f := fun a => sext64 (a.truncate 16)) (fun s pr t1 t0 => (rfl : execSext16 pr t1 t0 s = _)) rfl rfl fun _ => rfl,
    oneOperand_of (f := fun a => sext64 (a.truncate 32)) (fun s pr t1 t0 => (rfl : execSext32 pr t1 t0 s = _)) rfl rfl fun _ => rfl,
    oneOperand_of (f := fun a => zext64 (a.truncate 8))
      (fun s pr t1 t0 => (rfl : execZext8 pr t1 t0 s = _)) rfl rfl fun a => zext64_low a (k := 8) (by decide),
    oneOperand_of (f := fun a => zext64 (a.truncate 16))
      (fun s pr t1 t0 => (rfl : execZext16 pr t1 t0 s = _)) rfl rfl fun a => zext64_low a (k := 16) (by decide),
    oneOperand_of (f := fun a => zext64 (a.truncate 32))
      (fun s pr t1 t0 => (rfl : execZext32 pr t1 t0 s = _)) rfl rfl fun a => zext64_low a (k := 32) (by decide),
    oneOperand_of (f := fun a => BitVec.ofNat 64 (brev64 a.toNat)) (fun s pr t1 t0 => (rfl : execBrev pr t1 t0 s = _)) rfl rfl fun a _ => brev_word a,
    oneOperand_of (f := fun a => BitVec.ofNat 64 (bswap64 a.toNat)) (fun s pr t1 t0 => (rfl : execBswap pr t1 t0 s = _)) rfl rfl
      fun a _ _ => bswap_word a,
    majorOf_bits⟩

/-! ## Compares (R138) -/

theorem compares_of {mk : BitVec 1 → BitVec 2 → BitVec 9 → BitVec 9 → Instr} {row : Row} {k : BitVec 1 → Ctx → Bool}
    {R : (n : Nat) → BitVec n → BitVec n → Bool}
    (he : ∀ s w pr t1 t0, exec (mk w pr t1 t0) s = s.fire (tForm row pr 2 t1 t0) plainNull fun c => c.test [c.l, c.r] (k w c))
    (hl : row.isLoad = false) (hg : (row == .cusGive) = false) (hk : ∀ (c : Ctx) w, k w c = exactOf w R c.l c.r) : Compares mk R :=
  fun s w pr t1 t0 m a b h hr g0 g1 =>
    (two_gen (x := if exactOf w R a b then 1 else 0) (evs := []) (he s w pr t1 t0) hl hg h hr g0 g1 fun t => by rw [hk]; rfl).trans
      (by rw [raised_nil])
theorem toNat_beq {n : Nat} (x y : BitVec n) : (x.toNat == y.toNat) = (x == y) := by
  rw [Bool.eq_iff_iff, beq_iff_eq, beq_iff_eq, BitVec.toNat_inj]
theorem tbit_answers (s : State) (pr : BitVec 2) (t1 t0 : BitVec 9) (m : BitVec 16) (a b : Value) (h : MayFire s) (hr : Runs s pr m)
    (ga : Given s 0 a) (gb : Given s 1 b) : exec (.tbit pr t1 t0) s =
      .next (answers s t1 t0 (scalar m [a, b] (if bitAt a.scalar (b.scalar.toNat % 64) then 1 else 0)) []) := by
  have count : numAt b.scalar 0 6 = b.scalar.toNat % 64 := numAt_low ..
  rw [← count, ← raised_nil m [a, b]]
  exact two_gen (rfl : execTbit pr t1 t0 s = _) rfl rfl h hr ga gb fun _ => rfl

theorem majorOf_compare (pr : BitVec 2) (w : BitVec 1) (t1 t0 : BitVec 9) : ∀ i ∈ [Instr.teq pr w t1 t0, .tne pr w t1 t0, .tlt pr w t1 t0,
    .tle pr w t1 t0, .tltn pr w t1 t0, .tlen pr w t1 t0, .tbit pr t1 t0], majorOf i = 0x14 := by
  have one : ∀ xop, major (mkT 0x14 pr xop t1 t0) = 0x14 := fun xop => major_mkT ..
  have wide : ∀ k : BitVec 3, major (mkT 0x14 pr ((0 : BitVec 1) ++ w ++ k) t1 t0) = 0x14 := fun k => one _
  simp only [List.forall_mem_cons]
  exact ⟨wide 0, wide 1, wide 2, wide 3, wide 4, wide 5, one 6, fun _ h => nomatch h⟩

/-- Settles O4: each relation on numbers of the width is that on words. -/
theorem compareResults : Obligations.CompareResults :=
  ⟨compares_of (fun s w pr t1 t0 => (rfl : execTeq pr w t1 t0 s = _)) rfl rfl fun c w =>
      exactOf_natOp (k := fun _ x y => x == y) (fun _ _ => toNat_beq) w c.l c.r,
    compares_of (fun s w pr t1 t0 => (rfl : execTne pr w t1 t0 s = _)) rfl rfl fun c w =>
      exactOf_natOp (k := fun _ x y => x != y) (fun _ _ x y => congrArg not (toNat_beq x y)) w c.l c.r,
    compares_of (fun s w pr t1 t0 => (rfl : execTlt pr w t1 t0 s = _)) rfl rfl fun c w =>
      exactOf_intOp (k := fun _ x y => decide (x < y)) (fun _ _ _ _ => rfl) w c.l c.r,
    compares_of (fun s w pr t1 t0 => (rfl : execTle pr w t1 t0 s = _)) rfl rfl fun c w =>
      exactOf_intOp (k := fun _ x y => decide (x ≤ y)) (fun _ _ _ _ => rfl) w c.l c.r,
    compares_of (fun s w pr t1 t0 => (rfl : execTltn pr w t1 t0 s = _)) rfl rfl fun c w =>
      exactOf_natOp (k := fun _ x y => decide (x < y)) (fun _ _ _ _ => rfl) w c.l c.r,
    compares_of (fun s w pr t1 t0 => (rfl : execTlen pr w t1 t0 s = _)) rfl rfl fun c w =>
      exactOf_natOp (k := fun _ x y => decide (x ≤ y)) (fun _ _ _ _ => rfl) w c.l c.r,
    tbit_answers, majorOf_compare⟩

/-! ## Predicate masks (R139) -/

theorem mask16_eq (v : Value) : mask16 v = (Claims.maskOf v).toNat := by
  rw [mask16, numAt_low, Claims.maskOf, BitVec.toNat_setWidth]
theorem oneMask_of {mk : BitVec 2 → BitVec 9 → BitVec 9 → Instr} {row : Row} {f : Nat → Nat} {R : BitVec 16 → Word → Prop}
    (he : ∀ s pr t1 t0, exec (mk pr t1 t0) s = s.fire (tForm row pr 1 t1 t0) plainNull fun c =>
      c.scalarOut [c.l] (BitVec.ofNat 64 (f (mask16 c.l))))
    (hl : row.isLoad = false) (hg : (row == .cusGive) = false) (hR : ∀ a : BitVec 16, R a (BitVec.ofNat 64 (f a.toNat))) : OneMask mk R :=
  fun s pr t1 t0 m a h hr g0 => ⟨BitVec.ofNat 64 (f (mask16 a)), by rw [mask16_eq]; exact hR _,
    (one_gen (he s pr t1 t0) hl hg h hr g0 fun _ _ => rfl).trans (by rw [raised_nil])⟩
theorem twoMask_of {mk : BitVec 2 → BitVec 9 → BitVec 9 → Instr} {row : Row} {k : Nat → Nat → Nat} {f : BitVec 16 → BitVec 16 → BitVec 16}
    (he : ∀ s pr t1 t0, exec (mk pr t1 t0) s = s.fire (tForm row pr 2 t1 t0) plainNull fun c =>
      c.scalarOut [c.l, c.r] (BitVec.ofNat 64 (k (mask16 c.l) (mask16 c.r))))
    (hl : row.isLoad = false) (hg : (row == .cusGive) = false) (hk : ∀ a b, k a.toNat b.toNat = (f a b).toNat) : TwoMask mk f :=
  fun s pr t1 t0 m a b h hr g0 g1 => by
    rw [← raised_nil m [a, b], ← BitVec.ofNat_toNat, ← hk, ← mask16_eq, ← mask16_eq]
    exact two_gen (he s pr t1 t0) hl hg h hr g0 g1 fun _ => rfl
theorem ofNat_bit1 (b : Bool) : BitVec.ofNat 64 (bit1 b) = if b then 1 else 0 := by cases b <;> rfl

theorem pnot_word (a : BitVec 16) : BitVec.ofNat 64 (0xFFFF - a.toNat) = (~~~a).setWidth 64 := by
  rw [← BitVec.ofNat_toNat, BitVec.toNat_not]
theorem pany_word (a : BitVec 16) : BitVec.ofNat 64 (bit1 (a.toNat != 0)) = if a ≠ 0 then 1 else 0 := by
  rw [ofNat_bit1]
  exact if_congr (by rw [bne_iff_ne, ne_eq, toNat_eq_zero_iff]) rfl rfl
theorem pall_word (a : BitVec 16) : BitVec.ofNat 64 (bit1 (a.toNat == 0xFFFF)) = if a = 0xFFFF then 1 else 0 := by
  rw [ofNat_bit1]
  exact if_congr (by rw [beq_iff_eq, ← BitVec.toNat_inj]; rfl) rfl rfl
theorem pfirst_word (a : BitVec 16) : ∃ k, k ≤ 16 ∧
    BitVec.ofNat 64 (((List.range 16).find? fun i => a.toNat / 2 ^ i % 2 == 1).getD 16) = BitVec.ofNat 64 k ∧
    (∀ i, i < k → bitAt a i = false) ∧ (k < 16 → bitAt a k = true) :=
  let ⟨k, hk, h, below, first⟩ := firstBit 16 a.toNat
  ⟨k, h, congrArg (BitVec.ofNat 64) hk, below, first⟩

theorem majorOf_masks (pr : BitVec 2) (t1 t0 : BitVec 9) : ∀ i ∈ [Instr.pand pr t1 t0, .por pr t1 t0, .pxor pr t1 t0, .pnot pr t1 t0,
    .pany pr t1 t0, .pall pr t1 t0, .pcnt pr t1 t0, .pfirst pr t1 t0], majorOf i = 0x15 := by
  have one : ∀ xop, major (mkT 0x15 pr xop t1 t0) = 0x15 := fun xop => major_mkT ..
  simp only [List.forall_mem_cons]
  exact ⟨one 0, one 1, one 2, one 3, one 4, one 5, one 6, one 7, fun _ h => nomatch h⟩

/-- Settles O5: each operation on the number of a mask is that on its sixteen bits. -/
theorem predicateMaskResults : Obligations.PredicateMaskResults :=
  ⟨twoMask_of (fun s pr t1 t0 => (rfl : execPand pr t1 t0 s = _)) rfl rfl fun _ _ => (BitVec.toNat_and ..).symm,
    twoMask_of (fun s pr t1 t0 => (rfl : execPor pr t1 t0 s = _)) rfl rfl fun _ _ => (BitVec.toNat_or ..).symm,
    twoMask_of (fun s pr t1 t0 => (rfl : execPxor pr t1 t0 s = _)) rfl rfl fun _ _ => (BitVec.toNat_xor ..).symm,
    oneMask_of (f := fun a => 0xFFFF - a) (fun s pr t1 t0 => (rfl : execPnot pr t1 t0 s = _)) rfl rfl pnot_word,
    oneMask_of (f := fun a => bit1 (a != 0)) (fun s pr t1 t0 => (rfl : execPany pr t1 t0 s = _)) rfl rfl pany_word,
    oneMask_of (f := fun a => bit1 (a == 0xFFFF)) (fun s pr t1 t0 => (rfl : execPall pr t1 t0 s = _)) rfl rfl pall_word,
    oneMask_of (f := popCount 16) (fun s pr t1 t0 => (rfl : execPcnt pr t1 t0 s = _)) rfl rfl fun a =>
      congrArg (BitVec.ofNat 64) (popCount_eq 16 a.toNat),
    oneMask_of (f := fun a => ((List.range 16).find? fun i => a / 2 ^ i % 2 == 1).getD 16) (fun s pr t1 t0 => (rfl : execPfirst pr t1 t0 s = _))
      rfl rfl pfirst_word, majorOf_masks⟩

end Sys2Proof.Claims
end

section
/-! The obligation O6: the immediate instructions (R140, R141), with the field that a wide EXT extends (R63, R64). -/

namespace Sys2Proof.Claims
open Sys2Proof.Machine

/-! ## Fields of an immediate (R63, R64) -/

/-- The payload of a wide EXT, as the model finds it. -/
theorem widePayload_eq (s : State) :
    widePayload s = (extOf (blkOf s).words (indexOf s)).bind fun e => if xKind e = 0 then some (xPay e) else none := by
  unfold widePayload extOf
  by_cases h0 : indexOf s = 0
  · cases (blkOf s).words[indexOf s - 1]? <;> simp [h0]
  · cases (blkOf s).words[indexOf s - 1]? with
    | none => simp [h0]
    | some w =>
      have hp : 0 < indexOf s := by omega
      by_cases hm : bitsAt w 25 7 = 1#7 <;> by_cases hk : bitsAt w 23 2 = 0#2 <;> simp [h0, hp, major, xKind, xPay, hm, hk]
theorem wideFieldZ_eq (s : State) {n : Nat} (imm : BitVec n) : wideFieldZ (blkOf s).words (indexOf s) n imm = naturalImm s imm := by
  unfold wideFieldZ naturalImm
  rw [widePayload_eq]
  cases extOf (blkOf s).words (indexOf s) with
  | none => rfl
  | some e => simp only [Option.bind_some]; split <;> rfl
theorem append_zeros (imm : BitVec 14) : imm ++ (0 : BitVec 18) = imm.setWidth 32 <<< 18 := by
  apply BitVec.eq_of_getLsbD_eq
  intro i hi
  rw [BitVec.getLsbD_append, BitVec.getLsbD_shiftLeft, BitVec.getLsbD_setWidth]
  by_cases h : i < 18
  · simp [h]
  · simp [h, hi, show i - 18 < 32 by omega]
theorem movifBits_eq (s : State) (imm : BitVec 14) : movifBits (blkOf s).words (indexOf s) imm =
    match widePayload s with | some p => (p ++ imm).setWidth 32 | none => imm.setWidth 32 <<< 18 := by
  unfold movifBits
  rw [widePayload_eq, append_zeros]
  cases extOf (blkOf s).words (indexOf s) with
  | none => rfl
  | some e => simp only [Option.bind_some]; split <;> rfl

section
variable (s : State) (row : Row) (l r t : Value) (m : BitVec 16) (imm : BitVec 14)
@[simp] theorem ctxOf_imm : (ctxOf s row l r t m).imm imm = signedImm s imm := wideField_eq s imm
@[simp] theorem ctxOf_immZ : (ctxOf s row l r t m).immZ imm = naturalImm s imm := wideFieldZ_eq s imm
@[simp] theorem ctxOf_sat : (ctxOf s row l r t m).sat = satOf s := rfl
end

/-! ## Instructions with an immediate -/

theorem withImm_of {mk : BitVec 2 → BitVec 14 → BitVec 9 → Instr} {row : Row} {act : BitVec 14 → Ctx → Except Trap Fired}
    {f : State → BitVec 14 → Word → Word} {ev : State → BitVec 14 → Word → List Nat}
    (he : ∀ s pr imm t0, exec (mk pr imm t0) s = s.fire (iForm row pr 1 t0) plainNull (act imm)) (hl : row.isLoad = false)
    (hg : (row == .cusGive) = false)
    (ha : ∀ s imm a r t m, act imm (ctxOf s row a r t m) = (ctxOf s row a r t m).scalarOut [a] (f s imm a.scalar) (ev s imm a.scalar)) :
    WithImm mk f ev :=
  fun s pr imm t0 m a h hr g0 => imm_gen (he s pr imm t0) hl hg h hr g0 fun b t => ha s imm a b t m
/-- An instruction that clamps its exact 64-bit result under saturation. -/
theorem withImm_saturating {mk : BitVec 2 → BitVec 14 → BitVec 9 → Instr} {row : Row} {k : Ctx → BitVec 14 → Int}
    {z : State → BitVec 14 → Word → Int}
    (he : ∀ s pr imm t0, exec (mk pr imm t0) s = s.fire (iForm row pr 1 t0) plainNull fun c =>
      c.scalarOut [c.l] (BitVec.ofNat 64 (satSigned c.sat 64 (k c imm)).1) (clampEv (satSigned c.sat 64 (k c imm)).2))
    (hl : row.isLoad = false) (hg : (row == .cusGive) = false) (hk : ∀ s imm a r t m, k (ctxOf s row a r t m) imm = z s imm a.scalar) :
    WithImm mk (fun s imm a => narrowed (satOf s) 64 (z s imm a)) (fun s imm a => clampEvent (satOf s) 64 (z s imm a)) :=
  withImm_of he hl hg fun _ _ _ _ _ _ => by rw [satSigned_fst, satSigned_snd, hk, ctxOf_sat, ctxOf_l]
/-- An instruction that raises no event. -/
theorem withImm_quiet {mk : BitVec 2 → BitVec 14 → BitVec 9 → Instr} {row : Row} {k : Ctx → BitVec 14 → Word}
    {f : State → BitVec 14 → Word → Word}
    (he : ∀ s pr imm t0, exec (mk pr imm t0) s = s.fire (iForm row pr 1 t0) plainNull fun c => c.scalarOut [c.l] (k c imm))
    (hl : row.isLoad = false) (hg : (row == .cusGive) = false) (hk : ∀ s imm a r t m, k (ctxOf s row a r t m) imm = f s imm a.scalar) :
    WithImm mk f (fun _ _ _ => []) :=
  withImm_of he hl hg fun _ _ _ _ _ _ => by rw [hk, ctxOf_l]
/-- A compare with an immediate. -/
theorem withImm_test {mk : BitVec 2 → BitVec 14 → BitVec 9 → Instr} {row : Row} {k : Word → Word → Bool} {p : Word → Word → Prop}
    [∀ a b, Decidable (p a b)] {yes no : Word}
    (he : ∀ s pr imm t0, exec (mk pr imm t0) s = s.fire (iForm row pr 1 t0) plainNull fun c => c.test [c.l] (k c.l.scalar (c.imm imm)))
    (hl : row.isLoad = false) (hg : (row == .cusGive) = false) (hk : ∀ a b, (if k a b then 1 else 0) = if p a b then yes else no) :
    WithImm mk (fun s imm a => if p a (signedImm s imm) then yes else no) (fun _ _ _ => []) :=
  withImm_quiet (k := fun c imm => if k c.l.scalar (c.imm imm) then 1 else 0) he hl hg fun s imm a r t m => by rw [ctxOf_imm, hk]; rfl
theorem shiftCount_imm (imm : BitVec 14) : numAt imm 0 6 = imm.toNat % 64 := numAt_low ..

theorem execAddiw_answers : WithImm .addiw
    (fun s k a => (narrowed (satOf s) 32 ((a.setWidth 32).toInt + ((signedImm s k).setWidth 32).toInt)).signExtend 64)
    (fun s k a => clampEvent (satOf s) 32 ((a.setWidth 32).toInt + ((signedImm s k).setWidth 32).toInt)) :=
  withImm_of (fun s pr imm t0 => (rfl : execAddiw pr imm t0 s = _)) rfl rfl fun s imm a r t m => by
    simp only [satSigned_fst, satSigned_snd, ctxOf_imm, ctxOf_l, ctxOf_sat]
    rfl

/-! ## Constants (R140, R141) -/

section
variable (s : State) (pr : BitVec 2) (imm : BitVec 14) (t0 : BitVec 9) (m : BitVec 16) (h : MayFire s) (hr : Runs s pr m)
include h hr

/-- An instruction without operands answers its constant. -/
theorem constant_answers {i : Instr} {row : Row} {act : Ctx → Except Trap Fired} {x : Word}
    (he : exec i s = s.fire (iForm row pr 0 t0) plainNull act) (hl : row.isLoad = false) (hg : (row == .cusGive) = false)
    (ha : ∀ l r t, act (ctxOf s row l r t m) = (ctxOf s row l r t m).scalarOut [] x) :
    exec i s = .next (answers s noTarget t0 (scalar m [] x) []) := by
  rw [he]
  refine i_value h hr (.inl (by decide)) (.inl (by decide)) (by decide) (.inl hl) hg ((ha ..).trans ?_)
  rw [scalarOut_eq, raised_nil]
theorem movi_answers : exec (.movi pr imm t0) s = .next (answers s noTarget t0 (scalar m [] (signedImm s imm)) []) :=
  constant_answers s pr t0 m h hr (rfl : execMovi pr imm t0 s = _) rfl rfl fun _ _ _ => by rw [ctxOf_imm]
theorem movif_answers : exec (.movif pr imm t0) s = .next (answers s noTarget t0
    (scalar m [] ((match widePayload s with | some p => (p ++ imm).setWidth 32 | none => imm.setWidth 32 <<< 18 : W32).setWidth 64)) []) :=
  constant_answers s pr t0 m h hr (rfl : execMovif pr imm t0 s = _) rfl rfl fun _ _ _ => by
    rw [← movifBits_eq]; rfl
end

theorem majorOf_imm (pr : BitVec 2) (imm : BitVec 14) (t0 : BitVec 9) : [Instr.addi pr imm t0, .addiw pr imm t0, .andi pr imm t0, .ori pr imm t0,
    .xori pr imm t0, .shli pr imm t0, .shri pr imm t0, .srai pr imm t0, .muli pr imm t0, .teqi pr imm t0, .tnei pr imm t0, .tlti pr imm t0,
    .tlei pr imm t0, .tltni pr imm t0, .movi pr imm t0, .movif pr imm t0].map majorOf = (List.range 16).map fun n => BitVec.ofNat 7 (0x18 + n) := by
  show ((List.range 16).map fun n => major (mkI (BitVec.ofNat 7 (0x18 + n)) pr imm t0)) = _
  exact List.map_congr_left fun _ _ => major_mkI ..

/-- Settles O6: the immediate is the field with the payload of a wide EXT in front, and each instruction is its operation on it. -/
theorem immediateResults : Obligations.ImmediateResults :=
  ⟨withImm_saturating (k := fun c imm => c.l.scalar.toInt + (c.imm imm).toInt) (fun s pr imm t0 => (rfl : execAddi pr imm t0 s = _)) rfl rfl
      fun s imm a r t m => by rw [ctxOf_imm, ctxOf_l],
    execAddiw_answers,
    withImm_quiet (k := fun c imm => c.l.scalar &&& c.immZ imm) (fun s pr imm t0 => (rfl : execAndi pr imm t0 s = _)) rfl rfl
      fun s imm a r t m => by rw [ctxOf_immZ, ctxOf_l],
    withImm_quiet (k := fun c imm => c.l.scalar ||| c.immZ imm) (fun s pr imm t0 => (rfl : execOri pr imm t0 s = _)) rfl rfl
      fun s imm a r t m => by rw [ctxOf_immZ, ctxOf_l],
    withImm_quiet (k := fun c imm => c.l.scalar ^^^ c.immZ imm) (fun s pr imm t0 => (rfl : execXori pr imm t0 s = _)) rfl rfl
      fun s imm a r t m => by rw [ctxOf_immZ, ctxOf_l],
    withImm_saturating (k := fun c imm => c.l.scalar.toInt * 2 ^ numAt imm 0 6) (fun s pr imm t0 => (rfl : execShli pr imm t0 s = _)) rfl rfl
      fun s imm a r t m => by rw [shiftCount_imm, ctxOf_l],
    withImm_quiet (k := fun c imm => c.l.scalar >>> numAt imm 0 6) (fun s pr imm t0 => (rfl : execShri pr imm t0 s = _)) rfl rfl
      fun s imm a r t m => by rw [shiftCount_imm, ctxOf_l],
    withImm_quiet (k := fun c imm => c.l.scalar.sshiftRight (numAt imm 0 6)) (fun s pr imm t0 => (rfl : execSrai pr imm t0 s = _)) rfl rfl
      fun s imm a r t m => by rw [shiftCount_imm, ctxOf_l],
    withImm_saturating (k := fun c imm => c.l.scalar.toInt * (c.imm imm).toInt) (fun s pr imm t0 => (rfl : execMuli pr imm t0 s = _)) rfl rfl
      fun s imm a r t m => by rw [ctxOf_imm, ctxOf_l],
    withImm_test (k := fun a b => a == b) (p := fun a b => a = b) (yes := 1) (no := 0)
      (fun s pr imm t0 => (rfl : execTeqi pr imm t0 s = _)) rfl rfl fun a b => if_congr beq_iff_eq rfl rfl,
    withImm_test (k := fun a b => a != b) (p := fun a b => a = b) (yes := 0) (no := 1)
      (fun s pr imm t0 => (rfl : execTnei pr imm t0 s = _)) rfl rfl fun a b => by
      rw [if_congr bne_iff_ne rfl rfl, ite_not],
    withImm_test (k := fun a b => decide (a.toInt < b.toInt)) (p := fun a b => a.toInt < b.toInt) (yes := 1) (no := 0)
      (fun s pr imm t0 => (rfl : execTlti pr imm t0 s = _)) rfl rfl
      fun a b => if_congr decide_eq_true_iff rfl rfl,
    withImm_test (k := fun a b => decide (a.toInt ≤ b.toInt)) (p := fun a b => a.toInt ≤ b.toInt) (yes := 1) (no := 0)
      (fun s pr imm t0 => (rfl : execTlei pr imm t0 s = _)) rfl rfl
      fun a b => if_congr decide_eq_true_iff rfl rfl,
    withImm_test (k := fun a b => decide (a.toNat < b.toNat)) (p := fun a b => a.toNat < b.toNat) (yes := 1) (no := 0)
      (fun s pr imm t0 => (rfl : execTltni pr imm t0 s = _)) rfl rfl
      fun a b => if_congr decide_eq_true_iff rfl rfl,
    fun s pr imm t0 m h hr => ⟨movi_answers s pr imm t0 m h hr, movif_answers s pr imm t0 m h hr⟩, majorOf_imm⟩

end Sys2Proof.Claims
end

section
/-! The obligations O7 and O9: READ and PORT (R35, R36, R120, R121, R450), and the exits and SLEEP (R125 to R132). -/

namespace Sys2Proof.Claims
open Sys2Proof.Machine

/-! ## READ (R120) -/

/-- A register that has no error is what READ answers. -/
theorem read_answers (s : State) (e : BitVec 1) (reg : BitVec 6) (t1 t0 : BitVec 9) (h : MayFire s)
    (hp : (mapGet (blkOf s).regs reg.toNat).poison = 0) (hc : (mapGet (blkOf s).regs reg.toNat).corr = 0) :
    exec (.read e reg t1 t0) s = .next (answers s t1 t0 (mapGet (blkOf s).regs reg.toNat).value []) := by
  let f : Form := { pr := 0, arity := 0, t0 := t0, t1 := t1, row := .read }
  have ctx : s.ctx f = some (seen s f, (opnd s 3).getD default) :=
    ctx_eq f h (.inl (Nat.zero_lt_succ 0)) (.inl (Nat.zero_lt_succ 1)) (.inl (Nat.zero_lt_succ 2)) (.inl rfl) (.inl rfl)
  show execRead e reg t1 t0 s = _
  unfold execRead
  simp only [show s.ctx { pr := 0, arity := 0, t0 := t0, t1 := t1, row := .read } = _ from ctx]
  refine (if_neg fun c => c.2 hc).trans ?_
  exact (Fires.none (f := f) h .always rfl rfl rfl (fun _ _ _ => rfl) rfl).value (if_pos hp)

/-! ## PORT (R35, R36, R121) -/

section
variable {s : State} {reg : BitVec 6}

/-- The head word of a neighbour's queue. -/
theorem portHead_neighbour {w : V512} {t : Word} {ws : List (V512 × Word)} (hr : reg.toNat < 4) (hp : (s.portTo s.here.1 reg.toNat).isSome = true)
    (hw : (mapGet (s.core s.here.1).ports reg.toNat).words = (w, t) :: ws) : s.portHead s.here.1 reg.toNat = some (dataValue w) := by
  unfold State.portHead State.portWord
  rw [if_neg (by omega), if_neg (by rw [Option.isNone_iff_eq_none]; exact Option.isSome_iff_ne_none.1 hp), hw]
  rfl
/-- The oldest entry of the inbox. -/
theorem portHead_inbox (hq : 0 < qCount (numBytes (s.core s.here.1).s.bytes 0xF000 8)) :
    s.portHead s.here.1 4 = some (entryValue ((s.core s.here.1).qEntry 0xF000 (qHead (numBytes (s.core s.here.1).s.bytes 0xF000 8)))) := by
  unfold State.portHead State.portWord
  rw [if_pos rfl]
  exact congrArg (Option.map Prod.fst) (if_neg (Nat.ne_of_gt hq))
/-- A queue without a word, one whose neighbour lies outside the lodging or is disabled, and an empty inbox. -/
theorem portHead_empty (h : reg.toNat < 4 ∧ (s.portTo s.here.1 reg.toNat = none ∨ (mapGet (s.core s.here.1).ports reg.toNat).words = []) ∨
    reg = 4 ∧ qCount (numBytes (s.core s.here.1).s.bytes 0xF000 8) = 0) : s.portHead s.here.1 reg.toNat = none := by
  unfold State.portHead State.portWord
  rcases h with ⟨hr, h⟩ | ⟨rfl, h⟩
  · rw [if_neg (by omega)]
    rcases h with h | h
    · rw [h]; rfl
    · rw [h]; split <;> rfl
  · exact congrArg (Option.map Prod.fst) ((if_pos rfl).trans (if_pos h))
/-- The repair of words with a corrected error leaves every slot (R450). -/
theorem slot_repairStore (s : State) (r : Nat) (k : Sto) (a n c j : Nat) : (s.repairStore r k a n).slot c j = s.slot c j := by
  unfold State.repairStore
  dsimp only
  split
  · rfl
  · rw [slot_count, slot_updCore]
    cases k <;> rfl
theorem here_repairStore (s : State) (r : Nat) (k : Sto) (a n : Nat) : (s.repairStore r k a n).here = s.here := by
  unfold State.repairStore
  dsimp only
  split <;> rfl
theorem here_repairInbox (s : State) (r : Nat) : (s.repairInbox r).here = s.here :=
  (here_repairStore ..).trans (here_repairStore ..)
theorem blkOf_repairInbox (s : State) (r : Nat) : blkOf (s.repairInbox r) = blkOf s := by
  unfold blkOf slotOf
  rw [here_repairInbox]
  exact congrArg Slot.blk ((slot_repairStore ..).trans (slot_repairStore ..))
/-- The head of queue `p` is to be popped at the commit (R121). -/
def popsAtCommit (s : State) (p : Nat) : State := s.updBlk s.here.1 s.here.2.1 fun b => { b with pops := (p :: b.pops).eraseDups }

variable (h : MayFire s) (e : BitVec 1) (t1 t0 : BitVec 9)
include h

theorem fires_port : Fires s { pr := 0, arity := 0, t0 := t0, t1 := t1, row := .port } 0 0xFFFF#16 ((opnd s 0).getD default)
    ((opnd s 1).getD default) ((opnd s 2).getD default) := .none h .always rfl rfl rfl (fun _ _ _ => rfl) rfl
theorem port_neighbour {v : Value} (hr : reg ≠ 4) (hv : s.portHead s.here.1 reg.toNat = some v) :
    exec (.port e reg t1 t0) s = .next (answers (popsAtCommit s reg.toNat) t1 t0 v []) := by
  show execPort e reg t1 t0 s = _
  unfold execPort
  simp only [hv]
  exact (fires_port h t1 t0).ok ((if_neg fun c => hr c.1).trans (by rw [if_neg hr]; rfl)) rfl ((phase_updBlk ..).trans h.admitted)
theorem port_inbox {v : Value} (hb : (s.core s.here.1).inboxBad = false) (hv : s.portHead s.here.1 4 = some v) :
    exec (.port e 4 t1 t0) s = .next (answers ((s.repairInbox s.here.1).updBlk s.here.1 s.here.2.1 fun b =>
      { b with pops := (4 :: b.pops).eraseDups }) t1 t0 v []) := by
  have here := here_repairInbox s s.here.1
  have e1 : (s.repairInbox s.here.1).updBlk s.here.1 s.here.2.1 (fun b => { b with pops := (4 :: b.pops).eraseDups }) =
      popsAtCommit (s.repairInbox s.here.1) 4 := by unfold popsAtCommit; rw [here]
  show execPort e 4 t1 t0 s = _
  unfold execPort
  simp only [show s.portHead s.here.1 (4 : BitVec 6).toNat = some v from hv]
  refine (fires_port h t1 t0).ok ((if_neg fun c => ?_).trans (by rw [if_pos trivial]; rfl)) here ?_
  · rw [ctxOf_s, ctxOf_core, hb] at c; exact absurd c.2 (by decide)
  · show (blkOf ((s.repairInbox s.here.1).updBlk s.here.1 s.here.2.1 _)).phase = 2
    rw [e1]
    exact (phase_updBlk ..).trans ((congrArg Blk.phase (blkOf_repairInbox ..)).trans h.admitted)
theorem port_traps (hv : s.portHead s.here.1 reg.toNat = none) :
    exec (.port 0 reg t1 t0) s = .next (traps s { code := 0x05, lo := reg.setWidth 64, hi := 0 }) := by
  show execPort 0 reg t1 t0 s = _
  unfold execPort
  simp only [hv]
  exact (if_neg (by decide)).trans ((fires_port h t1 t0).error rfl (show tEmptyRead ≠ tAway by decide))
omit h in
theorem port_waits (hv : s.portHead s.here.1 reg.toNat = none) : exec (.port 1 reg t1 t0) s = .next s := by
  show execPort 1 reg t1 t0 s = _
  unfold execPort
  simp only [hv]
  exact if_pos trivial
end

/-- Settles O7: READ finds its register without an error, PORT the head of its queue or none. -/
theorem registerAndPortReads : Obligations.RegisterAndPortReads := by
  refine ⟨fun s e reg t1 t0 h hp hc => read_answers s e reg t1 t0 h hp hc, fun s e reg t1 t0 w t ws h hr hp hw => ?_,
    fun s e t1 t0 h hq hc => port_inbox h e t1 t0 ?_ (portHead_inbox hq),
    fun s reg t1 t0 h he => ⟨port_traps h t1 t0 (portHead_empty he), port_waits t1 t0 (portHead_empty he)⟩⟩
  · exact port_neighbour h e t1 t0 (by rintro rfl; exact absurd hr (by decide)) (portHead_neighbour hr hp hw)
  · simp [Core.inboxBad, LStore.bad, hc]

/-! ## The exits (R125 to R132) -/

section
variable {s : State} {pr : BitVec 2} {m : BitVec 16} {row : Row} {l r t : Value}

/-- The first exit of a block is recorded. -/
theorem exitWith_first (e : Exit) (h : (blkOf s).exits = []) : (ctxOf s row l r t m).exitWith e = leaves s e := if_pos (List.isEmpty_iff.2 h)
/-- A register completes beside another update of the block. -/
theorem complete_beside {s' : State} {reg : Nat} (d : RegDone) (hh : s'.here = s.here) (h : mapGet (blkOf s).regDone reg = .no) :
    (ctxOf s row l r t m).complete s' reg d = completes s' reg d := by
  unfold completes
  rw [hh]
  exact if_pos (beq_iff_eq.2 h)
theorem phase_leaves (e : Exit) : (blkOf (leaves s e)).phase = (blkOf s).phase := phase_updBlk ..
theorem phase_completes (reg : Nat) (d : RegDone) : (blkOf (completes s reg d)).phase = (blkOf s).phase := phase_updBlk ..
theorem phase_asks (a : Ask) : (blkOf (asks s a)).phase = (blkOf s).phase := phase_updBlk ..
theorem phase_keep (a : Act) : (blkOf (keep s a)).phase = (blkOf s).phase := phase_updBlk ..
/-- A block that has left is still admitted, so that what stands beside its exit goes on. -/
theorem leaves_admitted (h : MayFire s) (e : Exit) : ¬ ((((leaves s e).slot s.here.1 s.here.2.1).blk.phase != 2) = true) := by
  have hp : ((leaves s e).slot s.here.1 s.here.2.1).blk.phase = 2 := (phase_leaves e).trans h.admitted
  rw [hp]; decide
theorem blockAt_eq (off : Word) : blockAt (slotOf s).pc off = blockFrom s off := by rw [blockAt, blockFrom, BitVec.mul_comm]
theorem dataScalar_eq (x : Word) : dataScalar x = plain x := rfl
theorem returnAddr_eq : returnAddr (slotOf s) = followingUnit s := by
  unfold returnAddr followingUnit blockBytes bit1
  cases h : (slotOf s).blk.region <;> simp [blkOf, h]

variable (h : MayFire s) (hr : Runs s pr m) (hx : (blkOf s).exits = [])
include h hr

/-- SLEEP keeps its cycle for the commit (R132). -/
theorem sleep_keeps {t : Value} (ht : Number s 0 t) : exec (.sleep pr) s = .next (done (keep s (.sleep t.scalar))) := by
  show execSleep pr s = _
  refine (Fires.one h hr rfl rfl rfl ht.given (.inr ((scalarOk_eq t).trans ht.whole)) (fun _ _ => ?_) (.inl rfl)).silent ?_ rfl
    ((phase_keep _).trans h.admitted)
  · simp [Form.brokenWhole, nForm, ht.usable]
  · simp only [ctxOf_l, checkScalar_ok ht.usable]; rfl
include hx
theorem bro_leaves (off : BitVec 23) : exec (.bro pr off) s = .next (done (leaves s (.jump (blockFrom s (signedImm s off))))) := by
  show execBro pr off s = _
  rw [← blockAt_eq, ← wideField_eq]
  exact (Fires.none h hr rfl rfl rfl (fun _ _ _ => rfl) rfl).silent (congrArg (Ctx.silent _) (exitWith_first _ hx)) rfl
    ((phase_leaves _).trans h.admitted)
theorem exit_leaves : exec (.exit pr) s = .next (done (leaves s .exit)) := by
  show execExit pr s = _
  exact (Fires.none h hr rfl rfl rfl (fun _ _ _ => rfl) rfl).silent (congrArg (Ctx.silent _) (exitWith_first _ hx)) rfl
    ((phase_leaves _).trans h.admitted)
theorem yield_leaves (off : BitVec 23) : exec (.yield pr off) s = .next (done (leaves s (.yield (blockFrom s (signedImm s off))))) := by
  show execYield pr off s = _
  rw [← blockAt_eq, ← wideField_eq]
  exact (Fires.none h hr rfl rfl rfl (fun _ _ _ => rfl) rfl).silent (congrArg (Ctx.silent _) (exitWith_first _ hx)) rfl
    ((phase_leaves _).trans h.admitted)
/-- CALL completes its register with the address of the unit behind it (R127). -/
theorem call_leaves (reg : BitVec 6) (off : BitVec 17) (hd : mapGet (blkOf s).regDone reg.toNat = .no) : exec (.call pr reg off) s =
    .next (done (completes (leaves s (.jump (blockFrom s (signedImm s off)))) reg.toNat (.value (plain (followingUnit s))))) := by
  show execCall pr reg off s = _
  rw [← blockAt_eq, ← wideField_eq, ← returnAddr_eq, ← dataScalar_eq]
  refine (Fires.none h hr rfl rfl rfl (fun _ _ _ => rfl) rfl).silent ?_ rfl ((phase_completes ..).trans ((phase_leaves _).trans h.admitted))
  simp only [exitWith_first _ hx, ctxOf_core, ctxOf_slot]
  exact (if_neg (leaves_admitted h _)).trans (congrArg (Ctx.silent _) (complete_beside _ rfl hd))
omit hx in
/-- BRC, RET and CALLC take their target whole, whatever its tag (R126 to R128). -/
theorem fires_target {t : Value} (ht : TargetOperand s t) (row : Row) (hrow : row = .brc ∨ row = .ret ∨ row = .callc) :
    Fires s (nForm row pr 1 2 0 0) pr m t ((opnd s 1).getD default) ((opnd s 2).getD default) := by
  refine Fires.one h hr rfl rfl ?_ ht.given (.inr ((scalarOk_eq t).trans ht.whole)) (fun _ _ => ?_) (.inl ?_) <;>
    rcases hrow with rfl | rfl | rfl <;> rfl
theorem brc_leaves {t : Value} (ht : TargetOperand s t) : exec (.brc pr) s = .next (done (leaves s (.computed t none))) := by
  show execBrc pr s = _
  refine (fires_target h hr ht .brc (.inl rfl)).silent ((if_neg ?_).trans ?_) rfl ((phase_leaves _).trans h.admitted)
  · rw [ctxOf_l, not_targetNull ht]; decide
  · exact congrArg (Ctx.silent _) (exitWith_first _ hx)
theorem ret_leaves {t : Value} (ht : TargetOperand s t) : exec (.ret pr) s = .next (done (leaves s (.computed t none))) := by
  show execRet pr s = _
  refine (fires_target h hr ht .ret (.inr (.inl rfl))).silent ((if_neg ?_).trans ?_) rfl ((phase_leaves _).trans h.admitted)
  · rw [ctxOf_l, not_targetNull ht]; decide
  · exact congrArg (Ctx.silent _) (exitWith_first _ hx)
/-- CALLC's register waits for the target's block (R127). -/
theorem callc_leaves {t : Value} (reg : BitVec 6) (ht : TargetOperand s t) (hd : mapGet (blkOf s).regDone reg.toNat = .no) :
    exec (.callc pr reg) s = .next (done (completes (leaves s (.computed t (some reg.toNat))) reg.toNat .link)) := by
  show execCallc pr reg s = _
  refine (fires_target h hr ht .callc (.inr (.inr rfl))).silent ((if_neg ?_).trans ?_) rfl
    ((phase_completes ..).trans ((phase_leaves _).trans h.admitted))
  · rw [ctxOf_l, not_targetNull ht]; decide
  · simp only [exitWith_first _ hx, ctxOf_core, ctxOf_slot, ctxOf_l]
    exact (if_neg (leaves_admitted h _)).trans (congrArg (Ctx.silent _) (complete_beside _ rfl hd))
/-- HANDOFF asks for its descriptor (R232). -/
theorem handoff_leaves {e k w : Value} (he : Capability s 0 12 [118] e) (hk : Number s 1 k) (hw : Number s 2 w) :
    exec (.handoff pr) s = .next (done (asks (leaves s (.handoff e.cap k.scalar w.scalar)) (.entry e.cap))) := by
  show execHandoff pr s = _
  refine (Fires.three h hr rfl rfl he.given (.inr ((capOk_eq e).trans he.whole)) hk.given (.inr ((scalarOk_eq k).trans hk.whole)) hw.given
    (.inr ((scalarOk_eq w).trans hw.whole)) ?_ rfl).silent ?_ rfl ((phase_asks _).trans ((phase_leaves _).trans h.admitted))
  · simp [Form.brokenWhole, nForm, he.tagged, hk.usable, hw.usable]
  · have hc : checkEntry e = .ok e.cap := checkCap_ok he
    simp only [ctxOf_l, ctxOf_r, ctxOf_t, hc, checkScalar_ok hk.usable, checkScalar_ok hw.usable, exitWith_first _ hx, ctxOf_core, ctxOf_slot]
    exact if_neg (leaves_admitted h _)
end

/-- Settles O9, one lemma for each instruction: each is a firing whose effect records the block's first exit. -/
theorem exitsFire : Obligations.ExitsFire := fun _ _ h hr hx =>
  ⟨bro_leaves h hr hx, fun reg off hd => call_leaves h hr hx reg off hd, fun _ ht => ⟨brc_leaves h hr hx ht, ret_leaves h hr hx ht⟩,
    fun reg _ ht hd => callc_leaves h hr hx reg ht hd, exit_leaves h hr hx, yield_leaves h hr hx,
    fun _ _ _ he hk hw => handoff_leaves h hr hx he hk hw, fun _ ht => sleep_keeps h hr ht⟩

end Sys2Proof.Claims
end

section
/-! The obligations O14 and O16: CPERM, CSEAL and CUNSEAL (R143, R145, R428), and what the capability operations ask of their operands, with the
fault of each (R119, R142, R145; log 26). -/

namespace Sys2Proof.Claims
open Sys2Proof.Machine

/-! ## Fields written into a capability (R37) -/

/-- Replacing the bits of a field, as the three parts of the word. -/
theorem setBits_parts {hi k lo : Nat} (w : BitVec (hi + k + lo)) (v : BitVec k) :
    setBits w lo k v.toNat = bitsAt w (lo + k) hi ++ v ++ bitsAt w 0 lo := by
  apply BitVec.eq_of_getLsbD_eq
  intro i hi'
  rw [getLsbD_setBits _ _ _ _ _ hi', BitVec.getLsbD_append, BitVec.getLsbD_append, getLsbD_bitsAt, getLsbD_bitsAt]
  by_cases h : i < lo
  · simp [h, show ¬ lo ≤ i by omega]
  · by_cases h' : i < lo + k
    · simp [h, h', show lo ≤ i by omega, show i - lo < k by omega, BitVec.testBit_toNat]
    · simp [h, h', show ¬ i - lo < k by omega, show i - lo - k < hi by omega, show lo + k + (i - lo - k) = i by omega]
theorem setKind_eq (c : Cap) (k : BitVec 4) : setBits c 124 4 k.toNat = k ++ (bitsAt c 0 124 : BitVec 124) := by
  refine (setBits_parts (hi := 0) (k := 4) (lo := 124) c k).trans ?_
  rw [show bitsAt c (124 + 4) 0 = 0#0 from BitVec.of_length_zero, BitVec.zero_width_append]
  rfl
theorem setPerms_eq (c : Cap) (p : BitVec 12) : setBits c 112 12 p.toNat = (bitsAt c 124 4 : BitVec 4) ++ p ++ (bitsAt c 0 112 : BitVec 112) :=
  setBits_parts (hi := 4) (k := 12) (lo := 112) c p
theorem setSpace_eq (c : Cap) (x : BitVec 16) : setBits c 96 16 x.toNat = (bitsAt c 112 16 : BitVec 16) ++ x ++ (bitsAt c 0 96 : BitVec 96) :=
  setBits_parts (hi := 16) (k := 16) (lo := 96) c x
/-- The permissions and the space of a capability replaced (R428). -/
theorem setPermsSpace_eq (c : Cap) (p : BitVec 12) (x : BitVec 16) : setBits (setBits c 112 12 p.toNat) 96 16 x.toNat =
    (bitsAt c 124 4 : BitVec 4) ++ p ++ x ++ (bitsAt c 0 96 : BitVec 96) := by
  have high : bitsAt ((bitsAt c 124 4 : BitVec 4) ++ p ++ (bitsAt c 0 112 : BitVec 112)) 112 16 = (bitsAt c 124 4 : BitVec 4) ++ p :=
    (bitsAt_append_hi _ _ 112 16 (le_refl _)).trans (bitsAt_all _)
  have low : bitsAt ((bitsAt c 124 4 : BitVec 4) ++ p ++ (bitsAt c 0 112 : BitVec 112)) 0 96 = bitsAt c 0 96 :=
    (bitsAt_append_lo _ _ 0 96 (by decide)).trans (bitsAt_bitsAt c 0 112 0 96 (by decide))
  rw [setPerms_eq, setSpace_eq, high, low]
/-- The kind replaced too. -/
theorem setKindPermsSpace_eq (c : Cap) (k : BitVec 4) (p : BitVec 12) (x : BitVec 16) :
    setBits (setBits (setBits c 112 12 p.toNat) 96 16 x.toNat) 124 4 k.toNat = k ++ p ++ x ++ (bitsAt c 0 96 : BitVec 96) := by
  rw [setPermsSpace_eq, setKind_eq]
  apply BitVec.eq_of_getLsbD_eq
  intro i hi
  simp only [BitVec.getLsbD_append, getLsbD_bitsAt]
  rcases (by omega : i < 96 ∨ (96 ≤ i ∧ i < 112) ∨ (112 ≤ i ∧ i < 124) ∨ (124 ≤ i ∧ i < 128)) with h | h | h | h
  · simp [h, show i < 124 by omega]
  · simp [show ¬ i < 96 by omega, show i < 124 by omega, show i - 96 < 16 by omega]
  · simp [show ¬ i < 96 by omega, show i < 124 by omega, show ¬ i - 96 < 16 by omega, show i - 96 - 16 < 12 by omega]
  · simp [show ¬ i < 96 by omega, show ¬ i < 124 by omega, show ¬ i - 96 < 16 by omega, show ¬ i - 96 - 16 < 12 by omega,
      show i - 96 - 16 - 12 = i - 124 by omega]
/-- A sealed capability: another kind and other permissions (R145). -/
theorem setPermsKind_eq (c : Cap) (k : BitVec 4) (p : BitVec 12) : setBits (setBits c 124 4 k.toNat) 112 12 p.toNat =
    k ++ p ++ (bitsAt c 0 112 : BitVec 112) := by
  have high : bitsAt (k ++ (bitsAt c 0 124 : BitVec 124)) 124 4 = k := (bitsAt_append_hi _ _ 124 4 (le_refl _)).trans (bitsAt_all _)
  have low : bitsAt (k ++ (bitsAt c 0 124 : BitVec 124)) 0 112 = bitsAt c 0 112 :=
    (bitsAt_append_lo _ _ 0 112 (by decide)).trans (bitsAt_bitsAt c 0 124 0 112 (by decide))
  rw [setKind_eq, setPerms_eq, high, low]
/-- A number in mixed radix is its digits side by side. -/
theorem ofNat_append {m n : Nat} (x y : Nat) (h : y < 2 ^ n) : BitVec.ofNat (m + n) (x * 2 ^ n + y) = BitVec.ofNat m x ++ BitVec.ofNat n y := by
  apply BitVec.eq_of_toNat_eq
  rw [BitVec.toNat_append, BitVec.toNat_ofNat, BitVec.toNat_ofNat, BitVec.toNat_ofNat, Nat.mod_eq_of_lt h, ← Nat.shiftLeft_add_eq_or_of_lt h,
    Nat.shiftLeft_eq, Nat.pow_add, Nat.mul_comm (2 ^ m), Nat.mod_mul, Nat.mul_comm x, Nat.mul_add_mod, Nat.mod_eq_of_lt h,
    Nat.mul_add_div (Nat.two_pow_pos n), Nat.div_eq_of_lt h, Nat.add_zero]
  ring
theorem mkCap_fields (kind perms space e b l : Nat) (a : Word) : mkCap kind perms space e b l a =
    BitVec.ofNat 4 kind ++ BitVec.ofNat 12 perms ++ BitVec.ofNat 16 space ++ BitVec.ofNat 6 e ++ BitVec.ofNat 13 b ++ BitVec.ofNat 13 l ++ a := by
  have e6 (x : Nat) : BitVec.ofNat 38 (x * 64 + e % 64) = BitVec.ofNat 32 x ++ BitVec.ofNat 6 (e % 2 ^ 6) :=
    ofNat_append (m := 32) (n := 6) x (e % 64) (Nat.mod_lt _ (by decide))
  unfold mkCap
  rw [ofNat_append (m := 64) (n := 64) _ _ a.isLt, ofNat_append (m := 51) (n := 13) _ _ (Nat.mod_lt _ (by decide)),
    ofNat_append (m := 38) (n := 13) _ _ (Nat.mod_lt _ (by decide)), e6, ofNat_append (m := 16) (n := 16) _ _ (Nat.mod_lt _ (by decide)),
    ofNat_append (m := 4) (n := 12) _ _ (Nat.mod_lt _ (by decide)), show BitVec.ofNat 4 (kind % 16) = BitVec.ofNat 4 kind from ofNat_mod 4 kind]
  simp only [ofNat_mod, BitVec.ofNat_toNat, BitVec.setWidth_eq]
/-- The 32 bytes at an aligned address have exact bounds at exponent 0 (R40). -/
theorem boundedCap_descriptor (space : Nat) {a : Nat} (h : a % 32 = 0) : boundedCap 11 0x800 space a (a + 32) =
    some (mkCap 11 0x800 space 0 (a % 2 ^ 13) 32 (BitVec.ofNat 64 a)) := by
  have fit : fits 0 a (a + 32) := by simp only [fits, down, up]; omega
  have found : findBounds a (a + 32) 52 0 = some (0, a, a + 32) := by
    rw [findBounds_least fit 52 0 rfl (Nat.le_refl 0) fun e' _ h => absurd h (Nat.not_lt_zero e')]
    simp [down, up]
  unfold boundedCap
  rw [found]
  refine (if_pos ⟨rfl, rfl⟩).trans ?_
  rw [Nat.add_sub_cancel_left, Nat.mod_eq_sub_div_mul, Nat.pow_zero]
  exact congrArg (fun b => some (mkCap _ _ _ _ b _ _)) (Nat.div_one _)

/-! ## What CPERM, CSEAL and CUNSEAL ask (R119, R142, R145) -/

section
variable {s : State} {row : Row} {m : BitVec 16} {a b r t : Value} {allowed : Nat → Bool}

/-- An operand that is no capability, or of a kind that is not taken, faults TAG. -/
theorem needCap_data (ht : a.tag ≠ .cap) : (ctxOf s row a b t m).needCap allowed = .error (trapCap tTag a.cap) :=
  if_neg (by rw [ctxOf_l, Bool.and_eq_true, beq_iff_eq]; exact fun c => ht c.1)
theorem needCap_kind (hc : capOk a = true) (hk : allowed (capKind a.cap) = false) :
    (ctxOf s row a b t m).needCap allowed = .error (trapCap tTag a.cap) :=
  if_neg (by rw [ctxOf_l, capOk_eq, hc, hk]; simp)
theorem needSeal_refuses (hc : capOk b = true) (hp : bitAt b.cap 112 = false) : needSeal b = .error (trapCap tPerm b.cap) :=
  if_neg (by rw [capOk_eq, hc, show capHas b.cap pSeal = false from hp]; simp)
/-- The kind of L stands before all that CSEAL and CUNSEAL ask beside it. -/
theorem needToSeal_kind {e : Trap} (hn : (ctxOf s row a b t m).needCap (· == 11) = .error e) : (ctxOf s row a b t m).needToSeal = .error e := by
  unfold Ctx.needToSeal
  rw [hn]; rfl
theorem needToUnseal_kind {e : Trap} (hn : (ctxOf s row a b t m).needCap (· == 12) = .error e) : (ctxOf s row a b t m).needToUnseal = .error e := by
  unfold Ctx.needToUnseal
  rw [hn]; rfl
/-- What CSEAL asks of a whole code capability, in order. -/
theorem needToSeal_whole (ht : a.tag = .cap) (hc : capOk a = true) (hk : capKind a.cap = 11) : (ctxOf s row a b t m).needToSeal =
    if bitAt a.cap 119 = false then .error (trapCap tPerm a.cap)
    else needSeal b >>= fun _ =>
      if a.scalar.toNat % 32 ≠ 0 then .error { code := tAlign, lo := a.scalar, hi := 32 }
      else if a.scalar.toNat < baseOf a.cap ∨ baseOf a.cap + lengthOf a.cap < a.scalar.toNat + 32 then .error (trapCap tBounds a.cap)
      else .ok () := by
  have hn : (ctxOf s row a b t m).needCap (· == 11) = .ok () := needCap_ok ht fun _ => by rw [hk]; rfl
  unfold Ctx.needToSeal
  rw [hn]
  simp only [ctxOf_l, ctxOf_r, capOk_eq, hc, capAddr_eq, capInBounds, capBase_eq, capLimit_eq, capHas, Bool.true_and]
  refine if_congr (by rw [Bool.not_eq_true']; rfl) rfl (congrArg (needSeal b >>= ·) (funext fun _ => if_congr bne_iff_ne rfl ?_))
  refine if_congr ?_ rfl rfl
  rw [Bool.not_eq_true', Bool.and_eq_false_iff, decide_eq_false_iff_not, decide_eq_false_iff_not, Nat.not_le, Nat.not_le]
end

/-! ## CPERM, CSEAL, CUNSEAL (R143, R145, R428) -/

/-- What CPERM makes of a capability and a number, in steward mode or not. -/
def permResult (steward : Bool) (cap : Cap) (b : Word) : Except Trap Value :=
  if steward then
    if 13 ≤ numAt b 28 4 then .error (trapCap tTag cap)
    else
      let w := setBits (setBits cap 112 12 (numAt b 0 12)) 96 16 (numAt b 12 16)
      .ok (capValue (if numAt b 28 4 = 0 then w else setBits w 124 4 (numAt b 28 4)))
  else .ok (capValue (setBits cap 112 12 (numAt cap 112 12 &&& numAt b 0 12)))
/-- Outside steward mode it takes permissions away. -/
theorem permResult_user (c : Cap) (b : Word) : permResult false c b = .ok (capValue
    ((bitsAt c 124 4 : BitVec 4) ++ ((bitsAt c 112 12 : BitVec 12) &&& b.setWidth 12) ++ (bitsAt c 0 112 : BitVec 112))) := by
  have low : bitsAt b 0 12 = b.setWidth 12 :=
    BitVec.eq_of_toNat_eq (by rw [← numAt_eq_bitsAt, numAt_low, BitVec.toNat_setWidth])
  rw [← low, ← setPerms_eq, BitVec.toNat_and, ← numAt_eq_bitsAt, ← numAt_eq_bitsAt]
  rfl
/-- In steward mode it sets permissions, space and, unless the new one is 0, the kind. -/
theorem permResult_steward (c : Cap) {b : Word} (hk : (bitsAt b 28 4).toNat < 13) : permResult true c b = .ok (capValue
    ((if (bitsAt b 28 4 : BitVec 4) = 0 then (bitsAt c 124 4 : BitVec 4) else bitsAt b 28 4)
      ++ (bitsAt b 0 12 : BitVec 12) ++ (bitsAt b 12 16 : BitVec 16) ++ (bitsAt c 0 96 : BitVec 96))) := by
  unfold permResult
  simp only [numAt_eq_bitsAt, if_true]
  rw [if_neg (Nat.not_le.2 hk), if_congr (toNat_eq_zero_iff (bitsAt b 28 4)) rfl rfl, setKindPermsSpace_eq, setPermsSpace_eq]
  split <;> rfl

section
variable {s : State} {pr : BitVec 2} {m : BitVec 16} {a b : Value} {t1 t0 : BitVec 9} (h : MayFire s) (hr : Runs s pr m)
include h hr

theorem cperm_answers (hb : RightIn s b) (ha : CapIn s allKinds a) {v : Value} (hv : permResult (isSteward s.here.1) a.cap b.scalar = .ok v) :
    exec (.cperm pr t1 t0) s = .next (answers s t1 t0 (lanesOf m v) []) :=
  pair_answers (kinds := fun _ => (· ≤ 12)) (g := fun c cap => permResult c.steward cap c.r.scalar) rfl rfl rfl h hr ha hb
    (fun _ => ha.kindOk) fun _ => hv
/-- CSEAL of a code capability within its bounds makes an entry (R145). -/
theorem cseal_answers (hb : RightIn s b) (ha : CapIn s (· == 11) a) (hx : bitAt a.cap 119 = true) (tb : b.tag = .cap) (hp : bitAt b.cap 112 = true)
    (hal : a.scalar.toNat % 32 = 0) (hlo : baseOf a.cap ≤ a.scalar.toNat) (hhi : a.scalar.toNat + 32 ≤ baseOf a.cap + lengthOf a.cap) :
    exec (.cseal pr t1 t0) s = .next (answers s t1 t0 (capOut m
      (12#4 ++ (if bitAt a.cap 113 then 0x042#12 else 0x040#12) ++ (bitsAt a.cap 0 112 : BitVec 112))) []) := by
  show execCseal pr t1 t0 s = _
  have asked (t : Value) : (ctxOf s .cseal a b t m).needToSeal = .ok () := by
    rw [needToSeal_whole ha.tagged ha.whole (beq_iff_eq.1 ha.kindOk), if_neg (by rw [hx]; decide), needSeal_ok tb fun _ => hp]
    exact (if_neg (not_not.2 hal)).trans (if_neg (by omega))
  have perms : 2 ^ 6 + (if capHas a.cap pGlobal then 2 else 0) = (if bitAt a.cap 113 then 0x042#12 else 0x040#12).toNat := by
    rw [show capHas a.cap pGlobal = bitAt a.cap 113 from rfl]; split <;> rfl
  rw [← lanesOf_capValue, ← setPermsKind_eq, ← perms]
  exact (Fires.pair h hr ha.given hb.given rfl rfl).capResult (not_anyBroken_two ha.usable hb.usable) (asked _) (capLanes_two ha.whole hb.whole) rfl
/-- CUNSEAL of an entry makes a capability on its descriptor (R145). -/
theorem cunseal_answers (hb : RightIn s b) (ha : CapIn s (· == 12) a) (tb : b.tag = .cap) (hp : bitAt b.cap 112 = true)
    (hal : a.scalar.toNat % 32 = 0) : exec (.cunseal pr t1 t0) s = .next (answers s t1 t0 (capOut m
      (11#4 ++ 0x800#12 ++ (bitsAt a.cap 96 16 : BitVec 16) ++ 0#6 ++ BitVec.ofNat 13 (a.scalar.toNat % 2 ^ 13) ++ 32#13 ++ a.scalar)) []) := by
  show execCunseal pr t1 t0 s = _
  have asked (t : Value) : (ctxOf s .cunseal a b t m).needToUnseal = .ok () :=
    (congrArg (· >>= _) (needCap_ok ha.tagged fun _ => ha.kindOk)).trans (needSeal_ok tb fun _ => hp)
  have made : boundedCap 11 0x800 (capSpace a.cap) (capAddr a.cap).toNat ((capAddr a.cap).toNat + 32) = some
      (11#4 ++ 0x800#12 ++ (bitsAt a.cap 96 16 : BitVec 16) ++ 0#6 ++ BitVec.ofNat 13 (a.scalar.toNat % 2 ^ 13) ++ 32#13 ++ a.scalar) := by
    rw [capAddr_eq, boundedCap_descriptor _ hal, mkCap_fields, capSpace, numAt_eq_bitsAt, BitVec.ofNat_toNat, BitVec.ofNat_toNat,
      BitVec.setWidth_eq, BitVec.setWidth_eq]
  rw [← lanesOf_capValue]
  refine (Fires.pair h hr ha.given hb.given rfl rfl).capResult (not_anyBroken_two ha.usable hb.usable) (asked _) (capLanes_two ha.whole hb.whole) ?_
  simp only [ctxOf_l, made]
  rfl
end

/-- Settles O14: the fields that CPERM and CSEAL write, and the descriptor's bounds at exponent 0 for CUNSEAL. -/
theorem capabilityPermissionsAndSeals : Obligations.CapabilityPermissionsAndSeals := by
  refine fun s pr t1 t0 m a b h hr hb => ⟨fun ha hs => ?_, fun ha hs hk => ?_,
    fun ha hx tb hp hal hlo hhi => cseal_answers h hr hb ha hx tb hp hal hlo hhi,
    fun ha tb hp hal => cunseal_answers h hr hb ha tb hp hal⟩
  · have hst : isSteward s.here.1 = false := by rw [← Bool.not_eq_true, steward_iff]; exact hs
    rw [← lanesOf_capValue]
    exact cperm_answers h hr hb ha (by rw [hst, permResult_user])
  · rw [← lanesOf_capValue]
    exact cperm_answers h hr hb ha (by rw [(steward_iff s).2 hs, permResult_steward _ hk])

/-! ## Where the capability operations fault (R142, R145) -/

/-- The operations that require a capability in L, beside another operand: one without a capability's tag is refused. -/
def capTakers : List (BitVec 2 → BitVec 9 → BitVec 9 → Instr) := [.cadd, .cseta, .csetb, .csetbx, .cperm, .cseal, .cunseal]
theorem capTakers_fire : ∀ mk ∈ capTakers, ∃ (row : Row) (need : Ctx → Except Trap Unit) (g : Ctx → Except Trap Value),
    (row == .cusGive) = false ∧ row.isLoad = false ∧
    (∀ s a b t m, a.tag ≠ .cap → need (ctxOf s row a b t m) = .error (trapCap tTag a.cap)) ∧
    ∀ s pr t1 t0, exec (mk pr t1 t0) s = s.fire (tForm row pr 2 t1 t0) plainNull fun c => c.capOp true .cap (need c) (g c) := by
  simp only [capTakers, List.forall_mem_cons]
  exact ⟨⟨.cadd, _, _, rfl, rfl, fun _ _ _ _ _ => needCap_data, fun s pr t1 t0 => (rfl : execCadd pr t1 t0 s = _)⟩,
    ⟨.cseta, _, _, rfl, rfl, fun _ _ _ _ _ => needCap_data, fun s pr t1 t0 => (rfl : execCseta pr t1 t0 s = _)⟩,
    ⟨.csetb, _, _, rfl, rfl, fun _ _ _ _ _ => needCap_data, fun s pr t1 t0 => (rfl : execCsetb pr t1 t0 s = _)⟩,
    ⟨.csetbx, _, _, rfl, rfl, fun _ _ _ _ _ => needCap_data, fun s pr t1 t0 => (rfl : execCsetbx pr t1 t0 s = _)⟩,
    ⟨.cperm, _, _, rfl, rfl, fun _ _ _ _ _ => needCap_data, fun s pr t1 t0 => (rfl : execCperm pr t1 t0 s = _)⟩,
    ⟨.cseal, _, _, rfl, rfl, fun _ _ _ _ _ ht => needToSeal_kind (needCap_data ht), fun s pr t1 t0 => (rfl : execCseal pr t1 t0 s = _)⟩,
    ⟨.cunseal, _, _, rfl, rfl, fun _ _ _ _ _ ht => needToUnseal_kind (needCap_data ht), fun s pr t1 t0 => (rfl : execCunseal pr t1 t0 s = _)⟩,
    fun _ h => nomatch h⟩
/-- Those that take a bounded capability only. -/
def boundedTakers : List (BitVec 2 → BitVec 9 → BitVec 9 → Instr) := [.cadd, .csetb, .csetbx]
theorem boundedTakers_fire : ∀ mk ∈ boundedTakers, ∃ (row : Row) (g : Ctx → Except Trap Value),
    (row == .cusGive) = false ∧ row.isLoad = false ∧ ∀ s pr t1 t0, exec (mk pr t1 t0) s =
      s.fire (tForm row pr 2 t1 t0) plainNull fun c => c.capOp true .cap (c.needCap boundedKind) (g c) := by
  simp only [boundedTakers, List.forall_mem_cons]
  exact ⟨⟨.cadd, _, rfl, rfl, fun s pr t1 t0 => (rfl : execCadd pr t1 t0 s = _)⟩,
    ⟨.csetb, _, rfl, rfl, fun s pr t1 t0 => (rfl : execCsetb pr t1 t0 s = _)⟩,
    ⟨.csetbx, _, rfl, rfl, fun s pr t1 t0 => (rfl : execCsetbx pr t1 t0 s = _)⟩, fun _ h => nomatch h⟩

section
variable {s : State} {pr : BitVec 2} {m : BitVec 16} {a b : Value} {t1 t0 : BitVec 9}

theorem CapIn.refused {kinds allowed : Nat → Bool} {row : Row} {t : Value} (ha : CapIn s kinds a)
    (hk : ∀ k, kinds k = true → allowed k = false) :
    (ctxOf s row a b t m).needCap allowed = .error (trapCap tTag a.cap) := needCap_kind ha.whole (hk _ ha.kindOk)
theorem CapIn.unbounded {row : Row} {t : Value} (ha : CapIn s (fun k => !boundedKinds k) a) :
    (ctxOf s row a b t m).needCap boundedKind = .error (trapCap tTag a.cap) := ha.refused fun _ hk => by rw [boundedKind_eq]; simpa using hk
theorem tTag_here : tTag ≠ tAway := by decide
theorem tPerm_here : tPerm ≠ tAway := by decide
theorem tAlign_here : tAlign ≠ tAway := by decide
theorem tBounds_here : tBounds ≠ tAway := by decide

variable (h : MayFire s) (hr : Runs s pr m) (ga : Given s 0 a)
include h hr ga

theorem reader_refuses (ta : a.tag = .data) {mk : BitVec 2 → BitVec 9 → BitVec 9 → Instr} (hm : mk ∈ capReaders) :
    exec (mk pr t1 t0) s = .next (traps s (trapCap tTag a.cap)) := by
  obtain ⟨row, g, hg, hl, he⟩ := capReaders_fire mk hm
  rw [he]
  exact (Fires.single h hr ga hg hl).capRefused (not_anyBroken_one (by rw [ta]; decide)) (needCap_data (by rw [ta]; decide)) tTag_here
theorem caddi_refuses (ta : a.tag ≠ .broken) (imm : BitVec 14)
    (hn : ∀ r t, (ctxOf s .caddi a r t m).needCap boundedKind = .error (trapCap tTag a.cap)) :
    exec (.caddi pr imm t0) s = .next (traps s (trapCap tTag a.cap)) := by
  show execCaddi pr imm t0 s = _
  exact (Fires.immediate h hr ga rfl (.inl rfl)).capRefused (not_anyBroken_one ta) (hn ..) tTag_here
variable (gb : Given s 1 b) (tb : b.tag ≠ .broken)
include gb tb
theorem taker_refuses (ta : a.tag = .data) {mk : BitVec 2 → BitVec 9 → BitVec 9 → Instr} (hm : mk ∈ capTakers) :
    exec (mk pr t1 t0) s = .next (traps s (trapCap tTag a.cap)) := by
  obtain ⟨row, need, g, hg, hl, hn, he⟩ := capTakers_fire mk hm
  rw [he]
  exact (Fires.pair h hr ga gb hg hl).capRefused (not_anyBroken_two (by rw [ta]; decide) tb) (hn _ _ _ _ _ (by rw [ta]; decide)) tTag_here
theorem boundedTaker_refuses (ha : CapIn s (fun k => !boundedKinds k) a)
    {mk : BitVec 2 → BitVec 9 → BitVec 9 → Instr} (hm : mk ∈ boundedTakers) :
    exec (mk pr t1 t0) s = .next (traps s (trapCap tTag a.cap)) := by
  obtain ⟨row, g, hg, hl, he⟩ := boundedTakers_fire mk hm
  rw [he]
  exact (Fires.pair h hr ga gb hg hl).capRefused (not_anyBroken_two ha.usable tb) ha.unbounded tTag_here
/-- CSEAL faults as the first thing that it asks for and does not find. -/
theorem cseal_refuses (ta : a.tag ≠ .broken) {e : Trap} (hn : ∀ t, (ctxOf s .cseal a b t m).needToSeal = .error e) (he : e.code ≠ tAway) :
    exec (.cseal pr t1 t0) s = .next (traps s e) := by
  show execCseal pr t1 t0 s = _
  exact (Fires.pair h hr ga gb rfl rfl).capRefused (not_anyBroken_two ta tb) (hn _) he
theorem cunseal_refuses (ta : a.tag ≠ .broken) {e : Trap} (hn : ∀ t, (ctxOf s .cunseal a b t m).needToUnseal = .error e) (he : e.code ≠ tAway) :
    exec (.cunseal pr t1 t0) s = .next (traps s e) := by
  show execCunseal pr t1 t0 s = _
  exact (Fires.pair h hr ga gb rfl rfl).capRefused (not_anyBroken_two ta tb) (hn _) he
end

/-- Settles O16: the tag and the kind of L are asked for first; CSEAL then faults at the first of its further checks that fails. -/
theorem capabilityFaults : Obligations.CapabilityFaults := by
  refine ⟨fun s pr t1 t0 m a h hr ga => ⟨fun ta => ⟨fun mk hm => reader_refuses h hr ga ta hm, fun imm => ?_⟩, fun ha imm => ?_⟩,
    fun s pr t1 t0 m a b h hr ga gb tb => ⟨fun ta mk hm => taker_refuses h hr ga gb tb ta hm, fun ha => ?_, fun ha => ?_,
      fun ha mk hm => boundedTaker_refuses h hr ga gb tb ha hm, fun ha tb' hc => ?_⟩⟩
  · exact caddi_refuses h hr ga (by rw [ta]; decide) imm fun _ _ => needCap_data (by rw [ta]; decide)
  · exact caddi_refuses h hr ga ha.usable imm fun _ _ => ha.unbounded
  · exact cseal_refuses h hr ga gb tb ha.usable (fun _ => needToSeal_kind (ha.refused fun _ hk => by simpa using hk)) tTag_here
  · exact cunseal_refuses h hr ga gb tb ha.usable (fun _ => needToUnseal_kind (ha.refused fun _ hk => by simpa using hk)) tTag_here
  · have asks (t : Value) := needToSeal_whole (s := s) (row := .cseal) (m := m) (b := b) (t := t) ha.tagged ha.whole (beq_iff_eq.1 ha.kindOk)
    have exec_bit (hx : bitAt a.cap 119 = true) : ¬ bitAt a.cap 119 = false := by rw [hx]; decide
    refine ⟨fun hx => ?_, fun hx hp => ?_, fun hx hp hal => ?_, fun hx hp hal hlo => ?_⟩
    · exact cseal_refuses h hr ga gb tb ha.usable (fun t => (asks t).trans (if_pos hx)) tPerm_here
    · refine cseal_refuses h hr ga gb tb ha.usable (fun t => (asks t).trans ((if_neg (exec_bit hx)).trans ?_)) tPerm_here
      rw [needSeal_refuses hc hp]; rfl
    · refine cseal_refuses h hr ga gb tb ha.usable (fun t => (asks t).trans ((if_neg (exec_bit hx)).trans ?_)) tAlign_here
      rw [needSeal_ok tb' fun _ => hp]; exact if_pos hal
    · refine cseal_refuses h hr ga gb tb ha.usable (fun t => (asks t).trans ((if_neg (exec_bit hx)).trans ?_)) tBounds_here
      rw [needSeal_ok tb' fun _ => hp]; exact (if_neg (not_not.2 hal)).trans (if_pos (.inl hlo))

end Sys2Proof.Claims
end

section
/-! The checks of a local access, in their order, and what local loads and stores do behind them (R119, R146 to R153; logs 27 and 58). -/

namespace Sys2Proof.Claims
open Sys2Proof.Machine

/-! ## The checks of R147 in the order of R119 -/

section
variable {s : State} {row : Row} {m : BitVec 16} {v l r t : Value} {k : Sto} {isStore isC tagged : Bool} {n : Nat} {a : Word}

theorem checkLocal_broken (ht : v.tag = .broken) : (ctxOf s row l r t m).checkLocal v isStore isC a n n tagged = .error (trap tBrokenUse) :=
  if_pos (beq_iff_eq.2 ht)
theorem checkLocal_data (ht : v.tag = .data) : (ctxOf s row l r t m).checkLocal v isStore isC a n n tagged = .error (trapCap tTag v.cap) :=
  (if_neg (by rw [ht]; decide)).trans (if_pos (by rw [ht]; rfl))
/-- A kind that names no local store. -/
theorem stoOfKind_none {c : Cap} (h : (bitsAt c 124 4).toNat ∉ [2, 3, 4, 5]) : stoOfKind (capKind c) = none := by
  rw [capKind, numAt_eq_bitsAt]
  generalize (bitsAt c 124 4).toNat = n at h ⊢
  unfold stoOfKind
  split
  case h_5 => rfl
  all_goals exact absurd (by decide) h
theorem checkLocal_kind (ht : v.tag = .cap) (hk : (bitsAt v.cap 124 4).toNat ∉ [2, 3, 4, 5]) :
    (ctxOf s row l r t m).checkLocal v isStore isC a n n tagged = .error (trapCap tTag v.cap) := by
  unfold Ctx.checkLocal
  rw [if_neg (by rw [ht]; decide), if_neg (by rw [ht]; decide), stoOfKind_none hk]
/-- The checks behind the tag and the kind: of the store, the permissions and the core, the alignment, the bounds, and of what is still saved. -/
theorem checkLocal_cap (ht : v.tag = .cap) (hk : bitsAt v.cap 124 4 = storeKind k) :
    (ctxOf s row l r t m).checkLocal v isStore isC a n n tagged =
      if isStore = true ∧ (k = .w ∨ isC = true ∧ k = .c) then .error (trapCap tStoreClass v.cap)
      else if bitAt v.cap (if isStore then 122 else 123) = false ∨
          (isC = true ∧ tagged = true) ∧ bitAt v.cap (if isStore then 120 else 121) = false ∨ a.toNat / 2 ^ 52 ≠ logicalOf s then
        .error (trapCap tPerm v.cap)
      else if a.toNat % n ≠ 0 then .error { code := tAlign, lo := a, hi := BitVec.ofNat 64 n }
      else if (a.toNat < baseOf v.cap ∨ baseOf v.cap + lengthOf v.cap < a.toNat + n) ∨
          (if k = .s then 0xC000 else storeSize k) < offsetOf a + n then
        .error (trapCap tBounds v.cap)
      else if s.lotAway s.here.1 k (offsetOf a) n = true then .error (trap tAway) else .ok (k, offsetOf a) := by
  unfold Ctx.checkLocal
  rw [if_neg (by rw [ht]; decide), if_neg (by rw [ht]; decide), stoOfKind_eq hk]
  simp only [addrCore_eq, coreOf, capInBounds, capBase_eq, capLimit_eq, addrOff_eq, storeEnd_eq, ctxOf_logical, ctxOf_s, ctxOf_core]
  refine if_congr ?_ rfl (if_congr ?_ rfl (if_congr Iff.rfl rfl (if_congr ?_ rfl rfl)))
  · simp
  · cases isStore <;> simp [capHas, pLoad, pStore, pLoadCap, pStoreCap, or_assoc]
  · simp
/-- An access that R147 lets through passes them all. -/
theorem checkLocal_passes (hv : LocalNow s v k (if isStore then 122 else 123) n n a) (hw : isStore = true → k ≠ .w ∧ (isC = true → k ≠ .c))
    (hc : isC = true → tagged = true → bitAt v.cap (if isStore then 120 else 121) = true) :
    (ctxOf s row l r t m).checkLocal v isStore isC a n n tagged = .ok (k, offsetOf a) := by
  obtain ⟨⟨-, -, ht, hk, hp, core, aligned, low, high, inside⟩, near⟩ := hv
  rw [checkLocal_cap ht hk, if_neg fun c => c.2.elim (hw c.1).1 fun d => (hw c.1).2 d.1 d.2, if_neg, if_neg (not_not.2 aligned), if_neg (by omega),
    if_neg (by rw [near]; decide)]
  rintro (c | ⟨⟨c, d⟩, e⟩ | c)
  · rw [hp] at c; exact absurd c (by decide)
  · rw [hc c d] at e; exact absurd e (by decide)
  · exact c core
end

/-! ## What a load sees (R27, R34, R60) -/

section
variable {s : State} {row : Row} {m : BitVec 16} {l r t : Value}

theorem tagged_eq (k : Sto) : k.tagged = decide (k = .a ∨ k = .s) := by cases k <;> rfl
theorem seenTag_eq (k : Sto) (g lsid : Nat) : (ctxOf s row l r t m).seenTag k g lsid = tagSeen s k g lsid := by
  induction lsid with
  | zero => unfold Ctx.seenTag tagSeen; rw [← tagged_eq]; rfl
  | succ j ih =>
    unfold Ctx.seenTag at ih ⊢
    rw [List.range_succ, List.foldl_append, ih]
    simp only [List.foldl_cons, List.foldl_nil, tagSeen, ctxOf_blk, beq_iff_eq]
    cases (mapGet (blkOf s).lsids' j).tag with
    | none =>
      by_cases h : (mapGet (blkOf s).lsids' j).sto = k
      · by_cases hb : ((mapGet (blkOf s).lsids' j).bytes.any fun e => e.1 / 16 == g) = true <;> simp [h, hb]
      · simp [h]
    | some e => by_cases h : (mapGet (blkOf s).lsids' j).sto = k <;> simp [h]
/-- The tag bit at an address, false where its capability is on no local store. -/
def tagAt (s : State) (v : Value) (lsid : BitVec 5) (a : Word) : Bool :=
  (stoOfKind (capKind v.cap)).elim false fun k => tagSeen s k (offsetOf a / 16) lsid.toNat
theorem tagAt_eq {v : Value} {k : Sto} (hk : bitsAt v.cap 124 4 = storeKind k) (lsid : BitVec 5) (a : Word) :
    tagAt s v lsid a = tagSeen s k (offsetOf a / 16) lsid.toNat := by rw [tagAt, stoOfKind_eq hk]; rfl
end

/-! ## Loads (R146 to R150) -/

section
variable {s : State} {row : Row} {m lanes : BitVec 16} {v r t : Value} {lsid : BitVec 5} {imm : BitVec 9} {n : Nat} {isC whole : Bool}
  {out : List Byte → Bool → Value}

/-- A load that has a whole address and a lane to read makes its checks and reads. -/
theorem load_checks (hv : capOk v = true) (h0 : m &&& lanes ≠ 0) (hw : whole = true → m &&& lanes = lanes) :
    (ctxOf s row v r t m).load lsid imm n isC lanes whole out =
      (ctxOf s row v r t m).checkLocal v false isC (localAddress s v imm n) n n (tagAt s v lsid (localAddress s v imm n)) >>= fun p =>
        (ctxOf s row v r t m).readLocal p.1 lsid.toNat [(p.2, n)]
          (out ((ctxOf s row v r t m).seen p.1 p.2 n lsid.toNat) (tagAt s v lsid (localAddress s v imm n))) := by
  unfold Ctx.load tagAt
  simp only [ctxOf_l, ctxOf_mask, ctxOf_blk, ctxOf_idx, wideField_eq, localAt_eq, capOk_eq, hv]
  rw [if_neg (by decide), if_neg (fun c => c.elim h0 fun d => d.2 (hw d.1))]
  cases stoOfKind (capKind v.cap) with
  | none =>
    simp only [Option.elim_none]
    cases (ctxOf s row v r t m).checkLocal v false isC _ n n _ <;> rfl
  | some k =>
    simp only [Option.elim_some, seenTag_eq, addrOff_eq]
    cases (ctxOf s row v r t m).checkLocal v false isC _ n n _ <;> rfl
/-- It answers what the block sees. -/
theorem load_reads {k : Sto} (hv : LocalNow s v k 123 n n (localAddress s v imm n)) (hs : Readable s k lsid) (h0 : m &&& lanes ≠ 0)
    (hw : whole = true → m &&& lanes = lanes)
    (hc : isC = true → tagSeen s k (offsetOf (localAddress s v imm n) / 16) lsid.toNat = true → bitAt v.cap 121 = true) :
    (ctxOf s row v r t m).load lsid imm n isC lanes whole out =
      let x := lanesOf m (out ((ctxOf s row v r t m).seen k (offsetOf (localAddress s v imm n)) n lsid.toNat)
        (tagSeen s k (offsetOf (localAddress s v imm n) / 16) lsid.toNat))
      .ok { s := s, v0 := x, v1 := x } := by
  rw [load_checks hv.whole h0 hw, tagAt_eq hv.kind, checkLocal_passes (isStore := false) hv (fun c => nomatch c) hc]
  exact readLocal_clean hs.good.1 hs.good.2 ..
theorem load_refuses {e : Trap} (hv : capOk v = true) (h0 : m &&& lanes ≠ 0) (hw : whole = true → m &&& lanes = lanes)
    (hc : (ctxOf s row v r t m).checkLocal v false isC (localAddress s v imm n) n n (tagAt s v lsid (localAddress s v imm n)) = .error e) :
    (ctxOf s row v r t m).load lsid imm n isC lanes whole out = .error e := by
  rw [load_checks hv h0 hw, hc]; rfl
theorem load_nullAddress (hv : capOk v = false) :
    (ctxOf s row v r t m).load lsid imm n isC lanes whole out = .ok { s := s, v0 := blank 0, v1 := blank 0 } :=
  if_pos (by rw [ctxOf_l, capOk_eq, hv]; rfl)
theorem load_noLane (hv : capOk v = true) (h0 : m &&& lanes = 0) : (ctxOf s row v r t m).load lsid imm n isC lanes whole out =
    .ok { s := s, v0 := blank (~~~lanes &&& m), v1 := blank (~~~lanes &&& m) } :=
  (if_neg (by rw [ctxOf_l, capOk_eq, hv]; decide)).trans (if_pos (.inl h0))
end

/-! ## Stores (R151, R152) -/

theorem map_filter_eq {α β : Type} (p : α → Bool) (f : α → β) (ls : List α) :
    (ls.filter p).map f = ls.filterMap fun i => if p i then some (f i) else none := by
  induction ls with
  | nil => rfl
  | cons i ls ih => cases h : p i <;> simp [h, ih]
/-- The bytes of a store are those of its valid lanes. -/
theorem laneBytes_eq (v : V512) {ok ok' : BitVec 16} (off n : Nat) (h : ∀ i, i < n → bitAt ok (i / 4) = bitAt ok' (i / 4)) :
    laneBytes v ok off n = laneStores v ok' off n := by
  unfold laneBytes laneStores
  rw [map_filter_eq]
  exact List.filterMap_congr fun i hi => by rw [h i (List.mem_range.1 hi)]

section
variable {s : State} {row : Row} {m lanes : BitVec 16} {v x t : Value} {lsid : BitVec 5} {imm : BitVec 18} {n : Nat} {isC whole : Bool}

theorem store_noLane (h : capOk v = false ∨ x.valid &&& m &&& lanes = 0) :
    (ctxOf s row v x t m).store lsid imm n isC lanes whole = (ctxOf s row v x t m).silent (storesNothing s lsid) := by
  refine if_pos ?_
  rw [ctxOf_l, ctxOf_r, ctxOf_mask, capOk_eq]
  rcases h with h | h <;> rw [h] <;> simp
/-- A store of a value that it may keep makes its checks and waits for the commit. -/
theorem store_checks (hv : capOk v = true) (h0 : x.valid &&& m &&& lanes ≠ 0) (hw : whole = true → x.valid &&& m &&& lanes = lanes)
    (hx : x.tag ≠ .broken) (hp : isC = true → x.tag = .cap → x.valid &&& m &&& lanes = lanes) :
    (ctxOf s row v x t m).store lsid imm n isC lanes whole =
      (ctxOf s row v x t m).checkLocal v true isC (localAddress s v imm n) n n (isC && x.tag == .cap) >>= fun p =>
        (ctxOf s row v x t m).stored lsid p.1 (laneBytes x.bits (if whole then allLanes else x.valid &&& m &&& lanes) p.2 n)
          (if isC then some (p.2 / 16, isC && x.tag == .cap) else none) := by
  unfold Ctx.store
  simp only [ctxOf_l, ctxOf_r, ctxOf_mask, ctxOf_blk, ctxOf_idx, wideField_eq, localAt_eq, capOk_eq, hv]
  rw [if_neg, if_neg (by rwa [beq_iff_eq]), if_neg]
  · cases (ctxOf s row v x t m).checkLocal v true isC _ n n _ <;> rfl
  · simp only [Bool.and_eq_true, beq_iff_eq, bne_iff_ne]
    rintro ⟨⟨⟨⟨hc, ht⟩, hl⟩, -⟩, -⟩
    exact hl (hp hc ht)
  · simp only [Bool.or_eq_true, Bool.and_eq_true, beq_iff_eq, bne_iff_ne, Bool.not_true, Bool.false_eq_true, false_or]
    exact fun c => c.elim h0 fun d => d.2 (hw d.1)
theorem store_refuses {e : Trap} (hv : capOk v = true) (h0 : x.valid &&& m &&& lanes ≠ 0) (hw : whole = true → x.valid &&& m &&& lanes = lanes)
    (hx : x.tag ≠ .broken) (hp : isC = true → x.tag = .cap → x.valid &&& m &&& lanes = lanes)
    (hc : (ctxOf s row v x t m).checkLocal v true isC (localAddress s v imm n) n n (isC && x.tag == .cap) = .error e) :
    (ctxOf s row v x t m).store lsid imm n isC lanes whole = .error e := by
  rw [store_checks hv h0 hw hx hp, hc]; rfl
/-- A vector store keeps the bytes of its valid lanes. -/
theorem store_keeps {k : Sto} (hv : LocalNow s v k 122 n n (localAddress s v imm n)) (hk : k ≠ .w) (hkc : isC = true → k ≠ .c)
    (h0 : x.valid &&& m &&& lanes ≠ 0) (hx : x.tag ≠ .broken)
    (hp : isC = true → x.tag = .cap → x.valid &&& m &&& lanes = lanes ∧ bitAt v.cap 120 = true) :
    (ctxOf s row v x t m).store lsid imm n isC lanes false = (ctxOf s row v x t m).silent (stores s lsid.toNat
      { done := true, since := s.cycle, sto := k, bytes := laneBytes x.bits (x.valid &&& m &&& lanes) (offsetOf (localAddress s v imm n)) n,
        tag := if isC then some (offsetOf (localAddress s v imm n) / 16, isC && x.tag == .cap) else none }) := by
  rw [store_checks (whole := false) hv.whole h0 (fun c => absurd c (by decide)) hx fun c d => (hp c d).1,
    checkLocal_passes (isStore := true) hv (fun _ => ⟨hk, hkc⟩) fun c d => (hp c (by rw [c] at d; exact eq_of_beq d)).2]
  rfl
/-- A capability is stored whole, or not at all (R152). -/
theorem store_partial {k : Sto} (hv : capOk v = true) (ht : v.tag = .cap) (hk : bitsAt v.cap 124 4 = storeKind k) (h0 : x.valid &&& m &&& lanes ≠ 0)
    (hx : x.tag = .cap) (hp : x.valid &&& m &&& lanes ≠ lanes) :
    (ctxOf s row v x t m).store lsid imm n true lanes false = .error (trapCap tTag x.cap) := by
  unfold Ctx.store
  simp only [ctxOf_l, ctxOf_r, ctxOf_mask, capOk_eq, hv, stoOfKind_eq hk]
  rw [if_neg (by simpa using h0), if_neg (by rw [hx]; decide), if_pos (by simp [hx, ht, hp])]
end

end Sys2Proof.Claims
end

section
/-! The obligations O18 and O20: vector loads and stores (R146 to R153; logs 27 and 58). -/

namespace Sys2Proof.Claims
open Sys2Proof.Machine

/-! ## The lanes of a gather or scatter (R149, R153) -/

/-- A mask that is not zero has a lane. -/
theorem exists_lane {acc : BitVec 16} (h : acc ≠ 0) : ∃ l, l < 16 ∧ bitAt acc l = true := by
  by_contra c
  refine h (BitVec.eq_of_getLsbD_eq fun l hl => ?_)
  rw [show acc.getLsbD l = false from Bool.eq_false_iff.2 fun e => c ⟨l, hl, e⟩]
  simp
/-- The accessed lanes, each with the offset of its word. -/
def laneOffsets {n : Nat} (s : State) (v idx : Value) (imm : BitVec n) (acc : BitVec 16) (ls : List Nat) : List (Nat × Nat) :=
  (ls.filter fun l => bitAt acc l).map fun l => (l, offsetOf (laneAddress s v idx imm l))

section
variable {s : State} {row : Row} {m acc : BitVec 16} {v idx r t : Value} {k : Sto} {isStore : Bool} {n : Nat} {imm : BitVec n}

/-- Lanes that R147 lets through pass their checks, one after the other. -/
theorem lanesOk_passes (hw : isStore = true → k ≠ .w) (ls : List Nat)
    (h : ∀ l ∈ ls, bitAt acc l = true → LocalNow s v k (if isStore then 122 else 123) 4 4 (laneAddress s v idx imm l)) :
    (ctxOf s row v r t m).lanesOk isStore (localAddress s v imm 64) idx acc ls =
      .ok (if ls.any fun l => bitAt acc l then k else .w, laneOffsets s v idx imm acc ls) := by
  induction ls with
  | nil => rfl
  | cons l ls ih =>
    have rest := ih fun j hj => h j (List.mem_cons_of_mem _ hj)
    unfold Ctx.lanesOk
    cases hb : bitAt acc l with
    | false => simp [rest, laneOffsets, hb]
    | true =>
      have here := checkLocal_ok (row := row) (m := m) (r := r) (t := t) (u := v) (tagAt := false) (h l List.mem_cons_self hb) hw
      unfold laneAddress at here
      simp only [ctxOf_l, zext64, rest, Bool.not_true, Bool.false_eq_true, if_false, List.any_cons, hb, Bool.true_or, if_true]
      rw [here]
      simp [laneOffsets, hb, laneAddress]
/-- Where a lane is accessed, its store is the store. -/
theorem lanesOk_some (hw : isStore = true → k ≠ .w) (h0 : acc ≠ 0)
    (h : ∀ l, l < 16 → bitAt acc l = true → LocalNow s v k (if isStore then 122 else 123) 4 4 (laneAddress s v idx imm l)) :
    (ctxOf s row v r t m).lanesOk isStore (localAddress s v imm 64) idx acc (List.range 16) =
      .ok (k, laneOffsets s v idx imm acc (List.range 16)) := by
  rw [lanesOk_passes hw _ fun l hl => h l (List.mem_range.1 hl), if_pos]
  obtain ⟨l, hl, hb⟩ := exists_lane h0
  exact List.any_eq_true.2 ⟨l, List.mem_range.2 hl, hb⟩
/-- The entry of a lane is found where the lane is accessed. -/
theorem find?_laneOffsets (l : Nat) (ls : List Nat) (hl : l ∈ ls) :
    (laneOffsets s v idx imm acc ls).find? (·.1 == l) = if bitAt acc l then some (l, offsetOf (laneAddress s v idx imm l)) else none := by
  induction ls with
  | nil => exact absurd hl List.not_mem_nil
  | cons j ls ih =>
    unfold laneOffsets at ih ⊢
    by_cases hj : j = l
    · subst hj
      cases hb : bitAt acc j with
      | true => simp [hb]
      | false => simpa [hb] using fun i (_ : i ∈ ls) (hi : bitAt acc i = true) (e : i = j) => Bool.eq_false_iff.1 hb (e ▸ hi)
    · have rest := ih ((List.mem_cons.1 hl).resolve_left (Ne.symm hj))
      cases hb : bitAt acc j with
      | true => simpa [hb, hj] using rest
      | false => simpa [hb] using rest
end
theorem ofLanes_congr {f g : Nat → W32} (h : ∀ l, l < 16 → f l = g l) : ofLanes f = ofLanes g := by
  unfold ofLanes
  exact congrArg _ (List.foldr_ext _ _ _ fun l hl n => by rw [h l (List.mem_range.1 hl)])

/-! ## VGATHER (R149) -/

section
variable {s : State} {pr : BitVec 2} {m : BitVec 16} {v idx : Value} {lsid : BitVec 5} {imm t0 : BitVec 9} (h : MayFire s) (hr : Runs s pr m)
  (hs : StoresBelow s lsid) (gv : Given s 0 v) (gi : Given s 1 idx)
include h hr hs gv gi

theorem fires_vgather : Fires s (iForm .vgather pr 2 t0) pr m v idx ((opnd s 2).getD default) :=
  ⟨h, hr, rfl, ⟨.inr ⟨v, gv.arrived, gv.real, .inl rfl⟩, .inr ⟨idx, gi.arrived, gi.real, .inl rfl⟩,
    .inl (by show 2 < 3; decide), .inl rfl⟩, gv.read, gi.read, rfl,
    brokenWhole_none rfl rfl rfl, .inr hs.done⟩
theorem vgather_nothing (h0 : capOk v = false ∨ m &&& idx.valid = 0) :
    exec (.vgather pr lsid imm t0) s = .next (answers s noTarget t0 (blank 0) []) := by
  show execVgather pr lsid imm t0 s = _
  refine (fires_vgather h hr hs gv gi).value ((if_pos ?_).trans rfl)
  rw [ctxOf_l, ctxOf_mask, ctxOf_r, capOk_eq]
  rcases h0 with h0 | h0 <;> rw [h0] <;> simp
theorem vgather_reads {k : Sto} (good : Readable s k lsid) (hv : capOk v = true) (hi : idx.tag ≠ .broken) (h0 : m &&& idx.valid ≠ 0)
    (hl : ∀ l, l < 16 → bitAt (m &&& idx.valid) l = true → LocalNow s v k 123 4 4 (laneAddress s v idx imm l)) :
    exec (.vgather pr lsid imm t0) s = .next (answers s noTarget t0
      { bits := ofLanes fun l => if bitAt (m &&& idx.valid) l then
          BitVec.ofNat 32 (numberSeen s k lsid (offsetOf (laneAddress s v idx imm l)) 4) else 0,
        valid := m &&& idx.valid, tag := .data, null := false } []) := by
  show execVgather pr lsid imm t0 s = _
  have masked : m &&& idx.valid &&& m = m &&& idx.valid := by rw [BitVec.and_comm m, BitVec.and_assoc, BitVec.and_self]
  refine (fires_vgather h hr hs gv gi).value ((if_neg ?_).trans ((if_neg ?_).trans ?_))
  · rw [ctxOf_l, ctxOf_mask, ctxOf_r, capOk_eq, hv]
    simpa using h0
  · rw [ctxOf_r, beq_iff_eq]; exact hi
  · simp only [ctxOf_l, ctxOf_r, ctxOf_mask, ctxOf_blk, ctxOf_idx, wideField_eq, localAt_eq]
    rw [lanesOk_some (isStore := false) (fun c => absurd c Bool.false_ne_true) h0 hl]
    refine (readLocal_clean good.good.1 good.good.2 ..).trans ?_
    simp only [lanesOf, masked]
    rw [ofLanes_congr fun l hl => ?_]
    rw [find?_laneOffsets l _ (List.mem_range.2 hl)]
    cases bitAt (m &&& idx.valid) l
    · rfl
    · exact congrArg (BitVec.ofNat 32) (seen_eq ..)
end

/-! ## VSCATTER (R153) -/

section
variable {s : State} {pr : BitVec 2} {m : BitVec 16} {v x y : Value} {lsid : BitVec 5} {imm : BitVec 18} (h : MayFire s) (hr : Runs s pr m)
  (gv : Given s 0 v) (gx : Given s 1 x) (gy : Given s 2 y)
include h hr gv gx gy

theorem fires_vscatter : Fires s (nForm .vscatter pr 3 0 0 0) pr m v x y :=
  .three h hr rfl rfl gv (.inl rfl) gx (.inl rfl) gy (.inl rfl) (brokenWhole_none rfl rfl rfl) rfl
theorem vscatter_nothing (h0 : capOk v = false ∨ m &&& x.valid &&& y.valid = 0) :
    exec (.vscatter pr lsid imm) s = .next (done (storesNothing s lsid)) := by
  show execVscatter pr lsid imm s = _
  refine (fires_vscatter h hr gv gx gy).silent ((if_pos ?_).trans rfl) rfl ((phase_updBlk _ _).trans h.admitted)
  rw [ctxOf_l, ctxOf_mask, ctxOf_r, ctxOf_t, capOk_eq]
  rcases h0 with h0 | h0 <;> rw [h0] <;> simp
/-- The words of the accessed lanes wait for the commit, those of higher lanes first, so that they stand over the lower ones'. -/
theorem vscatter_keeps {k : Sto} (hv : capOk v = true) (hk : k ≠ .w) (hx : x.tag ≠ .broken) (hy : y.tag ≠ .broken)
    (h0 : m &&& x.valid &&& y.valid ≠ 0)
    (hl : ∀ l, l < 16 → bitAt (m &&& x.valid &&& y.valid) l = true → LocalNow s v k 122 4 4 (laneAddress s v x imm l)) :
    exec (.vscatter pr lsid imm) s = .next (done (stores s lsid.toNat
      { done := true, since := s.cycle, sto := k, tag := none,
        bytes := ((List.range 16).reverse.filter fun l => bitAt (m &&& x.valid &&& y.valid) l).flatMap fun l =>
          (List.range 4).map fun i => (offsetOf (laneAddress s v x imm l) + i, bitsAt y.bits (32 * l + 8 * i) 8) })) := by
  show execVscatter pr lsid imm s = _
  refine (fires_vscatter h hr gv gx gy).silent ((if_neg ?_).trans ((if_neg ?_).trans ?_)) rfl ((phase_updBlk _ _).trans h.admitted)
  · rw [ctxOf_l, ctxOf_mask, ctxOf_r, ctxOf_t, capOk_eq, hv]
    simpa using h0
  · rw [ctxOf_r, ctxOf_t]
    simp [hx, hy]
  · simp only [ctxOf_l, ctxOf_r, ctxOf_t, ctxOf_mask, ctxOf_blk, ctxOf_idx, wideField_eq, localAt_eq]
    rw [lanesOk_some (isStore := true) (fun _ => hk) h0 hl, List.filter_reverse, List.flatMap_def]
    simp only [laneOffsets, ← List.map_reverse, List.map_map]
    rfl
end

/-! ## The other vector loads and stores -/

theorem exec_ldv (pr : BitVec 2) (lsid : BitVec 5) (imm t0 : BitVec 9) (s : State) : exec (.ldv pr lsid imm t0) s =
    s.fire (iForm .ldv pr 1 t0) plainNull fun c => c.load lsid imm 64 false allLanes false fun bs _ => dataValue (wordOfBytes 512 bs) := rfl
theorem exec_ldc (pr : BitVec 2) (lsid : BitVec 5) (imm t0 : BitVec 9) (s : State) : exec (.ldc pr lsid imm t0) s =
    s.fire (iForm .ldc pr 1 t0) plainNull fun c => c.load lsid imm 16 true 15 false fun bs t =>
      { bits := wordOfBytes 512 bs, valid := allLanes, tag := if t then .cap else .data, null := false } := rfl
theorem exec_stv (pr : BitVec 2) (lsid : BitVec 5) (imm : BitVec 18) (s : State) : exec (.stv pr lsid imm) s =
    s.fire (nForm .stv pr 2 0 0 0) (nullStore lsid.toNat) fun c => c.store lsid imm 64 false allLanes false := rfl
theorem exec_stc (pr : BitVec 2) (lsid : BitVec 5) (imm : BitVec 18) (s : State) : exec (.stc pr lsid imm) s =
    s.fire (nForm .stc pr 2 0 0 0) (nullStore lsid.toNat) fun c => c.store lsid imm 16 true 15 false := rfl

section
variable {s : State} {row : Row} {pr : BitVec 2} {m : BitVec 16} {v x : Value} {lsid : BitVec 5} {t0 : BitVec 9} (h : MayFire s) (hr : Runs s pr m)
  (gv : Given s 0 v)
include h hr gv

theorem fires_load (hg : (row == .cusGive) = false) (hs : StoresBelow s lsid) :
    Fires s (iForm row pr 1 t0) pr m v ((opnd s 1).getD default) ((opnd s 2).getD default) :=
  .immediate h hr gv hg (.inr hs.done)
theorem fires_store (hg : (row == .cusGive) = false) (hl : row.isLoad = false) (gx : Given s 1 x) :
    Fires s (nForm row pr 2 0 0 0) pr m v x ((opnd s 2).getD default) :=
  .two h hr rfl rfl hg gv (.inl rfl) gx (.inl rfl) (fun _ => brokenWhole_none rfl rfl rfl) hl
end

theorem and_allLanes (m : BitVec 16) : m &&& allLanes = m := BitVec.and_allOnes
/-- The bytes of a granule are those of lanes 0 to 3. -/
theorem laneBytes_granule (v : V512) (ok : BitVec 16) (off : Nat) : laneBytes v (ok &&& 15) off 16 = laneStores v ok off 16 := by
  refine laneBytes_eq v off 16 fun i hi => ?_
  have lanes : ∀ l, l < 4 → (15 : BitVec 16).getLsbD l = true := by decide
  rw [bitAt, bitAt, BitVec.getLsbD_and, lanes _ (by omega), Bool.and_true]

/-- Settles O18: each load reads what the block sees at its address, or at those of its lanes, or finds nothing to read. -/
theorem vectorLoads : Obligations.VectorLoads := by
  intro s pr lsid imm t0 m v k h hr hs
  refine ⟨fun h0 hv => ?_, fun h0 hv hc => ?_, fun idx gi hi h0 hl => ?_,
    fun gv => ⟨fun hn => ?_, fun hv => ?_, fun hv h0 => ?_, fun idx gi hn => ?_⟩⟩
  · rw [exec_ldv]
    refine (fires_load h hr hv.given rfl hs.toStoresBelow).value ((load_reads hv hs (by rwa [and_allLanes])
      (fun c => absurd c Bool.false_ne_true) (fun c => absurd c Bool.false_ne_true)).trans ?_)
    simp only [lanesOf, dataValue, allLanes_and, wordOfBytes, seen_eq]
  · rw [exec_ldc]
    refine (fires_load h hr hv.given rfl hs.toStoresBelow).value
      ((load_reads hv hs h0 (fun c => absurd c Bool.false_ne_true) fun _ => hc).trans ?_)
    simp only [lanesOf, allLanes_and, wordOfBytes, seen_eq]
  · obtain ⟨l, hl16, hb⟩ := exists_lane h0
    have hv := hl l hl16 hb
    exact vgather_reads h hr hs.toStoresBelow hv.given gi hs hv.whole hi h0 hl
  · rw [exec_ldv]
    refine (fires_load h hr gv rfl hs.toStoresBelow).value ?_
    cases hv : capOk v with
    | false => exact load_nullAddress hv
    | true =>
      obtain rfl := hn.resolve_left (by rw [hv]; decide)
      exact load_noLane hv rfl
  · exact (exec_ldc ..).trans ((fires_load h hr gv rfl hs.toStoresBelow).value (load_nullAddress hv))
  · exact (exec_ldc ..).trans ((fires_load h hr gv rfl hs.toStoresBelow).value (load_noLane hv h0))
  · exact vgather_nothing h hr hs.toStoresBelow gv gi hn

/-- Settles O20: each store keeps the bytes of its valid lanes for the commit, or finds nothing to write. -/
theorem vectorStores : Obligations.VectorStores := by
  intro s pr lsid imm m v x k h hr hk gx hx
  have admitted (w : LsWrite) : (blkOf (stores s lsid.toNat w)).phase = 2 := (phase_updBlk _ _).trans h.admitted
  refine ⟨fun h0 hv => ?_, fun hkc h0 hp hv => ?_, fun y gy hy h0 hl => ?_, fun gv => ⟨fun hn => ?_, fun hn => ?_, fun y gy hn => ?_⟩⟩
  · rw [exec_stv]
    refine (fires_store h hr hv.given rfl rfl gx).silent ((store_keeps hv hk (fun c => absurd c Bool.false_ne_true) (by rwa [and_allLanes]) hx
      fun c => absurd c Bool.false_ne_true).trans ?_) rfl (admitted _)
    rw [and_allLanes, laneBytes_eq _ _ _ fun _ _ => rfl]
    rfl
  · rw [exec_stc]
    refine (fires_store h hr hv.given rfl rfl gx).silent ((store_keeps hv hk (fun _ => hkc) h0 hx fun _ => hp).trans ?_) rfl (admitted _)
    rw [laneBytes_granule, Bool.true_and, beq_eq_decide, if_pos rfl]
  · obtain ⟨l, hl16, hb⟩ := exists_lane h0
    have hv := hl l hl16 hb
    exact vscatter_keeps h hr hv.given gx gy hv.whole hk hx hy h0 hl
  · rw [exec_stv]
    exact (fires_store h hr gv rfl rfl gx).silent (store_noLane (by rwa [and_allLanes])) rfl (admitted _)
  · rw [exec_stc]
    exact (fires_store h hr gv rfl rfl gx).silent (store_noLane hn) rfl (admitted _)
  · exact vscatter_nothing h hr gv gx gy hn

end Sys2Proof.Claims
end

section
/-! The obligation O21: the faults of local loads and stores, in their order (R119, R147, R148, R152; load-cap of LDC: log 27). -/

namespace Sys2Proof.Claims
open Sys2Proof.Machine

/-! ## One check after the other (R119) -/

section
variable {s : State} {row : Row} {m : BitVec 16} {v l r t : Value} {k : Sto} {isStore isC tagged : Bool} {n : Nat} {a : Word} (ht : v.tag = .cap)
  (hk : bitsAt v.cap 124 4 = storeKind k)
include ht hk

theorem checkLocal_storeClass (hc : k = .w ∨ isC = true ∧ k = .c) :
    (ctxOf s row l r t m).checkLocal v true isC a n n tagged = .error (trapCap tStoreClass v.cap) :=
  (checkLocal_cap ht hk).trans (if_pos ⟨rfl, hc⟩)
theorem checkLocal_permission (hw : isStore = true → k ≠ .w ∧ (isC = true → k ≠ .c))
    (hp : bitAt v.cap (if isStore then 122 else 123) = false ∨
      (isC = true ∧ tagged = true) ∧ bitAt v.cap (if isStore then 120 else 121) = false ∨ a.toNat / 2 ^ 52 ≠ logicalOf s) :
    (ctxOf s row l r t m).checkLocal v isStore isC a n n tagged = .error (trapCap tPerm v.cap) :=
  (checkLocal_cap ht hk).trans ((if_neg fun c => c.2.elim (hw c.1).1 fun d => (hw c.1).2 d.1 d.2).trans (if_pos hp))

variable (hw : isStore = true → k ≠ .w) (hp : bitAt v.cap (if isStore then 122 else 123) = true) (hc : a.toNat / 2 ^ 52 = logicalOf s)
include hw hp hc

/-- A data access that has its permission and its core comes to the alignment, and then to the bounds. -/
theorem checkLocal_permitted : (ctxOf s row l r t m).checkLocal v isStore false a n n tagged =
    if a.toNat % n ≠ 0 then .error { code := tAlign, lo := a, hi := BitVec.ofNat 64 n }
    else if (a.toNat < baseOf v.cap ∨ baseOf v.cap + lengthOf v.cap < a.toNat + n) ∨
        (if k = .s then 0xC000 else storeSize k) < offsetOf a + n then
      .error (trapCap tBounds v.cap)
    else if s.lotAway s.here.1 k (offsetOf a) n = true then .error (trap tAway) else .ok (k, offsetOf a) := by
  rw [checkLocal_cap ht hk, if_neg, if_neg]
  · rintro (c | ⟨⟨c, -⟩, -⟩ | c)
    · exact Bool.false_ne_true (c.symm.trans hp)
    · exact Bool.false_ne_true c
    · exact c hc
  · rintro ⟨c, d | ⟨d, -⟩⟩
    · exact hw c d
    · exact Bool.false_ne_true d
theorem checkLocal_misaligned (ha : a.toNat % n ≠ 0) :
    (ctxOf s row l r t m).checkLocal v isStore false a n n tagged = .error { code := tAlign, lo := a, hi := BitVec.ofNat 64 n } :=
  (checkLocal_permitted ht hk hw hp hc).trans (if_pos ha)
theorem checkLocal_outside (ha : a.toNat % n = 0) (hb : a.toNat < baseOf v.cap ∨ baseOf v.cap + lengthOf v.cap < a.toNat + n) :
    (ctxOf s row l r t m).checkLocal v isStore false a n n tagged = .error (trapCap tBounds v.cap) :=
  (checkLocal_permitted ht hk hw hp hc).trans ((if_neg (not_not.2 ha)).trans (if_pos (.inl hb)))
end

/-! ## A refused access traps (R72) -/

theorem tBrokenUse_here : tBrokenUse ≠ tAway := by decide
theorem tStoreClass_here : tStoreClass ≠ tAway := by decide

section
variable {s : State} {pr : BitVec 2} {m : BitVec 16} {v x : Value} {lsid : BitVec 5} {imm9 t0 : BitVec 9} {imm18 : BitVec 18} {e : Trap}
  (h : MayFire s) (hr : Runs s pr m) (gv : Given s 0 v) (hv : capOk v = true)
include h hr gv hv

theorem scalarLoad_traps {ld : (BitVec 2 → BitVec 5 → BitVec 9 → BitVec 9 → Instr) × Nat} (hl : ld ∈ scalarLoads) (hs : StoresBelow s lsid)
    (hm : bitsAt m 0 2 = 3#2) (he : e.code ≠ tAway)
    (hc : ∀ row r t tagged, (ctxOf s row v r t m).checkLocal v false false (localAddress s v imm9 ld.2) ld.2 ld.2 tagged = .error e) :
    exec (ld.1 pr lsid imm9 t0) s = .next (traps s e) := by
  obtain ⟨row, signed, hg, hx⟩ := scalarLoads_fire ld hl
  have lanes := (scalarMask_iff m).2 hm
  exact (hx ..).trans ((fires_load h hr gv hg hs).error (load_refuses hv (by rw [lanes]; decide) (fun _ => lanes) (hc ..)) he)
theorem scalarStore_traps {st : (BitVec 2 → BitVec 5 → BitVec 18 → Instr) × Nat} (hl : st ∈ scalarStores) (hn : Number s 1 x)
    (hm : bitsAt m 0 2 = 3#2) (he : e.code ≠ tAway)
    (hc : ∀ row r t tagged, (ctxOf s row v r t m).checkLocal v true false (localAddress s v imm18 st.2) st.2 st.2 tagged = .error e) :
    exec (st.1 pr lsid imm18) s = .next (traps s e) := by
  obtain ⟨row, hg, hl, hx⟩ := scalarStores_fire st hl
  have lanes := scalarLanes hn.whole hm
  exact (hx ..).trans ((fires_store h hr gv hg hl hn.given).error (store_refuses hv (by rw [lanes]; decide) (fun _ => lanes) hn.usable
    (fun c => absurd c Bool.false_ne_true) (hc ..)) he)
theorem ldc_traps (hs : StoresBelow s lsid) (h0 : m &&& 15 ≠ 0) (he : e.code ≠ tAway)
    (hc : ∀ r t, (ctxOf s .ldc v r t m).checkLocal v false true (localAddress s v imm9 16) 16 16 (tagAt s v lsid (localAddress s v imm9 16)) =
      .error e) :
    exec (.ldc pr lsid imm9 t0) s = .next (traps s e) :=
  (exec_ldc ..).trans ((fires_load h hr gv rfl hs).error (load_refuses hv h0 (fun c => absurd c Bool.false_ne_true) (hc ..)) he)
theorem stc_traps (gx : Given s 1 x) (ht : x.tag ≠ .broken) (hl : x.valid &&& m &&& 15 = 15) (he : e.code ≠ tAway)
    (hc : ∀ t, (ctxOf s .stc v x t m).checkLocal v true true (localAddress s v imm18 16) 16 16 (x.tag == .cap) = .error e) :
    exec (.stc pr lsid imm18) s = .next (traps s e) :=
  (exec_stc ..).trans ((fires_store h hr gv rfl rfl gx).error (store_refuses hv (by rw [hl]; decide) (fun _ => hl) ht (fun _ _ => hl) (hc ..)) he)
end

/-- Settles O21: a refused access traps, with the first check of R119 that it fails. -/
theorem localAccessFaults : Obligations.LocalAccessFaults := by
  intro s pr lsid imm9 t0 imm18 m v x k h hr gv hv hs
  refine ⟨fun hm hn ld hl st hst => ?_,
    fun ht hk => ⟨fun h0 hp htag => ?_, fun gx => ⟨fun hx h0 hl => ?_, fun hx hl hc => ?_, fun hx hl hc hp => ?_⟩⟩⟩
  · have load {e : Trap} := scalarLoad_traps (imm9 := imm9) (t0 := t0) (e := e) h hr gv hv hl hs.toStoresBelow hm
    have store {e : Trap} := scalarStore_traps (lsid := lsid) (imm18 := imm18) (e := e) h hr gv hv hst hn hm
    have loads : false = true → k ≠ .w := fun c => absurd c Bool.false_ne_true
    refine ⟨fun ht => ⟨?_, ?_⟩, fun ht => ⟨?_, ?_⟩, fun ht hk => ⟨?_, ?_⟩,
      fun ht hk => ⟨fun hp => ?_, fun hc => ?_, fun hp hc => ⟨fun ha => ?_, fun ha hb => ?_⟩,
        fun hw => ?_, fun hw => ⟨fun hp => ?_, fun hc => ?_, fun hp hc => ⟨fun ha => ?_, fun ha hb => ?_⟩⟩⟩⟩
    · exact load tBrokenUse_here fun _ _ _ _ => checkLocal_broken ht
    · exact store tBrokenUse_here fun _ _ _ _ => checkLocal_broken ht
    · exact load tTag_here fun _ _ _ _ => checkLocal_data ht
    · exact store tTag_here fun _ _ _ _ => checkLocal_data ht
    · exact load tTag_here fun _ _ _ _ => checkLocal_kind ht hk
    · exact store tTag_here fun _ _ _ _ => checkLocal_kind ht hk
    · exact load tPerm_here fun _ _ _ _ => checkLocal_permission ht hk (fun c => absurd c Bool.false_ne_true) (.inl hp)
    · exact load tPerm_here fun _ _ _ _ => checkLocal_permission ht hk (fun c => absurd c Bool.false_ne_true) (.inr (.inr hc))
    · exact load tAlign_here fun _ _ _ _ => checkLocal_misaligned ht hk loads hp hc ha
    · exact load tBounds_here fun _ _ _ _ => checkLocal_outside ht hk loads hp hc ha hb
    · exact store tStoreClass_here fun _ _ _ _ => checkLocal_storeClass ht hk (.inl hw)
    · exact store tPerm_here fun _ _ _ _ => checkLocal_permission ht hk (fun _ => ⟨hw, fun c => absurd c Bool.false_ne_true⟩) (.inl hp)
    · exact store tPerm_here fun _ _ _ _ => checkLocal_permission ht hk (fun _ => ⟨hw, fun c => absurd c Bool.false_ne_true⟩) (.inr (.inr hc))
    · exact store tAlign_here fun _ _ _ _ => checkLocal_misaligned ht hk (fun _ => hw) hp hc ha
    · exact store tBounds_here fun _ _ _ _ => checkLocal_outside ht hk (fun _ => hw) hp hc ha hb
  · refine ldc_traps h hr gv hv hs.toStoresBelow h0 tPerm_here fun _ _ => ?_
    rw [tagAt_eq hk, htag]
    exact checkLocal_permission ht hk (fun c => absurd c Bool.false_ne_true) (.inr (.inl ⟨⟨rfl, rfl⟩, hp⟩))
  · exact (exec_stc ..).trans ((fires_store h hr gv rfl rfl gx).error (store_partial hv ht hk h0 hx hl) tTag_here)
  · exact stc_traps h hr gv hv gx hx hl tStoreClass_here fun _ => checkLocal_storeClass ht hk (hc.imp_right fun c => ⟨rfl, c⟩)
  · refine stc_traps h hr gv hv gx (by rw [hx]; decide) hl tPerm_here fun _ => ?_
    refine checkLocal_permission ht hk (fun _ => ?_) (.inr (.inl ⟨⟨rfl, beq_iff_eq.2 hx⟩, hp⟩))
    rcases hc with rfl | rfl <;> decide

end Sys2Proof.Claims
end

section
/-! SUPPORT. The elements of a vector (R180 to R183): packing and reading them, the lanes that they fill, and what an element-wise operation of the
model answers, for the instructions that compute on elements and for the conversions. -/

namespace Sys2Proof.Claims
open Sys2Proof.Machine

/-! ## Packed digits -/

/-- Digit `k` of the number that digits in base 2^w spell. -/
theorem digit_foldr (w : Nat) (es : List Nat) (k : Nat) :
    es.foldr (fun e n => e % 2 ^ w + 2 ^ w * n) 0 / 2 ^ (w * k) % 2 ^ w = es[k]?.getD 0 % 2 ^ w := by
  induction es generalizing k with
  | nil => simp
  | cons e es ih =>
    rw [List.foldr_cons]
    cases k with
    | zero => simp
    | succ k =>
      rw [Nat.mul_succ, Nat.add_comm (w * k), Nat.pow_add, ← Nat.div_div_eq_div_mul, Nat.add_mul_div_left _ _ (Nat.two_pow_pos w),
        Nat.div_eq_of_lt (Nat.mod_lt e (Nat.two_pow_pos w)), Nat.zero_add, ih]
      rfl
/-- A field of a word is that of the number it was made of. -/
theorem bitsAt_ofNat {n lo k : Nat} (x : Nat) (h : lo + k ≤ n) : bitsAt (BitVec.ofNat n x) lo k = BitVec.ofNat k (x / 2 ^ lo) := by
  apply BitVec.eq_of_getLsbD_eq
  intro i hi
  rw [getLsbD_bitsAt, BitVec.getLsbD_ofNat, BitVec.getLsbD_ofNat, Nat.testBit_div_two_pow, Nat.add_comm i lo]
  simp [show lo + i < n by omega]
theorem bitsAt_ofElems {w k : Nat} (es : List Nat) (h : w * k + w ≤ 512) :
    (bitsAt (ofElems w es) (w * k) w : BitVec w) = BitVec.ofNat w (es[k]?.getD 0) := by
  rw [ofElems, bitsAt_ofNat _ h, ← ofNat_mod, digit_foldr, ofNat_mod]
theorem bitAt_mask (f : Nat → Bool) (l : Nat) : bitAt (Machine.maskOf f) l = (decide (l < 16) && f l) := by
  have digits : (List.range 16).foldr (fun i n => bit1 (f i) + 2 * n) 0 =
      ((List.range 16).map fun i => bit1 (f i)).foldr (fun e n => e % 2 ^ 1 + 2 ^ 1 * n) 0 := by
    rw [List.foldr_map]
    exact List.foldr_ext _ _ _ fun i _ n => by cases f i <;> rfl
  rw [bitAt, Machine.maskOf, digits, BitVec.getLsbD_ofNat, Nat.testBit_eq_decide_div_mod_eq]
  by_cases h : l < 16
  · have digit := digit_foldr 1 ((List.range 16).map fun i => bit1 (f i)) l
    rw [Nat.one_mul] at digit
    simp only [Nat.pow_one] at digit ⊢
    rw [digit]
    cases hf : f l <;> simp [h, hf, bit1]
  · simp [h]

/-! ## Lanes and elements (R180) -/

/-- The widths of elements (R180). -/
def IsElemWidth (w : Nat) : Prop := w = 8 ∨ w = 16 ∨ w = 32 ∨ w = 64
theorem IsElemWidth.pos {w : Nat} (h : IsElemWidth w) : 0 < w := by rcases h with rfl | rfl | rfl | rfl <;> decide
theorem elem_fits {w : Nat} {k : Nat} (hk : k < 512 / w) : w * k + w ≤ 512 :=
  (Nat.mul_succ w k ▸ Nat.mul_le_mul_left w hk).trans (Nat.mul_div_le 512 w)
/-- Element `k` lies in lane `l`. -/
def InLane (w l k : Nat) : Prop := if w = 64 then k = l / 2 else k * w / 32 = l
theorem elem_eq (v : Value) (w k : Nat) : v.elem w k = (el w v k).toNat := numAt_eq_bitsAt ..
theorem bitAt_and (a b : BitVec 16) (l : Nat) : bitAt (a &&& b) l = (bitAt a l && bitAt b l) := BitVec.getLsbD_and ..
theorem elemLive_and (w : Nat) (a b : BitVec 16) (k : Nat) : elemLive w (a &&& b) k = (elemLive w a k && elemLive w b k) := by
  unfold elemLive
  split <;> simp only [bitAt_and]
  ac_rfl
/-- A lane is left valid when every element that lies in it is. -/
theorem bitAt_lanesOf (w n : Nat) (ok : Nat → Bool) (l : Nat) :
    bitAt (Machine.lanesOf w n ok) l = true ↔ l < 16 ∧ ∀ k, k < n → InLane w l k → ok k = true := by
  rw [Machine.lanesOf, bitAt_mask]
  simp only [Bool.and_eq_true, decide_eq_true_eq, List.all_eq_true, List.mem_range, Bool.or_eq_true, InLane]
  refine and_congr_right fun _ => forall_congr' fun k => imp_congr_right fun _ => ?_
  split <;> simp only [bne_iff_ne] <;> tauto
/-- An element whose lanes are left valid is. -/
theorem live_of_lanes {w n k : Nat} {ok : Nat → Bool} {m : BitVec 16} (hk : k < n) (h : elemLive w (Machine.lanesOf w n ok &&& m) k = true) :
    ok k = true := by
  rw [elemLive_and, Bool.and_eq_true] at h
  unfold elemLive at h
  split at h
  · next hw =>
    exact ((bitAt_lanesOf ..).1 (Bool.and_eq_true_iff.1 h.1).1).2 k hk (by rw [InLane, if_pos hw]; omega)
  · next hw => exact ((bitAt_lanesOf ..).1 h.1).2 k hk (by rw [InLane, if_neg hw])
/-- Both lanes of a 64-bit element stay or go together. -/
theorem bitAt_wholeElems (v : BitVec 16) {l : Nat} (hl : l < 16) : bitAt (wholeElems 64 v) l = elemLive 64 v (l / 2) := by
  have even : ∀ l, l < 16 → ((0x5555 : Nat) : BitVec 16).getLsbD l = decide (l % 2 = 0) := by decide
  have odd : ∀ l, l < 16 → (0xAAAA : BitVec 16).getLsbD l = decide (l % 2 = 1) := by decide
  rw [wholeElems, if_pos rfl, elemLive, if_pos rfl]
  simp only [bitAt, BitVec.getLsbD_and, BitVec.getLsbD_or, BitVec.getLsbD_ushiftRight, BitVec.getLsbD_shiftLeft, hl, even l hl, odd l hl]
  rcases Nat.mod_two_eq_zero_or_one l with h | h
  · simp [h, show 2 * (l / 2) = l by omega, Nat.add_comm 1 l]
  · simp [h, show 2 * (l / 2) = l - 1 by omega, show l - 1 + 1 = l by omega, show ¬ l < 1 by omega, Bool.and_comm]
theorem elemLive_wholeElems {w k : Nat} (v : BitVec 16) (hk : k < 512 / w) : elemLive w (wholeElems w v) k = elemLive w v k := by
  by_cases hw : w = 64
  · subst hw
    have hk' : k < 8 := hk
    rw [elemLive, if_pos rfl, bitAt_wholeElems v (by omega), bitAt_wholeElems v (by omega), show 2 * k / 2 = k by omega,
      show (2 * k + 1) / 2 = k by omega, Bool.and_self]
  · rw [wholeElems, if_neg hw]
/-- The lanes that elements of the result's own width leave valid. -/
theorem lanesOf_live {w : Nat} (hw : IsElemWidth w) {v m : BitVec 16} (hm : v &&& m = v) :
    Machine.lanesOf w (512 / w) (elemLive w v) &&& m = wholeElems w v := by
  have masked (l : Nat) (h : bitAt v l = true) : bitAt m l = true := by
    rw [← hm, bitAt_and, Bool.and_eq_true] at h; exact h.2
  apply BitVec.eq_of_getLsbD_eq
  intro l hl
  show bitAt (Machine.lanesOf w (512 / w) (elemLive w v) &&& m) l = bitAt (wholeElems w v) l
  rw [Bool.eq_iff_iff, bitAt_and, Bool.and_eq_true, bitAt_lanesOf]
  by_cases h64 : w = 64
  · subst h64
    rw [bitAt_wholeElems v hl]
    refine ⟨fun h => h.1.2 (l / 2) (by omega) rfl, fun h => ⟨⟨hl, fun k _ e => by rw [show k = l / 2 from e]; exact h⟩, masked l ?_⟩⟩
    rw [elemLive, if_pos rfl, Bool.and_eq_true] at h
    rcases Nat.mod_two_eq_zero_or_one l with p | p
    · rw [show l = 2 * (l / 2) by omega]; exact h.1
    · rw [show l = 2 * (l / 2) + 1 by omega]; exact h.2
  · have first : l * 32 / w < 512 / w ∧ l * 32 / w * w / 32 = l := by
      rcases hw with rfl | rfl | rfl | rfl <;> omega
    simp only [InLane, elemLive, wholeElems, if_neg h64]
    exact ⟨fun h => first.2 ▸ h.1.2 _ first.1 first.2, fun h => ⟨⟨hl, fun k _ e => e ▸ h⟩, masked l h⟩⟩

/-! ## Operands -/

theorem liveLanes_masked (m : BitVec 16) (vs : List Value) : liveLanes m vs &&& m = liveLanes m vs := by
  induction vs with
  | nil => exact BitVec.and_self
  | cons v vs ih => rw [liveLanes, List.foldr_cons, BitVec.and_assoc]; exact congrArg _ ih
theorem elemLive_liveLanes (w : Nat) (m : BitVec 16) (vs : List Value) (k : Nat) :
    elemLive w (liveLanes m vs) k = (elemLive w m k && vs.all fun v => elemLive w v.valid k) := by
  induction vs with
  | nil => exact (Bool.and_true _).symm
  | cons v vs ih =>
    rw [liveLanes, List.foldr_cons, elemLive_and, List.all_cons, ← Bool.and_assoc, Bool.and_comm (elemLive w m k), Bool.and_assoc]
    exact congrArg _ ih
/-- Element `k` of every operand can be read: it is not null, and not masked where the result has the operands' width. -/
def reads (m : BitVec 16) (vs : List Value) (ws wd k : Nat) : Bool :=
  vs.all fun v => elemLive ws (if ws = wd then v.valid &&& m else v.valid) k
theorem reads_same {vs : List Value} (hvs : vs ≠ []) (m : BitVec 16) (w k : Nat) : reads m vs w w k = elemLive w (liveLanes m vs) k := by
  rw [reads, elemLive_liveLanes]
  simp only [if_pos, elemLive_and]
  cases elemLive w m k
  · simpa using List.exists_mem_of_ne_nil vs hvs
  · simp

/-! ## Element-wise operations -/

/-- The lanes of a result of `n` elements. -/
def outLanes (m : BitVec 16) (vs : List Value) (ws wd n : Nat) : BitVec 16 := Machine.lanesOf wd n (reads m vs ws wd) &&& m
/-- The bits of a result of `n` elements, zero where an operand's element cannot be read. -/
def outBits (m : BitVec 16) (vs : List Value) (ws wd n : Nat) (f : Nat → List Nat → Nat × List Nat) : V512 :=
  ofElems wd ((List.range n).map fun k => (if reads m vs ws wd k then f k (vs.map fun v => v.elem ws k) else (0, [])).1)
/-- What an element-wise operation answers: an element raises its events where its lanes are valid (R179). -/
theorem mapEl_eq (c : Ctx) (vs : List Value) (ws wd n : Nat) (f : Nat → List Nat → Nat × List Nat) :
    c.mapEl vs ws wd n f = c.value
      { bits := outBits c.mask vs ws wd n f, valid := outLanes c.mask vs ws wd n, tag := tagOf vs, null := false }
      ((List.range n).flatMap fun k => if elemLive wd (outLanes c.mask vs ws wd n) k then (f k (vs.map fun v => v.elem ws k)).2 else []) := by
  unfold Ctx.mapEl outBits
  dsimp only
  rw [← List.map_prod_left_eq_zip, List.map_map, List.map_map, ← List.flatMap_def]
  refine congrArg (fun evs => c.value _ evs) (List.flatMap_congr fun k hk => ?_)
  show (if elemLive wd (outLanes c.mask vs ws wd n) k then (if reads c.mask vs ws wd k then _ else (0, [])).2 else []) = _
  split
  · next h => rw [if_pos (live_of_lanes (List.mem_range.1 hk) h)]
  · rfl
theorem bitsAt_outBits {m : BitVec 16} {vs : List Value} {ws wd n k : Nat} {f : Nat → List Nat → Nat × List Nat} (hk : k < n)
    (fit : wd * k + wd ≤ 512) (h : reads m vs ws wd k = true) :
    (bitsAt (outBits m vs ws wd n f) (wd * k) wd : BitVec wd) = BitVec.ofNat wd (f k (vs.map fun v => v.elem ws k)).1 := by
  rw [outBits, bitsAt_ofElems _ fit]
  simp [hk, h]
/-- Past the elements there are zeros (R191). -/
theorem bitsAt_outBits_past {m : BitVec 16} {vs : List Value} {ws wd n k : Nat} {f : Nat → List Nat → Nat × List Nat} (hk : n ≤ k)
    (fit : wd * k + wd ≤ 512) : (bitsAt (outBits m vs ws wd n f) (wd * k) wd : BitVec wd) = 0 := by
  rw [outBits, bitsAt_ofElems _ fit]
  simp [hk]

end Sys2Proof.Claims
end

section
/-! The obligations O24 and O25: floating arithmetic and the selections, sign, class and integral-value operations of the floating formats (R162 to R167,
R185, R186, R188; log 25). -/

namespace Sys2Proof.Claims
open Sys2Proof.Machine

/-! ## Instructions on elements (R180, R181) -/

/-- Two results of an element have the same code of `w` bits and the same events. -/
def SameElement (w : Nat) (x y : Nat × List Nat) : Prop := BitVec.ofNat w x.1 = BitVec.ofNat w y.1 ∧ x.2 = y.2
theorem SameElement.refl (w : Nat) (x : Nat × List Nat) : SameElement w x x := ⟨rfl, rfl⟩

section
variable {s : State} {row : Row} {pr : BitVec 2} {t1 t0 : BitVec 9} {m : BitVec 16} {a b d : Value}

/-- The T format of three operands. -/
theorem Fires.triple (h : MayFire s) (hr : Runs s pr m) (ga : Given s 0 a) (gb : Given s 1 b) (gd : Given s 2 d)
    (hg : (row == .cusGive) = false) (hl : row.isLoad = false) : Fires s (tForm row pr 3 t1 t0) pr m a b d :=
  .three h hr rfl hg ga (.inl rfl) gb (.inl rfl) gd (.inl rfl) (brokenWhole_none rfl rfl rfl) hl

/-- A firing whose effect is element-wise, on elements of the operands' own width. -/
theorem Fires.elements {n w : Nat} {l r t : Value} {vs : List Value} {act : Ctx → Except Trap Fired} {g : Nat → List Nat → Nat × List Nat}
    {f : Nat → Nat × List Nat} {i : Instr} (h : Fires s (tForm row pr n t1 t0) pr m l r t)
    (he : exec i s = s.fire (tForm row pr n t1 t0) plainNull act)
    (ha : act (ctxOf s row l r t m) = (ctxOf s row l r t m).mapEl vs w w (512 / w) g) (hw : IsElemWidth w) (hvs : vs ≠ [])
    (hg : ∀ k, SameElement w (g k (vs.map fun v => v.elem w k)) (f k)) : Elements i s t1 t0 m vs w f := by
  have lanes : outLanes m vs w w (512 / w) = wholeElems w (liveLanes m vs) := by
    rw [outLanes, funext (reads_same hvs m w), lanesOf_live hw (liveLanes_masked m vs)]
  refine ⟨outBits m vs w w (512 / w) g, ?_, fun k hk live => ?_⟩
  · rw [mapEl_eq, ctxOf_mask, lanes] at ha
    rw [he, h.ok ha rfl h.may.admitted]
    refine congrArg (fun evs => Host.Outcome.next (answers s t1 t0 _ evs)) (List.flatMap_congr fun k hk => ?_)
    rw [elemLive_wholeElems _ (List.mem_range.1 hk), (hg k).2]
  · rw [bitsAt_outBits hk (elem_fits hk) ((reads_same hvs ..).trans live), (hg k).1]
end

/-! ## Floating instructions of one, two and three operands -/

section
variable {mk : BitVec 2 → BitVec 9 → BitVec 9 → Instr} {row : Row} {f : Fmt}

theorem floatOne_of {op : State → Nat → Value → Nat × List Nat} {g : Ctx → Nat → List Nat → Nat × List Nat}
    (he : ∀ s pr t1 t0, exec (mk pr t1 t0) s = s.fire (tForm row pr 1 t1 t0) plainNull fun c => c.mapEl [c.l] f.w f.w (512 / f.w) (g c))
    (hw : IsElemWidth f.w) (hl : row.isLoad = false) (hg : (row == .cusGive) = false)
    (same : ∀ s m a r t k, SameElement f.w (g (ctxOf s row a r t m) k [(el f.w a k).toNat]) (op s k a)) : FloatOne mk f op :=
  fun s pr t1 t0 _ _ h hr ga => (Fires.single h hr ga hg hl).elements (he s pr t1 t0) rfl hw (List.cons_ne_nil _ _) fun k => by
    rw [List.map_singleton, elem_eq]; exact same ..
theorem floatTwo_of {op : State → Nat → Value → Value → Nat × List Nat} {g : Ctx → Nat → List Nat → Nat × List Nat}
    (he : ∀ s pr t1 t0, exec (mk pr t1 t0) s =
      s.fire (tForm row pr 2 t1 t0) plainNull fun c => c.mapEl [c.l, c.r] f.w f.w (512 / f.w) (g c))
    (hw : IsElemWidth f.w) (hl : row.isLoad = false) (hg : (row == .cusGive) = false)
    (same : ∀ s m a b t k, SameElement f.w (g (ctxOf s row a b t m) k [(el f.w a k).toNat, (el f.w b k).toNat]) (op s k a b)) :
    FloatTwo mk f op :=
  fun s pr t1 t0 _ _ _ h hr ga gb => (Fires.pair h hr ga gb hg hl).elements (he s pr t1 t0) rfl hw (List.cons_ne_nil _ _) fun k => by
    rw [List.map_cons, List.map_singleton, elem_eq, elem_eq]; exact same ..
/-- Arithmetic on numbers, rounded in the mode in effect. -/
theorem floatOne_rounded (g : Nat → Nat → FNum → Nat × List Nat)
    (he : ∀ s pr t1 t0, exec (mk pr t1 t0) s = s.fire (tForm row pr 1 t1 t0) plainNull fun c => c.vf1 f g) (hw : IsElemWidth f.w)
    (hl : row.isLoad = false) (hg : (row == .cusGive) = false) : FloatOne mk f fun s k a => g (modeOf s) (drawOf s k) (num f a k) :=
  floatOne_of (g := fun c k xs => g c.mode (c.drawIn c.mode k) (f.decode (xs[0]?.getD 0))) he hw hl hg fun _ _ _ _ _ _ => .refl ..
theorem floatTwo_rounded (g : Nat → Nat → FNum → FNum → Nat × List Nat)
    (he : ∀ s pr t1 t0, exec (mk pr t1 t0) s = s.fire (tForm row pr 2 t1 t0) plainNull fun c => c.vf2 f g) (hw : IsElemWidth f.w)
    (hl : row.isLoad = false) (hg : (row == .cusGive) = false) :
    FloatTwo mk f fun s k a b => g (modeOf s) (drawOf s k) (num f a k) (num f b k) :=
  floatTwo_of (g := fun c k xs => g c.mode (c.drawIn c.mode k) (f.decode (xs[0]?.getD 0)) (f.decode (xs[1]?.getD 0))) he hw hl hg
    fun _ _ _ _ _ _ => .refl ..
/-- The VFMA family (R188). -/
theorem floatThree_fused {negProd negAdd : Bool}
    (he : ∀ s pr t1 t0, exec (mk pr t1 t0) s = s.fire (tForm row pr 3 t1 t0) plainNull fun c => c.fmaEl f negProd negAdd)
    (hw : IsElemWidth f.w) (hl : row.isLoad = false) (hg : (row == .cusGive) = false) :
    FloatThree mk f fun s k a b c => f.fma (modeOf s) (drawOf s k) (num f a k) (num f b k) (num f c k) negProd negAdd :=
  fun s pr t1 t0 _ _ _ _ h hr ga gb gc => (Fires.triple h hr ga gb gc hg hl).elements (he s pr t1 t0) rfl hw (List.cons_ne_nil _ _) fun k => by
    rw [List.map_cons, List.map_cons, List.map_singleton, elem_eq, elem_eq, elem_eq]; exact .refl ..
/-- Operations on codes, without rounding. -/
theorem floatOne_coded (g : Nat → Nat × List Nat)
    (he : ∀ s pr t1 t0, exec (mk pr t1 t0) s = s.fire (tForm row pr 1 t1 t0) plainNull fun c => c.vc1 f g) (hw : IsElemWidth f.w)
    (hl : row.isLoad = false) (hg : (row == .cusGive) = false) : FloatOne mk f fun _ k a => g (el f.w a k).toNat :=
  floatOne_of (g := fun _ _ xs => g (xs[0]?.getD 0)) he hw hl hg fun _ _ _ _ _ _ => .refl ..
theorem floatTwo_coded (g : Nat → Nat → Nat × List Nat)
    (he : ∀ s pr t1 t0, exec (mk pr t1 t0) s = s.fire (tForm row pr 2 t1 t0) plainNull fun c => c.vc2 f g) (hw : IsElemWidth f.w)
    (hl : row.isLoad = false) (hg : (row == .cusGive) = false) :
    FloatTwo mk f fun _ k a b => g (el f.w a k).toNat (el f.w b k).toNat :=
  floatTwo_of (g := fun _ _ xs => g (xs[0]?.getD 0) (xs[1]?.getD 0)) he hw hl hg fun _ _ _ _ _ _ => .refl ..
end

theorem isElemWidth_wide (w : BitVec 1) : IsElemWidth (wide w).w := by
  unfold wide
  split
  · exact .inr (.inr (.inr rfl))
  · exact .inr (.inr (.inl rfl))
theorem isElemWidth_half (w : BitVec 1) : IsElemWidth (half w).w := by
  unfold half
  split <;> exact .inr (.inl rfl)
theorem isElemWidth_fmt4 (w : BitVec 2) : IsElemWidth (fmt4 w).w := by
  unfold fmt4
  split
  · exact .inr (.inr (.inl rfl))
  split
  · exact .inr (.inr (.inr rfl))
  split <;> exact .inr (.inl rfl)

/-- Settles O24: each operation of the model is element-wise, on the numbers of the elements. -/
theorem floatingArithmetic : Obligations.FloatingArithmetic := by
  refine ⟨fun w => ?_, fun w => ?_, fun w => ?_, fun w => ?_, fun w => ?_, fun w => ?_, fun w => ?_, fun w => ?_, fun w => ?_, fun w => ?_,
    fun w => ?_, fun w => ?_, fun w => ?_, fun w => ?_, fun w => ⟨?_, ?_, ?_, ?_⟩⟩
  · exact floatTwo_rounded (wide w).addNum (fun _ _ _ _ => rfl) (isElemWidth_wide w) rfl rfl
  · exact floatTwo_rounded (fun m d a b => (wide w).addNum m d a b.neg) (fun _ _ _ _ => rfl) (isElemWidth_wide w) rfl rfl
  · exact floatTwo_rounded (wide w).mulNum (fun _ _ _ _ => rfl) (isElemWidth_wide w) rfl rfl
  · exact floatTwo_rounded (wide w).divNum (fun _ _ _ _ => rfl) (isElemWidth_wide w) rfl rfl
  · exact floatOne_rounded (wide w).sqrtNum (fun _ _ _ _ => rfl) (isElemWidth_wide w) rfl rfl
  · exact floatOne_rounded (fun m d a => (wide w).divNum m d oneNum a) (fun _ _ _ _ => rfl) (isElemWidth_wide w) rfl rfl
  · exact floatOne_rounded (wide w).rsqNum (fun _ _ _ _ => rfl) (isElemWidth_wide w) rfl rfl
  · exact floatTwo_rounded (half w).addNum (fun _ _ _ _ => rfl) (isElemWidth_half w) rfl rfl
  · exact floatTwo_rounded (fun m d a b => (half w).addNum m d a b.neg) (fun _ _ _ _ => rfl) (isElemWidth_half w) rfl rfl
  · exact floatTwo_rounded (half w).mulNum (fun _ _ _ _ => rfl) (isElemWidth_half w) rfl rfl
  · exact floatTwo_rounded (half w).divNum (fun _ _ _ _ => rfl) (isElemWidth_half w) rfl rfl
  · exact floatOne_rounded (half w).sqrtNum (fun _ _ _ _ => rfl) (isElemWidth_half w) rfl rfl
  · exact floatOne_rounded (fun m d a => (half w).divNum m d oneNum a) (fun _ _ _ _ => rfl) (isElemWidth_half w) rfl rfl
  · exact floatOne_rounded (half w).rsqNum (fun _ _ _ _ => rfl) (isElemWidth_half w) rfl rfl
  all_goals exact floatThree_fused (f := fmt4 w) (fun _ _ _ _ => rfl) (isElemWidth_fmt4 w) rfl rfl

/-! ## Selections (R162, R185, R186) -/

section
variable {n : Nat} (x : BitVec n)

theorem toNat_clearTop : (x &&& ~~~ BitVec.twoPow n (n - 1)).toNat = x.toNat % 2 ^ (n - 1) := by
  apply Nat.eq_of_testBit_eq
  intro i
  rw [← BitVec.getLsbD, BitVec.getLsbD_and, BitVec.getLsbD_not, BitVec.getLsbD_twoPow, Nat.testBit_mod_two_pow, BitVec.testBit_toNat]
  by_cases hi : i < n - 1
  · simp [hi, show i < n by omega, show ¬ n - 1 = i by omega]
  · by_cases hn : i < n
    · simp [hn, show n - 1 = i by omega]
    · simp [hi, hn]
theorem toNat_flipTop (h : 0 < n) : (x ^^^ BitVec.twoPow n (n - 1)).toNat =
    if x.toNat / 2 ^ (n - 1) = 0 then x.toNat + 2 ^ (n - 1) else x.toNat - 2 ^ (n - 1) := by
  have pos := Nat.two_pow_pos (n - 1)
  have top : x.toNat / 2 ^ (n - 1) < 2 :=
    Nat.div_lt_of_lt_mul (by rw [← Nat.pow_succ, show (n - 1).succ = n by omega]; exact x.isLt)
  have low : (x.toNat ^^^ 2 ^ (n - 1)) % 2 ^ (n - 1) = x.toNat % 2 ^ (n - 1) := by
    rw [Nat.xor_mod_two_pow, Nat.mod_self, Nat.xor_zero]
  have high : (x.toNat ^^^ 2 ^ (n - 1)) / 2 ^ (n - 1) = x.toNat / 2 ^ (n - 1) ^^^ 1 := by
    rw [Nat.xor_div_two_pow, Nat.div_self pos]
  have parts := Nat.div_add_mod x.toNat (2 ^ (n - 1))
  rw [BitVec.toNat_xor, BitVec.toNat_twoPow, Nat.mod_eq_of_lt (Nat.pow_lt_pow_right (by decide) (by omega)),
    ← Nat.div_add_mod (x.toNat ^^^ 2 ^ (n - 1)) (2 ^ (n - 1)), low, high]
  rcases Nat.le_one_iff_eq_zero_or_eq_one.1 (Nat.lt_succ_iff.1 top) with e | e <;> rw [e] at parts ⊢
  · rw [if_pos rfl, show 0 ^^^ 1 = 1 from rfl]; omega
  · rw [if_neg (by decide), show 1 ^^^ 1 = 0 from rfl]; omega
end

section
variable {mk : BitVec 2 → BitVec 9 → BitVec 9 → Instr} {row : Row} {f : Fmt}

theorem floatOne_abs (he : ∀ s pr t1 t0, exec (mk pr t1 t0) s = s.fire (tForm row pr 1 t1 t0) plainNull fun c => c.vc1 f fun x => (f.absCode x, []))
    (hw : IsElemWidth f.w) (hl : row.isLoad = false) (hg : (row == .cusGive) = false) :
    FloatOne mk f fun _ k a => ((el f.w a k &&& ~~~ BitVec.twoPow f.w (f.w - 1)).toNat, []) := by
  simp only [toNat_clearTop]
  exact floatOne_coded (fun x => (f.absCode x, [])) he hw hl hg
theorem floatOne_neg (he : ∀ s pr t1 t0, exec (mk pr t1 t0) s = s.fire (tForm row pr 1 t1 t0) plainNull fun c => c.vc1 f fun x => (f.negCode x, []))
    (hw : IsElemWidth f.w) (hl : row.isLoad = false) (hg : (row == .cusGive) = false) :
    FloatOne mk f fun _ k a => ((el f.w a k ^^^ BitVec.twoPow f.w (f.w - 1)).toNat, []) := by
  simp only [toNat_flipTop _ hw.pos]
  exact floatOne_coded (fun x => (f.negCode x, [])) he hw hl hg
end

/-- Settles O25: the operations of the model are element-wise on codes; clearing and flipping the top bit are its sign operations. -/
theorem floatingSelections : Obligations.FloatingSelections := by
  refine ⟨fun w => ?_, fun w => ?_, fun w => ?_, fun w => ?_, fun w => ?_, fun w => ?_, fun w => ?_, fun w => ?_, fun w => ?_, fun w => ?_,
    fun w => ?_, fun w => ?_⟩
  · exact floatTwo_coded ((wide w).minMax false) (fun _ _ _ _ => rfl) (isElemWidth_wide w) rfl rfl
  · exact floatTwo_coded ((wide w).minMax true) (fun _ _ _ _ => rfl) (isElemWidth_wide w) rfl rfl
  · exact floatTwo_coded ((half w).minMax false) (fun _ _ _ _ => rfl) (isElemWidth_half w) rfl rfl
  · exact floatTwo_coded ((half w).minMax true) (fun _ _ _ _ => rfl) (isElemWidth_half w) rfl rfl
  · exact floatOne_abs (fun _ _ _ _ => rfl) (isElemWidth_wide w) rfl rfl
  · exact floatOne_abs (fun _ _ _ _ => rfl) (isElemWidth_half w) rfl rfl
  · exact floatOne_neg (fun _ _ _ _ => rfl) (isElemWidth_wide w) rfl rfl
  · exact floatOne_neg (fun _ _ _ _ => rfl) (isElemWidth_half w) rfl rfl
  · exact floatOne_coded ((wide w).integral 4 0) (fun _ _ _ _ => rfl) (isElemWidth_wide w) rfl rfl
  · exact floatOne_coded ((wide w).integral 3 0) (fun _ _ _ _ => rfl) (isElemWidth_wide w) rfl rfl
  · exact floatOne_of (g := fun c k xs => (wide w).integral c.mode (c.drawIn c.mode k) (xs[0]?.getD 0)) (fun _ _ _ _ => rfl) (isElemWidth_wide w) rfl rfl
      fun _ _ _ _ _ _ => .refl ..
  · exact floatOne_coded (fun x => ((wide w).classOf x, [])) (fun _ _ _ _ => rfl) (isElemWidth_wide w) rfl rfl

end Sys2Proof.Claims
end

section
/-! The obligation O29: the conversions (R168, R171, R180, R191; log 25). -/

namespace Sys2Proof.Claims
open Sys2Proof.Machine

section
variable {mk : BitVec 2 → BitVec 9 → BitVec 9 → Instr} {row : Row} {ws wd n : Nat}

theorem converts_of {f : State → Nat → Nat → Nat × List Nat} {g : Ctx → Nat → List Nat → Nat × List Nat}
    (he : ∀ s pr t1 t0, exec (mk pr t1 t0) s = s.fire (tForm row pr 1 t1 t0) plainNull fun c => c.mapEl [c.l] ws wd n (g c))
    (hn : n ≤ 512 / wd) (hl : row.isLoad = false) (hg : (row == .cusGive) = false)
    (same : ∀ s m a r t k, SameElement wd (g (ctxOf s row a r t m) k [(el ws a k).toNat]) (f s k (el ws a k).toNat)) : Converts mk ws wd n f := by
  intro s pr t1 t0 m a h hr ga
  have src (k : Nat) : reads m [a] ws wd k = elemLive ws (if ws = wd then a.valid &&& m else a.valid) k := Bool.and_true _
  have here (k : Nat) : SameElement wd (g (ctxOf s row a ((opnd s 1).getD default) ((opnd s 2).getD default) m) k ([a].map fun v => v.elem ws k))
      (f s k (el ws a k).toNat) := by rw [List.map_singleton, elem_eq]; exact same ..
  refine ⟨outBits m [a] ws wd n (g (ctxOf s row a ((opnd s 1).getD default) ((opnd s 2).getD default) m)), outLanes m [a] ws wd n, ?_, ?_, ?_, ?_⟩
  · rw [he, (Fires.single h hr ga hg hl).ok (mapEl_eq ..) rfl h.admitted]
    refine congrArg (fun evs => Host.Outcome.next (answers s t1 t0 _ evs)) (List.flatMap_congr fun k _ => ?_)
    exact ite_congr rfl (fun _ => (here k).2) fun _ => rfl
  · intro l l16
    rw [outLanes, bitAt_and, Bool.and_eq_true, bitAt_lanesOf, and_comm]
    simp only [src, l16, true_and, InLane]
  · intro k hk live
    rw [bitsAt_outBits hk (elem_fits (hk.trans_le hn)) ((src k).trans live)]
    exact (here k).1
  · exact fun k hk hk' => bitsAt_outBits_past hk (elem_fits hk')
/-- A conversion whose result is rounded in the mode in effect. -/
theorem converts_rounded (g : Nat → Nat → Nat → Nat × List Nat)
    (he : ∀ s pr t1 t0, exec (mk pr t1 t0) s = s.fire (tForm row pr 1 t1 t0) plainNull fun c => c.cvt ws wd n g)
    (hn : n ≤ 512 / wd) (hl : row.isLoad = false) (hg : (row == .cusGive) = false) :
    Converts mk ws wd n fun s k x => g (modeOf s) (drawOf s k) x :=
  converts_of (g := fun c k xs => g c.mode (c.drawIn c.mode k) (xs[0]?.getD 0)) he hn hl hg fun _ _ _ _ _ _ => .refl ..
/-- 32-bit integers, wrapped or clamped to fewer bits (R191). -/
theorem converts_narrowed (he : ∀ s pr t1 t0, exec (mk pr t1 t0) s = s.fire (tForm row pr 1 t1 t0) plainNull fun c => c.narrow wd)
    (hn : 16 ≤ 512 / wd) (hl : row.isLoad = false) (hg : (row == .cusGive) = false) :
    Converts mk 32 wd 16 fun s _ x => ((narrowed (satOf s) wd (BitVec.ofNat 32 x).toInt).toNat, clampEvent (satOf s) wd (BitVec.ofNat 32 x).toInt) := by
  refine converts_of (g := fun c _ xs => _) he hn hl hg fun s m a r t k => ⟨?_, satSigned_snd ..⟩
  rw [BitVec.ofNat_toNat, BitVec.setWidth_eq]
  exact satSigned_fst ..
/-- Shorter integers, sign-extended to 32 bits (R191). -/
theorem converts_extended (he : ∀ s pr t1 t0, exec (mk pr t1 t0) s = s.fire (tForm row pr 1 t1 t0) plainNull fun c =>
      c.mapEl [c.l] ws 32 16 fun _ xs => ((elemInt false ws (xs[0]?.getD 0) % 2 ^ 32).toNat, []))
    (hl : row.isLoad = false) (hg : (row == .cusGive) = false) :
    Converts mk ws 32 16 fun _ _ x => (((BitVec.ofNat ws x).signExtend 32).toNat, []) := by
  refine converts_of (g := fun c _ xs => _) he (by decide) hl hg fun s m a r t k => ⟨?_, rfl⟩
  rw [BitVec.ofNat_toNat, BitVec.setWidth_eq]
  exact ofNat_emod ..
end

/-- Settles O29: each conversion is element-wise, from a width of elements to another. -/
theorem vectorConversions : Obligations.VectorConversions := by
  refine ⟨?_, ?_, ?_, ?_, ?_, ?_, ?_, ?_, ?_, ?_, ?_, ?_, ?_, ?_, ?_, ?_, ?_, ?_, ?_, ?_, ?_, ?_, ?_, ?_⟩
  · exact converts_rounded (f32.convert f64 .plain) (fun _ _ _ _ => rfl) (by decide) rfl rfl
  · exact converts_rounded (f64.convert f32 .plain) (fun _ _ _ _ => rfl) (by decide) rfl rfl
  · exact converts_rounded (f16.convert f32 .plain) (fun _ _ _ _ => rfl) (by decide) rfl rfl
  · exact converts_rounded (f32.convert f16 .plain) (fun _ _ _ _ => rfl) (by decide) rfl rfl
  · exact converts_rounded (bf16.convert f32 .plain) (fun _ _ _ _ => rfl) (by decide) rfl rfl
  · exact converts_rounded (f32.convert bf16 .plain) (fun _ _ _ _ => rfl) (by decide) rfl rfl
  · exact converts_rounded (e4m3.convert f32 .saturate) (fun _ _ _ _ => rfl) (by decide) rfl rfl
  · exact converts_rounded (e5m2.convert f32 .saturate) (fun _ _ _ _ => rfl) (by decide) rfl rfl
  · exact converts_rounded (e4m3.convert f32 .plain) (fun _ _ _ _ => rfl) (by decide) rfl rfl
  · exact converts_rounded (e5m2.convert f32 .plain) (fun _ _ _ _ => rfl) (by decide) rfl rfl
  · exact converts_rounded (f32.convert e4m3 .plain) (fun _ _ _ _ => rfl) (by decide) rfl rfl
  · exact converts_rounded (f32.convert e5m2 .plain) (fun _ _ _ _ => rfl) (by decide) rfl rfl
  · exact converts_rounded (f32.toInteger false 32) (fun _ _ _ _ => rfl) (by decide) rfl rfl
  · exact converts_rounded (f32.toInteger true 32) (fun _ _ _ _ => rfl) (by decide) rfl rfl
  · exact converts_rounded (f32.fromInteger false 32) (fun _ _ _ _ => rfl) (by decide) rfl rfl
  · exact converts_rounded (f32.fromInteger true 32) (fun _ _ _ _ => rfl) (by decide) rfl rfl
  · exact converts_rounded (f64.toInteger false 64) (fun _ _ _ _ => rfl) (by decide) rfl rfl
  · exact converts_rounded (f64.toInteger true 64) (fun _ _ _ _ => rfl) (by decide) rfl rfl
  · exact converts_rounded (f64.fromInteger false 64) (fun _ _ _ _ => rfl) (by decide) rfl rfl
  · exact converts_rounded (f64.fromInteger true 64) (fun _ _ _ _ => rfl) (by decide) rfl rfl
  · exact converts_narrowed (fun _ _ _ _ => rfl) (by decide) rfl rfl
  · exact converts_narrowed (fun _ _ _ _ => rfl) (by decide) rfl rfl
  · exact converts_extended (fun _ _ _ _ => rfl) rfl rfl
  · exact converts_extended (fun _ _ _ _ => rfl) rfl rfl

end Sys2Proof.Claims
end

section
/-! SUPPORT. Format-block instructions (R159, R160, R196, R197): the frame that they share, the elements of a block, and headers with an unlisted code. -/

namespace Sys2Proof.Claims
open Sys2Proof.Machine

/-! ## The frame (R196) -/

/-- A format-block instruction on the operands `vs` makes `x` of them where its blocks have every lane and its scalars their lane 0. -/
structure Frames (i : Instr) (s : State) (t1 t0 : BitVec 9) (m : BitVec 16) (vs blocks scalars : List Value)
    (x : Except Trap (V512 × List Nat)) : Prop where
  null : (∃ v ∈ blocks, v.valid ≠ 0xFFFF) ∨ (∃ v ∈ scalars, bitAt v.valid 0 = false) → exec i s = .next (answers s t1 t0 (full 0 vs 0) [])
  ok : (∀ v ∈ blocks, v.valid = 0xFFFF) → (∀ v ∈ scalars, bitAt v.valid 0 = true) → ∀ {b : V512} {evs : List Nat}, x = .ok (b, evs) →
    exec i s = .next (answers s t1 t0 (full m vs b) evs)
  error : (∀ v ∈ blocks, v.valid = 0xFFFF) → (∀ v ∈ scalars, bitAt v.valid 0 = true) → ∀ {e : Trap}, x = .error e → e.code ≠ tAway →
    exec i s = .next (traps s e)

theorem Fires.frames {s : State} {row : Row} {pr : BitVec 2} {n : Nat} {t1 t0 : BitVec 9} {m : BitVec 16} {l r t : Value} {i : Instr}
    {vs blocks scalars : List Value} {x : Except Trap (V512 × List Nat)} {act : Ctx → Except Trap Fired}
    (h : Fires s (tForm row pr n t1 t0) pr m l r t) (he : exec i s = s.fire (tForm row pr n t1 t0) plainNull act)
    (ha : act (ctxOf s row l r t m) = (ctxOf s row l r t m).fblock vs blocks scalars true x) : Frames i s t1 t0 m vs blocks scalars x := by
  have whole (hb : ∀ v ∈ blocks, v.valid = 0xFFFF) (hs : ∀ v ∈ scalars, bitAt v.valid 0 = true) :
      ¬ (blocks.any (·.valid != allLanes) || scalars.any fun v => !bitAt v.valid 0) = true := by
    rw [Bool.not_eq_true, Bool.or_eq_false_iff, List.any_eq_false, List.any_eq_false]
    exact ⟨fun v hv => by rw [hb v hv]; decide, fun v hv => by rw [hs v hv]; decide⟩
  refine ⟨fun hn => ?_, fun hb hs b evs hx => ?_, fun hb hs e hx hc => ?_⟩
  · have null : (blocks.any (·.valid != allLanes) || scalars.any fun v => !bitAt v.valid 0) = true := by
      rw [Bool.or_eq_true, List.any_eq_true, List.any_eq_true]
      exact hn.imp (fun ⟨v, hv, h⟩ => ⟨v, hv, bne_iff_ne.2 h⟩) fun ⟨v, hv, h⟩ => ⟨v, hv, by rw [h]; rfl⟩
    exact he.trans (h.ok (ha.trans (if_pos null)) rfl h.may.admitted)
  · subst hx
    have value := ha.trans (if_neg (whole hb hs))
    refine he.trans ((h.ok value rfl h.may.admitted).trans ?_)
    simp only [Ctx.masked, ctxOf_mask, allLanes_and]
    rfl
  · subst hx
    exact he.trans (h.error (ha.trans (if_neg (whole hb hs))) hc)

/-! ## Elements of a block (R159) -/

theorem bitsAt_setBits_same {n : Nat} (w : BitVec n) {lo k : Nat} (v : Nat) (h : lo + k ≤ n) : bitsAt (setBits w lo k v) lo k = BitVec.ofNat k v := by
  apply BitVec.eq_of_getLsbD_eq
  intro i hi
  rw [getLsbD_bitsAt, getLsbD_setBits _ _ _ _ _ (by omega), BitVec.getLsbD_ofNat]
  simp [hi]
theorem bitsAt_setBits_apart {n : Nat} (w : BitVec n) {lo k lo' k' : Nat} (v : Nat) (h : lo' + k' ≤ n) (apart : lo' + k' ≤ lo ∨ lo + k ≤ lo') :
    bitsAt (setBits w lo k v) lo' k' = bitsAt w lo' k' := by
  apply BitVec.eq_of_getLsbD_eq
  intro i hi
  rw [getLsbD_bitsAt, getLsbD_bitsAt, getLsbD_setBits _ _ _ _ _ (by omega), if_neg (by omega)]
theorem ElTy.fits {t : ElTy} {k : Nat} (hk : k < t.count) : 16 + t.width * k + t.width ≤ 512 := by
  have below : t.width * k + t.width ≤ t.width * t.count := Nat.mul_succ t.width k ▸ Nat.mul_le_mul_left t.width hk
  have all : t.width * t.count ≤ 496 := Nat.mul_div_le 496 t.width
  omega
theorem rawEl_eq (b : V512) (t : ElTy) (k : Nat) : rawEl b t k = (bitsAt b (16 + t.width * k) t.width).toNat := numAt_eq_bitsAt ..
theorem rawEl_setBits_same (b : V512) {t : ElTy} {k : Nat} (v : Nat) (hk : k < t.count) :
    rawEl (setBits b (16 + t.width * k) t.width v) t k = v % 2 ^ t.width := by
  rw [rawEl_eq, bitsAt_setBits_same _ _ (ElTy.fits hk), BitVec.toNat_ofNat]
theorem rawEl_setBits_other (b : V512) {t : ElTy} {k j : Nat} (v : Nat) (hj : j < t.count) (h : j ≠ k) :
    rawEl (setBits b (16 + t.width * k) t.width v) t j = rawEl b t j := by
  rw [rawEl_eq, rawEl_eq, bitsAt_setBits_apart _ _ (ElTy.fits hj)]
  rcases Nat.lt_or_gt_of_ne h with h | h
  · exact .inl (by have := Nat.mul_succ t.width j ▸ Nat.mul_le_mul_left t.width h; omega)
  · exact .inr (by have := Nat.mul_succ t.width k ▸ Nat.mul_le_mul_left t.width h; omega)

/-! ## Packing a group (R199) -/

section
variable (t : ElTy) (q : Nat) (ok : Nat → Bool) (code : Nat → Nat × List Nat)

/-- One lane's code written into group `q` of a block, where the block has the element and the lane is valid. -/
def packLane (r : V512 × List Nat) (l : Nat) : V512 × List Nat :=
  if 16 * q + l < t.count && ok l then (setBits r.1 (16 + t.width * (16 * q + l)) t.width (code l).1, r.2 ++ (code l).2) else r
/-- Element `k` of the block is one that the lanes below `n` write. -/
def Writes (n k : Nat) : Prop := k / 16 = q ∧ k % 16 < n ∧ k < t.count ∧ ok (k % 16) = true
/-- A block and the events after the lanes below `n` are packed into `b`: they have replaced the elements that they write, and nothing else. -/
structure Packed (b : V512) (n : Nat) (r : V512 × List Nat) : Prop where
  header : (bitsAt r.1 0 16 : BitVec 16) = bitsAt b 0 16
  written : ∀ k, Writes t q ok n k → rawEl r.1 t k = (code (k % 16)).1 % 2 ^ t.width
  kept : ∀ k, k < t.count → ¬ Writes t q ok n k → rawEl r.1 t k = rawEl b t k
  events : ∀ e, e ∈ r.2 ↔ ∃ k, Writes t q ok n k ∧ e ∈ (code (k % 16)).2

variable {t q ok}
theorem writes_succ {n k : Nat} (hn : n < 16) : Writes t q ok (n + 1) k ↔ Writes t q ok n k ∨ k = 16 * q + n ∧ k < t.count ∧ ok n = true := by
  unfold Writes
  constructor
  · rintro ⟨hq, hl, hk, ho⟩
    rcases Nat.lt_succ_iff_lt_or_eq.1 hl with h | h
    · exact .inl ⟨hq, h, hk, ho⟩
    · exact .inr ⟨by omega, hk, h ▸ ho⟩
  · rintro (⟨hq, hl, hk, ho⟩ | ⟨hk, hc, ho⟩)
    · exact ⟨hq, by omega, hk, ho⟩
    · have e : k % 16 = n := by omega
      exact ⟨by omega, by omega, hc, by rw [e]; exact ho⟩
variable {code}
theorem Packed.step {b : V512} {n : Nat} {r : V512 × List Nat} (h : Packed t q ok code b n r) (hn : n < 16) :
    Packed t q ok code b (n + 1) (packLane t q ok code r n) := by
  have lane : (16 * q + n) % 16 = n := by omega
  unfold packLane
  split
  · next live =>
    rw [Bool.and_eq_true, decide_eq_true_eq] at live
    obtain ⟨hc, ho⟩ := live
    have new (k : Nat) : Writes t q ok (n + 1) k ↔ Writes t q ok n k ∨ k = 16 * q + n :=
      (writes_succ hn).trans (or_congr_right ⟨And.left, fun e => ⟨e, e ▸ hc, ho⟩⟩)
    have fresh : ¬ Writes t q ok n (16 * q + n) := fun w => by have := w.2.1; omega
    refine ⟨?_, fun k hk => ?_, fun k hk hw => ?_, fun e => ?_⟩
    · exact (bitsAt_setBits_apart _ _ (by decide) (.inl (by omega))).trans h.header
    · by_cases e : k = 16 * q + n
      · rw [e, rawEl_setBits_same _ _ hc, lane]
      · have w := ((new k).1 hk).resolve_right e
        rw [rawEl_setBits_other _ _ w.2.2.1 e, h.written k w]
    · rw [new, not_or] at hw
      rw [rawEl_setBits_other _ _ hk hw.2, h.kept k hk hw.1]
    · rw [List.mem_append, h.events]
      simp only [new, or_and_right, exists_or, exists_eq_left, lane]
  · next idle =>
    have same (k : Nat) : Writes t q ok (n + 1) k ↔ Writes t q ok n k := by
      refine (writes_succ hn).trans (or_iff_left ?_)
      rintro ⟨rfl, hc, ho⟩
      exact idle (by rw [ho, decide_eq_true hc]; rfl)
    exact ⟨h.header, fun k hk => h.written k ((same k).1 hk), fun k hk hw => h.kept k hk (mt (same k).2 hw), fun e => by
      simp only [same]; exact h.events e⟩
/-- Group `q` of a block, packed lane by lane. -/
theorem packed_group (b : V512) {n : Nat} (hn : n ≤ 16) : Packed t q ok code b n ((List.range n).foldl (packLane t q ok code) (b, [])) := by
  induction n with
  | zero =>
    exact ⟨rfl, fun k hk => absurd hk.2.1 (Nat.not_lt_zero _), fun k _ _ => rfl, fun e => by simp [Writes]⟩
  | succ n ih =>
    rw [List.range_succ, List.foldl_append]
    exact (ih (by omega)).step (by omega)
end

/-! ## Headers (R160) -/

theorem hdrOf_unlisted {b : V512} (h : b.toNat % 256 ∉ [0, 0x10, 0x20, 0x21, 0x22, 0x30, 0x31, 0xFF]) : hdrOf b = .error (trap tFormat) := by
  have code : numAt b 0 8 = b.toNat % 256 := numAt_low ..
  simp only [List.mem_cons, List.not_mem_nil, or_false, not_or] at h
  obtain ⟨h0, h10, h20, h21, h22, h30, h31, hff⟩ := h
  have none_ (four : Nat) : codeType (b.toNat % 256) four = none := by
    unfold codeType
    split
    · next e => exact absurd e h10
    · next e => exact absurd e h20
    · next e => exact absurd e h21
    · next e => exact absurd e h22
    · next e => exact absurd e h30
    · next e => exact absurd e h31
    · rfl
  unfold hdrOf
  simp only [code, none_, if_neg h0, if_neg hff]

end Sys2Proof.Claims
end

section
/-! The obligations O31 and O34: VQHDR, VQPK, VDQ and VBMAX, and where format-block instructions fault (R159 to R161, R196 to R204; logs 24 and 25). -/

namespace Sys2Proof.Claims
open Sys2Proof.Machine

/-! ## Format-block instructions of two and three operands -/

section
variable {mk : BitVec 2 → BitVec 9 → BitVec 9 → Instr} {row : Row} {s : State} {pr : BitVec 2} {t1 t0 : BitVec 9} {m : BitVec 16} {a b d : Value}
  {blocks scalars : Ctx → List Value} {x : Ctx → Except Trap (V512 × List Nat)} (ex : BitVec 2 → BitVec 9 → BitVec 9 → State → Out)

/-- `ex` is the instruction's meaning in the model, and `x` what that makes of its context. -/
theorem frames_two (he : ∀ s pr t1 t0, exec (mk pr t1 t0) s = ex pr t1 t0 s)
    (hx : ∀ s pr t1 t0, ex pr t1 t0 s =
      s.fire (tForm row pr 2 t1 t0) plainNull fun c => c.fblock [c.l, c.r] (blocks c) (scalars c) true (x c))
    (hl : row.isLoad = false) (hg : (row == .cusGive) = false) (h : MayFire s) (hr : Runs s pr m) (ga : Given s 0 a) (gb : Given s 1 b) :
    Frames (mk pr t1 t0) s t1 t0 m [a, b] (blocks (ctxOf s row a b ((opnd s 2).getD default) m))
      (scalars (ctxOf s row a b ((opnd s 2).getD default) m)) (x (ctxOf s row a b ((opnd s 2).getD default) m)) :=
  (Fires.pair h hr ga gb hg hl).frames ((he ..).trans (hx ..)) rfl
theorem frames_three (he : ∀ s pr t1 t0, exec (mk pr t1 t0) s = ex pr t1 t0 s)
    (hx : ∀ s pr t1 t0, ex pr t1 t0 s =
      s.fire (tForm row pr 3 t1 t0) plainNull fun c => c.fblock [c.l, c.r, c.t] (blocks c) (scalars c) true (x c))
    (hl : row.isLoad = false) (hg : (row == .cusGive) = false) (h : MayFire s) (hr : Runs s pr m) (ga : Given s 0 a) (gb : Given s 1 b)
    (gd : Given s 2 d) : Frames (mk pr t1 t0) s t1 t0 m [a, b, d] (blocks (ctxOf s row a b d m)) (scalars (ctxOf s row a b d m))
      (x (ctxOf s row a b d m)) :=
  (Fires.triple h hr ga gb gd hg hl).frames ((he ..).trans (hx ..)) rfl
end

theorem BlockIn.all {s : State} {q : Nat} {v : Value} (h : BlockIn s q v) : ∀ u ∈ [v], u.valid = 0xFFFF := List.forall_mem_singleton.2 h.whole
theorem LaneIn.all {s : State} {q : Nat} {v : Value} (h : LaneIn s q v) : ∀ u ∈ [v], bitAt u.valid 0 = true := List.forall_mem_singleton.2 h.first

/-! ## What each instruction makes (R198 to R203) -/

/-- Codes of f32 from 0x7F800000 on, without their sign, stand for infinities and NaNs (R155). -/
theorem decode_f32_special {x : Nat} (low : 0x7F800000 ≤ x) (high : x < 2 ^ 31) (neg : Bool) (m : Nat) (e : Int) :
    f32.decode x ≠ .fin neg m e := by
  have exponent : x % 2 ^ 31 / 2 ^ 23 = 2 ^ 8 - 1 := by omega
  unfold Fmt.decode f32
  dsimp only
  rw [if_neg Bool.false_ne_true, if_pos exponent]
  split <;> exact FNum.noConfusion

/-- Lane `l` of a group as f32; zero where the block has no such element (R200). -/
def groupLane (s : State) (h : Hdr) (t : ElTy) (b : V512) (q l : Nat) : Nat × List Nat :=
  if 16 * q + l < t.count then dequantised s l (h.value b (16 * q + l)) else (0, [])

section
variable {s : State} {pr : BitVec 2} {t1 t0 : BitVec 9} {m : BitVec 16} {a b d : Value} (h : MayFire s) (hr : Runs s pr m) (ga : Given s 0 a)
  (gb : Given s 1 b)
include h hr ga gb

theorem vqhdr_makes : ∃ x, Frames (.vqhdr pr t1 t0) s t1 t0 m [a, b] [] [a, b] x ∧ ∀ code t, fmtOperand b = .ok (code, some t) →
    (∀ n k e, f32.decode (a.bits.toNat % 2 ^ 31) = .fin n k e →
      x = .ok (packBlock code t (scaleFor code t { neg := false, m := k, e := e }) [], [])) ∧
    (0x7F800000 ≤ a.bits.toNat % 2 ^ 31 → x = .ok (poisonBlock, [evInvalid])) := by
  refine ⟨_, frames_two (row := .vqhdr) execVqhdr (fun _ _ _ _ => rfl) (fun _ _ _ _ => rfl) rfl rfl h hr ga gb, fun code t hf => ?_⟩
  rw [ctxOf_r, ctxOf_l, hf, numAt_low]
  refine ⟨fun n k e hd => ?_, fun big => ?_⟩
  · rw [hd]; rfl
  · have special := decode_f32_special big (Nat.mod_lt _ (by decide))
    cases hd : f32.decode (a.bits.toNat % 2 ^ 31) with
    | fin n k e => exact absurd hd (special n k e)
    | nan _ => rfl
    | inf _ => rfl

theorem vqpk_makes (gd : Given s 2 d) : ∃ x, Frames (.vqpk pr t1 t0) s t1 t0 m [a, b, d] [a] [d] x ∧
    (hdrOf a.bits = .ok .zero → x = .ok (a.bits, [])) ∧ (hdrOf a.bits = .ok .poison → x = .ok (a.bits, [evInvalid])) ∧
    ∀ code t sc, hdrOf a.bits = .ok (.real code t sc) → groupOperand d < t.groups → ∃ r, x = .ok r ∧
      Packed t (groupOperand d) (bitAt (b.valid &&& m)) (fun l => t.quant (modeOf s) (drawOf s l) ((f32.decode (b.lane l).toNat).shift (-sc)))
        a.bits 16 r := by
  refine ⟨_, frames_three (row := .vqpk) execVqpk (fun _ _ _ _ => rfl) (fun _ _ _ _ => rfl) rfl rfl h hr ga gb gd, fun hh => ?_, fun hh => ?_,
    fun code t sc hh hq => ?_⟩
  · rw [ctxOf_l, hh]; rfl
  · rw [ctxOf_l, hh]; rfl
  · rw [ctxOf_l, hh]
    exact ⟨_, if_neg (Nat.not_le.2 hq), packed_group a.bits (Nat.le_refl 16)⟩

theorem vdq_makes : ∃ x, Frames (.vdq pr t1 t0) s t1 t0 m [a, b] [a] [b] x ∧ (∀ e, hdrOf a.bits = .error e → x = .error e) ∧
    (hdrOf a.bits = .ok .zero → x = .ok (0, [])) ∧
    (hdrOf a.bits = .ok .poison → x = .ok (ofLanes fun _ => BitVec.ofNat 32 f32.nan, [evInvalid])) ∧
    ∀ code t sc, hdrOf a.bits = .ok (.real code t sc) → (t.groups ≤ groupOperand b → x = .error (trap tShape)) ∧
      (groupOperand b < t.groups → x = .ok
        (ofElems 32 (((List.range 16).map (groupLane s (.real code t sc) t a.bits (groupOperand b))).map Prod.fst),
          (((List.range 16).map (groupLane s (.real code t sc) t a.bits (groupOperand b))).map Prod.snd).flatten)) := by
  refine ⟨_, frames_two (row := .vdq) execVdq (fun _ _ _ _ => rfl) (fun _ _ _ _ => rfl) rfl rfl h hr ga gb, fun e hh => ?_, fun hh => ?_,
    fun hh => ?_, fun code t sc hh => ⟨fun hq => ?_, fun hq => ?_⟩⟩
  · rw [ctxOf_l, hh]; rfl
  · rw [ctxOf_l, hh]; rfl
  · rw [ctxOf_l, hh]; rfl
  · rw [ctxOf_l, hh]
    exact if_pos hq
  · rw [ctxOf_l, hh]
    refine (if_neg (Nat.not_le.2 hq)).trans ?_
    dsimp only [ctxOf_l, ctxOf_r]
    refine congrArg (fun g : Nat → Nat × List Nat =>
      Except.ok (ofElems 32 (((List.range 16).map g).map Prod.fst), (((List.range 16).map g).map Prod.snd).flatten)) (funext fun l => ?_)
    refine ite_congr rfl (fun _ => ?_) fun _ => rfl
    cases (Hdr.real code t sc).value a.bits (16 * groupOperand b + l) <;> rfl

theorem vbmax_makes : ∃ x, Frames (.vbmax pr t1 t0) s t1 t0 m [a, b] [a] [b] x ∧ (∀ e, hdrOf a.bits = .error e → x = .error e) ∧
    (hdrOf a.bits = .ok .poison → x = .ok (BitVec.ofNat 512 f32.nan, [evInvalid])) ∧
    ∀ hdr top, hdrOf a.bits = .ok hdr → (hdr = .zero ∧ top = 0 ∨ ∃ code t sc, hdr = .real code t sc ∧ top = largestIn hdr t a.bits) →
      x = .ok (BitVec.ofNat 512 (f32.minMax true (b.lane 0).toNat top).1, (f32.minMax true (b.lane 0).toNat top).2) := by
  refine ⟨_, frames_two (row := .vbmax) execVbmax (fun _ _ _ _ => rfl) (fun _ _ _ _ => rfl) rfl rfl h hr ga gb, fun e hh => ?_, fun hh => ?_,
    fun hdr top hh ht => ?_⟩
  · rw [ctxOf_l, hh]; rfl
  · rw [ctxOf_l, hh]; rfl
  · rw [ctxOf_l, hh]
    rcases ht with ⟨rfl, rfl⟩ | ⟨code, t, sc, rfl, rfl⟩ <;> rfl

theorem vbaq_makes : ∃ x, Frames (.vbaq pr t1 t0) s t1 t0 m [a, b] [a, b] [] x ∧ ∀ code t sc code' u sc', hdrOf a.bits = .ok (.real code t sc) →
    hdrOf b.bits = .ok (.real code' u sc') → t.width ≠ u.width → x = .error (trap tFormatPair) := by
  refine ⟨_, frames_two (row := .vbaq) execVbaq (fun _ _ _ _ => rfl) (fun _ _ _ _ => rfl) rfl rfl h hr ga gb, fun code t sc code' u sc' ht hu hw => ?_⟩
  rw [ctxOf_l, ctxOf_r, ht, hu]
  exact if_pos hw
theorem vbfmt_makes : ∃ x, Frames (.vbfmt pr t1 t0) s t1 t0 m [a, b] [a] [b] x ∧ ∀ e, hdrOf a.bits = .error e → x = .error e := by
  refine ⟨_, frames_two (row := .vbfmt) execVbfmt (fun _ _ _ _ => rfl) (fun _ _ _ _ => rfl) rfl rfl h hr ga gb, fun e hh => ?_⟩
  rw [ctxOf_l, hh]; rfl
end

/-! ## A group of sixteen elements (R199, R200) -/

section
variable {s : State} {pr : BitVec 2} {t1 t0 : BitVec 9} {m : BitVec 16} {a b d : Value} (h : MayFire s) (hr : Runs s pr m)
include h hr

/-- VQPK of a real block (R199): the elements of its group that live lanes write, and no others, are replaced. -/
theorem vqpk_group (ba : BlockIn s 0 a) (gb : Given s 1 b) (ld : LaneIn s 2 d) {code : Nat} {t : ElTy} {sc : Int}
    (hh : hdrOf a.bits = .ok (.real code t sc)) (hq : groupOperand d < t.groups) :
    let live := fun k => k / 16 = groupOperand d ∧ k < t.count ∧ bitAt (b.valid &&& m) (k % 16) = true
    let q := fun k => t.quant (modeOf s) (drawOf s (k % 16)) ((f32.decode (b.lane (k % 16)).toNat).shift (-sc))
    ∃ bits evs, exec (.vqpk pr t1 t0) s = .next (answers s t1 t0 (full m [a, b, d] bits) evs) ∧
      (bitsAt bits 0 16 : BitVec 16) = bitsAt a.bits 0 16 ∧
      (∀ k, k < t.count → live k → rawEl bits t k = (q k).1 % 2 ^ t.width) ∧
      (∀ k, k < t.count → ¬ live k → rawEl bits t k = rawEl a.bits t k) ∧
      ∀ e, e ∈ evs ↔ ∃ k, live k ∧ e ∈ (q k).2 := by
  obtain ⟨x, frame, -, -, real⟩ := vqpk_makes (t1 := t1) (t0 := t0) h hr ba.given gb ld.given
  obtain ⟨⟨bits, evs⟩, made, packed⟩ := real code t sc hh hq
  have writes (k : Nat) : Writes t (groupOperand d) (bitAt (b.valid &&& m)) 16 k ↔
      k / 16 = groupOperand d ∧ k < t.count ∧ bitAt (b.valid &&& m) (k % 16) = true :=
    and_congr_right fun _ => and_iff_right (Nat.mod_lt k (by decide))
  refine ⟨bits, evs, frame.ok ba.all ld.all made, packed.header,
    fun k _ hl => packed.written k ((writes k).2 hl), fun k hk hl => packed.kept k hk (mt (writes k).1 hl), fun e => ?_⟩
  rw [packed.events]
  exact exists_congr fun k => and_congr_left fun _ => writes k
/-- VDQ of a real block (R200). -/
theorem vdq_group (ba : BlockIn s 0 a) (lb : LaneIn s 1 b) {code : Nat} {t : ElTy} {sc : Int} (hh : hdrOf a.bits = .ok (.real code t sc))
    (hq : groupOperand b < t.groups) :
    let live := fun l => 16 * groupOperand b + l < t.count
    let x := fun l => dequantised s l ((Hdr.real code t sc).value a.bits (16 * groupOperand b + l))
    ∃ bits, exec (.vdq pr t1 t0) s =
        .next (answers s t1 t0 (full m [a, b] bits) ((List.range 16).flatMap fun l => if live l then (x l).2 else [])) ∧
      ∀ l, l < 16 → (bitsAt bits (32 * l) 32 : W32) = if live l then BitVec.ofNat 32 (x l).1 else 0 := by
  intro live x
  obtain ⟨y, frame, -, -, -, real⟩ := vdq_makes (t1 := t1) (t0 := t0) h hr ba.given lb.given
  have events : (((List.range 16).map (groupLane s (.real code t sc) t a.bits (groupOperand b))).map Prod.snd).flatten =
      (List.range 16).flatMap fun l => if live l then (x l).2 else [] := by
    rw [List.map_map, ← List.flatMap_def]
    exact List.flatMap_congr fun l _ => apply_ite Prod.snd ..
  have made := (real code t sc hh).2 hq
  rw [events] at made
  refine ⟨_, frame.ok ba.all lb.all made, fun l hl => ?_⟩
  rw [bitsAt_ofElems _ (by omega)]
  simp only [List.getElem?_map, List.getElem?_range hl, Option.map_some, Option.getD_some, groupLane, live, x]
  split <;> rfl
end

/-! ## Real, zero and poison blocks (R196 to R202) -/

/-- Settles O31: what each instruction makes of a zero, a poison and a real block. -/
theorem blockConversions : Obligations.BlockConversions := by
  refine ⟨fun s pr t1 t0 m a b c h hr => ⟨fun la lb => ?_, fun ba gb lc => ?_⟩, fun s pr t1 t0 m a b h hr ba lb => ⟨?_, ?_, ?_⟩⟩
  · obtain ⟨x, frame, made⟩ := vqhdr_makes (t1 := t1) (t0 := t0) h hr la.given lb.given
    have whole : ∀ v ∈ [a, b], bitAt v.valid 0 = true := List.forall_mem_cons.2 ⟨la.first, lb.all⟩
    exact ⟨fun code t n k e hf hd => frame.ok (List.forall_mem_nil _) whole ((made code t hf).1 n k e hd),
      fun code t hf big => frame.ok (List.forall_mem_nil _) whole ((made code t hf).2 big)⟩
  · obtain ⟨x, frame, zero, poison, -⟩ := vqpk_makes (t1 := t1) (t0 := t0) h hr ba.given gb lc.given
    exact ⟨fun hh => frame.ok ba.all lc.all (zero hh), fun hh => frame.ok ba.all lc.all (poison hh),
      fun code t sc hh hq => vqpk_group h hr ba gb lc hh hq⟩
  all_goals
    obtain ⟨x, vdq, -, vdqZero, vdqPoison, -⟩ := vdq_makes (t1 := t1) (t0 := t0) h hr ba.given lb.given
    obtain ⟨y, vbmax, -, vbmaxPoison, vbmaxValue⟩ := vbmax_makes (t1 := t1) (t0 := t0) h hr ba.given lb.given
  · exact fun hh => ⟨vdq.ok ba.all lb.all (vdqZero hh), vbmax.ok ba.all lb.all (vbmaxValue _ _ hh (.inl ⟨rfl, rfl⟩))⟩
  · exact fun hh => ⟨vdq.ok ba.all lb.all (vdqPoison hh), vbmax.ok ba.all lb.all (vbmaxPoison hh)⟩
  · exact fun code t sc hh => ⟨fun hq => vdq_group h hr ba lb hh hq,
      vbmax.ok ba.all lb.all (vbmaxValue _ _ hh (.inr ⟨code, t, sc, rfl, rfl⟩))⟩

/-! ## Faults and null lanes (R160, R196, R199, R201, R204) -/

theorem tFormat_here : tFormat ≠ tAway := by decide
theorem tFormatPair_here : tFormatPair ≠ tAway := by decide
theorem tShape_here : tShape ≠ tAway := by decide
theorem rowOperand_past {v : Value} (hv : 7 < v.scalar.toNat) : rowOperand v = .error (trap tShape) := if_pos hv
theorem row_read {v : Value} (hv : scalarOk v = true) : ¬ (!v.validTo 2) = true := by rw [scalarOk_eq, hv]; decide

/-- Settles O34: a header that cannot be read, two widths, a group or row past the last; and a block with a null lane. -/
theorem blockFaults : Obligations.BlockFaults := by
  intro s pr t1 t0 m a b c h hr ga gb
  obtain ⟨x, vdq, vdqHeader, -, -, vdqReal⟩ := vdq_makes (t1 := t1) (t0 := t0) h hr ga gb
  obtain ⟨y, vbmax, vbmaxHeader, -⟩ := vbmax_makes (t1 := t1) (t0 := t0) h hr ga gb
  obtain ⟨z, vbaq, vbaqPair⟩ := vbaq_makes (t1 := t1) (t0 := t0) h hr ga gb
  obtain ⟨w, vbfmt, vbfmtHeader⟩ := vbfmt_makes (t1 := t1) (t0 := t0) h hr ga gb
  have block (ha : a.valid = 0xFFFF) : ∀ v ∈ [a], v.valid = 0xFFFF := BlockIn.all ⟨ga, ha⟩
  refine ⟨fun ha lb hc => ?_, fun ha hb p t p' q u q' ht hu hw => ?_, fun ha lb p t p' ht hq => ?_, fun gc hc past => ⟨?_, ?_⟩, fun hn => ?_⟩
  · have header := hdrOf_unlisted hc
    exact ⟨vdq.error (block ha) lb.all (vdqHeader _ header) tFormat_here, vbmax.error (block ha) lb.all (vbmaxHeader _ header) tFormat_here,
      vbfmt.error (block ha) lb.all (vbfmtHeader _ header) tFormat_here⟩
  · exact vbaq.error (List.forall_mem_cons.2 ⟨ha, BlockIn.all ⟨gb, hb⟩⟩) (List.forall_mem_nil _)
      (vbaqPair _ _ _ _ _ _ ht hu hw) tFormatPair_here
  · exact vdq.error (block ha) lb.all ((vdqReal _ _ _ ht).1 hq) tShape_here
  · show execOsmStep pr t1 t0 s = _
    refine (Fires.triple (row := .osmStep) h hr ga gb gc rfl rfl).error ((if_neg (row_read hc)).trans ?_) tShape_here
    rw [ctxOf_t, rowOperand_past past]; rfl
  · show execOsmNorm pr t1 t0 s = _
    refine (Fires.triple (row := .osmNorm) h hr ga gb gc rfl rfl).error ((if_neg (row_read hc)).trans ?_) tShape_here
    rw [ctxOf_t, rowOperand_past past]; rfl
  · have null (rest : List Value) : ∃ v ∈ a :: rest, v.valid ≠ 0xFFFF := ⟨a, List.mem_cons_self, hn⟩
    exact ⟨vdq.null (.inl (null [])), vbmax.null (.inl (null [])), vbaq.null (.inl (null [b])), vbfmt.null (.inl (null []))⟩

end Sys2Proof.Claims
end

section
/-! The obligations O26 and O27: the transcendental operations of the floating formats (R185; log 14), and the integer families, wrapping or
saturating (R135, R187; log 25). -/

namespace Sys2Proof.Claims
open Sys2Proof.Machine

/-- Settles O26: each operation of the model is element-wise, the transcendental function that its number names. -/
theorem floatingFunctions : Obligations.FloatingFunctions := by
  refine ⟨fun w => ?_, fun w => ?_, fun w => ?_, fun w => ?_, fun w => ?_, fun w => ?_, fun w => ?_, fun w => ?_, fun w => ?_, fun w => ?_⟩
  · exact floatOne_rounded ((wide w).transc 11) (fun _ _ _ _ => rfl) (isElemWidth_wide w) rfl rfl
  · exact floatOne_rounded ((wide w).transc 12) (fun _ _ _ _ => rfl) (isElemWidth_wide w) rfl rfl
  · exact floatOne_rounded ((wide w).transc 13) (fun _ _ _ _ => rfl) (isElemWidth_wide w) rfl rfl
  · exact floatOne_rounded ((wide w).transc 14) (fun _ _ _ _ => rfl) (isElemWidth_wide w) rfl rfl
  · exact floatOne_rounded ((wide w).transc 15) (fun _ _ _ _ => rfl) (isElemWidth_wide w) rfl rfl
  · exact floatOne_rounded ((half w).transc 11) (fun _ _ _ _ => rfl) (isElemWidth_half w) rfl rfl
  · exact floatOne_rounded ((half w).transc 12) (fun _ _ _ _ => rfl) (isElemWidth_half w) rfl rfl
  · exact floatOne_rounded ((half w).transc 13) (fun _ _ _ _ => rfl) (isElemWidth_half w) rfl rfl
  · exact floatOne_rounded ((half w).transc 14) (fun _ _ _ _ => rfl) (isElemWidth_half w) rfl rfl
  · exact floatOne_rounded ((half w).transc 15) (fun _ _ _ _ => rfl) (isElemWidth_half w) rfl rfl

/-! ## Elements as numbers, and results brought into their range (R187) -/

section
variable {n : Nat}

theorem ofNat_code (x : BitVec n) : BitVec.ofNat n x.toNat = x := by rw [BitVec.ofNat_toNat, BitVec.setWidth_eq]
theorem elemInt_signed (x : BitVec n) : elemInt false n x.toNat = x.toInt := congrArg BitVec.toInt (ofNat_code x)
theorem elemInt_toNat (k : BitVec 1) (x : BitVec n) : elemInt (k == 1) n x.toNat = asInt k x := by
  unfold elemInt asInt
  rw [ofNat_code]
  exact if_congr beq_iff_eq rfl rfl
/-- A number that is not negative has the bits of the natural number that it is. -/
theorem ofNat_toNat_ofInt {z : Int} (h : 0 ≤ z) : BitVec.ofNat n z.toNat = BitVec.ofInt n z := by
  rw [← BitVec.ofInt_natCast, Int.toNat_of_nonneg h]

variable (s : State) (z : Int)

theorem intoRange_signed : intoRange 0 n s z = (narrowed (satOf s) n z, clampEvent (satOf s) n z) := by
  have pos : (0 : Int) < 2 ^ (n - 1) := by positivity
  unfold intoRange narrowed clampEvent clamps lowest highest
  simp only [if_neg (by decide : ¬ (0 : BitVec 1) = 1)]
  cases satOf s
  · simp
  · by_cases low : z < -2 ^ (n - 1)
    · simp [low, show z < 0 by omega]
    · by_cases high : 2 ^ (n - 1) - 1 < z
      · simp [low, high, show ¬ z < 0 by omega]
      · simp [low, high]
theorem intoRange_natural : intoRange 1 n s z = (BitVec.ofNat n (satNatural (satOf s) n z).1, clampEv (satNatural (satOf s) n z).2) := by
  have pos : (0 : Int) < 2 ^ n := by positivity
  unfold intoRange satNatural clampEv lowest highest
  simp only [if_pos]
  cases satOf s
  · simp [ofNat_emod]
  · by_cases low : z < 0
    · simp [low, evClamp]
    · by_cases high : 2 ^ n - 1 < z
      · have top := ofNat_toNat_ofInt (n := n) (show (0 : Int) ≤ 2 ^ n - 1 by omega)
        simpa [low, high, evClamp] using top.symm
      · simp [low, high, ofNat_emod]
/-- What the model makes of an exact result: its code, and the events. -/
def intoCode (nat sat : Bool) (n : Nat) (z : Int) : Nat × List Nat :=
  ((if nat then satNatural sat n z else satSigned sat n z).1, clampEv (if nat then satNatural sat n z else satSigned sat n z).2)
theorem intoCode_eq (k : BitVec 1) :
    (BitVec.ofNat n (intoCode (k == 1) (satOf s) n z).1, (intoCode (k == 1) (satOf s) n z).2) = intoRange k n s z := by
  rcases (by decide : ∀ k : BitVec 1, k = 0 ∨ k = 1) k with rfl | rfl
  · rw [intoRange_signed, ← satSigned_fst, ← satSigned_snd]; rfl
  · rw [intoRange_natural]; rfl
end

/-! ## Integer instructions of one and two operands -/

section
variable {mk : BitVec 2 → BitVec 9 → BitVec 9 → Instr} {row : Row} {n : Nat} (hw : IsElemWidth n) (hl : row.isLoad = false)
  (hg : (row == .cusGive) = false)
include hw hl hg

theorem intOne_of {f : State → BitVec n → BitVec n × List Nat} (g : Ctx → Nat → Nat × List Nat)
    (same : ∀ s m a r t x, (BitVec.ofNat n (g (ctxOf s row a r t m) x.toNat).1, (g (ctxOf s row a r t m) x.toNat).2) = f s x)
    (he : ∀ s pr t1 t0, exec (mk pr t1 t0) s =
      s.fire (tForm row pr 1 t1 t0) plainNull fun c => c.mapEl [c.l] n n (512 / n) fun _ xs => g c (xs[0]?.getD 0)) : IntOne mk n f :=
  fun s pr t1 t0 _ _ h hr ga => (Fires.single h hr ga hg hl).elements (he s pr t1 t0) rfl hw (List.cons_ne_nil _ _) fun k => by
    rw [List.map_singleton, elem_eq, ← same s]
    exact ⟨(ofNat_code _).symm, rfl⟩
theorem intTwo_of {f : State → BitVec n → BitVec n → BitVec n × List Nat} (g : Ctx → Nat → Nat → Nat × List Nat)
    (same : ∀ s m a b t x y,
      (BitVec.ofNat n (g (ctxOf s row a b t m) x.toNat y.toNat).1, (g (ctxOf s row a b t m) x.toNat y.toNat).2) = f s x y)
    (he : ∀ s pr t1 t0, exec (mk pr t1 t0) s = s.fire (tForm row pr 2 t1 t0) plainNull fun c =>
      c.mapEl [c.l, c.r] n n (512 / n) fun _ xs => g c (xs[0]?.getD 0) (xs[1]?.getD 0)) : IntTwo mk n f :=
  fun s pr t1 t0 _ _ _ h hr ga gb => (Fires.pair h hr ga gb hg hl).elements (he s pr t1 t0) rfl hw (List.cons_ne_nil _ _) fun k => by
    rw [List.map_cons, List.map_singleton, elem_eq, elem_eq, ← same s]
    exact ⟨(ofNat_code _).symm, rfl⟩
/-- Operations with an exact result, brought into the range under saturation. -/
theorem intOne_exact (z : Int → Int)
    (he : ∀ s pr t1 t0, exec (mk pr t1 t0) s = s.fire (tForm row pr 1 t1 t0) plainNull fun c => c.viExact false n [c.l] fun x _ => z x) :
    IntOne mk n fun s x => intoRange 0 n s (z x.toInt) := by
  refine intOne_of hw hl hg (fun c x => intoCode false c.sat n (z (elemInt false n x))) (fun s m a r t x => ?_) he
  rw [elemInt_signed]
  exact intoCode_eq s _ 0
theorem intTwo_exact (z : Int → Int → Int) (k : BitVec 1)
    (he : ∀ s pr t1 t0, exec (mk pr t1 t0) s = s.fire (tForm row pr 2 t1 t0) plainNull fun c => c.viExact (k == 1) n [c.l, c.r] z) :
    IntTwo mk n fun s x y => intoRange k n s (z (asInt k x) (asInt k y)) := by
  refine intTwo_of hw hl hg (fun c x y => intoCode (k == 1) c.sat n (z (elemInt (k == 1) n x) (elemInt (k == 1) n y))) (fun s m a b t x y => ?_) he
  rw [elemInt_toNat, elemInt_toNat]
  exact intoCode_eq s _ k
theorem intTwo_shl (k : BitVec 1)
    (he : ∀ s pr t1 t0, exec (mk pr t1 t0) s = s.fire (tForm row pr 2 t1 t0) plainNull fun c => c.viShl (k == 1) n) :
    IntTwo mk n fun s x y => intoRange k n s (asInt k x * 2 ^ (y.toNat % n)) := by
  refine intTwo_of hw hl hg (fun c x y => intoCode (k == 1) c.sat n (elemInt (k == 1) n x * 2 ^ (y % n))) (fun s m a b t x y => ?_) he
  rw [elemInt_toNat]
  exact intoCode_eq s _ k
/-- Operations on the bits, which raise no event. -/
theorem intTwo_bits (g : Nat → Nat → Nat) {f : BitVec n → BitVec n → BitVec n} (same : ∀ x y : BitVec n, BitVec.ofNat n (g x.toNat y.toNat) = f x y)
    (he : ∀ s pr t1 t0, exec (mk pr t1 t0) s = s.fire (tForm row pr 2 t1 t0) plainNull fun c => c.viBits n g) :
    IntTwo mk n fun _ x y => (f x y, []) :=
  intTwo_of hw hl hg (fun _ x y => (g x y, [])) (fun _ _ _ _ _ x y => congrArg (·, []) (same x y)) he
theorem intTwo_mulh (k : BitVec 1)
    (he : ∀ s pr t1 t0, exec (mk pr t1 t0) s = s.fire (tForm row pr 2 t1 t0) plainNull fun c => c.viBits n (mulHigh (k == 1) n)) :
    IntTwo mk n fun _ x y => (BitVec.ofInt n (asInt k x * asInt k y / 2 ^ n), []) :=
  intTwo_bits hw hl hg _ (fun x y => by rw [mulHigh, elemInt_toNat, elemInt_toNat, ofNat_emod]) he
theorem intTwo_min (k : BitVec 1)
    (he : ∀ s pr t1 t0, exec (mk pr t1 t0) s = s.fire (tForm row pr 2 t1 t0) plainNull fun c =>
      c.viBits n fun x y => if elemInt (k == 1) n x ≤ elemInt (k == 1) n y then x else y) :
    IntTwo mk n fun _ x y => (if asInt k x ≤ asInt k y then x else y, []) :=
  intTwo_bits hw hl hg _ (fun x y => by rw [elemInt_toNat, elemInt_toNat, ofNat_ite]) he
theorem intTwo_max (k : BitVec 1)
    (he : ∀ s pr t1 t0, exec (mk pr t1 t0) s = s.fire (tForm row pr 2 t1 t0) plainNull fun c =>
      c.viBits n fun x y => if elemInt (k == 1) n x ≤ elemInt (k == 1) n y then y else x) :
    IntTwo mk n fun _ x y => (if asInt k x ≤ asInt k y then y else x, []) :=
  intTwo_bits hw hl hg _ (fun x y => by rw [elemInt_toNat, elemInt_toNat, ofNat_ite]) he
theorem intTwo_and (he : ∀ s pr t1 t0, exec (mk pr t1 t0) s = s.fire (tForm row pr 2 t1 t0) plainNull fun c => c.viBits n fun x y => x &&& y) :
    IntTwo mk n fun _ x y => (x &&& y, []) :=
  intTwo_bits hw hl hg _ (fun x y => by rw [← BitVec.toNat_and, ofNat_code]) he
theorem intTwo_or (he : ∀ s pr t1 t0, exec (mk pr t1 t0) s = s.fire (tForm row pr 2 t1 t0) plainNull fun c => c.viBits n fun x y => x ||| y) :
    IntTwo mk n fun _ x y => (x ||| y, []) :=
  intTwo_bits hw hl hg _ (fun x y => by rw [← BitVec.toNat_or, ofNat_code]) he
theorem intTwo_xor (he : ∀ s pr t1 t0, exec (mk pr t1 t0) s = s.fire (tForm row pr 2 t1 t0) plainNull fun c => c.viBits n fun x y => x ^^^ y) :
    IntTwo mk n fun _ x y => (x ^^^ y, []) :=
  intTwo_bits hw hl hg _ (fun x y => by rw [← BitVec.toNat_xor, ofNat_code]) he
theorem intTwo_shr
    (he : ∀ s pr t1 t0, exec (mk pr t1 t0) s = s.fire (tForm row pr 2 t1 t0) plainNull fun c => c.viBits n fun x y => x / 2 ^ (y % n)) :
    IntTwo mk n fun _ x y => (x >>> (y.toNat % n), []) :=
  intTwo_bits hw hl hg _ (fun x _ => ofNat_shr x _) he
theorem intTwo_sra
    (he : ∀ s pr t1 t0, exec (mk pr t1 t0) s = s.fire (tForm row pr 2 t1 t0) plainNull fun c =>
      c.viBits n fun x y => ((elemInt false n x / 2 ^ (y % n)) % 2 ^ n).toNat) :
    IntTwo mk n fun _ x y => (x.sshiftRight (y.toNat % n), []) :=
  intTwo_bits hw hl hg _ (fun x _ => ofNat_sra x _) he
end

/-! ## The families (R187) -/

theorem isElemWidth_32 : IsElemWidth 32 := .inr (.inr (.inl rfl))
theorem isElemWidth_width16 (w : BitVec 1) : IsElemWidth (width16 w) := by
  unfold width16
  split
  · exact .inl rfl
  · exact .inr (.inl rfl)

theorem intFamily_32 : IntFamily 32 (fun k pr => .vaddI32 pr k) (fun k pr => .vsubI32 pr k) (fun k pr => .vmulI32 pr k)
    (fun k pr => .vmulhI32 pr k) (fun k pr => .vminI32 pr k) (fun k pr => .vmaxI32 pr k) (fun k pr => .vshlI32 pr k) .vandI32 .vorI32 .vxorI32
    .vshrI32 .vsraI32 .vabsI32 .vnegI32 where
  add k := intTwo_exact isElemWidth_32 rfl rfl (· + ·) k fun _ _ _ _ => rfl
  sub k := intTwo_exact isElemWidth_32 rfl rfl (· - ·) k fun _ _ _ _ => rfl
  mul k := intTwo_exact isElemWidth_32 rfl rfl (· * ·) k fun _ _ _ _ => rfl
  mulh k := intTwo_mulh isElemWidth_32 rfl rfl k fun _ _ _ _ => rfl
  min k := intTwo_min isElemWidth_32 rfl rfl k fun _ _ _ _ => rfl
  max k := intTwo_max isElemWidth_32 rfl rfl k fun _ _ _ _ => rfl
  shl k := intTwo_shl isElemWidth_32 rfl rfl k fun _ _ _ _ => rfl
  and := intTwo_and isElemWidth_32 rfl rfl fun _ _ _ _ => rfl
  or := intTwo_or isElemWidth_32 rfl rfl fun _ _ _ _ => rfl
  xor := intTwo_xor isElemWidth_32 rfl rfl fun _ _ _ _ => rfl
  shr := intTwo_shr isElemWidth_32 rfl rfl fun _ _ _ _ => rfl
  sra := intTwo_sra isElemWidth_32 rfl rfl fun _ _ _ _ => rfl
  abs := intOne_exact isElemWidth_32 rfl rfl (fun x => x.natAbs) fun _ _ _ _ => rfl
  neg := intOne_exact isElemWidth_32 rfl rfl (fun x => -x) fun _ _ _ _ => rfl
/-- The rows of 16 bits, and of 8 where their bit `w` is set (R108). -/
theorem intFamily_16 (w : BitVec 1) : IntFamily (width16 w) (fun k pr => .vaddI16 w pr k) (fun k pr => .vsubI16 w pr k)
    (fun k pr => .vmulI16 w pr k) (fun k pr => .vmulhI16 w pr k) (fun k pr => .vminI16 w pr k) (fun k pr => .vmaxI16 w pr k)
    (fun k pr => .vshlI16 w pr k) (.vandI16 w) (.vorI16 w) (.vxorI16 w) (.vshrI16 w) (.vsraI16 w) (.vabsI16 w) (.vnegI16 w) where
  add k := intTwo_exact (isElemWidth_width16 w) rfl rfl (· + ·) k fun _ _ _ _ => rfl
  sub k := intTwo_exact (isElemWidth_width16 w) rfl rfl (· - ·) k fun _ _ _ _ => rfl
  mul k := intTwo_exact (isElemWidth_width16 w) rfl rfl (· * ·) k fun _ _ _ _ => rfl
  mulh k := intTwo_mulh (isElemWidth_width16 w) rfl rfl k fun _ _ _ _ => rfl
  min k := intTwo_min (isElemWidth_width16 w) rfl rfl k fun _ _ _ _ => rfl
  max k := intTwo_max (isElemWidth_width16 w) rfl rfl k fun _ _ _ _ => rfl
  shl k := intTwo_shl (isElemWidth_width16 w) rfl rfl k fun _ _ _ _ => rfl
  and := intTwo_and (isElemWidth_width16 w) rfl rfl fun _ _ _ _ => rfl
  or := intTwo_or (isElemWidth_width16 w) rfl rfl fun _ _ _ _ => rfl
  xor := intTwo_xor (isElemWidth_width16 w) rfl rfl fun _ _ _ _ => rfl
  shr := intTwo_shr (isElemWidth_width16 w) rfl rfl fun _ _ _ _ => rfl
  sra := intTwo_sra (isElemWidth_width16 w) rfl rfl fun _ _ _ _ => rfl
  abs := intOne_exact (isElemWidth_width16 w) rfl rfl (fun x => x.natAbs) fun _ _ _ _ => rfl
  neg := intOne_exact (isElemWidth_width16 w) rfl rfl (fun x => -x) fun _ _ _ _ => rfl

/-- Settles O27: each operation of the model is element-wise; an exact result is brought into the range of the elements' codes. -/
theorem vectorIntegerResults : Obligations.VectorIntegerResults := ⟨intFamily_32, intFamily_16 0, intFamily_16 1⟩

end Sys2Proof.Claims
end

section
/-! The obligation O28: the vector compares and VSEL (R189, R190; log 25). -/

namespace Sys2Proof.Claims
open Sys2Proof.Machine

/-! ## A mask of digits -/

/-- Digit `k` of a mask in digits of `d` bits: all ones where `p` holds. -/
def ones (d : Nat) (p : Nat → Bool) (k : Nat) : Nat := if p k then 2 ^ d - 1 else 0
theorem ones_lt (d : Nat) (p : Nat → Bool) (k : Nat) : ones d p k < 2 ^ d := by
  have pos := Nat.two_pow_pos d
  unfold ones
  split <;> omega
theorem testBit_ones (d : Nat) (p : Nat → Bool) (k j : Nat) : (ones d p k).testBit j = (decide (j < d) && p k) := by
  unfold ones
  split
  · next hp => rw [Nat.testBit_two_pow_sub_one, hp, Bool.and_true]
  · next hp => rw [Nat.zero_testBit, Bool.eq_false_iff.2 hp, Bool.and_false]
/-- The mask after digit `k`. -/
def addOnes (d : Nat) (p : Nat → Bool) (b k : Nat) : Nat := 2 ^ (d * k) * ones d p k + b
/-- A mask of `n` digits, and its bits: that of element `i / d` is bit `i`. -/
theorem foldl_addOnes {d : Nat} (hd : 0 < d) (p : Nat → Bool) (n : Nat) : (List.range n).foldl (addOnes d p) 0 < 2 ^ (d * n) ∧
    ∀ i, ((List.range n).foldl (addOnes d p) 0).testBit i = (decide (i / d < n) && p (i / d)) := by
  induction n with
  | zero => simp
  | succ n ih =>
    obtain ⟨small, bits⟩ := ih
    rw [List.range_succ, List.foldl_append, List.foldl_cons, List.foldl_nil]
    refine ⟨?_, fun i => ?_⟩
    · calc addOnes d p _ n < 2 ^ (d * n) * (ones d p n + 1) := Nat.add_lt_add_left small _
        _ ≤ 2 ^ (d * n) * 2 ^ d := Nat.mul_le_mul_left _ (ones_lt d p n)
        _ = 2 ^ (d * (n + 1)) := by rw [← Nat.pow_add, Nat.mul_succ]
    · rw [addOnes, Nat.testBit_two_pow_mul_add _ small, bits, testBit_ones]
      rcases Nat.lt_trichotomy (i / d) n with below | rfl | above
      · have inside : i < d * n := by rwa [Nat.div_lt_iff_lt_mul hd, Nat.mul_comm] at below
        simp [inside, below, Nat.lt_succ_of_lt below]
      · simp [Nat.not_lt.2 (Nat.mul_div_le i d), ← Nat.mod_eq_sub_mul_div, Nat.mod_lt i hd]
      · have outside : d * (n + 1) ≤ i := by rwa [Nat.mul_comm, ← Nat.le_div_iff_mul_le hd]
        rw [Nat.mul_succ] at outside
        simp [show ¬ i < d * n by omega, show ¬ i - d * n < d by omega, show ¬ i / d < n + 1 by omega]

/-! ## Compares (R189) -/

/-- The width of the elements that a compare reads. -/
def cmpWidth (w : BitVec 3) : Nat := match cmpType w with | .inl f => f.w | .inr x => x.1
theorem cmpWidth_eq : ∀ w, cmpWidth w = orderWidth w := by decide
theorem compare_natCast (x y : Nat) : compare (x : Int) (y : Int) = compare x y := by
  simp only [compare, compareOfLessAndEq, Int.ofNat_lt, Int.natCast_inj]
theorem cmpElems_fst (w : BitVec 3) (ordered : Bool) (k : Nat) (a b : Value) :
    (cmpElems w ordered (a.elem (orderWidth w) k) (b.elem (orderWidth w) k)).1 = order w k a b := by
  have all : ∀ w : BitVec 3, w = 0 ∨ w = 1 ∨ w = 2 ∨ w = 3 ∨ w = 4 ∨ w = 5 ∨ w = 6 ∨ w = 7 := by decide
  have floats (f : Fmt) (x y : Nat) (evs : List Nat) (hx : x = (el f.w a k).toNat) (hy : y = (el f.w b k).toNat) :
    (if (f.decode x).isNan || (f.decode y).isNan then (none, evs) else (some ((f.decode x).cmp (f.decode y)), [])).1 = order.floats k a b f := by
    subst hx hy
    unfold order.floats num
    split <;> rfl
  have signed (n : Nat) : some (compare (elemInt false n (a.elem n k)) (elemInt false n (b.elem n k))) =
      some (compare (el n a k).toInt (el n b k).toInt) := by
    rw [elem_eq, elem_eq, elemInt_signed, elemInt_signed]
  have natural (n : Nat) : some (compare (elemInt true n (a.elem n k)) (elemInt true n (b.elem n k))) =
      some (compare (el n a k).toNat (el n b k).toNat) := by
    rw [elem_eq, elem_eq]
    exact congrArg some (compare_natCast ..)
  rcases all w with rfl | rfl | rfl | rfl | rfl | rfl | rfl | rfl
  · exact floats f32 _ _ _ (elem_eq ..) (elem_eq ..)
  · exact floats f64 _ _ _ (elem_eq ..) (elem_eq ..)
  · exact floats f16 _ _ _ (elem_eq ..) (elem_eq ..)
  · exact floats bf16 _ _ _ (elem_eq ..) (elem_eq ..)
  · exact signed 32
  · exact natural 32
  · exact signed 16
  · exact natural 16
/-- The bits of a mask that an element has: two with 64-bit elements. -/
def digitWidth (n : Nat) : Nat := if n = 64 then 2 else 1
/-- Whether a compare sets the bits of element `k`. -/
def cmpHolds (holds : Option Ordering → Bool) (w : BitVec 3) (m : BitVec 16) (a b : Value) (k : Nat) : Bool :=
  elemLive (orderWidth w) (liveLanes m [a, b]) k && holds (order w k a b)
/-- What the model's compare adds to its mask for element `k` of width `n`. -/
def cmpStep (c : Ctx) (w : BitVec 3) (ordered : Bool) (holds : Option Ordering → Bool) (n b k : Nat) : Nat :=
  let ok := fun k => elemOk (c.l.valid &&& c.mask) n k && elemOk (c.r.valid &&& c.mask) n k
  let rs := (List.range (512 / n)).map fun k => if ok k then cmpElems w ordered (c.l.elem n k) (c.r.elem n k) else (none, [])
  if ok k && holds ((rs[k]?.getD (none, [])).1) then b + (if n = 64 then 3 * 2 ^ (2 * k) else 2 ^ k) else b
theorem cmpStep_eq (c : Ctx) (w : BitVec 3) (ordered : Bool) (holds : Option Ordering → Bool) (b : Nat) {k : Nat} (hk : k < 512 / orderWidth w) :
    cmpStep c w ordered holds (orderWidth w) b k = addOnes (digitWidth (orderWidth w)) (cmpHolds holds w c.mask c.l c.r) b k := by
  have live : (elemOk (c.l.valid &&& c.mask) (orderWidth w) k && elemOk (c.r.valid &&& c.mask) (orderWidth w) k) =
      elemLive (orderWidth w) (liveLanes c.mask [c.l, c.r]) k := by
    rw [← reads_same (List.cons_ne_nil _ _)]
    simp only [reads, if_true, List.all_cons, List.all_nil, Bool.and_true]
    rfl
  have digit : (if orderWidth w = 64 then 3 * 2 ^ (2 * k) else 2 ^ k) =
      2 ^ (digitWidth (orderWidth w) * k) * (2 ^ digitWidth (orderWidth w) - 1) := by
    unfold digitWidth
    split
    · exact Nat.mul_comm ..
    · rw [Nat.one_mul]; exact (Nat.mul_one _).symm
  unfold cmpStep addOnes ones cmpHolds
  simp only [List.getElem?_map, List.getElem?_range hk, Option.map_some, Option.getD_some, live, digit]
  cases elemLive (orderWidth w) (liveLanes c.mask [c.l, c.r]) k
  · simp
  · rw [if_pos rfl, cmpElems_fst]
    split
    · exact Nat.add_comm ..
    · exact (Nat.zero_add b).symm
/-- What a compare of the model answers. -/
theorem vcmp_eq (c : Ctx) (w : BitVec 3) (ordered : Bool) (holds : Option Ordering → Bool) : ∃ evs, c.vcmp w ordered holds =
    c.value { bits := BitVec.ofNat 512 ((List.range (512 / orderWidth w)).foldl
                (addOnes (digitWidth (orderWidth w)) (cmpHolds holds w c.mask c.l c.r)) 0),
              valid := 0xFFFF, tag := tagOf [c.l, c.r], null := false } evs := by
  refine ⟨_, congrArg (fun bits => c.value { bits := BitVec.ofNat 512 bits, valid := 0xFFFF, tag := tagOf [c.l, c.r], null := false } _) ?_⟩
  show (List.range (512 / cmpWidth w)).foldl (cmpStep c w ordered holds (cmpWidth w)) 0 = _
  rw [cmpWidth_eq]
  exact List.foldl_ext _ _ _ fun b k hk => cmpStep_eq c w ordered holds b (List.mem_range.1 hk)

theorem vectorCompares_of {mk : BitVec 2 → BitVec 3 → BitVec 9 → BitVec 9 → Instr} {row : Row} {ordered : Bool} {holds : Option Ordering → Bool}
    (he : ∀ s pr w t1 t0, exec (mk pr w t1 t0) s = s.fire (tForm row pr 2 t1 t0) plainNull fun c => c.vcmp w ordered holds)
    (hl : row.isLoad = false) (hg : (row == .cusGive) = false) : VectorCompares mk holds := by
  intro s pr w t1 t0 m a b h hr ga gb
  obtain ⟨evs, value⟩ := vcmp_eq (ctxOf s row a b ((opnd s 2).getD default) m) w ordered holds
  refine ⟨_, evs, (he ..).trans ((Fires.pair h hr ga gb hg hl).ok value rfl h.admitted), fun i hi => ?_⟩
  have digit : i / digitWidth (orderWidth w) = if orderWidth w = 64 then i / 2 else i := by
    unfold digitWidth
    split
    · rfl
    · exact Nat.div_one i
  have pos : 0 < digitWidth (orderWidth w) := by unfold digitWidth; split <;> decide
  show (BitVec.ofNat 512 _).getLsbD i = _
  rw [BitVec.getLsbD_ofNat, (foldl_addOnes pos _ _).2, digit]
  simp [hi, cmpHolds, Bool.and_assoc]

/-! ## VSEL (R190) -/

theorem bitsAt_ofLanes (f : Nat → W32) {l : Nat} (hl : l < 16) : (bitsAt (ofLanes f) (32 * l) 32 : W32) = f l := by
  have lanes : ofLanes f = ofElems 32 ((List.range 16).map fun i => (f i).toNat) := by
    rw [ofLanes, ofElems, List.foldr_map]
    refine congrArg _ (List.foldr_ext _ _ _ fun i _ n => ?_)
    rw [Nat.mod_eq_of_lt (f i).isLt]
  rw [lanes, bitsAt_ofElems _ (by omega)]
  simp [hl]

section
variable {s : State} {pr : BitVec 2} {t1 t0 : BitVec 9} {m : BitVec 16} {a b c : Value} (h : MayFire s) (hr : Runs s pr m) (ga : Given s 0 a)
  (gb : Given s 1 b) (gc : Given s 2 c)
include h hr ga gb gc

theorem vsel_selects (first : bitAt c.valid 0 = true) : ∃ bits valid,
    exec (.vsel pr t1 t0) s = .next (answers s t1 t0 { bits := bits, valid := valid, tag := tagOf [a, b, c], null := false } []) ∧
    ∀ l, l < 16 → (bitsAt bits (32 * l) 32 : W32) = (if bitAt (c.lane 0) l then a.lane l else b.lane l) ∧
      bitAt valid l = (bitAt m l && bitAt (if bitAt (c.lane 0) l then a.valid else b.valid) l) := by
  have choice : ¬ (!bitAt c.valid 0) = true := by rw [first]; decide
  refine ⟨_, _, (rfl : _ = execVsel pr t1 t0 s).trans ((Fires.triple (row := .vsel) h hr ga gb gc rfl rfl).value (if_neg choice)),
    fun l hl => ⟨?_, ?_⟩⟩
  · rw [bitsAt_ofLanes _ hl]
    exact apply_ite (fun v : Value => v.lane l) ..
  · rw [bitAt_and, bitAt_mask, Bool.and_comm (bitAt m l), decide_eq_true hl, Bool.true_and]
    exact congrArg (fun v => bitAt v l && bitAt m l) (apply_ite Value.valid ..)
theorem vsel_null (first : bitAt c.valid 0 = false) :
    exec (.vsel pr t1 t0) s = .next (answers s t1 t0 { bits := 0, valid := 0, tag := tagOf [a, b, c], null := false } []) := by
  have none_ : (!bitAt c.valid 0) = true := by rw [first]; rfl
  exact (rfl : _ = execVsel pr t1 t0 s).trans ((Fires.triple (row := .vsel) h hr ga gb gc rfl rfl).value (if_pos none_))
end

/-- Settles O28: a compare sets the bits of the live elements of which its relation holds, and VSEL chooses lane by lane. -/
theorem vectorComparesAndSelect : Obligations.VectorComparesAndSelect :=
  ⟨vectorCompares_of (fun _ _ _ _ _ => rfl) rfl rfl, vectorCompares_of (fun _ _ _ _ _ => rfl) rfl rfl,
    vectorCompares_of (fun _ _ _ _ _ => rfl) rfl rfl, vectorCompares_of (fun _ _ _ _ _ => rfl) rfl rfl,
    fun _ _ _ _ _ _ _ _ h hr ga gb gc => ⟨vsel_selects h hr ga gb gc, vsel_null h hr ga gb gc⟩, fun _ _ _ => major_mkT ..⟩

end Sys2Proof.Claims
end

section
/-! The obligation O30: permutes and reductions (R192 to R195; log 25). -/

namespace Sys2Proof.Claims
open Sys2Proof.Machine

/-! ## Permutes (R192, R193) -/

/-- An element of the model's permutes, as a word of its width. -/
def asCell (w : Nat) (x : Nat × Bool) : BitVec w × Bool := (BitVec.ofNat w x.1, x.2)
theorem asCell_cell (v : Value) (w k : Nat) : asCell w (v.cell w k) = cell w v k := by
  unfold asCell Value.cell cell
  rw [elem_eq, ofNat_code]
  rfl
theorem permuteWidth_cases (w : BitVec 1) : permuteWidth w = 32 ∨ permuteWidth w = 64 := by
  unfold permuteWidth
  split
  · exact .inr rfl
  · exact .inl rfl
/-- An element as a scalar: one of 32 bits is sign-extended. -/
theorem scalarOf_toNat {n : Nat} (hn : IsWidth n) (x : BitVec n) :
    (if n = 32 then sext64 (BitVec.ofNat 32 x.toNat) else BitVec.ofNat 64 x.toNat) = x.signExtend 64 := by
  rcases hn with rfl | rfl
  · rw [if_pos rfl, ofNat_code]; rfl
  · rw [if_neg (by decide), ofNat_code, BitVec.signExtend_eq]
/-- The element that lies in a lane. -/
theorem inLane_permuteWidth (w : BitVec 1) {l : Nat} (hl : l < 16) :
    l * 32 / permuteWidth w < 512 / permuteWidth w ∧ ∀ k, InLane (permuteWidth w) l k ↔ k = l * 32 / permuteWidth w := by
  unfold InLane
  rcases permuteWidth_cases w with e | e <;> rw [e]
  · simp; omega
  · simp; omega

theorem nonZero_eq (w : Nat) (v : Value) : nonZero w v = nonZeros w v := by
  refine List.filter_congr fun e _ => ?_
  rw [elem_eq, Bool.eq_iff_iff, Bool.and_eq_true, Bool.and_eq_true, bne_iff_ne, bne_iff_ne, Ne, toNat_eq_zero_iff]
  rfl
theorem row_null {v : Value} (hv : scalarOk v = false) : (!v.validTo 2) = true := by rw [scalarOk_eq, hv]; rfl
theorem mask_read {v : Value} (hv : bitAt v.valid 0 = true) : ¬ (!bitAt v.valid 0) = true := by rw [hv]; decide

section
variable {s : State} {row : Row} {pr : BitVec 2} {n : Nat} {t1 t0 : BitVec 9} {m : BitVec 16} {l r t : Value} {i : Instr} {vs : List Value}
  {w : BitVec 1} {act : Ctx → Except Trap Fired}

/-- A firing whose effect is a permute. -/
theorem Fires.permutes {g : Nat → Nat × Bool} {out : Nat → BitVec (permuteWidth w) × Bool} (h : Fires s (tForm row pr n t1 t0) pr m l r t)
    (he : exec i s = s.fire (tForm row pr n t1 t0) plainNull act)
    (ha : act (ctxOf s row l r t m) = (ctxOf s row l r t m).perm (permuteWidth w) vs g)
    (same : ∀ e, e < 512 / permuteWidth w → asCell _ (g e) = out e) : Permutes i s t1 t0 m vs w out := by
  refine ⟨_, _, he.trans (h.ok ha rfl h.may.admitted), fun lane hl => ?_, fun e he _ => ?_⟩
  · obtain ⟨there, here⟩ := inLane_permuteWidth w hl
    have valid : (∀ k, k < 512 / permuteWidth w → InLane (permuteWidth w) lane k →
        ((((List.range (512 / permuteWidth w)).map g)[k]?).getD (0, true)).2 = true) ↔ (out (lane * 32 / permuteWidth w)).2 = true := by
      rw [← same _ there]
      simp only [here]
      refine ⟨fun all => ?_, fun one k _ e => ?_⟩
      · simpa [there, asCell] using all _ there rfl
      · subst e; simpa [there, asCell] using one
    rw [bitAt_and, ctxOf_mask, Bool.and_comm, Bool.eq_iff_iff, Bool.and_eq_true, Bool.and_eq_true, bitAt_lanesOf, valid, and_iff_right hl]
  · rw [bitsAt_ofElems _ (elem_fits he), ← same e he]
    simp [he, asCell]
/-- One whose result is null as a whole. -/
theorem Fires.permutesNull (h : Fires s (tForm row pr n t1 t0) pr m l r t) (he : exec i s = s.fire (tForm row pr n t1 t0) plainNull act)
    (ha : act (ctxOf s row l r t m) = (ctxOf s row l r t m).allNull vs) : Permutes i s t1 t0 m vs w fun _ => (0, false) :=
  ⟨_, _, he.trans (h.value ha), fun lane _ => by simp [bitAt], fun _ _ c => absurd c Bool.false_ne_true⟩
end


section
variable {s : State} {pr : BitVec 2} {w : BitVec 1} {t1 t0 : BitVec 9} {m : BitVec 16} {a b c : Value} (h : MayFire s) (hr : Runs s pr m)
  (ga : Given s 0 a)
include h hr ga

theorem vbcast_permutes : Permutes (.vbcast pr w t1 t0) s t1 t0 m [a] w fun _ => cell _ a 0 :=
  (Fires.single (row := .vbcast) h hr ga rfl rfl).permutes (rfl : _ = execVbcast pr w t1 t0 s) rfl fun _ _ => asCell_cell ..
theorem vunzip_permutes : Permutes (.vunzip pr w t1 t0) s t1 t0 m [a] w fun e =>
    if e < 512 / permuteWidth w / 2 then cell _ a (2 * e) else cell _ a (2 * (e - 512 / permuteWidth w / 2) + 1) := by
  refine (Fires.single (row := .vunzip) h hr ga rfl rfl).permutes (rfl : _ = execVunzip pr w t1 t0 s) rfl fun e _ => ?_
  have half_ : 256 / permWidth w = 512 / permuteWidth w / 2 := by
    rw [Nat.div_div_eq_div_mul, Nat.mul_comm, ← Nat.div_div_eq_div_mul]; rfl
  rw [half_, apply_ite (asCell _)]
  exact congr_arg₂ (ite _) (asCell_cell ..) (asCell_cell ..)
theorem vnz_permutes : Permutes (.vnz pr w t1 t0) s t1 t0 m [a] w fun e =>
    match (nonZeros (permuteWidth w) a)[e]? with | some k => (el _ a k, true) | none => (0, true) := by
  refine (Fires.single (row := .vnz) h hr ga rfl rfl).permutes (rfl : _ = execVnz pr w t1 t0 s) rfl fun e _ => ?_
  rw [ctxOf_l, nonZero_eq]
  change asCell (permuteWidth w) (match (nonZeros (permuteWidth w) a)[e]? with | some k => (a.elem (permuteWidth w) k, true) | none => (0, true)) = _
  cases (nonZeros (permuteWidth w) a)[e]? with
  | none => rfl
  | some k => exact congrArg (·, true) ((congrArg (BitVec.ofNat _) (elem_eq ..)).trans (ofNat_code _))
theorem vnzi_permutes : Permutes (.vnzi pr w t1 t0) s t1 t0 m [a] w fun e =>
    match (nonZeros (permuteWidth w) a)[e]? with | some k => (BitVec.ofNat _ k, true) | none => (BitVec.allOnes _, true) := by
  refine (Fires.single (row := .vnzi) h hr ga rfl rfl).permutes (rfl : _ = execVnzi pr w t1 t0 s) rfl fun e _ => ?_
  rw [ctxOf_l, nonZero_eq]
  change asCell (permuteWidth w) (match (nonZeros (permuteWidth w) a)[e]? with | some k => (k, true) | none => (2 ^ permuteWidth w - 1, true)) = _
  cases (nonZeros (permuteWidth w) a)[e]? with
  | none => exact congrArg (·, true) (by rw [BitVec.allOnes, BitVec.ofNatLT_eq_ofNat])
  | some k => rfl
theorem viota_permutes (ok : scalarOk a = true) : Permutes (.viota pr w t1 t0) s t1 t0 m [a] w fun e =>
    (BitVec.ofNat _ (a.scalar.toNat + e), true) :=
  (Fires.single (row := .viota) h hr ga rfl rfl).permutes (rfl : _ = execViota pr w t1 t0 s) (if_neg (row_read ok)) fun _ _ =>
    congrArg (·, true) (ofNat_mod ..)

section
variable (gb : Given s 1 b)
include gb

theorem vshuf_permutes : Permutes (.vshuf pr w t1 t0) s t1 t0 m [a, b] w fun e =>
    if elemLive (permuteWidth w) b.valid e then cell _ a ((el (permuteWidth w) b e).toNat % (512 / permuteWidth w)) else (0, false) := by
  refine (Fires.pair (row := .vshuf) h hr ga gb rfl rfl).permutes (rfl : _ = execVshuf pr w t1 t0 s) rfl fun e _ => ?_
  rw [apply_ite (asCell _)]
  refine ite_congr rfl (fun _ => ?_) fun _ => rfl
  rw [ctxOf_r, elem_eq]
  exact asCell_cell ..
theorem vzip_permutes : Permutes (.vzip pr w t1 t0) s t1 t0 m [a, b] w fun e => if e % 2 = 0 then cell _ a (e / 2) else cell _ b (e / 2) := by
  refine (Fires.pair (row := .vzip) h hr ga gb rfl rfl).permutes (rfl : _ = execVzip pr w t1 t0 s) rfl fun e _ => ?_
  rw [apply_ite (asCell _)]
  exact congr_arg₂ (ite _) (asCell_cell ..) (asCell_cell ..)
theorem vrot_permutes (ok : scalarOk b = true) : Permutes (.vrot pr w t1 t0) s t1 t0 m [a, b] w fun e =>
    cell _ a ((e + b.scalar.toNat) % (512 / permuteWidth w)) :=
  (Fires.pair (row := .vrot) h hr ga gb rfl rfl).permutes (rfl : _ = execVrot pr w t1 t0 s) (if_neg (row_read ok)) fun _ _ => asCell_cell ..
theorem vcomp_permutes (first : bitAt b.valid 0 = true) : Permutes (.vcomp pr w t1 t0) s t1 t0 m [a, b] w fun e =>
    match (picked (permuteWidth w) b (512 / permuteWidth w))[e]? with | some k => cell _ a k | none => (0, true) := by
  refine (Fires.pair (row := .vcomp) h hr ga gb rfl rfl).permutes (rfl : _ = execVcomp pr w t1 t0 s) (if_neg (mask_read first)) fun e _ => ?_
  change asCell (permuteWidth w) (match (picked (permuteWidth w) b (512 / permuteWidth w))[e]? with
    | some k => a.cell (permuteWidth w) k | none => (0, true)) = _
  cases (picked (permuteWidth w) b (512 / permuteWidth w))[e]? with
  | none => rfl
  | some k => exact asCell_cell ..
theorem vexpand_permutes (first : bitAt b.valid 0 = true) : Permutes (.vexpand pr w t1 t0) s t1 t0 m [a, b] w fun e =>
    if bitAt (b.lane 0) (e * permuteWidth w / 32) then cell _ a (picked (permuteWidth w) b e).length else (0, true) := by
  refine (Fires.pair (row := .vexpand) h hr ga gb rfl rfl).permutes (rfl : _ = execVexpand pr w t1 t0 s) (if_neg (mask_read first)) fun e _ => ?_
  rw [apply_ite (asCell _)]
  exact congr_arg₂ (ite _) (asCell_cell ..) rfl
theorem vext_answers (ok : scalarOk b = true) : exec (.vext pr w t1 t0) s = .next (answers s t1 t0
    { bits := ((el (permuteWidth w) a (b.scalar.toNat % (512 / permuteWidth w))).signExtend 64).setWidth 512,
      valid := (if elemLive (permuteWidth w) (a.valid &&& m) (b.scalar.toNat % (512 / permuteWidth w)) then 0xFFFF else 0xFFFC) &&& m,
      tag := tagOf [a, b], null := false } []) := by
  refine (rfl : _ = execVext pr w t1 t0 s).trans
    ((Fires.pair (row := .vext) h hr ga gb rfl rfl).value ((if_neg (row_read ok)).trans (congrArg (fun x : Word => Ctx.value _ (Ctx.masked _
      (scalarValue x (elemOk (a.valid &&& m) (permuteWidth w) (b.scalar.toNat % (512 / permuteWidth w))) (tagOf [a, b])))) ?_)))
  rw [← scalarOf_toNat (permuteWidth_cases w), ← elem_eq]
  rfl
theorem vrot_null (null : scalarOk b = false) : Permutes (.vrot pr w t1 t0) s t1 t0 m [a, b] w fun _ => (0, false) :=
  (Fires.pair (row := .vrot) h hr ga gb rfl rfl).permutesNull (rfl : _ = execVrot pr w t1 t0 s) (if_pos (row_null null))
theorem vext_null (null : scalarOk b = false) : Permutes (.vext pr w t1 t0) s t1 t0 m [a, b] w fun _ => (0, false) :=
  (Fires.pair (row := .vext) h hr ga gb rfl rfl).permutesNull (rfl : _ = execVext pr w t1 t0 s) (if_pos (row_null null))
theorem vins_null (gc : Given s 2 c) (null : scalarOk c = false) : Permutes (.vins pr w t1 t0) s t1 t0 m [a, b, c] w fun _ => (0, false) :=
  (Fires.triple (row := .vins) h hr ga gb gc rfl rfl).permutesNull (rfl : _ = execVins pr w t1 t0 s) (if_pos (row_null null))
theorem vins_permutes (gc : Given s 2 c) (ok : scalarOk c = true) : Permutes (.vins pr w t1 t0) s t1 t0 m [a, b, c] w fun e =>
    if e = c.scalar.toNat % (512 / permuteWidth w) then cell _ b 0 else cell _ a e := by
  refine (Fires.triple (row := .vins) h hr ga gb gc rfl rfl).permutes (rfl : _ = execVins pr w t1 t0 s) (if_neg (row_read ok)) fun e _ => ?_
  rw [apply_ite (asCell _)]
  exact congr_arg₂ (ite _) (asCell_cell ..) (asCell_cell ..)
end
end

/-! ## Reductions (R194, R195) -/

/-- Some element of L is live. -/
def anyLive (n : Nat) (a : Value) (m : BitVec 16) : Bool := (List.range (512 / n)).any fun k => elemLive n (a.valid &&& m) k
theorem redOperands_eq (c : Ctx) {n : Nat} (u : BitVec n) :
    c.redOperands n u.toNat = if anyLive n c.l c.mask then some ((taken n u c.l c.mask).map BitVec.toNat) else none := by
  have operands : (List.range (512 / n)).map (fun k => if elemOk (c.l.valid &&& c.mask) n k then c.l.elem n k else u.toNat) =
      (taken n u c.l c.mask).map BitVec.toNat := by
    rw [taken, List.map_map]
    refine List.map_congr_left fun k _ => ?_
    rw [elem_eq, Function.comp_apply, apply_ite BitVec.toNat]
    rfl
  unfold Ctx.redOperands
  dsimp only
  rw [operands]
  rfl

section
variable {s : State} {row : Row} {pr : BitVec 2} {t1 t0 : BitVec 9} {m : BitVec 16} {a r t : Value} {i : Instr} {act : Ctx → Except Trap Fired}
  {n : Nat} {u : BitVec n} {fold : List Nat → Nat × List Nat} {signed : Bool}

/-- A firing whose effect is a reduction: a result that is null raises no event. -/
theorem Fires.reduces (h : Fires s (tForm row pr 1 t1 t0) pr m a r t) (he : exec i s = s.fire (tForm row pr 1 t1 t0) plainNull act)
    (ha : act (ctxOf s row a r t m) = (ctxOf s row a r t m).redScalar signed n (((ctxOf s row a r t m).redOperands n u.toNat).map fold))
    (quiet : anyLive n a m = true ∨ ∀ xs, (fold xs).2 = []) : exec i s = .next (answers s t1 t0
      (reduced n a m (if signed && n == 32 then sext64 (BitVec.ofNat 32 (fold ((taken n u a m).map BitVec.toNat)).1)
        else BitVec.ofNat 64 (fold ((taken n u a m).map BitVec.toNat)).1)) (fold ((taken n u a m).map BitVec.toNat)).2) := by
  rw [redOperands_eq] at ha
  unfold reduced
  change _ = Host.Outcome.next (answers s t1 t0
    { bits := if anyLive n a m then _ else 0, valid := (if anyLive n a m then _ else _) &&& m, tag := tagOf [a], null := false } _)
  cases live : anyLive n a m with
  | true =>
    rw [ctxOf_l, ctxOf_mask, live] at ha
    exact he.trans (h.ok ha rfl h.may.admitted)
  | false =>
    rw [ctxOf_l, ctxOf_mask, live] at ha
    rw [quiet.resolve_left (ne_of_eq_of_ne live Bool.false_ne_true)]
    exact (he.trans (h.value ha)).trans (congrArg (fun bits : V512 => Host.Outcome.next (answers s t1 t0
      { bits := bits, valid := 0xFFFC &&& m, tag := tagOf [a], null := false } [])) (BitVec.setWidth_zero 512 64))
end

/-- A reduction of floating elements in the model. -/
def redFloat (ident : Fmt → Nat) (fold : Ctx → Fmt → List Nat → Nat × List Nat) (f : Fmt) (c : Ctx) : Except Trap Fired :=
  c.redScalar false f.w ((c.redOperands f.w (ident f)).map (fold c f))
theorem redFmt_wide (w : BitVec 1) : bitAt (w.setWidth 2) 1 = false ∧ redFmt (w.setWidth 2) = wide w := by
  have all : ∀ w : BitVec 1, bitAt (w.setWidth 2) 1 = false ∧ redFmt (w.setWidth 2) = wide w := by decide
  exact all w
theorem wide_cases (w : BitVec 1) : wide w = f32 ∨ wide w = f64 := by
  unfold wide
  split
  · exact .inr rfl
  · exact .inl rfl

section
variable {mk : BitVec 2 → BitVec 2 → BitVec 9 → BitVec 9 → Instr} {row : Row} (hl : row.isLoad = false) (hg : (row == .cusGive) = false)
include hl hg

/-- A reduction of 32-bit and 64-bit integers, by a fold on the elements' codes that is `f` on their words. -/
theorem reducesInts_of {unit : (n : Nat) → BitVec n} {f : (n : Nat) → BitVec n → BitVec n → BitVec n} (ident : Nat → Nat)
    (g : Nat → Nat → Nat → Nat)
    (he : ∀ s pr w t1 t0, bitAt w 1 = true →
      exec (mk pr w t1 t0) s = s.fire (tForm row pr 1 t1 t0) plainNull fun c => c.redInt w ident g)
    (hi : ∀ n, IsWidth n → ident n = (unit n).toNat)
    (same : ∀ n, IsWidth n → ∀ x y : BitVec n, g n x.toNat y.toNat = (f n x y).toNat) : ReducesInts mk unit f := by
  intro s pr t1 t0 m a h hr ga
  have folds {n : Nat} (hn : IsWidth n) (xs : List (BitVec n)) :
      (xs.map BitVec.toNat).foldl (g n) (unit n).toNat = (xs.foldl (f n) (unit n)).toNat := by
    rw [List.foldl_map]
    exact List.foldl_hom BitVec.toNat fun x y => same n hn x y
  have both {n : Nat} (hn : IsWidth n) (w : BitVec 2) (hw : bitAt w 1 = true) (width : ∀ c : Ctx, c.redInt w ident g =
      c.redScalar true n ((c.redOperands n (ident n)).map fun xs => (xs.foldl (g n) (ident n), []))) : exec (mk pr w t1 t0) s =
        .next (answers s t1 t0 (reduced n a m (((taken n (unit n) a m).foldl (f n) (unit n)).signExtend 64)) []) := by
    rw [(Fires.single h hr ga hg hl).reduces (he _ _ _ _ _ hw) ((width _).trans (by rw [hi n hn])) (.inr fun _ => rfl), folds hn,
      ← scalarOf_toNat hn]
    simp
  refine ⟨both (.inl rfl) 2 rfl fun c => rfl, (both (.inr rfl) 3 rfl fun c => rfl).trans ?_⟩
  rw [BitVec.signExtend_eq]
/-- A reduction of f32 and f64 elements. -/
theorem reducesFloats_of {unit : Fmt → Nat} {f : Fmt → State → List Nat → Nat × List Nat} (fold : Ctx → Fmt → List Nat → Nat × List Nat)
    {ints : BitVec 2 → Ctx → Except Trap Fired}
    (he : ∀ s pr w t1 t0, exec (mk pr w t1 t0) s =
      s.fire (tForm row pr 1 t1 t0) plainNull fun c => if bitAt w 1 then ints w c else redFloat unit fold (redFmt w) c)
    (hu : unit f32 < 2 ^ 32 ∧ unit f64 < 2 ^ 64) (same : ∀ s a r t m k, fold (ctxOf s row a r t m) k = f k s) : ReducesFloats mk unit f := by
  intro s pr w t1 t0 m a h hr ga live
  obtain ⟨float, type⟩ := redFmt_wide w
  have small : unit (wide w) < 2 ^ (wide w).w := by
    rcases wide_cases w with e | e <;> rw [e]
    · exact hu.1
    · exact hu.2
  have ident : unit (wide w) = (BitVec.ofNat (wide w).w (unit (wide w))).toNat := by rw [BitVec.toNat_ofNat, Nat.mod_eq_of_lt small]
  have some_ : anyLive (wide w).w a m = true := by
    obtain ⟨k, hk, hl⟩ := live
    exact List.any_eq_true.2 ⟨k, List.mem_range.2 hk, hl⟩
  refine (Fires.single h hr ga hg hl).reduces (signed := false) (he ..) ?_ (.inl some_)
  rw [float, type, ← ident]
  exact congrArg (fun k => Ctx.redScalar _ false (wide w).w (Option.map k _)) (same ..)
end

/-! ## The operations that a reduction folds -/

section
variable {n : Nat} (x y : BitVec n)
theorem maxSigned_toNat : maxSigned n x.toNat y.toNat = (if x.toInt ≤ y.toInt then y else x).toNat := by
  rw [maxSigned, elemInt_signed, elemInt_signed, apply_ite BitVec.toNat]
theorem minSigned_toNat : minSigned n x.toNat y.toNat = (if x.toInt ≤ y.toInt then x else y).toNat := by
  rw [minSigned, elemInt_signed, elemInt_signed, apply_ite BitVec.toNat]
theorem natMax_toNat : Nat.max x.toNat y.toNat = (if x.toNat ≤ y.toNat then y else x).toNat := by
  rw [apply_ite BitVec.toNat]; exact Nat.max_def
theorem natMin_toNat : Nat.min x.toNat y.toNat = (if x.toNat ≤ y.toNat then x else y).toNat := by
  rw [apply_ite BitVec.toNat]; exact Nat.min_def
theorem allOnes_code : 2 ^ n - 1 = (BitVec.allOnes n).toNat := (BitVec.toNat_allOnes ..).symm
theorem zero_code : 0 = (0 : BitVec n).toNat := (BitVec.toNat_zero ..).symm
end
theorem intMin_code {n : Nat} (hn : IsWidth n) : 2 ^ (n - 1) = (BitVec.intMin n).toNat := by rcases hn with rfl | rfl <;> rfl
theorem intMax_code {n : Nat} : 2 ^ (n - 1) - 1 = (BitVec.intMax n).toNat := (BitVec.toNat_intMax ..).symm

/-! ## Rows with integer and floating types (R113) -/

section
variable (s : State) (pr w : BitVec 2) (t1 t0 : BitVec 9)
theorem exec_vredAdd : exec (.vredAdd pr w t1 t0) s = s.fire (tForm .vredAdd pr 1 t1 t0) plainNull fun c =>
    if bitAt w 1 then c.redInt w (fun _ => 0) fun n x y => (x + y) % 2 ^ n
    else redFloat (fun f => 2 ^ (f.w - 1)) (fun c f xs => addTree f c.mode (c.drawIn c.mode) (if f.w = 32 then 4 else 3) xs 0) (redFmt w) c := rfl
theorem exec_vredMax : exec (.vredMax pr w t1 t0) s = s.fire (tForm .vredMax pr 1 t1 t0) plainNull fun c =>
    if bitAt w 1 then c.redInt w (fun n => 2 ^ (n - 1)) maxSigned
    else redFloat (fun f => f.sign true f.infCode) (fun _ f => foldMinMax f true) (redFmt w) c := rfl
theorem exec_vredMin : exec (.vredMin pr w t1 t0) s = s.fire (tForm .vredMin pr 1 t1 t0) plainNull fun c =>
    if bitAt w 1 then c.redInt w (fun n => 2 ^ (n - 1) - 1) minSigned
    else redFloat (fun f => f.infCode) (fun _ f => foldMinMax f false) (redFmt w) c := rfl
end
theorem exec_of_type {i : Instr} {s : State} {f : Form} {onNull : Ctx → State} {p : Prop} [Decidable p] {x y : Ctx → Except Trap Fired}
    (he : exec i s = s.fire f onNull fun c => if p then x c else y c) (hp : p) : exec i s = s.fire f onNull x :=
  he.trans (congrArg _ (funext fun _ => if_pos hp))

/-- Settles O30: a permute takes each element from another, or from none; a reduction is its fold, over the units of null elements too. -/
theorem vectorPermutesAndReductions : Obligations.VectorPermutesAndReductions := by
  refine ⟨fun s pr w t1 t0 m a b c h hr ga => ⟨vbcast_permutes h hr ga, vunzip_permutes h hr ga, vnz_permutes h hr ga, vnzi_permutes h hr ga,
    viota_permutes h hr ga, fun gb => ⟨vshuf_permutes h hr ga gb, vzip_permutes h hr ga gb, vrot_permutes h hr ga gb,
      fun first => ⟨vcomp_permutes h hr ga gb first, vexpand_permutes h hr ga gb first⟩, vext_answers h hr ga gb,
      fun null => ⟨vrot_null h hr ga gb null, vext_null h hr ga gb null⟩, vins_null h hr ga gb, vins_permutes h hr ga gb⟩⟩,
    ?_, ?_, ?_, ?_, ?_, ?_, ?_, ?_, ?_, ?_, ?_⟩
  · exact reducesInts_of rfl rfl _ _ (fun _ _ _ _ _ => exec_of_type (exec_vredAdd ..)) (fun _ _ => zero_code) fun _ _ x y => (BitVec.toNat_add x y).symm
  · exact reducesInts_of rfl rfl _ _ (fun _ _ _ _ _ => exec_of_type (exec_vredMax ..)) (fun _ => intMin_code) fun _ _ => maxSigned_toNat
  · exact reducesInts_of rfl rfl _ _ (fun _ _ _ _ _ => exec_of_type (exec_vredMin ..)) (fun _ _ => intMax_code) fun _ _ => minSigned_toNat
  · exact reducesInts_of (row := .vredMaxn) rfl rfl (fun _ => 0) (fun _ => Nat.max) (fun _ _ _ _ _ _ => rfl) (fun _ _ => zero_code) fun _ _ => natMax_toNat
  · exact reducesInts_of (row := .vredMinn) rfl rfl (fun n => 2 ^ n - 1) (fun _ => Nat.min) (fun _ _ _ _ _ _ => rfl) (fun _ _ => allOnes_code)
      fun _ _ => natMin_toNat
  · exact reducesInts_of (row := .vredAnd) rfl rfl (fun n => 2 ^ n - 1) (fun _ x y => x &&& y) (fun _ _ _ _ _ _ => rfl) (fun _ _ => allOnes_code)
      fun _ _ x y => (BitVec.toNat_and x y).symm
  · exact reducesInts_of (row := .vredOr) rfl rfl (fun _ => 0) (fun _ x y => x ||| y) (fun _ _ _ _ _ _ => rfl) (fun _ _ => zero_code)
      fun _ _ x y => (BitVec.toNat_or x y).symm
  · exact reducesInts_of (row := .vredXor) rfl rfl (fun _ => 0) (fun _ x y => x ^^^ y) (fun _ _ _ _ _ _ => rfl) (fun _ _ => zero_code)
      fun _ _ x y => (BitVec.toNat_xor x y).symm
  · exact reducesFloats_of rfl rfl _ exec_vredAdd (by decide) fun _ _ _ _ _ _ => rfl
  · exact reducesFloats_of rfl rfl _ exec_vredMax (by decide) fun _ _ _ _ _ _ => rfl
  · exact reducesFloats_of rfl rfl _ exec_vredMin (by decide) fun _ _ _ _ _ _ => rfl

end Sys2Proof.Claims
end

section
/-! The obligations O32 and O33: VBAQ and VBFMT (R196, R201, R203), and online softmax (R204 to R206; logs 24, 25 and 70). -/

namespace Sys2Proof.Claims
open Sys2Proof.Machine

/-! ## Sums and conversions of blocks (R201, R203) -/

section
variable {s : State} {pr : BitVec 2} {t1 t0 : BitVec 9} {m : BitVec 16} {a b : Value} {k g : Hdr} (h : MayFire s) (hr : Runs s pr m)
  (ga : Given s 0 a) (gb : Given s 1 b) (ha : hdrOf a.bits = .ok k)
include h hr ga gb ha

theorem vbaq_result (hb : hdrOf b.bits = .ok g) : ∃ x, Frames (.vbaq pr t1 t0) s t1 t0 m [a, b] [a, b] [] x ∧
    (k = .poison ∨ g = .poison → x = .ok (0xFF, [0])) ∧ (k = .zero → g = .zero → x = .ok (0, [])) ∧
    ∀ code t sc, (k = .real code t sc ∧ (g = .zero ∨ ∃ code' u sc', g = .real code' u sc' ∧ u.width = t.width)) ∨
        (k = .zero ∧ g = .real code t sc) →
      x = .ok (summed s code t k g a.bits b.bits) := by
  refine ⟨_, frames_two (row := .vbaq) execVbaq (fun _ _ _ _ => rfl) (fun _ _ _ _ => rfl) rfl rfl h hr ga gb, ?_, ?_, ?_⟩ <;>
    rw [ctxOf_l, ctxOf_r, ha, hb]
  · rintro (rfl | rfl)
    · rfl
    · cases k <;> rfl
  · rintro rfl rfl
    rfl
  · rintro code t sc (⟨rfl, rfl | ⟨code', u, sc', rfl, same⟩⟩ | ⟨rfl, rfl⟩)
    · rfl
    · exact if_neg (not_not.2 same.symm)
    · rfl
theorem vbfmt_result {code : Nat} {ty : Option ElTy} (hb : fmtOperand b = .ok (code, ty)) :
    ∃ x, Frames (.vbfmt pr t1 t0) s t1 t0 m [a, b] [a] [b] x ∧ (k = .poison → x = .ok (0xFF, [0])) ∧
      (k = .zero → x = .ok (if code = 0xFF then 0xFF else 0, [])) ∧
      ∀ t c u sc, ty = some t → k = .real c u sc →
        x = .ok (requantised s code t ((List.range (min t.count u.count)).map (k.value a.bits))) := by
  refine ⟨_, frames_two (row := .vbfmt) execVbfmt (fun _ _ _ _ => rfl) (fun _ _ _ _ => rfl) rfl rfl h hr ga gb, ?_, ?_, ?_⟩ <;>
    rw [ctxOf_l, ctxOf_r, ha, hb]
  · rintro rfl
    rfl
  · rintro rfl
    rfl
  · rintro t c u sc rfl rfl
    rfl
end

/-- Settles O32: what VBAQ makes of the headers of two blocks, and VBFMT of that of one. -/
theorem blockArithmetic : Obligations.BlockArithmetic := by
  intro s pr t1 t0 m a b g k h hr ba ha
  refine ⟨fun bb hb => ?_, fun lb code ty hf => ?_⟩
  · obtain ⟨x, frame, poison, zero, sum⟩ := vbaq_result (t1 := t1) (t0 := t0) h hr ba.given bb.given ha hb
    have whole : ∀ v ∈ [a, b], v.valid = 0xFFFF := List.forall_mem_cons.2 ⟨ba.whole, bb.all⟩
    have answers_ {bits : V512} {evs : List Nat} := frame.ok whole (List.forall_mem_nil _) (b := bits) (evs := evs)
    exact ⟨fun p => answers_ (poison p), fun hk hg => answers_ (zero hk hg), fun code t sc hk hg => answers_ (sum code t sc (.inl ⟨hk, hg⟩)),
      fun code t sc hg hk => answers_ (sum code t sc (.inr ⟨hk, hg⟩))⟩
  · obtain ⟨x, frame, poison, zero, real⟩ := vbfmt_result (t1 := t1) (t0 := t0) h hr ba.given lb.given ha hf
    exact ⟨fun hk => frame.ok ba.all lb.all (poison hk), fun hk => frame.ok ba.all lb.all (zero hk),
      fun t c u sc ht hk => frame.ok ba.all lb.all (real t c u sc ht hk)⟩

/-! ## A row of the online softmax state (R204 to R206) -/

theorem rowOperand_eq {v : Value} {r : Nat} (hv : v.scalar = BitVec.ofNat 64 r) (hr : r ≤ 7) : rowOperand v = .ok r := by
  have number : v.scalar.toNat = r := by rw [hv, BitVec.toNat_ofNat, Nat.mod_eq_of_lt (by omega)]
  rw [rowOperand, number]
  exact if_neg (by omega)

theorem both_live {x y : Bool} (hx : x = true) (hy : y = true) : ¬ (!(x && y)) = true := by rw [hx, hy]; decide

section
variable {s : State} {pr : BitVec 2} {t1 t0 : BitVec 9} {m : BitVec 16} {a b c : Value} {r : Nat} (h : MayFire s) (hr : Runs s pr m)
  (ga : Given s 0 a) (gb : Given s 1 b) (gc : Given s 2 c)
include h hr ga gb gc

/-- A row operand with a null lane nulls the whole result. -/
theorem osm_noRow (null : scalarOk c = false) :
    exec (.osmStep pr t1 t0) s = .next (answers s t1 t0 (full 0 [a, b, c] 0) []) ∧
    exec (.osmNorm pr t1 t0) s = .next (answers s t1 t0 (full 0 [a, b, c] 0) []) := by
  exact ⟨(rfl : _ = execOsmStep pr t1 t0 s).trans ((Fires.triple (row := .osmStep) h hr ga gb gc rfl rfl).value (if_pos (row_null null))),
    (rfl : _ = execOsmNorm pr t1 t0 s).trans ((Fires.triple (row := .osmNorm) h hr ga gb gc rfl rfl).value (if_pos (row_null null)))⟩

variable (ok : scalarOk c = true) (row : c.scalar = BitVec.ofNat 64 r) (low : r ≤ 7)
include ok row low

/-- A row of which a lane is null stays null in STEP, and nulls the whole result of NORM. -/
theorem osm_nullRow (null : (bitAt a.valid (2 * r) && bitAt a.valid (2 * r + 1)) = false) :
    exec (.osmStep pr t1 t0) s = .next (answers s t1 t0 (full (a.valid &&& otherRows r) [a, b, c] a.bits) []) ∧
    exec (.osmNorm pr t1 t0) s = .next (answers s t1 t0 (full 0 [a, b, c] 0) []) := by
  have none_ : (!(bitAt a.valid (2 * r) && bitAt a.valid (2 * r + 1))) = true := by rw [null]; rfl
  refine ⟨(rfl : _ = execOsmStep pr t1 t0 s).trans
      ((Fires.triple (row := .osmStep) h hr ga gb gc rfl rfl).value ((if_neg (row_read ok)).trans ?_)),
    (rfl : _ = execOsmNorm pr t1 t0 s).trans
      ((Fires.triple (row := .osmNorm) h hr ga gb gc rfl rfl).value ((if_neg (row_read ok)).trans ?_))⟩
  all_goals
    rw [ctxOf_t, rowOperand_eq row low]
    exact if_pos none_

variable (live : bitAt a.valid (2 * r) = true) (live' : bitAt a.valid (2 * r + 1) = true)
include live live'

theorem osmStep_row :
    let xs := ((List.range 16).filter fun j => bitAt (b.valid &&& m) j).map fun j => (b.lane j).toNat
    let new := osmRow (a.lane (2 * r)).toNat (a.lane (2 * r + 1)).toNat xs
    ∃ bits, exec (.osmStep pr t1 t0) s = .next (answers s t1 t0 (full (a.valid &&& (m ||| otherRows r)) [a, b, c] bits) new.2.2) ∧
      (bitsAt bits (64 * r) 32 : W32) = BitVec.ofNat 32 new.1 ∧ (bitsAt bits (64 * r + 32) 32 : W32) = BitVec.ofNat 32 new.2.1 ∧
      ∀ l, l < 16 → l / 2 ≠ r → (bitsAt bits (32 * l) 32 : W32) = a.lane l := by
  intro xs new
  refine ⟨setBits (setBits a.bits (64 * r) 32 new.1) (64 * r + 32) 32 new.2.1, ?_, ?_, ?_, fun l hl other => ?_⟩
  · refine (rfl : _ = execOsmStep pr t1 t0 s).trans
      ((Fires.triple (row := .osmStep) h hr ga gb gc rfl rfl).ok ((if_neg (row_read ok)).trans ?_) rfl h.admitted)
    rw [ctxOf_t, rowOperand_eq row low]
    exact if_neg (both_live live live')
  · rw [bitsAt_setBits_apart _ _ (by omega) (.inl (by omega)), bitsAt_setBits_same _ _ (by omega)]
  · rw [bitsAt_setBits_same _ _ (by omega)]
  · rw [bitsAt_setBits_apart _ _ (by omega) (by omega), bitsAt_setBits_apart _ _ (by omega) (by omega)]
    rfl
theorem osmNorm_row :
    let x := fun j => osmQuot (f32.decode (b.lane j).toNat) (f32.decode (a.lane (2 * r)).toNat) (f32.decode (a.lane (2 * r + 1)).toNat)
    ∃ bits, exec (.osmNorm pr t1 t0) s = .next (answers s t1 t0 (full (b.valid &&& m) [a, b, c] bits)
        ((List.range 16).flatMap fun j => if bitAt (b.valid &&& m) j then (x j).2 else [])) ∧
      ∀ j, j < 16 → bitAt (b.valid &&& m) j = true → (bitsAt bits (32 * j) 32 : W32) = BitVec.ofNat 32 (x j).1 := by
  intro x
  refine ⟨ofElems 32 (((List.range 16).map fun j => if bitAt (b.valid &&& m) j then x j else (0, [])).map Prod.fst), ?_, fun j hj ok => ?_⟩
  · have events : (((List.range 16).map fun j => if bitAt (b.valid &&& m) j then x j else (0, [])).map Prod.snd).flatten =
        (List.range 16).flatMap fun j => if bitAt (b.valid &&& m) j then (x j).2 else [] := by
      rw [List.map_map, ← List.flatMap_def]
      exact List.flatMap_congr fun l _ => apply_ite Prod.snd ..
    rw [← events]
    refine (rfl : _ = execOsmNorm pr t1 t0 s).trans
      ((Fires.triple (row := .osmNorm) h hr ga gb gc rfl rfl).ok ((if_neg (row_read ok)).trans ?_) rfl h.admitted)
    rw [ctxOf_t, rowOperand_eq row low]
    exact if_neg (both_live live live')
  · rw [bitsAt_ofElems _ (by omega)]
    simp [hj, ok]
end

/-- Settles O33: a null row operand, a row with a null lane, and a row that OSM.STEP replaces and OSM.NORM divides by. -/
theorem onlineSoftmax : Obligations.OnlineSoftmax :=
  fun _ _ _ _ _ _ _ _ _ h hr ga gb gc => ⟨osm_noRow h hr ga gb gc, osm_nullRow h hr ga gb gc,
    fun ok row low live live' => ⟨osmStep_row h hr ga gb gc ok row low live live', osmNorm_row h hr ga gb gc ok row low live live'⟩⟩

end Sys2Proof.Claims
end

section
/-! SUPPORT. The operands of the synchronisation group that its checks let through (R38, R43, R211, R229). -/

namespace Sys2Proof.Claims
open Sys2Proof.Machine

/-! ## Checks in a row -/

/-- A check that passes is followed by the rest. -/
theorem bind_of_ok {α β : Type} {x : Except Trap α} {f : α → Except Trap β} {a : α} {y : Except Trap β} (h : x = .ok a) (g : f a = y) :
    x >>= f = y := h ▸ g

/-! ## Addresses and capabilities without bounds (R23, R37) -/

/-- A local address is made of its core and its offset. -/
theorem localAddr_parts (a : Word) : localAddr (coreOf a) (offsetOf a) = a := by
  rw [localAddr, coreOf, offsetOf, Nat.div_add_mod', BitVec.ofNat_toNat, BitVec.setWidth_eq]
/-- The fields of bounds that are all zero. -/
theorem append_boundless (x : BitVec 16) : x ++ 0#16 ++ 0#6 ++ 0#13 ++ 0#13 = x ++ 0#48 := by
  apply BitVec.eq_of_toNat_eq
  simp only [BitVec.toNat_append, BitVec.toNat_ofNat, Nat.zero_mod, Nat.or_zero, ← Nat.shiftLeft_add]
theorem capValue_objectCap (kind perms : Nat) (a : Word) :
    capValue (mkCap kind perms 0 0 0 0 a) = objectCap (BitVec.ofNat 4 kind) (BitVec.ofNat 12 perms) a := by
  rw [mkCap_fields, objectCap, ← append_boundless]
  rfl

section
variable {s : State} {row : Row} {m : BitVec 16} {v l r t : Value} {q : Nat}

theorem scope_eq : (ctxOf s row l r t m).scope = scopeOf s := by
  unfold Ctx.scope scopeOf
  rw [numAt_eq_bitsAt]
  rfl

/-! ## Operands let through (R38, R43, R211) -/

theorem noCore_false {n : Nat} (h : InLodging s n) : (ctxOf s row l r t m).noCore n = false := Option.isNone_eq_false_iff.2 h
/-- A place of the own S store (R211, R272, R281). -/
theorem checkOwnS_ok {perm align n : Nat} (h : Local s v .s perm align n v.scalar) :
    (ctxOf s row l r t m).checkOwnS v perm align n = .ok (offsetOf v.scalar) := by
  have kind : capKind v.cap = 5 := by rw [capKind_bits, h.kind]; rfl
  have core : coreOf v.scalar = logicalOf s := h.core
  have inside : ¬ 0xC000 < offsetOf v.scalar + n := Nat.not_lt.2 h.inside
  have bounds : capInBounds v.cap v.scalar.toNat n = true := by
    rw [capInBounds, capBase_eq, capLimit_eq]
    simp [h.low, h.high]
  simp [Ctx.checkOwnS, h.tagged, kind, h.permits, capHas, capAddr_eq, addrCore_eq, addrOff_eq, core, h.aligned, bounds, inside]
/-- An object of the lodging (R43). -/
theorem checkObject_ok {kind : Nat} {ps : List Nat} (h : Object s q kind ps v) :
    (ctxOf s row l r t m).checkObject v kind ps = .ok v.scalar := by
  obtain ⟨p, hp, permits⟩ := h.permits
  have any : (ps.any fun p => capHas v.cap p) = true := List.any_eq_true.2 ⟨p, hp, permits⟩
  simp [Ctx.checkObject, h.capability.tagged, h.capability.kind, any, capAddr_eq, addrCore_eq, noCore_false h.core]
end

theorem phase_asksToo {s : State} (a : Ask) : (blkOf (asksToo s a)).phase = (blkOf s).phase := phase_updBlk ..

/-! ## An instruction whose value comes with an answer (R267) -/

/-- The effect of such an instruction goes on: it has fired, and its values travel with the answer. -/
theorem Fires.later {s : State} {f : Form} {pr : BitVec 2} {m : BitVec 16} {l r t : Value} {act : Ctx → Except Trap State}
    (h : Fires s f pr m l r t) {s' : State} (ha : act (ctxOf s f.row l r t m) = .ok s') (hh : s'.here = s.here) :
    s.fireLater f act = .next (awaits s') := by
  obtain ⟨may, runs, mode, whole, rfl, rfl, rfl, usable, below⟩ := h
  obtain ⟨told, run⟩ := readPred_eq runs
  rw [← mode] at told run
  have hc := ctx_eq f may (whole.l.imp id fun ⟨v, hv, _⟩ => by simp [hv]) (whole.r.imp id fun ⟨v, hv, _⟩ => by simp [hv])
    (whole.x.imp id fun ⟨v, hv, _⟩ => by simp [hv]) told below
  have hb : f.brokenWhole (seen s f).l (seen s f).r (seen s f).t = false := usable
  have ha' : act { seen s f with mask := m } = .ok s' := ha
  unfold State.fireLater
  simp only [hc, run, whole.notNull, hb, ha', Bool.false_eq_true, if_false]
  unfold awaits indexOf
  rw [hh]
  rfl

end Sys2Proof.Claims
end

section
/-! The obligation O35: counters and receipts (R211, R272 to R276; what a block asks for its commit: log 9). -/

namespace Sys2Proof.Claims
open Sys2Proof.Machine

section
variable {s : State} {pr : BitVec 2} {m : BitVec 16} {v n k e w i j : Value} (h : MayFire s) (hr : Runs s pr m)
include h hr

theorem ctrNew_creates (t1 t0 : BitVec 9) (hv : Local s v .s 122 16 16 v.scalar) (hn : Number s 1 n) (hk : Number s 2 k) :
    exec (.ctrNew pr t1 t0) s =
      .next (answers (keep s (.ctrNew (offsetOf v.scalar) n.scalar k.scalar (scopeOf s))) t1 t0 (objectCap 7 0x018 v.scalar) []) := by
  show execCtrNew pr t1 t0 s = _
  have fires : Fires s (wForm .ctrNew pr 3 4 2 2 t1 t0) pr m v n k :=
    .three h hr rfl rfl hv.reads.given (.inr hv.reads.whole) hn.given (.inr hn.reads.whole) hk.given (.inr hk.reads.whole)
      (by simp [Form.brokenWhole, wForm, hv.tagged, hn.usable, hk.usable]) rfl
  have usable : noBroken [n, k] = .ok () := noBroken_ok (by simp [hn.usable, hk.usable])
  have made : capValue (mkCap 7 0x18 0 0 0 0 (localAddr (logicalOf s) (offsetOf v.scalar))) = objectCap 7 0x018 v.scalar := by
    rw [← hv.core, capValue_objectCap]
    exact congrArg _ (localAddr_parts v.scalar)
  refine fires.ok (bind_of_ok (checkOwnS_ok hv) (bind_of_ok usable ?_)) rfl ((phase_keep _).trans h.admitted)
  rw [← made, ← scope_eq]
  rfl
theorem ctrDec_keeps (hv : Object s 0 7 [115] v) (hn : Number s 1 n) :
    exec (.ctrDec pr) s = .next (done (keep s (.ctrDec v.scalar n.scalar (scopeOf s)))) := by
  show execCtrDec pr s = _
  refine (Fires.twoWhole h hr rfl rfl hv.capability.reads hn.reads).keeps (bind_of_ok (checkObject_ok hv) (bind_of_ok (checkScalar_ok hn.usable) ?_))
  rw [← scope_eq]
  rfl
theorem ctrBind_keeps (hv : Object s 0 7 [115] v) (he : Capability s 1 12 [118] e) (hw : Number s 2 w) : exec (.ctrBind pr) s =
    .next (done (asksToo (asks (keep s (.ctrBind v.scalar e.cap w.scalar)) (.bindInfo v.scalar)) (.entry e.cap))) := by
  show execCtrBind pr s = _
  have usable : noBroken [v, e, w] = .ok () := noBroken_ok (by simp [hv.capability.tagged, he.tagged, hw.usable])
  refine (Fires.threeWhole h hr rfl rfl hv.capability.reads he.reads hw.reads).silent (bind_of_ok usable
    (bind_of_ok (checkObject_ok hv) (bind_of_ok (checkCap_ok he) rfl))) rfl ?_
  rw [phase_asksToo, phase_asks, phase_keep]
  exact h.admitted
theorem ctrSplit_keeps (hi : Number s 0 i) (hj : Number s 1 j) (hn : Number s 2 n) :
    exec (.ctrSplit pr) s = .next (done (keep s (.ctrSplit i.scalar j.scalar n.scalar))) := by
  show execCtrSplit pr s = _
  have usable : noBroken [i, j, n] = .ok () := noBroken_ok (by simp [hi.usable, hj.usable, hn.usable])
  exact (Fires.threeWhole h hr rfl rfl hi.reads hj.reads hn.reads).keeps (bind_of_ok usable rfl)
theorem ctrStat_asks (t1 t0 : BitVec 9) (hv : Object s 0 7 [116, 115] v) :
    exec (.ctrStat pr t1 t0) s = .next (awaits (asks s (.stat v.scalar))) := by
  show execCtrStat pr t1 t0 s = _
  have fires : Fires s (wForm .ctrStat pr 1 4 0 0 t1 t0) pr m v ((opnd s 1).getD default) ((opnd s 2).getD default) :=
    .one h hr rfl rfl rfl hv.capability.given (.inr hv.capability.reads.whole)
      (fun _ _ => by simp [Form.brokenWhole, wForm, hv.capability.tagged]) (.inl rfl)
  exact fires.later (bind_of_ok (checkObject_ok hv) rfl) rfl
theorem rarm_keeps (hv : Local s v .s 122 16 16 v.scalar) (hn : Number s 1 n) :
    exec (.rarm pr) s = .next (done (keep s (.rarm (offsetOf v.scalar) n.scalar))) := by
  show execRarm pr s = _
  exact (Fires.twoWhole h hr rfl rfl hv.reads hn.reads).keeps (bind_of_ok (checkOwnS_ok hv) (bind_of_ok (checkScalar_ok hn.usable) rfl))
end

/-- Settles O35: each instruction is a firing whose checks let its operands through and whose effect keeps the act, or asks. -/
theorem countersAndReceiptsFire : Obligations.CountersAndReceiptsFire :=
  fun _ _ _ h hr => ⟨fun t1 t0 _ _ _ hv hn hk => ctrNew_creates h hr t1 t0 hv hn hk, fun _ _ hv hn => ctrDec_keeps h hr hv hn,
    fun _ _ _ hv he hw => ctrBind_keeps h hr hv he hw, fun _ _ _ hi hj hn => ctrSplit_keeps h hr hi hj hn,
    fun t1 t0 _ hv => ctrStat_asks h hr t1 t0 hv, fun _ _ hv hn => rarm_keeps h hr hv hn⟩

end Sys2Proof.Claims
end

section
/-! The obligation O36: WAIT on a receipt, of a core that its lodging does not list (R43, R212, R229). -/

namespace Sys2Proof.Claims
open Sys2Proof.Machine

/-- A receipt at offset 0 of the S store of core 0, with load. -/
def firstReceipt : Value := capValue (mkCap 5 0x800 0 0 0 16 0)
/-- A machine whose lodging 0 lists no core, and a block of core 0 whose first instruction has that receipt in L. -/
def unlistedState : State :=
  let blk := { (default : Blk) with phase := 2, words := [0], slots := [(0, some firstReceipt)] }
  { State.reset with cores := [(0, { (default : Core) with slots := [(0, { (default : Slot) with blk := blk })] })] }

theorem unlistedState_mayFire : MayFire unlistedState where
  admitted := rfl
  free := rfl
  powered := rfl
  inBlock := by decide
  unfired := rfl
theorem firstReceipt_given : Given unlistedState 0 firstReceipt := ⟨rfl, rfl⟩
theorem firstReceipt_local : Local unlistedState firstReceipt .s 123 16 16 firstReceipt.scalar where
  given := firstReceipt_given
  whole := by decide
  tagged := rfl
  kind := by decide
  permits := by decide
  core := by decide
  aligned := by decide
  low := by decide
  high := by decide
  inside := by decide
/-- WAIT refuses the core's own receipt: the core that it lies on is none of the lodging. -/
theorem unlistedState_wait : exec (.wait 0 0) unlistedState = .next (traps unlistedState (trapLodging (coreOf firstReceipt.scalar))) :=
  have refused {row : Row} {m : BitVec 16} {r t : Value} : (ctxOf unlistedState row firstReceipt r t m).waitObject =
      .error (trapLodging (coreOf firstReceipt.scalar)) := waitObject_outside rfl (.inl (by decide)) rfl
  (wait_faults unlistedState_mayFire .always firstReceipt_given (by decide) 0 rfl (by decide) fun _ _ _ => refused).1

/-- Refutes O36: the statement asks of a receipt that it lie on the core that fires (`Local`), not that this core be one of its lodging, as it asks
of every other object (`InLodging`), and nothing else that it assumes says so. In a lodging that does not list its core WAIT faults LODGING on
the receipt, and the block is gone, where the statement has it fire and its block go on. -/
theorem not_claimsAndWaitsFire : ¬ Obligations.ClaimsAndWaitsFire := by
  intro h
  have waits := ((h unlistedState 0 0xFFFF unlistedState_mayFire .always).2.2 0 firstReceipt rfl).1 firstReceipt_local
  injection unlistedState_wait.symm.trans waits.1 with same
  have ended : (blkOf (traps unlistedState (trapLodging (coreOf firstReceipt.scalar)))).phase = 0 := congrArg Blk.phase (blk_takeTrap ..)
  rw [same] at ended
  exact absurd ended (by decide)

end Sys2Proof.Claims
end

section
/-! SUPPORT. The operands of engine commands (R212): what lets them through, beside a store class and a matrix unit, and the first that fails. -/

namespace Sys2Proof.Claims
open Sys2Proof.Machine

section
variable {s : State} {row : Row} {m : BitVec 16} {l r t v d x : Value} {q n : Nat} {kinds ps : List Nat}

/-! ## Operands let through -/

/-- Step 4 of R212 beside a matrix unit, which the named core must have (R44, R425). -/
theorem engPerm_matrix {o : EngOp} (ho : (ctxOf s row l r t m).engPerm { o with matrix := false } = true)
    (hm : o.matrix = true → ∃ k, s.router (lodgingOf s) (coreOf o.v.scalar) = some k ∧ k < 4096) :
    (ctxOf s row l r t m).engPerm o = true := by
  have rest : (!o.matrix || match s.router (lodgingOf s) (addrCore (capAddr o.v.cap)) with | some k => k < 4096 | none => true) = true := by
    cases hb : o.matrix
    · rfl
    · obtain ⟨k, router, small⟩ := hm hb
      rw [capAddr_eq, addrCore_eq, router]
      simpa using small
  rw [Ctx.engPerm, Bool.and_eq_true] at ho ⊢
  exact ⟨ho.1, rest⟩
/-- An operand that R212 lets through, of a kind that its store table does not exclude. -/
theorem EngineCap.allowed {o : EngOp} (h : EngineCap s q o.kinds o.perms o.v) (own : o.own = true → coreOf o.v.scalar = logicalOf s)
    (class_ : ∀ k ∈ o.kinds, k ∉ o.storeClass)
    (unit : o.matrix = true → ∃ k, s.router (lodgingOf s) (coreOf o.v.scalar) = some k ∧ k < 4096) : EngineAllows (ctxOf s row l r t m) o :=
  { EngineCap.allows (o := { o with storeClass := [], matrix := false }) (row := row) (l := l) (r := r) (t := t) (m := m) h own rfl rfl with
    class_ := class_ _ h.kind
    permits := engPerm_matrix (engPerm_of h.permits (.inr fun hl => (h.engine ((engOp_isLocal_iff o).1 hl)).1) own rfl) unit }
theorem porterSource_allows (h : EngineCap s 0 [1, 10, 2, 3, 4, 5] [123] v) :
    EngineAllows (ctxOf s row l r t m) { v := v, kinds := [1, 10, 2, 3, 4, 5], perms := [pLoad] } :=
  EngineCap.allowed (o := { v := v, kinds := [1, 10, 2, 3, 4, 5], perms := [pLoad] }) h nofun (by simp) nofun
theorem porterTarget_allows (h : EngineCap s 1 [1, 10, 2, 3, 5] [122] d) :
    EngineAllows (ctxOf s row l r t m) { v := d, kinds := [1, 10, 2, 3, 5], storeClass := [4], perms := [pStore] } :=
  EngineCap.allowed (o := { v := d, kinds := [1, 10, 2, 3, 5], storeClass := [4], perms := [pStore] }) h nofun (by simp) nofun
/-- The operands of CPY and TILE (R216, R219). -/
theorem porterOps_ok (hv : EngineCap s 0 [1, 10, 2, 3, 4, 5] [123] v) (hd : EngineCap s 1 [1, 10, 2, 3, 5] [122] d) (hx : Receipt s 2 n x) :
    (ctxOf s row l r t m).checkEngine (porterOps v d x) = .ok () :=
  checkEngine_ok (by simpa [porterOps] using ⟨porterSource_allows hv, porterTarget_allows hd, hx.allows⟩)

/-! ## The first operand that fails -/

/-- What step 2 of R212 refuses: another tag than CAP, or a kind of no column of the table. -/
def EngineTagged (o : EngOp) : Prop := o.v.tag = .cap ∧ capKind o.v.cap ∈ o.kinds ++ o.storeClass
theorem EngineAllows.isTagged {c : Ctx} {o : EngOp} (h : EngineAllows c o) : EngineTagged o := ⟨h.tagged, List.mem_append_left _ h.kind⟩
theorem findTag_none {ops : List EngOp} (h : ∀ o ∈ ops, EngineTagged o) :
    (ops.find? fun o => o.v.tag != .cap || !((o.kinds ++ o.storeClass).contains (capKind o.v.cap))) = none :=
  List.find?_eq_none.2 fun o ho => by
    obtain ⟨tag, kind⟩ := h o ho
    simp [tag, List.mem_append.1 kind]
theorem tagged_usable {ops : List EngOp} (h : ∀ o ∈ ops, o.v.tag = .cap) : noBroken (ops.map EngOp.v) = .ok () :=
  noBroken_ok fun v hv => by
    obtain ⟨o, ho, rfl⟩ := List.mem_map.1 hv
    simp [h o ho]

variable {c : Ctx} {pre post : List EngOp} {o : EngOp}
/-- TAG: a kind of no column of the table, behind operands that are tagged (R212 step 2). -/
theorem checkEngine_tag (caps : ∀ o' ∈ pre ++ o :: post, o'.v.tag = .cap) (hpre : ∀ o' ∈ pre, EngineTagged o')
    (ho : capKind o.v.cap ∉ o.kinds ++ o.storeClass) : c.checkEngine (pre ++ o :: post) = .error (trapCap tTag o.v.cap) := by
  have first : ((pre ++ o :: post).find? fun o => o.v.tag != .cap || !((o.kinds ++ o.storeClass).contains (capKind o.v.cap))) = some o := by
    rw [List.find?_append, findTag_none hpre, Option.none_or]
    exact List.find?_cons_of_pos (by simpa [not_or] using .inr (by simpa using ho))
  unfold Ctx.checkEngine
  rw [tagged_usable caps, first]
  rfl
/-- STORE_CLASS: a store that the table excludes, behind operands that it does not (R212 step 3). -/
theorem checkEngine_storeClass (tagged : ∀ o' ∈ pre ++ o :: post, EngineTagged o') (hpre : ∀ o' ∈ pre, capKind o'.v.cap ∉ o'.storeClass)
    (ho : capKind o.v.cap ∈ o.storeClass) : c.checkEngine (pre ++ o :: post) = .error (trapCap tStoreClass o.v.cap) := by
  have first : ((pre ++ o :: post).find? fun o => o.storeClass.contains (capKind o.v.cap)) = some o := by
    rw [List.find?_append, List.find?_eq_none.2 fun o' h => by simpa using hpre o' h, Option.none_or]
    exact List.find?_cons_of_pos (by simpa using ho)
  unfold Ctx.checkEngine
  rw [tagged_usable fun o' h => (tagged o' h).1, findTag_none tagged, first]
  rfl
/-- PERM or LODGING of an operand, behind operands that have their permissions and cores (R43, R212 step 4). -/
theorem checkEngine_refused (tagged : ∀ o' ∈ pre ++ o :: post, EngineTagged o')
    (classes : ∀ o' ∈ pre ++ o :: post, capKind o'.v.cap ∉ o'.storeClass) (hpre : ∀ o' ∈ pre, EngineAllows c o')
    (ho : c.engPerm o = false ∨ c.engNoCore o = true) : c.checkEngine (pre ++ o :: post) =
      .error (if c.engNoCore o then trapLodging (addrCore (capAddr o.v.cap)) else trapCap tPerm o.v.cap) := by
  have noClass : ((pre ++ o :: post).find? fun o => o.storeClass.contains (capKind o.v.cap)) = none :=
    List.find?_eq_none.2 fun o' h => by simpa using classes o' h
  have first : ((pre ++ o :: post).find? fun o => !c.engPerm o || c.engNoCore o) = some o := by
    rw [List.find?_append, List.find?_eq_none.2 fun o' h => by simp [(hpre o' h).permits, (hpre o' h).core], Option.none_or]
    exact List.find?_cons_of_pos (by simpa using ho)
  unfold Ctx.checkEngine
  rw [tagged_usable fun o' h => (tagged o' h).1, findTag_none tagged, noClass, first]
  rfl
end

/-! ## MMA and MZERO (R224, R225) -/

section
variable {s : State} {row : Row} {m : BitVec 16} {v w x : Value} {off r : Nat}

/-- The offset of the tile in C, of both kinds of capability. -/
def tileAddress (v w : Value) : Nat :=
  if capKind v.cap = 9 then 0x2000 * numAt w.scalar 16 4 else (capAddr v.cap).toNat + 0x2000 * numAt w.scalar 16 4

theorem CTile.kinds {t : Nat} (h : CTile s v t off r) : capKind v.cap = 4 ∨ capKind v.cap = 9 := by simpa using h.capability.kind
theorem CTile.aligned (h : CTile s v (numAt w.scalar 16 4) off r) : tileAddress v w % 0x2000 = 0 := by
  unfold tileAddress
  obtain kind | kind := h.kinds
  · obtain ⟨-, -, aligned, -⟩ := h.window kind
    simpa [kind, capAddr_eq] using aligned
  · simp [kind]
theorem CTile.offset (h : CTile s v (numAt w.scalar 16 4) off r) : tileAddress v w % 2 ^ 52 = off := by
  unfold tileAddress
  obtain kind | kind := h.kinds
  · obtain ⟨-, -, -, -, offset⟩ := h.window kind
    simp [kind, capAddr_eq, offset]
  · have small : numAt w.scalar 16 4 < 16 := Nat.mod_lt _ (by decide)
    rw [if_pos kind, (h.tile kind).2, Nat.mod_eq_of_lt (by omega)]
/-- A range of a bounded capability, at an address of its own (R26, R39). -/
theorem rangeOk_at {a n : Nat} (h : RangeIn v a n) : rangeOk v.cap a n = true := by
  obtain ⟨lo, hi, inside⟩ := h
  have offset : offsetOf (BitVec.ofNat 64 a) = a % 2 ^ 52 := by
    rw [offsetOf, BitVec.toNat_ofNat, Nat.mod_mod_of_dvd _ (by decide)]
  rw [rangeOk, capInBounds, capBase_eq, capLimit_eq, not_pastEnd (by simpa only [offset] using inside)]
  simp [lo, hi]
theorem CTile.inRange (h : CTile s v (numAt w.scalar 16 4) off r) (kind : capKind v.cap = 4) :
    rangeOk v.cap (tileAddress v w) 0x2000 = true := by
  obtain ⟨-, -, -, range, -⟩ := h.window kind
  unfold tileAddress
  simpa [kind, capAddr_eq] using rangeOk_at range
theorem Tile.ops (h : Tile s v w x off r) (l r' t : Value) : (ctxOf s row l r' t m).checkEngine
    [{ v := v, kinds := [4, 9], perms := if capKind v.cap = 4 then [pLoad, pStore] else [], matrix := true }, receiptOp x] = .ok () := by
  have permits : ∀ p ∈ (if capKind v.cap = 4 then [pLoad, pStore] else []), bitAt v.cap p = true := by
    split
    · next kind =>
      obtain ⟨load, store, -⟩ := h.tile.window kind
      simpa [pLoad, pStore] using ⟨load, store⟩
    · simp
  have tile : EngineAllows (ctxOf s row l r' t m)
      { v := v, kinds := [4, 9], perms := if capKind v.cap = 4 then [pLoad, pStore] else [], matrix := true } :=
    EngineCap.allowed (o := { v := v, kinds := [4, 9], perms := if capKind v.cap = 4 then [pLoad, pStore] else [], matrix := true })
      { h.tile.capability with permits := permits } nofun (by simp) fun _ => ⟨r, h.tile.unit⟩
  exact checkEngine_ok (by simpa using ⟨tile, h.receipt.allows⟩)

/-- Behind their operands, MMA and MZERO fault SHAPE for a wrong count or keep their command. -/
theorem matrix_eq (h : Tile s v w x off r) (isMma : Bool) : (ctxOf s row v w x m).matrix isMma =
    if (isMma && numAt w.scalar 0 12 = 0) || (!isMma && (numAt w.scalar 0 12 ≠ 0 || bitAt w.scalar 12)) then .error (trap tShape)
    else (ctxOf s row v w x m).silent (keep s (.engine (.matrix (matrixOf s isMma w x off r)) (offsetOf x.scalar))) := by
  have usable : noBroken [v, w, x] = .ok () :=
    noBroken_ok (by simp [h.tile.capability.tagged, h.word.usable, h.receipt.capability.tagged])
  have named : ¬ (capKind v.cap = 9 && !bitAt v.cap (96 + numAt w.scalar 16 4)) = true := by
    intro hc
    obtain ⟨kind, bit⟩ := Bool.and_eq_true_iff.1 hc
    simp [(h.tile.tile (of_decide_eq_true kind)).1] at bit
  have range : ¬ (capKind v.cap = 4 && !rangeOk v.cap (tileAddress v w) 0x2000) = true := by
    intro hc
    obtain ⟨kind, outside⟩ := Bool.and_eq_true_iff.1 hc
    simp [h.tile.inRange (of_decide_eq_true kind)] at outside
  have home : (ctxOf s row v w x m).home (capAddr v.cap) = some r := by
    rw [capAddr_eq, Ctx.home, addrCore_eq]
    exact h.tile.unit.1
  have shape : (numAt w.scalar 20 44 ≠ 0 || numAt w.scalar 13 3 ≠ 0 || (isMma && numAt w.scalar 0 12 = 0)
      || (!isMma && (numAt w.scalar 0 12 ≠ 0 || bitAt w.scalar 12))) =
      ((isMma && numAt w.scalar 0 12 = 0) || (!isMma && (numAt w.scalar 0 12 ≠ 0 || bitAt w.scalar 12))) := by simp [h.zeros]
  unfold Ctx.matrix
  refine bind_of_ok usable (bind_of_ok (h.ops ..) ((if_neg named).trans ((if_neg (not_not_intro h.tile.aligned)).trans
    (bind_of_ok (receiptAligned_ok h.receipt) ((if_neg range).trans (bind_of_ok (receiptBounds_ok h.receipt) ?_))))))
  refine if_congr (iff_of_eq (congrArg (· = true) shape)) rfl ?_
  rw [← h.tile.offset]
  simp only [ctxOf_l, home]
  rfl
end

end Sys2Proof.Claims
end

section
/-! The obligation O40: engine commands keep their command, and MSTAT answers (R212 to R228). -/

namespace Sys2Proof.Claims
open Sys2Proof.Machine

section
variable {s : State} {pr : BitVec 2} {m : BitVec 16} {v w d x : Value} {off r : Nat} (h : MayFire s) (hr : Runs s pr m)
include h hr

/-! ## The porter's commands (R216, R219) -/

theorem cpy_keeps (hv : EngineCap s 0 [1, 10, 2, 3, 4, 5] [123] v) (hd : EngineCap s 1 [1, 10, 2, 3, 5] [122] d) (hx : Receipt s 2 16 x)
    (order : d.scalar.toNat ≤ baseOf d.cap + lengthOf d.cap) (av : v.scalar.toNat % 16 = 0) (ad : d.scalar.toNat % 16 = 0)
    (an : windowSize d % 16 = 0) (rv : RangeIn v v.scalar.toNat (windowSize d)) (rd : RangeIn d d.scalar.toNat (windowSize d)) :
    exec (.cpy pr) s = .next (done (keep s (.engine (.porter (copyOf s v d (windowSize d) (offsetOf x.scalar))) (offsetOf x.scalar)))) := by
  show execCpy pr s = _
  refine (Fires.threeWhole h hr rfl rfl hv.reads hd.reads hx.capability.reads).keeps (bind_of_ok (porterOps_ok hv hd hx) ((if_neg ?_).trans
    ((if_neg ?_).trans (bind_of_ok (receiptAligned_ok hx) ((if_neg ?_).trans ((if_neg ?_).trans (bind_of_ok (receiptBounds_ok hx) ?_)))))))
  · simpa [capAddr_eq] using av
  · simpa [capAddr_eq, capRest_eq, an] using ad
  · rw [ctxOf_l, ctxOf_r, capRest_eq, rangeOk_of rv]
    decide
  · rw [ctxOf_r, capRest_eq, rangeOk_of rd, capLimit_eq, capAddr_eq]
    simpa using order
  · simp only [ctxOf_l, ctxOf_r, Ctx.porterCmd, capRest_eq, memAddr_eq, capAddr_eq]
    rfl
theorem tile_keeps (hv : EngineCap s 0 [1, 10, 2, 3, 4, 5] [123] v) (hd : EngineCap s 1 [1, 10, 2, 3, 5] [122] d) (hx : Receipt s 2 64 x) :
    exec (.tile pr) s = .next (done (keep s (.tile v.cap d.cap (offsetOf x.scalar)))) := by
  show execTile pr s = _
  exact (Fires.threeWhole h hr rfl rfl hv.reads hd.reads hx.capability.reads).keeps
    (bind_of_ok (porterOps_ok hv hd hx) (bind_of_ok (receiptAligned_ok hx) (bind_of_ok (receiptBounds_ok hx) rfl)))

/-! ## The matrix unit's commands (R222 to R225) -/

omit h hr in
/-- FEED.a and FEED.b keep their window. -/
theorem feed_ok {row : Row} {r' t : Value} (isB : Bool) (hv : Window s (if isB then 2 else 3) v r) : (ctxOf s row v r' t m).feed isB =
    (ctxOf s row v r' t m).silent (keep s (.effect (.feed r isB (offsetOf v.scalar) (offsetOf v.scalar + windowSize v)))) := by
  have allows : EngineAllows (ctxOf s row v r' t m)
      { v := v, kinds := [if isB then 2 else 3], storeClass := [5 - if isB then 2 else 3], perms := [pLoad], matrix := true } :=
    EngineCap.allowed (o := { v := v, kinds := [if isB then 2 else 3], storeClass := [5 - if isB then 2 else 3], perms := [pLoad], matrix := true })
      hv.capability nofun (by cases isB <;> simp) fun _ => ⟨r, hv.unit⟩
  have home : (ctxOf s row v r' t m).home v.scalar = some r := by
    rw [Ctx.home, addrCore_eq]
    exact hv.unit.1
  unfold Ctx.feed
  refine bind_of_ok (checkEngine_ok (by simpa using allows)) ((if_neg ?_).trans ((if_neg ?_).trans ?_))
  · simp [capAddr_eq, capLimit_eq, hv.aligned]
  · have range : rangeOk v.cap v.scalar.toNat (windowSize v) = true := rangeOk_at hv.range
    simpa [capAddr_eq, capLimit_eq, windowSize, range] using ⟨hv.order, range⟩
  · simp only [ctxOf_l, capAddr_eq, capLimit_eq, home, addrOff_eq]
    rfl
theorem feedA_keeps (hv : Window s 3 v r) :
    exec (.feedA pr) s = .next (done (keep s (.effect (.feed r false (offsetOf v.scalar) (offsetOf v.scalar + windowSize v))))) := by
  show execFeedA pr s = _
  exact (Fires.one h hr rfl rfl rfl hv.capability.given (.inr hv.capability.reads.whole)
    (fun _ _ => by simp [Form.brokenWhole, nForm, hv.capability.tagged]) (.inl rfl)).keeps (feed_ok false hv)
theorem feedB_keeps (hv : Window s 2 v r) :
    exec (.feedB pr) s = .next (done (keep s (.effect (.feed r true (offsetOf v.scalar) (offsetOf v.scalar + windowSize v))))) := by
  show execFeedB pr s = _
  exact (Fires.one h hr rfl rfl rfl hv.capability.given (.inr hv.capability.reads.whole)
    (fun _ _ => by simp [Form.brokenWhole, nForm, hv.capability.tagged]) (.inl rfl)).keeps (feed_ok true hv)
theorem mma_keeps (ht : Tile s v w x off r) (steps : numAt w.scalar 0 12 ≠ 0) :
    exec (.mma pr) s = .next (done (keep s (.engine (.matrix (matrixOf s true w x off r)) (offsetOf x.scalar)))) := by
  show execMma pr s = _
  exact (Fires.threeWhole h hr rfl rfl ht.tile.capability.reads ht.word.reads ht.receipt.capability.reads).keeps
    ((matrix_eq ht true).trans (if_neg (by simpa using steps)))
theorem mzero_keeps (ht : Tile s v w x off r) (steps : numAt w.scalar 0 12 = 0) (plus : bitAt w.scalar 12 = false) :
    exec (.mzero pr) s = .next (done (keep s (.engine (.matrix (matrixOf s false w x off r)) (offsetOf x.scalar)))) := by
  show execMzero pr s = _
  exact (Fires.threeWhole h hr rfl rfl ht.tile.capability.reads ht.word.reads ht.receipt.capability.reads).keeps
    ((matrix_eq ht false).trans (if_neg (by simp [steps, plus])))

/-! ## MSTAT (R228) -/

theorem mstat_answers (t1 t0 : BitVec 9) (hv : EngineCap s 0 [4, 9] [] v) (own : coreOf v.scalar = logicalOf s)
    (unit : ∃ r, s.router (lodgingOf s) (coreOf v.scalar) = some r ∧ r < 4096) :
    exec (.mstat pr t1 t0) s = .next (answers s t1 t0 (plain (s.core s.here.1).mstat) []) := by
  show execMstat pr t1 t0 s = _
  have fires : Fires s (wForm .mstat pr 1 4 0 0 t1 t0) pr m v ((opnd s 1).getD default) ((opnd s 2).getD default) :=
    .one h hr rfl rfl rfl hv.given (.inr hv.reads.whole) (fun _ _ => by simp [Form.brokenWhole, wForm, hv.tagged]) (.inl rfl)
  have allows : EngineAllows (ctxOf s .mstat v ((opnd s 1).getD default) ((opnd s 2).getD default) m)
      { v := v, kinds := [4, 9], perms := [], own := true, matrix := true } :=
    EngineCap.allowed (o := { v := v, kinds := [4, 9], perms := [], own := true, matrix := true }) hv (fun _ => own) (by simp) fun _ => unit
  exact fires.value (bind_of_ok (checkEngine_ok (List.forall_mem_singleton.2 allows)) rfl)
end

section
variable {c : Core} {h : MxCmd} {q : List MxCmd}
theorem running_none (hm : c.mx = h :: q) (hh : (!h.isMma || h.leave == 2) = false) : c.running = none := by
  rw [Core.running, hm]
  exact if_neg (by simp [hh])
theorem running_some (hm : c.mx = h :: q) (hh : (!h.isMma || h.leave == 2) = true) : c.running = some h := by
  rw [Core.running, hm]
  exact if_pos hh
theorem mstat_idle (hm : c.mx = []) : c.mstat = unitWord c 0 := by
  simp [Core.mstat, Core.running, unitWord, hm, bit1]
/-- An MMA that waits for its leave, which a cancelled one does not (R228). -/
theorem mstat_waiting (hm : c.mx = h :: q) (mma : h.isMma = true) (leave : h.leave ≠ 2) :
    c.mstat = unitWord c (if h.code = 0 then 2 ^ 25 else 0) := by
  simp [Core.mstat, running_none hm (by simp [mma, leave]), unitWord, hm, bit1]
theorem mstat_zeroing (hm : c.mx = h :: q) (zero : h.isMma = false) : c.mstat = unitWord c (2 ^ 24) := by
  simp [Core.mstat, running_some hm (by simp [zero]), unitWord, hm, bit1, zero, Option.filter]
/-- An MMA that runs, starved when a step is due and the feeds hold too little (R221, R227). -/
theorem mstat_running (hm : c.mx = h :: q) (mma : h.isMma = true) (leave : h.leave = 2) : c.mstat = unitWord c ((h.steps - h.done) * 2 ^ 28 +
    (if h.done < h.steps ∧ h.code = 0 ∧ (c.aFeed.length < 64 ∨ c.bFeed.length < 32) then 2 ^ 26 else 0) + 2 ^ 24) := by
  simp [Core.mstat, running_some hm (by simp [leave]), unitWord, hm, bit1, mma, Option.filter, MxCmd.stepping, Core.feedShort, and_assoc]
end

/-- Settles O40: behind checks that pass, each instruction keeps its command; the four states of the matrix unit give MSTAT's word. -/
theorem engineInstructionsFire : Obligations.EngineInstructionsFire := by
  refine ⟨fun s pr m h hr => ⟨fun v d x hv hd hx order av ad an rv rd => cpy_keeps h hr hv hd hx order av ad an rv rd,
    fun v d x hv hd hx => tile_keeps h hr hv hd hx, fun v r hv => feedA_keeps h hr hv, fun v r hv => feedB_keeps h hr hv,
    fun v w x off r ht steps => mma_keeps h hr ht steps, fun v w x off r ht steps plus => mzero_keeps h hr ht steps plus⟩,
    fun s pr m t1 t0 v h hr hv own unit => ?_⟩
  have answer {n : Nat} (word : (s.core s.here.1).mstat = unitWord (s.core s.here.1) n) :
      exec (.mstat pr t1 t0) s = .next (answers s t1 t0 (plain (unitWord (s.core s.here.1) n)) []) := word ▸ mstat_answers h hr t1 t0 hv own unit
  exact ⟨fun hm => answer (mstat_idle hm), fun c q hm => ⟨fun mma leave => answer (mstat_waiting hm mma leave),
    fun zero => answer (mstat_zeroing hm zero), fun mma leave => answer (mstat_running hm mma leave)⟩⟩

end Sys2Proof.Claims
end

section
/-! The obligation O41: the faults of engine commands, in their order (R212, R213, R224; the place of SHAPE: log 29). -/

namespace Sys2Proof.Claims
open Sys2Proof.Machine

/-! ## CPY (R216) -/

/-- The destination of CPY and TILE, as the checks of R212 see it. -/
def porterTarget (d : Value) : EngOp := { v := d, kinds := [1, 10, 2, 3, 5], storeClass := [4], perms := [pStore] }
theorem porterTarget_tagged {d : Value} (tag : d.tag = .cap) (kind : capKind d.cap ∈ [1, 10, 2, 3, 4, 5]) : EngineTagged (porterTarget d) :=
  ⟨tag, by simpa [porterTarget, or_comm, or_left_comm] using kind⟩

/-- Where the destination's kind is of the table, every operand's is. -/
theorem porterOps_tagged {s : State} {v d x : Value} {n : Nat} (hv : EngineCap s 0 [1, 10, 2, 3, 4, 5] [123] v) (tag : d.tag = .cap)
    (hx : Receipt s 2 n x) (kind : capKind d.cap ∈ [1, 10, 2, 3, 4, 5]) : ∀ o ∈ porterOps v d x, EngineTagged o := by
  have source : EngineTagged { v := v, kinds := [1, 10, 2, 3, 4, 5], perms := [pLoad] } := ⟨hv.tagged, List.mem_append_left _ hv.kind⟩
  have receipt : EngineTagged (receiptOp x) := ⟨hx.capability.tagged, List.mem_append_left _ hx.capability.kind⟩
  simpa [porterOps] using ⟨source, porterTarget_tagged tag kind, receipt⟩

section
variable {s : State} {pr : BitVec 2} {m : BitVec 16} {v d x : Value} (h : MayFire s) (hr : Runs s pr m)
  (hv : EngineCap s 0 [1, 10, 2, 3, 4, 5] [123] v) (gd : Given s 1 d) (hd : capOk d = true) (tag : d.tag = .cap) (hx : Receipt s 2 16 x)
include h hr hv gd hd tag hx

theorem cpy_fires : Fires s (nForm .cpy pr 3 4 4 4) pr m v d x :=
  .threeWhole h hr rfl rfl hv.reads ⟨gd, (capOk_eq d).trans hd, by simp [tag]⟩ hx.capability.reads
/-- The first of the checks that all operands share. -/
theorem cpy_refused {e : Trap} (he : (ctxOf s .cpy v d x m).checkEngine (porterOps v d x) = .error e) (hc : e.code ≠ tAway) :
    exec (.cpy pr) s = .next (traps s e) := by
  show execCpy pr s = _
  exact (cpy_fires h hr hv gd hd tag hx).error (congrArg (· >>= _) he) hc
theorem cpy_tag (kind : capKind d.cap ∉ [1, 10, 2, 3, 4, 5]) : exec (.cpy pr) s = .next (traps s (trapCap 0x07 d.cap)) := by
  refine cpy_refused h hr hv gd hd tag hx (checkEngine_tag (pre := [_]) (o := porterTarget d) (post := [receiptOp x]) ?_ ?_ ?_)
    (show tTag ≠ tAway by decide)
  · simpa [porterTarget, receiptOp] using ⟨hv.tagged, tag, hx.capability.tagged⟩
  · simpa using (porterSource_allows (row := .cpy) (l := v) (r := d) (t := x) (m := m) hv).isTagged
  · simp only [porterTarget, List.mem_cons, List.mem_append, List.not_mem_nil, or_false] at kind ⊢
    omega
theorem cpy_storeClass (kind : capKind d.cap = 4) : exec (.cpy pr) s = .next (traps s (trapCap 0x0A d.cap)) :=
  cpy_refused h hr hv gd hd tag hx (checkEngine_storeClass (pre := [_]) (o := porterTarget d) (post := [receiptOp x])
    (porterOps_tagged hv tag hx (by simp [kind])) (by simp) (by simp [porterTarget, kind])) (show tStoreClass ≠ tAway by decide)
/-- The destination is refused in step 4 of R212, behind a source that passes. -/
theorem cpy_target (kind : capKind d.cap ∈ [1, 10, 2, 3, 5]) {e : Trap}
    (ho : (ctxOf s .cpy v d x m).engPerm (porterTarget d) = false ∨ (ctxOf s .cpy v d x m).engNoCore (porterTarget d) = true)
    (he : (if (ctxOf s .cpy v d x m).engNoCore (porterTarget d) then trapLodging (coreOf d.scalar) else trapCap tPerm d.cap) = e)
    (hc : e.code ≠ tAway) : exec (.cpy pr) s = .next (traps s e) := by
  have place : addrCore (capAddr (porterTarget d).v.cap) = coreOf d.scalar := by rw [porterTarget, capAddr_eq, addrCore_eq]
  have anyKind : capKind d.cap ∈ [1, 10, 2, 3, 4, 5] := by
    simp only [List.mem_cons, List.not_mem_nil, or_false] at kind ⊢
    omega
  have class_ : capKind d.cap ≠ 4 := by
    rintro c
    simp [c] at kind
  refine cpy_refused h hr hv gd hd tag hx ((checkEngine_refused (pre := [_]) (o := porterTarget d) (post := [receiptOp x])
    (porterOps_tagged hv tag hx anyKind) ?_ ?_ ho).trans ?_) hc
  · simpa [porterTarget, receiptOp] using class_
  · simpa using porterSource_allows hv
  · rw [place]
    exact congrArg _ he
theorem cpy_permission (kind : capKind d.cap ∈ [1, 10, 2, 3, 5]) (core : capKind d.cap ∉ [1, 10] → InLodging s (coreOf d.scalar))
    (store : bitAt d.cap 122 = false) : exec (.cpy pr) s = .next (traps s (trapCap 0x09 d.cap)) := by
  have inside : (ctxOf s .cpy v d x m).engNoCore (porterTarget d) = false := engNoCore_of fun hl => core fun memory => by
    have stores := (engOp_isLocal_iff _).1 hl
    simp only [porterTarget, List.mem_cons, List.not_mem_nil, or_false] at stores memory
    omega
  exact cpy_target h hr hv gd hd tag hx kind (.inl (by simp [Ctx.engPerm, porterTarget, capHas, pStore, store])) (if_neg (by simp [inside]))
    (show tPerm ≠ tAway by decide)
theorem cpy_outside (kind : capKind d.cap ∈ [2, 3, 5]) (outside : s.router (lodgingOf s) (coreOf d.scalar) = none) :
    exec (.cpy pr) s = .next (traps s { code := 0x1C, lo := BitVec.ofNat 64 (coreOf d.scalar), hi := 0 }) := by
  have local_ : (porterTarget d).isLocal = true := (engOp_isLocal_iff _).2 (by
    simp only [porterTarget, List.mem_cons, List.not_mem_nil, or_false] at kind ⊢
    omega)
  have noCore : (ctxOf s .cpy v d x m).engNoCore (porterTarget d) = true := by
    rw [Ctx.engNoCore, local_, porterTarget, capAddr_eq, addrCore_eq, noCore_of outside]
    rfl
  refine cpy_target h hr hv gd hd tag hx ?_ (.inr noCore) (if_pos noCore) (show tLodging ≠ tAway by decide)
  simp only [List.mem_cons, List.not_mem_nil, or_false] at kind ⊢
  omega
omit gd hd tag
theorem cpy_misaligned (hd : EngineCap s 1 [1, 10, 2, 3, 5] [122] d) (av : v.scalar.toNat % 16 ≠ 0) :
    exec (.cpy pr) s = .next (traps s { code := 0x0B, lo := v.scalar, hi := 16 }) := by
  show execCpy pr s = _
  rw [← capAddr_eq] at av ⊢
  exact (cpy_fires h hr hv hd.given hd.whole hd.tagged hx).error (bind_of_ok (porterOps_ok hv hd hx) (if_pos av)) (show tAlign ≠ tAway by decide)
theorem cpy_below (hd : EngineCap s 1 [1, 10, 2, 3, 5] [122] d) (av : v.scalar.toNat % 16 = 0) (ad : d.scalar.toNat % 16 = 0)
    (an : windowSize d % 16 = 0) (below : v.scalar.toNat < baseOf v.cap) : exec (.cpy pr) s = .next (traps s (trapCap 0x08 v.cap)) := by
  show execCpy pr s = _
  have range : rangeOk v.cap v.scalar.toNat (windowSize d) = false := by
    simp [rangeOk, capInBounds, capBase_eq, below]
  refine (cpy_fires h hr hv hd.given hd.whole hd.tagged hx).error (bind_of_ok (porterOps_ok hv hd hx) ((if_neg ?_).trans ((if_neg ?_).trans
    (bind_of_ok (receiptAligned_ok hx) (if_pos ?_))))) (show tBounds ≠ tAway by decide)
  · simpa [capAddr_eq] using av
  · simpa [capAddr_eq, capRest_eq, an] using ad
  · rw [ctxOf_l, ctxOf_r, capRest_eq, capAddr_eq, range]
    rfl
end

/-! ## FEED.a, MMA and MZERO (R222, R224) -/

section
variable {s : State} {pr : BitVec 2} {m : BitVec 16} {v w x : Value} {off r : Nat} (h : MayFire s) (hr : Runs s pr m)
include h hr

theorem feedA_storeClass (kind : capKind v.cap = 2) (gv : Given s 0 v) (hv : capOk v = true) (tag : v.tag = .cap) :
    exec (.feedA pr) s = .next (traps s (trapCap 0x0A v.cap)) := by
  show execFeedA pr s = _
  have window : EngineTagged { v := v, kinds := [3], storeClass := [2], perms := [pLoad], matrix := true } := ⟨tag, by simp [kind]⟩
  refine (Fires.one h hr rfl rfl rfl gv (.inr ((capOk_eq v).trans hv)) (fun _ _ => by simp [Form.brokenWhole, nForm, tag]) (.inl rfl)).error
    (congrArg (· >>= _) (checkEngine_storeClass (pre := []) (post := []) (List.forall_mem_singleton.2 window) (by simp) ?_))
    (show tStoreClass ≠ tAway by decide)
  simp [kind]
theorem mma_shape (ht : Tile s v w x off r) (steps : numAt w.scalar 0 12 = 0) : exec (.mma pr) s = .next (traps s (trap 0x18)) := by
  show execMma pr s = _
  exact (Fires.threeWhole h hr rfl rfl ht.tile.capability.reads ht.word.reads ht.receipt.capability.reads).error
    ((matrix_eq ht true).trans (if_pos (by simp [steps]))) (show tShape ≠ tAway by decide)
theorem mzero_shape (ht : Tile s v w x off r) (some_ : numAt w.scalar 0 12 ≠ 0 ∨ bitAt w.scalar 12 = true) :
    exec (.mzero pr) s = .next (traps s (trap 0x18)) := by
  show execMzero pr s = _
  exact (Fires.threeWhole h hr rfl rfl ht.tile.capability.reads ht.word.reads ht.receipt.capability.reads).error
    ((matrix_eq ht false).trans (if_pos (by simpa using some_))) (show tShape ≠ tAway by decide)
end

/-- Settles O41: the first check that fails is the one that each clause names, behind those that pass. -/
theorem engineFaults : Obligations.EngineFaults :=
  fun _ _ _ _ _ _ h hr => ⟨fun hv gd hd tag hx => ⟨cpy_tag h hr hv gd hd tag hx, cpy_storeClass h hr hv gd hd tag hx,
      cpy_permission h hr hv gd hd tag hx, cpy_outside h hr hv gd hd tag hx, cpy_misaligned h hr hv hx, cpy_below h hr hv hx⟩,
    feedA_storeClass h hr, fun _ _ _ ht => ⟨mma_shape h hr ht, mzero_shape h hr ht⟩⟩

end Sys2Proof.Claims
end

section
/-! The obligation O48: engine commands at work (R214 to R227, R336, R470; readings: log 39). Each step completes where nothing that it would wait
for is missing. -/

namespace Sys2Proof.Claims
open Sys2Proof.Machine

section
variable {s : State} {r : Nat}

/-! ## Leave (R214, R470) -/

theorem leaveGrant_grants {die : Nat} {w : Nat × Nat × Nat × Nat} (first : (s.leaveWait.find? fun w => w.1 == die) = some w)
    (powered : (s.core w.2.1).gated = false) (asks : (s.core w.2.1).asker w.2.2.1 = true) (budget : mapGet s.leave die + w.2.2.2 ≤ s.fuses.leave) :
    exec (.leaveGrant die) s = .next (({ s with
      leaveWait := s.leaveWait.filter fun v => !(v.1 == w.1 && v.2.1 == w.2.1 && v.2.2.1 == w.2.2.1),
      leave := mapUpd s.leave die (· + w.2.2.2) } : State).updCore w.2.1 fun c => c.granted w.2.2.1 s.cycle) := by
  show execLeaveGrant die s = _
  unfold execLeaveGrant
  rw [first]
  exact (if_neg (by simp [powered, asks])).trans (if_pos budget)
theorem leaveWaitCount_counts (powered : (s.core r).gated = false) (waits : (s.core r).awaitsLeave = true)
    (long : (s.core r).leaveWait.toNat + 1024 ≤ s.cycle.toNat) :
    exec (.leaveWaitCount r) s = .next ((s.updCore r fun c => { c with leaveWait := c.leaveWait + 1024 }).count r 15 1) := by
  show execLeaveWaitCount r s = _
  exact if_pos (by simp [powered, waits, long])

/-! ## The porter (R216, R336) -/

section
variable {cmd : Nat} {p : PorterCmd} (found : ((s.core r).porter.find? fun p => p.id == cmd) = some p)
include found

theorem engineUnits_moves {o : Nat} (back : s.unitBack r cmd = none) (near : s.lotAway r .s p.receipt 16 = false) (code : p.code = 0)
    (goes : p.stopped = false) (leave : p.leave ≠ 1) (powered : (s.core r).gated = false) (asked : p.asked = 0)
    (unit : (p.next s.cycle)[Config.pick s.tick % (p.next s.cycle).length]? = some o) (strong : s.strongWaits r p o = false) :
    exec (.engineUnits r cmd) s = .next (s.porterUnit r p o) := by
  show execEngineUnits r cmd s = _
  unfold execEngineUnits
  simp only [found, back]
  refine (if_neg ?_).trans ?_
  · simp [near, code, goes, leave, powered, asked]
  · simp only [unit]
    exact if_neg (by simp [strong])
theorem engineEnd_ends (code : p.code = 0) (all : p.rowBytes * p.rows ≤ p.done) (flying : p.flying = []) (powered : (s.core r).gated = false)
    (near : s.receiptAway r cmd = false) (goes : p.stopped = false) (leave : p.leave ≠ 1) :
    exec (.engineEnd r cmd) s = .next (s.endPorter r p) := by
  show execEngineEnd r cmd s = _
  unfold execEngineEnd
  refine (if_neg (by simp [State.mayEnd, powered, near])).trans ?_
  simp only [found]
  refine (if_neg (by simp [flying])).trans (if_pos ?_)
  simp [code, PorterCmd.total, all, goes, leave]
theorem engineChunkStop_stops (halted : (s.core r).gated = true) (goes : p.stopped = false) (boundary : p.atBoundary s.cycle = true)
    (leave : p.leave = 0) :
    exec (.engineChunkStop r cmd) s =
      .next (((({ s with leaveWait := s.leaveWait.filter fun w => !(w.2.1 == r && w.2.2.1 == cmd) } : State).receiptCursor
        r p.receipt p.done).updPorter r cmd fun p =>
          { p with stopped := true, leave := Nat.min p.leave 1, chunkDone := p.done, told := p.told ++ p.ahead, ahead := [] }).enginesStopped
            (s.core r).lodging) := by
  show execEngineChunkStop r cmd s = _
  have flying : p.flying.isEmpty = true := by
    simp only [PorterCmd.atBoundary, Bool.and_eq_true] at boundary
    exact boundary.1.2
  have stops : s.mayStop r p = true := by simp [State.mayStop, goes, flying, boundary]
  unfold execEngineChunkStop
  refine (if_neg (by simp [halted])).trans ?_
  simp only [found]
  refine (if_neg (by simp [stops])).trans ?_
  rw [if_neg (by simp [leave])]
end

/-! ## The matrix unit (R172, R226, R227) -/

theorem matrixCommand_accepted {id : Nat} {q : Req} {m : MxCmd} {off : Nat} {sto : Sto} (h : Standing s id q (.ready (.loc r sto off)))
    (eff : q.eff = .matrix m) (free : s.markerHeld q = false) (room : (s.core r).mx.length < 16)
    (order : ∀ p ∈ s.reqs.takeWhile (fun p => p.id != id), p.act.core = q.act.core → p.stage.isDone = false →
      ∀ x, p.eff = .matrix x → x.core ≠ r) :
    exec (.matrixCommandAccept id) s = .next (((s.updCore r fun c => { c with mx := c.mx ++ [m] }).headAsks r).answer id .ack) := by
  show execMatrixCommandAccept id s = _
  have atCore : q.atCore = some (r, off) := by rw [Req.atCore, h.stage]
  unfold execMatrixCommandAccept
  simp only [h.there, eff, atCore]
  refine if_neg fun waits => ?_
  simp only [free, Nat.not_le.2 room, decide_false, Bool.or_false] at waits
  obtain ⟨p, hp, before⟩ := List.any_eq_true.1 waits
  simp only [Bool.and_eq_true, beq_iff_eq, Bool.not_eq_true'] at before
  obtain ⟨⟨core, stage⟩, same⟩ := before
  split at same
  · next x hx => exact order p hp core stage x hx (eq_of_beq same)
  · cases same
theorem blockStep_steps {m : MxCmd} (head : (s.core r).stepping = some m) (a : 64 ≤ (s.core r).aFeed.length) (b : 32 ≤ (s.core r).bFeed.length)
    (near : s.tileAway r m = false) : exec (.blockStep r) s = .next (s.blockStep r m) := by
  show execBlockStep r s = _
  unfold execBlockStep
  simp only [head]
  exact if_neg (by simp [Core.feedShort, a, b, near])
theorem mzeroComplete_zeroes {m : MxCmd} {rest : List MxCmd} (head : (s.core r).mx = m :: rest) (powered : (s.core r).gated = false)
    (zero : m.isMma = false) (code : m.code = 0) (near : s.tileAway r m = false) : exec (.mzeroComplete r) s =
      .next (((s.writeAt 0 (.loc r .c m.off) (List.replicate 0x2000 (some 0)) false).receiptUnits m.rcore m.receipt 1).endMx r
        { m with done := 1 }) := by
  show execMzeroComplete r s = _
  unfold execMzeroComplete
  simp only [head, List.head?_cons]
  exact if_neg (by simp [powered, zero, code, near])
theorem engineStarved_ends {m : MxCmd} (head : (s.core r).stepping = some m) (short : (s.core r).aFeed.length < 64 ∨ (s.core r).bFeed.length < 32)
    (near : (s.core r).feedAway = 0) (long : m.starveFrom.toNat + 2 ^ 20 ≤ s.cycle.toNat) :
    exec (.engineStarved r) s = .next (s.updMx r m.id fun x => { x with code := 0x1D }) := by
  show execEngineStarved r s = _
  unfold execEngineStarved
  simp only [head]
  have short' : (s.core r).feedShort = true := by simpa [Core.feedShort] using short
  exact if_pos (by simpa [short', near] using long)

/-! ## The feeds (R221, R223) -/

theorem feedFblock_enters {lo hi : Nat} {rest : List (Nat × Nat)} (queue : (s.core r).aQueue = (lo, hi) :: rest) (powered : (s.core r).gated = false)
    (room : (s.core r).aFeed.length < 128) (near : s.lotAway r .a lo 64 = false) (more : lo + 64 < hi) :
    exec (.feedFblockEnter r false) s =
      .next (((if (s.core r).a.bad lo 64 then s.noteError r Sto.a.unitNo else s).repairStore r .a lo 64).updCore r fun k =>
        { k with aFeed := k.aFeed ++ [(wordOfBytes 512 (bytesAt (s.core r).a.bytes lo 64), (s.core r).a.bad lo 64)],
                 aQueue := (lo + 64, hi) :: rest }) := by
  show execFeedFblockEnter r false s = _
  unfold execFeedFblockEnter
  simp only [queue]
  refine (if_neg (by simp [powered, room])).trans ((if_neg (by simp [near])).trans ?_)
  simp only [if_pos more]
  rfl
end

/-- Settles O48: each step completes, past all that it might have waited for. -/
theorem engineEvents : Obligations.EngineEvents :=
  fun _ _ => ⟨fun _ _ first powered asks budget => leaveGrant_grants first powered asks budget, leaveWaitCount_counts,
    fun _ _ _ found back near code goes leave powered asked unit strong =>
      engineUnits_moves found back near code goes leave powered asked unit strong,
    fun _ _ found code all flying powered near goes leave => engineEnd_ends found code all flying powered near goes leave,
    fun _ _ found halted goes boundary leave => engineChunkStop_stops found halted goes boundary leave,
    fun _ _ _ _ _ h eff free room order => matrixCommand_accepted h eff free room order,
    fun _ head a b near => blockStep_steps head a b near, fun _ _ head powered zero code near => mzeroComplete_zeroes head powered zero code near,
    fun _ head short near long => engineStarved_ends head short near long,
    fun _ _ _ queue powered room near more => feedFblock_enters queue powered room near more⟩

end Sys2Proof.Claims
end

section
/-! SUPPORT. Requests, and the S stores of cores that may have twins: what is read after an answer, after the issue of a request, and after a write
that the store port mirrors (R359, R460). -/

namespace Sys2Proof.Claims
open Sys2Proof.Machine

/-! ## Requests (R359) -/

section
variable {s t : State} {id w : Nat} {q : Req}

theorem id_of_req (h : s.req id = some q) : q.id = id := eq_of_beq (List.find?_some h :)
theorem req_of_reqs (h : t.reqs = s.reqs) (id : Nat) : t.req id = s.req id := congrArg (List.find? _) h
/-- An update of a request that keeps its number. -/
theorem req_updReq (s : State) (id w : Nat) {f : Req → Req} (keeps : ∀ q, (f q).id = q.id) :
    (s.updReq id f).req w = (s.req w).map fun q => if q.id == id then f q else q := by
  have same : ((fun q : Req => q.id == w) ∘ fun q => if q.id == id then f q else q) = fun q => q.id == w := by
    funext q
    dsimp only [Function.comp]
    split
    · rw [keeps]
    · rfl
  show (s.reqs.map _).find? _ = _
  rw [List.find?_map, same]
  rfl
theorem req_updReq_same {f : Req → Req} (keeps : ∀ q, (f q).id = q.id) (h : s.req id = some q) : (s.updReq id f).req id = some (f q) := by
  rw [req_updReq s id id keeps, h, Option.map_some, id_of_req h, beq_self_eq_true, if_pos rfl]
theorem req_updReq_other {f : Req → Req} (keeps : ∀ q, (f q).id = q.id) (hw : w ≠ id) : (s.updReq id f).req w = s.req w := by
  rw [req_updReq s id w keeps]
  cases h : s.req w with
  | none => rfl
  | some q => rw [Option.map_some, id_of_req h, if_neg (by simpa using hw)]
theorem req_answer_same (a : Resp) (h : s.req id = some q) : (s.answer id a).req id = some { q with stage := .done a } :=
  req_updReq_same (fun _ => rfl) h
theorem req_answer_other (a : Resp) (hw : w ≠ id) : (s.answer id a).req w = s.req w := req_updReq_other (fun _ => rfl) hw
/-- An answer changes the stage of requests, and nothing else of them. -/
theorem answer_keeps {p : Req} (a : Resp) (h : p ∈ s.reqs) : ∃ p' ∈ (s.answer id a).reqs, p'.eff = p.eff ∧ p'.lodging = p.lodging :=
  ⟨_, List.mem_map_of_mem h, by split <;> exact ⟨rfl, rfl⟩⟩

variable {act : ActId} {lodging : Nat} {launch : W32} {block : Word} {idx : Nat} {e : Eff} {st : Stage}
theorem reqs_issue (s : State) (act : ActId) (lodging : Nat) (launch : W32) (block : Word) (idx : Nat) (e : Eff) (st : Stage) :
    ∃ p, (s.issue act lodging launch block idx e st).reqs = s.reqs ++ [p] ∧ p.eff = e ∧ p.lodging = lodging := ⟨_, rfl, rfl, rfl⟩
theorem req_issue (h : s.req id = some q) : (s.issue act lodging launch block idx e st).req id = some q := by
  obtain ⟨p, reqs, -⟩ := reqs_issue s act lodging launch block idx e st
  show List.find? _ _ = _
  rw [reqs, List.find?_append, show s.reqs.find? _ = some q from h]
  rfl

/-! ## Obligations broken (R258) -/

theorem breakObs_keeps {p : Req} (code : Byte) (es : List Ob) (h : p ∈ s.reqs) : p ∈ (s.breakObs act lodging launch block code es).reqs := by
  induction es generalizing s with
  | nil => exact h
  | cons e es ih => exact ih (List.mem_append_left _ h)
theorem req_breakObs (code : Byte) (es : List Ob) (h : s.req id = some q) : (s.breakObs act lodging launch block code es).req id = some q := by
  induction es generalizing s with
  | nil => exact h
  | cons e es ih => exact ih (req_issue h)
theorem cores_breakObs (code : Byte) (es : List Ob) : (s.breakObs act lodging launch block code es).cores = s.cores := by
  induction es generalizing s with
  | nil => rfl
  | cons e es ih => exact ih
/-- Each entry is broken by a request of its own. -/
theorem breakObs_breaks (code : Byte) (es : List Ob) :
    ∀ e ∈ es, ∃ p ∈ (s.breakObs act lodging launch block code es).reqs, p.eff = breakEff code e ∧ p.lodging = lodging := by
  induction es generalizing s with
  | nil => simp
  | cons e es ih =>
    have here : ∃ p ∈ (s.breakObs act lodging launch block code (e :: es)).reqs, p.eff = breakEff code e ∧ p.lodging = lodging := by
      obtain ⟨p, reqs, eff⟩ := reqs_issue s act lodging launch block 128 (breakEff code e) .queued
      refine ⟨p, breakObs_keeps (s := s.issue act lodging launch block 128 (breakEff code e) .queued) code es ?_, eff⟩
      rw [reqs]
      exact List.mem_append_right _ (List.mem_singleton.2 rfl)
    simpa using ⟨here, ih⟩
end

/-! ## Stores whose writes are mirrored (R34, R460) -/

theorem mapGet_filter {α : Type} [Inhabited α] (m : Map α) (f : Nat → Bool) (k : Nat) :
    mapGet (m.filter fun e => f e.1) k = if f k then mapGet m k else default := by
  induction m with
  | nil => simp
  | cons e m ih =>
    obtain ⟨j, v⟩ := e
    rw [List.filter_cons]
    by_cases hj : j = k
    · subst hj
      cases hf : f j
      · simpa [hf] using ih
      · simp [mapGet]
    · have rest : mapGet ((j, v) :: m) k = mapGet m k := if_neg hj
      rw [rest, ← ih]
      split
      · exact if_neg hj
      · rfl
/-- A granule loses its tag where bytes are put, and keeps it elsewhere (R34). -/
theorem tags_put (l : LStore) (a g : Nat) (bs : List Byte) :
    mapGet (l.put a bs).tags g = (mapGet l.tags g && !(List.range bs.length).any fun i => (a + i) / 16 == g) := by
  have covered : ((List.range (bs.map some).length).filter fun i => ((bs.map some)[i]?.getD none).isSome) = List.range bs.length := by
    rw [List.length_map, List.filter_eq_self]
    intro i hi
    simp [List.mem_range.1 hi]
  show mapGet (l.tags.filter _) g = _
  rw [covered, mapGet_filter l.tags (fun g => !(List.range bs.length).any fun i => (a + i) / 16 == g)]
  cases (List.range bs.length).any fun i => (a + i) / 16 == g
  · simp
  · simp
theorem tags_put_start (l : LStore) (a : Nat) {bs : List Byte} (h : 0 < bs.length) : mapGet (l.put a bs).tags (a / 16) = false := by
  have covers : ((List.range bs.length).any fun i => (a + i) / 16 == a / 16) = true := List.any_eq_true.2 ⟨0, List.mem_range.2 h, by simp⟩
  rw [tags_put, covers]
  simp
theorem tags_put_apart (l : LStore) {a g : Nat} {bs : List Byte} (h : ∀ i, i < bs.length → (a + i) / 16 ≠ g) :
    mapGet (l.put a bs).tags g = mapGet l.tags g := by
  have misses : ((List.range bs.length).any fun i => (a + i) / 16 == g) = false :=
    List.any_eq_false.2 fun i hi => by simpa using h i (List.mem_range.1 hi)
  rw [tags_put, misses]
  simp
theorem bytesAt_put (l : LStore) (a : Nat) {n : Nat} {bs : List Byte} (h : bs.length = n) : bytesAt (l.put a bs).bytes a n = bs := by
  refine List.ext_getElem (by simp [bytesAt, h]) fun i h1 h2 => ?_
  simp [bytesAt, mapGet_put, h2]
theorem bytesAt_put_apart (l : LStore) {a b n : Nat} {bs : List Byte} (h : b + n ≤ a ∨ a + bs.length ≤ b) :
    bytesAt (l.put a bs).bytes b n = bytesAt l.bytes b n := by
  refine List.map_congr_left fun i hi => ?_
  have hn := List.mem_range.1 hi
  rw [mapGet_put, if_neg (by omega)]

/-- Bytes put into stores of other cores leave a core as it is. -/
theorem putAll_other {ws : List (Nat × Nat)} (bs : List Byte) (tag : Bool) {j : Nat} (h : ∀ e ∈ ws, e.1 ≠ j) (cs : Map Core) :
    mapGet (putAll cs ws bs tag) j = mapGet cs j := by
  induction ws generalizing cs with
  | nil => rfl
  | cons e ws ih =>
    obtain ⟨he, hws⟩ := List.forall_mem_cons.1 h
    exact (ih hws _).trans (mapGet_mapUpd_other _ _ he.symm)
section
variable (s : State) (r off : Nat) (bs : List Byte) (tag : Bool)
/-- The core that stores: its bytes once, wherever its twins are. -/
theorem core_storeS_own : (s.storeS r off bs tag).core r =
    { s.core r with s := let l := (s.core r).s.put off bs; if tag then l.setTag (off / 16) true else l } := by
  have mirrored : ∀ e ∈ (s.twinsOf r .s off bs.length).filter fun e => e.1 != r, e.1 ≠ r := fun e he => by simpa using (List.mem_filter.1 he).2
  exact (putAll_other bs tag mirrored _).trans (mapGet_mapUpd_same ..)
theorem core_storeS_other {k : Nat} (hk : k ≠ r) (ht : ∀ p ∈ s.twinsOf r .s off bs.length, p.1 ≠ k) :
    (s.storeS r off bs tag).core k = s.core k := by
  have mirrored : ∀ e ∈ (s.twinsOf r .s off bs.length).filter fun e => e.1 != r, e.1 ≠ k := fun e he => ht e (List.mem_filter.1 he).1
  exact (putAll_other bs tag mirrored _).trans (mapGet_mapUpd_other _ _ hk)
theorem core_putS_own (v : Nat) : (s.putS r off 8 v).core r = { s.core r with s := (s.core r).s.put off (bytesOf 8 (BitVec.ofNat 64 v)) } :=
  core_storeS_own ..
theorem core_putS_other {v k : Nat} (hk : k ≠ r) (ht : ∀ p ∈ s.twinsOf r .s off 8, p.1 ≠ k) : (s.putS r off 8 v).core k = s.core k :=
  core_storeS_other _ _ _ _ _ hk (by simpa only [length_bytesOf] using ht)
theorem sByte_putS_own {v : Nat} (hv : v < 2 ^ 64) : (s.putS r off 8 v).sByte r off 8 = v := by
  rw [State.sByte, core_putS_own]
  exact (numBytes_put _ off 8 _ (by decide)).trans (by rw [BitVec.toNat_ofNat, Nat.mod_eq_of_lt hv])
theorem sByte_putS_apart {v a n : Nat} (h : a + n ≤ off ∨ off + 8 ≤ a) : (s.putS r off 8 v).sByte r a n = s.sByte r a n := by
  rw [State.sByte, core_putS_own]
  exact congrArg natOfBytes (bytesAt_put_apart _ (by simpa only [length_bytesOf] using h))
theorem bytes_putS_apart {v a : Nat} (h : a < off ∨ off + 8 ≤ a) :
    mapGet ((s.putS r off 8 v).core r).s.bytes a = mapGet (s.core r).s.bytes a := by
  rw [core_putS_own, mapGet_put, if_neg (by rw [length_bytesOf]; omega)]
end

end Sys2Proof.Claims
end

section
/-! The obligation O49: what arrives at its home (R229, R254 to R263, R275, R280, R283, R334; readings: logs 35 and 37). -/

namespace Sys2Proof.Claims
open Sys2Proof.Machine

theorem Comes.atCore {s : State} {id : Nat} {q : Req} {r off : Nat} (h : Comes s id q r off) : q.atCore = some (r, off) := by
  obtain ⟨sto, stage⟩ := h.stage
  rw [Req.atCore, stage]

/-! ## Counters (R260, R261, R275) -/

theorem ctrWord_lt (rank scope : Nat) (waitable fired broken bound : Bool) (left : Nat) :
    ctrWord rank scope waitable fired broken bound left < 2 ^ 64 := by
  have := bit1_le waitable
  have := bit1_le fired
  have := bit1_le broken
  have := bit1_le bound
  unfold ctrWord
  omega
theorem ctrBound_ctrWord (rank scope : Nat) (waitable fired broken bound : Bool) (left : Nat) :
    ctrBound (ctrWord rank scope waitable fired broken bound left) = bound := by
  have := bit1_le waitable
  have := bit1_le fired
  have := bit1_le broken
  have bit : ctrWord rank scope waitable fired broken bound left / 2 ^ 32 % 2 = bit1 bound := by
    have := bit1_le bound
    unfold ctrWord
    omega
  rw [ctrBound, bit]
  cases bound <;> rfl

/-- A word has been written at byte `off` of router `r`'s S store, there and at its twins' places alone. -/
structure StoredAt (s t : State) (r off v : Nat) : Prop where
  reqs : t.reqs = s.reqs
  word : t.sByte r off 8 = v
  bytes : ∀ a, a < off ∨ off + 8 ≤ a → mapGet (t.core r).s.bytes a = mapGet (s.core r).s.bytes a
  others : ∀ k, k ≠ r → (∀ p ∈ s.twinsOf r .s off 8, p.1 ≠ k) → t.core k = s.core k

section
variable {s t : State} {r off v n : Nat} {broken : Bool}

theorem StoredAt.putS (hv : v < 2 ^ 64) : StoredAt s (s.putS r off 8 v) r off v :=
  ⟨rfl, sByte_putS_own s r off hv, fun _ ha => bytes_putS_apart s r off ha, fun _ hk ht => core_putS_other s r off hk ht⟩
/-- An update of the core beside its store. -/
theorem StoredAt.updCore (h : StoredAt s t r off v) {f : Core → Core} (keeps : (f (t.core r)).s = (t.core r).s) :
    StoredAt s (t.updCore r f) r off v where
  reqs := h.reqs
  word := by
    rw [State.sByte, core_updCore_same, keeps]
    exact h.word
  bytes a ha := by
    rw [core_updCore_same, keeps]
    exact h.bytes a ha
  others k hk ht := (core_updCore_other _ _ hk).trans (h.others k hk ht)
/-- A counter that nothing waits for has nothing to answer (R263). -/
theorem landCounter_idle (idle : mapGet (s.core r).waiters off = []) :
    s.landCounter r off = s.updCore r fun c => { c with waiters := mapSet c.waiters off [] } := by
  unfold State.landCounter
  rw [idle]
  rfl
/-- A discharge that leaves units, or that empties a counter that no handler and nothing else waits for. -/
theorem discharge_stores (h : n < ctrLeft (s.sByte r off 8) ∨ (ctrBound (s.sByte r off 8) = false ∧ mapGet (s.core r).waiters off = [])) :
    let w := s.sByte r off 8
    StoredAt s (s.discharge r off n broken) r off (ctrWord (ctrRank w) (ctrScope w) (ctrWaitable w) (ctrFired w)
      (ctrBroken w || broken || decide (ctrLeft w < n)) (ctrBound w) (ctrLeft w - n)) := by
  intro w
  have put := StoredAt.putS (s := s) (r := r) (off := off) (ctrWord_lt (ctrRank w) (ctrScope w) (ctrWaitable w) (ctrFired w)
    (ctrBroken w || broken || decide (ctrLeft w < n)) (ctrBound w) (ctrLeft w - n))
  unfold State.discharge
  dsimp only
  split
  · next zero =>
    obtain h | ⟨unbound, idle⟩ := h
    · omega
    · have noWaiter : mapGet ((s.putS r off 8 (ctrWord (ctrRank w) (ctrScope w) (ctrWaitable w) (ctrFired w)
          (ctrBroken w || broken || decide (ctrLeft w < n)) (ctrBound w) (ctrLeft w - n))).core r).waiters off = [] := by
        rw [core_putS_own]
        exact idle
      unfold State.counterZero
      rw [put.word, ctrBound_ctrWord, if_neg (by rw [unbound]; decide), landCounter_idle noWaiter]
      exact put.updCore rfl
  · exact put
end

section
variable {s : State} {id : Nat} {q : Req} {r off : Nat} (h : Comes s id q r off) (strays : s.strays q r = false)
include h strays

theorem counterDischarge_applies {c : Word} {n : Nat} {scope : Nat} {broken : Bool} (eff : q.eff = .discharge c n scope broken)
    (first : s.overlapped q = false) : exec (.counterDischarge id) s = .next ((s.discharge r off n broken).answer id .ack) := by
  show execCounterDischarge id s = _
  unfold execCounterDischarge
  simp only [h.there, eff, h.atCore, first, h.free, strays]
  rfl

/-- A bind that the lodging lets through finds the counter bound, or binds it (R275). -/
theorem bindArrival_meets {c : Word} {b : Binding} (eff : q.eff = .bind c b) (first : s.overlapped q = false)
    (goes : (s.lodging q.lodging).ending = 0) : exec (.bindArrival id) s = .next (if ctrBound (s.sByte r off 8)
      then ((s.breakObs (deviceAct r) q.lodging q.launch q.block 0x18 b.escrow).answer id .ack).dropRun r b
      else (s.bind r off b).answer id .ack) := by
  show execBindArrival id s = _
  have live : s.endingCode q.lodging = none := if_pos goes
  unfold execBindArrival
  simp only [h.there, eff, h.atCore, first, h.free, strays, live, Bool.or_self, Bool.false_eq_true, if_false]
  exact (apply_ite Host.Outcome.next ..).symm
end

section
variable {s : State} {r off : Nat} {b : Binding}

/-- A bind before the counter's waiters are answered: its word and its entry are written, and the binding stands (R275). -/
def boundCounter (s : State) (r off : Nat) (b : Binding) : State :=
  let w := s.sByte r off 8
  ((s.putS r off 8 (ctrWord (ctrRank w) (ctrScope w) false (ctrFired w) (ctrBroken w) true (ctrLeft w))).putS r (off + 8) 8
    (capAddr b.entry).toNat).updCore r fun c => { c with binds := mapUpd c.binds off fun y => b.keep y }
theorem bind_eq (s : State) (r off : Nat) (b : Binding) : s.bind r off b =
    if ctrLeft (s.sByte r off 8) = 0 then ((boundCounter s r off b).landCounter r off).counterZero r off
    else (boundCounter s r off b).landCounter r off := rfl
theorem reqs_boundCounter : (boundCounter s r off b).reqs = s.reqs := by rw [boundCounter, updCore_reqs, putS_reqs, putS_reqs]
theorem sByte_boundCounter (a : Nat) : (boundCounter s r off b).sByte r a 8 = ((s.putS r off 8 (ctrWord (ctrRank (s.sByte r off 8))
    (ctrScope (s.sByte r off 8)) false (ctrFired (s.sByte r off 8)) (ctrBroken (s.sByte r off 8)) true (ctrLeft (s.sByte r off 8)))).putS r
      (off + 8) 8 (capAddr b.entry).toNat).sByte r a 8 := by
  rw [boundCounter, State.sByte, core_updCore_same]
  rfl
/-- An unbound counter with units left that nothing waits for is bound. -/
theorem bind_leaves (left : ctrLeft (s.sByte r off 8) ≠ 0) (idle : mapGet (s.core r).waiters off = []) :
    let w := s.sByte r off 8
    (s.bind r off b).reqs = s.reqs ∧
    (s.bind r off b).sByte r off 8 = ctrWord (ctrRank w) (ctrScope w) false (ctrFired w) (ctrBroken w) true (ctrLeft w) ∧
    (s.bind r off b).sByte r (off + 8) 8 = (capAddr b.entry).toNat ∧
    mapGet ((s.bind r off b).core r).binds off = b.keep (mapGet (s.core r).binds off) := by
  intro w
  have noWaiter : mapGet ((boundCounter s r off b).core r).waiters off = [] := by
    rw [boundCounter, core_updCore_same, core_putS_own, core_putS_own]
    exact idle
  rw [bind_eq, if_neg left, landCounter_idle noWaiter]
  have bytes (a : Nat) : ((boundCounter s r off b).updCore r fun c => { c with waiters := mapSet c.waiters off [] }).sByte r a 8 =
      (boundCounter s r off b).sByte r a 8 := by
    rw [State.sByte, core_updCore_same]
    rfl
  refine ⟨(updCore_reqs ..).trans reqs_boundCounter, ?_, ?_, ?_⟩
  · rw [bytes, sByte_boundCounter, sByte_putS_apart _ _ _ (.inl le_rfl), sByte_putS_own _ _ _ (ctrWord_lt ..)]
  · rw [bytes, sByte_boundCounter, sByte_putS_own _ _ _ (BitVec.isLt _)]
  · rw [core_updCore_same, boundCounter, core_updCore_same, core_putS_own, core_putS_own]
    exact mapGet_mapUpd_same ..
theorem reqs_freeRun (k : Sto) (run : Run) : (s.freeRun r k run).reqs = s.reqs := by
  unfold State.freeRun
  generalize List.range run.count = us
  induction us generalizing s with
  | nil => rfl
  | cons u us ih => exact ih
/-- A binding that is lost may free its run's lots, and lets the requests be (R312). -/
theorem reqs_dropRun : (s.dropRun r b).reqs = s.reqs := by
  unfold State.dropRun
  split
  · split
    · exact reqs_freeRun ..
    · rfl
  · rfl
theorem dropRun_none (h : b.run = none) : s.dropRun r b = s := by
  unfold State.dropRun
  rw [h]
/-- A bind that is broken has its escrow broken, entry by entry. -/
theorem bindBroken_leaves {id : Nat} {q : Req} (h : s.req id = some q) :
    let t := ((s.breakObs (deviceAct r) q.lodging q.launch q.block 0x18 b.escrow).answer id .ack).dropRun r b
    t.req id = some { q with stage := .done .ack } ∧ (b.run = none → t.cores = s.cores) ∧
      ∀ e ∈ b.escrow, ∃ p ∈ t.reqs, p.eff = breakEff 0x18 e ∧ p.lodging = q.lodging := by
  refine ⟨?_, fun none => ?_, fun e he => ?_⟩
  · rw [req_of_reqs reqs_dropRun]
    exact req_answer_same _ (req_breakObs _ _ h)
  · rw [dropRun_none none]
    exact cores_breakObs ..
  · obtain ⟨p, hp, eff, lodging⟩ := breakObs_breaks (s := s) (act := deviceAct r) (lodging := q.lodging) (launch := q.launch)
      (block := q.block) 0x18 b.escrow e he
    obtain ⟨p', hp', eff', lodging'⟩ := answer_keeps (id := id) .ack hp
    rw [reqs_dropRun]
    exact ⟨p', hp', eff'.trans eff, lodging'.trans lodging⟩
end

end Sys2Proof.Claims
end

section
namespace Sys2Proof.Claims
open Sys2Proof.Machine

/-! ## Claims (R255, R256, R258, R259) -/

section
variable {s : State} {lodging : Nat} {n : Word} {r k : Nat}

/-- The home of a claim of this device: an entry that is in use, in the claim's generation (R256). -/
theorem claimHome_some (h : s.claimHome lodging n = some (r, k)) : claimDevice n = s.fuses.device ∧ s.router lodging (claimCore n) = some r ∧
    claimIndex n = k ∧ (mapGet (s.core r).claims k).gen = claimGen n ∧ (mapGet (s.core r).claims k).state ≠ 0 := by
  unfold State.claimHome at h
  split at h
  · cases h
  · next device =>
    split at h
    · next q router =>
      split at h
      · next entry =>
        cases h
        exact ⟨not_not.1 device, router, rfl, entry⟩
      · cases h
    · cases h
/-- An update of the entry that keeps its generation and that it is in use. -/
theorem claimHome_updated (h : s.claimHome lodging n = some (r, k)) {f : Claim → Claim} (gen : ∀ x, (f x).gen = x.gen)
    (state : ∀ x, (f x).state = x.state) :
    (s.updCore r fun c => { c with claims := mapUpd c.claims k f }).claimHome lodging n = some (r, k) := by
  obtain ⟨device, router, rfl, entry⟩ := claimHome_some h
  have router' : (s.updCore r fun c => { c with claims := mapUpd c.claims (claimIndex n) f }).router lodging (claimCore n) = some r := router
  unfold State.claimHome
  refine (if_neg (not_not_intro device)).trans ?_
  rw [router']
  refine if_pos ?_
  rw [core_updCore_same, mapGet_mapUpd_same, gen, state]
  exact entry
theorem claimHome_answer (id : Nat) (a : Resp) : (s.answer id a).claimHome lodging n = s.claimHome lodging n := rfl

/-- The place that an invocation had reserved is free again (R267). -/
def unreserved (x : Claim) : Claim := { x with reserved := x.reserved - 1 }
theorem freeClaimPlace_home (h : s.claimHome lodging n = some (r, k)) :
    s.freeClaimPlace lodging n = s.updCore r fun c => { c with claims := mapUpd c.claims k unreserved } := by
  unfold State.freeClaimPlace
  rw [h]
  rfl

/-- An invocation has come to its claim: it is acknowledged, and its place given back (R267). -/
def placeFreed (s : State) (id r k : Nat) : State :=
  (s.answer id .ack).updCore r fun c => { c with claims := mapUpd c.claims k unreserved }
theorem req_placeFreed {id : Nat} {q : Req} (h : s.req id = some q) :
    (placeFreed s id r k).req id = some { q with stage := .done .ack } := req_answer_same .ack h
theorem claim_placeFreed (id : Nat) : mapGet ((placeFreed s id r k).core r).claims k = unreserved (mapGet (s.core r).claims k) := by
  rw [placeFreed, core_updCore_same]
  exact mapGet_mapUpd_same (s.core r).claims k unreserved
theorem claimHome_placeFreed (id : Nat) (h : s.claimHome lodging n = some (r, k)) :
    (placeFreed s id r k).claimHome lodging n = some (r, k) :=
  claimHome_updated ((claimHome_answer id .ack).trans h) (fun _ => rfl) (fun _ => rfl)

/-! ## Invocations (R258) -/

variable {i : Invocation}
/-- An invocation that meets a pending claim is held there. -/
theorem invocation_held (goes : (s.lodging i.lodging).ending = 0) (h : s.claimHome lodging n = some (r, k))
    (pending : (mapGet (s.core r).claims k).state = 1) (q : Nat) : s.invocation q lodging n i 0 0 =
      s.updCore r fun c => { c with claims := mapUpd c.claims k fun y => { y with invs := y.invs ++ [i] } } := by
  have live : s.endingCode i.lodging = none := if_pos goes
  unfold State.invocation
  rw [live, h]
  exact (if_neg (by simp)).trans (if_pos pending)
/-- An invocation that meets a broken claim breaks its own. -/
theorem invocation_broken (goes : (s.lodging i.lodging).ending = 0) (h : s.claimHome lodging n = some (r, k))
    (broken : (mapGet (s.core r).claims k).state = 3) (q : Nat) : s.invocation q lodging n i 0 0 =
      s.breakInvocation r i (mapGet (s.core r).claims k).code := by
  have live : s.endingCode i.lodging = none := if_pos goes
  unfold State.invocation
  rw [live, h]
  exact (if_neg (by simp)).trans ((if_neg (by simp [broken])).trans (if_pos broken))
theorem req_breakInvocation {id : Nat} {q : Req} {core : Nat} (code : Byte) (h : s.req id = some q) :
    (s.breakInvocation core i code).req id = some q := req_breakObs _ _ (req_issue h)
/-- Its claim is settled, and each entry of its escrow broken, by a request of its own. -/
theorem breakInvocation_breaks (core : Nat) (code : Byte) :
    (∃ p ∈ (s.breakInvocation core i code).reqs, p.eff = .settle i.claim (dataValue 0) code 2) ∧
      ∀ e ∈ i.obs, ∃ p ∈ (s.breakInvocation core i code).reqs, p.eff = breakEff code e := by
  refine ⟨?_, fun e he => ?_⟩
  · obtain ⟨p, reqs, eff, -⟩ := reqs_issue s (deviceAct core) i.lodging 0 0 0 (.settle i.claim (dataValue 0) code 2) .queued
    have there : p ∈ (s.homeSettle core i.lodging i.claim code).reqs := by
      rw [State.homeSettle, reqs]
      exact List.mem_append_right _ (List.mem_singleton.2 rfl)
    exact ⟨p, breakObs_keeps _ _ there, eff⟩
  · obtain ⟨p, hp, eff, -⟩ := breakObs_breaks (s := s.homeSettle core i.lodging i.claim code) (act := deviceAct core) (lodging := i.lodging)
      (launch := i.launch) (block := 0) code i.obs e he
    exact ⟨p, hp, eff⟩
end

section
variable {s : State} {id : Nat} {q : Req} {r off : Nat} (h : Comes s id q r off) (strays : s.strays q r = false)
include h strays

/-- An invocation of an activity gives its place back and meets its claim. -/
theorem invocationArrival_meets {n : Word} {i : Invocation} {k : Nat} (eff : q.eff = .invokec n i) (slot : q.act.slot ≠ 99)
    (first : s.invocationHeld q n r = false) (home : s.claimHome q.lodging n = some (r, k)) :
    exec (.invocationArrival id) s = .next ((placeFreed s id r k).invocation r q.lodging n i 0 0) := by
  show execInvocationArrival id s = _
  have names : q.invocation = some (n, i) := by rw [Req.invocation, eff]
  have own : (q.act.slot == 99) = false := beq_false_of_ne slot
  have place : s.hasInvocationPlace q r n i = true := by rw [State.hasInvocationPlace, eff]
  unfold execInvocationArrival
  simp only [h.there, names, h.atCore, first, h.free, strays, eff, own, place]
  exact congrArg (fun t : State => Host.Outcome.next (t.invocation r q.lodging n i 0 0)) (freeClaimPlace_home home)

/-! ## Settlements (R256, R279, R280) -/

theorem settles_applies {n : Word} {v : Value} {code : Byte} {scope : Nat} (eff : q.eff = .settle n v code scope) {broken : Bool}
    (kind : (code != 0) = broken) : s.settles id broken = (s.settle q.lodging n v code).answer id .ack := by
  have names : q.settlement = some (n, v, code) := by rw [Req.settlement, eff]
  unfold State.settles
  simp only [h.there, names, h.atCore, h.free, strays, kind, bne_self_eq_false, Bool.or_self, Bool.false_eq_true, if_false]
theorem settlement_arrives {n : Word} {v : Value} {code : Byte} {scope : Nat} (eff : q.eff = .settle n v code scope) :
    (code = 0 → exec (.claimFulfilment id) s = .next ((s.settle q.lodging n v code).answer id .ack)) ∧
    (code ≠ 0 → exec (.claimBreak id) s = .next ((s.settle q.lodging n v code).answer id .ack)) :=
  ⟨fun hc => congrArg Host.Outcome.next (settles_applies h strays eff (by simp [hc])),
    fun hc => congrArg Host.Outcome.next (settles_applies h strays eff (by simpa using hc))⟩
end

end Sys2Proof.Claims
end

section
namespace Sys2Proof.Claims
open Sys2Proof.Machine

/-! ## What a claim does when it settles (R255, R256) -/

section
variable {s : State}

theorem req_answer (s : State) (id : Nat) (a : Resp) (w : Nat) :
    (s.answer id a).req w = if w = id then (s.req w).map fun q => { q with stage := .done a } else s.req w := by
  split
  · next hw =>
    subst hw
    cases h : s.req w with
    | none =>
      rw [State.answer, State.setStage, req_updReq s w w (f := fun q => { q with stage := .done a }) (fun _ => rfl), h]
      rfl
    | some q => exact req_answer_same a h
  · next hw => exact req_answer_other a hw
/-- Whether a request waits for a status is no matter of its stage. -/
theorem isSt_answer (s : State) (id : Nat) (a : Resp) (w : Nat) : (s.answer id a).isSt w = s.isSt w := by
  unfold State.isSt
  rw [req_answer]
  by_cases hw : w = id
  · rw [if_pos hw]
    cases s.req w with
    | none => rfl
    | some q =>
      obtain ⟨_, _, _, _, _, _, eff⟩ := q
      cases eff with
      | peer _ _ body => cases body <;> rfl
      | _ => rfl
  · rw [if_neg hw]

/-- The waiters `ids` of a claim of rank `rank` land, in the order of their records. -/
def landWaiters (resolved : Bool) (v : Value) (code : Byte) (rank : Nat) (ids : List Nat) (s : State) : State :=
  ids.foldl (fun s id => s.answer id (.val (claimLanding resolved v code (s.isSt id)) rank)) s

variable (resolved : Bool) (v : Value) (code : Byte) (rank : Nat)
theorem core_landWaiters (ids : List Nat) (s : State) (c : Nat) : (landWaiters resolved v code rank ids s).core c = s.core c := by
  induction ids generalizing s with
  | nil => rfl
  | cons i ids ih => exact ih _
theorem req_landWaiters (ids : List Nat) (s : State) (w : Nat) : (landWaiters resolved v code rank ids s).req w =
    if w ∈ ids then (s.req w).map fun q => { q with stage := .done (.val (claimLanding resolved v code (s.isSt w)) rank) } else s.req w := by
  induction ids generalizing s with
  | nil => rfl
  | cons i ids ih =>
    refine (ih _).trans ?_
    rw [req_answer, isSt_answer]
    by_cases here : w = i
    · subst here
      cases s.req w <;> simp
    · simp [here]
end

section
variable {s : State} {r k : Nat} {v : Value} {code : Byte}

/-- A pending claim, settled (R256). -/
def settledClaim (x : Claim) (v : Value) (code : Byte) (settled : Nat) : Claim :=
  { x with state := if code = 0 then 2 else 3, value := if code = 0 then v else default, code := code, chain := x.rank, heldAt := 0,
           invs := [], waiters := [], settled := settled }
/-- A settlement without held invocations: the entry changes, and the waiters land. -/
theorem settleAt_eq (pending : (mapGet (s.core r).claims k).state = 1) (noInvs : (mapGet (s.core r).claims k).invs = []) :
    let x := mapGet (s.core r).claims k
    s.settleAt r k v code = landWaiters (code == 0) v code x.rank x.waiters
      { s.updCore r fun c => { c with claims := mapSet c.claims k (settledClaim x v code s.nextReq) } with nextReq := s.nextReq + 1 } := by
  unfold State.settleAt
  dsimp only
  rw [if_neg (not_not_intro pending), noInvs]
  rfl
theorem settle_pending {lodging : Nat} {n : Word} (home : s.claimHome lodging n = some (r, k)) (pending : (mapGet (s.core r).claims k).state = 1)
    (whole : code = 0 → v.tag ≠ .broken) : s.settle lodging n v code = s.settleAt r k v code := by
  unfold State.settle
  simp only [home]
  exact (if_neg (not_not_intro pending)).trans (if_neg fun hc => whole hc.1 hc.2)
theorem settle_stale {lodging : Nat} {n : Word} (home : s.claimHome lodging n = none) (router : s.router lodging (claimCore n) = some r) :
    s.settle lodging n v code = s.count r 14 1 := by
  unfold State.settle
  simp only [home, router]
end

/-- What a settlement leaves at a claim that was pending and held no invocation, and of the requests that waited for it. -/
theorem settle_leaves {s : State} {id : Nat} {q : Req} {r k : Nat} {n : Word} {v : Value} {code : Byte} (there : s.req id = some q)
    (home : s.claimHome q.lodging n = some (r, k)) (pending : (mapGet (s.core r).claims k).state = 1) (whole : code = 0 → v.tag ≠ .broken)
    (noInvs : (mapGet (s.core r).claims k).invs = [])
    (notSelf : id ∉ (mapGet (s.core r).claims k).waiters) :
    let x := mapGet (s.core r).claims k
    let t := (s.settle q.lodging n v code).answer id .ack
    t.req id = some { q with stage := .done .ack } ∧ mapGet (t.core r).claims k = settledClaim x v code s.nextReq ∧
      ∀ w ∈ x.waiters, ∀ p, s.req w = some p →
        t.req w = some { p with stage := .done (.val (claimLanding (code == 0) v code (s.isSt w)) x.rank) } := by
  intro x t
  have settled : s.settle q.lodging n v code = landWaiters (code == 0) v code x.rank x.waiters
      { s.updCore r fun c => { c with claims := mapSet c.claims k (settledClaim x v code s.nextReq) } with nextReq := s.nextReq + 1 } :=
    (settle_pending home pending whole).trans (settleAt_eq pending noInvs)
  have req (w : Nat) : (s.settle q.lodging n v code).req w = if w ∈ x.waiters
      then (s.req w).map fun q => { q with stage := .done (.val (claimLanding (code == 0) v code (s.isSt w)) x.rank) } else s.req w := by
    rw [settled, req_landWaiters]
    rfl
  refine ⟨?_, ?_, fun w hw p hp => ?_⟩
  · exact req_answer_same .ack ((req id).trans ((if_neg notSelf).trans there))
  · show mapGet ((s.settle q.lodging n v code).core r).claims k = _
    rw [settled, core_landWaiters]
    show mapGet ((s.updCore r fun c => { c with claims := mapSet c.claims k (settledClaim x v code s.nextReq) }).core r).claims k = _
    rw [core_updCore_same, mapGet_mapSet_same]
  · have other : w ≠ id := fun e => notSelf (e ▸ hw)
    rw [req_answer_other .ack other, req, if_pos hw, hp]
    rfl

end Sys2Proof.Claims
end

section
namespace Sys2Proof.Claims
open Sys2Proof.Machine

/-! ## Messages (R262, R283) -/

theorem qBound_qWord (rank log : Nat) (b : Bool) (head : Nat) {count : Nat} (hc : count ≤ 512) :
    qBound (qWord rank log b head count) = b := by
  have bit : qWord rank log b head count / 2 ^ 39 % 2 = bit1 b := by
    have := bit1_le b
    unfold qWord
    omega
  rw [qBound, bit]
  cases b <;> rfl
theorem word_bytesOf (w : V512) : wordOfBytes 512 (bytesOf 64 w) = w := by
  rw [wordOfBytes, natOfBytes_bytesOf 64 w (by decide), BitVec.ofNat_toNat, BitVec.setWidth_eq]

/-- Where a push writes its entry (R262). -/
def pushPlace (s : State) (r off : Nat) : Nat :=
  let h := s.sByte r off 8
  qRing off + 64 * ((qHead h + qCount h) % 2 ^ qLog h)
section
variable {s : State} {r off : Nat} (m : Msg)

/-- The ring lies clear of its header. -/
theorem pushPlace_apart (inbox : off = 0xF000 → qLog (s.sByte r off 8) = 6) :
    off + 64 ≤ pushPlace s r off ∨ pushPlace s r off + 80 ≤ off := by
  have index := Nat.mod_lt (qHead (s.sByte r off 8) + qCount (s.sByte r off 8)) (Nat.two_pow_pos (qLog (s.sByte r off 8)))
  unfold pushPlace qRing
  dsimp only
  split
  · next hoff =>
    rw [inbox hoff] at index ⊢
    omega
  · omega
/-- The core of the queue before the header is written. -/
theorem core_enqueued : (s.enqueued r off m).core r =
    { s.core r with
      s := let l := (s.core r).s.put (pushPlace s r off) (bytesOf 64 m.data); if m.cap then l.setTag (pushPlace s r off / 16) true else l
      senders := mapSet (s.core r).senders (pushPlace s r off) (m.core, m.lodging)
      stamps := mapSet (s.core r).stamps (pushPlace s r off) (s.nextReq, s.cycle) } := by
  have stored := core_storeS_own s r (pushPlace s r off) (bytesOf 64 m.data) m.cap
  show ((s.storeS r (pushPlace s r off) (bytesOf 64 m.data) m.cap).updCore r fun c =>
    { c with senders := mapSet c.senders (pushPlace s r off) (m.core, m.lodging),
             stamps := mapSet c.stamps (pushPlace s r off) (s.nextReq, s.cycle) }).core r = _
  rw [core_updCore_same, stored]
theorem reqs_qPush : (s.qPush r off m).1.reqs = s.reqs := rfl
theorem waiters_qPush : ((s.qPush r off m).1.core r).waiters = (s.core r).waiters := by
  rw [qPush_eq]
  dsimp only
  rw [core_putS_own, core_enqueued]
theorem places_qPush : ((s.qPush r off m).1.core r).places = (s.core r).places := by
  rw [qPush_eq]
  dsimp only
  rw [core_putS_own, core_enqueued]
theorem header_qPush : let h := s.sByte r off 8
    (s.qPush r off m).1.sByte r off 8 = qWord (qRank h) (qLog h) (qBound h) (qHead h) (qCount h + 1) := by
  have count := qCount_lt (s.sByte r off 8)
  rw [qPush_eq]
  exact sByte_putS_own _ _ _ (qWord_lt _ _ _ (qLog_lt _) (by omega))
/-- The entry of a push holds the message's bytes and its tag. -/
theorem entry_qPush (inbox : off = 0xF000 → qLog (s.sByte r off 8) = 6) : let h := s.sByte r off 8
    ((s.qPush r off m).1.core r).qEntry off ((qHead h + qCount h) % 2 ^ qLog h) = (m.data, m.cap) := by
  have apart := pushPlace_apart inbox
  rw [qPush_eq]
  dsimp only
  rw [core_putS_own, core_enqueued]
  show (wordOfBytes 512 (bytesAt (LStore.put _ off _).bytes (pushPlace s r off) 64), mapGet (LStore.put _ off _).tags (pushPlace s r off / 16)) = _
  rw [bytesAt_put_apart _ (by rw [length_bytesOf]; omega), tags_put_apart _ (by rw [length_bytesOf]; omega)]
  dsimp only
  refine Prod.ext ?_ ?_
  · refine (congrArg (wordOfBytes 512) (?_ : _ = bytesOf 64 m.data)).trans (word_bytesOf m.data)
    split
    · exact bytesAt_put _ _ (length_bytesOf ..)
    · exact bytesAt_put _ _ (length_bytesOf ..)
  · cases m.cap
    · exact tags_put_start _ _ (by rw [length_bytesOf]; decide)
    · show mapGet (mapSet _ _ true) _ = true
      exact mapGet_mapSet_same ..
/-- A message for a queue that no handler serves and nothing waits for stays there. -/
theorem deliver_plain (unbound : qBound (s.sByte r off 8) = false) (idle : mapGet (s.core r).waiters off = []) :
    s.deliver r off m = (s.qPush r off m).1 := by
  have count := qCount_lt (s.sByte r off 8)
  have waiters : mapGet ((s.qPush r off m).1.core r).waiters off = [] := by rw [waiters_qPush, idle]
  have unbound' : qBound ((s.qPush r off m).1.sByte r off 8) = false := by
    rw [header_qPush, qBound_qWord _ _ _ _ (by omega), unbound]
  show (s.qPush r off m).1.serveQueue r off (63 + 1) = _
  unfold State.serveQueue
  simp only [waiters]
  show (s.qPush r off m).1.runHandlers r off (255 + 1) = _
  unfold State.runHandlers
  exact if_neg (by simp [unbound'])
/-- The place that a SEND has reserved is taken (R267). -/
def takesPlace (s : State) (r off : Nat) : State := s.updCore r fun c => { c with places := mapUpd c.places off (· - 1) }
theorem sByte_takesPlace (a n : Nat) : (takesPlace s r off).sByte r a n = s.sByte r a n := by
  rw [takesPlace, State.sByte, core_updCore_same]
  rfl
theorem sendArrives_place {q : Req} (slot : q.act.slot ≠ 99) : s.sendArrives q r off m =
    if qBad ((takesPlace s r off).sByte r off 8) then ((takesPlace s r off).count r 14 1).answer q.id .ack
    else ((takesPlace s r off).deliver r off m).answer q.id .ack := by
  unfold State.sendArrives takesPlace
  rw [if_neg slot]
theorem sendArrives_plain {q : Req} (h : Plain s r off) (slot : q.act.slot ≠ 99) :
    s.sendArrives q r off m = ((takesPlace s r off).qPush r off m).1.answer q.id .ack := by
  have good : ¬ qBad ((takesPlace s r off).sByte r off 8) = true := by
    rw [sByte_takesPlace, h.good]
    exact Bool.false_ne_true
  have idle : mapGet ((takesPlace s r off).core r).waiters off = [] := by
    rw [takesPlace, core_updCore_same]
    exact h.idle
  have delivered := deliver_plain (s := takesPlace s r off) (r := r) (off := off) m ((congrArg qBound (sByte_takesPlace ..)).trans h.unbound) idle
  rw [sendArrives_place m slot, if_neg good, delivered]
/-- The message has entered the queue, in the place that was reserved for it. -/
theorem sendArrives_leaves {id : Nat} {q : Req} (there : s.req id = some q) (h : Plain s r off) (slot : q.act.slot ≠ 99) :
    let t := s.sendArrives q r off m
    t.req id = some { q with stage := .done .ack } ∧ Entered s t r off m ∧ mapGet (t.core r).places off = mapGet (s.core r).places off - 1 := by
  intro t
  obtain rfl := id_of_req there
  have leaves : t = ((takesPlace s r off).qPush r off m).1.answer q.id .ack := sendArrives_plain m h slot
  clear_value t
  subst leaves
  have inbox : off = 0xF000 → qLog ((takesPlace s r off).sByte r off 8) = 6 := by
    rw [sByte_takesPlace]
    exact h.inbox
  have header := header_qPush (s := takesPlace s r off) (r := r) (off := off) m
  have entry := entry_qPush m inbox
  have places := places_qPush (s := takesPlace s r off) (r := r) (off := off) m
  have kept : ((takesPlace s r off).qPush r off m).1.req q.id = some q :=
    (req_of_reqs (reqs_qPush (s := takesPlace s r off) (r := r) (off := off) m) q.id).trans there
  simp only [sByte_takesPlace, h.unbound] at header entry
  refine ⟨?_, ⟨?_, ?_⟩, ?_⟩
  · exact req_answer_same .ack kept
  · rw [sByte_answer]
    exact header
  · rw [core_answer]
    exact entry
  · rw [core_answer, places, takesPlace, core_updCore_same]
    exact mapGet_mapUpd_same (s.core r).places off (· - 1)
end

theorem queueMessage_arrives {s : State} {id : Nat} {q : Req} {r off d qoff owner : Nat} {m : Msg} (h : Comes s id q r off)
    (eff : q.eff = .message (.queue d qoff owner) m none) (held : s.messageHeld q = false) (first : (s.preceded q fun p => p.dest == q.dest) = false)
    (own : (s.core r).lodging = owner) (live : (s.lodging owner).out = false)
    (listed : s.routeListed q.act.core r q.lodging owner = true) :
    exec (.queueMessageArrival id) s = .next (s.sendArrives q r qoff m) := by
  show execQueueMessageArrival id s = _
  unfold execQueueMessageArrival
  simp only [h.there, eff, h.atCore]
  refine (if_neg ?_).trans ((if_neg ?_).trans ((if_neg ?_).trans rfl))
  · simp [h.free, held, first]
  · simp
  · simp [live, own, listed]

end Sys2Proof.Claims
end

section
namespace Sys2Proof.Claims
open Sys2Proof.Machine

/-! ## Waits that ask again (R255, R263) -/

section
variable {s : State} {id : Nat} {q : Req} {reg kind : Nat} {st : Bool} {o : Word} (h : Standing s id q .waiting)
  (eff : q.eff = .waitObj reg st kind o)
include h

/-- The request waits on, and asks again an interval from now. -/
theorem req_later : (s.updReq q.id fun x => { x with stage := .waiting, since := s.cycle }).req id = some { q with since := s.cycle } := by
  obtain rfl := id_of_req h.there
  refine (req_updReq_same (f := fun x => { x with stage := .waiting, since := s.cycle }) (fun _ => rfl) h.there).trans ?_
  rw [← h.stage]
include eff
theorem poll_eq (receipt : kind ≠ 5) (claims : Bool) : s.poll id claims =
    if (kind == 8) == claims && q.due s && !s.barred q && !s.recorded q kind o && !s.asksBefore q kind o then s.performWait q st kind o else s := by
  have waits : q.waitsFor = some (kind, o, st) := by
    rw [Req.waitsFor, eff, h.stage]
    exact if_neg receipt
  unfold State.poll
  simp only [h.there, waits]
theorem poll_early (receipt : kind ≠ 5) (claims : Bool) (early : s.cycle.toNat < q.since.toNat + 1024) : s.poll id claims = s := by
  have due : q.due s = false := decide_eq_false (Nat.not_le.2 early)
  rw [poll_eq h eff receipt, due]
  exact if_neg (by simp)
theorem poll_asks (receipt : kind ≠ 5) {claims : Bool} (own : (kind == 8) = claims) (due : q.since.toNat + 1024 ≤ s.cycle.toNat)
    (free : s.barred q = false) (unrecorded : s.recorded q kind o = false) (first : s.asksBefore q kind o = false) :
    s.poll id claims = s.performWait q st kind o := by
  have due' : q.due s = true := decide_eq_true due
  rw [poll_eq h eff receipt]
  exact if_pos (by simp [own, due', free, unrecorded, first])
end

section
variable {s : State} {id : Nat} {q : Req} {st : Bool} {o : Word} {k j : Nat}

/-- A claim that has settled is answered at once (R255). -/
theorem performWait_settled (home : s.claimHome q.lodging o = some (k, j)) (settled : 2 ≤ (mapGet (s.core k).claims j).state) :
    let x := mapGet (s.core k).claims j
    s.performWait q st 8 o = s.answer q.id (.val (claimLanding (x.state == 2) x.value x.code st) x.rank) := by
  intro x
  unfold State.performWait
  simp only [home, if_true]
  exact if_pos settled
/-- A pending claim records a waiter that it does not have, while there are records (R255). -/
theorem performWait_claim (h : Standing s id q .waiting) (home : s.claimHome q.lodging o = some (k, j))
    (pending : (mapGet (s.core k).claims j).state = 1) (unrecorded : s.recorded q 8 o = false)
    (room : (mapGet (s.core k).claims j).waiters.length < 16) (records : (s.core k).claimWaiters < 256) :
    let x := mapGet (s.core k).claims j
    mapGet ((s.performWait q st 8 o).core k).claims j = { x with waiters := x.waiters ++ [id] } ∧
      (s.performWait q st 8 o).req id = some { q with since := s.cycle } := by
  intro x
  have new : (mapGet (s.core k).claims j).waiters.contains q.id = false := by
    unfold State.recorded at unrecorded
    simpa only [if_true, home] using unrecorded
  have asks : s.performWait q st 8 o = (s.updCore k fun c =>
      { c with claims := mapUpd c.claims j fun y => { y with waiters := y.waiters ++ [q.id] } }).updReq q.id
        fun x => { x with stage := .waiting, since := s.cycle } := by
    unfold State.performWait
    simp only [home, if_true]
    rw [if_neg (by rw [pending]; decide), if_neg (by rw [new]; decide), if_neg (by simpa using ⟨room, records⟩)]
    rfl
  rw [asks]
  refine ⟨?_, ?_⟩
  · rw [core_updReq, core_updCore_same, id_of_req h.there]
    exact mapGet_mapUpd_same (s.core k).claims j fun y => { y with waiters := y.waiters ++ [id] }
  · exact req_later (s := s.updCore k fun c => { c with claims := mapUpd c.claims j fun y => { y with waiters := y.waiters ++ [q.id] } })
      ⟨h.there, h.stage⟩

/-- A counter that is bound or empty is answered at once (R229, R263). -/
theorem performWait_counter (router : s.router q.lodging (addrCore o) = some k) (good : ctrBad (s.sByte k (addrOff o) 8) = false)
    (ended : ctrBound (s.sByte k (addrOff o) 8) = true ∨ ctrLeft (s.sByte k (addrOff o) 8) = 0) : s.performWait q st 7 o =
      s.answer q.id (.val (counterValue (s.sByte k (addrOff o) 8) st) (ctrRank (s.sByte k (addrOff o) 8))) := by
  unfold State.performWait
  refine (if_neg (by decide)).trans ?_
  simp only [router, if_true]
  exact (if_neg (by simp [good])).trans (if_pos (by simpa using ended))
/-- A counter with units left records a waiter that it does not have, while there are records (R263). -/
theorem performWait_recorded (h : Standing s id q .waiting) (router : s.router q.lodging (addrCore o) = some k)
    (good : ctrBad (s.sByte k (addrOff o) 8) = false) (unbound : ctrBound (s.sByte k (addrOff o) 8) = false)
    (left : ctrLeft (s.sByte k (addrOff o) 8) ≠ 0) (unrecorded : s.recorded q 7 o = false) (records : (s.core k).objectWaiters < 64) :
    mapGet ((s.performWait q st 7 o).core k).waiters (addrOff o) = mapGet (s.core k).waiters (addrOff o) ++ [id] ∧
      (s.performWait q st 7 o).req id = some { q with since := s.cycle } := by
  have new : (mapGet (s.core k).waiters (addrOff o)).contains q.id = false := by
    unfold State.recorded at unrecorded
    simpa only [router, if_neg (show ¬ (7 : Nat) = 8 by decide)] using unrecorded
  have asks : s.performWait q st 7 o = (s.updCore k fun c =>
      { c with waiters := mapSet c.waiters (addrOff o) (mapGet (s.core k).waiters (addrOff o) ++ [q.id]) }).updReq
        q.id fun x => { x with stage := .waiting, since := s.cycle } := by
    unfold State.performWait
    refine (if_neg (by decide)).trans ?_
    simp only [router, if_true]
    rw [if_neg (by simp [good]), if_neg (by simp [unbound, left]), if_neg (by rw [new]; simpa using records)]
    rfl
  rw [asks]
  refine ⟨?_, ?_⟩
  · rw [core_updReq, core_updCore_same, id_of_req h.there]
    exact mapGet_mapSet_same ..
  · exact req_later (s := s.updCore k fun c =>
      { c with waiters := mapSet c.waiters (addrOff o) (mapGet (s.core k).waiters (addrOff o) ++ [q.id]) }) ⟨h.there, h.stage⟩
end

end Sys2Proof.Claims
end

section
namespace Sys2Proof.Claims
open Sys2Proof.Machine

/-! ## What each arrival leaves -/

section
variable {s : State} {id : Nat} {q : Req} {r off : Nat} (h : Comes s id q r off) (strays : s.strays q r = false)
include h strays

theorem discharge_arrives {c : Word} {n scope : Nat} {broken : Bool} (eff : q.eff = .discharge c n scope broken) (first : s.overlapped q = false)
    (stays : n < ctrLeft (s.sByte r off 8) ∨ (ctrBound (s.sByte r off 8) = false ∧ mapGet (s.core r).waiters off = [])) :
    let w := s.sByte r off 8
    ∃ t, exec (.counterDischarge id) s = .next t ∧ t.req id = some { q with stage := .done .ack } ∧
      t.sByte r off 8 = ctrWord (ctrRank w) (ctrScope w) (ctrWaitable w) (ctrFired w) (ctrBroken w || broken || decide (ctrLeft w < n)) (ctrBound w)
        (ctrLeft w - n) ∧
      (∀ a, a < off ∨ off + 8 ≤ a → mapGet (t.core r).s.bytes a = mapGet (s.core r).s.bytes a) ∧
      ∀ k, k ≠ r → (∀ p ∈ s.twinsOf r .s off 8, p.1 ≠ k) → t.core k = s.core k := by
  intro w
  have stored := discharge_stores (broken := broken) stays
  refine ⟨_, counterDischarge_applies h strays eff first, req_answer_same .ack ((req_of_reqs stored.reqs id).trans h.there), ?_, ?_, ?_⟩
  · rw [sByte_answer]
    exact stored.word
  · simp only [core_answer]
    exact stored.bytes
  · simp only [core_answer]
    exact stored.others
theorem bind_arrives {c : Word} {b : Binding} (eff : q.eff = .bind c b) (first : s.overlapped q = false)
    (goes : (s.lodging q.lodging).ending = 0) (unbound : ctrBound (s.sByte r off 8) = false) (left : ctrLeft (s.sByte r off 8) ≠ 0)
    (idle : mapGet (s.core r).waiters off = []) :
    let w := s.sByte r off 8
    ∃ t, exec (.bindArrival id) s = .next t ∧ t.req id = some { q with stage := .done .ack } ∧
      t.sByte r off 8 = ctrWord (ctrRank w) (ctrScope w) false (ctrFired w) (ctrBroken w) true (ctrLeft w) ∧
      t.sByte r (off + 8) 8 = (capAddr b.entry).toNat ∧ mapGet (t.core r).binds off = b.keep (mapGet (s.core r).binds off) := by
  intro w
  obtain ⟨reqs, word, entry, binds⟩ := bind_leaves (b := b) left idle
  refine ⟨(s.bind r off b).answer id .ack, ?_, req_answer_same .ack ((req_of_reqs reqs id).trans h.there), ?_, ?_, ?_⟩
  · rw [bindArrival_meets h strays eff first goes, if_neg (by rw [unbound]; decide)]
  · rw [sByte_answer]
    exact word
  · rw [sByte_answer]
    exact entry
  · rw [core_answer]
    exact binds
theorem secondBind_arrives {c : Word} {b : Binding} (eff : q.eff = .bind c b) (first : s.overlapped q = false)
    (goes : (s.lodging q.lodging).ending = 0) (bound : ctrBound (s.sByte r off 8) = true) :
    ∃ t, exec (.bindArrival id) s = .next t ∧ t.req id = some { q with stage := .done .ack } ∧ (b.run = none → t.cores = s.cores) ∧
      ∀ e ∈ b.escrow, ∃ p ∈ t.reqs, p.eff = breakEff 0x18 e ∧ p.lodging = q.lodging := by
  refine ⟨_, ?_, bindBroken_leaves (r := r) (b := b) h.there⟩
  rw [bindArrival_meets h strays eff first goes, if_pos bound]
section
variable {n : Word} {i : Invocation} {k : Nat} (eff : q.eff = .invokec n i) (slot : q.act.slot ≠ 99) (first : s.invocationHeld q n r = false)
  (goes : (s.lodging i.lodging).ending = 0) (home : s.claimHome q.lodging n = some (r, k))
include eff slot first goes home

theorem invocation_arrives (pending : (mapGet (s.core r).claims k).state = 1) :
    let x := mapGet (s.core r).claims k
    ∃ t, exec (.invocationArrival id) s = .next t ∧ t.req id = some { q with stage := .done .ack } ∧
      mapGet (t.core r).claims k = { x with invs := x.invs ++ [i], reserved := x.reserved - 1 } := by
  intro x
  have entry := claim_placeFreed (s := s) (r := r) (k := k) id
  have held := invocation_held (s := placeFreed s id r k) (i := i) goes (claimHome_placeFreed id home) (by rw [entry]; exact pending) r
  refine ⟨_, invocationArrival_meets h strays eff slot first home, ?_, ?_⟩
  · rw [held]
    exact req_placeFreed (r := r) (k := k) h.there
  · rw [held, core_updCore_same]
    refine (mapGet_mapUpd_same ((placeFreed s id r k).core r).claims k fun y => { y with invs := y.invs ++ [i] }).trans ?_
    rw [entry]
    rfl
theorem brokenInvocation_arrives (broken : (mapGet (s.core r).claims k).state = 3) :
    let x := mapGet (s.core r).claims k
    ∃ t, exec (.invocationArrival id) s = .next t ∧ t.req id = some { q with stage := .done .ack } ∧
      (∃ p ∈ t.reqs, p.eff = .settle i.claim (dataValue 0) x.code 2) ∧ ∀ e ∈ i.obs, ∃ p ∈ t.reqs, p.eff = breakEff x.code e := by
  intro x
  have entry := claim_placeFreed (s := s) (r := r) (k := k) id
  have breaks := invocation_broken (s := placeFreed s id r k) (i := i) goes (claimHome_placeFreed id home) (by rw [entry]; exact broken) r
  rw [entry] at breaks
  refine ⟨(placeFreed s id r k).breakInvocation r i x.code, ?_, req_breakInvocation _ (req_placeFreed h.there), breakInvocation_breaks r x.code⟩
  exact (invocationArrival_meets h strays eff slot first home).trans (congrArg Host.Outcome.next breaks)
end
section
variable {n : Word} {v : Value} {code : Byte} {scope : Nat} (eff : q.eff = .settle n v code scope)
include eff

theorem settlement_settles {k : Nat} (home : s.claimHome q.lodging n = some (r, k)) (pending : (mapGet (s.core r).claims k).state = 1)
    (whole : code = 0 → v.tag ≠ .broken) (noInvs : (mapGet (s.core r).claims k).invs = [])
    (notSelf : id ∉ (mapGet (s.core r).claims k).waiters) :
    let x := mapGet (s.core r).claims k
    ∃ t, ((code = 0 → exec (.claimFulfilment id) s = .next t) ∧ (code ≠ 0 → exec (.claimBreak id) s = .next t)) ∧
      t.req id = some { q with stage := .done .ack } ∧ (mapGet (t.core r).claims k).state = (if code = 0 then 2 else 3) ∧
      (mapGet (t.core r).claims k).code = code ∧ (code = 0 → (mapGet (t.core r).claims k).value = v) ∧
      (mapGet (t.core r).claims k).waiters = [] ∧ ∀ w ∈ x.waiters, ∀ p, s.req w = some p →
        t.req w = some { p with stage := .done (.val (claimLanding (code == 0) v code (s.isSt w)) x.rank) } := by
  obtain ⟨acked, entry, landed⟩ := settle_leaves (v := v) (code := code) h.there home pending whole noInvs notSelf
  refine ⟨_, settlement_arrives h strays eff, acked, ?_, ?_, fun hc => ?_, ?_, landed⟩
  · rw [entry]
    rfl
  · rw [entry]
    rfl
  · rw [entry]
    exact if_pos hc
  · rw [entry]
    rfl
theorem settlement_stale (home : s.claimHome q.lodging n = none) (router : s.router q.lodging (claimCore n) = some r) :
    (code = 0 → exec (.claimFulfilment id) s = .next ((s.count r 14 1).answer id .ack)) ∧
      (code ≠ 0 → exec (.claimBreak id) s = .next ((s.count r 14 1).answer id .ack)) := by
  rw [← settle_stale (v := v) (code := code) home router]
  exact settlement_arrives h strays eff
end
end

section
variable {s : State} {id : Nat} {q : Req} {reg : Nat} {st : Bool} {o : Word} (h : Standing s id q .waiting)
include h

theorem claimPoll_early (eff : q.eff = .waitObj reg st 8 o) (early : s.cycle.toNat < q.since.toNat + 1024) :
    exec (.claimWaiterPoll id) s = .next s := congrArg Host.Outcome.next (poll_early h eff (by decide) true early)
theorem objectPoll_early (eff : q.eff = .waitObj reg st 7 o) (early : s.cycle.toNat < q.since.toNat + 1024) :
    exec (.objectWaiterPoll id) s = .next s := congrArg Host.Outcome.next (poll_early h eff (by decide) false early)
section
variable {k j : Nat} (eff : q.eff = .waitObj reg st 8 o) (due : q.since.toNat + 1024 ≤ s.cycle.toNat) (free : s.barred q = false)
  (unrecorded : s.recorded q 8 o = false) (first : s.asksBefore q 8 o = false) (home : s.claimHome q.lodging o = some (k, j))
include eff due free unrecorded first

theorem claimPoll_asks : exec (.claimWaiterPoll id) s = .next (s.performWait q st 8 o) :=
  congrArg Host.Outcome.next (poll_asks h eff (by decide) rfl due free unrecorded first)
include home
theorem claimPoll_settled (settled : (mapGet (s.core k).claims j).state = 2 ∨ (mapGet (s.core k).claims j).state = 3) :
    let x := mapGet (s.core k).claims j
    exec (.claimWaiterPoll id) s = .next (s.answer id (.val (claimLanding (x.state == 2) x.value x.code st) x.rank)) := by
  rw [claimPoll_asks h eff due free unrecorded first, performWait_settled home (by omega), id_of_req h.there]
theorem claimPoll_records (pending : (mapGet (s.core k).claims j).state = 1) (room : (mapGet (s.core k).claims j).waiters.length < 16)
    (records : (s.core k).claimWaiters < 256) :
    let x := mapGet (s.core k).claims j
    ∃ t, exec (.claimWaiterPoll id) s = .next t ∧ mapGet (t.core k).claims j = { x with waiters := x.waiters ++ [id] } ∧
      t.req id = some { q with since := s.cycle } :=
  ⟨_, claimPoll_asks h eff due free unrecorded first, performWait_claim h home pending unrecorded room records⟩
end
section
variable {k : Nat} (eff : q.eff = .waitObj reg st 7 o) (due : q.since.toNat + 1024 ≤ s.cycle.toNat) (free : s.barred q = false)
  (unrecorded : s.recorded q 7 o = false) (first : s.asksBefore q 7 o = false) (router : s.router q.lodging (addrCore o) = some k)
  (good : ctrBad (s.sByte k (addrOff o) 8) = false)
include eff due free unrecorded first

theorem objectPoll_asks : exec (.objectWaiterPoll id) s = .next (s.performWait q st 7 o) :=
  congrArg Host.Outcome.next (poll_asks h eff (by decide) rfl due free unrecorded first)
include router good
theorem objectPoll_answered (ended : ctrBound (s.sByte k (addrOff o) 8) = true ∨ ctrLeft (s.sByte k (addrOff o) 8) = 0) :
    let x := s.sByte k (addrOff o) 8
    exec (.objectWaiterPoll id) s = .next (s.answer id (.val (counterValue x st) (ctrRank x))) := by
  rw [objectPoll_asks h eff due free unrecorded first, performWait_counter router good ended, id_of_req h.there]
theorem objectPoll_records (unbound : ctrBound (s.sByte k (addrOff o) 8) = false) (left : ctrLeft (s.sByte k (addrOff o) 8) ≠ 0)
    (records : (s.core k).objectWaiters < 64) :
    ∃ t, exec (.objectWaiterPoll id) s = .next t ∧ mapGet (t.core k).waiters (addrOff o) = mapGet (s.core k).waiters (addrOff o) ++ [id] ∧
      t.req id = some { q with since := s.cycle } :=
  ⟨_, objectPoll_asks h eff due free unrecorded first, performWait_recorded h router good unbound left unrecorded records⟩
end
end

/-- Settles O49: each arrival passes all that would hold or drop it, and what its home then does is an update of the counter, the claim or the queue,
and an answer. -/
theorem homeArrivals : Obligations.HomeArrivals := by
  intro s id q r off w acked
  refine ⟨fun _ _ _ _ h strays eff first stays => discharge_arrives h strays eff first stays,
    fun _ _ h strays eff first goes => ⟨fun unbound left idle => bind_arrives h strays eff first goes unbound left idle,
      fun bound => secondBind_arrives h strays eff first goes bound⟩,
    fun _ _ _ h strays eff slot held goes home => ⟨fun pending => invocation_arrives h strays eff slot held goes home pending,
      fun broken => brokenInvocation_arrives h strays eff slot held goes home broken⟩,
    fun _ _ _ _ h strays eff => ⟨fun _ home pending whole noInvs notSelf => settlement_settles h strays eff home pending whole noInvs notSelf,
      fun home router => settlement_stale h strays eff home router⟩,
    fun _ _ _ m h eff held first own live slot listed plain =>
      ⟨_, queueMessage_arrives h eff held first own live listed, sendArrives_leaves m h.there plain slot⟩,
    fun _ _ _ h eff => ⟨fun early => claimPoll_early h eff early, fun _ _ due free unrecorded first home =>
      ⟨fun settled => claimPoll_settled h eff due free unrecorded first home settled,
        fun pending room records => claimPoll_records h eff due free unrecorded first home pending room records⟩⟩,
    fun _ _ _ h eff => ⟨fun early => objectPoll_early h eff early, fun _ due free unrecorded first router good =>
      ⟨fun ended => objectPoll_answered h eff due free unrecorded first router good ended,
        fun unbound left records => objectPoll_records h eff due free unrecorded first router good unbound left records⟩⟩⟩

end Sys2Proof.Claims
end
